-- ==== Sys2Proof/Word.lean ====
section
/-! DEFINITION. The word types of the LU-6144 (spec/00 R4: 32-bit words, 8-bit bytes). -/

namespace Sys2Proof

/-- A 32-bit register word. -/
abbrev Word := BitVec 32

/-- A byte of memory. -/
abbrev Byte := BitVec 8

end Sys2Proof
end

