-- ==== Sys2Proof/Syntax.lean ====
section
/-! DEFINITION. The commands of the LU-6144 and their operands: one constructor of `Instr` per row of
spec/opcode_table.json.  What the world outside decides (who asks, a frame's octets, a measured power) is an operand
(DESIGN CHOICE, log entry 3). -/

namespace Sys2Proof

/-- Requesters of an access (spec/02 R37, ERR_ADDR.REQ). -/
inductive Req where
  | core (c : Fin 6) | dma | spi | calendar | vigil | jtag | self
  deriving DecidableEq, Repr

/-- Number of a requester in ERR_ADDR.REQ. -/
def Req.code : Req → Nat
  | .core c => c.val | .dma => 6 | .spi => 7 | .calendar => 8 | .vigil => 9 | .jtag => 10 | .self => 11

/-- Access sizes: byte, half-word, word, double-word. -/
inductive Sz where
  | b | h | w | d
  deriving DecidableEq, Repr

/-- Bytes of an access size. -/
def Sz.bytes : Sz → Nat
  | .b => 1 | .h => 2 | .w => 4 | .d => 8

/-- The COMMIT registers: of a page, a tracking channel, a calendar entry, a DMA channel (spec/02 R42). -/
inductive Target where
  | page (p : Fin 288) | chan (c : Fin 512) | entry (e : Fin 256) | dma (n : Fin 64)
  deriving DecidableEq, Repr

/-- What the analog side shows of one chain over an update period (spec/03 R49, R60, R67): the converter's samples (I, Q) that
enter the digital path in it, oldest first; the tone-to-floor estimates of the notches in 1/256 dB; and the outcome of a
calibration that ends at this tick (`okCal`, `res1`, `res2`, `rej`; OSC: `okOsc`, `okStored`, `band`). -/
structure ChainIn where
  adc      : List (Int × Int)
  tone     : List Nat
  okCal    : Bool
  res1     : Int
  res2     : Int
  rej      : Nat
  okStored : Bool
  okOsc    : Bool
  band     : Nat
  deriving DecidableEq, Repr

/-- A sample of a channel's source as the analog side shows it (spec/05 R113): I and Q of the chain; of a beam source, of the chains of
ANT_A (`i`, `q`) and of ANT_B (`i2`, `q2`) in its band, at the sample that the beam sample is formed from (spec/07 R171). -/
structure Smp where
  i  : Int
  q  : Int
  i2 : Int := 0
  q2 : Int := 0
  deriving DecidableEq, Repr

/-- A received frame of CDL_SYNC_IN of the row's type (spec/07 R162, R163); `ok` when its CRC passes, `gap` the bits from the start
of the frame before it to its own. -/
structure CdlFrame where
  dest    : BitVec 4
  src     : BitVec 3
  hops    : BitVec 3
  payload : BitVec 64
  ok      : Bool
  gap     : Nat := 128
  deriving DecidableEq, Repr

/-- A received IDLE frame, or one of the reserved types 7 to F: `reserved` is its type less 7 (spec/07 R163). -/
structure CdlIdle where
  frame    : CdlFrame
  reserved : Option (Fin 9)
  deriving DecidableEq, Repr

/-- A received SET_GSC frame, and the samples of the narrowband channels' sources up to the first group start of the new count
(spec/07 R160, spec/05 R130). -/
structure CdlLoad where
  frame : CdlFrame
  feed  : List (Nat × List Smp)
  deriving DecidableEq, Repr

/-- Header of a block received on the DRX lanes (spec/07 R165, R166): the position it names, and whether its CRC passes. -/
structure CdlHead where
  pos : Fin 8
  ok  : Bool
  deriving DecidableEq, Repr

/-- Lanes that lock (spec/07 R165): the module's own UTX lanes at its upstream neighbour, or DRX lanes of its own (bit 0 DRX0, bit 1
DRX1). -/
inductive LaneLock where
  | up
  | down (lanes : BitVec 2)
  deriving DecidableEq, Repr

/-- A frame received on an external port (spec/09 R211, R214): the port, the capture of the first bit after the SFD, its
octets without FCS, whether the FCS holds, and, where it is forwarded at once, the egress capture. -/
structure Rx where
  port   : Fin 2
  t      : BitVec 64
  fine   : BitVec 6
  octets : List (BitVec 8)
  fcsOk  : Bool
  eT     : BitVec 64
  eFine  : BitVec 6
  deriving DecidableEq, Repr

/-- An operand of a Thithigor instruction (spec/12 R300), one constructor per addressing mode: register numbers An and Am,
displacements, scale, stride, buffer pair k and bit count b as the descriptor holds them. -/
inductive Opd where
  | imm (v : BitVec 64)
  | short (v : BitVec 12)
  | abs (a : BitVec 32)
  | reg (r : BitVec 4)
  | disp (r : BitVec 4) (d : BitVec 8)
  | long (r : BitVec 4) (d : BitVec 32)
  | idx (r m : BitVec 4) (sc : BitVec 2)
  | post (r : BitVec 4) (s : BitVec 8)
  | pre (r : BitVec 4)
  | modulo (r : BitVec 4) (k : BitVec 2) (s : BitVec 6)
  | rev (r : BitVec 4) (k : BitVec 2) (b : BitVec 5)
  | buf (r : BitVec 3)
  deriving DecidableEq, Repr

/-- SZ, SAT and X of an ALU-layout opcode parcel (spec/12 R298). -/
structure Form where
  sz  : BitVec 3
  sat : Bool
  x   : BitVec 3
  deriving DecidableEq, Repr

/-- An instruction as its parcels hold it (spec/12 R297): opcode, bits [7:0] of the opcode parcel, operands, displacement. -/
structure Op where
  opc : BitVec 8
  low : BitVec 8
  l   : List Opd
  d   : BitVec 32
  deriving DecidableEq, Repr

/-- A CAN frame received without error (spec/18 R418): identifier, IDE, RTR, DLC, FDF, BRS, ESI, data, and the base counter
at its SOF edge. -/
structure CanRx where
  ident : BitVec 29
  ide   : Bool
  rtr   : Bool
  dlc   : BitVec 4
  fdf   : Bool
  brs   : Bool
  esi   : Bool
  data  : List (BitVec 8)
  sof   : BitVec 64
  deriving DecidableEq, Repr

/-- A command of the block, one constructor per row of spec/opcode_table.json. -/
inductive Instr where
  /-- REGISTER_WRITE (R9): A write to a register field that has no row of its own stores, ignores or logs the value according to its access word. -/
  | registerWrite (req : Req) (size : Sz) (addr : BitVec 32) (value : BitVec 64)
  /-- REGISTER_ACCESS_TIMEOUT (R28): The fabric ends a register access not acknowledged within 100 microseconds with a bus error. -/
  | registerAccessTimeout (req : Req) (addr : BitVec 32) (write : Bool)
  /-- COMMIT_WRITE (R38): A write to COMMIT.GEN of a page, channel, entry or DMA channel arms the shadow, replacing or deferring a pending generation or rejecting GEN 0. -/
  | commitWrite (req : Req) (target : Target) (gen : BitVec 16)
  /-- COMMIT_HAND_OVER (R38): At a block's hand-over instant the armed shadow is copied to the working copy, COMMIT_TAKEN is set and COMMIT_DONE raised. -/
  | commitHandOver (target : Target)
  /-- PAGE_LOCK (R36): Key 0x4C4B_0001 written to LOCK_KEY locks the page and its array pages. -/
  | pageLock (req : Req) (page : Fin 288)
  /-- PAGE_LOCK_STICKY (R36): Key 0x4C4B_0002 written to LOCK_KEY locks the page until the next reset. -/
  | pageLockSticky (req : Req) (page : Fin 288)
  /-- PAGE_UNLOCK (R36): Key 0x4C4B_0000 written to LOCK_KEY unlocks the page unless the lock is sticky. -/
  | pageUnlock (req : Req) (page : Fin 288)
  /-- IRQ_CLR (R35): A write to IRQ_CLR or CH_IRQ_CLR clears event bits and is acknowledged after the router sources deassert. -/
  | irqClr (req : Req) (target : Target) (mask : BitVec 32)
  /-- ERR_CLEAR (R37): ERR_CODE.CLR clears CODE, COUNT and ERR_ADDR. -/
  | errClear (req : Req) (page : Fin 288)
  /-- PAGE_ENABLE (R34): A write to PAGE_CTL.EN enables or idles a block that has no enable row of its own. -/
  | pageEnable (req : Req) (page : Fin 288) (en : Bool)
  /-- SOFT_RESET (R45): PAGE_CTL.SRST returns the page and its array pages to reset values, abandoning any pending COMMIT. -/
  | softReset (req : Req) (page : Fin 288) (en : Bool) (freeze : Bool)
  /-- SOFT_RESET_DONE (R45): The soft reset completes within 64 island clocks, BUSY clears and held accesses proceed. -/
  | softResetDone (page : Fin 288)
  /-- FREEZE (R44): Setting PAGE_CTL.FREEZE makes the block stop advancing its state. -/
  | freeze (req : Req) (page : Fin 288)
  /-- FREEZE_DONE (R44): Within 4 island clocks the frozen block stops and sets PAGE_STAT.FROZEN. -/
  | freezeDone (page : Fin 288) (feed : List (Nat × List Smp))
  /-- UNFREEZE (R44): Clearing FREEZE resumes the block, and the next hand-over takes any pending COMMIT. -/
  | unfreeze (req : Req) (page : Fin 288)
  /-- SWI_SET (R47): A 1 written to SWI_SET sets the latched level of a software interrupt source. -/
  | swiSet (req : Req) (mask : BitVec 8)
  /-- SWI_CLR (R47): A 1 written to SWI_CLR clears the latched level of a software interrupt source. -/
  | swiClr (req : Req) (mask : BitVec 8)
  /-- INTERRUPT_ENTRY (R289): At an instruction boundary a core takes the presented source of priority above IPL and enters the interrupt vector. -/
  | interruptEntry (core : Fin 6)
  /-- UPDATE_TICK (R52): Every 8,184 sample clocks the RF control island reaches an update tick for all four chains. -/
  | updateTick (c0 : ChainIn) (c1 : ChainIn) (c2 : ChainIn) (c3 : ChainIn)
  /-- CAL_DC (R57): CAL_CMD.DC requests a DC calibration of the chain. -/
  | calDc (req : Req) (chain : Fin 4)
  /-- CAL_FILTER (R57): CAL_CMD.FILTER requests a filter corner calibration of the chain. -/
  | calFilter (req : Req) (chain : Fin 4)
  /-- CAL_IMAGE (R57): CAL_CMD.IMAGE requests an image calibration of the chain. -/
  | calImage (req : Req) (chain : Fin 4)
  /-- CAL_OSC (R59): CAL_CMD.OSC requests or joins a VCO band calibration of the band LO on both chains of the band. -/
  | calOsc (req : Req) (chain : Fin 4)
  /-- CAL_ALL (R57): CAL_CMD.ALL requests DC, FILTER and IMAGE in sequence. -/
  | calAll (req : Req) (chain : Fin 4)
  /-- CAL_RESULT_WRITE (R60): A firmware write to a calibration result register takes effect at once unless the chain is busy. -/
  | calResultWrite (req : Req) (chain : Fin 4) (which : Fin 3) (value : BitVec 32)
  /-- CHAIN_ENABLE (R63): PAGE_CTL.EN going to 1 on an RFE page powers the analog path, waits two periods and runs ALL or applies stored results. -/
  | chainEnable (req : Req) (chain : Fin 4)
  /-- SPECTRUM_RECORD (R71): After 2^AVG_EXP transforms the monitor writes a spectrum record, updates MON_STAT and raises MON_DONE. -/
  | spectrumRecord (chain : Fin 4) (done : BitVec 64) (pre : List (List (Int × Int))) (post : List (List (Int × Int)))
  /-- BIAS_FOLDBACK (R76): Bias current above 75 mA switches the bias off within 5 microseconds and sets FOLDBACK. -/
  | biasFoldback (antenna : Fin 2)
  /-- BIAS_RETRY (R76): With AUTO_RETRY, a shorted bias is switched on again after RETRY times 100 ms. -/
  | biasRetry (antenna : Fin 2)
  /-- SNAP_START (R85): SNAP_CMD.START triggers a capture: takes an armed COMMIT, checks the region and claims its blocks. -/
  | snapStart (req : Req)
  /-- SNAP_CAPTURE (R85): A calendar snapshot capture action triggers a capture at its instant. -/
  | snapCapture (fire : BitVec 64) (late : Bool)
  /-- SNAP_STOP (R88): SNAP_CMD.STOP stops a ring capture after LEN x 512 more samples, or truncates a one-shot capture. -/
  | snapStop (req : Req)
  /-- CAP_DONE (R87): The last samples reach SRAM, the header is written with MAGIC last, blocks become complete and CAP_DONE is raised. -/
  | capDone (feed : List (List (Int × Int)))
  /-- CAP_OVERRUN (R89): An elastic buffer overflow ends the capture at the last gapless sample, sets OVERRUN and raises CAP_TRUNC. -/
  | capOverrun (held : Nat)
  /-- Q_TAIL_WRITE (R95): A write to Q_TAIL posts jobs to an engine queue, or is rejected with Q_RANGE. -/
  | qTailWrite (req : Req) (engine : Fin 2) (tail : BitVec 32)
  /-- JOB_START (R93): An enabled engine with a non-empty queue fetches the job at Q_HEAD and checks its descriptor. -/
  | jobStart (engine : Fin 2)
  /-- JOB_DONE (R95): A job finishes: candidates, result header and STATUS are written, Q_HEAD advances and JOB_DONE or JOB_ERR is raised. -/
  | jobDone (engine : Fin 2) (waits : Nat)
  /-- JOB_ABORT (R97): Q_CTL.ABORT ends the running job at the next transform boundary with status ABORTED. -/
  | jobAbort (req : Req) (engine : Fin 2)
  /-- JOB_FLUSH (R97): Q_CTL.FLUSH writes ABORTED into every queued job not started and sets Q_HEAD to Q_TAIL. -/
  | jobFlush (req : Req) (engine : Fin 2)
  /-- CHANNEL_RUN (R111): CH_CTL.RUN going to 1 moves an idle channel to WAIT for its start hand-over. -/
  | channelRun (req : Req) (chan : Fin 512)
  /-- CHANNEL_STOP (R112): CH_CTL.RUN going to 0 moves the channel to IDLE at the next sample, discarding the interval. -/
  | channelStop (req : Req) (chan : Fin 512)
  /-- CHANNEL_START (R111): At START_T a waiting channel takes its armed COMMIT, loads the initial phases, enters RUN and raises STARTED. -/
  | channelStart (chan : Fin 512)
  /-- INTERVAL_END (R118): A running channel's period count reaches an integration boundary, ending the interval and queueing its dump record. -/
  | intervalEnd (chan : Fin 512) (feed : List Smp)
  /-- DUMP_RECORD_WRITE (R127): The dump path writes a record whole into the ring when there is room and advances DUMP_WP. -/
  | dumpRecordWrite
  /-- OVF_CLR (R135): DUMP_CTL.OVF_CLR clears the dump overflow count. -/
  | ovfClr (req : Req)
  /-- GROUP_COMMIT (R125): A bit written to GRP_CMD commits that group: armed members take their shadow at one sample. -/
  | groupCommit (req : Req) (mask : BitVec 16) (feed : List (Nat × List Smp))
  /-- GROUP_COMMIT_ACTION (R125): A calendar tracking group commit action commits the named group at its instant. -/
  | groupCommitAction (group : Fin 16) (fire : BitVec 64) (feed : List (Nat × List Smp))
  /-- GRP_ARM (R126): A write to GRP_ARM arms a generation on every channel of a group as if written to each COMMIT. -/
  | grpArm (req : Req) (group : Fin 16) (gen : BitVec 16)
  /-- READBACK_CAPTURE (R129): A read of RB_T captures every readback field of the channel at one sample. -/
  | readbackCapture (req : Req) (chan : Fin 512)
  /-- TRKG_ENABLE (R134): A write to TRKG PAGE_CTL.EN holds all channels idle or releases channels with RUN into WAIT. -/
  | trkgEnable (req : Req) (en : Bool)
  /-- CS_DATA_WRITE (R136): A write to CS_DATA stores a code store word at CS_ADDR and advances CS_ADDR. -/
  | csDataWrite (req : Req) (value : BitVec 32)
  /-- CS_DATA_READ (R136): A read of CS_DATA returns the code store word at CS_ADDR and advances CS_ADDR. -/
  | csDataRead (req : Req)
  /-- CRC_START (R136): CS_CTL.CRC starts a CRC-32C computation over the whole code store. -/
  | crcStart (req : Req)
  /-- CRC_DONE (R136): The CRC computation completes, writes CS_CRC and raises CRC_DONE. -/
  | crcDone
  /-- MANUAL_LATCH (R137): MEAS_CMD.LATCH requests a measurement latch at the next sample edge. -/
  | manualLatch (req : Req) (clr : Bool)
  /-- MEAS_LATCH (R137): A calendar measurement latch action latches all running channels at the first sample at or after its instant. -/
  | measLatch (own : BitVec 64) (fire : BitVec 64) (late : Bool)
  /-- BLOCK_DONE (R144): The measurement block is written with MAGIC last, MEAS_WP advances and BLOCK_DONE is raised. -/
  | blockDone
  /-- MEAS_CNT_CLR (R155): MEAS_CMD.CNT_CLR clears MEAS_MISS and MEAS_OVR. -/
  | measCntClr (req : Req)
  /-- CDL_ENABLE (R175): CDL EN going to 1 starts the link in the module's role; a write of 0 then 1 starts a new alignment. -/
  | cdlEnable (req : Req) (en : Bool)
  /-- DLL_LOCK (R361): DLL_CDL acquires CDL_CLK_IN within 50 microseconds and sets DLL_LOCKED. -/
  | dllLock
  /-- LANES_UP (R165): 64 consecutive valid sync headers give block lock on the upstream lanes. -/
  | lanesUp (lock : LaneLock)
  /-- IDLE_FRAME (R163): A received IDLE frame keeps SYNC_LOCK and is forwarded. -/
  | idleFrame (f : CdlIdle)
  /-- EPOCH (R168): A received EPOCH frame schedules a latch at its GSC, or is discarded as late. -/
  | epoch (f : CdlFrame)
  /-- SET_GSC (R160): A received SET_GSC frame loads the group sample count at the first sample of the next frame. -/
  | setGsc (f : CdlLoad)
  /-- PING (R159): A received PING frame makes the module return a PONG block with its turnaround. -/
  | ping (f : CdlFrame) (turn : BitVec 24)
  /-- DLL_SET (R159): A received DLL_SET frame changes the DLL delay code. -/
  | dllSet (f : CdlFrame)
  /-- MSG_FRAME (R163): A received MSG frame or block stores the message in MSG_RX and raises MSG_RX. -/
  | msgFrame (f : CdlFrame) (block : Bool)
  /-- LEAVE (R175): A received LEAVE frame isolates the member. -/
  | leave (f : CdlFrame)
  /-- PONG (R159): A received PONG block gives one RTT sample; after 256 exchanges DLL_SET and SET_GSC are sent. -/
  | pong (h : CdlHead) (seq : BitVec 8) (turn : BitVec 24) (elapsed : Nat)
  /-- STATUS_BLOCK (R165): A received STATUS block updates the member's state; READY sets MEMBERS and raises MEMBER_READY. -/
  | statusBlock (h : CdlHead) (state : BitVec 3) (iso : Bool) (sends : Bool) (valid : BitVec 4)
  /-- SAMPLE_FRAME (R166): A received sample frame is stored in the alignment buffer or forwarded, or discarded as late. -/
  | sampleFrame (h : CdlHead) (gsc : BitVec 48) (data : List (BitVec 8))
  /-- STATUS_SEND (R165): Every 256 sample periods a follower sends a STATUS block. -/
  | statusSend (due : BitVec 64)
  /-- DLL_TRACK (R159): Every millisecond after alignment one exchange moves the DLL by at most one step. -/
  | dllTrack (step : Int)
  /-- DLL_LOST (R361): One microsecond without an input edge clears INPUT and raises DLL_LOST. -/
  | dllLost
  /-- CLK_IN_LOSS (R175): Loss of CDL_CLK_IN glides the follower's sample clock and isolates it. -/
  | clkInLoss
  /-- SYNC_TIMEOUT (R164): 16 frame periods without a good frame lose SYNC_LOCK and isolate the follower, which may succeed as Herald. -/
  | syncTimeout
  /-- MEMBER_LOST (R175): No STATUS in 3 periods or loss of block lock reports the member lost upstream. -/
  | memberLost (pos : Fin 8)
  /-- ALIGN (R177): CDL_CMD.ALIGN on a Herald realigns every member hop by hop. -/
  | align (req : Req)
  /-- CDL_LEAVE (R175): CDL_CMD.LEAVE isolates the module. -/
  | cdlLeave (req : Req)
  /-- MSG_SEND (R177): CDL_CMD.MSG_SEND sends a message frame or block, or is ignored while TX_BUSY. -/
  | msgSend (req : Req)
  /-- MSG_TX_DONE (R177): The sent message leaves, TX_BUSY clears and MSG_TX_DONE is raised. -/
  | msgTxDone
  /-- CDL_CNT_CLR (R177): CDL_CMD.CNT_CLR clears the link counters. -/
  | cdlCntClr (req : Req)
  /-- EPOCH_ANNOUNCE (R167): 32 microseconds ahead of a latch action a Herald predicts the latching GSC and sends an EPOCH frame. -/
  | epochAnnounce (instant : BitVec 64)
  /-- COV_WINDOW_END (R173): At the end of a covariance window the estimator writes band H and L records and raises COV_DONE. -/
  | covWindowEnd (win : List (List (Int × Int)))
  /-- COAST_ENTER (R181): Loss of SYN_T makes the time island enter coast mode on the reference. -/
  | coastEnter (lost : BitVec 64) (second : Bool)
  /-- COAST_EXIT (R181): After SYN_T is released the time island hands back at the next reference edge and raises COAST_EXIT. -/
  | coastExit
  /-- TIME_UPDATE_TICK (R185): At each base-counter multiple of 65,536 the TIME and PTP hand-overs occur and INC_NOW is clamped toward TARGET. -/
  | timeUpdateTick
  /-- SECOND_TICK (R185): At each whole second of base counter INC_ANCHOR takes INC_NOW. -/
  | secondTick
  /-- TCAP (R186): TIME_CMD.TCAP captures the base counter and all four timescales at one tick. -/
  | tcap (req : Req)
  /-- LEASE_RENEW (R187): A bit written to TIME_LEASE renews the lease and makes the timescale CURRENT. -/
  | leaseRenew (req : Req) (mask : BitVec 4)
  /-- LEASE_LEN_WRITE (R187): A write to LEASE_LEN takes effect at once, expiring an overdue lease. -/
  | leaseLenWrite (req : Req) (ts : Fin 4) (len : BitVec 32)
  /-- LEASE_EXPIRY (R188): The lease runs out: the timescale enters HOLDOVER and TARGET takes INC_NOW. -/
  | leaseExpiry (ts : Fin 4)
  /-- HOLD_BOUND_UPDATE (R187): Each millisecond in HOLDOVER the published bound is recomputed. -/
  | holdBoundUpdate (ts : Fin 4)
  /-- STEP_PERMIT (R190): A calendar step permit applies the armed ADD or LOAD step to the named timescale. -/
  | stepPermit (entry : Fin 256)
  /-- LEAP_EVENT (R192): A calendar leap event adjusts UTC_OFS, clears the flags and raises LEAP_DONE. -/
  | leapEvent (entry : Fin 256)
  /-- OCCURRENCE_CONVERT (R194): 32 microseconds ahead the time island converts an occurrence to a base-counter tick and fine part. -/
  | occurrenceConvert (entry : Fin 256)
  /-- ACTION_DISPATCH (R21): 16 ticks before its instant the calendar dispatches an action to its target island. -/
  | actionDispatch (entry : Fin 256)
  /-- OCCURRENCE_FIRE (R196): At an occurrence's instant the entry fires, takes a waiting commit and schedules its next occurrence. -/
  | occurrenceFire (entry : Fin 256)
  /-- CAL_TIMER (R201): A TIMER action fires with no target and only reports FIRED. -/
  | calTimer (entry : Fin 256)
  /-- TP_PULSE (R202): A TP_PULSE action starts a pulse span on a TP pad. -/
  | tpPulse (entry : Fin 256)
  /-- CYC_PULSE (R202): A CYC_PULSE action starts a pulse span on a CYC pad. -/
  | cycPulse (entry : Fin 256)
  /-- PULSE_END (R202): PAD_WIDTH ticks after its start a pulse span ends and the pad returns to idle. -/
  | pulseEnd (pad : Fin 8)
  /-- PAD_CTL_WRITE (R202): A write of DRIVE, EN or POL changes the pad level at the tick it arrives. -/
  | padCtlWrite (req : Req) (pad : Fin 8) (value : BitVec 32)
  /-- CANCEL (R201): CAL_CMD.CANCEL sets an entry to OFF and drops its pending occurrence. -/
  | cancel (req : Req) (entry : Fin 256)
  /-- CLEAR_ALL (R201): CAL_CMD.CLEAR_ALL sets every entry to OFF and abandons armed entry commits. -/
  | clearAll (req : Req)
  /-- CAL_ENABLE (R200): CAL EN returning to 1 disturbs every entry and handles passed occurrences as late. -/
  | calEnable (req : Req)
  /-- EVENT_CAPTURE (R203): A filtered transition of a selected edge on EVT captures a time-stamp and queues a record. -/
  | eventCapture (input : Fin 8) (t : BitVec 64) (fine : BitVec 6) (rising : Bool)
  /-- EVT_WINDOW (R205): An EVT_WINDOW action opens or extends a capture window on an input. -/
  | evtWindow (entry : Fin 256)
  /-- WINDOW_CLOSE (R205): An event window closes LEN x 64 ticks after it opened. -/
  | windowClose (input : Fin 8)
  /-- EVT_RECORD_WRITE (R204): A queued event record drains into the ring when there is room. -/
  | evtRecordWrite
  /-- EVT_FLUSH (R208): EVT_CTL.FLUSH empties the FIFO, sets EVT_WP to EVT_RP and clears the counters. -/
  | evtFlush (req : Req)
  /-- FRAME_RECEIVE (R211): A frame received on a port is classified, learned, forwarded or delivered to the receive ring. -/
  | frameReceive (rx : Rx)
  /-- SYNC (R221): A received Sync from the active master gives a servo sample, or is forwarded with residence by the transparent clock. -/
  | sync (rx : Rx)
  /-- FOLLOW_UP (R221): A received Follow_Up completes t1 or takes its residence from the table in transit. -/
  | followUp (rx : Rx)
  /-- DELAY_REQ (R220): A received Delay_Req on a master port is answered by the responder or delivered. -/
  | delayReq (rx : Rx)
  /-- DELAY_RESP (R221): A received Delay_Resp completes a pair and gives a path sample to the path monitor. -/
  | delayResp (rx : Rx)
  /-- PDELAY_REQ (R220): A received Pdelay_Req on a P2P port is answered with a one-step Pdelay_Resp or delivered. -/
  | pdelayReq (rx : Rx)
  /-- PDELAY_RESP (R220): A received Pdelay_Resp or its follow-up updates LINK_DELAY. -/
  | pdelayResp (rx : Rx)
  /-- ANNOUNCE (R226): A received Announce keeps its successor live and may change the active master. -/
  | announce (rx : Rx)
  /-- ACCEPT (R224): PM_CMD.ACCEPT ends a freeze at the next path sample, MPD taking MPD_NEW. -/
  | accept (req : Req) (slot : Fin 4)
  /-- RESEED (R222): PM_CMD.RESEED restarts seeding of MPD at the next path sample. -/
  | reseed (req : Req) (slot : Fin 4)
  /-- TC_ENTRY_EXPIRE (R219): A residence table entry unmatched after 1 s is discarded. -/
  | tcEntryExpire
  /-- HTX_WP_WRITE (R213): A write to HTX_WP posts transmit slots to the switch. -/
  | htxWpWrite (req : Req) (wp : BitVec 32)
  /-- HOST_FRAME_SEND (R217): The switch sends a transmit slot's frame, inserting one-step time-stamps where requested. -/
  | hostFrameSend (launch : BitVec 64)
  /-- HOST_TX_DONE (R213): After the egress point is captured the switch writes STATUS, T and FINE, advances HTX_RP and raises HOST_TX_DONE. -/
  | hostTxDone (t : BitVec 64) (fine : BitVec 6)
  /-- LINK_UP (R230): A port's link comes up and LINK_UP is raised. -/
  | linkUp (port : Fin 2) (speed : Fin 3) (full : Bool) (master : Bool)
  /-- LINK_DOWN (R230): A port's link goes down, DOWNS counts and LINK_DOWN is raised. -/
  | linkDown (port : Fin 2)
  /-- ADDRESS_AGE (R211): A learned address unused for AGE seconds is removed. -/
  | addressAge (mac : BitVec 48)
  /-- RADIO_ENABLE (R235): RADIO EN going to 1 leaves OFF for SLEEP; going to 0 enters OFF at once. -/
  | radioEnable (req : Req) (en : Bool)
  /-- RADIO_SLEEP (R239): CMD.SLEEP moves the radio to SLEEP. -/
  | radioSleep (req : Req)
  /-- RADIO_IDLE (R239): CMD.IDLE moves the radio to IDLE. -/
  | radioIdle (req : Req)
  /-- RADIO_RX (R239): CMD.RX starts the transition to RX on RX_HOP. -/
  | radioRx (req : Req)
  /-- RADIO_TX_CMD (R245): CMD.TX starts a transmission with descriptor DESC, subject to acceptance and deferral. -/
  | radioTxCmd (req : Req) (desc : Fin 16)
  /-- RADIO_OFF (R235): CMD.OFF powers down the analog section and aborts any transmission. -/
  | radioOff (req : Req)
  /-- RADIO_ABORT (R239): CMD.ABORT ends transmission, reception, pending transmission or calibration and enters IDLE. -/
  | radioAbort (req : Req)
  /-- RADIO_TX (R243): A calendar RADIO_TX action with ARG[7] = 0 starts a scheduled transmission. -/
  | radioTx (fire : BitVec 64) (arg : BitVec 7)
  /-- RECEIVE_SLOT (R256): A calendar RADIO_TX action with ARG[7] = 1 opens a receive slot window. -/
  | receiveSlot (fire : BitVec 64) (arg : BitVec 7)
  /-- SYNTH_READY (R236): SYN_RAD settles on the hop entry and the radio reaches RX search or its transmit ramp. -/
  | synthReady (locked : Bool) (band : BitVec 6)
  /-- TX_END (R241): The last symbol ends, the PA sequence runs down, TX_STAT and TX_T are written and TX_DONE raised. -/
  | txEnd
  /-- TX_UNDERRUN (R247): The transmit FIFO empties before the last octet, ending the frame with UNDERRUN. -/
  | txUnderrun (t : BitVec 64)
  /-- RADIO_CAL_DC (R249): Radio CAL_CMD.DC requests a DC calibration of the receiver. -/
  | radioCalDc (req : Req)
  /-- RADIO_CAL_FILTER (R249): Radio CAL_CMD.FILTER requests a channel filter calibration. -/
  | radioCalFilter (req : Req)
  /-- RADIO_CAL_IMAGE (R249): Radio CAL_CMD.IMAGE requests an image calibration. -/
  | radioCalImage (req : Req)
  /-- RADIO_CAL_OSC (R249): Radio CAL_CMD.OSC requests a VCO band search for every hop entry. -/
  | radioCalOsc (req : Req)
  /-- RADIO_CAL_ALL (R249): Radio CAL_CMD.ALL requests DC, FILTER and IMAGE. -/
  | radioCalAll (req : Req)
  /-- RADIO_CAL_START (R249): A pending radio calibration starts when the radio enters IDLE. -/
  | radioCalStart
  /-- RADIO_CAL_DONE (R249): The last requested radio calibration ends and CAL_DONE or CAL_FAIL is raised. -/
  | radioCalDone (res : List (Option (BitVec 16))) (bands : List (Option (BitVec 6)))
  /-- HOP_WRITE (R250): A write to a hop entry FREQ clears its BAND_VALID, or is rejected with HOP_RANGE. -/
  | hopWrite (req : Req) (hop : Fin 64) (freq : BitVec 32)
  /-- PREAMBLE_DETECT (R251): A preamble is detected and the radio compares RSSI on both aerials to choose one. -/
  | preambleDetect (t : BitVec 64) (rssi1 rssi2 : BitVec 16)
  /-- SFD_DETECT (R253): The SFD is found and the receive time-stamp point is taken. -/
  | sfdDetect (t : BitVec 64)
  /-- RX_FRAME (R253): A received frame ends: PHR and FCS are checked and the frame is written to the ring or discarded. -/
  | rxFrame (ms fcs2 whiten : Bool) (psdu : List (BitVec 8)) (rssi freqErr : BitVec 16) (overrun : Bool)
  /-- SLOT_WINDOW_OPEN (R256): A receive slot window opens W_OPEN microseconds after the action's instant. -/
  | slotWindowOpen
  /-- SLOT_WINDOW_CLOSE (R257): The receive window closes and the radio enters the slot's END state after any frame in progress. -/
  | slotWindowClose
  /-- NOP (R304): The NOP instruction does nothing. -/
  | nop (core : Fin 6)
  /-- MOV (R304): MOV copies the source to the destination. -/
  | mov (core : Fin 6) (f : Form) (d : Opd) (s : Opd) (t : Option Opd)
  /-- MOVSX (R304): MOVSX copies the source sign-extended. -/
  | movsx (core : Fin 6) (f : Form) (d : Opd) (s : Opd) (t : Option Opd)
  /-- MOVZX (R304): MOVZX copies the source zero-extended. -/
  | movzx (core : Fin 6) (f : Form) (d : Opd) (s : Opd) (t : Option Opd)
  /-- LEA (R304): LEA writes the address of a memory operand. -/
  | lea (core : Fin 6) (f : Form) (d : Opd) (s : Opd) (t : Option Opd)
  /-- SWAP (R273): SWAP atomically exchanges a memory operand with the source. -/
  | swap (core : Fin 6) (f : Form) (d : Opd) (s : Opd) (t : Option Opd)
  /-- CAS (R273): CAS atomically compares and stores, setting Z. -/
  | cas (core : Fin 6) (f : Form) (d : Opd) (s : Opd) (t : Option Opd)
  /-- ADD (R277): ADD adds, wrapping or saturating with .S. -/
  | add (core : Fin 6) (f : Form) (d : Opd) (s : Opd) (t : Option Opd)
  /-- SUB (R277): SUB subtracts, wrapping or saturating with .S. -/
  | sub (core : Fin 6) (f : Form) (d : Opd) (s : Opd) (t : Option Opd)
  /-- ADC (R304): ADC adds with carry. -/
  | adc (core : Fin 6) (f : Form) (d : Opd) (s : Opd) (t : Option Opd)
  /-- SBC (R304): SBC subtracts with borrow. -/
  | sbc (core : Fin 6) (f : Form) (d : Opd) (s : Opd) (t : Option Opd)
  /-- NEG (R277): NEG negates the source. -/
  | neg (core : Fin 6) (f : Form) (d : Opd) (s : Opd) (t : Option Opd)
  /-- ABS (R304): ABS writes the absolute value. -/
  | abs (core : Fin 6) (f : Form) (d : Opd) (s : Opd) (t : Option Opd)
  /-- CMP (R304): CMP compares and sets flags. -/
  | cmp (core : Fin 6) (f : Form) (d : Opd) (s : Opd) (t : Option Opd)
  /-- MIN (R304): MIN writes the signed minimum. -/
  | min (core : Fin 6) (f : Form) (d : Opd) (s : Opd) (t : Option Opd)
  /-- MAX (R304): MAX writes the signed maximum. -/
  | max (core : Fin 6) (f : Form) (d : Opd) (s : Opd) (t : Option Opd)
  /-- MINU (R304): MINU writes the unsigned minimum. -/
  | minu (core : Fin 6) (f : Form) (d : Opd) (s : Opd) (t : Option Opd)
  /-- MAXU (R304): MAXU writes the unsigned maximum. -/
  | maxu (core : Fin 6) (f : Form) (d : Opd) (s : Opd) (t : Option Opd)
  /-- MUL (R277): MUL writes the low half of the product. -/
  | mul (core : Fin 6) (f : Form) (d : Opd) (s : Opd) (t : Option Opd)
  /-- MULH (R304): MULH writes the signed high half of the product. -/
  | mulh (core : Fin 6) (f : Form) (d : Opd) (s : Opd) (t : Option Opd)
  /-- MULHU (R304): MULHU writes the unsigned high half of the product. -/
  | mulhu (core : Fin 6) (f : Form) (d : Opd) (s : Opd) (t : Option Opd)
  /-- DIV (R277): DIV divides signed with the edge results of division. -/
  | div (core : Fin 6) (f : Form) (d : Opd) (s : Opd) (t : Option Opd)
  /-- REM (R277): REM writes the signed remainder. -/
  | rem (core : Fin 6) (f : Form) (d : Opd) (s : Opd) (t : Option Opd)
  /-- DIVU (R277): DIVU divides unsigned. -/
  | divu (core : Fin 6) (f : Form) (d : Opd) (s : Opd) (t : Option Opd)
  /-- REMU (R277): REMU writes the unsigned remainder. -/
  | remu (core : Fin 6) (f : Form) (d : Opd) (s : Opd) (t : Option Opd)
  /-- AND (R304): AND writes the bitwise and. -/
  | and (core : Fin 6) (f : Form) (d : Opd) (s : Opd) (t : Option Opd)
  /-- OR (R304): OR writes the bitwise or. -/
  | or (core : Fin 6) (f : Form) (d : Opd) (s : Opd) (t : Option Opd)
  /-- XOR (R304): XOR writes the bitwise exclusive or. -/
  | xor (core : Fin 6) (f : Form) (d : Opd) (s : Opd) (t : Option Opd)
  /-- NOT (R304): NOT writes the bitwise complement. -/
  | not (core : Fin 6) (f : Form) (d : Opd) (s : Opd) (t : Option Opd)
  /-- TST (R304): TST tests the bitwise and and sets flags. -/
  | tst (core : Fin 6) (f : Form) (d : Opd) (s : Opd) (t : Option Opd)
  /-- BTST (R304): BTST tests one bit. -/
  | btst (core : Fin 6) (f : Form) (d : Opd) (s : Opd) (t : Option Opd)
  /-- BSET (R304): BSET sets one bit. -/
  | bset (core : Fin 6) (f : Form) (d : Opd) (s : Opd) (t : Option Opd)
  /-- BCLR (R304): BCLR clears one bit. -/
  | bclr (core : Fin 6) (f : Form) (d : Opd) (s : Opd) (t : Option Opd)
  /-- BINV (R304): BINV inverts one bit. -/
  | binv (core : Fin 6) (f : Form) (d : Opd) (s : Opd) (t : Option Opd)
  /-- CLZ (R304): CLZ counts leading zeros. -/
  | clz (core : Fin 6) (f : Form) (d : Opd) (s : Opd) (t : Option Opd)
  /-- POPC (R304): POPC counts ones. -/
  | popc (core : Fin 6) (f : Form) (d : Opd) (s : Opd) (t : Option Opd)
  /-- SHL (R278): SHL shifts left, saturating with .S. -/
  | shl (core : Fin 6) (f : Form) (d : Opd) (s : Opd) (t : Option Opd)
  /-- SHR (R278): SHR shifts right logically. -/
  | shr (core : Fin 6) (f : Form) (d : Opd) (s : Opd) (t : Option Opd)
  /-- SAR (R278): SAR shifts right arithmetically. -/
  | sar (core : Fin 6) (f : Form) (d : Opd) (s : Opd) (t : Option Opd)
  /-- ROL (R278): ROL rotates left. -/
  | rol (core : Fin 6) (f : Form) (d : Opd) (s : Opd) (t : Option Opd)
  /-- ROR (R278): ROR rotates right. -/
  | ror (core : Fin 6) (f : Form) (d : Opd) (s : Opd) (t : Option Opd)
  /-- FADD (R281): FADD adds floating-point values. -/
  | fadd (core : Fin 6) (f : Form) (d : Opd) (s : Opd) (t : Option Opd)
  /-- FSUB (R281): FSUB subtracts floating-point values. -/
  | fsub (core : Fin 6) (f : Form) (d : Opd) (s : Opd) (t : Option Opd)
  /-- FMUL (R281): FMUL multiplies floating-point values. -/
  | fmul (core : Fin 6) (f : Form) (d : Opd) (s : Opd) (t : Option Opd)
  /-- FDIV (R281): FDIV divides floating-point values. -/
  | fdiv (core : Fin 6) (f : Form) (d : Opd) (s : Opd) (t : Option Opd)
  /-- FSQRT (R281): FSQRT writes the square root. -/
  | fsqrt (core : Fin 6) (f : Form) (d : Opd) (s : Opd) (t : Option Opd)
  /-- FMA (R281): FMA fuses a multiply and add rounded once. -/
  | fma (core : Fin 6) (f : Form) (d : Opd) (s : Opd) (t : Option Opd)
  /-- FCMP (R305): FCMP compares floating-point values and sets flags. -/
  | fcmp (core : Fin 6) (f : Form) (d : Opd) (s : Opd) (t : Option Opd)
  /-- FMIN (R304): FMIN writes the floating-point minimum. -/
  | fmin (core : Fin 6) (f : Form) (d : Opd) (s : Opd) (t : Option Opd)
  /-- FMAX (R304): FMAX writes the floating-point maximum. -/
  | fmax (core : Fin 6) (f : Form) (d : Opd) (s : Opd) (t : Option Opd)
  /-- FABS (R304): FABS clears the sign bit. -/
  | fabs (core : Fin 6) (f : Form) (d : Opd) (s : Opd) (t : Option Opd)
  /-- FNEG (R304): FNEG inverts the sign bit. -/
  | fneg (core : Fin 6) (f : Form) (d : Opd) (s : Opd) (t : Option Opd)
  /-- CVT (R282): CVT converts between integer and floating point or between float sizes. -/
  | cvt (core : Fin 6) (f : Form) (d : Opd) (s : Opd) (t : Option Opd)
  /-- CVTU (R282): CVTU converts between unsigned integer and floating point. -/
  | cvtu (core : Fin 6) (f : Form) (d : Opd) (s : Opd) (t : Option Opd)
  /-- MAC (R308): MAC adds a signed product to an accumulator. -/
  | mac (core : Fin 6) (f : Form) (d : Opd) (s : Opd)
  /-- MSU (R308): MSU subtracts a signed product from an accumulator. -/
  | msu (core : Fin 6) (f : Form) (d : Opd) (s : Opd)
  /-- MACU (R308): MACU adds an unsigned product to an accumulator. -/
  | macu (core : Fin 6) (f : Form) (d : Opd) (s : Opd)
  /-- CMAC (R308): CMAC accumulates a complex product into both accumulators. -/
  | cmac (core : Fin 6) (f : Form) (d : Opd) (s : Opd)
  /-- CMACJ (R308): CMACJ accumulates a conjugate complex product. -/
  | cmacj (core : Fin 6) (f : Form) (d : Opd) (s : Opd)
  /-- DOT4 (R308): DOT4 accumulates the sum of four lane products. -/
  | dot4 (core : Fin 6) (f : Form) (d : Opd) (s : Opd)
  /-- ACLR (R308): ACLR clears an accumulator. -/
  | aclr (core : Fin 6) (f : Form)
  /-- ALD (R308): ALD loads an accumulator sign-extended. -/
  | ald (core : Fin 6) (f : Form) (s : Opd)
  /-- AEXT (R308): AEXT extracts a rounded, saturated, shifted accumulator value. -/
  | aext (core : Fin 6) (f : Form) (d : Opd) (s : Opd)
  /-- ASAVE (R308): ASAVE stores an accumulator as two double-words. -/
  | asave (core : Fin 6) (f : Form) (s : Opd)
  /-- ARSTR (R308): ARSTR restores an accumulator from two double-words. -/
  | arstr (core : Fin 6) (f : Form) (s : Opd)
  /-- BCC (R306): Bcc branches by a short displacement when the condition holds. -/
  | bcc (core : Fin 6) (cond : BitVec 4) (d : BitVec 16)
  /-- BCCL (R306): BccL branches by a long displacement when the condition holds. -/
  | bccl (core : Fin 6) (cond : BitVec 4) (d : BitVec 32)
  /-- CALL (R306): CALL pushes the return address and branches. -/
  | call (core : Fin 6) (d : BitVec 32)
  /-- JMP (R306): JMP jumps to the operand address. -/
  | jmp (core : Fin 6) (s : Opd)
  /-- JSR (R306): JSR pushes the return address and jumps to the operand. -/
  | jsr (core : Fin 6) (s : Opd)
  /-- RET (R306): RET pops the return address. -/
  | ret (core : Fin 6)
  /-- RTE (R288): RTE restores SR from ESR and continues at EPC, resuming a repeat. -/
  | rte (core : Fin 6)
  /-- SYS (R283): SYS raises the SYS exception with its immediate. -/
  | sys (core : Fin 6) (imm : BitVec 8)
  /-- BKPT (R283): BKPT raises BREAK. -/
  | bkpt (core : Fin 6)
  /-- WAIT (R291): WAIT stops the core at low power until a source is presented. -/
  | wait (core : Fin 6)
  /-- WAIT_END (R291): A presented source ends WAIT, entering an interrupt or continuing. -/
  | waitEnd (core : Fin 6)
  /-- FENCE (R272): FENCE stalls until the write buffer is empty. -/
  | fence (core : Fin 6)
  /-- IFENCE (R272): IFENCE fences and invalidates the instruction cache. -/
  | ifence (core : Fin 6)
  /-- REP (R309): REP loads LC and repeats the following instruction LC times. -/
  | rep (core : Fin 6) (s : Opd)
  /-- MFC (R306): MFC reads a control register. -/
  | mfc (core : Fin 6) (cr : BitVec 4) (d : Opd)
  /-- MTC (R306): MTC writes a control register. -/
  | mtc (core : Fin 6) (cr : BitVec 4) (s : Opd)
  /-- FEAT (R292): FEAT reads a CPU feature register. -/
  | feat (core : Fin 6) (ix : BitVec 4) (d : Opd)
  /-- DJNZ (R306): DJNZ decrements an address register and branches if not zero. -/
  | djnz (core : Fin 6) (r : BitVec 4) (d : BitVec 16)
  /-- WRITE_BUFFER_DRAIN (R267): A write buffer entry drains to its target, invalidating other cores' cache lines. -/
  | writeBufferDrain (core : Fin 6) (entry : Fin 8)
  /-- CORE_START (R293): CORE_CTL.START moves a core in RESET to RUN at START_PC. -/
  | coreStart (req : Req) (core : Fin 6)
  /-- CORE_HALT (R293): CORE_CTL.HALT moves a running core to HALTED at its next boundary. -/
  | coreHalt (req : Req) (core : Fin 6)
  /-- CORE_RESUME (R293): CORE_CTL.RESUME moves a halted core to RUN. -/
  | coreResume (req : Req) (core : Fin 6)
  /-- CORE_STEP (R293): CORE_CTL.STEP executes one instruction or iteration and returns to HALTED. -/
  | coreStep (req : Req) (core : Fin 6)
  /-- DBG_DATA_READ (R296): A read of DBG_DATA captures the selected core state whole. -/
  | dbgDataRead (req : Req) (core : Fin 6)
  /-- DBG_DATA_WRITE (R296): A write of DBG_DATA sets the selected core state when its last word is written. -/
  | dbgDataWrite (req : Req) (core : Fin 6) (value : BitVec 80)
  /-- PERF_CLR (R295): PERF_CLR clears the core performance counters. -/
  | perfClr (req : Req) (core : Fin 6)
  /-- DMA_START_CMD (R317): CH_CMD.START starts an ARMED set of kind START, or counts a missed trigger. -/
  | dmaStartCmd (req : Req) (chan : Fin 64)
  /-- DMA_START (R317): A calendar DMA_START action triggers the named channel at its instant. -/
  | dmaStart (fire : BitVec 64) (chan : Fin 64)
  /-- DMA_REQUEST (R317): An asserted request line moves one burst of BURST bytes for a REQ set. -/
  | dmaRequest (chan : Fin 64)
  /-- DMA_BURST_DONE (R314): A burst completes and the engine arbitrates the next burst among ready channels. -/
  | dmaBurstDone
  /-- SET_COMPLETE (R323): A set completes: write-back, status, DONE/ERR, CHAIN triggers and the next hand-over or feed. -/
  | setComplete (chan : Fin 64)
  /-- FEED_FETCH (R321): A feed fetch completes, filling SHADOW and taking it as a hand-over, or ends the list with FEED_ERR. -/
  | feedFetch (chan : Fin 64)
  /-- DMA_ABORT (R326): CH_CMD.ABORT ends the channel's set with status ABORTED and leaves it IDLE. -/
  | dmaAbort (req : Req) (chan : Fin 64)
  /-- ABORT_ALL (R326): DMA_CTL.ABORT_ALL aborts every channel, resets every SHADOW and raises ABORT_ALL_DONE. -/
  | abortAll (req : Req)
  /-- SCRUB_STEP (R335): Every SCRUB_DIV clocks the scrubber reads and checks one SRAM word. -/
  | scrubStep
  /-- PROGRAM (R337): FL_CMD.PROGRAM programs and verifies FL_LEN bytes into flash. -/
  | program (req : Req)
  /-- ERASE_SEC (R337): FL_CMD.ERASE_SEC erases a 4 KB sector. -/
  | eraseSec (req : Req)
  /-- ERASE_BLK (R337): FL_CMD.ERASE_BLK erases a 64 KB block. -/
  | eraseBlk (req : Req)
  /-- FLASH_OP_DONE (R337): A flash operation ends with its status and raises OP_DONE or OP_ERR. -/
  | flashOpDone
  /-- ERASE_SUSPEND (R338): A window read during an erase suspends the erase within 30 microseconds. -/
  | eraseSuspend
  /-- ERASE_RESUME (R338): The erase resumes once no read has waited for 10 microseconds. -/
  | eraseResume
  /-- APPEND_GO (R341): APP_GO.GO queues an append request, or is ignored when full or not ready. -/
  | appendGo (req : Req)
  /-- LASTGASP (R344): APP_GO.LASTGASP arms the current append arguments as the last-gasp request. -/
  | lastgasp (req : Req)
  /-- DISARM (R344): APP_GO.DISARM clears the last-gasp request. -/
  | disarm (req : Req)
  /-- APPEND_DONE (R341): An append request completes with its status, RES fields and APPEND_DONE or APPEND_ERR. -/
  | appendDone
  /-- HARVEST (R342): ANN_CTL.HARVEST, or FILL crossing HARV_THR, starts compaction into the other half. -/
  | harvest (req : Req)
  /-- HARVEST_DONE (R342): Harvest writes the new header, switches halves and raises HARVEST_DONE and possibly CROWDED. -/
  | harvestDone
  /-- RECOVERY_SCAN (R343): When the flash and Annal island leaves reset the engine scans the current half and sets READY. -/
  | recoveryScan
  /-- RECOVERED (R343): The recovery scan completes, NEXT_SEQ is set and RECOVERED is raised. -/
  | recovered
  /-- DUMP_SNAP (R347): DUMP_CMD.SNAP starts a capture of the enabled snapshot pages into the dump bay. -/
  | dumpSnap (req : Req)
  /-- DUMP_CHAN (R347): DUMP_CMD.CHAN starts a capture of the 512 channel summaries. -/
  | dumpChan (req : Req)
  /-- CAPTURE_DONE (R347): The dump capture writes its header and MAGIC and raises CAPTURE_DONE. -/
  | captureDone
  /-- REF_WINDOW (R350): Each 1 ms window the reference monitor counts REF10_IN and qualifies or disqualifies it. -/
  | refWindow (fofs : Int)
  /-- REF_LOSS (R350): 400 ns without a REF10_IN edge loses qualification and switches to the TCXO. -/
  | refLoss
  /-- PLL_WINDOW (R357): Each 25.6 microsecond window a PLL compares its count to the target, declaring lock, glide end or loss of lock. -/
  | pllWindow (pll : Fin 9) (count : Nat) (noBand : Bool) (band : BitVec 6) (phErr : Int) (skew : Int)
  /-- FAST_TRIP (R357): A tuning voltage out of range or cycle slip makes the PLL lose lock within 100 ns. -/
  | fastTrip (pll : Fin 9)
  /-- PLL_RESEARCH (R364): PLL_CTL.RESEARCH starts a gated re-search at the current target. -/
  | pllResearch (req : Req) (pll : Fin 9)
  /-- HEARTBEAT (R369): Every 10 microseconds each Vigil sends a heartbeat to the other. -/
  | heartbeat (vigil : Fin 2)
  /-- HEARTBEAT_MISSED (R369): 12 microseconds without a heartbeat count one miss; three make the standby take over. -/
  | heartbeatMissed (vigil : Fin 2)
  /-- VIG_OSC_CAL (R368): Every 1 ms a Vigil measures its ring oscillator against the reference. -/
  | vigOscCal (vigil : Fin 2) (khz : BitVec 16)
  /-- SELF_CHECK (R370): Every 1 ms each Vigil runs its self-check and raises SELF_FAIL on failure. -/
  | selfCheck (vigil : Fin 2) (ok : Bool)
  /-- RECIPE_STEP_DONE (R371): A recipe step's target state holds and the Vigil continues to the next step. -/
  | recipeStepDone (cls : BitVec 8)
  /-- HANG (R374): A crossing outstanding beyond HANG_TO triggers an island restart, or FATAL. -/
  | hang (island : Fin 12) (page : Fin 288)
  /-- LAST_RESORT (R376): 100 microseconds without any heartbeat asserts FAULT_N and performs a warm reset. -/
  | lastResort
  /-- FAULT_N_RELEASE (R377): FAULT_N is released 10 ms after assertion once no source holds it. -/
  | faultNRelease
  /-- VIG_DUMP (R382): VIG_CMD.DUMP runs the fatal-error dump procedure. -/
  | vigDump (req : Req) (vigil : Fin 2)
  /-- DUMP_DONE (R382): The dump procedure ends, raises DUMP_DONE and acts under DUMP_THEN. -/
  | dumpDone
  /-- VIGIL_SWAP (R384): VIG_CMD.SWAP makes the standby Vigil active at once. -/
  | vigilSwap (req : Req) (vigil : Fin 2)
  /-- RESTART_OTHER (R384): VIG_CMD.RESTART_OTHER restarts a FAILED Vigil. -/
  | restartOther (req : Req) (vigil : Fin 2)
  /-- GUARD_SAMPLE (R378): A guard samples its input, filters it and enters or leaves LOW or HIGH with its action. -/
  | guardSample (guard : Fin 23) (value : Int)
  /-- GUARD_TIMEOUT (R379): TO units without a qualifying event enter TIMEOUT and trigger the action. -/
  | guardTimeout (guard : Fin 23)
  /-- POWER_ON (R393): PoE applied with classification starts the power-up sequence and boot. -/
  | powerOn (boot : BitVec 2) (full : Bool) (granted : BitVec 4)
  /-- HOLDUP_END (R389): The hold-up store falls below its limit and every island but the time island is held in reset. -/
  | holdupEnd (vbak : Bool)
  /-- POE_RETURN (R390): PoE returning during shed waits 100 ms then warm resets, or starts a backup power-on. -/
  | poeReturn (boot : BitVec 2) (full : Bool) (granted : BitVec 4)
  /-- RESET_N (R393): RESET_N low for at least 1 microsecond resets the module. -/
  | resetN
  /-- SOFTWARE_FULL_RESET (R403): SYS_RST key 0x5253_0046 performs a software full reset. -/
  | softwareFullReset (req : Req)
  /-- WARM_RESET (R403): SYS_RST key 0x5253_0057 performs a warm reset. -/
  | warmReset (req : Req)
  /-- WATCHDOG_EXPIRY (R403): The watchdog expires and performs a Vigil or warm reset. -/
  | watchdogExpiry
  /-- WDOG_KICK (R403): WDOG_KICK restarts the watchdog. -/
  | wdogKick (req : Req)
  /-- OVERCURRENT_TRIP (R388): VAUX12 or PA_SUPPLY over its limit switches the output off and sets its trip bit. -/
  | overcurrentTrip (pa : Bool) (ma : BitVec 16) (held : Bool)
  /-- BOOT_OK (R397): BOOT_OK clears the try count of the running image. -/
  | bootOk (req : Req)
  /-- HOST_IMG_WRITE (R399): A write to HOST_IMG makes the ROM check, load and enter a host image or record the reason. -/
  | hostImgWrite (req : Req) (addr : BitVec 32)
  /-- SUBMIT (R401): DBG_CMD.SUBMIT verifies the debug token and grants its scope. -/
  | submit (req : Req)
  /-- RELOCK (R401): DBG_CMD.RELOCK withdraws the debug grant. -/
  | relock (req : Req)
  /-- HASH_SHA (R403): HASH_CMD.SHA computes SHA-256 of HASH_LEN bytes at HASH_SRC. -/
  | hashSha (req : Req)
  /-- HASH_VERIFY (R403): HASH_CMD.VERIFY checks VER_SIG over HASH_OUT and sets SIG_OK. -/
  | hashVerify (req : Req)
  /-- HASH_DONE (R403): The hash helper completes and raises HASH_DONE. -/
  | hashDone
  /-- SPI_WRITE (R409): A complete SPI WRITE frame writes COUNT words after SPI_CS_N rises. -/
  | spiWrite (mosi : List (BitVec 8))
  /-- SPI_READ (R411): A SPI READ frame reads COUNT words and sends them after START. -/
  | spiRead (mosi : List (BitVec 8)) (reach : Fin 3)
  /-- SPI_STATUS (R409): A SPI STATUS frame returns the result of the last completed frame. -/
  | spiStatus (mosi : List (BitVec 8))
  /-- DOORBELL (R413): A SPI DOORBELL frame sets FW_DB bits and returns and clears HOST_DB. -/
  | doorbell (mosi : List (BitVec 8)) (reach : Fin 3)
  /-- PUSH (R409): A SPI PUSH frame puts COUNT words into the receive FIFO. -/
  | push (mosi : List (BitVec 8))
  /-- PULL (R409): A SPI PULL frame sends and pops COUNT words from the transmit FIFO when available. -/
  | pull (mosi : List (BitVec 8)) (reach : Fin 3)
  /-- SPI_WRITE_DONE (R412): A WRITE or PUSH execution ends, BUSY clears and RESULT is recorded. -/
  | spiWriteDone
  /-- DB_SET (R413): DB_SET sets HOST_DB bits, driving HOST_IRQ_N when unmasked. -/
  | dbSet (req : Req) (mask : BitVec 16)
  /-- FIFO_POP (R407): A read of an interface receive FIFO register pops data, or returns 0 and logs FIFO_EMPTY. -/
  | fifoPop (req : Req) (addr : BitVec 32)
  /-- FIFO_PUSH (R407): A write of an interface transmit FIFO register pushes data, or is ignored and logs FIFO_FULL. -/
  | fifoPush (req : Req) (addr : BitVec 32) (value : BitVec 32)
  /-- RX_FLUSH (R415): An RX_FLUSH command empties an interface receive FIFO. -/
  | rxFlush (req : Req) (iface : Fin 5)
  /-- TX_FLUSH (R415): A TX_FLUSH command empties an interface transmit FIFO. -/
  | txFlush (req : Req) (iface : Fin 5)
  /-- CAN_ENABLE (R417): CAN EN going to 1 checks timing and integrates on the bus, or stays in CONFIG. -/
  | canEnable (req : Req) (can : Fin 2)
  /-- CAN_TX_COMPLETE (R418): A CAN transmission completes or fails and a TXE event is written. -/
  | canTxComplete (can : Fin 2) (status : Fin 3) (sof : BitVec 64)
  /-- CAN_FRAME_RX (R419): A received CAN frame is filtered and stored in RXF or dropped. -/
  | canFrameRx (can : Fin 2) (f : CanRx)
  /-- CAN_BUS_ERROR (R420): A bus error updates error counters and state, possibly entering bus-off. -/
  | canBusError (can : Fin 2) (lec : Fin 7) (tx : Bool) (by8 : Bool)
  /-- CAN_RECOVER (R420): CAN_CMD.RECOVER starts bus-off recovery. -/
  | canRecover (req : Req) (can : Fin 2)
  /-- CAN_CANCEL (R418): CAN_CMD.CANCEL cancels every pending record not yet started. -/
  | canCancel (req : Req) (can : Fin 2)
  /-- BUS_OFF_RECOVERED (R420): After 128 occurrences of 11 recessive bits the controller leaves bus-off. -/
  | busOffRecovered (can : Fin 2)
  /-- UART_RX_CHAR (R422): A received UART character is stored in the FIFO with error flags or counted as overrun. -/
  | uartRxChar (uart : Fin 3) (data : BitVec 8) (parErr : Bool) (stop : Bool)
  /-- UART_TX_CHAR (R422): A UART character finishes transmitting and the next starts unless CTS holds it back. -/
  | uartTxChar (uart : Fin 3)
  /-- RX_IDLE (R423): IDLE_BITS bit periods without a start bit and a non-empty FIFO raise RX_IDLE. -/
  | rxIdle (uart : Fin 3)
  /-- CNT_CLR (R424): UART_CTL.CNT_CLR clears the error counters. -/
  | cntClr (req : Req) (uart : Fin 3)
  /-- I2C_CMD (R426): A write to I2C_CMD queues a command, or logs CMD_FULL. -/
  | i2cCmd (req : Req) (value : BitVec 32)
  /-- I2C_CMD_DONE (R426): An I2C command finishes with its status and may flush the queue. -/
  | i2cCmdDone (status : Fin 5) (n : BitVec 8) (data : List (BitVec 8))
  /-- I2C_STRETCH_TIMEOUT (R426): SCL held low by a target beyond STRETCH_TO ends the command with TIMEOUT. -/
  | i2cStretchTimeout
  /-- I2C_ABORT (R426): I2C_CTL.ABORT completes the byte in progress, sends STOP and flushes. -/
  | i2cAbort (req : Req)
  /-- I2C_RECOVER (R426): I2C_CTL.RECOVER sends 9 SCL pulses and a STOP. -/
  | i2cRecover (req : Req)
  /-- GPIO_INPUT_CHANGE (R428): A filtered GPIO level change updates GPIO_IN and raises its interrupt per IRQ_MODE. -/
  | gpioInputChange (pin : Fin 16) (high : Bool)
  /-- GPIO_SET (R428): GPIO_SET drives the named pins high. -/
  | gpioSet (req : Req) (mask : BitVec 16)
  /-- GPIO_CLR (R428): GPIO_CLR drives the named pins low. -/
  | gpioClr (req : Req) (mask : BitVec 16)
  /-- GPIO_TGL (R428): GPIO_TGL inverts the named pins. -/
  | gpioTgl (req : Req) (mask : BitVec 16)
  /-- EXTEST (R457): Loading EXTEST selects the boundary register and enters test mode. -/
  | extest (cells : BitVec 129)
  /-- SAMPLE_PRELOAD (R455): Loading SAMPLE/PRELOAD selects the boundary register without effect. -/
  | samplePreload (cells : BitVec 129)
  /-- IDCODE (R454): Loading IDCODE selects the 32-bit identification register. -/
  | idcode
  /-- CLAMP (R457): Loading CLAMP enters test mode with pads driven from the boundary cells. -/
  | clamp
  /-- HIGHZ (R457): Loading HIGHZ enters test mode with every chain pad high-impedance. -/
  | highz
  /-- BYPASS (R455): Loading BYPASS or an undefined code selects the bypass register. -/
  | bypass (code : BitVec 5)
  /-- DBGACC (R458): At Update-DR with GO the debug access register makes one word access as requester 10. -/
  | dbgacc (addr : BitVec 32) (data : BitVec 32) (write : Bool)
  /-- TEST_MODE_EXIT (R457): Leaving test mode performs a warm reset. -/
  | testModeExit
  /-- PRBS_ENABLE (R460): PRBS_EN runs the link pattern generators and checkers, or is rejected with CDL_ACTIVE. -/
  | prbsEnable (req : Req) (en : Bool)
  /-- PRBS_CNT_CLR (R460): PRBS_CTL.CNT_CLR clears PRBS_ERR and SYNC_ERR. -/
  | prbsCntClr (req : Req)
  /-- PRBS_UNLOCK (R460): A checker with 16 errors in 1,024 words loses lock and raises PRBS_UNLOCK. -/
  | prbsUnlock (checker : Fin 3) (errors : BitVec 16)
  /-- SHARED_EPOCH_LATCH (R168): Each member with EPOCH_SHARE = 1, the Herald included, latches all running channels at the first sample whose GSC equals the announced EPOCH value. -/
  | sharedEpochLatch (gsc : BitVec 48)
  /-- DBG_RESULT (R401): The hash helper finishes checking a submitted debug token, grants SCOPE or sets FAILED, renews DBG_CHAL and raises DBG_RESULT. -/
  | dbgResult
  /-- TCXO_FAILURE (R351): The TCXO amplitude monitor clears TCXO_OK, so that with REF10_IN unqualified no reference is valid and every running PLL enters HOLD. -/
  | tcxoFailure
  /-- CTS_N_CHANGE (R422): With FLOW = 1, CTS_N going high holds back the next UART character, and CTS_N going low lets the held character start. -/
  | ctsNChange (uart : Fin 3) (high : Bool)
  /-- PRBS_CHECKER_LOCK (R460): A link pattern checker declares lock after 64 consecutive error-free pattern words, sets its LOCK bit and starts counting errors. -/
  | prbsCheckerLock (checker : Fin 3)
  /-- SAMPLE_FRAME_SEND (R166): Every 64 samples, at a GSC multiple of 64, an array follower sends a SAMPLE_HDR followed by 32 data blocks of requantised samples on its UTX lanes. -/
  | sampleFrameSend (rows : List (List (Int × Int)))
  /-- TRANSITION_COMPLETE (R236): A radio state transition that does not lead to RX or TX (OFF to SLEEP, SLEEP to IDLE, IDLE to SLEEP, RX or TX to IDLE) ends after its fixed time and the radio enters the target state. -/
  | transitionComplete
  deriving DecidableEq, Repr

end Sys2Proof
end

