-- ==== Sys2Proof/Config.lean ====
section
/-! DEFINITION. What one device fixes and the spec does not (factory values, fuses, boot ROM code), and the free values.
Every constant here is opaque: no proof can see what it is (DESIGN CHOICE, log entries 1, 6 and 7). -/

namespace Sys2Proof.Config

/-- The free value number `n` of a run, as a natural number; its user takes the bits it needs (DESIGN CHOICE, log entry 1). -/
opaque freeValue : Nat → Nat

/-- Factory value of the register at a window offset (calibration constants; DESIGN CHOICE, log entry 6). -/
opaque factory : Nat → Nat

/-- Fuse word number `n`: 0 UID, 1 PKHASH, 2 DBGHASH, 3 FUSE_CFG, 4 MAC of ETH0, 5 of ETH1, 6 MAC2, 7 MAC3, 8 straps, bit 0
of 9 whether class 6 or higher is granted (DESIGN CHOICE, log entry 6). -/
opaque fuse : Nat → Nat

/-- Byte `n` of the boot ROM (spec/01 R24; the code itself is not in the spec, DESIGN CHOICE, log entry 7). -/
opaque romByte : Nat → BitVec 8

/-- Chip `n` of the generated primary sequence of a signal code and code number (spec/05 R104, R106 name the public
families without spelling every polynomial; DESIGN CHOICE, log entry 10). -/
opaque genChip : Nat → Nat → Nat → Bool

/-- Chip `n` of the fixed secondary sequence of a signal code and code number (spec/05 R104, R107; DESIGN CHOICE, log entry 10). -/
opaque secChip : Nat → Nat → Nat → Bool

/-- The TMBOC position pattern: does chip `n` of the 33 use the BOC(6,1) symbol (DESIGN CHOICE, log entry 10). -/
opaque tmbocPos : Nat → Bool

/-- Verdict of an elliptic-curve signature check over a digest, key and signature (spec/17 R403; DESIGN CHOICE, log entry 11). -/
opaque signatureOk : Nat → Nat → Nat → Bool

/-- Does the time replica of an island (its place in R13) lag by one tick when the base counter is at a tick (spec/01 R19;
DESIGN CHOICE, log entry 1)? -/
opaque replicaLags : Nat → Nat → Bool

/-- Fraction bits in which the digital path of a chain holds its DC estimates and notch states (spec/03 R64, R67; DESIGN CHOICE,
log entry 103). -/
opaque pathFrac : Nat

/-- Does stage 0 (DC estimate), 1 (DC removed), 2 (notch feedback), 3 (notch output), 4 (notch frequency) of a chain's digital path
round this inexact value up (spec/03 R64, R67; DESIGN CHOICE, log entry 103)? -/
opaque roundsUp : Nat → Int → Bool

/-- Image correction of a sample (I, Q) with GAIN_C and PHASE_C (spec/03 R49 step 7; DESIGN CHOICE, log entry 103). -/
opaque imageCorrect : Int → Int → Int × Int → Int × Int

/-- A notch state turned by one sample of a frequency word (spec/03 R67; DESIGN CHOICE, log entry 103). -/
opaque rotate : Int → Int × Int → Int × Int

/-- Where the adaptation of a notch sends its frequency at a sample, before the step weight 2^-MU, from its depth, frequency, state
and output (spec/03 R67; DESIGN CHOICE, log entry 103). -/
opaque notchSense : Nat → Int → Int × Int → Int × Int → Int

/-- The Lantern tone reference of an offset word at a sample: a complex exponential of amplitude 127 (spec/03 R74; DESIGN CHOICE,
log entry 103). -/
opaque lantRef : Int → Nat → Int × Int

/-- 2^30 cos(2π n / 4096) as the spectral monitor's tables hold it (spec/03 R70; DESIGN CHOICE, log entry 103). -/
opaque cos4096 : Nat → Int

/-- Whole sample periods of a hop's downstream path to which alignment makes it up, for twice its delay in ps (spec/07 R159, R160; DESIGN
CHOICE, log entry 112). -/
opaque hopPeriods : Int → Nat

/-- Change of the downstream member's DLL code that a Herald or member asks for, for twice the downstream delay in ps (spec/07 R159;
DESIGN CHOICE, log entry 112). -/
opaque dllChange : Int → Int

/-- Residual that this change leaves at the downstream member, in ps (spec/07 R159, R163; DESIGN CHOICE, log entry 112). -/
opaque dllResidual : Int → Int

end Sys2Proof.Config
end

