-- ==== Sys2Proof/Machine/Bits.lean ====
section
/-! DEFINITION. Bit fields of words, signed readings, saturation, sparse tables in one canonical form, and the rows that
describe a register's access (spec/00 R9, spec/02 R37). -/

namespace Sys2Proof.Machine

/-- A register field: offset of its lowest word, lowest bit, width (a wide field goes on in the next words, R33). -/
structure Fld where
  off : Nat
  lo  : Nat
  w   : Nat
  deriving DecidableEq, Repr

/-- The access words of spec/00 R9: read, free, shadow, once, one-clears, pulse. -/
inductive Acc where
  | rd | fr | sh | on | oc | pu
  deriving DecidableEq, Repr

/-- What an out-of-range value does (R37): any value is in range; clamped to unsigned or signed limits (the lower limit
of `clampS` is negative, its magnitude is given); rejected outside the limits. -/
inductive Chk where
  | any
  | clamp (lo hi : Nat)
  | clampS (neg hi : Nat)
  | reject (lo hi : Nat)
  deriving DecidableEq, Repr

/-- One row of a register table: `count` copies at `stride`. -/
structure Row where
  off    : Nat
  stride : Nat
  count  : Nat
  lo     : Nat
  w      : Nat
  acc    : Acc
  reset  : Nat
  chk    : Chk
  deriving DecidableEq, Repr

/-- The part of a register field that lies in one word. -/
structure FieldAt where
  lo    : Nat
  w     : Nat
  acc   : Acc
  reset : Nat
  chk   : Chk
  deriving DecidableEq, Repr

/-- `w` bits of `v` from bit `lo` up. -/
def bitsOf (v lo w : Nat) : Nat := (v >>> lo) % 2 ^ w

/-- Bit `i` of `v`. -/
def bitOf (v i : Nat) : Bool := v.testBit i

/-- `v` with the `w` bits from `lo` replaced by `x`. -/
def putBits (v lo w x : Nat) : Nat :=
  v % 2 ^ lo + (x % 2 ^ w) * 2 ^ lo + (v >>> (lo + w)) * 2 ^ (lo + w)

/-- The two's complement reading of a `w`-bit number. -/
def toSigned (w n : Nat) : Int :=
  let m := n % 2 ^ w
  if 2 * m < 2 ^ w then (m : Int) else (m : Int) - (2 ^ w : Nat)

/-- The `w`-bit two's complement pattern of an integer. -/
def ofSigned (w : Nat) (i : Int) : Nat := (i % ((2 ^ w : Nat) : Int)).toNat

/-- An integer limited to an interval. -/
def clampI (lo hi i : Int) : Int := max lo (min hi i)

/-- A natural number limited to an interval. -/
def clampN (lo hi n : Nat) : Nat := max lo (min hi n)

/-- One more, saturating at the largest `w`-bit number. -/
def satInc (w n : Nat) : Nat := min (n + 1) (2 ^ w - 1)

/-- Rounded down integer division toward minus infinity. -/
def floorDiv (a b : Int) : Int := Int.fdiv a b

/-- Round half away from zero of `a / b` for positive `b`. -/
def roundDiv (a : Int) (b : Nat) : Int :=
  if a ≥ 0 then (2 * a + b) / (2 * b) else -((-(2 * a) + b) / (2 * b))

/-- 1 for true. -/
def b2n (b : Bool) : Nat := if b then 1 else 0

/-- A little-endian number of bytes (spec/00 R4). -/
def leNat : List Nat → Nat
  | [] => 0
  | b :: t => b % 256 + 256 * leNat t

/-- The `n` little-endian bytes of a number. -/
def leBytes : Nat → Nat → List Nat
  | 0, _ => []
  | n + 1, v => v % 256 :: leBytes n (v / 256)

/-- Bytes of a record given as (size, value) fields in order. -/
def recBytes (l : List (Nat × Nat)) : List Nat := l.flatMap (fun x => leBytes x.1 x.2)

/-! ### Sparse tables: strictly rising keys, no entry equal to the default -/

/-- The value at key `k`; an unlisted key has the default. -/
def Tab.get {α : Type} (d : Nat → α) : List (Nat × α) → Nat → α
  | [], k => d k
  | (a, v) :: t, k => if a = k then v else Tab.get d t k

/-- Remove every entry of key `k`. -/
def Tab.del {α : Type} : List (Nat × α) → Nat → List (Nat × α)
  | [], _ => []
  | (a, v) :: t, k => if a = k then Tab.del t k else (a, v) :: Tab.del t k

/-- Insert or replace key `k`, keys staying sorted. -/
def Tab.ins {α : Type} : List (Nat × α) → Nat → α → List (Nat × α)
  | [], k, v => [(k, v)]
  | (a, x) :: t, k, v =>
    if k < a then (k, v) :: (a, x) :: t else if a = k then (k, v) :: t else (a, x) :: Tab.ins t k v

/-- Write key `k`, keeping the canonical form. -/
def Tab.set {α : Type} [DecidableEq α] (d : Nat → α) (t : List (Nat × α)) (k : Nat) (v : α) : List (Nat × α) :=
  if v = d k then Tab.del t k else Tab.ins t k v

/-- Keys strictly rising. -/
def Tab.sorted {α : Type} : List (Nat × α) → Bool
  | [] => true
  | [_] => true
  | (a, _) :: (b, y) :: t => a < b && Tab.sorted ((b, y) :: t)

/-- The canonical form: keys strictly rising, no entry equal to the default. -/
def Tab.wf {α : Type} [DecidableEq α] (d : Nat → α) (t : List (Nat × α)) : Bool :=
  Tab.sorted t && t.all (fun e => decide (e.2 ≠ d e.1))

/-- The table `dst` with every key of `[lo, hi)` taken from `src`. -/
def Tab.copyRange {α : Type} (lo hi : Nat) (src dst : List (Nat × α)) : List (Nat × α) :=
  dst.filter (fun e => decide (e.1 < lo)) ++ src.filter (fun e => decide (lo ≤ e.1 ∧ e.1 < hi)) ++
    dst.filter (fun e => decide (lo ≤ e.1 ∧ hi ≤ e.1))

/-- The table without the keys of `[lo, hi)`. -/
def Tab.clearRange {α : Type} (lo hi : Nat) (t : List (Nat × α)) : List (Nat × α) :=
  t.filter (fun e => decide (e.1 < lo ∨ hi ≤ e.1))

/-- The part of the row's field that lies in the word at `off`, if any. -/
def Row.part (r : Row) (off : Nat) : Option FieldAt :=
  if off < r.off then none
  else
    let d := off - r.off
    let i := if r.stride = 0 then 0 else d / r.stride
    let e := d - i * r.stride
    let j := e / 4
    if i < r.count ∧ e = 4 * j ∧ 32 * j < r.lo + r.w then
      let lo := if j = 0 then r.lo else 0
      let hi := min 32 (r.lo + r.w - 32 * j)
      some ⟨lo, hi - lo, r.acc, bitsOf (r.reset <<< r.lo) (32 * j + lo) (hi - lo), if r.w ≤ 32 then r.chk else .any⟩
    else none

/-- Is the word at `off` the lowest word of a field of several words (R33)? -/
def Row.wideAt (r : Row) (off : Nat) : Option Nat :=
  if off < r.off ∨ r.lo + r.w ≤ 32 then none
  else
    let d := off - r.off
    let i := if r.stride = 0 then 0 else d / r.stride
    if i < r.count ∧ d = i * r.stride then some ((r.lo + r.w + 31) / 32) else none

/-- Is the word at `off` a higher word of a field of several words (R33)? -/
def Row.upperAt (r : Row) (off : Nat) : Bool :=
  if off < r.off ∨ r.lo + r.w ≤ 32 then false
  else
    let d := off - r.off
    let i := if r.stride = 0 then 0 else d / r.stride
    let e := d - i * r.stride
    decide (i < r.count ∧ e ≠ 0 ∧ e < 4 * ((r.lo + r.w + 31) / 32))

/-- The fields of a word. -/
def fieldsAt (rows : List Row) (off : Nat) : List FieldAt := rows.filterMap (fun r => r.part off)

/-- The reset word that a list of fields gives. -/
def resetOf (fs : List FieldAt) : Nat := fs.foldl (fun a f => a + (f.reset % 2 ^ f.w) * 2 ^ f.lo) 0

end Sys2Proof.Machine
end

