-- ==== Sys2Proof/Machine/RegMap.lean ====
section
/-! DEFINITION. The register fields of every page kind (offset, bit position, width) and the access rows (access word,
reset value, range rule) that the tables of spec/02 to spec/20 give them.  R9 names the access words, R37 the range rules. -/

namespace Sys2Proof.Machine

/-! ### Fields of the page kind Irq -/

def Irq.ROUTE_CORE : Fld := ⟨0x400, 0, 3⟩
def Irq.ROUTE_PRIO : Fld := ⟨0x400, 4, 3⟩
def Irq.ROUTE_EN : Fld := ⟨0x400, 8, 1⟩
def Irq.ROUTE_ASSERTED : Fld := ⟨0x400, 16, 1⟩
def Irq.CLAIM_SOURCE : Fld := ⟨0x040, 0, 8⟩
def Irq.CLAIM_NONE : Fld := ⟨0x040, 8, 1⟩
def Irq.THRESH_LEVEL : Fld := ⟨0x044, 0, 3⟩
def Irq.SWI_CLR_SWI : Fld := ⟨0x084, 0, 8⟩
def Irq.SWI_SET_SWI : Fld := ⟨0x080, 0, 8⟩

/-- Access rows of the page kind Irq. -/
def Irq.rows : List Row :=
  [⟨0x400, 4, 256, 0, 3, .fr, 0, .any⟩,
   ⟨0x400, 4, 256, 4, 3, .fr, 0, .any⟩,
   ⟨0x400, 4, 256, 8, 1, .fr, 0, .any⟩,
   ⟨0x400, 4, 256, 16, 1, .rd, 0, .any⟩,
   ⟨0x040, 8, 6, 0, 8, .rd, 0, .any⟩,
   ⟨0x040, 8, 6, 8, 1, .rd, 1, .any⟩,
   ⟨0x044, 8, 6, 0, 3, .fr, 0, .any⟩,
   ⟨0x084, 0, 1, 0, 8, .pu, 0, .any⟩,
   ⟨0x080, 0, 1, 0, 8, .pu, 0, .any⟩]

/-! ### Fields of the page kind Rfe -/

def Rfe.CHAIN_CFG_BW : Fld := ⟨0x040, 0, 7⟩
def Rfe.CHAIN_CFG_DC_TC : Fld := ⟨0x040, 8, 4⟩
def Rfe.CHAIN_CFG_AUTO_CAL : Fld := ⟨0x040, 12, 1⟩
def Rfe.CHAIN_CFG_IMG_CORR : Fld := ⟨0x040, 13, 1⟩
def Rfe.GAIN_CTL_MAN_GAIN : Fld := ⟨0x044, 0, 6⟩
def Rfe.GAIN_CTL_GAIN_MIN : Fld := ⟨0x044, 8, 6⟩
def Rfe.GAIN_CTL_GAIN_MAX : Fld := ⟨0x044, 16, 6⟩
def Rfe.GAIN_CTL_AGC_EN : Fld := ⟨0x044, 24, 1⟩
def Rfe.AGC_CFG_AGC_TGT : Fld := ⟨0x048, 0, 6⟩
def Rfe.AGC_CFG_AGC_SH : Fld := ⟨0x048, 8, 2⟩
def Rfe.AGC_CFG_ATTACK_MAX : Fld := ⟨0x048, 12, 4⟩
def Rfe.AGC_CFG_DECAY_MAX : Fld := ⟨0x048, 16, 3⟩
def Rfe.AGC_CFG_DEADBAND : Fld := ⟨0x048, 20, 2⟩
def Rfe.GAIN_STAT_GAIN_NOW : Fld := ⟨0x04c, 0, 6⟩
def Rfe.GAIN_STAT_AT_LIMIT : Fld := ⟨0x04c, 8, 1⟩
def Rfe.GAIN_STAT_CLIP_CNT : Fld := ⟨0x04c, 16, 16⟩
def Rfe.AGC_POWER_P_DB : Fld := ⟨0x050, 0, 16⟩
def Rfe.AGC_POWER_N_MEAS : Fld := ⟨0x050, 16, 16⟩
def Rfe.BLANK_CFG_BLANK_K : Fld := ⟨0x054, 0, 6⟩
def Rfe.BLANK_CFG_BLANK_LEN : Fld := ⟨0x054, 8, 8⟩
def Rfe.BLANK_CFG_PRE_LEN : Fld := ⟨0x054, 16, 4⟩
def Rfe.BLANK_CFG_BLANK_EN : Fld := ⟨0x054, 24, 1⟩
def Rfe.BLANK_CFG_BLANK_CAP : Fld := ⟨0x054, 25, 7⟩
def Rfe.BLANK_STAT_BLANKED : Fld := ⟨0x058, 0, 16⟩
def Rfe.BLANK_STAT_BLANK_SAT : Fld := ⟨0x058, 16, 1⟩
def Rfe.NOTCH_CFG_MODE : Fld := ⟨0x000, 0, 2⟩
def Rfe.NOTCH_CFG_DEPTH : Fld := ⟨0x000, 4, 4⟩
def Rfe.NOTCH_CFG_MU : Fld := ⟨0x000, 8, 4⟩
def Rfe.NOTCH_CFG_AUTO_SEED : Fld := ⟨0x000, 12, 1⟩
def Rfe.NOTCH_FREQ_FREQ : Fld := ⟨0x004, 0, 24⟩
def Rfe.NOTCH_STAT_F_NOW : Fld := ⟨0x008, 0, 24⟩
def Rfe.NOTCH_STAT_STATE : Fld := ⟨0x008, 24, 2⟩
def Rfe.NOTCH_ATT_ATT : Fld := ⟨0x00c, 0, 16⟩
def Rfe.NOTCH_ATT_TONE : Fld := ⟨0x00c, 16, 16⟩
def Rfe.NOTCH_GLB_SEED_THR : Fld := ⟨0x0a0, 0, 8⟩
def Rfe.NOTCH_GLB_RELEASE_THR : Fld := ⟨0x0a0, 8, 8⟩
def Rfe.NOTCH_GLB_RELEASE_CNT : Fld := ⟨0x0a0, 16, 8⟩
def Rfe.NOTCH_GLB_SLEW : Fld := ⟨0x0a0, 24, 8⟩
def Rfe.MON_CFG_MON_EN : Fld := ⟨0x0b0, 0, 1⟩
def Rfe.MON_CFG_TAP : Fld := ⟨0x0b0, 1, 1⟩
def Rfe.MON_CFG_AVG_EXP : Fld := ⟨0x0b0, 4, 4⟩
def Rfe.MON_CFG_STRIDE : Fld := ⟨0x0b0, 8, 8⟩
def Rfe.MON_DST_ADDR : Fld := ⟨0x0b4, 0, 32⟩
def Rfe.MON_STAT_LAST : Fld := ⟨0x0b8, 0, 1⟩
def Rfe.MON_STAT_VALID : Fld := ⟨0x0b8, 1, 1⟩
def Rfe.MON_STAT_SEQ : Fld := ⟨0x0b8, 16, 16⟩
def Rfe.LANT_CFG_LANT_ON : Fld := ⟨0x0c0, 0, 1⟩
def Rfe.LANT_CFG_LANT_LVL : Fld := ⟨0x0c0, 8, 6⟩
def Rfe.LANT_OFS_OFS : Fld := ⟨0x0c4, 0, 24⟩
def Rfe.LANT_Q_VALUE : Fld := ⟨0x0cc, 0, 32⟩
def Rfe.LANT_I_VALUE : Fld := ⟨0x0c8, 0, 32⟩
def Rfe.LANT_T_T : Fld := ⟨0x0d0, 0, 64⟩
def Rfe.LANT_SKEW_SKEW : Fld := ⟨0x0d8, 0, 16⟩
def Rfe.CAL_CMD_DC : Fld := ⟨0x0e0, 0, 1⟩
def Rfe.CAL_CMD_FILTER : Fld := ⟨0x0e0, 1, 1⟩
def Rfe.CAL_CMD_IMAGE : Fld := ⟨0x0e0, 2, 1⟩
def Rfe.CAL_CMD_OSC : Fld := ⟨0x0e0, 3, 1⟩
def Rfe.CAL_CMD_ALL : Fld := ⟨0x0e0, 4, 1⟩
def Rfe.CAL_STAT_RUNNING : Fld := ⟨0x0e4, 0, 1⟩
def Rfe.CAL_STAT_STEP : Fld := ⟨0x0e4, 1, 3⟩
def Rfe.CAL_STAT_FAIL : Fld := ⟨0x0e4, 4, 1⟩
def Rfe.CAL_STAT_FAIL_STEP : Fld := ⟨0x0e4, 5, 3⟩
def Rfe.CAL_STAT_LO_CAL_DUE : Fld := ⟨0x0e4, 8, 1⟩
def Rfe.CAL_STAT_T_OSC : Fld := ⟨0x0e4, 16, 8⟩
def Rfe.CAL_STAT_T_IMG : Fld := ⟨0x0e4, 24, 8⟩
def Rfe.CAL_TEMP_OSC_DELTA : Fld := ⟨0x0e8, 0, 6⟩
def Rfe.CAL_TEMP_AUTO_OSC : Fld := ⟨0x0e8, 8, 1⟩
def Rfe.DC_RES_DC_I : Fld := ⟨0x0f0, 0, 10⟩
def Rfe.DC_RES_DC_Q : Fld := ⟨0x0f0, 16, 10⟩
def Rfe.FILT_RES_TRIM : Fld := ⟨0x0f4, 0, 8⟩
def Rfe.IMG_RES_GAIN_C : Fld := ⟨0x0f8, 0, 16⟩
def Rfe.IMG_RES_PHASE_C : Fld := ⟨0x0f8, 16, 16⟩
def Rfe.IMG_DB_REJ : Fld := ⟨0x0fc, 0, 16⟩
def Rfe.OSC_RES_VCO_BAND : Fld := ⟨0x100, 0, 8⟩
def Rfe.BIAS_CTL_BIAS_EN : Fld := ⟨0x110, 0, 1⟩
def Rfe.BIAS_CTL_AUTO_RETRY : Fld := ⟨0x110, 1, 1⟩
def Rfe.BIAS_CTL_RETRY : Fld := ⟨0x110, 8, 8⟩
def Rfe.BIAS_STAT_CURRENT : Fld := ⟨0x114, 0, 12⟩
def Rfe.BIAS_STAT_STATE : Fld := ⟨0x114, 12, 2⟩
def Rfe.BIAS_STAT_FOLDBACK : Fld := ⟨0x114, 14, 1⟩
def Rfe.BIAS_STAT_RETRIES : Fld := ⟨0x114, 16, 16⟩

/-- Access rows of the page kind Rfe. -/
def Rfe.rows : List Row :=
  [⟨0x040, 0, 1, 0, 7, .sh, 32, .clamp 8 64⟩,
   ⟨0x040, 0, 1, 8, 4, .sh, 8, .clamp 0 12⟩,
   ⟨0x040, 0, 1, 12, 1, .fr, 1, .any⟩,
   ⟨0x040, 0, 1, 13, 1, .sh, 1, .any⟩,
   ⟨0x044, 0, 1, 0, 6, .sh, 40, .any⟩,
   ⟨0x044, 0, 1, 8, 6, .sh, 0, .any⟩,
   ⟨0x044, 0, 1, 16, 6, .sh, 63, .any⟩,
   ⟨0x044, 0, 1, 24, 1, .sh, 1, .any⟩,
   ⟨0x048, 0, 1, 0, 6, .sh, 20, .clamp 4 63⟩,
   ⟨0x048, 0, 1, 8, 2, .sh, 1, .any⟩,
   ⟨0x048, 0, 1, 12, 4, .sh, 6, .clamp 1 15⟩,
   ⟨0x048, 0, 1, 16, 3, .sh, 1, .clamp 1 4⟩,
   ⟨0x048, 0, 1, 20, 2, .sh, 1, .any⟩,
   ⟨0x04c, 0, 1, 0, 6, .rd, 40, .any⟩,
   ⟨0x04c, 0, 1, 8, 1, .rd, 0, .any⟩,
   ⟨0x04c, 0, 1, 16, 16, .rd, 0, .any⟩,
   ⟨0x050, 0, 1, 0, 16, .rd, 0, .any⟩,
   ⟨0x050, 0, 1, 16, 16, .rd, 0, .any⟩,
   ⟨0x054, 0, 1, 0, 6, .sh, 16, .clamp 4 63⟩,
   ⟨0x054, 0, 1, 8, 8, .sh, 0, .any⟩,
   ⟨0x054, 0, 1, 16, 4, .sh, 0, .any⟩,
   ⟨0x054, 0, 1, 24, 1, .sh, 0, .any⟩,
   ⟨0x054, 0, 1, 25, 7, .sh, 25, .clamp 1 100⟩,
   ⟨0x058, 0, 1, 0, 16, .rd, 0, .any⟩,
   ⟨0x058, 0, 1, 16, 1, .rd, 0, .any⟩,
   ⟨0x060, 16, 4, 0, 2, .sh, 0, .reject 0 2⟩,
   ⟨0x060, 16, 4, 4, 4, .sh, 8, .clamp 4 12⟩,
   ⟨0x060, 16, 4, 8, 4, .sh, 8, .clamp 4 15⟩,
   ⟨0x060, 16, 4, 12, 1, .sh, 0, .any⟩,
   ⟨0x064, 16, 4, 0, 24, .sh, 0, .any⟩,
   ⟨0x068, 16, 4, 0, 24, .rd, 0, .any⟩,
   ⟨0x068, 16, 4, 24, 2, .rd, 0, .any⟩,
   ⟨0x06c, 16, 4, 0, 16, .rd, 0, .any⟩,
   ⟨0x06c, 16, 4, 16, 16, .rd, 0, .any⟩,
   ⟨0x0a0, 0, 1, 0, 8, .sh, 15, .clamp 6 60⟩,
   ⟨0x0a0, 0, 1, 8, 8, .sh, 6, .any⟩,
   ⟨0x0a0, 0, 1, 16, 8, .sh, 10, .clamp 1 255⟩,
   ⟨0x0a0, 0, 1, 24, 8, .sh, 50, .clamp 1 255⟩,
   ⟨0x0b0, 0, 1, 0, 1, .sh, 0, .any⟩,
   ⟨0x0b0, 0, 1, 1, 1, .sh, 0, .any⟩] ++
  [⟨0x0b0, 0, 1, 4, 4, .sh, 6, .clamp 4 12⟩,
   ⟨0x0b0, 0, 1, 8, 8, .sh, 1, .clamp 1 255⟩,
   ⟨0x0b4, 0, 1, 0, 32, .sh, 0, .any⟩,
   ⟨0x0b8, 0, 1, 0, 1, .rd, 0, .any⟩,
   ⟨0x0b8, 0, 1, 1, 1, .rd, 0, .any⟩,
   ⟨0x0b8, 0, 1, 16, 16, .rd, 0, .any⟩,
   ⟨0x0c0, 0, 1, 0, 1, .sh, 0, .any⟩,
   ⟨0x0c0, 0, 1, 8, 6, .sh, 25, .clamp 0 40⟩,
   ⟨0x0c4, 0, 1, 0, 24, .sh, 2767503, .any⟩,
   ⟨0x0cc, 0, 1, 0, 32, .rd, 0, .any⟩,
   ⟨0x0c8, 0, 1, 0, 32, .rd, 0, .any⟩,
   ⟨0x0d0, 0, 1, 0, 64, .rd, 0, .any⟩,
   ⟨0x0d8, 0, 1, 0, 16, .rd, 0, .any⟩,
   ⟨0x0e0, 0, 1, 0, 1, .pu, 0, .any⟩,
   ⟨0x0e0, 0, 1, 1, 1, .pu, 0, .any⟩,
   ⟨0x0e0, 0, 1, 2, 1, .pu, 0, .any⟩,
   ⟨0x0e0, 0, 1, 3, 1, .pu, 0, .any⟩,
   ⟨0x0e0, 0, 1, 4, 1, .pu, 0, .any⟩,
   ⟨0x0e4, 0, 1, 0, 1, .rd, 0, .any⟩,
   ⟨0x0e4, 0, 1, 1, 3, .rd, 0, .any⟩,
   ⟨0x0e4, 0, 1, 4, 1, .oc, 0, .any⟩,
   ⟨0x0e4, 0, 1, 5, 3, .rd, 0, .any⟩,
   ⟨0x0e4, 0, 1, 8, 1, .rd, 0, .any⟩,
   ⟨0x0e4, 0, 1, 16, 8, .rd, 0, .any⟩,
   ⟨0x0e4, 0, 1, 24, 8, .rd, 0, .any⟩,
   ⟨0x0e8, 0, 1, 0, 6, .sh, 10, .clamp 1 40⟩,
   ⟨0x0e8, 0, 1, 8, 1, .sh, 0, .any⟩,
   ⟨0x0f0, 0, 1, 0, 10, .fr, 0, .any⟩,
   ⟨0x0f0, 0, 1, 16, 10, .fr, 0, .any⟩,
   ⟨0x0f4, 0, 1, 0, 8, .fr, 0, .any⟩,
   ⟨0x0f8, 0, 1, 0, 16, .fr, 0, .any⟩,
   ⟨0x0f8, 0, 1, 16, 16, .fr, 0, .any⟩,
   ⟨0x0fc, 0, 1, 0, 16, .rd, 0, .any⟩,
   ⟨0x100, 0, 1, 0, 8, .rd, 0, .any⟩,
   ⟨0x110, 0, 1, 0, 1, .fr, 0, .any⟩,
   ⟨0x110, 0, 1, 1, 1, .fr, 1, .any⟩,
   ⟨0x110, 0, 1, 8, 8, .fr, 10, .clamp 1 255⟩,
   ⟨0x114, 0, 1, 0, 12, .rd, 0, .any⟩,
   ⟨0x114, 0, 1, 12, 2, .rd, 0, .any⟩,
   ⟨0x114, 0, 1, 14, 1, .oc, 0, .any⟩] ++
  [⟨0x114, 0, 1, 16, 16, .rd, 0, .any⟩]

/-! ### Fields of the page kind Acq -/

def Acq.SNAP_BASE_BASE : Fld := ⟨0x040, 16, 16⟩
def Acq.SNAP_CFG_CHAINS : Fld := ⟨0x044, 0, 4⟩
def Acq.SNAP_CFG_RING : Fld := ⟨0x044, 4, 1⟩
def Acq.SNAP_CFG_STOP_CLIP : Fld := ⟨0x044, 5, 1⟩
def Acq.SNAP_CFG_OFS : Fld := ⟨0x044, 8, 8⟩
def Acq.SNAP_CFG_LEN : Fld := ⟨0x044, 16, 13⟩
def Acq.SNAP_CMD_START : Fld := ⟨0x048, 0, 1⟩
def Acq.SNAP_CMD_STOP : Fld := ⟨0x048, 1, 1⟩
def Acq.SNAP_STAT_STATE : Fld := ⟨0x04c, 0, 2⟩
def Acq.SNAP_STAT_OVERRUN : Fld := ⟨0x04c, 2, 1⟩
def Acq.SNAP_STAT_MISSED : Fld := ⟨0x04c, 8, 8⟩
def Acq.SNAP_STAT_SEQ : Fld := ⟨0x04c, 16, 16⟩
def Acq.Q_BASE_BASE : Fld := ⟨0x060, 12, 20⟩
def Acq.Q_TAIL_TAIL : Fld := ⟨0x064, 0, 7⟩
def Acq.Q_HEAD_HEAD : Fld := ⟨0x068, 0, 7⟩
def Acq.Q_CTL_ABORT : Fld := ⟨0x06c, 0, 1⟩
def Acq.Q_CTL_FLUSH : Fld := ⟨0x06c, 1, 1⟩
def Acq.ENG_STAT_TAG : Fld := ⟨0x070, 0, 16⟩
def Acq.ENG_STAT_RUNNING : Fld := ⟨0x070, 16, 1⟩
def Acq.ENG_STAT_HALTED : Fld := ⟨0x070, 17, 1⟩
def Acq.ENG_STAT_INTERRUPTED : Fld := ⟨0x070, 18, 1⟩
def Acq.ENG_CYC_CYCLES : Fld := ⟨0x074, 0, 32⟩

/-- Access rows of the page kind Acq. -/
def Acq.rows : List Row :=
  [⟨0x040, 0, 1, 16, 16, .on, 4352, .any⟩,
   ⟨0x044, 0, 1, 0, 4, .sh, 1, .any⟩,
   ⟨0x044, 0, 1, 4, 1, .sh, 0, .any⟩,
   ⟨0x044, 0, 1, 5, 1, .sh, 0, .any⟩,
   ⟨0x044, 0, 1, 8, 8, .sh, 0, .reject 0 191⟩,
   ⟨0x044, 0, 1, 16, 13, .sh, 16, .reject 1 6143⟩,
   ⟨0x048, 0, 1, 0, 1, .pu, 0, .any⟩,
   ⟨0x048, 0, 1, 1, 1, .pu, 0, .any⟩,
   ⟨0x04c, 0, 1, 0, 2, .rd, 0, .any⟩,
   ⟨0x04c, 0, 1, 2, 1, .oc, 0, .any⟩,
   ⟨0x04c, 0, 1, 8, 8, .rd, 0, .any⟩,
   ⟨0x04c, 0, 1, 16, 16, .rd, 0, .any⟩,
   ⟨0x060, 0, 1, 12, 20, .fr, 0, .any⟩,
   ⟨0x064, 0, 1, 0, 7, .fr, 0, .any⟩,
   ⟨0x068, 0, 1, 0, 7, .rd, 0, .any⟩,
   ⟨0x06c, 0, 1, 0, 1, .pu, 0, .any⟩,
   ⟨0x06c, 0, 1, 1, 1, .pu, 0, .any⟩,
   ⟨0x070, 0, 1, 0, 16, .rd, 0, .any⟩,
   ⟨0x070, 0, 1, 16, 1, .rd, 0, .any⟩,
   ⟨0x070, 0, 1, 17, 1, .rd, 0, .any⟩,
   ⟨0x070, 0, 1, 18, 1, .rd, 0, .any⟩,
   ⟨0x074, 0, 1, 0, 32, .rd, 0, .any⟩]

/-! ### Fields of the page kind Ch -/

def Ch.CH_CTL_RUN : Fld := ⟨0x000, 0, 1⟩
def Ch.CH_CTL_DUMP_EN : Fld := ⟨0x000, 1, 1⟩
def Ch.CH_CTL_PATH : Fld := ⟨0x000, 2, 1⟩
def Ch.CH_CTL_GROUP : Fld := ⟨0x000, 4, 4⟩
def Ch.CH_STAT_STATE : Fld := ⟨0x004, 0, 2⟩
def Ch.CH_STAT_COMMIT_PEND : Fld := ⟨0x004, 2, 1⟩
def Ch.CH_STAT_SRC_VALID : Fld := ⟨0x004, 3, 1⟩
def Ch.CH_STAT_REASON : Fld := ⟨0x004, 4, 4⟩
def Ch.CH_STAT_DUMP_SEQ : Fld := ⟨0x004, 16, 16⟩
def Ch.CH_IRQ_RAW_STARTED : Fld := ⟨0x008, 0, 1⟩
def Ch.CH_IRQ_EN_STARTED : Fld := ⟨0x00c, 0, 1⟩
def Ch.CH_IRQ_CLR_STARTED : Fld := ⟨0x010, 0, 1⟩
def Ch.CH_IRQ_RAW_COMMIT_DONE : Fld := ⟨0x008, 1, 1⟩
def Ch.CH_IRQ_EN_COMMIT_DONE : Fld := ⟨0x00c, 1, 1⟩
def Ch.CH_IRQ_CLR_COMMIT_DONE : Fld := ⟨0x010, 1, 1⟩
def Ch.CH_IRQ_RAW_CFG_ERR : Fld := ⟨0x008, 2, 1⟩
def Ch.CH_IRQ_EN_CFG_ERR : Fld := ⟨0x00c, 2, 1⟩
def Ch.CH_IRQ_CLR_CFG_ERR : Fld := ⟨0x010, 2, 1⟩
def Ch.CH_IRQ_RAW_LATE_START : Fld := ⟨0x008, 3, 1⟩
def Ch.CH_IRQ_EN_LATE_START : Fld := ⟨0x00c, 3, 1⟩
def Ch.CH_IRQ_CLR_LATE_START : Fld := ⟨0x010, 3, 1⟩
def Ch.CH_IRQ_RAW_INVALID_SAMPLES : Fld := ⟨0x008, 4, 1⟩
def Ch.CH_IRQ_EN_INVALID_SAMPLES : Fld := ⟨0x00c, 4, 1⟩
def Ch.CH_IRQ_CLR_INVALID_SAMPLES : Fld := ⟨0x010, 4, 1⟩
def Ch.SIG_CFG_SIGNAL : Fld := ⟨0x020, 0, 6⟩
def Ch.SIG_CFG_CODE_NUM : Fld := ⟨0x020, 8, 6⟩
def Ch.SIG_CFG_SRC : Fld := ⟨0x020, 16, 3⟩
def Ch.SIG_CFG_SUBC : Fld := ⟨0x020, 20, 2⟩
def Ch.SIG_CFG_SEC_WIPE : Fld := ⟨0x020, 22, 1⟩
def Ch.SIG_CFG_NB : Fld := ⟨0x020, 23, 1⟩
def Ch.INT_CFG_INT_LEN : Fld := ⟨0x024, 0, 8⟩
def Ch.INT_CFG_INT_PHASE : Fld := ⟨0x024, 8, 8⟩
def Ch.INT_CFG_SEC_OFS : Fld := ⟨0x024, 16, 16⟩
def Ch.TAP_CFG_SP_IN : Fld := ⟨0x028, 0, 6⟩
def Ch.TAP_CFG_SP_OUT : Fld := ⟨0x028, 8, 6⟩
def Ch.START_T : Fld := ⟨0x02c, 0, 64⟩
def Ch.CARR_FREQ_FREQ : Fld := ⟨0x034, 0, 40⟩
def Ch.CODE_RATE_RATE : Fld := ⟨0x03c, 0, 48⟩
def Ch.CARR_STEP_STEP : Fld := ⟨0x044, 0, 32⟩
def Ch.CODE_STEP_STEP : Fld := ⟨0x048, 0, 32⟩
def Ch.APPLY_GEN_LOAD_GEN : Fld := ⟨0x04c, 0, 16⟩
def Ch.APPLY_GEN_STEP_GEN : Fld := ⟨0x04c, 16, 16⟩
def Ch.CODE_INIT_FRAC : Fld := ⟨0x050, 0, 32⟩
def Ch.CODE_INIT_CHIP : Fld := ⟨0x054, 0, 16⟩
def Ch.PERIOD_INIT_PERIOD : Fld := ⟨0x058, 0, 32⟩
def Ch.CARR_INIT_PHASE : Fld := ⟨0x05c, 0, 64⟩
def Ch.RB_T_T : Fld := ⟨0x080, 0, 64⟩
def Ch.RB_CODE_FRAC : Fld := ⟨0x088, 0, 32⟩
def Ch.RB_CODE_CHIP : Fld := ⟨0x08c, 0, 16⟩
def Ch.RB_PERIOD_PERIOD : Fld := ⟨0x090, 0, 32⟩
def Ch.RB_CARR_PHASE : Fld := ⟨0x094, 0, 64⟩
def Ch.RB_FREQ_FREQ : Fld := ⟨0x09c, 0, 40⟩
def Ch.RB_RATE_RATE : Fld := ⟨0x0a4, 0, 48⟩
def Ch.RB_INFO_GEN : Fld := ⟨0x0ac, 0, 16⟩
def Ch.RB_INFO_INT_POS : Fld := ⟨0x0ac, 16, 8⟩
def Ch.RB_INFO_STATE : Fld := ⟨0x0ac, 24, 2⟩
def Ch.COMMIT_GEN : Fld := ⟨0x014, 0, 16⟩
def Ch.COMMIT_TAKEN_GEN : Fld := ⟨0x018, 0, 16⟩

/-- Access rows of the page kind Ch. -/
def Ch.rows : List Row :=
  [⟨0x000, 0, 1, 0, 1, .fr, 0, .any⟩,
   ⟨0x000, 0, 1, 1, 1, .fr, 0, .any⟩,
   ⟨0x000, 0, 1, 2, 1, .fr, 0, .any⟩,
   ⟨0x000, 0, 1, 4, 4, .fr, 0, .any⟩,
   ⟨0x004, 0, 1, 0, 2, .rd, 0, .any⟩,
   ⟨0x004, 0, 1, 2, 1, .rd, 0, .any⟩,
   ⟨0x004, 0, 1, 3, 1, .rd, 0, .any⟩,
   ⟨0x004, 0, 1, 4, 4, .rd, 0, .any⟩,
   ⟨0x004, 0, 1, 16, 16, .rd, 0, .any⟩,
   ⟨0x008, 0, 1, 0, 1, .rd, 0, .any⟩,
   ⟨0x00c, 0, 1, 0, 1, .fr, 0, .any⟩,
   ⟨0x010, 0, 1, 0, 1, .pu, 0, .any⟩,
   ⟨0x008, 0, 1, 1, 1, .rd, 0, .any⟩,
   ⟨0x00c, 0, 1, 1, 1, .fr, 0, .any⟩,
   ⟨0x010, 0, 1, 1, 1, .pu, 0, .any⟩,
   ⟨0x008, 0, 1, 2, 1, .rd, 0, .any⟩,
   ⟨0x00c, 0, 1, 2, 1, .fr, 0, .any⟩,
   ⟨0x010, 0, 1, 2, 1, .pu, 0, .any⟩,
   ⟨0x008, 0, 1, 3, 1, .rd, 0, .any⟩,
   ⟨0x00c, 0, 1, 3, 1, .fr, 0, .any⟩,
   ⟨0x010, 0, 1, 3, 1, .pu, 0, .any⟩,
   ⟨0x008, 0, 1, 4, 1, .rd, 0, .any⟩,
   ⟨0x00c, 0, 1, 4, 1, .fr, 0, .any⟩,
   ⟨0x010, 0, 1, 4, 1, .pu, 0, .any⟩,
   ⟨0x020, 0, 1, 0, 6, .sh, 0, .any⟩,
   ⟨0x020, 0, 1, 8, 6, .sh, 0, .any⟩,
   ⟨0x020, 0, 1, 16, 3, .sh, 0, .any⟩,
   ⟨0x020, 0, 1, 20, 2, .sh, 0, .reject 0 2⟩,
   ⟨0x020, 0, 1, 22, 1, .sh, 0, .any⟩,
   ⟨0x020, 0, 1, 23, 1, .sh, 0, .any⟩,
   ⟨0x024, 0, 1, 0, 8, .sh, 1, .reject 1 255⟩,
   ⟨0x024, 0, 1, 8, 8, .sh, 0, .any⟩,
   ⟨0x024, 0, 1, 16, 16, .sh, 0, .any⟩,
   ⟨0x028, 0, 1, 0, 6, .sh, 8, .reject 1 63⟩,
   ⟨0x028, 0, 1, 8, 6, .sh, 8, .reject 1 63⟩,
   ⟨0x02c, 0, 1, 0, 64, .sh, 0, .any⟩,
   ⟨0x034, 0, 1, 0, 40, .sh, 0, .any⟩,
   ⟨0x03c, 0, 1, 0, 48, .sh, 13743895347, .any⟩,
   ⟨0x044, 0, 1, 0, 32, .sh, 0, .any⟩,
   ⟨0x048, 0, 1, 0, 32, .sh, 0, .any⟩] ++
  [⟨0x04c, 0, 1, 0, 16, .sh, 0, .any⟩,
   ⟨0x04c, 0, 1, 16, 16, .sh, 0, .any⟩,
   ⟨0x050, 0, 1, 0, 32, .sh, 0, .any⟩,
   ⟨0x054, 0, 1, 0, 16, .sh, 0, .any⟩,
   ⟨0x058, 0, 1, 0, 32, .sh, 0, .any⟩,
   ⟨0x05c, 0, 1, 0, 64, .sh, 0, .any⟩,
   ⟨0x080, 0, 1, 0, 64, .rd, 0, .any⟩,
   ⟨0x088, 0, 1, 0, 32, .rd, 0, .any⟩,
   ⟨0x08c, 0, 1, 0, 16, .rd, 0, .any⟩,
   ⟨0x090, 0, 1, 0, 32, .rd, 0, .any⟩,
   ⟨0x094, 0, 1, 0, 64, .rd, 0, .any⟩,
   ⟨0x09c, 0, 1, 0, 40, .rd, 0, .any⟩,
   ⟨0x0a4, 0, 1, 0, 48, .rd, 0, .any⟩,
   ⟨0x0ac, 0, 1, 0, 16, .rd, 0, .any⟩,
   ⟨0x0ac, 0, 1, 16, 8, .rd, 0, .any⟩,
   ⟨0x0ac, 0, 1, 24, 2, .rd, 0, .any⟩,
   ⟨0x014, 0, 1, 0, 16, .fr, 0, .any⟩,
   ⟨0x018, 0, 1, 0, 16, .rd, 0, .any⟩]

/-! ### Fields of the page kind Trkg -/

def Trkg.DUMP_CTL_DUMP_EN : Fld := ⟨0x040, 0, 1⟩
def Trkg.DUMP_CTL_OVF_CLR : Fld := ⟨0x040, 1, 1⟩
def Trkg.DUMP_BASE_BASE : Fld := ⟨0x044, 12, 20⟩
def Trkg.DUMP_SIZE_SIZE : Fld := ⟨0x048, 0, 20⟩
def Trkg.DUMP_WP_WP : Fld := ⟨0x04c, 0, 20⟩
def Trkg.DUMP_RP_RP : Fld := ⟨0x050, 0, 20⟩
def Trkg.DUMP_WM_WM : Fld := ⟨0x054, 0, 20⟩
def Trkg.DUMP_OVF_COUNT : Fld := ⟨0x058, 0, 32⟩
def Trkg.GRP_CMD_COMMIT : Fld := ⟨0x060, 0, 16⟩
def Trkg.GRP_ARM_GEN : Fld := ⟨0x064, 0, 16⟩
def Trkg.GRP_ARM_GROUP : Fld := ⟨0x064, 16, 4⟩
def Trkg.GRP_STAT_TAKEN : Fld := ⟨0x080, 0, 16⟩
def Trkg.GRP_STAT_MISS : Fld := ⟨0x080, 16, 10⟩
def Trkg.GRP_T_T : Fld := ⟨0x0c0, 0, 64⟩
def Trkg.CH_IRQ_SUM_PEND : Fld := ⟨0x140, 0, 32⟩
def Trkg.RUN_SUM_RUN : Fld := ⟨0x180, 0, 32⟩

/-- Access rows of the page kind Trkg. -/
def Trkg.rows : List Row :=
  [⟨0x040, 0, 1, 0, 1, .fr, 0, .any⟩,
   ⟨0x040, 0, 1, 1, 1, .pu, 0, .any⟩,
   ⟨0x044, 0, 1, 12, 20, .fr, 0, .any⟩,
   ⟨0x048, 0, 1, 0, 20, .fr, 64, .any⟩,
   ⟨0x04c, 0, 1, 0, 20, .rd, 0, .any⟩,
   ⟨0x050, 0, 1, 0, 20, .fr, 0, .any⟩,
   ⟨0x054, 0, 1, 0, 20, .fr, 32, .any⟩,
   ⟨0x058, 0, 1, 0, 32, .rd, 0, .any⟩,
   ⟨0x060, 0, 1, 0, 16, .pu, 0, .any⟩,
   ⟨0x064, 0, 1, 0, 16, .fr, 0, .any⟩,
   ⟨0x064, 0, 1, 16, 4, .fr, 0, .any⟩,
   ⟨0x080, 4, 16, 0, 16, .rd, 0, .any⟩,
   ⟨0x080, 4, 16, 16, 10, .rd, 0, .any⟩,
   ⟨0x0c0, 8, 16, 0, 64, .rd, 0, .any⟩,
   ⟨0x140, 4, 16, 0, 32, .rd, 0, .any⟩,
   ⟨0x180, 4, 16, 0, 32, .rd, 0, .any⟩]

/-! ### Fields of the page kind Code -/

def Code.CS_ADDR_WADDR : Fld := ⟨0x040, 2, 18⟩
def Code.CS_DATA_DATA : Fld := ⟨0x044, 0, 32⟩
def Code.CS_CTL_CRC : Fld := ⟨0x048, 0, 1⟩
def Code.CS_CRC_CRC : Fld := ⟨0x04c, 0, 32⟩
def Code.CS_ERR_ADDR : Fld := ⟨0x050, 2, 18⟩
def Code.CS_ERR_PERR : Fld := ⟨0x050, 31, 1⟩

/-- Access rows of the page kind Code. -/
def Code.rows : List Row :=
  [⟨0x040, 0, 1, 2, 18, .fr, 0, .any⟩,
   ⟨0x044, 0, 1, 0, 32, .fr, 0, .any⟩,
   ⟨0x048, 0, 1, 0, 1, .pu, 0, .any⟩,
   ⟨0x04c, 0, 1, 0, 32, .rd, 0, .any⟩,
   ⟨0x050, 0, 1, 2, 18, .rd, 0, .any⟩,
   ⟨0x050, 0, 1, 31, 1, .oc, 0, .any⟩]

/-! ### Fields of the page kind Meas -/

def Meas.MEAS_CFG_TS_SEL : Fld := ⟨0x040, 0, 2⟩
def Meas.MEAS_CMD_LATCH : Fld := ⟨0x044, 0, 1⟩
def Meas.MEAS_CMD_CNT_CLR : Fld := ⟨0x044, 1, 1⟩
def Meas.MEAS_BASE_BASE : Fld := ⟨0x048, 6, 26⟩
def Meas.MEAS_SLOTS_SLOTS : Fld := ⟨0x04c, 0, 10⟩
def Meas.MEAS_WP_WP : Fld := ⟨0x050, 0, 10⟩
def Meas.MEAS_RP_RP : Fld := ⟨0x054, 0, 10⟩
def Meas.MEAS_WM_WM : Fld := ⟨0x058, 0, 10⟩
def Meas.MEAS_MISS_COUNT : Fld := ⟨0x05c, 0, 32⟩
def Meas.MEAS_OVR_COUNT : Fld := ⟨0x060, 0, 32⟩
def Meas.MEAS_SEQ_SEQ : Fld := ⟨0x064, 0, 32⟩
def Meas.LAST_T_T : Fld := ⟨0x068, 0, 64⟩
def Meas.REPORT_MASK : Fld := ⟨0x080, 0, 32⟩
def Meas.FACT_DELAY_DELAY : Fld := ⟨0x0c0, 0, 20⟩
def Meas.LANT_INJ_H_DELAY : Fld := ⟨0x0d0, 0, 20⟩
def Meas.LANT_INJ_L_DELAY : Fld := ⟨0x0d4, 0, 20⟩

/-- Access rows of the page kind Meas. -/
def Meas.rows : List Row :=
  [⟨0x040, 0, 1, 0, 2, .sh, 0, .any⟩,
   ⟨0x044, 0, 1, 0, 1, .pu, 0, .any⟩,
   ⟨0x044, 0, 1, 1, 1, .pu, 0, .any⟩,
   ⟨0x048, 0, 1, 6, 26, .fr, 0, .any⟩,
   ⟨0x04c, 0, 1, 0, 10, .fr, 16, .any⟩,
   ⟨0x050, 0, 1, 0, 10, .rd, 0, .any⟩,
   ⟨0x054, 0, 1, 0, 10, .fr, 0, .any⟩,
   ⟨0x058, 0, 1, 0, 10, .fr, 1, .any⟩,
   ⟨0x05c, 0, 1, 0, 32, .rd, 0, .any⟩,
   ⟨0x060, 0, 1, 0, 32, .rd, 0, .any⟩,
   ⟨0x064, 0, 1, 0, 32, .rd, 0, .any⟩,
   ⟨0x068, 0, 1, 0, 64, .rd, 0, .any⟩,
   ⟨0x080, 4, 16, 0, 32, .sh, 4294967295, .any⟩,
   ⟨0x0c0, 4, 4, 0, 20, .rd, 0, .any⟩,
   ⟨0x0d0, 0, 1, 0, 20, .rd, 0, .any⟩,
   ⟨0x0d4, 0, 1, 0, 20, .rd, 0, .any⟩]

/-! ### Fields of the page kind Cdl -/

def Cdl.CDL_CFG_ROLE : Fld := ⟨0x040, 0, 2⟩
def Cdl.CDL_CFG_EPOCH_SHARE : Fld := ⟨0x040, 4, 1⟩
def Cdl.CDL_CFG_ARRAY : Fld := ⟨0x040, 5, 1⟩
def Cdl.CDL_CFG_SUCCEED : Fld := ⟨0x040, 6, 1⟩
def Cdl.CDL_STAT_STATE : Fld := ⟨0x044, 0, 3⟩
def Cdl.CDL_STAT_POSITION : Fld := ⟨0x044, 4, 3⟩
def Cdl.CDL_STAT_ARRAY_IGNORED : Fld := ⟨0x044, 7, 1⟩
def Cdl.CDL_STAT_MEMBERS : Fld := ⟨0x044, 8, 8⟩
def Cdl.CDL_STAT_DLL_LOCKED : Fld := ⟨0x044, 16, 1⟩
def Cdl.CDL_STAT_LANE_LOCK : Fld := ⟨0x044, 17, 2⟩
def Cdl.CDL_SKEW_SKEW : Fld := ⟨0x048, 0, 16⟩
def Cdl.CDL_SKEW_SKEW_H : Fld := ⟨0x048, 16, 16⟩
def Cdl.CDL_ASYM_ASYM : Fld := ⟨0x04c, 0, 16⟩
def Cdl.CDL_RTT_RTT : Fld := ⟨0x050, 0, 24⟩
def Cdl.CDL_DLL_CODE : Fld := ⟨0x054, 0, 13⟩
def Cdl.CDL_GSC_GSC : Fld := ⟨0x058, 0, 48⟩
def Cdl.CDL_CMD_ALIGN : Fld := ⟨0x060, 0, 1⟩
def Cdl.CDL_CMD_LEAVE : Fld := ⟨0x060, 1, 1⟩
def Cdl.CDL_CMD_MSG_SEND : Fld := ⟨0x060, 2, 1⟩
def Cdl.CDL_CMD_CNT_CLR : Fld := ⟨0x060, 3, 1⟩
def Cdl.MSG_CTL_DEST : Fld := ⟨0x064, 0, 4⟩
def Cdl.MSG_CTL_TX_BUSY : Fld := ⟨0x064, 8, 1⟩
def Cdl.MSG_TX_DATA : Fld := ⟨0x068, 0, 64⟩
def Cdl.MSG_RX_DATA : Fld := ⟨0x070, 0, 64⟩
def Cdl.MSG_RX_INFO_SRC : Fld := ⟨0x078, 0, 3⟩
def Cdl.MSG_RX_INFO_OVR : Fld := ⟨0x078, 8, 1⟩
def Cdl.EPOCH_CNT_COUNT : Fld := ⟨0x07c, 0, 32⟩
def Cdl.EPOCH_LATE_COUNT : Fld := ⟨0x080, 0, 32⟩
def Cdl.CRC_ERR_COUNT : Fld := ⟨0x084, 0, 32⟩
def Cdl.BLK_ERR_COUNT : Fld := ⟨0x088, 0, 32⟩

/-- Access rows of the page kind Cdl. -/
def Cdl.rows : List Row :=
  [⟨0x040, 0, 1, 0, 2, .fr, 0, .any⟩,
   ⟨0x040, 0, 1, 4, 1, .fr, 1, .any⟩,
   ⟨0x040, 0, 1, 5, 1, .fr, 0, .any⟩,
   ⟨0x040, 0, 1, 6, 1, .fr, 0, .any⟩,
   ⟨0x044, 0, 1, 0, 3, .rd, 0, .any⟩,
   ⟨0x044, 0, 1, 4, 3, .rd, 0, .any⟩,
   ⟨0x044, 0, 1, 7, 1, .rd, 0, .any⟩,
   ⟨0x044, 0, 1, 8, 8, .rd, 0, .any⟩,
   ⟨0x044, 0, 1, 16, 1, .rd, 0, .any⟩,
   ⟨0x044, 0, 1, 17, 2, .rd, 0, .any⟩,
   ⟨0x048, 0, 1, 0, 16, .rd, 0, .any⟩,
   ⟨0x048, 0, 1, 16, 16, .rd, 0, .any⟩,
   ⟨0x04c, 0, 1, 0, 16, .fr, 0, .clampS 2000 2000⟩,
   ⟨0x050, 0, 1, 0, 24, .rd, 0, .any⟩,
   ⟨0x054, 0, 1, 0, 13, .rd, 0, .any⟩,
   ⟨0x058, 0, 1, 0, 48, .rd, 0, .any⟩,
   ⟨0x060, 0, 1, 0, 1, .pu, 0, .any⟩,
   ⟨0x060, 0, 1, 1, 1, .pu, 0, .any⟩,
   ⟨0x060, 0, 1, 2, 1, .pu, 0, .any⟩,
   ⟨0x060, 0, 1, 3, 1, .pu, 0, .any⟩,
   ⟨0x064, 0, 1, 0, 4, .fr, 15, .any⟩,
   ⟨0x064, 0, 1, 8, 1, .rd, 0, .any⟩,
   ⟨0x068, 0, 1, 0, 64, .fr, 0, .any⟩,
   ⟨0x070, 0, 1, 0, 64, .rd, 0, .any⟩,
   ⟨0x078, 0, 1, 0, 3, .rd, 0, .any⟩,
   ⟨0x078, 0, 1, 8, 1, .oc, 0, .any⟩,
   ⟨0x07c, 0, 1, 0, 32, .rd, 0, .any⟩,
   ⟨0x080, 0, 1, 0, 32, .rd, 0, .any⟩,
   ⟨0x084, 0, 1, 0, 32, .rd, 0, .any⟩,
   ⟨0x088, 0, 1, 0, 32, .rd, 0, .any⟩]

/-! ### Fields of the page kind Arr -/

def Arr.ARR_CTL_HO_SRC : Fld := ⟨0x040, 0, 1⟩
def Arr.ARR_CTL_HO_GROUP : Fld := ⟨0x040, 4, 4⟩
def Arr.ARR_CTL_STRICT : Fld := ⟨0x040, 8, 1⟩
def Arr.ARR_CTL_RQ_SHIFT : Fld := ⟨0x040, 12, 3⟩
def Arr.ARR_CTL_BEAM_SHIFT : Fld := ⟨0x040, 16, 3⟩
def Arr.ALIGN_DELAY_DELAY : Fld := ⟨0x044, 0, 10⟩
def Arr.COV_CFG_COV_EN : Fld := ⟨0x048, 0, 1⟩
def Arr.COV_CFG_COV_LEN : Fld := ⟨0x048, 8, 5⟩
def Arr.COV_DST_ADDR : Fld := ⟨0x04c, 6, 26⟩
def Arr.COV_STAT_LAST : Fld := ⟨0x050, 0, 1⟩
def Arr.COV_STAT_VALID : Fld := ⟨0x050, 1, 1⟩
def Arr.COV_STAT_SEQ : Fld := ⟨0x050, 16, 16⟩
def Arr.ELEM_STAT_PRESENT : Fld := ⟨0x054, 0, 8⟩
def Arr.ELEM_STAT_VALID : Fld := ⟨0x054, 8, 8⟩
def Arr.ELEM_LATE_COUNT : Fld := ⟨0x058, 0, 32⟩
def Arr.BEAM_SAT_COUNT : Fld := ⟨0x05c, 0, 32⟩
def Arr.W_WI : Fld := ⟨0x100, 0, 16⟩
def Arr.W_WQ : Fld := ⟨0x100, 16, 16⟩

/-- Access rows of the page kind Arr. -/
def Arr.rows : List Row :=
  [⟨0x040, 0, 1, 0, 1, .fr, 0, .any⟩,
   ⟨0x040, 0, 1, 4, 4, .fr, 0, .any⟩,
   ⟨0x040, 0, 1, 8, 1, .sh, 0, .any⟩,
   ⟨0x040, 0, 1, 12, 3, .sh, 3, .clamp 0 4⟩,
   ⟨0x040, 0, 1, 16, 3, .sh, 3, .any⟩,
   ⟨0x044, 0, 1, 0, 10, .sh, 320, .clamp 64 1023⟩,
   ⟨0x048, 0, 1, 0, 1, .sh, 0, .any⟩,
   ⟨0x048, 0, 1, 8, 5, .sh, 20, .clamp 16 23⟩,
   ⟨0x04c, 0, 1, 6, 26, .sh, 0, .any⟩,
   ⟨0x050, 0, 1, 0, 1, .rd, 0, .any⟩,
   ⟨0x050, 0, 1, 1, 1, .rd, 0, .any⟩,
   ⟨0x050, 0, 1, 16, 16, .rd, 0, .any⟩,
   ⟨0x054, 0, 1, 0, 8, .rd, 0, .any⟩,
   ⟨0x054, 0, 1, 8, 8, .rd, 0, .any⟩,
   ⟨0x058, 0, 1, 0, 32, .rd, 0, .any⟩,
   ⟨0x05c, 0, 1, 0, 32, .rd, 0, .any⟩,
   ⟨0x100, 4, 64, 0, 16, .sh, 0, .any⟩,
   ⟨0x100, 4, 64, 16, 16, .sh, 0, .any⟩]

/-! ### Fields of the page kind TimeP -/

def TimeP.BASE_T : Fld := ⟨0x040, 0, 64⟩
def TimeP.TCAP_T_T : Fld := ⟨0x048, 0, 64⟩
def TimeP.TIME_STAT_COAST : Fld := ⟨0x050, 0, 1⟩
def TimeP.TIME_STAT_COAST_CAUSE : Fld := ⟨0x050, 1, 2⟩
def TimeP.TIME_STAT_VBAK_SEEN : Fld := ⟨0x050, 3, 1⟩
def TimeP.TIME_STAT_COAST_CNT : Fld := ⟨0x050, 16, 16⟩
def TimeP.TIME_CMD_TCAP : Fld := ⟨0x054, 0, 1⟩
def TimeP.TIME_LEASE_RENEW : Fld := ⟨0x058, 0, 4⟩
def TimeP.UTC_OFS_OFS : Fld := ⟨0x05c, 0, 16⟩
def TimeP.LEAP_CTL_LEAP61 : Fld := ⟨0x060, 0, 1⟩
def TimeP.LEAP_CTL_LEAP59 : Fld := ⟨0x060, 1, 1⟩
def TimeP.PAD_CTL_DRIVE : Fld := ⟨0x080, 0, 1⟩
def TimeP.PAD_CTL_POL : Fld := ⟨0x080, 1, 1⟩
def TimeP.PAD_CTL_DELAY : Fld := ⟨0x080, 16, 12⟩
def TimeP.PAD_WIDTH_WIDTH : Fld := ⟨0x084, 0, 32⟩
def TimeP.PAD_STAT_LEVEL : Fld := ⟨0x0c0, 0, 8⟩
def TimeP.OVERLAP_COUNT : Fld := ⟨0x0c4, 0, 32⟩
def TimeP.EDGE_LATE_COUNT : Fld := ⟨0x0c8, 0, 32⟩

/-- Access rows of the page kind TimeP. -/
def TimeP.rows : List Row :=
  [⟨0x040, 0, 1, 0, 64, .rd, 0, .any⟩,
   ⟨0x048, 0, 1, 0, 64, .rd, 0, .any⟩,
   ⟨0x050, 0, 1, 0, 1, .rd, 0, .any⟩,
   ⟨0x050, 0, 1, 1, 2, .rd, 0, .any⟩,
   ⟨0x050, 0, 1, 3, 1, .oc, 0, .any⟩,
   ⟨0x050, 0, 1, 16, 16, .rd, 0, .any⟩,
   ⟨0x054, 0, 1, 0, 1, .pu, 0, .any⟩,
   ⟨0x058, 0, 1, 0, 4, .pu, 0, .any⟩,
   ⟨0x05c, 0, 1, 0, 16, .fr, 0, .any⟩,
   ⟨0x060, 0, 1, 0, 1, .fr, 0, .any⟩,
   ⟨0x060, 0, 1, 1, 1, .fr, 0, .any⟩,
   ⟨0x080, 8, 8, 0, 1, .fr, 1, .any⟩,
   ⟨0x080, 8, 8, 1, 1, .fr, 0, .any⟩,
   ⟨0x080, 8, 8, 16, 12, .fr, 0, .clampS 2047 2047⟩,
   ⟨0x084, 8, 8, 0, 32, .fr, 64000000, .reject 1 4294967295⟩,
   ⟨0x0c0, 0, 1, 0, 8, .rd, 0, .any⟩,
   ⟨0x0c4, 0, 1, 0, 32, .rd, 0, .any⟩,
   ⟨0x0c8, 0, 1, 0, 32, .rd, 0, .any⟩]

/-! ### Fields of the page kind TsR -/

def TsR.INC : Fld := ⟨0x000, 0, 64⟩
def TsR.INC_NOW_INC : Fld := ⟨0x008, 0, 64⟩
def TsR.INC_ANCHOR_INC : Fld := ⟨0x010, 0, 64⟩
def TsR.SLEW_LIM_LIM : Fld := ⟨0x018, 0, 16⟩
def TsR.LEASE_LEN_LEN : Fld := ⟨0x01c, 0, 16⟩
def TsR.ERR_BOUND_BOUND : Fld := ⟨0x020, 0, 32⟩
def TsR.HOLD_RATE_RATE : Fld := ⟨0x024, 0, 32⟩
def TsR.STEP_CTL_STEP_MODE : Fld := ⟨0x028, 0, 2⟩
def TsR.STEP_CTL_STEP_GEN : Fld := ⟨0x028, 16, 16⟩
def TsR.STEP_VAL_VAL : Fld := ⟨0x02c, 0, 96⟩
def TsR.TS_STAT_STATE : Fld := ⟨0x038, 0, 2⟩
def TsR.TS_STAT_STEP_ARMED : Fld := ⟨0x038, 2, 1⟩
def TsR.TS_STAT_LIMITED : Fld := ⟨0x038, 3, 1⟩
def TsR.PUB_BOUND_BOUND : Fld := ⟨0x03c, 0, 32⟩
def TsR.CAP_SEC_SEC : Fld := ⟨0x040, 0, 48⟩
def TsR.CAP_NS_NS : Fld := ⟨0x048, 0, 30⟩
def TsR.CAP_SUBNS_SUBNS : Fld := ⟨0x04c, 0, 16⟩
def TsR.LEASE_LEFT_MS : Fld := ⟨0x050, 0, 32⟩
def TsR.HOLD_TIME_SEC : Fld := ⟨0x054, 0, 32⟩
def TsR.STEPS_COUNT : Fld := ⟨0x058, 0, 32⟩

/-- Access rows of the page kind TsR. -/
def TsR.rows : List Row :=
  [⟨0x000, 0, 1, 0, 64, .sh, 439804651110400, .any⟩,
   ⟨0x008, 0, 1, 0, 64, .rd, 439804651110400, .any⟩,
   ⟨0x010, 0, 1, 0, 64, .rd, 439804651110400, .any⟩,
   ⟨0x018, 0, 1, 0, 16, .sh, 1000, .clamp 1 65535⟩,
   ⟨0x01c, 0, 1, 0, 16, .fr, 2000, .clamp 10 60000⟩,
   ⟨0x020, 0, 1, 0, 32, .fr, 0, .any⟩,
   ⟨0x024, 0, 1, 0, 32, .fr, 0, .any⟩,
   ⟨0x028, 0, 1, 0, 2, .sh, 0, .reject 0 2⟩,
   ⟨0x028, 0, 1, 16, 16, .sh, 0, .any⟩,
   ⟨0x02c, 0, 1, 0, 96, .sh, 0, .any⟩,
   ⟨0x038, 0, 1, 0, 2, .rd, 0, .any⟩,
   ⟨0x038, 0, 1, 2, 1, .rd, 0, .any⟩,
   ⟨0x038, 0, 1, 3, 1, .rd, 0, .any⟩,
   ⟨0x03c, 0, 1, 0, 32, .rd, 4294967295, .any⟩,
   ⟨0x040, 0, 1, 0, 48, .rd, 0, .any⟩,
   ⟨0x048, 0, 1, 0, 30, .rd, 0, .any⟩,
   ⟨0x04c, 0, 1, 0, 16, .rd, 0, .any⟩,
   ⟨0x050, 0, 1, 0, 32, .rd, 0, .any⟩,
   ⟨0x054, 0, 1, 0, 32, .rd, 0, .any⟩,
   ⟨0x058, 0, 1, 0, 32, .rd, 0, .any⟩]

/-! ### Fields of the page kind CalP -/

def CalP.CAL_CMD_ENTRY : Fld := ⟨0x040, 0, 8⟩
def CalP.CAL_CMD_CANCEL : Fld := ⟨0x040, 8, 1⟩
def CalP.CAL_CMD_CLEAR_ALL : Fld := ⟨0x040, 9, 1⟩
def CalP.CAL_STAT_ACTIVE : Fld := ⟨0x044, 0, 9⟩
def CalP.LATE_CNT_COUNT : Fld := ⟨0x048, 0, 32⟩
def CalP.FIRED : Fld := ⟨0x100, 0, 32⟩
def CalP.LATE : Fld := ⟨0x120, 0, 32⟩
def CalP.E_COMMIT_GEN : Fld := ⟨0x400, 0, 16⟩
def CalP.E_TAKEN_GEN : Fld := ⟨0x800, 0, 16⟩

/-- Access rows of the page kind CalP. -/
def CalP.rows : List Row :=
  [⟨0x040, 0, 1, 0, 8, .fr, 0, .any⟩,
   ⟨0x040, 0, 1, 8, 1, .pu, 0, .any⟩,
   ⟨0x040, 0, 1, 9, 1, .pu, 0, .any⟩,
   ⟨0x044, 0, 1, 0, 9, .rd, 0, .any⟩,
   ⟨0x048, 0, 1, 0, 32, .rd, 0, .any⟩,
   ⟨0x100, 4, 8, 0, 32, .oc, 0, .any⟩,
   ⟨0x120, 4, 8, 0, 32, .oc, 0, .any⟩,
   ⟨0x400, 4, 256, 0, 16, .fr, 0, .any⟩,
   ⟨0x800, 4, 256, 0, 16, .rd, 0, .any⟩]

/-! ### Fields of the page kind CalE -/

def CalE.E_CTL_ENABLE : Fld := ⟨0x000, 0, 1⟩
def CalE.E_CTL_ROTA : Fld := ⟨0x000, 1, 1⟩
def CalE.E_CTL_LATE_POL : Fld := ⟨0x000, 2, 2⟩
def CalE.E_CTL_TSEL : Fld := ⟨0x000, 4, 3⟩
def CalE.E_CTL_IRQ : Fld := ⟨0x000, 7, 1⟩
def CalE.E_CTL_ACTION : Fld := ⟨0x000, 8, 4⟩
def CalE.E_CTL_COUNT : Fld := ⟨0x000, 16, 16⟩
def CalE.E_ARG_ARG : Fld := ⟨0x004, 0, 32⟩
def CalE.E_T0_T0 : Fld := ⟨0x008, 0, 32⟩
def CalE.E_T1_T1 : Fld := ⟨0x00c, 0, 32⟩
def CalE.E_T2_NS : Fld := ⟨0x010, 0, 30⟩
def CalE.E_PER_PERIOD : Fld := ⟨0x014, 0, 64⟩
def CalE.E_STAT_REMAIN : Fld := ⟨0x01c, 0, 16⟩
def CalE.E_STAT_SKIPPED : Fld := ⟨0x01c, 16, 8⟩
def CalE.E_STAT_LATE : Fld := ⟨0x01c, 24, 1⟩
def CalE.E_STAT_DROPPED : Fld := ⟨0x01c, 25, 1⟩
def CalE.E_STAT_NOOP : Fld := ⟨0x01c, 26, 1⟩
def CalE.E_STAT_STATE : Fld := ⟨0x01c, 28, 2⟩

/-- Access rows of the page kind CalE. -/
def CalE.rows : List Row :=
  [⟨0x000, 0, 1, 0, 1, .sh, 0, .any⟩,
   ⟨0x000, 0, 1, 1, 1, .sh, 0, .any⟩,
   ⟨0x000, 0, 1, 2, 2, .sh, 0, .any⟩,
   ⟨0x000, 0, 1, 4, 3, .sh, 0, .any⟩,
   ⟨0x000, 0, 1, 7, 1, .sh, 0, .any⟩,
   ⟨0x000, 0, 1, 8, 4, .sh, 0, .any⟩,
   ⟨0x000, 0, 1, 16, 16, .sh, 0, .any⟩,
   ⟨0x004, 0, 1, 0, 32, .sh, 0, .any⟩,
   ⟨0x008, 0, 1, 0, 32, .sh, 0, .any⟩,
   ⟨0x00c, 0, 1, 0, 32, .sh, 0, .any⟩,
   ⟨0x010, 0, 1, 0, 30, .sh, 0, .any⟩,
   ⟨0x014, 0, 1, 0, 64, .sh, 0, .any⟩,
   ⟨0x01c, 0, 1, 0, 16, .rd, 0, .any⟩,
   ⟨0x01c, 0, 1, 16, 8, .rd, 0, .any⟩,
   ⟨0x01c, 0, 1, 24, 1, .oc, 0, .any⟩,
   ⟨0x01c, 0, 1, 25, 1, .oc, 0, .any⟩,
   ⟨0x01c, 0, 1, 26, 1, .oc, 0, .any⟩,
   ⟨0x01c, 0, 1, 28, 2, .rd, 0, .any⟩]

/-! ### Fields of the page kind EvtP -/

def EvtP.EVT_CTL_RING_EN : Fld := ⟨0x040, 0, 1⟩
def EvtP.EVT_CTL_FLUSH : Fld := ⟨0x040, 1, 1⟩
def EvtP.EVT_BASE_BASE : Fld := ⟨0x044, 6, 26⟩
def EvtP.EVT_SLOTS_SLOTS : Fld := ⟨0x048, 0, 16⟩
def EvtP.EVT_WP_WP : Fld := ⟨0x04c, 0, 16⟩
def EvtP.EVT_RP_RP : Fld := ⟨0x050, 0, 16⟩
def EvtP.EVT_WM_WM : Fld := ⟨0x054, 0, 16⟩
def EvtP.RING_DROP_COUNT : Fld := ⟨0x058, 0, 32⟩

/-- Access rows of the page kind EvtP. -/
def EvtP.rows : List Row :=
  [⟨0x040, 0, 1, 0, 1, .fr, 0, .any⟩,
   ⟨0x040, 0, 1, 1, 1, .pu, 0, .any⟩,
   ⟨0x044, 0, 1, 6, 26, .fr, 0, .any⟩,
   ⟨0x048, 0, 1, 0, 16, .fr, 64, .any⟩,
   ⟨0x04c, 0, 1, 0, 16, .rd, 0, .any⟩,
   ⟨0x050, 0, 1, 0, 16, .fr, 0, .any⟩,
   ⟨0x054, 0, 1, 0, 16, .fr, 1, .any⟩,
   ⟨0x058, 0, 1, 0, 32, .rd, 0, .any⟩]

/-! ### Fields of the page kind EvtI -/

def EvtI.EVT_CFG_EN : Fld := ⟨0x000, 0, 1⟩
def EvtI.EVT_CFG_EDGE : Fld := ⟨0x000, 1, 2⟩
def EvtI.EVT_CFG_TSEL : Fld := ⟨0x000, 3, 2⟩
def EvtI.EVT_CFG_GATE : Fld := ⟨0x000, 5, 2⟩
def EvtI.EVT_CFG_FILTER : Fld := ⟨0x000, 8, 8⟩
def EvtI.EVT_CFG_DELAY : Fld := ⟨0x000, 16, 12⟩
def EvtI.EVT_CNT_CAPTURED : Fld := ⟨0x004, 0, 32⟩
def EvtI.LAST_T_T : Fld := ⟨0x008, 0, 64⟩
def EvtI.LAST_FINE_FINE : Fld := ⟨0x010, 0, 6⟩
def EvtI.WIN_STAT_OPEN : Fld := ⟨0x014, 0, 1⟩
def EvtI.LOST_COUNT : Fld := ⟨0x018, 0, 32⟩
def EvtI.OUTSIDE_COUNT : Fld := ⟨0x01c, 0, 32⟩

/-- Access rows of the page kind EvtI. -/
def EvtI.rows : List Row :=
  [⟨0x000, 0, 1, 0, 1, .fr, 0, .any⟩,
   ⟨0x000, 0, 1, 1, 2, .fr, 1, .any⟩,
   ⟨0x000, 0, 1, 3, 2, .fr, 0, .any⟩,
   ⟨0x000, 0, 1, 5, 2, .fr, 0, .reject 0 2⟩,
   ⟨0x000, 0, 1, 8, 8, .fr, 0, .any⟩,
   ⟨0x000, 0, 1, 16, 12, .fr, 0, .clampS 2047 2047⟩,
   ⟨0x004, 0, 1, 0, 32, .rd, 0, .any⟩,
   ⟨0x008, 0, 1, 0, 64, .rd, 0, .any⟩,
   ⟨0x010, 0, 1, 0, 6, .rd, 0, .any⟩,
   ⟨0x014, 0, 1, 0, 1, .rd, 0, .any⟩,
   ⟨0x018, 0, 1, 0, 32, .rd, 0, .any⟩,
   ⟨0x01c, 0, 1, 0, 32, .rd, 0, .any⟩]

/-! ### Fields of the page kind Eth -/

def Eth.ETH_CFG_AN_EN : Fld := ⟨0x040, 0, 1⟩
def Eth.ETH_CFG_SPEED : Fld := ⟨0x040, 1, 2⟩
def Eth.ETH_CFG_FULL : Fld := ⟨0x040, 3, 1⟩
def Eth.ETH_CFG_AUTO_MDIX : Fld := ⟨0x040, 4, 1⟩
def Eth.ETH_STAT_LINK : Fld := ⟨0x044, 0, 1⟩
def Eth.ETH_STAT_SPEED : Fld := ⟨0x044, 1, 2⟩
def Eth.ETH_STAT_FULL : Fld := ⟨0x044, 3, 1⟩
def Eth.ETH_STAT_MS : Fld := ⟨0x044, 4, 1⟩
def Eth.ETH_STAT_DOWNS : Fld := ⟨0x044, 16, 16⟩
def Eth.MAC_ADDR_MAC : Fld := ⟨0x048, 0, 48⟩
def Eth.ING_LAT_PS : Fld := ⟨0x050, 0, 32⟩
def Eth.EGR_LAT_PS : Fld := ⟨0x054, 0, 32⟩
def Eth.RX_FRAMES_COUNT : Fld := ⟨0x070, 0, 32⟩
def Eth.RX_ERR_COUNT : Fld := ⟨0x074, 0, 32⟩
def Eth.TX_FRAMES_COUNT : Fld := ⟨0x078, 0, 32⟩

/-- Access rows of the page kind Eth. -/
def Eth.rows : List Row :=
  [⟨0x040, 0, 1, 0, 1, .fr, 1, .any⟩,
   ⟨0x040, 0, 1, 1, 2, .fr, 0, .reject 0 2⟩,
   ⟨0x040, 0, 1, 3, 1, .fr, 1, .any⟩,
   ⟨0x040, 0, 1, 4, 1, .fr, 1, .any⟩,
   ⟨0x044, 0, 1, 0, 1, .rd, 0, .any⟩,
   ⟨0x044, 0, 1, 1, 2, .rd, 0, .any⟩,
   ⟨0x044, 0, 1, 3, 1, .rd, 0, .any⟩,
   ⟨0x044, 0, 1, 4, 1, .rd, 0, .any⟩,
   ⟨0x044, 0, 1, 16, 16, .rd, 0, .any⟩,
   ⟨0x048, 0, 1, 0, 48, .rd, 0, .any⟩,
   ⟨0x050, 8, 3, 0, 32, .fr, 0, .any⟩,
   ⟨0x054, 8, 3, 0, 32, .fr, 0, .any⟩,
   ⟨0x070, 0, 1, 0, 32, .rd, 0, .any⟩,
   ⟨0x074, 0, 1, 0, 32, .rd, 0, .any⟩,
   ⟨0x078, 0, 1, 0, 32, .rd, 0, .any⟩]

/-! ### Fields of the page kind Sw -/

def Sw.SW_CFG_LEARN : Fld := ⟨0x040, 0, 1⟩
def Sw.SW_CFG_AGE : Fld := ⟨0x040, 16, 16⟩
def Sw.PVID : Fld := ⟨0x044, 0, 12⟩
def Sw.VLAN_VID : Fld := ⟨0x060, 0, 12⟩
def Sw.VLAN_MEMBER : Fld := ⟨0x060, 12, 3⟩
def Sw.VLAN_UNTAG : Fld := ⟨0x060, 16, 3⟩
def Sw.VLAN_VALID : Fld := ⟨0x060, 31, 1⟩
def Sw.HRX_BASE_BASE : Fld := ⟨0x0a0, 6, 26⟩
def Sw.HRX_SLOTS_SLOTS : Fld := ⟨0x0a4, 0, 13⟩
def Sw.HRX_WP_WP : Fld := ⟨0x0a8, 0, 13⟩
def Sw.HRX_RP_RP : Fld := ⟨0x0ac, 0, 13⟩
def Sw.HTX_BASE_BASE : Fld := ⟨0x0b0, 6, 26⟩
def Sw.HTX_SLOTS_SLOTS : Fld := ⟨0x0b4, 0, 13⟩
def Sw.HTX_WP_WP : Fld := ⟨0x0b8, 0, 13⟩
def Sw.HTX_RP_RP : Fld := ⟨0x0bc, 0, 13⟩
def Sw.HOST_CTL_HOST_EN : Fld := ⟨0x0c0, 0, 1⟩
def Sw.HOST_DROP_COUNT : Fld := ⟨0x0c4, 0, 32⟩
def Sw.VLAN_DROP_COUNT : Fld := ⟨0x0c8, 0, 32⟩
def Sw.MAC2_MAC : Fld := ⟨0x0d0, 0, 48⟩
def Sw.MAC3_MAC : Fld := ⟨0x0d8, 0, 48⟩

/-- Access rows of the page kind Sw. -/
def Sw.rows : List Row :=
  [⟨0x040, 0, 1, 0, 1, .sh, 1, .any⟩,
   ⟨0x040, 0, 1, 16, 16, .sh, 300, .clamp 10 65535⟩,
   ⟨0x044, 4, 3, 0, 12, .sh, 1, .any⟩,
   ⟨0x060, 4, 16, 0, 12, .sh, 0, .reject 1 4094⟩,
   ⟨0x060, 4, 16, 12, 3, .sh, 0, .any⟩,
   ⟨0x060, 4, 16, 16, 3, .sh, 0, .any⟩,
   ⟨0x060, 4, 16, 31, 1, .sh, 0, .any⟩,
   ⟨0x0a0, 0, 1, 6, 26, .fr, 0, .any⟩,
   ⟨0x0a4, 0, 1, 0, 13, .fr, 64, .any⟩,
   ⟨0x0a8, 0, 1, 0, 13, .rd, 0, .any⟩,
   ⟨0x0ac, 0, 1, 0, 13, .fr, 0, .any⟩,
   ⟨0x0b0, 0, 1, 6, 26, .fr, 0, .any⟩,
   ⟨0x0b4, 0, 1, 0, 13, .fr, 64, .any⟩,
   ⟨0x0b8, 0, 1, 0, 13, .fr, 0, .any⟩,
   ⟨0x0bc, 0, 1, 0, 13, .rd, 0, .any⟩,
   ⟨0x0c0, 0, 1, 0, 1, .fr, 0, .any⟩,
   ⟨0x0c4, 0, 1, 0, 32, .rd, 0, .any⟩,
   ⟨0x0c8, 0, 1, 0, 32, .rd, 0, .any⟩,
   ⟨0x0d0, 0, 1, 0, 48, .rd, 0, .any⟩,
   ⟨0x0d8, 0, 1, 0, 48, .rd, 0, .any⟩]

/-! ### Fields of the page kind PtpP -/

def PtpP.PTP_CTL_SRV_EN : Fld := ⟨0x040, 0, 1⟩
def PtpP.PTP_CTL_TC_EN : Fld := ⟨0x040, 1, 1⟩
def PtpP.PTP_CTL_TC_P2P : Fld := ⟨0x040, 2, 1⟩
def PtpP.PTP_CTL_HW_RESP : Fld := ⟨0x040, 3, 1⟩
def PtpP.PTP_CTL_TC_TS : Fld := ⟨0x040, 4, 2⟩
def PtpP.CLOCK_ID_ID : Fld := ⟨0x044, 0, 64⟩
def PtpP.SRV_BASE_BASE : Fld := ⟨0x050, 6, 26⟩
def PtpP.SRV_SLOTS_SLOTS : Fld := ⟨0x054, 0, 16⟩
def PtpP.SRV_WP_WP : Fld := ⟨0x058, 0, 16⟩
def PtpP.SRV_RP_RP : Fld := ⟨0x05c, 0, 16⟩
def PtpP.RESP_MAX_RATE : Fld := ⟨0x060, 0, 17⟩
def PtpP.RESP_DROP_COUNT : Fld := ⟨0x064, 0, 32⟩
def PtpP.INS_TOL_PS : Fld := ⟨0x068, 0, 16⟩
def PtpP.INS_DEV_COUNT : Fld := ⟨0x06c, 0, 32⟩
def PtpP.TC_UNMATCHED_COUNT : Fld := ⟨0x070, 0, 32⟩
def PtpP.SRV_DROP_COUNT : Fld := ⟨0x074, 0, 32⟩
def PtpP.SUCC_ID : Fld := ⟨0x200, 0, 64⟩

/-- Access rows of the page kind PtpP. -/
def PtpP.rows : List Row :=
  [⟨0x040, 0, 1, 0, 1, .fr, 0, .any⟩,
   ⟨0x040, 0, 1, 1, 1, .sh, 0, .any⟩,
   ⟨0x040, 0, 1, 2, 1, .sh, 0, .any⟩,
   ⟨0x040, 0, 1, 3, 1, .sh, 1, .any⟩,
   ⟨0x040, 0, 1, 4, 2, .sh, 0, .any⟩,
   ⟨0x044, 0, 1, 0, 64, .on, 0, .any⟩,
   ⟨0x050, 0, 1, 6, 26, .fr, 0, .any⟩,
   ⟨0x054, 0, 1, 0, 16, .fr, 64, .any⟩,
   ⟨0x058, 0, 1, 0, 16, .rd, 0, .any⟩,
   ⟨0x05c, 0, 1, 0, 16, .fr, 0, .any⟩,
   ⟨0x060, 0, 1, 0, 17, .sh, 65536, .clamp 0 65536⟩,
   ⟨0x064, 0, 1, 0, 32, .rd, 0, .any⟩,
   ⟨0x068, 0, 1, 0, 16, .sh, 3000, .any⟩,
   ⟨0x06c, 0, 1, 0, 32, .rd, 0, .any⟩,
   ⟨0x070, 0, 1, 0, 32, .rd, 0, .any⟩,
   ⟨0x074, 0, 1, 0, 32, .rd, 0, .any⟩,
   ⟨0x200, 8, 32, 0, 64, .sh, 0, .any⟩]

/-! ### Fields of the page kind PtpD -/

def PtpD.DOM_CFG_EN : Fld := ⟨0x000, 0, 1⟩
def PtpD.DOM_CFG_TS : Fld := ⟨0x000, 1, 2⟩
def PtpD.DOM_CFG_STATIC : Fld := ⟨0x000, 3, 1⟩
def PtpD.DOM_CFG_UTC_HW : Fld := ⟨0x000, 4, 1⟩
def PtpD.DOM_CFG_TRANSPORT : Fld := ⟨0x000, 5, 2⟩
def PtpD.DOM_CFG_DOMAIN : Fld := ⟨0x000, 8, 8⟩
def PtpD.DOM_CFG_HOLD_CLASS : Fld := ⟨0x000, 16, 8⟩
def PtpD.PORT_CFG_ROLE0 : Fld := ⟨0x004, 0, 2⟩
def PtpD.PORT_CFG_P2P0 : Fld := ⟨0x004, 2, 1⟩
def PtpD.PORT_CFG_ROLE1 : Fld := ⟨0x004, 4, 2⟩
def PtpD.PORT_CFG_P2P1 : Fld := ⟨0x004, 6, 1⟩
def PtpD.PORT_CFG_ANN_TO : Fld := ⟨0x004, 16, 16⟩
def PtpD.ASYM : Fld := ⟨0x008, 0, 32⟩
def PtpD.PM_CFG_POLICY : Fld := ⟨0x00c, 0, 2⟩
def PtpD.PM_CFG_GNSS_TS : Fld := ⟨0x00c, 2, 2⟩
def PtpD.PM_CFG_PM_AVG : Fld := ⟨0x00c, 4, 4⟩
def PtpD.PM_CFG_PM_CNT : Fld := ⟨0x00c, 8, 8⟩
def PtpD.PM_THR_NS : Fld := ⟨0x010, 0, 24⟩
def PtpD.PM_STAT_SEEDED : Fld := ⟨0x014, 0, 1⟩
def PtpD.PM_STAT_SUSPECT : Fld := ⟨0x014, 1, 1⟩
def PtpD.PM_STAT_STEPPED : Fld := ⟨0x014, 2, 1⟩
def PtpD.PM_STAT_FROZEN : Fld := ⟨0x014, 3, 1⟩
def PtpD.PM_STAT_ARB : Fld := ⟨0x014, 4, 1⟩
def PtpD.PM_STAT_GNSS_OK : Fld := ⟨0x014, 5, 1⟩
def PtpD.PM_STAT_SUCC_IDX : Fld := ⟨0x014, 8, 3⟩
def PtpD.PM_STAT_SUCC_NONE : Fld := ⟨0x014, 11, 1⟩
def PtpD.PM_STAT_STEP_CNT : Fld := ⟨0x014, 16, 16⟩
def PtpD.MPD : Fld := ⟨0x018, 0, 32⟩
def PtpD.MPD_NEW_MPD : Fld := ⟨0x01c, 0, 32⟩
def PtpD.COMP : Fld := ⟨0x020, 0, 32⟩
def PtpD.PM_CMD_ACCEPT : Fld := ⟨0x024, 0, 1⟩
def PtpD.PM_CMD_RESEED : Fld := ⟨0x024, 1, 1⟩
def PtpD.QUAL_ACC : Fld := ⟨0x028, 0, 8⟩
def PtpD.QUAL_HOLD : Fld := ⟨0x028, 8, 1⟩
def PtpD.LINK_DELAY_DELAY : Fld := ⟨0x02c, 0, 32⟩

/-- Access rows of the page kind PtpD. -/
def PtpD.rows : List Row :=
  [⟨0x000, 0, 1, 0, 1, .sh, 0, .any⟩,
   ⟨0x000, 0, 1, 1, 2, .sh, 0, .any⟩,
   ⟨0x000, 0, 1, 3, 1, .sh, 0, .any⟩,
   ⟨0x000, 0, 1, 4, 1, .sh, 0, .any⟩,
   ⟨0x000, 0, 1, 5, 2, .sh, 0, .reject 0 2⟩,
   ⟨0x000, 0, 1, 8, 8, .sh, 0, .any⟩,
   ⟨0x000, 0, 1, 16, 8, .sh, 7, .any⟩,
   ⟨0x004, 0, 1, 0, 2, .sh, 0, .any⟩,
   ⟨0x004, 0, 1, 2, 1, .sh, 0, .any⟩,
   ⟨0x004, 0, 1, 4, 2, .sh, 0, .any⟩,
   ⟨0x004, 0, 1, 6, 1, .sh, 0, .any⟩,
   ⟨0x004, 0, 1, 16, 16, .sh, 3000, .clamp 10 65535⟩,
   ⟨0x008, 0, 1, 0, 32, .sh, 0, .clampS 25600000 25600000⟩,
   ⟨0x00c, 0, 1, 0, 2, .sh, 1, .reject 0 2⟩,
   ⟨0x00c, 0, 1, 2, 2, .sh, 0, .any⟩,
   ⟨0x00c, 0, 1, 4, 4, .sh, 4, .clamp 0 10⟩,
   ⟨0x00c, 0, 1, 8, 8, .sh, 4, .clamp 1 255⟩,
   ⟨0x010, 0, 1, 0, 24, .sh, 100, .clamp 1 16777215⟩,
   ⟨0x014, 0, 1, 0, 1, .rd, 0, .any⟩,
   ⟨0x014, 0, 1, 1, 1, .rd, 0, .any⟩,
   ⟨0x014, 0, 1, 2, 1, .rd, 0, .any⟩,
   ⟨0x014, 0, 1, 3, 1, .rd, 0, .any⟩,
   ⟨0x014, 0, 1, 4, 1, .rd, 0, .any⟩,
   ⟨0x014, 0, 1, 5, 1, .rd, 0, .any⟩,
   ⟨0x014, 0, 1, 8, 3, .rd, 0, .any⟩,
   ⟨0x014, 0, 1, 11, 1, .rd, 0, .any⟩,
   ⟨0x014, 0, 1, 16, 16, .rd, 0, .any⟩,
   ⟨0x018, 0, 1, 0, 32, .rd, 0, .any⟩,
   ⟨0x01c, 0, 1, 0, 32, .rd, 0, .any⟩,
   ⟨0x020, 0, 1, 0, 32, .rd, 0, .any⟩,
   ⟨0x024, 0, 1, 0, 1, .pu, 0, .any⟩,
   ⟨0x024, 0, 1, 1, 1, .pu, 0, .any⟩,
   ⟨0x028, 0, 1, 0, 8, .rd, 254, .any⟩,
   ⟨0x028, 0, 1, 8, 1, .rd, 0, .any⟩,
   ⟨0x02c, 4, 2, 0, 32, .rd, 0, .any⟩]

/-! ### Fields of the page kind RadP -/

def RadP.RAD_CFG_RATE : Fld := ⟨0x040, 0, 3⟩
def RadP.RAD_CFG_GFSK : Fld := ⟨0x040, 3, 1⟩
def RadP.RAD_CFG_MOD_IDX : Fld := ⟨0x040, 4, 1⟩
def RadP.RAD_CFG_SFD_SEL : Fld := ⟨0x040, 5, 1⟩
def RadP.RAD_CFG_PREAMBLE : Fld := ⟨0x040, 8, 8⟩
def RadP.RAD_CFG_DIV_EN : Fld := ⟨0x040, 16, 1⟩
def RadP.RAD_CFG_DIV_TX : Fld := ⟨0x040, 17, 2⟩
def RadP.RAD_CFG_DIV_SYMS : Fld := ⟨0x040, 20, 4⟩
def RadP.RAD_CFG_RET : Fld := ⟨0x040, 24, 2⟩
def RadP.RX_CFG_RX_HOP : Fld := ⟨0x044, 0, 6⟩
def RadP.RX_CFG_KEEP_BAD : Fld := ⟨0x044, 8, 1⟩
def RadP.RX_CFG_RX_GATE : Fld := ⟨0x044, 9, 2⟩
def RadP.TX_DEFER_IMM : Fld := ⟨0x048, 0, 16⟩
def RadP.TX_DEFER_SCHED : Fld := ⟨0x048, 16, 16⟩
def RadP.TX_POL_PREEMPT : Fld := ⟨0x04c, 0, 1⟩
def RadP.TX_POL_HOLD_POL : Fld := ⟨0x04c, 1, 1⟩
def RadP.TX_POL_HOLD_TS : Fld := ⟨0x04c, 2, 2⟩
def RadP.CAL_CFG_CAL_DELTA : Fld := ⟨0x050, 0, 6⟩
def RadP.CAL_CFG_AUTO_CAL : Fld := ⟨0x050, 8, 1⟩
def RadP.CAL_CMD_DC : Fld := ⟨0x054, 0, 1⟩
def RadP.CAL_CMD_FILTER : Fld := ⟨0x054, 1, 1⟩
def RadP.CAL_CMD_IMAGE : Fld := ⟨0x054, 2, 1⟩
def RadP.CAL_CMD_OSC : Fld := ⟨0x054, 3, 1⟩
def RadP.CAL_CMD_ALL : Fld := ⟨0x054, 4, 1⟩
def RadP.CAL_STAT_RUNNING : Fld := ⟨0x058, 0, 1⟩
def RadP.CAL_STAT_STEP : Fld := ⟨0x058, 1, 3⟩
def RadP.CAL_STAT_FAIL : Fld := ⟨0x058, 4, 1⟩
def RadP.CAL_STAT_CAL_DUE : Fld := ⟨0x058, 5, 1⟩
def RadP.CAL_STAT_PENDING : Fld := ⟨0x058, 6, 1⟩
def RadP.CAL_STAT_T_OSC : Fld := ⟨0x058, 16, 8⟩
def RadP.CMD_SLEEP : Fld := ⟨0x060, 0, 1⟩
def RadP.CMD_IDLE : Fld := ⟨0x060, 1, 1⟩
def RadP.CMD_RX : Fld := ⟨0x060, 2, 1⟩
def RadP.CMD_TX : Fld := ⟨0x060, 3, 1⟩
def RadP.CMD_OFF : Fld := ⟨0x060, 4, 1⟩
def RadP.CMD_ABORT : Fld := ⟨0x060, 5, 1⟩
def RadP.CMD_DESC : Fld := ⟨0x060, 8, 4⟩
def RadP.RAD_STATE_STATE : Fld := ⟨0x064, 0, 3⟩
def RadP.RAD_STATE_FRAME : Fld := ⟨0x064, 3, 1⟩
def RadP.RAD_STATE_TX_PEND : Fld := ⟨0x064, 4, 1⟩
def RadP.RAD_STATE_AER : Fld := ⟨0x064, 5, 1⟩
def RadP.RAD_STATE_WIN_LATE : Fld := ⟨0x064, 6, 1⟩
def RadP.RAD_STATE_CLASS : Fld := ⟨0x064, 7, 1⟩
def RadP.RAD_STATE_HOP : Fld := ⟨0x064, 8, 6⟩
def RadP.TX_STAT_STATUS : Fld := ⟨0x068, 0, 8⟩
def RadP.TX_STAT_DESC : Fld := ⟨0x068, 8, 4⟩
def RadP.TX_STAT_SCHED : Fld := ⟨0x068, 12, 1⟩
def RadP.TX_STAT_COUNT : Fld := ⟨0x068, 16, 16⟩
def RadP.TX_T_T : Fld := ⟨0x070, 0, 64⟩
def RadP.RSSI : Fld := ⟨0x078, 0, 16⟩
def RadP.PA_DET_MV_MV : Fld := ⟨0x07c, 0, 12⟩
def RadP.RXR_BASE_BASE : Fld := ⟨0x080, 6, 26⟩
def RadP.RXR_SLOTS_SLOTS : Fld := ⟨0x084, 0, 12⟩
def RadP.RXR_WP_WP : Fld := ⟨0x088, 0, 12⟩
def RadP.RXR_RP_RP : Fld := ⟨0x08c, 0, 12⟩
def RadP.RXR_WM_WM : Fld := ⟨0x090, 0, 12⟩
def RadP.RX_CTL_RING_EN : Fld := ⟨0x094, 0, 1⟩
def RadP.counters_COUNT : Fld := ⟨0x098, 0, 32⟩
def RadP.RX_LAT_NS : Fld := ⟨0x0c0, 0, 32⟩
def RadP.TX_LAT_NS : Fld := ⟨0x0e0, 0, 32⟩

/-- Access rows of the page kind RadP. -/
def RadP.rows : List Row :=
  [⟨0x040, 0, 1, 0, 3, .sh, 1, .reject 0 4⟩,
   ⟨0x040, 0, 1, 3, 1, .sh, 1, .any⟩,
   ⟨0x040, 0, 1, 4, 1, .sh, 0, .any⟩,
   ⟨0x040, 0, 1, 5, 1, .sh, 0, .any⟩,
   ⟨0x040, 0, 1, 8, 8, .sh, 8, .clamp 4 255⟩,
   ⟨0x040, 0, 1, 16, 1, .sh, 1, .any⟩,
   ⟨0x040, 0, 1, 17, 2, .sh, 0, .reject 0 2⟩,
   ⟨0x040, 0, 1, 20, 4, .sh, 8, .clamp 4 15⟩,
   ⟨0x040, 0, 1, 24, 2, .sh, 0, .reject 0 2⟩,
   ⟨0x044, 0, 1, 0, 6, .sh, 0, .any⟩,
   ⟨0x044, 0, 1, 8, 1, .sh, 0, .any⟩,
   ⟨0x044, 0, 1, 9, 2, .sh, 0, .reject 0 2⟩,
   ⟨0x048, 0, 1, 0, 16, .sh, 2000, .any⟩,
   ⟨0x048, 0, 1, 16, 16, .sh, 0, .any⟩,
   ⟨0x04c, 0, 1, 0, 1, .sh, 1, .any⟩,
   ⟨0x04c, 0, 1, 1, 1, .sh, 0, .any⟩,
   ⟨0x04c, 0, 1, 2, 2, .sh, 0, .any⟩,
   ⟨0x050, 0, 1, 0, 6, .sh, 10, .clamp 1 40⟩,
   ⟨0x050, 0, 1, 8, 1, .sh, 1, .any⟩,
   ⟨0x054, 0, 1, 0, 1, .pu, 0, .any⟩,
   ⟨0x054, 0, 1, 1, 1, .pu, 0, .any⟩,
   ⟨0x054, 0, 1, 2, 1, .pu, 0, .any⟩,
   ⟨0x054, 0, 1, 3, 1, .pu, 0, .any⟩,
   ⟨0x054, 0, 1, 4, 1, .pu, 0, .any⟩,
   ⟨0x058, 0, 1, 0, 1, .rd, 0, .any⟩,
   ⟨0x058, 0, 1, 1, 3, .rd, 0, .any⟩,
   ⟨0x058, 0, 1, 4, 1, .oc, 0, .any⟩,
   ⟨0x058, 0, 1, 5, 1, .rd, 0, .any⟩,
   ⟨0x058, 0, 1, 6, 1, .rd, 0, .any⟩,
   ⟨0x058, 0, 1, 16, 8, .rd, 0, .any⟩,
   ⟨0x060, 0, 1, 0, 1, .pu, 0, .any⟩,
   ⟨0x060, 0, 1, 1, 1, .pu, 0, .any⟩,
   ⟨0x060, 0, 1, 2, 1, .pu, 0, .any⟩,
   ⟨0x060, 0, 1, 3, 1, .pu, 0, .any⟩,
   ⟨0x060, 0, 1, 4, 1, .pu, 0, .any⟩,
   ⟨0x060, 0, 1, 5, 1, .pu, 0, .any⟩,
   ⟨0x060, 0, 1, 8, 4, .fr, 0, .any⟩,
   ⟨0x064, 0, 1, 0, 3, .rd, 0, .any⟩,
   ⟨0x064, 0, 1, 3, 1, .rd, 0, .any⟩,
   ⟨0x064, 0, 1, 4, 1, .rd, 0, .any⟩] ++
  [⟨0x064, 0, 1, 5, 1, .rd, 0, .any⟩,
   ⟨0x064, 0, 1, 6, 1, .oc, 0, .any⟩,
   ⟨0x064, 0, 1, 7, 1, .rd, 0, .any⟩,
   ⟨0x064, 0, 1, 8, 6, .rd, 0, .any⟩,
   ⟨0x068, 0, 1, 0, 8, .rd, 0, .any⟩,
   ⟨0x068, 0, 1, 8, 4, .rd, 0, .any⟩,
   ⟨0x068, 0, 1, 12, 1, .rd, 0, .any⟩,
   ⟨0x068, 0, 1, 16, 16, .rd, 0, .any⟩,
   ⟨0x070, 0, 1, 0, 64, .rd, 0, .any⟩,
   ⟨0x078, 0, 1, 0, 16, .rd, 0, .any⟩,
   ⟨0x07c, 0, 1, 0, 12, .rd, 0, .any⟩,
   ⟨0x080, 0, 1, 6, 26, .fr, 0, .any⟩,
   ⟨0x084, 0, 1, 0, 12, .fr, 16, .any⟩,
   ⟨0x088, 0, 1, 0, 12, .rd, 0, .any⟩,
   ⟨0x08c, 0, 1, 0, 12, .fr, 0, .any⟩,
   ⟨0x090, 0, 1, 0, 12, .fr, 1, .any⟩,
   ⟨0x094, 0, 1, 0, 1, .fr, 0, .any⟩,
   ⟨0x098, 4, 7, 0, 32, .rd, 0, .any⟩,
   ⟨0x0c0, 4, 5, 0, 32, .rd, 0, .any⟩,
   ⟨0x0e0, 4, 5, 0, 32, .rd, 0, .any⟩]

/-! ### Fields of the page kind RadT -/

def RadT.HOP_FREQ : Fld := ⟨0x000, 0, 20⟩
def RadT.HOP_B_VCO_BAND : Fld := ⟨0x004, 0, 6⟩
def RadT.HOP_B_BAND_VALID : Fld := ⟨0x004, 8, 1⟩
def RadT.HOP_B_T_BAND : Fld := ⟨0x004, 16, 8⟩
def RadT.PWR_DRIVE : Fld := ⟨0x200, 0, 12⟩
def RadT.PWR_NOM : Fld := ⟨0x200, 16, 8⟩
def RadT.TXD0_ADDR : Fld := ⟨0x300, 0, 32⟩
def RadT.TXD1_LEN : Fld := ⟨0x304, 0, 11⟩
def RadT.TXD1_HOP : Fld := ⟨0x304, 16, 6⟩
def RadT.TXD1_POWER : Fld := ⟨0x304, 24, 5⟩
def RadT.TXD2_FCS2 : Fld := ⟨0x308, 0, 1⟩
def RadT.TXD2_WHITEN : Fld := ⟨0x308, 1, 1⟩
def RadT.TXD2_AER : Fld := ⟨0x308, 2, 2⟩
def RadT.TXD2_RET : Fld := ⟨0x308, 4, 2⟩
def RadT.RSD0_HOP : Fld := ⟨0x400, 0, 6⟩
def RadT.RSD0_END : Fld := ⟨0x400, 8, 2⟩
def RadT.RSD1_W_OPEN : Fld := ⟨0x404, 0, 32⟩
def RadT.RSD2_W_LEN : Fld := ⟨0x408, 0, 32⟩

/-- Access rows of the page kind RadT. -/
def RadT.rows : List Row :=
  [⟨0x000, 8, 64, 0, 20, .fr, 0, .any⟩,
   ⟨0x004, 8, 64, 0, 6, .fr, 0, .any⟩,
   ⟨0x004, 8, 64, 8, 1, .fr, 0, .any⟩,
   ⟨0x004, 8, 64, 16, 8, .rd, 0, .any⟩,
   ⟨0x200, 4, 32, 0, 12, .fr, 0, .any⟩,
   ⟨0x200, 4, 32, 16, 8, .rd, 0, .any⟩,
   ⟨0x300, 16, 16, 0, 32, .fr, 0, .any⟩,
   ⟨0x304, 16, 16, 0, 11, .fr, 0, .any⟩,
   ⟨0x304, 16, 16, 16, 6, .fr, 0, .any⟩,
   ⟨0x304, 16, 16, 24, 5, .fr, 0, .any⟩,
   ⟨0x308, 16, 16, 0, 1, .fr, 0, .any⟩,
   ⟨0x308, 16, 16, 1, 1, .fr, 1, .any⟩,
   ⟨0x308, 16, 16, 2, 2, .fr, 0, .reject 0 2⟩,
   ⟨0x308, 16, 16, 4, 2, .fr, 0, .any⟩,
   ⟨0x400, 16, 16, 0, 6, .fr, 0, .any⟩,
   ⟨0x400, 16, 16, 8, 2, .fr, 0, .reject 0 2⟩,
   ⟨0x404, 16, 16, 0, 32, .fr, 0, .any⟩,
   ⟨0x408, 16, 16, 0, 32, .fr, 1000, .reject 1 4294967295⟩]

/-! ### Fields of the page kind CoreP -/

def CoreP.CORE_CTL_START : Fld := ⟨0x040, 0, 1⟩
def CoreP.CORE_CTL_HALT : Fld := ⟨0x040, 1, 1⟩
def CoreP.CORE_CTL_RESUME : Fld := ⟨0x040, 2, 1⟩
def CoreP.CORE_CTL_STEP : Fld := ⟨0x040, 3, 1⟩
def CoreP.CORE_CTL_HALT_ON_BP : Fld := ⟨0x040, 4, 1⟩
def CoreP.CORE_STAT_STATE : Fld := ⟨0x044, 0, 3⟩
def CoreP.CORE_STAT_HALT_CAUSE : Fld := ⟨0x044, 4, 4⟩
def CoreP.CORE_STAT_ON_SAFE : Fld := ⟨0x044, 8, 1⟩
def CoreP.START_PC_PC : Fld := ⟨0x048, 1, 31⟩
def CoreP.PC_SAMPLE_PC : Fld := ⟨0x04c, 0, 32⟩
def CoreP.DBG_SEL_INDEX : Fld := ⟨0x050, 0, 8⟩
def CoreP.DBG_DATA_DATA : Fld := ⟨0x054, 0, 64⟩
def CoreP.DBG_DATA_X_DATA : Fld := ⟨0x05c, 0, 16⟩
def CoreP.BP_ADDR : Fld := ⟨0x060, 1, 31⟩
def CoreP.BP_EN : Fld := ⟨0x060, 0, 1⟩
def CoreP.WP_ADDR_ADDR : Fld := ⟨0x080, 0, 32⟩
def CoreP.WP_CTL_EN : Fld := ⟨0x084, 0, 1⟩
def CoreP.WP_CTL_RW : Fld := ⟨0x084, 1, 2⟩
def CoreP.WP_CTL_SIZE : Fld := ⟨0x084, 4, 5⟩
def CoreP.CYCLES_COUNT : Fld := ⟨0x0a0, 0, 64⟩
def CoreP.RETIRED_COUNT : Fld := ⟨0x0a8, 0, 64⟩
def CoreP.IC_MISS_COUNT : Fld := ⟨0x0b0, 0, 32⟩
def CoreP.DC_MISS_COUNT : Fld := ⟨0x0b4, 0, 32⟩
def CoreP.WB_STALL_COUNT : Fld := ⟨0x0b8, 0, 32⟩
def CoreP.PERF_CLR_CLR : Fld := ⟨0x0bc, 0, 1⟩
def CoreP.CPUFEATn_FEAT : Fld := ⟨0x0c0, 0, 32⟩
def CoreP.CORE_FAULT_CAUSE : Fld := ⟨0x0d0, 0, 8⟩
def CoreP.DBL_ADDR_ADDR : Fld := ⟨0x0d4, 0, 32⟩
def CoreP.DBL_PC_PC : Fld := ⟨0x0d8, 0, 32⟩

/-- Access rows of the page kind CoreP. -/
def CoreP.rows : List Row :=
  [⟨0x040, 0, 1, 0, 1, .pu, 0, .any⟩,
   ⟨0x040, 0, 1, 1, 1, .pu, 0, .any⟩,
   ⟨0x040, 0, 1, 2, 1, .pu, 0, .any⟩,
   ⟨0x040, 0, 1, 3, 1, .pu, 0, .any⟩,
   ⟨0x040, 0, 1, 4, 1, .fr, 0, .any⟩,
   ⟨0x044, 0, 1, 0, 3, .rd, 0, .any⟩,
   ⟨0x044, 0, 1, 4, 4, .rd, 0, .any⟩,
   ⟨0x044, 0, 1, 8, 1, .rd, 0, .any⟩,
   ⟨0x048, 0, 1, 1, 31, .fr, 33554432, .any⟩,
   ⟨0x04c, 0, 1, 0, 32, .rd, 0, .any⟩,
   ⟨0x050, 0, 1, 0, 8, .fr, 0, .any⟩,
   ⟨0x054, 0, 1, 0, 64, .fr, 0, .any⟩,
   ⟨0x05c, 0, 1, 0, 16, .fr, 0, .any⟩,
   ⟨0x060, 8, 4, 1, 31, .fr, 0, .any⟩,
   ⟨0x060, 8, 4, 0, 1, .fr, 0, .any⟩,
   ⟨0x080, 8, 2, 0, 32, .fr, 0, .any⟩,
   ⟨0x084, 8, 2, 0, 1, .fr, 0, .any⟩,
   ⟨0x084, 8, 2, 1, 2, .fr, 0, .any⟩,
   ⟨0x084, 8, 2, 4, 5, .fr, 0, .clamp 0 16⟩,
   ⟨0x0a0, 0, 1, 0, 64, .rd, 0, .any⟩,
   ⟨0x0a8, 0, 1, 0, 64, .rd, 0, .any⟩,
   ⟨0x0b0, 0, 1, 0, 32, .rd, 0, .any⟩,
   ⟨0x0b4, 0, 1, 0, 32, .rd, 0, .any⟩,
   ⟨0x0b8, 0, 1, 0, 32, .rd, 0, .any⟩,
   ⟨0x0bc, 0, 1, 0, 1, .pu, 0, .any⟩,
   ⟨0x0c0, 4, 4, 0, 32, .rd, 0, .any⟩,
   ⟨0x0d0, 0, 1, 0, 8, .rd, 0, .any⟩,
   ⟨0x0d4, 0, 1, 0, 32, .rd, 0, .any⟩,
   ⟨0x0d8, 0, 1, 0, 32, .rd, 0, .any⟩]

/-! ### Fields of the page kind DmaP -/

def DmaP.DMA_CTL_ABORT_ALL : Fld := ⟨0x040, 0, 1⟩
def DmaP.DMA_STAT_BUSY : Fld := ⟨0x044, 0, 7⟩
def DmaP.RUN_SUM_BUSY : Fld := ⟨0x048, 0, 32⟩
def DmaP.IRQ_SUM_PEND : Fld := ⟨0x050, 0, 32⟩
def DmaP.REQ_STAT_LEVEL : Fld := ⟨0x058, 0, 32⟩
def DmaP.BYTES_COUNT : Fld := ⟨0x05c, 0, 32⟩

/-- Access rows of the page kind DmaP. -/
def DmaP.rows : List Row :=
  [⟨0x040, 0, 1, 0, 1, .pu, 0, .any⟩,
   ⟨0x044, 0, 1, 0, 7, .rd, 0, .any⟩,
   ⟨0x048, 4, 2, 0, 32, .rd, 0, .any⟩,
   ⟨0x050, 4, 2, 0, 32, .rd, 0, .any⟩,
   ⟨0x058, 0, 1, 0, 32, .rd, 0, .any⟩,
   ⟨0x05c, 0, 1, 0, 32, .rd, 0, .any⟩]

/-! ### Fields of the page kind DmaC -/

def DmaC.SRC : Fld := ⟨0x000, 0, 32⟩
def DmaC.DST : Fld := ⟨0x004, 0, 32⟩
def DmaC.LEN : Fld := ⟨0x008, 0, 32⟩
def DmaC.ROWS : Fld := ⟨0x00c, 0, 32⟩
def DmaC.SPITCH : Fld := ⟨0x010, 0, 32⟩
def DmaC.DPITCH : Fld := ⟨0x014, 0, 32⟩
def DmaC.PATTERN : Fld := ⟨0x018, 0, 64⟩
def DmaC.CTL : Fld := ⟨0x020, 0, 32⟩
def DmaC.TRIG : Fld := ⟨0x024, 0, 32⟩
def DmaC.WB : Fld := ⟨0x028, 0, 32⟩
def DmaC.FEED : Fld := ⟨0x02c, 0, 32⟩
def DmaC.TAG : Fld := ⟨0x030, 0, 32⟩
def DmaC.CH_CMD_START : Fld := ⟨0x040, 0, 1⟩
def DmaC.CH_CMD_ABORT : Fld := ⟨0x040, 1, 1⟩
def DmaC.CH_STAT_STATE : Fld := ⟨0x044, 0, 3⟩
def DmaC.CH_STAT_COMMIT_PEND : Fld := ⟨0x044, 3, 1⟩
def DmaC.CH_STAT_STATUS : Fld := ⟨0x044, 8, 8⟩
def DmaC.CH_STAT_SETS : Fld := ⟨0x044, 16, 16⟩
def DmaC.COMMIT_GEN : Fld := ⟨0x048, 0, 16⟩
def DmaC.COMMIT_TAKEN_GEN : Fld := ⟨0x04c, 0, 16⟩
def DmaC.RESIDUE_BYTES : Fld := ⟨0x050, 0, 25⟩
def DmaC.FAULT_ADDR_ADDR : Fld := ⟨0x054, 0, 32⟩
def DmaC.MISMATCH_OFS_OFS : Fld := ⟨0x058, 0, 32⟩
def DmaC.MISMATCH_CNT_COUNT : Fld := ⟨0x05c, 0, 32⟩
def DmaC.CUR_SRC_ADDR : Fld := ⟨0x060, 0, 32⟩
def DmaC.CUR_DST_ADDR : Fld := ⟨0x064, 0, 32⟩
def DmaC.CUR_ROW_ROW : Fld := ⟨0x068, 0, 17⟩
def DmaC.MISSED_COUNT : Fld := ⟨0x06c, 0, 32⟩
def DmaC.CH_IRQ_RAW_EVT : Fld := ⟨0x070, 0, 5⟩
def DmaC.CH_IRQ_EN_EN : Fld := ⟨0x074, 0, 5⟩
def DmaC.CH_IRQ_CLR_CLR : Fld := ⟨0x078, 0, 5⟩

/-- Access rows of the page kind DmaC. -/
def DmaC.rows : List Row :=
  [⟨0x000, 0, 1, 0, 32, .sh, 0, .any⟩,
   ⟨0x004, 0, 1, 0, 32, .sh, 0, .any⟩,
   ⟨0x008, 0, 1, 0, 32, .sh, 0, .any⟩,
   ⟨0x00c, 0, 1, 0, 32, .sh, 0, .any⟩,
   ⟨0x010, 0, 1, 0, 32, .sh, 0, .any⟩,
   ⟨0x014, 0, 1, 0, 32, .sh, 0, .any⟩,
   ⟨0x018, 0, 1, 0, 64, .sh, 0, .any⟩,
   ⟨0x020, 0, 1, 0, 32, .sh, 0, .any⟩,
   ⟨0x024, 0, 1, 0, 32, .sh, 0, .any⟩,
   ⟨0x028, 0, 1, 0, 32, .sh, 0, .any⟩,
   ⟨0x02c, 0, 1, 0, 32, .sh, 0, .any⟩,
   ⟨0x030, 0, 1, 0, 32, .sh, 0, .any⟩,
   ⟨0x040, 0, 1, 0, 1, .pu, 0, .any⟩,
   ⟨0x040, 0, 1, 1, 1, .pu, 0, .any⟩,
   ⟨0x044, 0, 1, 0, 3, .rd, 0, .any⟩,
   ⟨0x044, 0, 1, 3, 1, .rd, 0, .any⟩,
   ⟨0x044, 0, 1, 8, 8, .rd, 0, .any⟩,
   ⟨0x044, 0, 1, 16, 16, .rd, 0, .any⟩,
   ⟨0x048, 0, 1, 0, 16, .fr, 0, .any⟩,
   ⟨0x04c, 0, 1, 0, 16, .rd, 0, .any⟩,
   ⟨0x050, 0, 1, 0, 25, .rd, 0, .any⟩,
   ⟨0x054, 0, 1, 0, 32, .rd, 0, .any⟩,
   ⟨0x058, 0, 1, 0, 32, .rd, 0, .any⟩,
   ⟨0x05c, 0, 1, 0, 32, .rd, 0, .any⟩,
   ⟨0x060, 0, 1, 0, 32, .rd, 0, .any⟩,
   ⟨0x064, 0, 1, 0, 32, .rd, 0, .any⟩,
   ⟨0x068, 0, 1, 0, 17, .rd, 0, .any⟩,
   ⟨0x06c, 0, 1, 0, 32, .rd, 0, .any⟩,
   ⟨0x070, 0, 1, 0, 5, .rd, 0, .any⟩,
   ⟨0x074, 0, 1, 0, 5, .fr, 0, .any⟩,
   ⟨0x078, 0, 1, 0, 5, .pu, 0, .any⟩]

/-! ### Fields of the page kind Mem -/

def Mem.SCRUB_CTL_SCRUB_EN : Fld := ⟨0x040, 0, 1⟩
def Mem.SCRUB_CTL_SCRUB_DIV : Fld := ⟨0x040, 16, 16⟩
def Mem.SCRUB_POS_WORD : Fld := ⟨0x044, 3, 22⟩
def Mem.PASSES_COUNT : Fld := ⟨0x048, 0, 32⟩
def Mem.CE_CNT_COUNT : Fld := ⟨0x04c, 0, 32⟩
def Mem.CE_ADDR_ADDR : Fld := ⟨0x050, 0, 32⟩
def Mem.UE_CNT_COUNT : Fld := ⟨0x054, 0, 32⟩
def Mem.UE_ADDR_ADDR : Fld := ⟨0x058, 0, 32⟩

/-- Access rows of the page kind Mem. -/
def Mem.rows : List Row :=
  [⟨0x040, 0, 1, 0, 1, .fr, 1, .any⟩,
   ⟨0x040, 0, 1, 16, 16, .fr, 256, .clamp 16 65535⟩,
   ⟨0x044, 0, 1, 3, 22, .rd, 0, .any⟩,
   ⟨0x048, 0, 1, 0, 32, .rd, 0, .any⟩,
   ⟨0x04c, 0, 1, 0, 32, .oc, 0, .any⟩,
   ⟨0x050, 0, 1, 0, 32, .rd, 0, .any⟩,
   ⟨0x054, 0, 1, 0, 32, .oc, 0, .any⟩,
   ⟨0x058, 0, 1, 0, 32, .rd, 0, .any⟩]

/-! ### Fields of the page kind Flash -/

def Flash.FL_ADDR_OFS : Fld := ⟨0x040, 0, 26⟩
def Flash.FL_SRC_ADDR : Fld := ⟨0x044, 0, 32⟩
def Flash.FL_LEN_BYTES : Fld := ⟨0x048, 0, 17⟩
def Flash.FL_CMD_PROGRAM : Fld := ⟨0x04c, 0, 1⟩
def Flash.FL_CMD_ERASE_SEC : Fld := ⟨0x04c, 1, 1⟩
def Flash.FL_CMD_ERASE_BLK : Fld := ⟨0x04c, 2, 1⟩
def Flash.FL_STAT_BUSY : Fld := ⟨0x050, 0, 1⟩
def Flash.FL_STAT_STATUS : Fld := ⟨0x050, 8, 8⟩
def Flash.FL_STAT_COUNT : Fld := ⟨0x050, 16, 16⟩
def Flash.FAIL_ADDR_OFS : Fld := ⟨0x054, 0, 26⟩
def Flash.WP_PROT : Fld := ⟨0x058, 0, 15⟩

/-- Access rows of the page kind Flash. -/
def Flash.rows : List Row :=
  [⟨0x040, 0, 1, 0, 26, .fr, 0, .any⟩,
   ⟨0x044, 0, 1, 0, 32, .fr, 0, .any⟩,
   ⟨0x048, 0, 1, 0, 17, .fr, 256, .any⟩,
   ⟨0x04c, 0, 1, 0, 1, .pu, 0, .any⟩,
   ⟨0x04c, 0, 1, 1, 1, .pu, 0, .any⟩,
   ⟨0x04c, 0, 1, 2, 1, .pu, 0, .any⟩,
   ⟨0x050, 0, 1, 0, 1, .rd, 0, .any⟩,
   ⟨0x050, 0, 1, 8, 8, .rd, 0, .any⟩,
   ⟨0x050, 0, 1, 16, 16, .rd, 0, .any⟩,
   ⟨0x054, 0, 1, 0, 26, .rd, 0, .any⟩,
   ⟨0x058, 0, 1, 0, 15, .on, 0, .any⟩]

/-! ### Fields of the page kind Annal -/

def Annal.ANN_CTL_HARVEST : Fld := ⟨0x040, 0, 1⟩
def Annal.ANN_CTL_HARV_THR : Fld := ⟨0x040, 8, 7⟩
def Annal.ANN_STAT_READY : Fld := ⟨0x044, 0, 1⟩
def Annal.ANN_STAT_HALF : Fld := ⟨0x044, 1, 1⟩
def Annal.ANN_STAT_HARVESTING : Fld := ⟨0x044, 2, 1⟩
def Annal.ANN_STAT_CROWDED : Fld := ⟨0x044, 3, 1⟩
def Annal.ANN_STAT_TORN_HDR : Fld := ⟨0x044, 4, 1⟩
def Annal.ANN_STAT_GASP_ARMED : Fld := ⟨0x044, 5, 1⟩
def Annal.ANN_STAT_FILL : Fld := ⟨0x044, 8, 8⟩
def Annal.ANN_STAT_QDEPTH : Fld := ⟨0x044, 16, 5⟩
def Annal.ANN_GEN_GEN : Fld := ⟨0x048, 0, 32⟩
def Annal.NEXT_SEQ_SEQ : Fld := ⟨0x04c, 0, 32⟩
def Annal.WRITE_PTR_OFS : Fld := ⟨0x050, 0, 21⟩
def Annal.APP_SRC_ADDR : Fld := ⟨0x054, 0, 32⟩
def Annal.APP_HDR_TYPE : Fld := ⟨0x058, 0, 8⟩
def Annal.APP_HDR_KEY : Fld := ⟨0x058, 8, 8⟩
def Annal.APP_HDR_LEN : Fld := ⟨0x058, 16, 13⟩
def Annal.APP_TAG_TAG : Fld := ⟨0x05c, 0, 16⟩
def Annal.APP_GO_GO : Fld := ⟨0x060, 0, 1⟩
def Annal.APP_GO_LASTGASP : Fld := ⟨0x060, 1, 1⟩
def Annal.APP_GO_DISARM : Fld := ⟨0x060, 2, 1⟩
def Annal.RES_INFO_TAG : Fld := ⟨0x064, 0, 16⟩
def Annal.RES_INFO_STATUS : Fld := ⟨0x064, 16, 8⟩
def Annal.RES_SEQ_SEQ : Fld := ⟨0x068, 0, 32⟩
def Annal.RES_ADDR_ADDR : Fld := ⟨0x06c, 0, 32⟩
def Annal.RECOV_DEAD : Fld := ⟨0x070, 0, 16⟩
def Annal.RECOV_TORN : Fld := ⟨0x070, 16, 16⟩
def Annal.COUNTS_POSTED : Fld := ⟨0x074, 0, 16⟩
def Annal.COUNTS_DONE : Fld := ⟨0x074, 16, 16⟩
def Annal.KEEP : Fld := ⟨0x080, 0, 8⟩

/-- Access rows of the page kind Annal. -/
def Annal.rows : List Row :=
  [⟨0x040, 0, 1, 0, 1, .pu, 0, .any⟩,
   ⟨0x040, 0, 1, 8, 7, .fr, 85, .clamp 50 95⟩,
   ⟨0x044, 0, 1, 0, 1, .rd, 0, .any⟩,
   ⟨0x044, 0, 1, 1, 1, .rd, 0, .any⟩,
   ⟨0x044, 0, 1, 2, 1, .rd, 0, .any⟩,
   ⟨0x044, 0, 1, 3, 1, .rd, 0, .any⟩,
   ⟨0x044, 0, 1, 4, 1, .oc, 0, .any⟩,
   ⟨0x044, 0, 1, 5, 1, .rd, 0, .any⟩,
   ⟨0x044, 0, 1, 8, 8, .rd, 0, .any⟩,
   ⟨0x044, 0, 1, 16, 5, .rd, 0, .any⟩,
   ⟨0x048, 0, 1, 0, 32, .rd, 0, .any⟩,
   ⟨0x04c, 0, 1, 0, 32, .rd, 0, .any⟩,
   ⟨0x050, 0, 1, 0, 21, .rd, 0, .any⟩,
   ⟨0x054, 0, 1, 0, 32, .fr, 0, .any⟩,
   ⟨0x058, 0, 1, 0, 8, .fr, 0, .any⟩,
   ⟨0x058, 0, 1, 8, 8, .fr, 0, .any⟩,
   ⟨0x058, 0, 1, 16, 13, .fr, 0, .any⟩,
   ⟨0x05c, 0, 1, 0, 16, .fr, 0, .any⟩,
   ⟨0x060, 0, 1, 0, 1, .pu, 0, .any⟩,
   ⟨0x060, 0, 1, 1, 1, .pu, 0, .any⟩,
   ⟨0x060, 0, 1, 2, 1, .pu, 0, .any⟩,
   ⟨0x064, 0, 1, 0, 16, .rd, 0, .any⟩,
   ⟨0x064, 0, 1, 16, 8, .rd, 0, .any⟩,
   ⟨0x068, 0, 1, 0, 32, .rd, 0, .any⟩,
   ⟨0x06c, 0, 1, 0, 32, .rd, 0, .any⟩,
   ⟨0x070, 0, 1, 0, 16, .rd, 0, .any⟩,
   ⟨0x070, 0, 1, 16, 16, .rd, 0, .any⟩,
   ⟨0x074, 0, 1, 0, 16, .rd, 0, .any⟩,
   ⟨0x074, 0, 1, 16, 16, .rd, 0, .any⟩,
   ⟨0x084, 4, 8, 0, 8, .fr, 1, .clamp 1 255⟩]

/-! ### Fields of the page kind Dump -/

def Dump.DUMP_CTL_DUMP_VALID : Fld := ⟨0x040, 0, 1⟩
def Dump.DUMP_CTL_PROT : Fld := ⟨0x040, 1, 1⟩
def Dump.DUMP_CMD_SNAP : Fld := ⟨0x044, 0, 1⟩
def Dump.DUMP_CMD_CHAN : Fld := ⟨0x044, 1, 1⟩
def Dump.DUMP_STAT_BUSY : Fld := ⟨0x048, 0, 1⟩
def Dump.DUMP_STAT_FAILED : Fld := ⟨0x048, 8, 8⟩
def Dump.RESETS_COUNT : Fld := ⟨0x04c, 0, 16⟩
def Dump.SNAP_PAGE_PAGE : Fld := ⟨0x080, 0, 9⟩
def Dump.SNAP_PAGE_EN : Fld := ⟨0x080, 15, 1⟩

/-- Access rows of the page kind Dump. -/
def Dump.rows : List Row :=
  [⟨0x040, 0, 1, 0, 1, .fr, 0, .any⟩,
   ⟨0x040, 0, 1, 1, 1, .fr, 0, .any⟩,
   ⟨0x044, 0, 1, 0, 1, .pu, 0, .any⟩,
   ⟨0x044, 0, 1, 1, 1, .pu, 0, .any⟩,
   ⟨0x048, 0, 1, 0, 1, .rd, 0, .any⟩,
   ⟨0x048, 0, 1, 8, 8, .rd, 0, .any⟩,
   ⟨0x04c, 0, 1, 0, 16, .rd, 0, .any⟩,
   ⟨0x080, 4, 54, 0, 9, .fr, 0, .any⟩,
   ⟨0x080, 4, 54, 15, 1, .fr, 0, .any⟩]

/-! ### Fields of the page kind Pll -/

def Pll.PLL_CTL_RESEARCH : Fld := ⟨0x000, 0, 1⟩
def Pll.PLL_CTL_USE_STORED : Fld := ⟨0x000, 1, 1⟩
def Pll.PLL_CTL_LOCK_OUT : Fld := ⟨0x000, 2, 1⟩
def Pll.PLL_STAT_STATE : Fld := ⟨0x004, 0, 3⟩
def Pll.PLL_STAT_GATED : Fld := ⟨0x004, 3, 1⟩
def Pll.PLL_STAT_FAST_TRIP : Fld := ⟨0x004, 4, 1⟩
def Pll.PLL_STAT_FEEDING : Fld := ⟨0x004, 5, 1⟩
def Pll.PLL_STAT_BAND : Fld := ⟨0x004, 8, 6⟩
def Pll.PLL_STAT_BAND_VALID : Fld := ⟨0x004, 14, 1⟩
def Pll.PLL_DIV_N : Fld := ⟨0x008, 0, 16⟩
def Pll.PLL_DIV_R : Fld := ⟨0x008, 16, 8⟩
def Pll.PLL_COUNT_COUNT : Fld := ⟨0x00c, 0, 24⟩
def Pll.PLL_EXPECT_COUNT : Fld := ⟨0x010, 0, 24⟩
def Pll.PLL_EVENTS_LOSSES : Fld := ⟨0x014, 0, 16⟩
def Pll.PLL_EVENTS_RELOCKS : Fld := ⟨0x014, 16, 16⟩
def Pll.PLL_PHERR_PHERR : Fld := ⟨0x018, 0, 16⟩

/-- Access rows of the page kind Pll. -/
def Pll.rows : List Row :=
  [⟨0x000, 0, 1, 0, 1, .pu, 0, .any⟩,
   ⟨0x000, 0, 1, 1, 1, .fr, 1, .any⟩,
   ⟨0x000, 0, 1, 2, 1, .fr, 1, .any⟩,
   ⟨0x004, 0, 1, 0, 3, .rd, 0, .any⟩,
   ⟨0x004, 0, 1, 3, 1, .rd, 0, .any⟩,
   ⟨0x004, 0, 1, 4, 1, .oc, 0, .any⟩,
   ⟨0x004, 0, 1, 5, 1, .rd, 0, .any⟩,
   ⟨0x004, 0, 1, 8, 6, .rd, 0, .any⟩,
   ⟨0x004, 0, 1, 14, 1, .rd, 0, .any⟩,
   ⟨0x008, 0, 1, 0, 16, .rd, 0, .any⟩,
   ⟨0x008, 0, 1, 16, 8, .rd, 0, .any⟩,
   ⟨0x00c, 0, 1, 0, 24, .rd, 0, .any⟩,
   ⟨0x010, 0, 1, 0, 24, .rd, 0, .any⟩,
   ⟨0x014, 0, 1, 0, 16, .rd, 0, .any⟩,
   ⟨0x014, 0, 1, 16, 16, .rd, 0, .any⟩,
   ⟨0x018, 0, 1, 0, 16, .rd, 0, .any⟩]

/-! ### Fields of the page kind Clk0 -/

def Clk0.REF_CFG_REF_SEL : Fld := ⟨0x040, 0, 2⟩
def Clk0.REF_CFG_REVERT : Fld := ⟨0x040, 2, 1⟩
def Clk0.REF_CFG_REF_TOL : Fld := ⟨0x040, 8, 8⟩
def Clk0.REF_STAT_EXT_ACTIVE : Fld := ⟨0x044, 0, 1⟩
def Clk0.REF_STAT_EXT_QUAL : Fld := ⟨0x044, 1, 1⟩
def Clk0.REF_STAT_TCXO_OK : Fld := ⟨0x044, 2, 1⟩
def Clk0.REF_STAT_NONE : Fld := ⟨0x044, 3, 1⟩
def Clk0.REF_STAT_SWITCHES : Fld := ⟨0x044, 16, 16⟩
def Clk0.REF_BUILD_DELAY : Fld := ⟨0x048, 0, 12⟩
def Clk0.REF_FOFS_FOFS : Fld := ⟨0x04c, 0, 32⟩

/-- Access rows of the page kind Clk0. -/
def Clk0.rows : List Row :=
  [⟨0x040, 0, 1, 0, 2, .fr, 1, .reject 0 1⟩,
   ⟨0x040, 0, 1, 2, 1, .fr, 0, .any⟩,
   ⟨0x040, 0, 1, 8, 8, .fr, 20, .clamp 1 100⟩,
   ⟨0x044, 0, 1, 0, 1, .rd, 0, .any⟩,
   ⟨0x044, 0, 1, 1, 1, .rd, 0, .any⟩,
   ⟨0x044, 0, 1, 2, 1, .rd, 1, .any⟩,
   ⟨0x044, 0, 1, 3, 1, .rd, 0, .any⟩,
   ⟨0x044, 0, 1, 16, 16, .rd, 0, .any⟩,
   ⟨0x048, 0, 1, 0, 12, .rd, 0, .any⟩,
   ⟨0x04c, 0, 1, 0, 32, .rd, 0, .any⟩]

/-! ### Fields of the page kind Clk1 -/

def Clk1.PAIR_CFG_PAIR_TOL : Fld := ⟨0x040, 8, 8⟩
def Clk1.PAIR_STAT_ACTIVE : Fld := ⟨0x044, 0, 1⟩
def Clk1.PAIR_STAT_STANDBY_OK : Fld := ⟨0x044, 1, 1⟩
def Clk1.PAIR_STAT_SKEW : Fld := ⟨0x044, 16, 16⟩
def Clk1.SWITCHES_COUNT : Fld := ⟨0x048, 0, 32⟩
def Clk1.DLL_STAT_DLL_LOCKED : Fld := ⟨0x050, 0, 1⟩
def Clk1.DLL_STAT_INPUT : Fld := ⟨0x050, 1, 1⟩
def Clk1.DLL_STAT_LIMIT : Fld := ⟨0x050, 2, 1⟩
def Clk1.DLL_STAT_CODE : Fld := ⟨0x050, 16, 13⟩

/-- Access rows of the page kind Clk1. -/
def Clk1.rows : List Row :=
  [⟨0x040, 0, 1, 8, 8, .fr, 200, .clamp 50 255⟩,
   ⟨0x044, 0, 1, 0, 1, .rd, 0, .any⟩,
   ⟨0x044, 0, 1, 1, 1, .rd, 0, .any⟩,
   ⟨0x044, 0, 1, 16, 16, .rd, 0, .any⟩,
   ⟨0x048, 0, 1, 0, 32, .rd, 0, .any⟩,
   ⟨0x050, 0, 1, 0, 1, .rd, 0, .any⟩,
   ⟨0x050, 0, 1, 1, 1, .rd, 0, .any⟩,
   ⟨0x050, 0, 1, 2, 1, .rd, 0, .any⟩,
   ⟨0x050, 0, 1, 16, 13, .rd, 0, .any⟩]

/-! ### Fields of the page kind Clk3 -/

def Clk3.CPLL_TARGET_N : Fld := ⟨0x040, 0, 7⟩
def Clk3.LOCK_CFG_LOCK_GAIN : Fld := ⟨0x044, 0, 3⟩
def Clk3.LOCK_CFG_LOCK_EN : Fld := ⟨0x044, 8, 1⟩
def Clk3.CBAND_N_BAND : Fld := ⟨0x200, 0, 6⟩
def Clk3.CBAND_N_VALID : Fld := ⟨0x200, 8, 1⟩

/-- Access rows of the page kind Clk3. -/
def Clk3.rows : List Row :=
  [⟨0x040, 0, 1, 0, 7, .sh, 80, .clamp 40 80⟩,
   ⟨0x044, 0, 1, 0, 3, .fr, 3, .any⟩,
   ⟨0x044, 0, 1, 8, 1, .fr, 1, .any⟩,
   ⟨0x200, 0, 1, 0, 6, .fr, 0, .any⟩,
   ⟨0x200, 0, 1, 8, 1, .fr, 0, .any⟩]

/-! ### Fields of the page kind Vig -/

def Vig.VIG_CFG_PREFER : Fld := ⟨0x040, 0, 1⟩
def Vig.VIG_CFG_AUTO_DUMP : Fld := ⟨0x040, 1, 1⟩
def Vig.VIG_CFG_DUMP_THEN : Fld := ⟨0x040, 2, 2⟩
def Vig.VIG_STAT_STATE : Fld := ⟨0x044, 0, 2⟩
def Vig.VIG_STAT_OTHER_OK : Fld := ⟨0x044, 2, 1⟩
def Vig.VIG_STAT_CAL_VALID : Fld := ⟨0x044, 3, 1⟩
def Vig.VIG_STAT_MISSED : Fld := ⟨0x044, 8, 8⟩
def Vig.VIG_STAT_TAKEOVERS : Fld := ⟨0x044, 16, 16⟩
def Vig.VIG_OSC_KHZ : Fld := ⟨0x048, 0, 16⟩
def Vig.VIG_CMD_DUMP : Fld := ⟨0x04c, 0, 1⟩
def Vig.VIG_CMD_SWAP : Fld := ⟨0x04c, 1, 1⟩
def Vig.VIG_CMD_RESTART_OTHER : Fld := ⟨0x04c, 2, 1⟩
def Vig.FAULT_SRC_LAST_RESORT : Fld := ⟨0x050, 0, 1⟩
def Vig.FAULT_SRC_FATAL : Fld := ⟨0x050, 1, 1⟩
def Vig.FAULT_SRC_FW : Fld := ⟨0x050, 2, 1⟩
def Vig.FAULT_SRC_PIN : Fld := ⟨0x050, 3, 1⟩
def Vig.RECIPE_EN_EN : Fld := ⟨0x054, 1, 31⟩
def Vig.HANG_TO_US : Fld := ⟨0x058, 0, 16⟩
def Vig.RECOV_PC_EN : Fld := ⟨0x060, 0, 1⟩
def Vig.RECOV_PC_PC : Fld := ⟨0x060, 1, 31⟩
def Vig.LOG_CNT_COUNT : Fld := ⟨0x080, 0, 32⟩
def Vig.LOG_SEL_INDEX : Fld := ⟨0x084, 0, 7⟩
def Vig.LOG_DATA_EVENT : Fld := ⟨0x088, 0, 256⟩
def Vig.ISLAND_STAT_OK : Fld := ⟨0x0a8, 0, 12⟩
def Vig.ISLAND_STAT_RECOVERING : Fld := ⟨0x0a8, 16, 12⟩
def Vig.ANNAL_LOST_COUNT : Fld := ⟨0x0ac, 0, 32⟩

/-- Access rows of the page kind Vig. -/
def Vig.rows : List Row :=
  [⟨0x040, 0, 1, 0, 1, .fr, 0, .any⟩,
   ⟨0x040, 0, 1, 1, 1, .fr, 1, .any⟩,
   ⟨0x040, 0, 1, 2, 2, .fr, 0, .reject 0 2⟩,
   ⟨0x044, 0, 1, 0, 2, .rd, 0, .any⟩,
   ⟨0x044, 0, 1, 2, 1, .rd, 0, .any⟩,
   ⟨0x044, 0, 1, 3, 1, .rd, 0, .any⟩,
   ⟨0x044, 0, 1, 8, 8, .rd, 0, .any⟩,
   ⟨0x044, 0, 1, 16, 16, .rd, 0, .any⟩,
   ⟨0x048, 0, 1, 0, 16, .rd, 0, .any⟩,
   ⟨0x04c, 0, 1, 0, 1, .pu, 0, .any⟩,
   ⟨0x04c, 0, 1, 1, 1, .pu, 0, .any⟩,
   ⟨0x04c, 0, 1, 2, 1, .pu, 0, .any⟩,
   ⟨0x050, 0, 1, 0, 1, .oc, 0, .any⟩,
   ⟨0x050, 0, 1, 1, 1, .oc, 0, .any⟩,
   ⟨0x050, 0, 1, 2, 1, .fr, 0, .any⟩,
   ⟨0x050, 0, 1, 3, 1, .rd, 0, .any⟩,
   ⟨0x054, 0, 1, 1, 31, .fr, 2147483647, .any⟩,
   ⟨0x058, 0, 1, 0, 16, .fr, 50, .clamp 5 1000⟩,
   ⟨0x060, 4, 6, 0, 1, .fr, 0, .any⟩,
   ⟨0x060, 4, 6, 1, 31, .fr, 0, .any⟩,
   ⟨0x080, 0, 1, 0, 32, .rd, 0, .any⟩,
   ⟨0x084, 0, 1, 0, 7, .fr, 0, .reject 0 109⟩,
   ⟨0x088, 0, 1, 0, 256, .rd, 0, .any⟩,
   ⟨0x0a8, 0, 1, 0, 12, .rd, 4095, .any⟩,
   ⟨0x0a8, 0, 1, 16, 12, .rd, 0, .any⟩,
   ⟨0x0ac, 0, 1, 0, 32, .rd, 0, .any⟩]

/-! ### Fields of the page kind GuardP -/

def GuardP.VIOL_SUM_NOT_OK : Fld := ⟨0x040, 0, 23⟩

/-- Access rows of the page kind GuardP. -/
def GuardP.rows : List Row :=
  [⟨0x040, 0, 1, 0, 23, .rd, 0, .any⟩]

/-! ### Fields of the page kind GuardG -/

def GuardG.GD_CFG_FILTER : Fld := ⟨0x000, 0, 8⟩
def GuardG.GD_CFG_ACTION : Fld := ⟨0x000, 8, 3⟩
def GuardG.GD_LO_LO : Fld := ⟨0x004, 0, 16⟩
def GuardG.GD_HI_HI : Fld := ⟨0x008, 0, 16⟩
def GuardG.GD_TO_TO : Fld := ⟨0x00c, 0, 24⟩
def GuardG.GD_VAL_VALUE : Fld := ⟨0x010, 0, 16⟩
def GuardG.GD_STAT_STATE : Fld := ⟨0x014, 0, 2⟩
def GuardG.GD_STAT_VIOL : Fld := ⟨0x014, 2, 1⟩
def GuardG.GD_STAT_COUNT : Fld := ⟨0x014, 16, 16⟩

/-- Access rows of the page kind GuardG. -/
def GuardG.rows : List Row :=
  [⟨0x000, 0, 1, 0, 8, .fr, 0, .any⟩,
   ⟨0x000, 0, 1, 8, 3, .fr, 0, .reject 0 3⟩,
   ⟨0x004, 0, 1, 0, 16, .fr, 0, .any⟩,
   ⟨0x008, 0, 1, 0, 16, .fr, 0, .any⟩,
   ⟨0x00c, 0, 1, 0, 24, .fr, 0, .any⟩,
   ⟨0x010, 0, 1, 0, 16, .rd, 0, .any⟩,
   ⟨0x014, 0, 1, 0, 2, .rd, 0, .any⟩,
   ⟨0x014, 0, 1, 2, 1, .oc, 0, .any⟩,
   ⟨0x014, 0, 1, 16, 16, .rd, 0, .any⟩]

/-! ### Fields of the page kind Power -/

def Power.PD_STAT_REQ : Fld := ⟨0x040, 0, 1⟩
def Power.PD_STAT_FULL : Fld := ⟨0x040, 1, 1⟩
def Power.PD_STAT_FALLBACK : Fld := ⟨0x040, 2, 1⟩
def Power.PD_STAT_DENIED : Fld := ⟨0x040, 3, 1⟩
def Power.PD_STAT_SHED : Fld := ⟨0x040, 4, 1⟩
def Power.PD_STAT_VPOE : Fld := ⟨0x040, 16, 16⟩
def Power.RAIL_CTL_VAUX_EN : Fld := ⟨0x044, 0, 1⟩
def Power.RAIL_CTL_PA_SUP_EN : Fld := ⟨0x044, 1, 1⟩
def Power.VAUX_ILIM_MA : Fld := ⟨0x048, 0, 12⟩
def Power.RAIL_STAT_VAUX_OK : Fld := ⟨0x04c, 0, 1⟩
def Power.RAIL_STAT_V3P3_OK : Fld := ⟨0x04c, 1, 1⟩
def Power.RAIL_STAT_PA_OK : Fld := ⟨0x04c, 2, 1⟩
def Power.RAIL_STAT_VAUX_TRIP : Fld := ⟨0x04c, 3, 1⟩
def Power.RAIL_STAT_PA_TRIP : Fld := ⟨0x04c, 4, 1⟩
def Power.RAIL_STAT_VAUX_I : Fld := ⟨0x04c, 16, 16⟩
def Power.PA_I_MA : Fld := ⟨0x050, 0, 12⟩
def Power.DIE_TEMP_T : Fld := ⟨0x054, 0, 16⟩
def Power.VBAK_MV_MV : Fld := ⟨0x058, 0, 16⟩
def Power.HEAT_CTL_HEAT_EN : Fld := ⟨0x060, 0, 1⟩
def Power.HEAT_CTL_SETPOINT : Fld := ⟨0x060, 8, 8⟩
def Power.HEAT_CTL_HEAT_GAIN : Fld := ⟨0x060, 16, 8⟩
def Power.HEAT_CTL_DUTY_MAX : Fld := ⟨0x060, 24, 8⟩
def Power.HEAT_STAT_DUTY : Fld := ⟨0x064, 0, 8⟩
def Power.HEAT_STAT_SENSE_FAULT : Fld := ⟨0x064, 8, 1⟩
def Power.HEAT_STAT_BLOCKED : Fld := ⟨0x064, 9, 1⟩
def Power.HEAT_STAT_T : Fld := ⟨0x064, 16, 16⟩

/-- Access rows of the page kind Power. -/
def Power.rows : List Row :=
  [⟨0x040, 0, 1, 0, 1, .rd, 0, .any⟩,
   ⟨0x040, 0, 1, 1, 1, .rd, 0, .any⟩,
   ⟨0x040, 0, 1, 2, 1, .rd, 0, .any⟩,
   ⟨0x040, 0, 1, 3, 1, .rd, 0, .any⟩,
   ⟨0x040, 0, 1, 4, 1, .rd, 0, .any⟩,
   ⟨0x040, 0, 1, 16, 16, .rd, 0, .any⟩,
   ⟨0x044, 0, 1, 0, 1, .fr, 1, .any⟩,
   ⟨0x044, 0, 1, 1, 1, .fr, 0, .any⟩,
   ⟨0x048, 0, 1, 0, 12, .fr, 0, .any⟩,
   ⟨0x04c, 0, 1, 0, 1, .rd, 0, .any⟩,
   ⟨0x04c, 0, 1, 1, 1, .rd, 0, .any⟩,
   ⟨0x04c, 0, 1, 2, 1, .rd, 0, .any⟩,
   ⟨0x04c, 0, 1, 3, 1, .oc, 0, .any⟩,
   ⟨0x04c, 0, 1, 4, 1, .oc, 0, .any⟩,
   ⟨0x04c, 0, 1, 16, 16, .rd, 0, .any⟩,
   ⟨0x050, 0, 1, 0, 12, .rd, 0, .any⟩,
   ⟨0x054, 0, 1, 0, 16, .rd, 0, .any⟩,
   ⟨0x058, 0, 1, 0, 16, .rd, 0, .any⟩,
   ⟨0x060, 0, 1, 0, 1, .fr, 0, .any⟩,
   ⟨0x060, 0, 1, 8, 8, .fr, 5, .clampS 40 60⟩,
   ⟨0x060, 0, 1, 16, 8, .fr, 16, .clamp 1 255⟩,
   ⟨0x060, 0, 1, 24, 8, .fr, 255, .any⟩,
   ⟨0x064, 0, 1, 0, 8, .rd, 0, .any⟩,
   ⟨0x064, 0, 1, 8, 1, .rd, 0, .any⟩,
   ⟨0x064, 0, 1, 9, 1, .rd, 0, .any⟩,
   ⟨0x064, 0, 1, 16, 16, .rd, 0, .any⟩]

/-! ### Fields of the page kind Sys -/

def Sys.SYS_ID_IDCODE : Fld := ⟨0x040, 0, 32⟩
def Sys.STRAPS_BOOT : Fld := ⟨0x044, 0, 2⟩
def Sys.STRAPS_CFG_PWR : Fld := ⟨0x044, 2, 1⟩
def Sys.RESET_CAUSE_KIND : Fld := ⟨0x048, 0, 3⟩
def Sys.RESET_CAUSE_WARM_CNT : Fld := ⟨0x048, 8, 8⟩
def Sys.SYS_RST_KEY : Fld := ⟨0x04c, 0, 32⟩
def Sys.WDOG_MS : Fld := ⟨0x050, 0, 24⟩
def Sys.WDOG_WARM : Fld := ⟨0x050, 24, 1⟩
def Sys.WDOG_KICK_KICK : Fld := ⟨0x054, 0, 1⟩
def Sys.BOOT_STAT_IMAGE : Fld := ⟨0x058, 0, 2⟩
def Sys.BOOT_STAT_UNSIGNED : Fld := ⟨0x058, 2, 1⟩
def Sys.BOOT_STAT_CODE : Fld := ⟨0x058, 3, 5⟩
def Sys.BOOT_STAT_CODE_A : Fld := ⟨0x058, 8, 8⟩
def Sys.BOOT_STAT_CODE_B : Fld := ⟨0x058, 16, 8⟩
def Sys.BOOT_STAT_CODE_H : Fld := ⟨0x058, 24, 8⟩
def Sys.BOOT_TRY_TRY_A : Fld := ⟨0x05c, 0, 4⟩
def Sys.BOOT_TRY_TRY_B : Fld := ⟨0x05c, 4, 4⟩
def Sys.BOOT_OK_OK : Fld := ⟨0x060, 0, 1⟩
def Sys.HOST_IMG_ADDR : Fld := ⟨0x064, 0, 32⟩
def Sys.FUSE_CFG_SECURE : Fld := ⟨0x068, 0, 1⟩
def Sys.FUSE_CFG_ROLLBACK : Fld := ⟨0x068, 8, 7⟩
def Sys.UID : Fld := ⟨0x070, 0, 128⟩
def Sys.PKHASH_HASH : Fld := ⟨0x080, 0, 256⟩
def Sys.DBGHASH_HASH : Fld := ⟨0x0a0, 0, 256⟩
def Sys.HASH_SRC_ADDR : Fld := ⟨0x0c0, 0, 32⟩
def Sys.HASH_LEN_BYTES : Fld := ⟨0x0c4, 0, 25⟩
def Sys.HASH_CMD_SHA : Fld := ⟨0x0c8, 0, 1⟩
def Sys.HASH_CMD_VERIFY : Fld := ⟨0x0c8, 1, 1⟩
def Sys.HASH_STAT_BUSY : Fld := ⟨0x0cc, 0, 1⟩
def Sys.HASH_STAT_SIG_OK : Fld := ⟨0x0cc, 1, 1⟩
def Sys.HASH_OUT_DIGEST : Fld := ⟨0x0e0, 0, 256⟩
def Sys.VER_KEY_KEY : Fld := ⟨0x100, 0, 512⟩
def Sys.VER_SIG_SIG : Fld := ⟨0x140, 0, 512⟩
def Sys.DBG_STAT_SCOPE : Fld := ⟨0x180, 0, 2⟩
def Sys.DBG_STAT_FAILED : Fld := ⟨0x180, 2, 1⟩
def Sys.DBG_CMD_SUBMIT : Fld := ⟨0x184, 0, 1⟩
def Sys.DBG_CMD_RELOCK : Fld := ⟨0x184, 1, 1⟩
def Sys.DBG_CHAL_CHAL : Fld := ⟨0x190, 0, 128⟩
def Sys.DBG_TOKEN_TOKEN : Fld := ⟨0x1a0, 0, 1056⟩

/-- Access rows of the page kind Sys. -/
def Sys.rows : List Row :=
  [⟨0x040, 0, 1, 0, 32, .rd, 442261828, .any⟩,
   ⟨0x044, 0, 1, 0, 2, .rd, 0, .any⟩,
   ⟨0x044, 0, 1, 2, 1, .rd, 0, .any⟩,
   ⟨0x048, 0, 1, 0, 3, .rd, 0, .any⟩,
   ⟨0x048, 0, 1, 8, 8, .rd, 0, .any⟩,
   ⟨0x04c, 0, 1, 0, 32, .pu, 0, .any⟩,
   ⟨0x050, 0, 1, 0, 24, .fr, 0, .any⟩,
   ⟨0x050, 0, 1, 24, 1, .fr, 0, .any⟩,
   ⟨0x054, 0, 1, 0, 1, .pu, 0, .any⟩,
   ⟨0x058, 0, 1, 0, 2, .rd, 0, .any⟩,
   ⟨0x058, 0, 1, 2, 1, .rd, 0, .any⟩,
   ⟨0x058, 0, 1, 3, 5, .rd, 0, .any⟩,
   ⟨0x058, 0, 1, 8, 8, .rd, 0, .any⟩,
   ⟨0x058, 0, 1, 16, 8, .rd, 0, .any⟩,
   ⟨0x058, 0, 1, 24, 8, .rd, 0, .any⟩,
   ⟨0x05c, 0, 1, 0, 4, .rd, 0, .any⟩,
   ⟨0x05c, 0, 1, 4, 4, .rd, 0, .any⟩,
   ⟨0x060, 0, 1, 0, 1, .pu, 0, .any⟩,
   ⟨0x064, 0, 1, 0, 32, .fr, 0, .any⟩,
   ⟨0x068, 0, 1, 0, 1, .rd, 0, .any⟩,
   ⟨0x068, 0, 1, 8, 7, .rd, 0, .any⟩,
   ⟨0x070, 0, 1, 0, 128, .rd, 0, .any⟩,
   ⟨0x080, 0, 1, 0, 256, .rd, 0, .any⟩,
   ⟨0x0a0, 0, 1, 0, 256, .rd, 0, .any⟩,
   ⟨0x0c0, 0, 1, 0, 32, .fr, 0, .any⟩,
   ⟨0x0c4, 0, 1, 0, 25, .fr, 0, .any⟩,
   ⟨0x0c8, 0, 1, 0, 1, .pu, 0, .any⟩,
   ⟨0x0c8, 0, 1, 1, 1, .pu, 0, .any⟩,
   ⟨0x0cc, 0, 1, 0, 1, .rd, 0, .any⟩,
   ⟨0x0cc, 0, 1, 1, 1, .rd, 0, .any⟩,
   ⟨0x0e0, 0, 1, 0, 256, .fr, 0, .any⟩,
   ⟨0x100, 0, 1, 0, 512, .fr, 0, .any⟩,
   ⟨0x140, 0, 1, 0, 512, .fr, 0, .any⟩,
   ⟨0x180, 0, 1, 0, 2, .rd, 0, .any⟩,
   ⟨0x180, 0, 1, 2, 1, .oc, 0, .any⟩,
   ⟨0x184, 0, 1, 0, 1, .pu, 0, .any⟩,
   ⟨0x184, 0, 1, 1, 1, .pu, 0, .any⟩,
   ⟨0x190, 0, 1, 0, 128, .rd, 0, .any⟩,
   ⟨0x1a0, 0, 1, 0, 1056, .fr, 0, .any⟩]

/-! ### Fields of the page kind Spi -/

def Spi.HOST_CFG_CRC_EN : Fld := ⟨0x040, 0, 1⟩
def Spi.HOST_CFG_RX_DREQ : Fld := ⟨0x040, 8, 6⟩
def Spi.HOST_CFG_TX_DREQ : Fld := ⟨0x040, 16, 6⟩
def Spi.HOST_STAT_RESULT : Fld := ⟨0x044, 0, 8⟩
def Spi.HOST_STAT_BUSY : Fld := ⟨0x044, 8, 1⟩
def Spi.HOST_STAT_FRAMES : Fld := ⟨0x044, 16, 16⟩
def Spi.HOST_FAIL_ADDR : Fld := ⟨0x048, 0, 32⟩
def Spi.HOST_DB_DB : Fld := ⟨0x04c, 0, 16⟩
def Spi.DB_SET_SET : Fld := ⟨0x050, 0, 16⟩
def Spi.HOST_MASK_MASK : Fld := ⟨0x054, 0, 16⟩
def Spi.FW_DB_DB : Fld := ⟨0x058, 0, 16⟩
def Spi.RXF_DATA_DATA : Fld := ⟨0x05c, 0, 32⟩
def Spi.TXF_DATA_DATA : Fld := ⟨0x060, 0, 32⟩
def Spi.FIFO_STAT_RX_LEVEL : Fld := ⟨0x064, 0, 9⟩
def Spi.FIFO_STAT_TX_LEVEL : Fld := ⟨0x064, 16, 9⟩
def Spi.FIFO_CTL_RX_FLUSH : Fld := ⟨0x068, 0, 1⟩
def Spi.FIFO_CTL_TX_FLUSH : Fld := ⟨0x068, 1, 1⟩

/-- Access rows of the page kind Spi. -/
def Spi.rows : List Row :=
  [⟨0x040, 0, 1, 0, 1, .fr, 0, .any⟩,
   ⟨0x040, 0, 1, 8, 6, .fr, 1, .clamp 1 63⟩,
   ⟨0x040, 0, 1, 16, 6, .fr, 1, .clamp 1 63⟩,
   ⟨0x044, 0, 1, 0, 8, .rd, 0, .any⟩,
   ⟨0x044, 0, 1, 8, 1, .rd, 0, .any⟩,
   ⟨0x044, 0, 1, 16, 16, .rd, 0, .any⟩,
   ⟨0x048, 0, 1, 0, 32, .rd, 0, .any⟩,
   ⟨0x04c, 0, 1, 0, 16, .rd, 0, .any⟩,
   ⟨0x050, 0, 1, 0, 16, .pu, 0, .any⟩,
   ⟨0x054, 0, 1, 0, 16, .fr, 0, .any⟩,
   ⟨0x058, 0, 1, 0, 16, .oc, 0, .any⟩,
   ⟨0x05c, 0, 1, 0, 32, .rd, 0, .any⟩,
   ⟨0x060, 0, 1, 0, 32, .fr, 0, .any⟩,
   ⟨0x064, 0, 1, 0, 9, .rd, 0, .any⟩,
   ⟨0x064, 0, 1, 16, 9, .rd, 0, .any⟩,
   ⟨0x068, 0, 1, 0, 1, .pu, 0, .any⟩,
   ⟨0x068, 0, 1, 1, 1, .pu, 0, .any⟩]

/-! ### Fields of the page kind Can -/

def Can.CAN_CFG_FD_EN : Fld := ⟨0x040, 0, 1⟩
def Can.CAN_CFG_LISTEN : Fld := ⟨0x040, 1, 1⟩
def Can.CAN_CFG_LOOPBACK : Fld := ⟨0x040, 2, 1⟩
def Can.CAN_CFG_BO_AUTO : Fld := ⟨0x040, 3, 1⟩
def Can.NBT_TQ : Fld := ⟨0x044, 0, 8⟩
def Can.NBT_TSEG1 : Fld := ⟨0x044, 8, 8⟩
def Can.NBT_TSEG2 : Fld := ⟨0x044, 16, 7⟩
def Can.NBT_SJW : Fld := ⟨0x044, 23, 7⟩
def Can.DBT_TQ : Fld := ⟨0x048, 0, 8⟩
def Can.DBT_TSEG1 : Fld := ⟨0x048, 8, 6⟩
def Can.DBT_TSEG2 : Fld := ⟨0x048, 14, 5⟩
def Can.DBT_SJW : Fld := ⟨0x048, 19, 5⟩
def Can.DBT_TDC_EN : Fld := ⟨0x048, 24, 1⟩
def Can.TDC_OFS : Fld := ⟨0x04c, 0, 12⟩
def Can.CAN_STAT_STATE : Fld := ⟨0x050, 0, 2⟩
def Can.CAN_STAT_LEC : Fld := ⟨0x050, 4, 3⟩
def Can.CAN_STAT_REC : Fld := ⟨0x050, 8, 8⟩
def Can.CAN_STAT_TEC : Fld := ⟨0x050, 16, 9⟩
def Can.CAN_CMD_RECOVER : Fld := ⟨0x054, 0, 1⟩
def Can.CAN_CMD_CANCEL : Fld := ⟨0x054, 1, 1⟩
def Can.TXQ_DATA_DATA : Fld := ⟨0x058, 0, 32⟩
def Can.RXF_DATA_DATA : Fld := ⟨0x05c, 0, 32⟩
def Can.TXE_DATA_DATA : Fld := ⟨0x060, 0, 32⟩
def Can.Q_STAT_TXQ_FREE : Fld := ⟨0x064, 0, 5⟩
def Can.Q_STAT_RX_RECS : Fld := ⟨0x064, 8, 6⟩
def Can.Q_STAT_TXE_EVTS : Fld := ⟨0x064, 16, 5⟩
def Can.RX_LOST_COUNT : Fld := ⟨0x068, 0, 32⟩
def Can.TXE_LOST_COUNT : Fld := ⟨0x06c, 0, 32⟩
def Can.FILT_ID_ID : Fld := ⟨0x100, 0, 29⟩
def Can.FILT_ID_FILT_IDE : Fld := ⟨0x100, 29, 1⟩
def Can.FILT_ID_EN : Fld := ⟨0x100, 31, 1⟩
def Can.FILT_MASK_MASK : Fld := ⟨0x104, 0, 29⟩

/-- Access rows of the page kind Can. -/
def Can.rows : List Row :=
  [⟨0x040, 0, 1, 0, 1, .fr, 0, .any⟩,
   ⟨0x040, 0, 1, 1, 1, .fr, 0, .any⟩,
   ⟨0x040, 0, 1, 2, 1, .fr, 0, .any⟩,
   ⟨0x040, 0, 1, 3, 1, .fr, 1, .any⟩,
   ⟨0x044, 0, 1, 0, 8, .fr, 32, .any⟩,
   ⟨0x044, 0, 1, 8, 8, .fr, 31, .any⟩,
   ⟨0x044, 0, 1, 16, 7, .fr, 8, .any⟩,
   ⟨0x044, 0, 1, 23, 7, .fr, 8, .any⟩,
   ⟨0x048, 0, 1, 0, 8, .fr, 16, .any⟩,
   ⟨0x048, 0, 1, 8, 6, .fr, 15, .any⟩,
   ⟨0x048, 0, 1, 14, 5, .fr, 4, .any⟩,
   ⟨0x048, 0, 1, 19, 5, .fr, 4, .any⟩,
   ⟨0x048, 0, 1, 24, 1, .fr, 1, .any⟩,
   ⟨0x04c, 0, 1, 0, 12, .fr, 12, .any⟩,
   ⟨0x050, 0, 1, 0, 2, .rd, 0, .any⟩,
   ⟨0x050, 0, 1, 4, 3, .rd, 0, .any⟩,
   ⟨0x050, 0, 1, 8, 8, .rd, 0, .any⟩,
   ⟨0x050, 0, 1, 16, 9, .rd, 0, .any⟩,
   ⟨0x054, 0, 1, 0, 1, .pu, 0, .any⟩,
   ⟨0x054, 0, 1, 1, 1, .pu, 0, .any⟩,
   ⟨0x058, 0, 1, 0, 32, .fr, 0, .any⟩,
   ⟨0x05c, 0, 1, 0, 32, .rd, 0, .any⟩,
   ⟨0x060, 0, 1, 0, 32, .rd, 0, .any⟩,
   ⟨0x064, 0, 1, 0, 5, .rd, 16, .any⟩,
   ⟨0x064, 0, 1, 8, 6, .rd, 0, .any⟩,
   ⟨0x064, 0, 1, 16, 5, .rd, 0, .any⟩,
   ⟨0x068, 0, 1, 0, 32, .rd, 0, .any⟩,
   ⟨0x06c, 0, 1, 0, 32, .rd, 0, .any⟩,
   ⟨0x100, 8, 16, 0, 29, .fr, 0, .any⟩,
   ⟨0x100, 8, 16, 29, 1, .fr, 0, .any⟩,
   ⟨0x100, 8, 16, 31, 1, .fr, 0, .any⟩,
   ⟨0x104, 8, 16, 0, 29, .fr, 0, .any⟩]

/-! ### Fields of the page kind Uart -/

def Uart.UART_CFG_BITS7 : Fld := ⟨0x040, 0, 1⟩
def Uart.UART_CFG_PARITY : Fld := ⟨0x040, 1, 2⟩
def Uart.UART_CFG_STOP2 : Fld := ⟨0x040, 3, 1⟩
def Uart.UART_CFG_FLOW : Fld := ⟨0x040, 4, 1⟩
def Uart.UART_CFG_TX_BREAK : Fld := ⟨0x040, 5, 1⟩
def Uart.UART_CFG_LOOP : Fld := ⟨0x040, 6, 1⟩
def Uart.UART_CFG_IDLE_BITS : Fld := ⟨0x040, 8, 8⟩
def Uart.UART_CFG_RX_DREQ : Fld := ⟨0x040, 16, 4⟩
def Uart.UART_CFG_TX_DREQ : Fld := ⟨0x040, 20, 4⟩
def Uart.BAUD_PERIOD : Fld := ⟨0x044, 0, 26⟩
def Uart.RX_DATA_DATA : Fld := ⟨0x048, 0, 8⟩
def Uart.RX_DATA_PAR_ERR : Fld := ⟨0x048, 8, 1⟩
def Uart.RX_DATA_FRM_ERR : Fld := ⟨0x048, 9, 1⟩
def Uart.RX_DATA_BREAK : Fld := ⟨0x048, 10, 1⟩
def Uart.RX_DATA_VALID : Fld := ⟨0x048, 11, 1⟩
def Uart.RX_DATA4_DATA : Fld := ⟨0x04c, 0, 32⟩
def Uart.TX_DATA_DATA : Fld := ⟨0x050, 0, 8⟩
def Uart.TX_DATA4_DATA : Fld := ⟨0x054, 0, 32⟩
def Uart.UART_STAT_RX_LEVEL : Fld := ⟨0x058, 0, 7⟩
def Uart.UART_STAT_TX_LEVEL : Fld := ⟨0x058, 8, 7⟩
def Uart.UART_STAT_TX_IDLE : Fld := ⟨0x058, 16, 1⟩
def Uart.UART_STAT_CTS : Fld := ⟨0x058, 17, 1⟩
def Uart.UART_STAT_RTS : Fld := ⟨0x058, 18, 1⟩
def Uart.UART_CTL_RX_FLUSH : Fld := ⟨0x05c, 0, 1⟩
def Uart.UART_CTL_TX_FLUSH : Fld := ⟨0x05c, 1, 1⟩
def Uart.UART_CTL_CNT_CLR : Fld := ⟨0x05c, 2, 1⟩
def Uart.ERR_CNTS_PARITY : Fld := ⟨0x060, 0, 8⟩
def Uart.ERR_CNTS_FRAMING : Fld := ⟨0x060, 8, 8⟩
def Uart.ERR_CNTS_OVERRUN : Fld := ⟨0x060, 16, 8⟩
def Uart.ERR_CNTS_BREAKS : Fld := ⟨0x060, 24, 8⟩

/-- Access rows of the page kind Uart. -/
def Uart.rows : List Row :=
  [⟨0x040, 0, 1, 0, 1, .fr, 0, .any⟩,
   ⟨0x040, 0, 1, 1, 2, .fr, 0, .reject 0 2⟩,
   ⟨0x040, 0, 1, 3, 1, .fr, 0, .any⟩,
   ⟨0x040, 0, 1, 4, 1, .fr, 0, .any⟩,
   ⟨0x040, 0, 1, 5, 1, .fr, 0, .any⟩,
   ⟨0x040, 0, 1, 6, 1, .fr, 0, .any⟩,
   ⟨0x040, 0, 1, 8, 8, .fr, 32, .clamp 1 255⟩,
   ⟨0x040, 0, 1, 16, 4, .fr, 1, .clamp 1 15⟩,
   ⟨0x040, 0, 1, 20, 4, .fr, 1, .clamp 1 15⟩,
   ⟨0x044, 0, 1, 0, 26, .fr, 88889, .reject 2560 34133333⟩,
   ⟨0x048, 0, 1, 0, 8, .rd, 0, .any⟩,
   ⟨0x048, 0, 1, 8, 1, .rd, 0, .any⟩,
   ⟨0x048, 0, 1, 9, 1, .rd, 0, .any⟩,
   ⟨0x048, 0, 1, 10, 1, .rd, 0, .any⟩,
   ⟨0x048, 0, 1, 11, 1, .rd, 0, .any⟩,
   ⟨0x04c, 0, 1, 0, 32, .rd, 0, .any⟩,
   ⟨0x050, 0, 1, 0, 8, .fr, 0, .any⟩,
   ⟨0x054, 0, 1, 0, 32, .fr, 0, .any⟩,
   ⟨0x058, 0, 1, 0, 7, .rd, 0, .any⟩,
   ⟨0x058, 0, 1, 8, 7, .rd, 0, .any⟩,
   ⟨0x058, 0, 1, 16, 1, .rd, 1, .any⟩,
   ⟨0x058, 0, 1, 17, 1, .rd, 0, .any⟩,
   ⟨0x058, 0, 1, 18, 1, .rd, 0, .any⟩,
   ⟨0x05c, 0, 1, 0, 1, .pu, 0, .any⟩,
   ⟨0x05c, 0, 1, 1, 1, .pu, 0, .any⟩,
   ⟨0x05c, 0, 1, 2, 1, .pu, 0, .any⟩,
   ⟨0x060, 0, 1, 0, 8, .rd, 0, .any⟩,
   ⟨0x060, 0, 1, 8, 8, .rd, 0, .any⟩,
   ⟨0x060, 0, 1, 16, 8, .rd, 0, .any⟩,
   ⟨0x060, 0, 1, 24, 8, .rd, 0, .any⟩]

/-! ### Fields of the page kind I2c -/

def I2c.I2C_TIM_SCL_LO : Fld := ⟨0x040, 0, 13⟩
def I2c.I2C_TIM_SCL_HI : Fld := ⟨0x040, 16, 13⟩
def I2c.I2C_CFG_STRETCH_TO : Fld := ⟨0x044, 0, 8⟩
def I2c.I2C_CFG_RX_DREQ : Fld := ⟨0x044, 8, 4⟩
def I2c.I2C_CFG_TX_DREQ : Fld := ⟨0x044, 12, 4⟩
def I2c.I2C_CMD_ADDR : Fld := ⟨0x048, 0, 10⟩
def I2c.I2C_CMD_TEN : Fld := ⟨0x048, 10, 1⟩
def I2c.I2C_CMD_READ : Fld := ⟨0x048, 11, 1⟩
def I2c.I2C_CMD_COUNT : Fld := ⟨0x048, 12, 8⟩
def I2c.I2C_CMD_STOP : Fld := ⟨0x048, 20, 1⟩
def I2c.I2C_CMD_IRQ : Fld := ⟨0x048, 21, 1⟩
def I2c.I2C_CTL_ABORT : Fld := ⟨0x04c, 0, 1⟩
def I2c.I2C_CTL_RECOVER : Fld := ⟨0x04c, 1, 1⟩
def I2c.I2C_CTL_RX_FLUSH : Fld := ⟨0x04c, 2, 1⟩
def I2c.I2C_CTL_TX_FLUSH : Fld := ⟨0x04c, 3, 1⟩
def I2c.I2C_STAT_LAST : Fld := ⟨0x050, 0, 8⟩
def I2c.I2C_STAT_BUS_BUSY : Fld := ⟨0x050, 8, 1⟩
def I2c.I2C_STAT_CMD_LEVEL : Fld := ⟨0x050, 9, 4⟩
def I2c.I2C_STAT_RX_LEVEL : Fld := ⟨0x050, 16, 5⟩
def I2c.I2C_STAT_TX_LEVEL : Fld := ⟨0x050, 24, 5⟩
def I2c.XFER_BYTES : Fld := ⟨0x054, 0, 8⟩
def I2c.RX_DATA_DATA : Fld := ⟨0x058, 0, 8⟩
def I2c.RX_DATA_PAR_ERR : Fld := ⟨0x058, 8, 1⟩
def I2c.RX_DATA_FRM_ERR : Fld := ⟨0x058, 9, 1⟩
def I2c.RX_DATA_BREAK : Fld := ⟨0x058, 10, 1⟩
def I2c.RX_DATA_VALID : Fld := ⟨0x058, 11, 1⟩
def I2c.RX_DATA4_DATA : Fld := ⟨0x05c, 0, 32⟩
def I2c.TX_DATA_DATA : Fld := ⟨0x060, 0, 8⟩
def I2c.TX_DATA4_DATA : Fld := ⟨0x064, 0, 32⟩

/-- Access rows of the page kind I2c. -/
def I2c.rows : List Row :=
  [⟨0x040, 0, 1, 0, 13, .fr, 3200, .clamp 400 8191⟩,
   ⟨0x040, 0, 1, 16, 13, .fr, 3200, .clamp 240 8191⟩,
   ⟨0x044, 0, 1, 0, 8, .fr, 25, .clamp 1 255⟩,
   ⟨0x044, 0, 1, 8, 4, .fr, 1, .clamp 1 4⟩,
   ⟨0x044, 0, 1, 12, 4, .fr, 1, .clamp 1 4⟩,
   ⟨0x048, 0, 1, 0, 10, .fr, 0, .any⟩,
   ⟨0x048, 0, 1, 10, 1, .fr, 0, .any⟩,
   ⟨0x048, 0, 1, 11, 1, .fr, 0, .any⟩,
   ⟨0x048, 0, 1, 12, 8, .fr, 0, .any⟩,
   ⟨0x048, 0, 1, 20, 1, .fr, 0, .any⟩,
   ⟨0x048, 0, 1, 21, 1, .fr, 0, .any⟩,
   ⟨0x04c, 0, 1, 0, 1, .pu, 0, .any⟩,
   ⟨0x04c, 0, 1, 1, 1, .pu, 0, .any⟩,
   ⟨0x04c, 0, 1, 2, 1, .pu, 0, .any⟩,
   ⟨0x04c, 0, 1, 3, 1, .pu, 0, .any⟩,
   ⟨0x050, 0, 1, 0, 8, .rd, 0, .any⟩,
   ⟨0x050, 0, 1, 8, 1, .rd, 0, .any⟩,
   ⟨0x050, 0, 1, 9, 4, .rd, 0, .any⟩,
   ⟨0x050, 0, 1, 16, 5, .rd, 0, .any⟩,
   ⟨0x050, 0, 1, 24, 5, .rd, 0, .any⟩,
   ⟨0x054, 0, 1, 0, 8, .rd, 0, .any⟩,
   ⟨0x058, 0, 1, 0, 8, .rd, 0, .any⟩,
   ⟨0x058, 0, 1, 8, 1, .rd, 0, .any⟩,
   ⟨0x058, 0, 1, 9, 1, .rd, 0, .any⟩,
   ⟨0x058, 0, 1, 10, 1, .rd, 0, .any⟩,
   ⟨0x058, 0, 1, 11, 1, .rd, 0, .any⟩,
   ⟨0x05c, 0, 1, 0, 32, .rd, 0, .any⟩,
   ⟨0x060, 0, 1, 0, 8, .fr, 0, .any⟩,
   ⟨0x064, 0, 1, 0, 32, .fr, 0, .any⟩]

/-! ### Fields of the page kind Gpio -/

def Gpio.GPIO_IN_IN : Fld := ⟨0x040, 0, 16⟩
def Gpio.GPIO_OUT_OUT : Fld := ⟨0x044, 0, 16⟩
def Gpio.GPIO_SET_SET : Fld := ⟨0x048, 0, 16⟩
def Gpio.GPIO_CLR_CLR : Fld := ⟨0x04c, 0, 16⟩
def Gpio.GPIO_TGL_TGL : Fld := ⟨0x050, 0, 16⟩
def Gpio.GPIO_OE_OE : Fld := ⟨0x054, 0, 16⟩
def Gpio.GPIO_DREQ_PIN_A : Fld := ⟨0x058, 0, 4⟩
def Gpio.GPIO_DREQ_POL_A : Fld := ⟨0x058, 4, 1⟩
def Gpio.GPIO_DREQ_EN_A : Fld := ⟨0x058, 5, 1⟩
def Gpio.GPIO_DREQ_PIN_B : Fld := ⟨0x058, 8, 4⟩
def Gpio.GPIO_DREQ_POL_B : Fld := ⟨0x058, 12, 1⟩
def Gpio.GPIO_DREQ_EN_B : Fld := ⟨0x058, 13, 1⟩
def Gpio.PIN_CFG_OD : Fld := ⟨0x100, 0, 1⟩
def Gpio.PIN_CFG_PULL : Fld := ⟨0x100, 1, 2⟩
def Gpio.PIN_CFG_IRQ_MODE : Fld := ⟨0x100, 3, 3⟩
def Gpio.PIN_CFG_ALT : Fld := ⟨0x100, 8, 1⟩
def Gpio.PIN_CFG_FILTER : Fld := ⟨0x100, 12, 4⟩

/-- Access rows of the page kind Gpio. -/
def Gpio.rows : List Row :=
  [⟨0x040, 0, 1, 0, 16, .rd, 0, .any⟩,
   ⟨0x044, 0, 1, 0, 16, .fr, 0, .any⟩,
   ⟨0x048, 0, 1, 0, 16, .pu, 0, .any⟩,
   ⟨0x04c, 0, 1, 0, 16, .pu, 0, .any⟩,
   ⟨0x050, 0, 1, 0, 16, .pu, 0, .any⟩,
   ⟨0x054, 0, 1, 0, 16, .fr, 0, .any⟩,
   ⟨0x058, 0, 1, 0, 4, .fr, 0, .any⟩,
   ⟨0x058, 0, 1, 4, 1, .fr, 0, .any⟩,
   ⟨0x058, 0, 1, 5, 1, .fr, 0, .any⟩,
   ⟨0x058, 0, 1, 8, 4, .fr, 0, .any⟩,
   ⟨0x058, 0, 1, 12, 1, .fr, 0, .any⟩,
   ⟨0x058, 0, 1, 13, 1, .fr, 0, .any⟩,
   ⟨0x100, 4, 16, 0, 1, .fr, 0, .any⟩,
   ⟨0x100, 4, 16, 1, 2, .fr, 0, .reject 0 2⟩,
   ⟨0x100, 4, 16, 3, 3, .fr, 0, .reject 0 5⟩,
   ⟨0x100, 4, 16, 8, 1, .fr, 0, .any⟩,
   ⟨0x100, 4, 16, 12, 4, .fr, 0, .any⟩]

/-! ### Fields of the page kind Test -/

def Test.TEST_STAT_PT_MODE : Fld := ⟨0x040, 0, 1⟩
def Test.TEST_STAT_PRBS_ON : Fld := ⟨0x040, 1, 1⟩
def Test.TEST_STAT_LOCK_SYNC : Fld := ⟨0x040, 2, 1⟩
def Test.TEST_STAT_LOCK_DRX0 : Fld := ⟨0x040, 3, 1⟩
def Test.TEST_STAT_LOCK_DRX1 : Fld := ⟨0x040, 4, 1⟩
def Test.PRBS_CTL_PRBS_EN : Fld := ⟨0x044, 0, 1⟩
def Test.PRBS_CTL_CNT_CLR : Fld := ⟨0x044, 1, 1⟩
def Test.PRBS_ERR_DRX0 : Fld := ⟨0x048, 0, 16⟩
def Test.PRBS_ERR_DRX1 : Fld := ⟨0x048, 16, 16⟩
def Test.SYNC_ERR_SYNC : Fld := ⟨0x04c, 0, 16⟩

/-- Access rows of the page kind Test. -/
def Test.rows : List Row :=
  [⟨0x040, 0, 1, 0, 1, .rd, 0, .any⟩,
   ⟨0x040, 0, 1, 1, 1, .rd, 0, .any⟩,
   ⟨0x040, 0, 1, 2, 1, .rd, 0, .any⟩,
   ⟨0x040, 0, 1, 3, 1, .rd, 0, .any⟩,
   ⟨0x040, 0, 1, 4, 1, .rd, 0, .any⟩,
   ⟨0x044, 0, 1, 0, 1, .fr, 0, .any⟩,
   ⟨0x044, 0, 1, 1, 1, .pu, 0, .any⟩,
   ⟨0x048, 0, 1, 0, 16, .rd, 0, .any⟩,
   ⟨0x048, 0, 1, 16, 16, .rd, 0, .any⟩,
   ⟨0x04c, 0, 1, 0, 16, .rd, 0, .any⟩]

end Sys2Proof.Machine
end

