-- ==== Sys2Proof/Machine/Pages.lean ====
section
/-! DEFINITION. The pages of the register window (spec/02 R31), their common header (R33 to R42), their access rows and
the reset word of every register. -/

namespace Sys2Proof.Machine

/-- The kinds of page (R31). -/
inductive Blk where
  | sys | irq | vig | guard | clk | rfe | arr | acq | code | trkg | chan | meas | cdl | time | cal | calE | evt | eth | sw
  | ptp | radio | radT | dma | dmaC | mem | flash | annal | dump | power | spi | can | uart | i2c | gpio | core | test
  deriving DecidableEq, Repr

/-- The twelve islands (spec/01 R13). -/
inductive Island where
  | rf | corr | acq | arr | time | net | radio | core | fabric | flash | superv | power
  deriving DecidableEq, Repr

/-- Page number to kind and instance; `none` where R32 gives a bus error. -/
def pageInfo (p : Nat) : Option (Blk × Nat) :=
  if p = 0x000 then some (.sys, 0) else if p = 0x001 then some (.irq, 0)
  else if p = 0x002 then some (.vig, 0) else if p = 0x003 then some (.vig, 1)
  else if p = 0x004 then some (.guard, 0)
  else if 0x008 ≤ p ∧ p ≤ 0x00B then some (.clk, p - 0x008)
  else if 0x010 ≤ p ∧ p ≤ 0x013 then some (.rfe, p - 0x010)
  else if p = 0x018 then some (.arr, 0)
  else if p = 0x020 ∨ p = 0x021 then some (.acq, p - 0x020)
  else if p = 0x028 then some (.code, 0) else if p = 0x030 then some (.trkg, 0)
  else if p = 0x040 then some (.meas, 0) else if p = 0x048 then some (.cdl, 0)
  else if p = 0x050 then some (.time, 0) else if p = 0x051 then some (.cal, 0)
  else if p = 0x052 ∨ p = 0x053 then some (.calE, p - 0x052)
  else if p = 0x054 then some (.evt, 0)
  else if p = 0x060 ∨ p = 0x061 then some (.eth, p - 0x060)
  else if p = 0x062 then some (.sw, 0) else if p = 0x063 then some (.ptp, 0)
  else if p = 0x070 then some (.radio, 0) else if p = 0x071 then some (.radT, 0)
  else if p = 0x080 then some (.dma, 0)
  else if p = 0x081 ∨ p = 0x082 then some (.dmaC, p - 0x081)
  else if p = 0x090 then some (.mem, 0) else if p = 0x091 then some (.flash, 0)
  else if p = 0x092 then some (.annal, 0) else if p = 0x093 then some (.dump, 0)
  else if p = 0x0A0 then some (.power, 0) else if p = 0x0B0 then some (.spi, 0)
  else if p = 0x0B1 ∨ p = 0x0B2 then some (.can, p - 0x0B1)
  else if 0x0B3 ≤ p ∧ p ≤ 0x0B5 then some (.uart, p - 0x0B3)
  else if p = 0x0B6 then some (.i2c, 0) else if p = 0x0B7 then some (.gpio, 0)
  else if 0x0C0 ≤ p ∧ p ≤ 0x0C5 then some (.core, p - 0x0C0)
  else if p = 0x0F0 then some (.test, 0)
  else if 0x100 ≤ p ∧ p ≤ 0x11F then some (.chan, p - 0x100)
  else none

/-- The page whose header governs a page: itself, or the owner of an array page. -/
def ownerPage (p : Nat) : Nat :=
  if p = 0x052 ∨ p = 0x053 then 0x051 else if p = 0x071 then 0x070
  else if p = 0x081 ∨ p = 0x082 then 0x080 else if 0x100 ≤ p ∧ p ≤ 0x11F then 0x030 else p

/-- Array pages owned by a page, as an interval of page numbers. -/
def arrayPages (p : Nat) : List Nat :=
  if p = 0x051 then [0x052, 0x053] else if p = 0x070 then [0x071] else if p = 0x080 then [0x081, 0x082]
  else if p = 0x030 then (List.range 32).map (0x100 + ·) else []

/-- The island that owns a page (R13). -/
def pageIsland (p : Nat) : Island :=
  if 0x010 ≤ p ∧ p ≤ 0x013 then .rf
  else if p = 0x028 ∨ p = 0x030 ∨ p = 0x040 ∨ 0x100 ≤ p then .corr
  else if p = 0x020 ∨ p = 0x021 then .acq
  else if p = 0x018 ∨ p = 0x048 then .arr
  else if 0x050 ≤ p ∧ p ≤ 0x054 then .time
  else if 0x060 ≤ p ∧ p ≤ 0x063 then .net
  else if p = 0x070 ∨ p = 0x071 then .radio
  else if 0x0C0 ≤ p ∧ p ≤ 0x0C5 then .core
  else if p = 0x091 ∨ p = 0x092 then .flash
  else if 0x002 ≤ p ∧ p ≤ 0x004 then .superv
  else if (0x008 ≤ p ∧ p ≤ 0x00B) ∨ p = 0x0A0 then .power
  else .fabric

/-- Does PAGE_CTL.EN reset to 1 (R34)? -/
def enReset (p : Nat) : Bool :=
  p ≤ 0x004 || (0x008 ≤ p && p ≤ 0x00B) || (0x050 ≤ p && p ≤ 0x054) || p == 0x080 || (0x090 ≤ p && p ≤ 0x093) ||
    p == 0x0A0 || p == 0x0B0 || (0x0C0 ≤ p && p ≤ 0x0C5)

/-- PAGE_FEAT of a page, as the owning chapters state it. -/
def pageFeat (b : Blk) (inst : Nat) : Nat :=
  let f (sh ar fz rs : Nat) := sh + 2 * ar + 4 * fz + 8 * rs
  match b with
  | .sys | .irq | .vig | .guard | .mem | .flash | .annal | .dump | .power => f 0 0 0 0
  | .evt => f 0 0 0 0
  | .clk => f (b2n (inst == 3)) 0 0 0
  | .rfe => f 1 0 1 1 + 16 * b2n (inst < 2) + 32 * b2n (inst % 2 == 0) + 256 * (inst % 2) + 4096 * (inst / 2)
  | .arr => f 1 0 1 1
  | .acq => if inst = 0 then f 1 0 1 1 + 16 else f 0 0 1 1
  | .code => f 0 0 1 1
  | .trkg => f 0 1 1 1 + 16
  | .meas => f 1 0 1 1
  | .cdl => f 0 0 0 1
  | .time => f 1 0 0 0
  | .cal => f 0 1 0 0
  | .eth => f 0 0 0 1
  | .sw => f 1 0 0 1
  | .ptp => f 1 0 1 1
  | .radio => f 1 1 1 1
  | .dma => f 0 1 1 1
  | .spi | .can | .uart | .i2c | .gpio | .test => f 0 0 0 1
  | .core => f 0 0 1 1
  | .chan | .calE | .radT | .dmaC => 0

/-- Does the page have a common header (R31)? -/
def hasHeader (b : Blk) : Bool :=
  match b with
  | .chan | .calE | .radT | .dmaC => false
  | _ => true

/-- The access rows of a page and the offset to look up in them: array entries repeat at their stride. -/
def pageRows (b : Blk) (inst off : Nat) : List Row × Nat :=
  let inEntry (base stride count : Nat) : Bool := base ≤ off && off < base + stride * count
  match b with
  | .sys => (Sys.rows, off) | .irq => (Irq.rows, off) | .vig => (Vig.rows, off)
  | .guard => if inEntry 0x100 0x20 23 then (GuardG.rows, (off - 0x100) % 0x20) else (GuardP.rows, off)
  | .clk =>
    let blocks := if inst = 2 then 3 else 2
    if inEntry 0x100 0x40 blocks then (Pll.rows, (off - 0x100) % 0x40)
    else (if inst = 0 then Clk0.rows else if inst = 1 then Clk1.rows else if inst = 3 then Clk3.rows else [], off)
  | .rfe =>
    let lant := (0x0C0 ≤ off && off ≤ 0x0C7) || (0x0D8 ≤ off && off ≤ 0x0DB)
    let bias := 0x110 ≤ off && off ≤ 0x117
    if (lant && 2 ≤ inst) || (bias && inst % 2 == 1) then ([], off) else (Rfe.rows, off)
  | .arr => (Arr.rows, off)
  | .acq => if inst = 1 ∧ off < 0x060 then ([], off) else (Acq.rows, off)
  | .code => (Code.rows, off) | .trkg => (Trkg.rows, off) | .chan => (Ch.rows, off % 0x100)
  | .meas => (Meas.rows, off) | .cdl => (Cdl.rows, off)
  | .time => if inEntry 0x100 0x80 4 then (TsR.rows, (off - 0x100) % 0x80) else (TimeP.rows, off)
  | .cal => (CalP.rows, off) | .calE => (CalE.rows, off % 0x20)
  | .evt => if inEntry 0x100 0x20 8 then (EvtI.rows, (off - 0x100) % 0x20) else (EvtP.rows, off)
  | .eth => (Eth.rows, off) | .sw => (Sw.rows, off)
  | .ptp => if inEntry 0x100 0x40 4 then (PtpD.rows, (off - 0x100) % 0x40) else (PtpP.rows, off)
  | .radio => (RadP.rows, off) | .radT => (RadT.rows, off)
  | .dma => (DmaP.rows, off) | .dmaC => (DmaC.rows, off % 0x80)
  | .mem => (Mem.rows, off) | .flash => (Flash.rows, off) | .annal => (Annal.rows, off) | .dump => (Dump.rows, off)
  | .power => (Power.rows, off) | .spi => (Spi.rows, off) | .can => (Can.rows, off) | .uart => (Uart.rows, off)
  | .i2c => (I2c.rows, off) | .gpio => (Gpio.rows, off) | .core => (CoreP.rows, off) | .test => (Test.rows, off)

/-- Reset word of a header register (R33 to R42). -/
def headerReset (p : Nat) (b : Blk) (inst off : Nat) : Nat :=
  if off = 0x000 then (if b = .vig then p else (p - inst) + 2 ^ 16 * inst)
  else if off = 0x004 then 0x100
  else if off = 0x008 then pageFeat b inst
  else if off = 0x00C ∨ off = 0x010 then b2n (enReset p)
  else 0

/-- Guard reset settings of R381: filter, lo, hi, timeout, action. -/
def guardReset (g : Nat) : Nat × Int × Int × Nat × Nat :=
  if g < 8 then (0, -0x8000, 0x7FFF, 0, 2)
  else if g = 8 then (4, 3600, 5700, 0, 3)
  else if g = 9 ∨ g = 10 then (16, 80, 2400, 0, 2)
  else if g = 11 then (8, -180, 460, 0, 3)
  else if g = 12 then (16, -200, 280, 0, 2)
  else if g = 13 then (1, -0x8000, 8, 16, 2)
  else if g ≤ 17 then (1, -0x8000, 0x7FFF, 0, 2)
  else if g = 18 then (4, 200, 1600, 0, 2)
  else if g ≤ 21 then (1, -0x8000, 0x7FFF, 0, 2)
  else (4, 300, 360, 0, 1)

/-- Working N and R of a PLL after reset (spec/15 R352). -/
def pllDivReset (inst k : Nat) : Nat :=
  let (n, r) :=
    if inst = 0 then (if k = 0 then (64, 1) else (25, 2))
    else if inst = 1 then (16368, 125)
    else if inst = 2 then (if k = 0 then (154, 1) else if k = 1 then (115, 1) else (0, 0))
    else (if k = 0 then (80, 1) else (16, 1))
  n + 2 ^ 16 * r

/-- Expected count of a PLL after reset (spec/15 R357), the nearest whole number (DESIGN CHOICE, log entry 12). -/
def pllExpectReset (inst k : Nat) : Nat :=
  if inst = 0 then (if k = 0 then 16384 else 3200)
  else if inst = 1 then 33522
  else if inst = 2 then (if k = 0 then 40331 else if k = 1 then 30117 else 0)
  else (if k = 0 then 20480 else 4096)

/-- The CFG_PWR strap, and whether full class is in force: requested and granted (spec/17 R386; DESIGN CHOICE, log entry 6). -/
def strapFull : Bool := (Config.fuse 8).testBit 2
def grantFull : Bool := strapFull && (Config.fuse 9).testBit 0

/-- CPUFEAT words and other constants are supplied by the owning chapters; factory and fuse words are opaque (DESIGN CHOICE, log entry 6). -/
def resetFix (b : Blk) (inst off w : Nat) : Nat :=
  match b with
  | .rfe =>
    if off = 0x040 ∧ inst % 2 = 1 then 0x381C
    else if off = 0x0C4 ∧ inst % 2 = 1 then 0x2330CC
    else if off = 0x0D8 then Config.factory (0x10000 * (0x10 + inst) + off) % 2 ^ 16
    else w
  | .arr => if 0x100 ≤ off ∧ off < 0x200 ∧ (off / 4) % 8 = (off / 32) % 4 then 0x4000 else w
  | .meas =>
    if (0x0C0 ≤ off ∧ off < 0x0D8) then Config.factory (0x400000 + off) % 2 ^ 20 else w
  | .time => if 0x084 ≤ off ∧ off < 0x0C0 ∧ off % 8 = 4 then (if off < 0x0A4 then 64000000 else 6400) else w
  | .eth =>
    if off = 0x048 then Config.fuse (4 + inst) % 2 ^ 32
    else if off = 0x04C then Config.fuse (4 + inst) / 2 ^ 32 % 2 ^ 16
    else if 0x050 ≤ off ∧ off < 0x068 then Config.factory (0x600000 + 0x1000 * inst + off) % 2 ^ 32
    else w
  | .sw =>
    if off = 0x060 then 0x80077001
    else if off = 0x0D0 then Config.fuse 6 % 2 ^ 32 else if off = 0x0D4 then Config.fuse 6 / 2 ^ 32 % 2 ^ 16
    else if off = 0x0D8 then Config.fuse 7 % 2 ^ 32 else if off = 0x0DC then Config.fuse 7 / 2 ^ 32 % 2 ^ 16
    else w
  | .ptp =>
    -- CLOCK_ID: MAC2 OUI, 0xFF, 0xFE, MAC2 extension (R232); octet 0 is the most significant
    let m := Config.fuse 6 % 2 ^ 48
    let id := (m / 2 ^ 24) * 2 ^ 40 + 0xFFFE * 2 ^ 24 + m % 2 ^ 24
    if off = 0x044 then id % 2 ^ 32 else if off = 0x048 then id / 2 ^ 32 else w
  | .power =>
    if off = 0x040 then b2n strapFull + 2 * b2n grantFull + 4 * b2n (strapFull && !grantFull)
    else if off = 0x048 then (if grantFull then 2000 else 750)
    else w
  | .core =>
    if off = 0x0C0 then 0x00010030 + inst else if off = 0x0C4 then 0x08854545 else if off = 0x0C8 then 0x002407FF
    else if off = 0x0CC then 0x00000320 else w
  | .radio => if off = 0x064 then w + 2 ^ RadP.RAD_STATE_CLASS.lo * b2n grantFull else if 0x0C0 ≤ off ∧ off < 0x0F4 then Config.factory (0x700000 + off) % 2 ^ 32 else w
  | .radT =>
    if 0x200 ≤ off ∧ off < 0x280 then
      Config.factory (0x710000 + off) % 2 ^ 12 + 2 ^ 16 * ((256 - 17 + (off - 0x200) / 4) % 256)
    else w
  | .annal => if off = 0x080 + 28 then 32 else if off = 0x080 + 32 then 8 else w
  | .clk =>
    let k := (off - 0x100) / 0x40
    let o := (off - 0x100) % 0x40
    if off < 0x100 ∨ 0x200 ≤ off then w
    else if o = 0 then (if inst = 2 ∧ k = 2 then w - 4 else w)
    else if o = 8 then pllDivReset inst k
    else if o = 0x10 then pllExpectReset inst k
    else w
  | .guard =>
    if 0x100 ≤ off ∧ off < 0x3E0 then
      let (f, lo, hi, tmo, act) := guardReset ((off - 0x100) / 0x20)
      let o := (off - 0x100) % 0x20
      if o = 0 then f + 256 * act else if o = 4 then ofSigned 16 lo else if o = 8 then ofSigned 16 hi
      else if o = 12 then tmo else w
    else w
  | .sys =>
    if off = 0x044 then Config.fuse 8 % 8
    else if 0x190 ≤ off ∧ off < 0x1A0 then Config.factory off % 2 ^ 32
    else if off = 0x068 then Config.fuse 3 % 2 + 256 * (Config.fuse 3 / 2 % 128)
    else if 0x070 ≤ off ∧ off < 0x080 then Config.fuse 0 / 2 ^ (8 * (off - 0x070)) % 2 ^ 32
    else if 0x080 ≤ off ∧ off < 0x0A0 then Config.fuse 1 / 2 ^ (8 * (off - 0x080)) % 2 ^ 32
    else if 0x0A0 ≤ off ∧ off < 0x0C0 then Config.fuse 2 / 2 ^ (8 * (off - 0x0A0)) % 2 ^ 32
    else w
  | .test => if off = 0x040 then b2n (decide (Config.fuse 8 % 4 = 3)) else w
  | _ => w

/-- The reset word of the register at a window offset (page × 0x1000 + offset). -/
def resetNat (a : Nat) : Nat :=
  let p := a / 0x1000
  let off := a % 0x1000
  match pageInfo p with
  | none => 0
  | some (b, inst) =>
    if hasHeader b && off < 0x040 then headerReset p b inst off
    else
      let (rows, o) := pageRows b inst off
      resetFix b inst off (resetOf (fieldsAt rows o))

/-- The reset word of a register as a word. -/
def resetWord (a : Nat) : Word := BitVec.ofNat 32 (resetNat a)

end Sys2Proof.Machine
end

