-- ==== Sys2Proof/Machine/State.lean ====
section
/-! DEFINITION. The state of the LU-6144: plain data, holding every piece of state spec/ gives the block, the queue of
waiting commands, and the state right after reset. -/

namespace Sys2Proof.Machine

/-- Why the machine would stop with a fault.  No meaning of this model raises one: every command has an effect. -/
inductive Fault where
  /-- Raised by no meaning; kept because the interface asks for a fault type.  Safe: it is never answered. -/
  | unreachable
  deriving DecidableEq, Repr

/-- Why a command is refused. -/
inductive Refusal where
  /-- Raised by the dispatch arm of a command that has no meaning yet.  Safe: the model stops. -/
  | notModelled (mnemonic : String)
  deriving DecidableEq, Repr

/-- The answer of the last access (the model's own field, DESIGN CHOICE, log entry 9): who asked, the words read, bus error. -/
structure Resp where
  req   : Nat
  words : List Word
  err   : Bool
  deriving DecidableEq, Repr

/-- An access held while a soft reset runs or its island is gated off, or behind an older one (spec/02 R45, spec/01 R17, R27): requester
(16 + c for the instruction at which core c waits, 12 for the WRITE of the host SPI target, 13 for a DMA burst, whose value is the
channel), address, value and bytes (0: the fabric has ended it, R28). -/
structure Held where
  req   : Nat
  addr  : Nat
  write : Bool
  val   : Nat
  n     : Nat
  deriving DecidableEq, Repr

/-- An armed COMMIT (spec/02 R38): the window offset of the COMMIT register, the generation, the requester (R461), the
base count at which it arrived (R196). -/
structure Armed where
  key : Nat
  gen : Nat
  req : Nat
  at_ : Nat
  deriving DecidableEq, Repr



/-- The four calibrations of a chain (spec/03 R57). -/
inductive CalKind where
  | dc | filter | image | osc
  deriving DecidableEq, Repr

/-- A spectral average in progress (spec/03 R70, R71): records written, buffer, gain history, first sample of its next block,
and the first samples of the update periods skipped since it began (R58). -/
structure Mon where
  seq     : Nat
  toB     : Bool
  gainLo  : Nat
  gainHi  : Nat
  clip    : Bool
  sat     : Bool
  at_     : Nat
  skips   : List Nat
  deriving DecidableEq, Repr

/-- A sample in the 16-sample delay line (spec/03 R49 step 8): I and Q of step 7, SAMPLE_VALID, and whether it is blanked. -/
structure PathSmp where
  i     : Int
  q     : Int
  valid : Bool
  zero  : Bool
  deriving DecidableEq, Repr

/-- The digital path of a chain (spec/03 R49): the DC estimates of I and Q (R64), samples that the blanker still zeroes (R65),
the delay line with the oldest sample first, and the state of the four notches (R67). -/
structure Path where
  dcI   : Int
  dcQ   : Int
  hold  : Nat
  line  : List PathSmp
  notch : List (Int × Int)
  deriving DecidableEq, Repr

/-- The digital path after reset: nothing in it. -/
def Path.init : Path := ⟨0, 0, 0, List.replicate 16 ⟨0, 0, false, false⟩, List.replicate 4 (0, 0)⟩

/-- State of a receive chain beside its registers (spec/03 R52 to R78): calibrations requested and running (periods
left), the power-up wait (periods left) and whether a freeze holds it, samples valid but for R51's other causes, consecutive
ticks at a gain limit, the blanking threshold from the last power measurement (none: nothing is blanked), blanking suspended,
GAIN_CTL and NOTCH_FREQ writes since the hand-over, notch release counts, a loss of lock of the band LO not yet reported, the
spectral average, the bias switch, its samples within limits since a retry and the tick of a SHORT that waits for its retry, a
freeze having ended a calibration (samples are valid again from the next update tick, R78), the calibration ended in this
period by a freeze or disable, the die temperature at the last OSC calibration (0.25 °C), the digital path, and the chain's
output over the last period: first sample and values. -/
structure Chain where
  calQ    : List CalKind
  calRun  : Option (CalKind × Nat)
  wait    : Option Nat
  waitHeld : Bool
  valid   : Bool
  lim     : Nat
  thr     : Option Nat
  satSkip : Bool
  gainWr  : Bool
  freqWr  : List Nat
  rel     : List Nat
  lostLo  : Bool
  mon     : Mon
  biasOn  : Bool
  biasRun : Nat
  shortAt : Option Nat
  back    : Bool
  cut     : Option CalKind
  tOsc    : Int
  path    : Path
  outAt   : Nat
  out     : List (Int × Int)
  deriving DecidableEq, Repr

/-- A chain as the reset leaves it. -/
def Chain.init : Chain :=
  ⟨[], none, none, false, false, 0, none, false, false, [], [0, 0, 0, 0], false, ⟨0, false, 63, 0, false, false, 0, []⟩,
    false, 0, none, false, none, 0, Path.init, 0, []⟩

/-- A VCO band calibration of a band LO (spec/03 R59): the chains whose command it is, requested by AUTO_OSC (R61), periods
elapsed once it runs.  The chains that take part are those enabled and not frozen (R466). -/
structure OscCal where
  by_     : List Nat
  auto    : Bool
  elapsed : Option Nat
  deriving DecidableEq, Repr

/-- A capture in progress (spec/04 R81 to R89): sequence number, chains, header block, sample units (1,024) per chain,
ring mode, buffer base, index of its first sample, samples per chain after which it ends, TRUNCATED, OVERRUN, LATE, SYN_S
switches seen at its start, and the gain history (chain, sample, gain), newest first. -/
structure Snap where
  seq    : Nat
  chains : Nat
  ofs    : Nat
  len    : Nat
  ring   : Bool
  base   : Nat
  first  : Nat
  stop   : Option Nat
  trunc  : Bool
  ovr    : Bool
  late   : Bool
  syn    : Nat
  gains  : List (Nat × Nat × Nat)
  deriving DecidableEq, Repr

/-- Tag of a 64 KB block (spec/04 R84): CAP_SEQ of the capture that last claimed it, writing, and that capture's sample
units per chain. -/
structure Tag where
  seq     : Nat
  writing : Bool
  len     : Nat
  deriving DecidableEq, Repr

/-- A running job (spec/04 R93 to R97): its queue slot and the address of its descriptor, its descriptor bytes, the capture header it read, an ABORT that
waits for the end of a freeze, and whether a FLUSH has moved Q_HEAD past it (`flushAfter`: with that ABORT). -/
structure Job where
  slot       : Nat
  at_        : Nat
  desc       : List Nat
  hdr        : List Nat
  abort      : Bool
  flushed    : Bool
  flushAfter : Bool
  deriving DecidableEq, Repr

/-- Phases and settings of a narrowband channel at a group commit's sample, until the group start at which it takes the commit (spec/05
R130, spec/06 R139): sample, carrier phase, chip index and fraction, period count, that of the interval's start, CARR_FREQ, CODE_RATE, generation,
samples of the last load or CARR_STEP and of the last CODE_STEP. -/
structure ChanWas where
  at_    : Nat
  carr   : BitVec 72
  chip   : Nat
  frac   : Nat
  period : BitVec 32
  per0   : Nat
  freq   : Nat
  rate   : Nat
  gen    : Nat
  loadAt : Nat
  codeAt : Option Nat
  deriving DecidableEq, Repr

/-- State of a tracking channel beside its registers (spec/05 R114 to R128): the sample index its phases belong to,
carrier phase (32 cycles, 40 fraction bits), chip index, chip fraction (2^-40) and period count, the nine accumulators,
samples and invalid samples of the interval, its first sample index and period, flags, sample-clock switches seen at its
start, a record of this channel lost; and for the measurement latch (spec/06 R145): invalid samples since the start and up
to the last written block, samples of the last start, load or CARR_STEP, CODE_STEP and hand-over, and the sample at which RUN went to 0 (R140), and what it was
before a group start that lies ahead; the sample at which a write of CH_CTL arrived and the word before it (spec/19 R439). -/
structure Chan where
  pos     : Nat
  carr    : BitVec 72
  chip    : Nat
  frac    : Nat
  period  : BitVec 32
  acc     : List (Int × Int)
  nsamp   : Nat
  inval   : Nat
  first   : Nat
  period0 : Nat
  started : Bool
  mid     : Bool
  syn     : Nat
  lost    : Bool
  invTot  : Nat
  invBase : Nat
  startAt : Nat
  loadAt  : Nat
  codeAt  : Option Nat
  handAt  : Option Nat
  stopAt  : Option Nat
  was     : Option ChanWas
  moved   : Option (Nat × Nat)
  deriving DecidableEq, Repr

/-- A channel entry after reset. -/
def Chan.init : Chan :=
  ⟨0, 0, 0, 0, 0, List.replicate 9 (0, 0), 0, 0, 0, 0, false, false, 0, false, 0, 0, 0, 0, none,
    none, none, none, none⟩

/-- A measurement latch whose block is being written (spec/06 R138 to R145): latching sample, its instant (1/64 ticks),
requested instant, LATE, MANUAL, other header flags, latches missed before it, header bytes from 0x18 to NENT and from behind it up,
entries by channel, and the invalid samples counted so far by channel in RUN. -/
structure Latch where
  m      : Nat
  u      : Nat
  treq   : Nat
  late   : Bool
  manual : Bool
  flags  : Nat
  missed : Nat
  before : List Nat
  after  : List Nat
  ents   : List (Nat × List Nat)
  invs   : List (Nat × Nat)
  deriving DecidableEq, Repr

/-- What a member last said of itself in a STATUS block (spec/07 R165). -/
structure MemberSt where
  state : Nat
  iso   : Bool
  sends : Bool
  valid : Nat
  deriving DecidableEq, Repr

/-- State of the Cindoyth link beside its registers (spec/07 R158 to R176): GSC minus the correlator's sample count;
consecutive good frames, and which of the last 1,024 frames failed their CRC, newest first; SYNC_LOCK; GSC loaded; the sample
synthesizers and the band LOs on the upstream clock; isolated; heralding after SUCCEED; CDL_CLK_OUT driven; RTT samples summed
and counted toward the next DLL_SET, and the downstream neighbour aligned; epochs waiting (GSC, requested instant of a Herald's
own); a message in MSG_RX not yet read; next PING and EPOCH sequence numbers; members 0 to 7; frames on CDL_SYNC_OUT by the first
sample of their slot; what was last sent on the UTX lanes (a block and its data); GSC of the next sample frame. -/
structure CdlSt where
  gscOfs   : Nat
  good     : Nat
  crcHist  : List Bool
  synced   : Bool
  loaded   : Bool
  dllRef   : Bool
  loRef    : Bool
  isolated : Bool
  heralds  : Bool
  clkOut   : Bool
  rttSum   : Int
  rttCnt   : Nat
  tracks   : Bool
  epochs   : List (Nat × Option Nat)
  msgNew   : Bool
  pingSeq  : Nat
  epochSeq : Nat
  members  : List MemberSt
  sent     : List (Nat × BitVec 128)
  blockOut : List Nat
  smpNext  : Option Nat
  deriving DecidableEq, Repr

/-- The link after reset. -/
def CdlSt.init : CdlSt :=
  ⟨0, 0, [], false, false, false, false, false, false, false, 0, 0, false, [], false, 0, 0,
   List.replicate 8 ⟨0, false, false, 0⟩, [], [], none⟩

/-- What beams and elements rest on at a sample (spec/07 R169, R170): beams produced, elements whose member can be present, the
SAMPLE_VALID bits of positions 0 to 3 (four bits each), and the working ARR_CTL, ALIGN_DELAY and weights. -/
structure ArrView where
  on      : Bool
  up      : Nat
  valid   : Nat
  ctl     : Word
  delay   : Nat
  weights : List Word
  deriving DecidableEq, Repr

/-- State of the array beside its registers (spec/07 R169 to R173): sample frames of members (position, GSC, data); what beams rested
on before each change, newest first, with the first sample after the change; GSC from which the covariance window in progress
counts; windows since COV_EN was set; samples up to which clamped components are counted and ELEM_STAT is settled. -/
structure ArrSt where
  frames  : List (Nat × Nat × List Nat)
  views   : List (Nat × ArrView)
  covFrom : Nat
  covSeq  : Nat
  satTo   : Nat
  seen    : Nat
  deriving DecidableEq, Repr

/-- Value of a timescale (spec/08 R183): seconds, nanoseconds, fraction in 2^-48 ns. -/
structure TsVal where
  sec  : BitVec 48
  ns   : BitVec 30
  frac : BitVec 48
  deriving DecidableEq, Repr

/-- A stretch of a timescale that has ended (spec/08 R186): the tick at which a step or a new INC_NOW ended it, the value there
before the change (2^-48 ns), and the increment until then. -/
structure TsSeg where
  til   : Nat
  total : Nat
  inc   : Nat
  deriving DecidableEq, Repr

/-- State of a timescale beside its registers (spec/08 R184 to R190): TARGET, INC written since the last take, the armed
step (mode, value), tick of the last renewal, tick of expiry, ERR_BOUND at expiry, whole milliseconds of HOLDOVER already
published, tick of the last step applied, and the stretches that ended lately, the newest first. -/
structure TsSt where
  target  : Nat
  incWr   : Bool
  stMode  : Nat
  stVal   : Nat
  renewAt : Nat
  holdAt  : Nat
  holdBnd : Nat
  holdMs  : Nat
  stepAt  : Option Nat
  past    : List TsSeg
  deriving DecidableEq, Repr

/-- A pending occurrence (spec/08 R194 to R198): its index, the tick and 1/64 part of its instant once converted, the
tick of its own instant, and whether it is converted, dispatched, dropped at dispatch, late. -/
structure Occ where
  k    : Nat
  b    : Nat
  f    : Nat
  own  : Nat
  conv : Bool
  disp : Bool
  drop : Bool
  late : Bool
  deriving DecidableEq, Repr

/-- A calendar action dispatched to another island and not yet carried out there (spec/01 R21, R22, spec/08 R197, R201): entry, ACTION,
ARG, the entry's own instant, the instant at which it fires (base-counter values), and whether it fires late. -/
structure Action where
  entry : Nat
  act   : Nat
  arg   : Nat
  own   : Nat
  fire  : Nat
  late  : Bool
  deriving DecidableEq, Repr

/-- State of a calendar entry beside its registers: the pending occurrence, exact instant (1/64 ticks) of the last one
fired, and occurrences fired and skipped since the take. -/
structure Entry where
  occ  : Option Occ
  last : Option Nat
  used : Nat
  deriving DecidableEq, Repr

/-- A pulse span on a pad (spec/08 R202), in 1/64 ticks. -/
structure Span where
  pad  : Nat
  from_ : Nat
  to_   : Nat
  deriving DecidableEq, Repr

/-- State of an event input beside its registers (spec/08 R203, R205): time-stamp of its last capture (1/64 ticks), and
the open and close of its current and previous window. -/
structure EvtSt where
  last : Option Nat
  cur  : Option (Nat × Nat)
  prev : Option (Nat × Nat)
  deriving DecidableEq, Repr

/-- A transmit slot being sent (spec/09 R213, R217): slot address, STATUS so far, header FLAGS, PTP
transport, ports, the inserted
egress point (1/64 ticks) of a one-step message, and the PTP message octets, empty for another frame. -/
structure TxSt where
  addr   : Nat
  status : Nat
  flags  : Nat
  transport : Nat
  ports  : List Nat
  egress : Option Nat
  msg    : List Nat
  deriving DecidableEq, Repr

/-- PTP engine state of a port in a domain slot (spec/09 R221): t1 + correction and t2 of the latest Sync;
a two-step Sync waiting for its Follow_Up (sequenceId, arrival in 1/64 ticks and in each timescale, correction); t3 of the port's own Delay_Req (portIdentity
with sequenceId, time); egress of its own Pdelay_Req; a two-step Pdelay_Resp waiting for its follow-up (the same key,
t4 − t1 − correction + t2).  Times are in 2^-16 ns. -/
structure PtpPort where
  sync   : Option (Int × Int)
  wait   : Option (Nat × Nat × List Int × Int)
  t3     : Option (Nat × Int)
  pd1    : Option (Nat × Int)
  pdWait : Option (Nat × Int)
  deriving DecidableEq, Repr

/-- State of a domain slot beside its registers (spec/09 R221 to R226): its ports; seeding samples and their sum;
the candidate run (length, sum, sign) and, while frozen, runs near the held MPD and away from MPD_NEW (length, sum);
ACCEPT and RESEED waiting; per successor the tick of its last Announce and Announces in its present run; whether an active
master is chosen and has changed since the last sample. -/
structure PtpSlot where
  ports   : List PtpPort
  seedN   : Nat
  seedSum : Int
  candN   : Nat
  candSum : Int
  candPos : Bool
  nearN   : Nat
  farN    : Nat
  farSum  : Int
  accept  : Bool
  reseed  : Bool
  ann     : List (Option (Nat × Nat))
  active  : Bool
  changed : Bool
  deriving DecidableEq, Repr

/-- A domain slot after reset. -/
def PtpSlot.init : PtpSlot :=
  ⟨List.replicate 2 ⟨none, none, none, none, none⟩, 0, 0, 0, 0, false, 0, 0, 0, false, false, List.replicate 8 none, false, false⟩

/-- Egress of an external port (spec/09 R211): frames of queues 0 to 3, each oldest first, the queue of 0 to 2 served last,
and the tick (rounded up) at which the frame on the wire and its gap are over. -/
structure EgressQ where
  q    : List (List (List Nat))
  turn : Nat
  free : Nat
  deriving DecidableEq, Repr

/-- An empty egress. -/
def EgressQ.init : EgressQ := ⟨List.replicate 4 [], 2, 0⟩

/-- State of the network island beside its registers (spec/09): learned addresses (MAC, port, tick of last use), a frame
lost to a full receive ring, the last frame sent on each port, the slot being sent, the residence table (key, sequenceId,
residence, tick), the Pdelay_Reqs each port has received (portIdentity, sequenceId, ingress in each timescale), the domain slots,
the replies of the base-counter second counted last, and the egress queues of ports 0 and 1 (R211). -/
structure NetSt where
  learned : List (Nat × Nat × Nat)
  lost    : Bool
  wire    : List (List Nat)
  tx      : Option TxSt
  tcTab   : List (Nat × Nat × Int × Nat)
  pdReq   : List (List (Nat × Nat × List Int))
  slots   : List PtpSlot
  respSec : Nat
  respCnt : Nat
  queues  : List EgressQ
  deriving DecidableEq, Repr

/-- The network island after reset. -/
def NetSt.init : NetSt :=
  ⟨[], false, [[], []], none, [], [[], []], List.replicate 4 PtpSlot.init, 0, 0, List.replicate 2 EgressQ.init⟩

/-- A transmission of the radio (spec/10 R241 to R248): descriptor, scheduled or not, deferred, hop entry, drive of its power step,
aerial (1 or 2), FCS2, WHITEN, state after it, payload, whether its read met a bus error, tick of the first preamble symbol,
the planned one, and the limit on their difference. -/
structure RadTx where
  d       : Nat
  sched   : Bool
  late    : Bool
  hop     : Nat
  power   : Nat
  aer     : Nat
  fcs2    : Bool
  whiten  : Bool
  ret     : Nat
  data    : List Nat
  bad     : Bool
  first   : Nat
  planned : Nat
  limit   : Nat
  deriving DecidableEq, Repr

/-- A reception (spec/10 R251 to R256): tick at which the SFD search ends, RSSI of the aerial not chosen, the receive slot
and its window, and the time-stamp once the SFD is found. -/
structure RadRx where
  until_ : Nat
  alt    : Nat
  slot   : Option (Nat × Nat × Nat)
  t      : Option Nat
  deriving DecidableEq, Repr

/-- A receive slot (spec/10 R256): descriptor, hop entry, END state, window, and whether it has opened. -/
structure RadWin where
  slot   : Nat
  hop    : Nat
  end_   : Nat
  open_  : Nat
  close  : Nat
  opened : Bool
  deriving DecidableEq, Repr

/-- State of the radio beside its registers (spec/10): the transition under way (target state, tick; whether it searches a
band), transmission, reception, requested calibrations (1 DC to 4 OSC), the running ones with their end ticks, the state
after them, the receive slot and the one that replaces it at its own open, an END state waiting for a frame, frame count, a lost frame, the pads PA_EN, PA_TRSW and PA_LNA,
the octets of the last frame sent, the calibration results DC, FILTER, IMAGE, windows of slots that are over (slot, open, close), and the
die temperature at the last OSC in 0.25 °C. -/
structure RadSt where
  move   : Option (Nat × Nat)
  search : Bool
  tx     : Option RadTx
  rx     : Option RadRx
  calQ   : List Nat
  cal    : List (Nat × Nat)
  back   : Option Nat
  win    : Option RadWin
  winNext : Option RadWin
  endTo  : Option Nat
  seq    : Nat
  lost   : Bool
  paEn   : Bool
  paTrsw : Bool
  paLna  : Bool
  air    : List Nat
  trims  : List Nat
  past   : List (Nat × Nat × Nat)
  tOsc   : Int
  deriving DecidableEq, Repr

/-- The radio after reset. -/
def RadSt.init : RadSt :=
  ⟨none, false, none, none, [], [], none, none, none, none, 0, false, false, false, false, [], [0, 0, 0], [], 0⟩

/-- One write buffer entry (spec/11 R267): the address of an aligned 32-byte line, its byte enables and bytes. -/
structure WbLine where
  line : Nat
  mask : BitVec 32
  data : BitVec 256
  deriving DecidableEq, Repr

/-- A Thithigor core (spec/11 R263, R264): A0 to A15, MB0 to MB3, ML0 to ML3, accumulators, PC, control registers 0 to 9;
repeating the instruction at PC (R310); the state to return to from STOPPED (R294), and a STEP waiting to be carried out. -/
structure CoreSt where
  a    : Vector Word 16
  mb   : Vector Word 4
  ml   : Vector Word 4
  acc0 : BitVec 80
  acc1 : BitVec 80
  pc   : Word
  cr   : Vector Word 10
  rep  : Bool
  left : Nat
  step : Bool
  deriving DecidableEq, Repr

/-- A core after reset. -/
def CoreSt.init : CoreSt :=
  ⟨Vector.replicate 16 0, Vector.replicate 4 0, Vector.replicate 4 0, 0, 0, 0x04000000, Vector.replicate 10 0, false, 0, false⟩

/-- A DMA channel beside its registers (spec/13): bytes of the ACTIVE set moved, unequal elements found and the offset of the
first, and the status and fault address with which it will complete.  The ACTIVE set itself is the working copy of the
channel's set fields. -/
structure DmaCh where
  pos : Nat
  mis : Nat
  ofs : Option Nat
  fin : Option (Nat × Nat)
  deriving DecidableEq, Repr

/-- A flash operation under way (spec/14 R337, R338): 0 PROGRAM, 1 ERASE_SEC, 2 ERASE_BLK; flash offset, source, length, and
whether an erase is suspended. -/
structure FlashOp where
  kind : Nat
  ofs  : Nat
  src  : Nat
  len  : Nat
  susp : Bool
  deriving DecidableEq, Repr

/-- An append request (spec/14 R341). -/
structure AnnReq where
  src : Nat
  typ : Nat
  key : Nat
  len : Nat
  tag : Nat
  deriving DecidableEq, Repr

/-- State of the flash, the Annal and the dump capture beside their registers (spec/14): the flash operation, queued append
requests, the last-gasp request, the write pointer (also past the last byte of a half), the highest SEQ found while a
recovery scan waits to complete, the capture under way (command bits, base counter at its start), captures since power-on. -/
structure FlashSt where
  op      : Option FlashOp
  queue   : List AnnReq
  gasp    : Option AnnReq
  ptr     : Nat
  scan    : Option Nat
  dumpRun : Option (Nat × Nat)
  dumpSeq : Nat
  deriving DecidableEq, Repr

/-- State of a PLL beside its registers (spec/15 R353 to R358): consecutive windows within 0.1 %, windows since a glide
began, searches that found no band in a row, its stored band, and whether it releases on the band it has (spec/03 R466). -/
structure PllSt where
  good   : Nat
  glide  : Nat
  fails  : Nat
  stored : Option Nat
  keep   : Bool
  deriving DecidableEq, Repr

/-- A Vigil beside its registers (spec/16 R369 to R373): first self-check passed since its restart, SELF_FAIL raised, tick of the
last heartbeat received and misses in a row since, its next sequence number, log ring with the newest event first, and its
count of events. -/
structure VigSt where
  checked : Bool
  bad     : Bool
  heard   : Nat
  run     : Nat
  seq     : Nat
  log     : List (List Nat)
  deriving DecidableEq, Repr

/-- A recipe (spec/16 R371, R374): class, SOURCE, DETAIL, DETAIL2, T_DETECT, step, and whether a takeover occurred during it. -/
structure Recipe where
  cls     : Nat
  source  : Nat
  detail  : Nat
  detail2 : Nat
  t       : Nat
  step    : Nat
  took    : Bool
  deriving DecidableEq, Repr

/-- The fatal-error dump under way (spec/16 R382): the FATAL that started it, T_DETECT, and the cores halted in step 2. -/
structure VigDump where
  ev     : Option Recipe
  t      : Nat
  halted : List Nat
  deriving DecidableEq, Repr

/-- Supervision beside the registers (spec/16): the Vigils A and B, the active one, the recipe and step in the last
heartbeat of each, recipes running, faults found while no Vigil is active, Annal requests (TYPE, payload), FAULT_N asserted
and the tick of its last assertion, island restarts under HANG (island, tick), the dump, and a write to PREFER that waits to move the
active role. -/
structure VigAll where
  a       : VigSt
  b       : VigSt
  active  : Option Nat
  beat    : List (Nat × Nat)
  running : List Recipe
  waiting : List Recipe
  queue   : List (Nat × List Nat)
  faultN  : Bool
  faultAt : Nat
  hangs   : List (Nat × Nat)
  dump    : Option VigDump
  move    : Bool
  deriving DecidableEq, Repr

/-- A Vigil after reset. -/
def VigSt.init : VigSt := ⟨false, false, 0, 0, 0, []⟩

/-- Supervision after reset. -/
def VigAll.init : VigAll := ⟨VigSt.init, VigSt.init, none, [(0, 0), (0, 0)], [], [], [], false, 0, [], none, false⟩

/-- An input guard beside its registers (spec/16 R378, R379): samples since FILTER changed, newest first, at most FILTER of
them; filtered values within limits in a row; tick of the last qualifying event. -/
structure GuardSt where
  hist : List Int
  good : Nat
  qual : Nat
  deriving DecidableEq, Repr

/-- Power, reset and boot beside the registers (spec/17): outputs VAUX12 and PA_SUPPLY switched off until enabled again,
PWR_GOOD, PoE absent with only the time island running, HEAT_DRV duty driven, the tick at which PoE came back during a
shed, tick of the last watchdog kick, hash helper work (1 SHA, 2 VERIFY, 3 SUBMIT), the image running (0 A, 1 B, 2 host),
the boot ROM waiting for HOST_IMG. -/
structure PwrSt where
  vauxOff  : Bool
  paOff    : Bool
  pwrGood  : Bool
  asleep   : Bool
  back     : Option Nat
  kickAt   : Nat
  hash     : Option Nat
  running  : Option Nat
  waitHost : Bool
  deriving DecidableEq, Repr

/-- State of the host SPI target beside its registers (spec/18 R408 to R414): receive and transmit FIFO words, the WRITE or
PUSH executing (PUSH or not, FIX, address, words still to write) and the words it has written, words done in the last frame, bytes sent on MISO in the last frame
without wait bytes, and whether SPI_SCK is ignored until SPI_CS_N rises. -/
structure SpiSt where
  rxf  : List Nat
  txf  : List Nat
  exec : Option (Bool × Bool × Nat × List Nat)
  wrote : Nat
  done : Nat
  miso : List Nat
  deaf : Bool
  deriving DecidableEq, Repr

/-- State of a CAN controller (spec/18 R418 to R420): words of the record being written, pending records and the ticks at which they
became pending, receive and event FIFO words, a lost record, and a bus-off recovery asked for. -/
structure CanSt where
  part  : List Nat
  txq   : List (List Nat)
  txAt  : List Nat
  rxf   : List Nat
  txe   : List Nat
  lost  : Bool
  recov : Bool
  deriving DecidableEq, Repr

/-- State of a UART (spec/18 R422): receive FIFO with error bits (PAR_ERR, FRM_ERR, BREAK), transmit FIFO, the character
being sent, and the last one sent. -/
structure UartSt where
  rx   : List (Nat × Nat)
  tx   : List Nat
  cur  : Option Nat
  last : Nat
  deriving DecidableEq, Repr

/-- State of the I2C controller (spec/18 R426): queued commands, the first one running; data FIFOs; bytes the running
command has transferred; the last byte written to the bus. -/
structure I2cSt where
  cmds : List Nat
  rx   : List Nat
  tx   : List Nat
  done : Nat
  last : Nat
  deriving DecidableEq, Repr

/-- The test access port (spec/20 R454 to R458): instruction register, boundary cells, test mode, and the debug access
register's result and data. -/
structure Jtag where
  ir   : Nat
  bsr  : BitVec 129
  test : Bool
  res  : Nat
  data : Nat
  deriving DecidableEq, Repr

/-- The state of the block. -/
structure State where
  /-- Commands waiting, first in, first out (the model's queue). -/
  pending : List Instr
  /-- Number of the next free value (the model's own field, DESIGN CHOICE, log entry 1). -/
  fresh : Nat
  /-- Answer of the last access (the model's own field, DESIGN CHOICE, log entry 9). -/
  resp : Resp
  /-- Registers by window offset: the visible copy, the shadow copy of a shadow field; unlisted registers hold their reset word. -/
  regs : List (Nat × Word)
  /-- Working copies of shadow fields (R38). -/
  work : List (Nat × Word)
  /-- Higher words of wide fields, captured at the read of the lowest (R33). -/
  capt : List (Nat × Word)
  /-- Once words already written (R9, R37). -/
  once : List Nat
  /-- Armed COMMITs (R38). -/
  armed : List Armed
  /-- Accesses held during a soft reset (R45). -/
  held : List Held
  /-- Latched levels of the software interrupts (R47). -/
  swi : BitVec 8
  /-- Islands held in reset (R462). -/
  inReset : List Island
  /-- Islands whose clock is gated off (R27). -/
  stalled : List Island
  /-- Islands on their backup clock (R13). -/
  onBackup : List Island
  /-- Memory by absolute address (shared SRAM, TLMs at their global aliases, flash), in canonical form; `memDefault` for unlisted bytes. -/
  mem : List Host.Cell
  /-- SRAM words (8 bytes) with an ECC error: address and whether it is uncorrectable (R334). -/
  eccBad : List (Nat × Bool)
  /-- The base counter, 1.5625 ns ticks (spec/08 R180). -/
  base : BitVec 64
  /-- Base-counter tick of the last RF update tick (R52). -/
  rfLast : Nat
  /-- The four receive chains beside their registers. -/
  chains : Vector Chain 4
  /-- The band LO calibrations, H and L (R59). -/
  osc : Vector (Option OscCal) 2
  /-- Changes of the chains' SAMPLE_VALID, newest first: chain, first sample, level (R51). -/
  validLog : List (Nat × Nat × Bool)
  /-- The capture in progress (R85 to R89). -/
  snap : Option Snap
  /-- Block tags by block number; unlisted blocks carry none (R84). -/
  tags : List (Nat × Tag)
  /-- The jobs running on engines 0 and 1 (R95). -/
  jobs : Vector (Option Job) 2
  /-- Base-counter tick of the correlator island's sample 0 (spec/05 R130, spec/15 R360). -/
  smpZ : Nat
  /-- Tracking channels that differ from a reset entry. -/
  chan : List (Nat × Chan)
  /-- Dump FIFO: boundary sample, channel and record bytes, oldest first (R20, R127, R128). -/
  dumpFifo : List (Nat × Nat × List Nat)
  /-- Sample of the last commit of each group (R125). -/
  grpAt : Vector (Option Nat) 16
  /-- The last GRP_ARM: requester, tick at which it arrived, channels it armed (spec/19 R440). -/
  grpArmed : Option (Nat × Nat × List Nat)
  /-- Code store words rewritten while channels use the store, newest first: first sample with the new word, word address, old word (R109). -/
  codeLog : List (Nat × Nat × Word)
  /-- Code store words that are not 0, by word address (R107, R108). -/
  code : List (Nat × Word)
  /-- Code store words with bad parity (R109). -/
  codeBad : List Nat
  /-- A CRC computation in progress: words done (R136). -/
  crcRun : Option Nat
  /-- Its running CRC. -/
  crcAcc : BitVec 32
  /-- The measurement block being written (R144). -/
  latch : Option Latch
  /-- Latching sample and tick of the previous written block, or the enable (R145, R146). -/
  measPrev : Nat × Nat
  /-- SEQ of the last block written since the page was enabled, 0 for none (R145). -/
  measSeq : Nat
  /-- Latches not taken since the previous written block (R141). -/
  measMissed : Nat
  /-- The Cindoyth link beside its registers. -/
  cdl : CdlSt
  /-- The antenna array beside its registers. -/
  arr : ArrSt
  /-- Values of TS0 to TS3 (spec/08 R183). -/
  ts : Vector TsVal 4
  /-- TS0 to TS3 beside their registers. -/
  tsSt : Vector TsSt 4
  /-- Base count of the last update tick (R184). -/
  updLast : Nat
  /-- Base count of the last whole second (R185). -/
  secLast : Nat
  /-- Calendar entries that differ from a reset entry. -/
  ents : List (Nat × Entry)
  /-- Calendar actions dispatched to other islands, by instant and entry (R21, R22). -/
  acts : List Action
  /-- Pulse spans whose start has not been evaluated (R202). -/
  spanQ : List Span
  /-- What pads 0 to 7 allowed before each change, newest first, with its tick (R202). -/
  padLog : List (Nat × List Bool)
  /-- Pulse spans driven, overlapping ones joined (R202). -/
  spans : List Span
  /-- Event inputs beside their registers. -/
  evtIn : Vector EvtSt 8
  /-- Event records waiting for the ring, oldest first (R204). -/
  evtFifo : List (List Nat)
  /-- Records of the event ring, written or dropped (R204, R463). -/
  evtSeq : Nat
  /-- The next event record captured follows a dropped one (R204). -/
  evtLost : Bool
  /-- The network island beside its registers. -/
  net : NetSt
  /-- The radio beside its registers. -/
  rad : RadSt
  /-- Write buffers of the six cores, oldest entry first (spec/11 R267). -/
  wbuf : Vector (List WbLine) 6
  /-- Data cache lines held: key core × 256 + set, lines most recently used first (spec/11 R266). -/
  dcache : List (Nat × List Nat)
  /-- The six Thithigor cores (spec/11). -/
  cores : Vector CoreSt 6
  /-- Instruction cache lines (line, bytes): key core × 256 + set, most recently used first (spec/11 R266). -/
  icache : List (Nat × List (Nat × BitVec 256))
  /-- The DMA channels beside their registers. -/
  dma : Vector DmaCh 64
  /-- The DMA channel served last (R319). -/
  dmaLast : Nat
  /-- ABORT_ALL waits for the channels that are ABORTING (R326). -/
  dmaClear : Bool
  /-- Flash, Annal and dump capture beside their registers. -/
  fl : FlashSt
  /-- SYN_T, SYN_E, SYN_S0, SYN_S1, SYN_LOH, SYN_LOL, SYN_RAD, SYN_C, SYN_SAFE beside their registers. -/
  plls : Vector PllSt 9
  /-- Consecutive REF10_IN windows within REF_TOL (R350). -/
  refGood : Nat
  /-- REF10_IN was left after a loss; REVERT decides the return (R350). -/
  refLost : Bool
  /-- Sample of the last sample-synthesizer switch (spec/06 header FLAGS). -/
  synAt : Option Nat
  /-- Sample of the last gating of band LO H and L (spec/06 header FLAGS, LOCK_MS). -/
  loGateAt : Vector (Option Nat) 2
  /-- Supervision beside the registers (spec/16). -/
  vig : VigAll
  /-- The input guards beside their registers. -/
  guards : Vector GuardSt 23
  /-- Power, reset and boot beside the registers (spec/17). -/
  pwr : PwrSt
  /-- The host SPI target beside its registers. -/
  spi : SpiSt
  /-- The CAN controllers beside their registers. -/
  can : Vector CanSt 2
  /-- The UARTs beside their registers. -/
  uart : Vector UartSt 3
  /-- The I2C controller beside its registers. -/
  i2c : I2cSt
  /-- The test access port. -/
  jtag : Jtag
  deriving DecidableEq, Repr

/-- The machine right after reset: every register at its reset word (nothing listed), every other field as spec/ states,
or as the log entries named in INVENTORY.md say. -/
def State.reset : State where
  pending := []
  fresh := 0
  resp := ⟨11, [], false⟩
  regs := [(0x0C0014, 8), (0x0C0044, 1)]
  work := []
  capt := []
  once := []
  armed := []
  held := []
  swi := 0
  inReset := []
  stalled := []
  onBackup := []
  mem := []
  eccBad := []
  base := 0
  rfLast := 0
  chains := Vector.replicate 4 Chain.init
  osc := Vector.replicate 2 none
  validLog := []
  snap := none
  tags := []
  jobs := Vector.replicate 2 none
  smpZ := 0
  chan := []
  dumpFifo := []
  grpAt := Vector.replicate 16 none
  grpArmed := none
  codeLog := []
  code := []
  codeBad := []
  crcRun := none
  crcAcc := 0
  latch := none
  measPrev := (0, 0)
  measSeq := 0
  measMissed := 0
  cdl := CdlSt.init
  arr := ⟨[], [], 0, 0, 0, 0⟩
  ts := Vector.replicate 4 ⟨0, 0, 0⟩
  tsSt := Vector.replicate 4 ⟨0x0001900000000000, false, 0, 0, 0, 0, 0, 0, none, []⟩
  updLast := 0
  secLast := 0
  ents := []
  acts := []
  spanQ := []
  padLog := []
  spans := []
  evtIn := Vector.replicate 8 ⟨none, none, none⟩
  evtFifo := []
  evtSeq := 0
  evtLost := false
  net := NetSt.init
  rad := RadSt.init
  wbuf := Vector.replicate 6 []
  dcache := []
  cores := Vector.replicate 6 CoreSt.init
  icache := []
  dma := Vector.replicate 64 ⟨0, 0, none, none⟩
  dmaLast := 63
  dmaClear := false
  fl := ⟨none, [], none, 0, none, none, 0⟩
  plls := Vector.replicate 9 ⟨0, 0, 0, none, false⟩
  refGood := 0
  refLost := false
  synAt := none
  loGateAt := Vector.replicate 2 none
  vig := VigAll.init
  guards := Vector.replicate 23 ⟨[], 0, 0⟩
  pwr := ⟨false, false, true, false, none, 0, none, none, false⟩
  spi := ⟨[], [], none, 0, 0, [], false⟩
  can := Vector.replicate 2 ⟨[], [], [], [], [], false, false⟩
  uart := Vector.replicate 3 ⟨[], [], none, 0⟩
  i2c := ⟨[], [], [], 0, 0⟩
  jtag := ⟨0x1F, 0, false, 0, 0⟩

end Sys2Proof.Machine
end

