-- ==== Sys2Proof/Machine/Ops.lean ====
section
/-! DEFINITION. The named operations on State: reading and writing register fields, events and error logs (spec/02 R35,
R37), arming and taking a COMMIT (R38 to R42), free values, and the clock. -/

namespace Sys2Proof.Machine

/-- A meaning's answer. -/
abbrev Out := Host.Outcome State Fault Refusal

/-! ### Registers -/

/-- The visible word of a register at a window offset. -/
def State.reg (s : State) (a : Nat) : Word := Tab.get resetWord s.regs a

/-- The visible word as a number. -/
def State.regN (s : State) (a : Nat) : Nat := (s.reg a).toNat

/-- Write the visible word of a register. -/
def State.setReg (s : State) (a v : Nat) : State :=
  { s with regs := Tab.set resetWord s.regs a (BitVec.ofNat 32 v) }

/-- The working word of a register with shadow fields. -/
def State.wreg (s : State) (a : Nat) : Word := Tab.get resetWord s.work a

/-- Write a working word. -/
def State.setWreg (s : State) (a v : Nat) : State :=
  { s with work := Tab.set resetWord s.work a (BitVec.ofNat 32 v) }

/-- `n` visible words from `a`, the lowest first, as one number. -/
def State.wordsAt (s : State) (a : Nat) : Nat → Nat
  | 0 => 0
  | n + 1 => s.regN a + 2 ^ 32 * State.wordsAt s (a + 4) n

/-- `n` working words from `a` as one number. -/
def State.wwordsAt (s : State) (a : Nat) : Nat → Nat
  | 0 => 0
  | n + 1 => (s.wreg a).toNat + 2 ^ 32 * State.wwordsAt s (a + 4) n

/-- Store `n` words of a number from `a` up. -/
def State.setWords (s : State) (a v : Nat) : Nat → State
  | 0 => s
  | n + 1 => State.setWords (s.setReg a (v % 2 ^ 32)) (a + 4) (v / 2 ^ 32) n

/-- A field of the register block at `b`: the visible copy. -/
def State.get (s : State) (b : Nat) (f : Fld) : Nat :=
  bitsOf (s.wordsAt (b + f.off) ((f.lo + f.w + 31) / 32)) f.lo f.w

/-- A field of the register block at `b`: the working copy. -/
def State.wget (s : State) (b : Nat) (f : Fld) : Nat :=
  bitsOf (s.wwordsAt (b + f.off) ((f.lo + f.w + 31) / 32)) f.lo f.w

/-- A one-bit field. -/
def State.flag (s : State) (b : Nat) (f : Fld) : Bool := s.get b f != 0

/-- A one-bit working field. -/
def State.wflag (s : State) (b : Nat) (f : Fld) : Bool := s.wget b f != 0

/-- A signed field. -/
def State.getI (s : State) (b : Nat) (f : Fld) : Int := toSigned f.w (s.get b f)

/-- A signed working field. -/
def State.wgetI (s : State) (b : Nat) (f : Fld) : Int := toSigned f.w (s.wget b f)

/-- Store a field's visible copy. -/
def State.put (s : State) (b : Nat) (f : Fld) (v : Nat) : State :=
  let n := (f.lo + f.w + 31) / 32
  s.setWords (b + f.off) (putBits (s.wordsAt (b + f.off) n) f.lo f.w v) n

/-- Store a signed field. -/
def State.putI (s : State) (b : Nat) (f : Fld) (v : Int) : State := s.put b f (ofSigned f.w v)

/-- Store a one-bit field. -/
def State.putB (s : State) (b : Nat) (f : Fld) (v : Bool) : State := s.put b f (b2n v)

/-- Store a field's working copy (one word). -/
def State.wput (s : State) (b : Nat) (f : Fld) (v : Nat) : State :=
  s.setWreg (b + f.off) (putBits (s.wreg (b + f.off)).toNat f.lo f.w v)

/-- A counter field goes up by one, saturating. -/
def State.count (s : State) (b : Nat) (f : Fld) : State := s.put b f (satInc f.w (s.get b f))

/-- A counter field goes up by one, wrapping. -/
def State.countWrap (s : State) (b : Nat) (f : Fld) : State := s.put b f (s.get b f + 1)

/-! ### The common header (R33 to R42) -/

/-- Window offset of a page. -/
def pg (p : Nat) : Nat := p * 0x1000

/-- Header fields. -/
def H.EN : Fld := ⟨0x00C, 0, 1⟩
def H.SRST : Fld := ⟨0x00C, 1, 1⟩
def H.FREEZE : Fld := ⟨0x00C, 2, 1⟩
def H.ENABLED : Fld := ⟨0x010, 0, 1⟩
def H.BUSY : Fld := ⟨0x010, 1, 1⟩
def H.FROZEN : Fld := ⟨0x010, 2, 1⟩
def H.COMMIT_PEND : Fld := ⟨0x010, 3, 1⟩
def H.RESTARTED : Fld := ⟨0x010, 4, 1⟩
def H.IRQ_RAW : Fld := ⟨0x014, 0, 32⟩
def H.IRQ_EN : Fld := ⟨0x018, 0, 32⟩
def H.CODE : Fld := ⟨0x024, 0, 8⟩
def H.COUNT : Fld := ⟨0x024, 8, 8⟩
def H.ERR_ADDR : Fld := ⟨0x028, 0, 32⟩
def H.GEN : Fld := ⟨0x02C, 0, 16⟩
def H.TAKEN : Fld := ⟨0x030, 0, 16⟩
def H.LOCKED : Fld := ⟨0x034, 0, 1⟩
def H.STICKY : Fld := ⟨0x034, 1, 1⟩

/-- Is the page's block enabled? -/
def State.en (s : State) (p : Nat) : Bool := s.flag (pg p) H.EN

/-- Has the page's block stopped under FREEZE (R44)? -/
def State.frozen (s : State) (p : Nat) : Bool := s.flag (pg p) H.FROZEN

/-- Is the page locked (R36)? -/
def State.locked (s : State) (p : Nat) : Bool := s.flag (pg p) H.LOCKED

/-- Is an island held in reset (R462)? -/
def State.isReset (s : State) (i : Island) : Bool := decide (i ∈ s.inReset)

/-- Is an island able to advance: not in reset, clock not lost? -/
def State.running (s : State) (i : Island) : Bool := decide (i ∉ s.inReset ∧ i ∉ s.stalled)

/-- An event sets its bit in IRQ_RAW of the page (R35). -/
def State.raise (s : State) (p bit : Nat) : State :=
  s.put (pg p) H.IRQ_RAW (s.get (pg p) H.IRQ_RAW ||| 2 ^ bit)

/-- Raise an event when a condition holds. -/
def State.raiseIf (s : State) (c : Bool) (p bit : Nat) : State := if c then s.raise p bit else s

/-- Log an error on page `p` for the access, action or hand-over at window offset `a` of requester `req` (R37, R461). -/
def State.logErr (s : State) (p code a req : Nat) : State :=
  let b := pg p
  let s1 := s.put b H.COUNT (satInc 8 (s.get b H.COUNT))
  if s.get b H.CODE = 0 then
    ((s1.put b H.CODE code).put b H.ERR_ADDR (a % 0x1000 + 0x1000 * (a / 0x1000 % 0x1000) + 2 ^ 24 * req)).raise p 31
  else s1

/-- Error codes of R37. -/
def E.RESERVED_WRITE : Nat := 0x01
def E.READONLY_WRITE : Nat := 0x02
def E.ONCE_REWRITE : Nat := 0x03
def E.LOCKED : Nat := 0x04
def E.RANGE_CLAMPED : Nat := 0x05
def E.RANGE_REJECTED : Nat := 0x06
def E.FROZEN_ACTION : Nat := 0x07
def E.CTL_DENIED : Nat := 0x08
def E.SIZE : Nat := 0x09
def E.KEY_BAD : Nat := 0x0A
def E.NO_SHADOW : Nat := 0x40

/-! ### Shadow and commit (R38 to R42) -/

/-- The base counter as a number. -/
def State.now (s : State) : Nat := s.base.toNat

/-- The armed COMMIT of a COMMIT register, if any. -/
def State.armedAt (s : State) (key : Nat) : Option Armed := s.armed.find? (fun x => x.key == key)

/-- Drop the armed COMMIT of a COMMIT register. -/
def State.disarm (s : State) (key : Nat) : State := { s with armed := s.armed.filter (fun x => x.key != key) }

/-- Write a generation to the COMMIT register at `key`, owned by page `p`: GEN 0 is rejected (R41), another pending
generation is replaced (R40). -/
def State.arm (s : State) (req p key gen : Nat) : State :=
  if gen % 2 ^ 16 = 0 then s.logErr p E.RANGE_REJECTED key req
  else
    let s := s.put key ⟨0, 0, 16⟩ gen
    { s with armed := ⟨key, gen % 2 ^ 16, req, s.now⟩ :: s.armed.filter (fun x => x.key != key) }

/-- Copy the shadow of the window offsets `[lo, hi)` to the working copy. -/
def State.copyShadow (s : State) (lo hi : Nat) : State := { s with work := Tab.copyRange lo hi s.regs s.work }

/-- A page arms its COMMIT (R38). -/
def State.armPage (s : State) (req p gen : Nat) : State :=
  let s' := s.arm req p (pg p + 0x02C) gen
  if gen % 2 ^ 16 = 0 then s' else s'.put (pg p) H.COMMIT_PEND 1

/-- A hand-over that finds errors raises COUNT of the page by one however many fields are in error (R37): `t` is the state
after the hand-over's checks, each of which logs its own error. -/
def State.logOnce (s t : State) (p : Nat) : State :=
  if satInc 8 (s.get (pg p) H.COUNT) < t.get (pg p) H.COUNT then t.put (pg p) H.COUNT (satInc 8 (s.get (pg p) H.COUNT))
  else t

/-- The hand-over edge of a page (R38): nothing when nothing is armed or the block is frozen; else the whole shadow is
copied, COMMIT_TAKEN set, COMMIT_DONE raised.  Also answers the armed COMMIT that was taken. -/
def State.takePage (s : State) (p : Nat) : State × Option Armed :=
  match s.armedAt (pg p + 0x02C) with
  | none => (s, none)
  | some c =>
    if s.frozen p then (s, none)
    else
      let s := s.copyShadow (pg p + 0x040) (pg p + 0x1000)
      let s := (s.disarm (pg p + 0x02C)).put (pg p) H.TAKEN c.gen
      ((s.put (pg p) H.COMMIT_PEND 0).raise p 30, some c)

/-! ### Free values (DESIGN CHOICE, log entry 1) -/

/-- The next free value, below `n` (0 where `n` is 0), and the state after drawing it. -/
def State.draw (s : State) (n : Nat) : Nat × State :=
  (Config.freeValue s.fresh % (max n 1), { s with fresh := s.fresh + 1 })

/-! ### The clock -/

/-- A timescale value in units of 2^-48 ns. -/
def TsVal.total (v : TsVal) : Nat := (v.sec.toNat * 1000000000 + v.ns.toNat) * 2 ^ 48 + v.frac.toNat

/-- The timescale value of a number of 2^-48 ns, seconds wrapping at 2^48. -/
def TsVal.ofTotal (n : Nat) : TsVal :=
  let ns := n / 2 ^ 48
  ⟨BitVec.ofNat 48 (ns / 1000000000), BitVec.ofNat 30 (ns % 1000000000), BitVec.ofNat 48 (n % 2 ^ 48)⟩

/-- Increment in force of timescale `n` (INC_NOW_n, spec/08 R184). -/
def State.incNow (s : State) (n : Nat) : Nat := s.get (0x50100 + 0x80 * n) TsR.INC_NOW_INC

/-- The value of timescale `n`. -/
def State.tsv (s : State) (n : Nat) : TsVal := s.ts[n]?.getD ⟨0, 0, 0⟩

/-- Let `n` ticks pass: the base counter counts them and every timescale adds its increment (R183). -/
def State.ticks (s : State) (n : Nat) : State :=
  { s with
    base := s.base + BitVec.ofNat 64 n
    ts := Vector.ofFn (fun i : Fin 4 => TsVal.ofTotal ((s.tsv i).total + s.incNow i * n)) }

/-- Let time run to the tick `t`; nothing when it has passed. -/
def State.runTo (s : State) (t : Nat) : State := if s.now < t then s.ticks (t - s.now) else s

/-- Answer an access. -/
def State.answer (s : State) (req : Nat) (words : List Word) (err : Bool) : State := { s with resp := ⟨req, words, err⟩ }

/-- An access waits; one that its requester waits for already keeps its place (R17). -/
def State.wait (s : State) (h : Held) : State :=
  if s.held.any (fun x => x.req == h.req) then { s with held := s.held.map (fun x => if x.req = h.req then h else x) }
  else { s with held := s.held ++ [h] }

/-- Apply an effect to each element in turn. -/
def State.each {α : Type} (s : State) (l : List α) (f : State → α → State) : State := l.foldl f s

end Sys2Proof.Machine
end

