-- ==== Sys2Proof/Machine/VigLog.lean ====
section
/-! DEFINITION. Fault events (spec/16 R373): how the active Vigil detects a fault, records it and ends its recipe. -/

namespace Sys2Proof.Machine

/-- The register block of Vigil `v`. -/
def Vig.b (v : Nat) : Nat := pg (2 + v)

/-- A Vigil's hidden state. -/
def Vig.of (s : State) (v : Nat) : VigSt := if v = 0 then s.vig.a else s.vig.b

/-- Change the hidden state of the Vigils. -/
def State.modVigs (s : State) (f : VigAll → VigAll) : State := { s with vig := f s.vig }

/-- Change the hidden state of one Vigil. -/
def State.modVig (s : State) (v : Nat) (f : VigSt → VigSt) : State :=
  s.modVigs (fun x => if v = 0 then { x with a := f x.a } else { x with b := f x.b })

/-- VIG_STAT.STATE: 0 ACTIVE, 1 STANDBY, 2 FAILED, 3 RESTARTING (DEDUCED, log entry 75). -/
def Vig.state (s : State) (v : Nat) : Nat := s.get (Vig.b v) Vig.VIG_STAT_STATE

/-- The 32 bytes of a fault event. -/
def Vig.event (v : Nat) (r : Recipe) (outcome tRec : Nat) : List Nat :=
  recBytes [(1, r.cls), (1, r.source), (1, outcome), (1, v % 2 + 2 * b2n r.took), (4, r.detail), (8, r.t), (8, tRec),
    (4, r.detail2), (4, 0)]

/-- Post a request to the Vigils' queue of the Annal engine: full, or the Annal not READY, the event stays in the log only. -/
def Vig.post (s : State) (v typ : Nat) (payload : List Nat) : State :=
  if 8 ≤ s.vig.queue.length ∨ !s.flag (pg 0x092) Annal.ANN_STAT_READY then s.count (Vig.b v) Vig.ANNAL_LOST_COUNT
  else s.modVigs (fun x => { x with queue := x.queue ++ [(typ, payload)] })

/-- Vigil `v` records an event: the log ring of 110, LOG_CNT, the Annal, with what else the entry carries (R373)
(DEDUCED, log entry 67). -/
def Vig.recordWith (s : State) (v : Nat) (r : Recipe) (outcome tRec : Nat) (more : List Nat) : State :=
  let e := Vig.event v r outcome tRec
  let s := s.modVig v (fun x => { x with log := (e :: x.log).take 110 })
  Vig.post (s.count (Vig.b v) Vig.LOG_CNT_COUNT) v 0x07 (e ++ more)

/-- Vigil `v` records an event. -/
def Vig.record (s : State) (v : Nat) (r : Recipe) (outcome tRec : Nat) : State := Vig.recordWith s v r outcome tRec []

/-- Does the recipe of a class run (RECIPE_EN, R384)? -/
def Vig.enabled (s : State) (v cls : Nat) : Bool :=
  cls == 1 || cls == 2 || cls == 7 || cls == 8 || cls == 9 || cls == 10 || cls == 19 ||
    (s.get (Vig.b v) Vig.RECIPE_EN_EN).testBit (cls - 1)

/-- Status lines and recovery of an island in ISLAND_STAT, on both pages. -/
def Vig.island (s : State) (i : Nat) (ok recovering : Bool) : State :=
  if 12 ≤ i then s
  else s.each [0, 1] (fun s v =>
    let put (n : Nat) (f : Fld) (x : Bool) (s : State) : State :=
      let o := s.get (Vig.b v) f
      s.put (Vig.b v) f (o - b2n (o.testBit n) * 2 ^ n + b2n x * 2 ^ n)
    put i Vig.ISLAND_STAT_RECOVERING recovering (put i Vig.ISLAND_STAT_OK ok s))

/-- Is the SOURCE of a class an island? -/
def Vig.isIsland (cls : Nat) : Bool := cls ≤ 0x0B || cls == 0x0D || cls == 0x0E

/-- Vigil `v` takes up a fault: the event, FAULT, and its recipe at step 1 (R371, R373). -/
def Vig.take (s : State) (v : Nat) (r : Recipe) : State :=
  if !Vig.enabled s v r.cls then (Vig.record s v r 5 0).raise (2 + v) 0
  else
    let s := (Vig.record s v r 0 0).raise (2 + v) 0
    let s := if Vig.isIsland r.cls then Vig.island s r.source false true else s
    s.modVigs (fun x => { x with running := x.running ++ [{ r with step := 1 }] })

/-- A fault of a class with a recipe is detected; with no active Vigil it waits for the next one (R371). -/
def State.fault (s : State) (cls source detail detail2 : Nat) : State :=
  let r : Recipe := ⟨cls, source, detail, detail2, s.now, 1, false⟩
  match s.vig.active with
  | none => s.modVigs (fun x => { x with waiting := x.waiting ++ [r] })
  | some v => Vig.take s v r

/-- A recipe ends with an outcome (R373): 1 recovered, 2 island restarted, 3 FATAL, 4 LOCKED; `more` goes into the Annal entry as well. -/
def Vig.finishWith (s : State) (r : Recipe) (outcome : Nat) (more : List Nat) : State :=
  let s := s.modVigs (fun x => { x with running := x.running.filter (fun y => decide (y ≠ r)) })
  match s.vig.active with
  | none => s
  | some v =>
    let s := Vig.recordWith s v r outcome s.now more
    let s := if Vig.isIsland r.cls then Vig.island s r.source (outcome ≤ 2) false else s
    s.raiseIf (outcome == 1 || outcome == 2) (2 + v) 1

/-- A recipe ends with an outcome. -/
def Vig.finish (s : State) (r : Recipe) (outcome : Nat) : State := Vig.finishWith s r outcome []

/-- A fault whose recipe is complete as soon as it is detected (SRAM_CE, REF). -/
def State.faultFixed (s : State) (cls source detail : Nat) : State :=
  let r : Recipe := ⟨cls, source, detail, 0, s.now, 1, false⟩
  match s.vig.active with
  | none => s.modVigs (fun x => { x with waiting := x.waiting ++ [r] })
  | some v => Vig.finish (Vig.take s v r) r 1

/-- A fault whose recipe only records it (SRAM_UE, GUARD, POWER). -/
def State.faultNoted (s : State) (cls source detail detail2 : Nat) : State :=
  let r : Recipe := ⟨cls, source, detail, detail2, s.now, 1, false⟩
  match s.vig.active with
  | none => s.modVigs (fun x => { x with waiting := x.waiting ++ [r] })
  | some v => (Vig.record s v r (if Vig.enabled s v cls then 0 else 5) 0).raise (2 + v) 0

/-- A qualifying event of guard `g`: TIMEOUT ends, the time starts again (R379). -/
def State.qualify (s : State) (g : Nat) : State :=
  let b := pg 0x004 + 0x100 + 0x20 * g
  let s := { s with guards := s.guards.setIfInBounds g { s.guards[g]?.getD ⟨[], 0, 0⟩ with qual := s.now } }
  if s.get b GuardG.GD_STAT_STATE = 3 then s.put b GuardG.GD_STAT_STATE 0 else s

/-- Does any source hold FAULT_N low (R377)? -/
def Vig.faultSrc (s : State) : Bool :=
  s.flag (Vig.b 0) Vig.FAULT_SRC_LAST_RESORT || s.flag (Vig.b 0) Vig.FAULT_SRC_FATAL || s.flag (Vig.b 0) Vig.FAULT_SRC_FW

/-- Show FAULT_N in FAULT_SRC.PIN on both pages. -/
def Vig.pin (s : State) (low : Bool) : State :=
  (s.modVigs (fun x => { x with faultN := low })).each [0, 1] (fun s v => s.putB (Vig.b v) Vig.FAULT_SRC_PIN low)

/-- Set a bit of FAULT_SRC on both pages: FAULT_N is asserted, for at least 10 ms (R377). -/
def Vig.setSrc (s : State) (f : Fld) : State :=
  let s := s.each [0, 1] (fun s v => s.put (Vig.b v) f 1)
  (Vig.pin s true).modVigs (fun x => { x with faultAt := s.now })

/-- Ticks of the 10 ms low time of FAULT_N. -/
def Vig.lowTicks : Nat := 6400000

/-- Release FAULT_N when no source holds it and 10 ms have passed (R377). -/
def Vig.tryRelease (s : State) : State :=
  if !Vig.faultSrc s ∧ s.vig.faultAt + Vig.lowTicks ≤ s.now then Vig.pin s false else s

end Sys2Proof.Machine
end

