-- ==== Sys2Proof/Machine/Mem.lean ====
section
/-! DEFINITION. Memory: the address map (spec/01 R24, R25), reading and writing bytes, ECC (spec/14 R333, R334), write
buffers and the order of device accesses (spec/11 R267 to R271). -/

namespace Sys2Proof.Machine

/-- What an unlisted byte reads as: boot ROM code, erased flash 0xFF, else 0 (R333; DESIGN CHOICE, log entry 7). -/
def memDefault (a : Nat) : Byte :=
  if 0x04000000 ≤ a ∧ a < 0x04010000 then Config.romByte (a - 0x04000000)
  else if 0x20000000 ≤ a ∧ a < 0x24000000 then 0xFF else 0

/-- The canonical form of memory. -/
def Memory.wf (m : List Host.Cell) : Bool := Tab.wf memDefault m

/-- One byte of memory. -/
def State.byte (s : State) (a : Nat) : Byte := Tab.get memDefault s.mem a

/-- Write one byte of memory. -/
def State.setByte (s : State) (a : Nat) (v : Byte) : State := { s with mem := Tab.set memDefault s.mem a v }

/-- `n` bytes of memory from `a`. -/
def State.bytesAt (s : State) (a n : Nat) : List Nat := (List.range n).map (fun i => (s.byte (a + i)).toNat)

/-- The `n`-byte little-endian number in memory at `a`. -/
def State.numAt (s : State) (a n : Nat) : Nat := leNat (s.bytesAt a n)

/-- The ranges of the address map (R24). -/
inductive Rng where
  | own | rom | sram | flash | tlm (c : Nat) | regs | none
  deriving DecidableEq, Repr

/-- The range that holds an address. -/
def rangeOf (a : Nat) : Rng :=
  if a < 0x00040000 then .own
  else if 0x04000000 ≤ a ∧ a < 0x04010000 then .rom
  else if 0x10000000 ≤ a ∧ a < 0x12000000 then .sram
  else if 0x20000000 ≤ a ∧ a < 0x24000000 then .flash
  else if 0x30000000 ≤ a ∧ a < 0x30600000 ∧ a % 0x100000 < 0x40000 then .tlm ((a - 0x30000000) / 0x100000)
  else if 0x40000000 ≤ a ∧ a < 0x40120000 then .regs
  else .none

/-- The range that holds all of `[a, a + n)`; `.none` where R25 gives a bus error. -/
def rangeFor (a n : Nat) : Rng := if rangeOf a = rangeOf (a + (n - 1)) then rangeOf a else .none

/-- Is `[a, a + n)` inside shared SRAM below the dump bay? -/
def inSramArea (a n : Nat) : Bool := 0x10000000 ≤ a && a + n ≤ 0x11FC0000

/-- Is `[a, a + n)` inside shared SRAM? -/
def inSram (a n : Nat) : Bool := 0x10000000 ≤ a && a + n ≤ 0x12000000

/-! ### Data cache lines and raw writes -/

/-- Drop a line from the data cache of core `c`. -/
def State.dropLine (s : State) (c line : Nat) : State :=
  let k := c * 256 + line / 32 % 256
  { s with dcache := Tab.set (fun _ => []) s.dcache k ((Tab.get (fun _ => []) s.dcache k).filter (· ≠ line)) }

/-- Lines of 32 bytes that `[a, a + n)` touches. -/
def linesOf (a n : Nat) : List Nat :=
  if n = 0 then [] else (List.range ((a + n - 1) / 32 - a / 32 + 1)).map (fun i => (a / 32 + i) * 32)

/-- Invalidate the lines of `[a, a + n)` in the data caches of every core but `who` (R271). -/
def State.invalidate (s : State) (who : Option Nat) (a n : Nat) : State :=
  s.each ((List.range 6).filter (fun c => who ≠ some c)) (fun s c => s.each (linesOf a n) (fun s l => s.dropLine c l))

/-- Store bytes without any check. -/
def State.poke (s : State) (a : Nat) : List Nat → State
  | [] => s
  | b :: t => State.poke (s.setByte a (BitVec.ofNat 8 b)) (a + 1) t

/-! ### ECC of shared SRAM -/

/-- Aligned 8-byte words that `[a, a + n)` touches. -/
def ecwOf (a n : Nat) : List Nat :=
  if n = 0 then [] else (List.range ((a + n - 1) / 8 - a / 8 + 1)).map (fun i => (a / 8 + i) * 8)

/-- The ECC finding of a word: `some true` uncorrectable, `some false` single-bit. -/
def State.eccOf (s : State) (w : Nat) : Option Bool := (s.eccBad.find? (fun x => x.1 == w)).map (·.2)

/-- Make a word's check code valid. -/
def State.eccClear (s : State) (w : Nat) : State := { s with eccBad := s.eccBad.filter (fun x => x.1 ≠ w) }

/-- A single-bit finding: corrected in place, counted, CE raised (R334). -/
def State.eccCorrect (s : State) (w : Nat) : State :=
  let b := pg 0x090
  let s := if s.get b Mem.CE_CNT_COUNT = 0 then s.put b Mem.CE_ADDR_ADDR w else s
  (((s.count b Mem.CE_CNT_COUNT).raise 0x090 0).eccClear w).faultFixed 0x0A 8 w

/-- An uncorrectable finding: counted, UE raised; the word stays (R334). -/
def State.eccFatal (s : State) (w : Nat) : State :=
  let b := pg 0x090
  let s := if s.get b Mem.UE_CNT_COUNT = 0 then s.put b Mem.UE_ADDR_ADDR w else s
  ((s.count b Mem.UE_CNT_COUNT).raise 0x090 1).faultNoted 0x0B 8 w 0

/-- Check the words of a read of shared SRAM; also answers whether every word is usable (R334). -/
def State.eccRead (s : State) (a n : Nat) : State × Bool :=
  (ecwOf a n).foldl (fun (s, ok) w =>
    match s.eccOf w with
    | none => (s, ok)
    | some false => (s.eccCorrect w, ok)
    | some true => (s.eccFatal w, false)) (s, true)

/-- Check codes after a write of `[a, a + n)`: a fully written word becomes valid, a narrow write corrects a single-bit
error and leaves an uncorrectable word poisoned (R334). -/
def State.eccWord (s : State) (w : Nat) (full : Bool) : State :=
  if full then s.eccClear w
  else match s.eccOf w with
    | none => s
    | some false => s.eccCorrect w
    | some true => s.eccFatal w
def State.eccWrite (s : State) (a n : Nat) : State :=
  s.each (ecwOf a n) (fun s w => s.eccWord w (decide (a ≤ w ∧ w + 8 ≤ a + n)))

/-- A write that reaches shared SRAM or a TLM: bytes stored, check codes kept, lines invalidated in the data caches of
every core but `who` (R271, R334). -/
def State.store (s : State) (who : Option Nat) (a : Nat) (bytes : List Nat) : State :=
  let n := bytes.length
  let s := if rangeOf a = .sram then s.eccWrite a n else s
  (s.poke a bytes).invalidate who a n

/-! ### Write buffers -/

/-- The write buffer of a core. -/
def State.wb (s : State) (c : Nat) : List WbLine := s.wbuf[c]?.getD []

/-- Replace the write buffer of a core. -/
def State.setWb (s : State) (c : Nat) (l : List WbLine) : State :=
  { s with wbuf := s.wbuf.setIfInBounds c l }

/-- The enabled bytes of the 8-byte word `k` of an entry, as offsets. -/
def WbLine.enabled (e : WbLine) (k : Nat) : List Nat := ((List.range 8).map (8 * k + ·)).filter (fun i => e.mask.getLsbD i)

/-- Store the enabled bytes of an entry in memory: each word once, whole where all its bytes are enabled (R267, R334). -/
def State.storeEntry (s : State) (c : Nat) (e : WbLine) : State :=
  let s := s.each (List.range 4) (fun s k =>
    let l := e.enabled k
    let s := if l ≠ [] ∧ rangeOf e.line = .sram then s.eccWord (e.line + 8 * k) (l.length == 8) else s
    s.each l (fun s i => s.setByte (e.line + i) (BitVec.ofNat 8 (e.data.toNat >>> (8 * i)))))
  s.invalidate (some c) e.line 32

/-- Drain the entry for a line from core `c`'s write buffer (R267, R271). -/
def State.drainLine (s : State) (c line : Nat) : State :=
  match (s.wb c).find? (fun e => e.line == line) with
  | none => s
  | some e => (s.setWb c ((s.wb c).filter (fun x => x.line ≠ line))).storeEntry c e

/-- Drain the whole write buffer of a core, oldest first. -/
def State.drainAll (s : State) (c : Nat) : State := s.each ((s.wb c).map (·.line)) (fun s l => s.drainLine c l)

/-- A device read probes all six write buffers (R269). -/
def State.probe (s : State) (a n : Nat) : State :=
  s.each (List.range 6) (fun s c => s.each (linesOf a n) (fun s l => s.drainLine c l))

/-- Does an access to the flash window wait because the flash and Annal island has no clock (spec/01 R27, R30)? -/
def State.flashWaits (s : State) (a : Nat) : Bool := rangeOf a == .flash && decide (Island.flash ∈ s.stalled)

/-! ### Device accesses -/

/-- A device read of memory: `none` is a bus error (R25, R269, R334). -/
def State.devRead (s : State) (a n : Nat) : State × Option (List Nat) :=
  match rangeFor a n with
  | .sram =>
    let s := s.probe a n
    let (s, ok) := s.eccRead a n
    (s, if ok then some (s.bytesAt a n) else none)
  | .tlm _ | .flash | .rom => (s, some (s.bytesAt a n))
  | _ => (s, none)

/-- Is a write to `[a, a + n)` refused because the dump bay is valid and protected (R345)? -/
def State.bayLocked (s : State) (a n : Nat) : Bool :=
  s.flag (pg 0x093) Dump.DUMP_CTL_DUMP_VALID && s.flag (pg 0x093) Dump.DUMP_CTL_PROT &&
    decide (a < 0x12000000 ∧ 0x11FC0000 < a + n)

/-- A write of memory by a block's engine or the debug access register, whom R345 does not keep from the dump bay: false is a
bus error, which changes nothing (R25) (DEDUCED, log entry 97). -/
def State.blockWrite (s : State) (a : Nat) (bytes : List Nat) : State × Bool :=
  match rangeFor a bytes.length with
  | .sram | .tlm _ => (s.store none a bytes, true)
  | _ => (s, false)

/-- A write of memory by a DMA channel or the host SPI target (R345). -/
def State.devWrite (s : State) (a : Nat) (bytes : List Nat) : State × Bool :=
  match rangeFor a bytes.length with
  | .sram => if s.bayLocked a bytes.length then (s, false) else (s.store none a bytes, true)
  | .tlm _ => (s.store none a bytes, true)
  | _ => (s, false)

/-- A block's write to an address it has checked. -/
def State.put8 (s : State) (a : Nat) (bytes : List Nat) : State := (s.blockWrite a bytes).1

end Sys2Proof.Machine
end

