-- ==== Sys2Proof/Machine/Snap.lean ====
section
/-! DEFINITION. Sample time (spec/01 R18, R19, spec/05 R114) and the capture in progress (spec/04 R85 to R89). -/

namespace Sys2Proof.Machine

/-! ### Sample time: sample n is at the chain output at smpZ + 8000 n / 1023 ticks -/

/-- Tick reached at sample `n`. -/
def State.tickOf (s : State) (n : Nat) : Nat := s.smpZ + 8000 * n / 1023

/-- First sample whose instant is at or after tick `t`. -/
def State.sampleAt (s : State) (t : Nat) : Nat := ((t - s.smpZ) * 1023 + 7999) / 8000

/-- First sample after tick `t`. -/
def State.sampleAfter (s : State) (t : Nat) : Nat := ((t - s.smpZ) * 1023) / 8000 + 1

/-- First sample after the present instant. -/
def State.nextSample (s : State) : Nat := s.sampleAfter s.now

/-- Time runs to sample `n`. -/
def State.runToSample (s : State) (n : Nat) : State := s.runTo ((s.smpZ * 1023 + 8000 * n + 1022) / 1023)

/-- The last sample that has reached the chain outputs by now. -/
def State.curSample (s : State) : Nat := (s.now - s.smpZ) * 1023 / 8000

/-- What the time replica of an island (its place in R13) shows when the base counter is at `t`: that count or one tick less, a free
choice for each island and tick (R19; DESIGN CHOICE, log entry 1). -/
def replica (island t : Nat) : Nat := t - (if Config.replicaLags island t then 1 else 0)

/-- Base counter as the replica of the correlator island shows it at sample `n` (R19). -/
def State.replicaAt (s : State) (n : Nat) : Nat := replica 1 (s.tickOf n)

/-- The sample edge at which the correlator island carries out an action for tick `t`: the first at which its replica has reached `t`,
and not before the present sample (R21). -/
def State.edgeFor (s : State) (t : Nat) : Nat :=
  let m := s.sampleAt t
  max (if s.replicaAt m < t then m + 1 else m) s.curSample

/-! ### Calendar actions on their way to another island (R21, R22) -/

/-- Add a dispatched action, by instant and ascending entry number. -/
def Action.insert (x : Action) : List Action → List Action
  | [] => [x]
  | y :: t => if y.fire < x.fire ∨ (y.fire = x.fire ∧ y.entry ≤ x.entry) then y :: Action.insert x t else x :: y :: t

/-- The next dispatched action that `p` picks, where the command names it, and the state without it: actions are carried out in order,
and a command that names another one finds nothing to carry out. -/
def State.takeAct (s : State) (p named : Action → Bool) : Option (Action × State) :=
  match s.acts.find? p with
  | none => none
  | some x => if named x then some (x, { s with acts := s.acts.erase x }) else none

/-! ### The chains' SAMPLE_VALID (spec/03 R51) -/

/-- Page of chain `i` (AH, AL, BH, BL). -/
def Rfe.page (i : Nat) : Nat := 0x010 + i

/-- The chain record. -/
def State.ch (s : State) (i : Nat) : Chain := s.chains[i]?.getD Chain.init

/-- Replace the chain record. -/
def State.setCh (s : State) (i : Nat) (c : Chain) : State := { s with chains := s.chains.setIfInBounds i c }

/-- Change the chain record. -/
def State.modCh (s : State) (i : Nat) (f : Chain → Chain) : State := s.setCh i (f (s.ch i))

/-- The band LO calibration of a band. -/
def State.oscOf (s : State) (band : Nat) : Option OscCal := (s.osc[band]?).join

/-- Replace the band LO calibration. -/
def State.setOsc (s : State) (band : Nat) (o : Option OscCal) : State := { s with osc := s.osc.setIfInBounds band o }

/-- The band of a chain: 0 H, 1 L. -/
def Rfe.band (i : Nat) : Nat := i % 2

/-- Band LO locked and released (BLOCK_STAT.LO_LOCKED): PLL in LOCKED, GLIDE or HOLD and not gated. -/
def State.loUp (s : State) (band : Nat) : Bool :=
  let b := pg 0x00A + 0x40 * band
  let st := s.get (b + 0x100) Pll.PLL_STAT_STATE
  (st == 3 || st == 4 || st == 5) && !s.flag (b + 0x100) Pll.PLL_STAT_GATED

/-- Does a band LO calibration run? -/
def State.oscRuns (s : State) (band : Nat) : Bool :=
  match s.oscOf band with
  | some o => o.elapsed.isSome
  | none => false

/-- Level of a chain's SAMPLE_VALID (R51); without a sample clock no sample is valid (spec/15 R359). -/
def Rfe.sampleValid (s : State) (i : Nat) : Bool :=
  s.en (Rfe.page i) && (s.ch i).valid && (s.ch i).calRun.isNone && s.loUp (Rfe.band i) && !s.oscRuns (Rfe.band i) &&
    !(s.stalled.any (· == .rf))

/-- SAMPLE_VALID of chain `i` at sample `n`. -/
def State.validAt (s : State) (i n : Nat) : Bool :=
  match s.validLog.find? (fun e => e.1 == i && decide (e.2.1 ≤ n)) with
  | some e => e.2.2
  | none => false

/-- Is every one of the `k` samples from `n` of chain `i` valid? -/
def State.validSpan (s : State) (i n k : Nat) : Bool :=
  s.validAt i n && s.validLog.all (fun e => e.1 != i || decide (e.2.1 ≤ n ∨ n + k ≤ e.2.1) || e.2.2)

/-- Note the chains whose SAMPLE_VALID has changed, from the present sample on. -/
def State.noteValid (s : State) : State :=
  s.each (List.range 4) (fun s i =>
    let v := Rfe.sampleValid s i
    let m := s.sampleAt s.now
    if s.validAt i m = v then s else { s with validLog := (i, m, v) :: s.validLog })

/-- A sample of a channel's source, of a beam or of a chain: I, Q and SAMPLE_VALID. -/
structure Iq where
  i     : Int
  q     : Int
  valid : Bool
  deriving DecidableEq, Repr

/-- The output of chain `i` at sample `n`: zero and invalid under R51; else what its digital path gave over the last period, or
`x` outside it (DESIGN CHOICE, log entry 103). -/
def State.chainSmp (s : State) (i n : Nat) (x : Int × Int) : Iq :=
  if s.validAt i n then
    let c := s.ch i
    let y := if c.outAt ≤ n then (c.out[n - c.outAt]?).getD x else x
    ⟨y.1, y.2, true⟩
  else ⟨0, 0, false⟩

/-! ### The capture in progress -/

/-- Samples per chain that the capture has taken so far. -/
def Snap.taken (s : State) (c : Snap) : Nat := s.nextSample - c.first

/-- A stop reaches the capture (R88): a one-shot ends after the sample in progress, TRUNCATED; a ring runs LEN × 512
samples more, or ends at once when it has not filled yet.  A second stop changes nothing. -/
def Snap.stopNow (s : State) : State :=
  match s.snap with
  | none => s
  | some c =>
    if c.stop.isSome then s
    else if c.ring then
      let n := Snap.taken s c
      let full := decide (c.len * 1024 ≤ n)
      { s with snap := some { c with stop := some (if full then n + c.len * 512 else n) } }.put (pg 0x020)
        Acq.SNAP_STAT_STATE 3
    else { s with snap := some { c with stop := some (min (Snap.taken s c) (c.len * 1024)), trunc := true } }

/-- A CLIP event of chain `i` (R88). -/
def Snap.clip (s : State) (i : Nat) : State :=
  match s.snap with
  | some c => if c.chains.testBit i && s.wflag (pg 0x020) Acq.SNAP_CFG_STOP_CLIP then Snap.stopNow s else s
  | none => s

/-- Chain `i` changes its gain: the new gain holds from the first sample after the tick (R89) (DESIGN CHOICE, log entry 34). -/
def Snap.gain (s : State) (i g : Nat) : State :=
  match s.snap with
  | some c => if c.chains.testBit i then { s with snap := some { c with gains := (i, s.nextSample, g) :: c.gains } } else s
  | none => s

end Sys2Proof.Machine
end

