-- ==== Sys2Proof/Machine/Codes.lean ====
section
/-! DEFINITION. Signal codes, the code store and the chips of a sequence (spec/05 R104 to R109). -/

namespace Sys2Proof.Machine

/-- Where a secondary sequence comes from (R104). -/
inductive SecSrc where
  | none | fixed (len : Nat) | store | dir
  deriving DecidableEq, Repr

/-- A row of the signal table (R104): primary in the code store, primary chips, period in ms, chip rate in units of
1.023 Mcps, largest SUBC, secondary source, largest code number. -/
structure Sig where
  inStore : Bool
  len     : Nat
  ms      : Nat
  rate    : Nat
  subc    : Nat
  sec     : SecSrc
  maxNum  : Nat
  deriving DecidableEq, Repr

/-- The signal table (R104); the user code 0x3F takes its lengths from the directory. -/
def sigOf (c : Nat) : Option Sig :=
  match c with
  | 0x01 => some ⟨false, 1023, 1, 1, 0, .none, 63⟩
  | 0x02 => some ⟨true, 10230, 10, 1, 1, .none, 63⟩
  | 0x03 => some ⟨true, 10230, 10, 1, 2, .store, 63⟩
  | 0x04 => some ⟨true, 4092, 4, 1, 1, .none, 50⟩
  | 0x05 => some ⟨true, 4092, 4, 1, 1, .fixed 25, 50⟩
  | 0x06 => some ⟨true, 10230, 10, 1, 1, .none, 63⟩
  | 0x07 => some ⟨true, 10230, 10, 1, 1, .store, 63⟩
  | 0x08 => some ⟨false, 1023, 1, 1, 0, .none, 39⟩
  | 0x09 => some ⟨false, 1023, 1, 1, 0, .none, 10⟩
  | 0x0A => some ⟨true, 10230, 10, 1, 1, .none, 10⟩
  | 0x0B => some ⟨true, 10230, 10, 1, 2, .store, 10⟩
  | 0x11 => some ⟨false, 10230, 1, 10, 0, .fixed 10, 63⟩
  | 0x12 => some ⟨false, 10230, 1, 10, 0, .fixed 20, 63⟩
  | 0x13 => some ⟨false, 10230, 1, 10, 0, .fixed 20, 50⟩
  | 0x14 => some ⟨false, 10230, 1, 10, 0, .store, 50⟩
  | 0x15 => some ⟨false, 10230, 1, 10, 0, .fixed 5, 63⟩
  | 0x16 => some ⟨false, 10230, 1, 10, 0, .store, 63⟩
  | 0x17 => some ⟨false, 10230, 1, 10, 0, .none, 39⟩
  | 0x18 => some ⟨false, 10230, 1, 10, 0, .fixed 10, 10⟩
  | 0x19 => some ⟨false, 10230, 1, 10, 0, .fixed 20, 10⟩
  | 0x3F => some ⟨true, 0, 0, 0, 1, .dir, 63⟩
  | _ => none

/-- Least code number: 0 for the user code, else 1 (R104). -/
def sigMinNum (c : Nat) : Nat := if c = 0x3F then 0 else 1

/-- Is a code number defined for a signal code? -/
def codeNumOk (c n : Nat) : Bool :=
  match sigOf c with
  | some g => sigMinNum c ≤ n && n ≤ g.maxNum
  | none => false

/-- A word of the code store by word address. -/
def State.codeWord (s : State) (w : Nat) : Nat := (Tab.get (fun _ => (0 : Word)) s.code w).toNat

/-- Write a word of the code store: its parity is good again.  While there are channels its old value stays known for the chips that
they have generated before (R109). -/
def State.setCodeWord (s : State) (w v : Nat) : State :=
  let m := s.sampleAt s.now
  let log := if s.chan.isEmpty then [] else
    (m, w, Tab.get (fun _ => (0 : Word)) s.code w) :: s.codeLog.filter (fun e => decide (m < e.1 + 2 ^ 24))
  { s with code := Tab.set (fun _ => (0 : Word)) s.code w (BitVec.ofNat 32 v), codeBad := s.codeBad.filter (· ≠ w), codeLog := log }

/-- The machine with the code store as it was at sample `n` (R109). -/
def State.storeAt (s : State) (n : Nat) : State :=
  { s with code := (s.codeLog.takeWhile (fun e => decide (n < e.1))).foldl (fun c e => Tab.set (fun _ => (0 : Word)) c e.2.1 e.2.2) s.code }

/-- Bit `n` of the code store (R106). -/
def State.codeBit (s : State) (n : Nat) : Bool := (s.codeWord (n / 32 % 2 ^ 18)).testBit (n % 32)

/-- Word `k` of the directory entry of signal code `c`, number `n` (R107). -/
def State.dirWord (s : State) (c n k : Nat) : Nat := s.codeWord (4 * (64 * c + n) + k)

/-- Primary length in chips. -/
def State.priLen (s : State) (c n : Nat) : Nat :=
  match sigOf c with
  | some g => if c = 0x3F then s.dirWord c n 1 % 2 ^ 16 else g.len
  | none => 0

/-- Chip rate in units of 102.3 kcps. -/
def State.rate10 (s : State) (c n : Nat) : Nat :=
  match sigOf c with
  | some g => if c = 0x3F then s.dirWord c n 1 / 2 ^ 16 % 2 ^ 8 else 10 * g.rate
  | none => 0

/-- Secondary length of a signal that has one: of a sequence in the store the directory's SEC_LEN (R107). -/
def State.secLen (s : State) (c n : Nat) : Nat :=
  match sigOf c with
  | some g =>
    match g.sec with
    | .none => 0
    | .fixed l => l
    | .store => s.dirWord c n 3 % 2 ^ 16
    | .dir => if (s.dirWord c n 2).testBit 31 then s.dirWord c n 3 % 2 ^ 16 else 0
  | none => 0

/-- Is the code valid in the store, `sec` telling whether a secondary sequence is used (R107)? -/
def State.codeValid (s : State) (c n : Nat) (sec : Bool) : Bool :=
  match sigOf c with
  | none => false
  | some g =>
    let pri := !g.inStore || (s.dirWord c n 0).testBit 31
    let user := c != 0x3F || (7 ≤ s.rate10 c n && s.rate10 c n ≤ 200 && s.priLen c n != 0)
    let secOk := match g.sec with
      | .store => !sec || (s.dirWord c n 2).testBit 31
      | _ => true
    pri && user && secOk

/-- Chip of the primary sequence: true stands for −1 (R106). -/
def State.priChip (s : State) (c n i : Nat) : Bool :=
  match sigOf c with
  | some g => if g.inStore then s.codeBit (s.dirWord c n 0 % 2 ^ 23 + i) else Config.genChip c n i
  | none => false

/-- Chip of the secondary sequence used by period `p` with offset `ofs`; true stands for −1 (R120). -/
def State.secChip (s : State) (c n p ofs : Nat) : Bool :=
  let l := s.secLen c n
  if l = 0 then false
  else
    let i := (p + ofs) % l
    match sigOf c with
    | some g =>
      match g.sec with
      | .fixed _ => Config.secChip c n i
      | .none => false
      | _ => s.codeBit (s.dirWord c n 2 % 2 ^ 23 + i)
    | none => false

/-- Sign of the replica at chip `i`, chip fraction `f` in 2^-40: primary chip times subcarrier; true stands for −1.
The subcarrier starts positive at each chip (PRESUMED, log entry 13). -/
def State.replica (s : State) (c n subc i f : Nat) : Bool :=
  let sub := if subc = 0 then false
    else if subc = 2 && Config.tmbocPos (i % 33) then (12 * f / 2 ^ 40) % 2 == 1
    else (2 * f / 2 ^ 40) % 2 == 1
  s.priChip c n i != sub

/-- A word read with bad parity is used as read, recorded in CS_ERR, and PARITY raised (R109). -/
def State.parity (s : State) (w : Nat) : State :=
  if w ∈ s.codeBad then
    let b := pg 0x028
    let s := if s.flag b Code.CS_ERR_PERR then s else (s.put b Code.CS_ERR_ADDR w).put b Code.CS_ERR_PERR 1
    s.raise 0x028 1
  else s

/-- Parity of the words that hold a code's directory entry, its primary sequence when that is in the store, and the chips `sec` of
its secondary sequence when that is in the store (R109). -/
def State.parityOf (s : State) (c n : Nat) (sec : List Nat) : State :=
  match sigOf c with
  | some g =>
    let second := (g.sec == .store || g.sec == .dir) && !sec.isEmpty
    if s.codeBad.isEmpty || !(g.inStore || second) then s
    else
      let a := s.dirWord c n 0 % 2 ^ 23
      let b := s.dirWord c n 2 % 2 ^ 23
      let l := s.priLen c n
      s.each (s.codeBad.filter (fun w => 4 * (64 * c + n) ≤ w ∧ w < 4 * (64 * c + n) + 4 ∨
        g.inStore ∧ a / 32 ≤ w ∧ w ≤ (a + l - 1) / 32 ∨ second ∧ sec.any (fun i => (b + i) / 32 == w))) State.parity
  | none => s

/-! ### CRC-32C of the store (R136) -/

/-- One bit of the reflected CRC-32C. -/
def crcBit (r : Nat) : Nat := if r % 2 = 1 then (r / 2) ^^^ 0x82F63B78 else r / 2

/-- One byte into the running CRC-32C. -/
def crcByte (r b : Nat) : Nat :=
  crcBit (crcBit (crcBit (crcBit (crcBit (crcBit (crcBit (crcBit (r ^^^ (b % 256)))))))))

/-- CRC-32C of bytes (PRESUMED, log entry 41). -/
def crc32c (l : List Nat) : Nat := l.foldl crcByte 0xFFFFFFFF ^^^ 0xFFFFFFFF

/-- `n` more words of the store from word `w` into the running CRC. -/
def State.crcWords (s : State) (r : Nat) : Nat → Nat → Nat
  | _, 0 => r
  | w, n + 1 => State.crcWords s ((leBytes 4 (s.codeWord w)).foldl crcByte r) (w + 1) n

/-- A word at CS_ADDR is written while a computation may run: the part already passed is done with the old word. -/
def Code.advance (s : State) : State :=
  match s.crcRun with
  | none => s
  | some done =>
    -- the computation's position when the access arrives is not fixed: a free value (DESIGN CHOICE, log entry 1)
    if s.frozen 0x028 then s
    else
      let (k, s) := s.draw (2 ^ 18 - done + 1)
      { s with crcAcc := BitVec.ofNat 32 (s.crcWords s.crcAcc.toNat done k), crcRun := some (done + k) }

/-- CS_DATA written: the word is stored, CS_ADDR advances by 4 within 1 MB (R136). -/
def Code.dataWrite (s : State) (v : Nat) : State :=
  let s := Code.advance s
  let b := pg 0x028
  let w := s.get b Code.CS_ADDR_WADDR
  (s.setCodeWord w v).put b Code.CS_ADDR_WADDR (w + 1)

/-- CS_DATA read: the word at CS_ADDR, and CS_ADDR advances (R136). -/
def Code.dataRead (s : State) : Nat × State :=
  let b := pg 0x028
  let w := s.get b Code.CS_ADDR_WADDR
  (s.codeWord w, (s.parity w).put b Code.CS_ADDR_WADDR (w + 1))

/-- A CRC command starts a computation over the whole store (R136). -/
def Code.crcStart (s : State) : State := { s with crcRun := some 0, crcAcc := 0xFFFFFFFF }

/-- CRC_DONE: the computation completes, CS_CRC holds its result, CRC_DONE is raised. -/
def execCrcDone (s : State) : Out :=
  match s.crcRun with
  | none => .next s
  | some done =>
    if s.frozen 0x028 then .next s
    else
      let r := s.crcWords s.crcAcc.toNat done (2 ^ 18 - done) ^^^ 0xFFFFFFFF
      .next (({ s with crcRun := none }.put (pg 0x028) Code.CS_CRC_CRC r).raise 0x028 0)

/-- BLOCK_STAT of the CODE page. -/
def Code.blockStat (s : State) : Nat := b2n s.crcRun.isSome

/-- Special effects of a write to a CODE register. -/
def Code.write (s : State) (off v : Nat) (store : State → State) : State :=
  if off = 0x044 then Code.dataWrite s v
  else if off = 0x048 then (if v % 2 = 1 then Code.crcStart s else s)
  else store s

end Sys2Proof.Machine
end

