-- ==== Sys2Proof/Machine/Num.lean ====
section
/-! DEFINITION. Exact decibel arithmetic: comparisons with powers of ten in place of logarithms. -/

namespace Sys2Proof.Machine

/-- The largest `k` below `2 ^ fuel` with `den ^ m * 10 ^ (a * k) ≤ c * num ^ m`, found bit by bit from the top. -/
def logSearch (num den m a c : Nat) : Nat → Nat → Nat
  | 0, acc => acc
  | fuel + 1, acc =>
    let k := acc + 2 ^ fuel
    if den ^ m * 10 ^ (a * k) ≤ c * num ^ m then logSearch num den m a c fuel k else logSearch num den m a c fuel acc

/-- floor(2560 × log10(num / den)) for num ≥ den > 0, below 2^16. -/
def dbFloor (num den : Nat) : Nat := logSearch num den 2560 1 1 16 0

/-- Is 2560 × log10(num / den) the whole number `k`? -/
def dbExact (num den k : Nat) : Bool := den ^ 2560 * 10 ^ k == num ^ 2560

/-- round(256 × 10 × log10(num / den)), halves up; 0 for a ratio below 1 or an empty denominator (spec/03 R72). -/
def dbRound (num den : Nat) : Nat :=
  if den = 0 ∨ num < den then 0 else logSearch num den 5120 2 10 16 0

/-- The number of `d` from 1 to `fuel` with |10 log10 (num / den)| ≥ (d − 1/2) × 2^sh: floor(|e| / 2^sh + 1/2) limited to
`fuel`, for num ≥ den (spec/03 R55). -/
def dbSteps (num den sh : Nat) : Nat → Nat
  | 0 => 0
  | d + 1 => if den ^ 20 * 10 ^ ((2 * d + 1) * 2 ^ sh) ≤ num ^ 20 then d + 1 else dbSteps num den sh d

/-- |10 log10 (num / den)| ≤ db, for num ≥ den. -/
def dbWithin (num den db : Nat) : Bool := num ^ 10 ≤ den ^ 10 * 10 ^ db

end Sys2Proof.Machine
end

