-- ==== Sys2Proof/Machine/Search.lean ====
section
/-! DEFINITION. The parallel code-phase search of an acquisition job (spec/04 R90 to R94): decimated samples, replica,
cells, local peaks and candidates.  Phasors are fixed point with 30 fraction bits (DESIGN CHOICE, log entry 15). -/

namespace Sys2Proof.Machine

/-- binary32 bits of `num / den` for a non-negative ratio, to nearest even; the largest finite value where it is above. -/
def toB32 (num den : Nat) : Nat :=
  if num = 0 ∨ den = 0 then 0
  else
    -- e with 2^e ≤ num/den < 2^(e+1)
    let e0 : Int := (Nat.log2 num : Int) - (Nat.log2 den : Int)
    let lt := if e0 ≥ 0 then num < den * 2 ^ e0.toNat else num * 2 ^ (-e0).toNat < den
    let e := max (if lt then e0 - 1 else e0) (-126)
    let k : Int := 23 - e
    let n := if k ≥ 0 then num * 2 ^ k.toNat else num
    let d := if k ≥ 0 then den else den * 2 ^ (-k).toNat
    let q := n / d
    let r := n % d
    let q := if 2 * r > d ∨ (2 * r = d ∧ q % 2 = 1) then q + 1 else q
    -- a mantissa of 2^24 carries into the exponent by itself
    let w := q + (if q < 2 ^ 23 then 0 else ((e + 126).toNat) * 2 ^ 23)
    min w 0x7F7FFFFF

/-- π in units of 2^-40. -/
def pi40 : Int := 3454217652358

/-- Sine and cosine terms by Taylor series in 2^-40: `n` more terms after `t` of order `k`. -/
def taylor (x2 t : Int) (k : Nat) : Nat → Int
  | 0 => t
  | n + 1 => t + taylor x2 (-(t * x2 / 2 ^ 40) / ((k + 1) * (k + 2) : Nat)) (k + 2) n

/-- cos and sin of `ph` / 2^32 turns, 30 fraction bits. -/
def phasor (ph : Nat) : Int × Int :=
  let p : Nat := ph % 2 ^ 32
  -- nearest quarter turn, remainder in (-1/8, 1/8] turns
  let q : Nat := (p + 2 ^ 29) / 2 ^ 30
  let r : Int := (p : Int) - ((q * 2 ^ 30 : Nat) : Int)
  let x := r * pi40 * 2 / 2 ^ 32
  let x2 := x * x / 2 ^ 40
  let c := taylor x2 (2 ^ 40) 0 8 / 2 ^ 10
  let s := taylor x2 x 1 8 / 2 ^ 10
  match q % 4 with
  | 0 => (c, s) | 1 => (-s, c) | 2 => (-c, -s) | _ => (s, -c)

/-- A job's descriptor (R95). -/
structure Desc where
  (tag sig prn chain decim fft nc capBlk opts capSeq start coh codeStart : Nat)
  (fCenter : Int)
  (fStep nf excl thr result : Nat)
  deriving DecidableEq, Repr

/-- Read a descriptor's bytes. -/
def Desc.of (d : List Nat) : Desc :=
  let f (o n : Nat) : Nat := leNat ((d.drop o).take n)
  { tag := f 0 2, sig := f 2 1 % 64, prn := f 3 1, chain := f 4 1 % 4, decim := f 5 1, fft := f 6 1, nc := f 7 1,
    capBlk := f 8 1, opts := f 9 1, capSeq := f 10 2, start := f 12 4, coh := f 16 4, codeStart := f 20 4,
    fCenter := toSigned 32 (f 24 4), fStep := f 28 4, nf := f 32 2, excl := max (f 34 1) 1, thr := f 35 1,
    result := f 36 4 }

/-- Doppler of bin `j` in mHz. -/
def Desc.f (d : Desc) (j : Nat) : Int := d.fCenter + ((j : Int) - (d.nf / 2 : Nat)) * d.fStep

/-- Carrier frequency of the chain's band in mHz (R90). -/
def Desc.fc (d : Desc) : Nat := if d.chain % 2 = 0 then 1575420000000 else 1176450000000

/-- Native samples of the span (R93). -/
def Desc.span (d : Desc) : Nat := ((d.nc - 1) * d.coh + 2 ^ d.fft) * d.decim

/-- Nominal chip rate in Hz. -/
def Desc.rc (s : State) (d : Desc) : Nat := 102300 * s.rate10 d.sig d.prn

/-- Does the replica carry BOC(1,1) (R91)? -/
def Desc.boc (d : Desc) : Bool :=
  !d.opts.testBit 1 && (d.sig ∈ [0x02, 0x03, 0x04, 0x05, 0x06, 0x07, 0x0A, 0x0B] : Bool)

/-- Largest D (R93). -/
def Desc.maxDecim (s : State) (d : Desc) : Nat :=
  if d.sig = 0x3F then min 64 (81840000 / (2 * max (Desc.rc s d) 1))
  else if 0x11 ≤ d.sig then 4 else if d.boc then 20 else 40

/-- Replica chip (±1) at native sample `m` of bin `j` (R90 to R92). -/
def Desc.chip (s : State) (d : Desc) (j m : Nat) : Int :=
  let den : Int := 81840000 * d.fc
  let num : Int := (Desc.rc s d : Int) * (d.fc + d.f j)
  let ph2 := floorDiv (2 * (d.codeStart * den + m * num * 65536)) (65536 * den)
  let c := (floorDiv ph2 2 % (max (s.priLen d.sig d.prn) 1 : Nat)).toNat
  if s.priChip d.sig d.prn c != (d.boc && ph2 % 2 == 1) then -1 else 1

/-- The replica of bin `j`: L decimated values. -/
def Desc.replica (s : State) (d : Desc) (j : Nat) : List Int :=
  (List.range d.coh).map (fun m =>
    (List.range d.decim).foldl (fun a i => a + Desc.chip s d j (m * d.decim + i)) 0)

/-- Decimated sample `n` of a block that begins at native sample `at0` (R90). -/
def Desc.decimated (d : Desc) (x : Nat → Int × Int) (j at0 n : Nat) : Int × Int :=
  (List.range d.decim).foldl (fun a i =>
    let k := n * d.decim + i
    let (c, sn) := phasor ((floorDiv (-(d.f j) * k * 2 ^ 32) 81840000000 % (2 ^ 32 : Nat)).toNat)
    let (xi, xq) := x (at0 + k)
    (a.1 + xi * c - xq * sn, a.2 + xi * sn + xq * c)) (0, 0)

/-- |y_k|² of lag `k` against a replica, in units of 2^-60. -/
def corrPower (rep : List Int) (xs : List (Int × Int)) (k : Nat) : Nat :=
  let y := (rep.zip (xs.drop k)).foldl (fun a z => (a.1 + z.1 * z.2.1, a.2 + z.1 * z.2.2)) ((0 : Int), (0 : Int))
  (y.1 * y.1 + y.2 * y.2).toNat

/-- The cells of bin `j` at lags 0 to N − L (R90); a tie in Δ_i is rounded away from zero (DESIGN CHOICE, log entry 110). -/
def Desc.cells (s : State) (d : Desc) (x : Nat → Int × Int) (j : Nat) : List Nat :=
  let lags := 2 ^ d.fft - d.coh + 1
  let rep := Desc.replica s d j
  (List.range d.nc).foldl (fun acc i =>
    let at0 := d.start + i * d.coh * d.decim
    let xs := (List.range (2 ^ d.fft)).map (Desc.decimated d x j at0)
    let sh := roundDiv (i * d.coh * d.f j) d.fc
    let pow := (List.range lags).map (corrPower rep xs)
    acc.zipIdx.map (fun (a, l) =>
      let src := (l : Int) - sh
      if 0 ≤ src ∧ src < lags then a + (pow[src.toNat]?).getD 0 else a)) (List.replicate lags 0)

/-- A peak: power, bin, lag. -/
structure Peak where
  pow : Nat
  bin : Nat
  lag : Nat
  deriving DecidableEq, Repr

/-- Is `a` before `b`: higher, then lower bin, then lower lag (R94)? -/
def Peak.before (a b : Peak) : Bool :=
  b.pow < a.pow || (a.pow == b.pow && (a.bin < b.bin || (a.bin == b.bin && a.lag < b.lag)))

/-- The first peak of a list under `before`. -/
def Peak.best : List Peak → Option Peak
  | [] => none
  | p :: t => match Peak.best t with
    | none => some p
    | some q => if Peak.before q p then some q else some p

/-- Are two lags closer than the exclusion? -/
def within (a b n : Nat) : Bool := decide (max a b - min a b ≤ n)

/-- Up to `n` peaks, each not near one already chosen: within EXCL lags and `bins` bins (R94). -/
def Peak.choose (excl bins : Nat) : Nat → List Peak → List Peak
  | 0, _ => []
  | n + 1, l =>
    match Peak.best l with
    | none => []
    | some p => p :: Peak.choose excl bins n (l.filter (fun q => !(within q.lag p.lag excl && within q.bin p.bin bins)))

/-- Is a cell at least `thr` / 4 dB above the mean `total` / `count` (R94)?  A cell of no power never is. -/
def aboveNoise (pow count total thr : Nat) : Bool :=
  pow != 0 && decide (total ^ 40 * 10 ^ thr ≤ (pow * count) ^ 40)

/-- What a search gives: candidates that reach the threshold, whether more than 8 do, the sum and number of all cells,
and the cells by bin. -/
structure Found where
  cands : List Peak
  more  : Bool
  total : Nat
  count : Nat
  grid  : List (List Nat)

/-- The search (R90 to R94) over samples `x` by logical index. -/
def Desc.search (s : State) (d : Desc) (x : Nat → Int × Int) : Found :=
  let grid := (List.range d.nf).map (Desc.cells s d x)
  let total : Nat := (grid.map (fun c => c.sum)).sum
  let count : Nat := d.nf * (2 ^ d.fft - d.coh + 1)
  let locals : List Peak := grid.zipIdx.flatMap (fun (c, j) =>
    Peak.choose d.excl 0 8 (c.zipIdx.map (fun (p, k) => ⟨p, j, k⟩)))
  let chosen := Peak.choose d.excl 1 locals.length locals
  let good := chosen.filter (fun (p : Peak) => aboveNoise p.pow count total d.thr)
  ⟨good.take 8, decide (8 < good.length), total, count, grid⟩

/-- CODE_PHASE of a lag in 16.16 chips, halves away from zero (R92). -/
def Desc.phase (s : State) (d : Desc) (k : Nat) : Nat :=
  let p := max (s.priLen d.sig d.prn) 1
  let v : Int := d.codeStart - roundDiv ((k * d.decim * Desc.rc s d * 65536 : Nat) : Int) 81840000
  (v % ((p * 65536 : Nat) : Int)).toNat

/-- Bytes of a candidate slot (R97's result table); RATIO is rounded down (DESIGN CHOICE, log entry 110). -/
def Desc.slot (s : State) (d : Desc) (r : Found) (p : Peak) : List Nat :=
  let row := (r.grid[p.bin]?).getD []
  let w (v : Nat) : Nat := toB32 v (2 ^ 60)
  let n := 2 ^ d.fft
  let ratio := if p.pow * r.count < r.total then 0 else logSearch (p.pow * r.count) r.total 40 1 1 8 0
  recBytes [(4, Desc.phase s d p.lag), (4, ofSigned 32 (d.f p.bin)), (4, w p.pow),
    (4, if p.lag = 0 then 0 else w ((row[p.lag - 1]?).getD 0)), (4, w ((row[p.lag + 1]?).getD 0)), (2, p.bin), (1, ratio),
    (1, b2n (p.lag == 0 || p.lag == n - d.coh) + 2 * b2n (p.bin == 0 || p.bin + 1 == d.nf))]

/-- Clocks of a job (R98). -/
def Desc.clocks (d : Desc) : Nat :=
  let n := 2 ^ d.fft
  let t := n * d.fft / 16 + 64
  2048 + d.nf * (t + d.nc * max (n * d.decim / 16) (2 * t + n / 16))

end Sys2Proof.Machine
end

