-- ==== Sys2Proof/Machine/Acq.lean ====
section
/-! DEFINITION. Snapshot capture and the acquisition engines (spec/04): triggers, captures, job queues, results. -/

namespace Sys2Proof.Machine

/-- Page of engine `e`. -/
def Acq.p (e : Nat) : Nat := 0x020 + e

/-- Register base of engine `e`. -/
def Acq.b (e : Nat) : Nat := pg (Acq.p e)

/-- SNAP_BASE as an address. -/
def Acq.snapBase (s : State) : Nat := s.get (Acq.b 0) Acq.SNAP_BASE_BASE * 0x10000

/-- The tag of a block (R84). -/
def State.tag (s : State) (k : Nat) : Tag := Tab.get (fun _ => ⟨0, false, 0⟩) s.tags k

/-- Write a block's tag. -/
def State.setTag (s : State) (k : Nat) (t : Tag) : State :=
  { s with tags := Tab.set (fun _ => ⟨0, false, 0⟩) s.tags k t }

/-- The running job of engine `e`. -/
def State.job (s : State) (e : Nat) : Option Job := (s.jobs[e]?).join

/-- Replace the running job of engine `e`. -/
def State.setJob (s : State) (e : Nat) (j : Option Job) : State := { s with jobs := s.jobs.setIfInBounds e j }

/-- Address of queue slot `q` of engine `e` (R95). -/
def Acq.slotAddr (s : State) (e q : Nat) : Nat := s.get (Acq.b e) Acq.Q_BASE_BASE * 0x1000 + 64 * (q % 64)

/-- Jobs in the queue (R95). -/
def Acq.queued (s : State) (e : Nat) : Nat :=
  (s.get (Acq.b e) Acq.Q_TAIL_TAIL + 128 - s.get (Acq.b e) Acq.Q_HEAD_HEAD) % 128

/-! ### The capture a job reads (R82, R83) -/

/-- A field of a capture header. -/
def hdrF (h : List Nat) (o n : Nat) : Nat := leNat ((h.drop o).take n)

/-- Intervals (address, bytes) of the job's samples in the snapshot buffer. -/
def Acq.intervals (s : State) (d : Desc) (h : List Nat) : List (Nat × Nat) :=
  let len := max (hdrF h 8 4) 1
  let idx := ((List.range d.chain).filter (fun i => (hdrF h 2 1).testBit i)).length
  let at0 := Acq.snapBase s + d.capBlk * 0x10000 + 64 + idx * (s.tag d.capBlk).len * 2048
  let p0 := (hdrF h 12 4 + d.start) % len
  let n := min d.span len
  if p0 + n ≤ len then [(at0 + 2 * p0, 2 * n)] else [(at0 + 2 * p0, 2 * (len - p0)), (at0, 2 * (p0 + n - len))]

/-- Blocks that intervals touch. -/
def Acq.blocksOf (s : State) (l : List (Nat × Nat)) : List Nat :=
  l.flatMap (fun x =>
    let lo := (x.1 - Acq.snapBase s) / 0x10000
    let hi := (x.1 + x.2 - 1 - Acq.snapBase s) / 0x10000
    (List.range (hi + 1 - lo)).map (lo + ·))

/-- Logical sample `l` of the job's chain in memory. -/
def Acq.sampleIn (s : State) (d : Desc) (h : List Nat) (l : Nat) : Int × Int :=
  let len := max (hdrF h 8 4) 1
  let idx := ((List.range d.chain).filter (fun i => (hdrF h 2 1).testBit i)).length
  let at0 := Acq.snapBase s + d.capBlk * 0x10000 + 64 + idx * (s.tag d.capBlk).len * 2048
  let a := at0 + 2 * ((hdrF h 12 4 + l) % len)
  (toSigned 8 (s.byte a).toNat, toSigned 8 (s.byte (a + 1)).toNat)

/-! ### The end of a job (R94 to R96) -/

/-- The job of engine `e` ends with a status; `found` for DONE and DONE_NONE, `cyc` its clocks. -/
def Acq.finish (s : State) (e status cyc : Nat) (found : Option Found) : State :=
  match s.job e with
  | none => s
  | some j =>
    let b := Acq.b e
    let d := Desc.of j.desc
    -- NOISE without a search, and what a header would say that was not read, are open (DEDUCED, log entry 37)
    let (hdr, s) := if j.hdr.length = 64 then (j.hdr, s)
      else
        let (q, s) := s.draw (2 ^ 16)
        let (t, s) := s.draw (2 ^ 64)
        let (f, s) := s.draw 16
        (recBytes [(3, 0), (1, f), (2, q), (10, 0), (8, t)], s)
    let (noise, s) := match found with
      | some r => (toB32 r.total (r.count * 2 ^ 60), s)
      | none => s.draw (2 ^ 32)
    let cands := match found with
      | some r => r.cands
      | none => []
    let more := match found with
      | some r => r.more
      | none => false
    let hf := hdrF hdr 3 1
    let flags := b2n (hf.testBit 2) + 2 * b2n (hf.testBit 1) + 4 * b2n (hf.testBit 3) + 8 * b2n more
    let head := recBytes [(2, 0x4143), (1, status), (1, cands.length), (2, d.tag), (1, d.sig), (1, d.prn),
      (2, hdrF hdr 4 2), (1, d.chain), (1, flags), (4, d.start), (8, hdrF hdr 16 8), (4, noise), (4, cyc)] ++
      List.replicate 32 0
    let slots := match found with
      | some r => r.cands.flatMap (Desc.slot s d r)
      | none => []
    let okAddr := d.result % 64 == 0 && (match rangeFor d.result 256 with
      | .sram | .tlm _ => true
      | _ => false)
    let s := if okAddr then
        let s := if status = 1 then s.put8 (d.result + 64) (slots ++ List.replicate (192 - slots.length) 0) else s
        s.put8 d.result head
      else s
    let status := if okAddr then status else 0x15
    let s := s.put8 (j.at_ + 0x3C) [status]
    let s := if j.flushed then s else s.put b Acq.Q_HEAD_HEAD (s.get b Acq.Q_HEAD_HEAD + 1)
    let s := ((s.put b Acq.ENG_STAT_RUNNING 0).put b Acq.ENG_STAT_INTERRUPTED 0).put b Acq.ENG_CYC_CYCLES cyc
    let s := s.setJob e none
    let s := if 0x10 ≤ status then s.raise (Acq.p e) 1 else s.raiseIf (d.opts.testBit 0) (Acq.p e) 0
    s.raiseIf (!j.flushed && Acq.queued s e == 0) (Acq.p e) 2

/-- Clocks of a job that runs no search to its end: the spec states none, a free value (DESIGN CHOICE, log entry 1). -/
def Acq.finishFree (s : State) (e status : Nat) : State :=
  let (k, s) := s.draw (2 ^ 32)
  Acq.finish s e status k none

/-! ### Capture triggers (R85 to R87) -/

/-- An error of a trigger; a calendar action is logged at offset 0 (R461). -/
def Acq.trigErr (s : State) (code req : Nat) : State :=
  s.logErr (Acq.p 0) code (Acq.b 0 + (if req = 8 then 0 else 0x048)) req

/-- A trigger that starts nothing because of a cause: counted, logged, CAP_MISSED. -/
def Acq.missed (s : State) (code req : Nat) : State :=
  (Acq.trigErr (s.count (Acq.b 0) Acq.SNAP_STAT_MISSED) code req).raise (Acq.p 0) 5

/-- Number of chains in a mask. -/
def chainCount (m : Nat) : Nat := ((List.range 4).filter (fun i => m.testBit i)).length

/-- A trigger whose first sample is `first` (R85 to R87); where several refusals hold, the first of frozen, disabled and busy is logged
(DESIGN CHOICE, log entry 110). -/
def Acq.trigger (s : State) (req first : Nat) (late : Bool) : State :=
  if s.frozen (Acq.p 0) then Acq.missed s 0x41 req
  else if !s.en (Acq.p 0) then Acq.missed s 0x47 req
  else if s.snap.isSome then Acq.missed s 0x41 req
  else
    let b := Acq.b 0
    let s := (s.takePage (Acq.p 0)).1
    let chains := s.wget b Acq.SNAP_CFG_CHAINS
    let len := s.wget b Acq.SNAP_CFG_LEN
    let ofs := s.wget b Acq.SNAP_CFG_OFS
    let bytes := 64 + chainCount chains * len * 2048
    if chains = 0 ∨ 192 * 0x10000 < ofs * 0x10000 + bytes then Acq.trigErr s 0x42 req
    else
      let q := s.get b Acq.SNAP_STAT_SEQ
      let seq := if q = 65535 then 1 else q + 1
      let blocks := (List.range ((bytes + 0xFFFF) / 0x10000)).map (ofs + ·)
      let hit (j : Job) : Bool :=
        (Acq.blocksOf s (Acq.intervals s (Desc.of j.desc) j.hdr)).any (fun k => decide (k ∈ blocks))
      let s := s.each [0, 1] (fun s e => match s.job e with
        | some j => if hit j then Acq.finishFree s e 0x14 else s
        | none => s)
      let s := s.each blocks (fun s k => s.setTag k ⟨seq, true, len⟩)
      let base := Acq.snapBase s
      let s := s.put8 (base + ofs * 0x10000) [0, 0]
      let gains := ((List.range 4).filter (fun i => chains.testBit i)).map
        (fun i => (i, 0, s.get (pg (0x010 + i)) Rfe.GAIN_STAT_GAIN_NOW))
      let ring := s.wflag b Acq.SNAP_CFG_RING
      let c : Snap := { seq := seq, chains := chains, ofs := ofs, len := len, ring := ring, base := base, first := first,
                        stop := none, trunc := false, ovr := false, late := late,
                        syn := s.get (pg 0x009) Clk1.SWITCHES_COUNT, gains := gains }
      let s := { s with snap := some c }
      (s.put b Acq.SNAP_STAT_SEQ seq).put b Acq.SNAP_STAT_STATE (if ring then 2 else 1)

/-- A 1 written to SNAP_CMD.START (R85, R87). -/
def Acq.start (s : State) (req : Nat) : State := Acq.trigger s req (s.sampleAt s.now) false

/-- A snapshot capture action of the calendar at the instant at which it fires, dropped by a frozen page (R44, R85, R87). -/
def Acq.action (s : State) (x : Action) : State :=
  if s.frozen (Acq.p 0) then s.logErr (Acq.p 0) E.FROZEN_ACTION (Acq.b 0) 8
  else Acq.trigger (s.runTo x.fire) 8 (s.sampleAt x.fire) x.late

/-- SNAP_CAPTURE: the next snapshot action that the calendar has dispatched, the one that fires at `fire`, late or not. -/
def execSnapCapture (fire : BitVec 64) (late : Bool) (s : State) : Out :=
  if !s.running .acq then .next s
  else match s.takeAct (fun x => x.act == 5) (fun x => x.fire == fire.toNat && x.late == late) with
    | none => .next s
    | some (x, s) => .next (Acq.action s x)

/-! ### The end of a capture (R82, R83, R87 to R89) -/

/-- Gain of chain `i` at sample `n` by the capture's history. -/
def Snap.gainAt (c : Snap) (i n : Nat) : Nat :=
  match c.gains.find? (fun g => g.1 == i && decide (g.2.1 ≤ n)) with
  | some g => g.2.2
  | none => 0

/-- Bytes of a sample: an invalid one is stored as zero (R83). -/
def sampleBytes (x : Iq) : List Nat := if x.valid then [ofSigned 8 x.i, ofSigned 8 x.q] else [0, 0]

/-- The capture ends after `t` samples per chain: samples, then the header with MAGIC last (R82, R83).  INVALID counts the samples
retained (DESIGN CHOICE, log entry 110); a gain change counts wherever it fell in the capture (R89). -/
def Acq.capEnd (s : State) (c : Snap) (t : Nat) (feed : List (List (Int × Int))) : State :=
  let b := Acq.b 0
  let cap := c.len * 1024
  let k := min t cap
  let wrap := if cap ≤ t then t % cap else 0
  let n0 := c.first + (t - k)
  let s := s.runToSample (c.first + t)
  let chains := (List.range 4).filter (fun i => c.chains.testBit i)
  let hdr := c.base + c.ofs * 0x10000
  let row (s : State) (i : Nat) : List Iq :=
    (List.range k).map (fun l => s.chainSmp ((chains[i]?).getD 0) (n0 + l) ((((feed[i]?).getD [])[l]?).getD (0, 0)))
  let s := s.each (List.range chains.length) (fun s i =>
    let l := row s i
    s.put8 (hdr + 64 + i * cap * 2) ((l.drop (k - wrap) ++ l.take (k - wrap)).flatMap sampleBytes))
  let inval := ((List.range chains.length).map (fun i => ((row s i).filter (fun x => !x.valid)).length)).sum
  let changed := c.gains.any (fun g => decide (c.first < g.2.1 ∧ g.2.1 ≤ n0 + k - 1))
  let gains (n : Nat) : Nat := (chains.map (fun i => Snap.gainAt c i n * 2 ^ (8 * i))).sum
  let flags := b2n c.ring + 2 * b2n changed + 4 * b2n (inval != 0) +
    8 * b2n (s.get (pg 0x009) Clk1.SWITCHES_COUNT != c.syn) + 16 * b2n c.trunc + 32 * b2n c.ovr + 64 * b2n c.late
  let ts := replica 2 (s.tickOf n0)
  let body := recBytes [(1, c.chains), (1, flags), (2, c.seq), (2, 0), (4, k), (4, wrap), (8, ts),
    (4, min inval (2 ^ 32 - 1)), (4, gains n0), (4, gains (n0 + k - 1))] ++ List.replicate 28 0
  let s := (s.put8 (hdr + 2) body).put8 hdr [0x4E, 0x53]
  let bytes := 64 + chains.length * c.len * 2048
  let s := s.each ((List.range ((bytes + 0xFFFF) / 0x10000)).map (c.ofs + ·)) (fun s q =>
    s.setTag q ⟨c.seq, false, c.len⟩)
  let s := { s with snap := none }.put b Acq.SNAP_STAT_STATE 0
  (s.raise (Acq.p 0) 3).raiseIf (c.trunc || c.ovr) (Acq.p 0) 4

/-- CAP_DONE: a one-shot capture that has its samples, or a capture that a stop has ended, is completed
(DEDUCED, log entry 35). -/
def execCapDone (feed : List (List (Int × Int))) (s : State) : Out :=
  match s.snap with
  | none => .next s
  | some c =>
    if !s.running .acq then .next s
    else match c.stop, c.ring with
      | some t, _ => .next (Acq.capEnd s c t feed)
      | none, false => .next (Acq.capEnd s c (c.len * 1024) feed)
      | none, true => .next s

/-- CAP_OVERRUN: the capture ends at the last sample held without a gap (R89). -/
def execCapOverrun (held : Nat) (s : State) : Out :=
  match s.snap with
  | none => .next s
  | some c =>
    if !s.running .acq then .next s
    else
      let t := min held (match c.stop with
        | some t => t
        | none => if c.ring then held else c.len * 1024)
      let s := { s with snap := some { c with stop := some t, ovr := true } }
      .next ((s.put (Acq.b 0) Acq.SNAP_STAT_OVERRUN 1).raise (Acq.p 0) 4)

/-- Freezing ACQ 0 ends the capture at the freeze edge, TRUNCATED (R100). -/
def Acq.freeze (s : State) (e : Nat) : State :=
  match s.snap with
  | some c =>
    if e = 0 then
      let t := match c.stop with
        | some t => min t (Snap.taken s c)
        | none => if c.ring then Snap.taken s c else min (Snap.taken s c) (c.len * 1024)
      { s with snap := some { c with stop := some t, trunc := true } }
    else s
  | none => s

/-! ### Jobs (R93, R95 to R97) -/

/-- BAD_SIGNAL (R93). -/
def Desc.badSignal (s : State) (d : Desc) : Bool :=
  (sigOf d.sig).isNone || (d.sig != 0x3F && d.sig / 16 != d.chain % 2) || !codeNumOk d.sig d.prn ||
    !s.codeValid d.sig d.prn false

/-- BAD_GRID (R93). -/
def Desc.badGrid (s : State) (d : Desc) : Bool :=
  let far (f : Int) : Bool := decide (f < -200000000 ∨ 200000000 < f)
  d.decim == 0 || decide (Desc.maxDecim s d < d.decim) || decide (d.fft < 10 ∨ 16 < d.fft) || d.coh == 0 ||
    decide (2 ^ d.fft < d.coh) || d.nc == 0 || d.nf == 0 || decide (1024 < d.nf) || far (d.f 0) || far (d.f (d.nf - 1)) ||
    (decide (1 < d.nc) && d.coh * d.decim * Desc.rc s d % (s.priLen d.sig d.prn * 81840000) != 0)

/-- NO_CAPTURE: the header at CAP_BLK is not that of the capture, or lacks the chain (R93). -/
def Desc.noHeader (d : Desc) (h : List Nat) : Bool :=
  decide (191 < d.capBlk) || hdrF h 0 2 != 0x534E || hdrF h 4 2 != d.capSeq || !(hdrF h 2 1).testBit d.chain

/-- NO_CAPTURE: a block of the span does not carry the capture as complete (R93, R102). -/
def Desc.noBlocks (s : State) (d : Desc) (h : List Nat) : Bool :=
  (Acq.blocksOf s (Acq.intervals s d h)).any (fun k =>
    let t := s.tag k
    t.seq != d.capSeq || t.writing)

/-- The status of the job-start checks, in the order of R93's list but that the span is checked against the header of the capture
named; 0 when they pass (DEDUCED, log entry 36). -/
def Desc.check (s : State) (d : Desc) (h : Option (List Nat)) : Nat :=
  if d.badSignal s then 0x10
  else if d.badGrid s then 0x11
  else match h with
    | none => 0x15
    | some h =>
      if d.noHeader h then 0x13 else if hdrF h 8 4 < d.start + d.span then 0x12 else if d.noBlocks s h then 0x13 else 0

/-- JOB_START: an enabled engine with a job waiting fetches and checks its descriptor; a job that breaks a rule ends. -/
def execJobStart (engine : Fin 2) (s : State) : Out :=
  let e := engine.val
  let b := Acq.b e
  if !s.en (Acq.p e) ∨ s.frozen (Acq.p e) ∨ !s.running .acq ∨ s.flag b Acq.ENG_STAT_HALTED ∨ (s.job e).isSome ∨
      Acq.queued s e = 0 then .next s
  else
    let slot := s.get b Acq.Q_HEAD_HEAD
    let (s, r) := s.devRead (Acq.slotAddr s e slot) 64
    match r with
    | none =>
      .next (((s.logErr (Acq.p e) 0x46 b 11).put b Acq.ENG_STAT_HALTED 1).raise (Acq.p e) 1)
    | some bytes =>
      let d := Desc.of bytes
      let (s, h) := s.devRead (Acq.snapBase s + d.capBlk * 0x10000) 64
      let s := s.setJob e (some ⟨slot, Acq.slotAddr s e slot, bytes, h.getD [], false, false, false⟩)
      let s := (s.put b Acq.ENG_STAT_RUNNING 1).put b Acq.ENG_STAT_TAG d.tag
      let st := d.check s h
      let s := if st = 0x10 then s else s.parityOf d.sig d.prn []
      .next (if st = 0 then s else Acq.finishFree s e st)

/-- Queued jobs not yet started become ABORTED and the queue is empty (R97) (DEDUCED, log entry 37). -/
def Acq.flush (s : State) (e : Nat) : State :=
  let b := Acq.b e
  let running := (s.job e).isSome
  let head := s.get b Acq.Q_HEAD_HEAD
  let n := Acq.queued s e
  -- the running job is at Q_HEAD unless a FLUSH has passed it
  let first := match s.job e with
    | some j => if j.flushed then 0 else 1
    | none => 0
  let s := s.each ((List.range (n - first)).map (fun i => (head + first + i) % 128)) (fun s q =>
    let cur := s.job e
    let (s, r) := s.devRead (Acq.slotAddr s e q) 64
    match r with
    | none => s
    | some bytes =>
      let s := s.setJob e (some ⟨q, Acq.slotAddr s e q, bytes, [], false, true, false⟩)
      let run := s.get b Acq.ENG_STAT_RUNNING
      let cyc := s.get b Acq.ENG_CYC_CYCLES
      let int := s.get b Acq.ENG_STAT_INTERRUPTED
      let s := Acq.finish s e 0x16 0 none
      let s := ((s.setJob e cur).put b Acq.ENG_STAT_RUNNING run).put b Acq.ENG_CYC_CYCLES cyc
      if running then s.put b Acq.ENG_STAT_INTERRUPTED int else s)
  let s := match s.job e with
    | some j => s.setJob e (some { j with flushed := true })
    | none => s
  (s.put b Acq.Q_HEAD_HEAD (s.get b Acq.Q_TAIL_TAIL)).raiseIf (n != 0) (Acq.p e) 2

/-- JOB_DONE: the running job has searched its grid; an ABORT that waited for the end of a freeze is carried out instead. -/
def execJobDone (engine : Fin 2) (waits : Nat) (s : State) : Out :=
  let e := engine.val
  match s.job e with
  | none => .next s
  | some j =>
    if s.frozen (Acq.p e) ∨ !s.running .acq then .next s
    else if j.abort then
      let s := Acq.finish s e 0x16 waits none
      .next (if j.flushAfter then Acq.flush s e else s)
    else
      let d := Desc.of j.desc
      let (s, ok) := (Acq.intervals s d j.hdr).foldl (fun (s, ok) x =>
        let (s, r) := s.devRead x.1 x.2
        (s, ok && r.isSome)) (s, true)
      if !ok then .next (Acq.finish s e 0x15 waits none)
      else
        let r := d.search s (Acq.sampleIn s d j.hdr)
        .next (Acq.finish s e (if r.cands.isEmpty then 2 else 1) (d.clocks + waits) (some r))

/-- A write to Q_CTL (R97); a frozen engine acts on ABORT, and on a FLUSH with it, when it resumes, on a FLUSH alone at once (DESIGN
CHOICE, log entry 110). -/
def Acq.ctl (s : State) (e v : Nat) : State :=
  let ab := v.testBit 0
  let fl := v.testBit 1
  match s.job e with
  | some j =>
    if ab && s.frozen (Acq.p e) then s.setJob e (some { j with abort := true, flushAfter := j.flushAfter || fl })
    else
      let s := if ab then Acq.finishFree s e 0x16 else s
      if fl then Acq.flush s e else s
  | none => if fl then Acq.flush s e else s

/-- EN of an engine goes from 0 to 1: HALTED clears (R96). -/
def Acq.enable (s : State) (e : Nat) : State := s.put (Acq.b e) Acq.ENG_STAT_HALTED 0

/-- A reset of an ACQ page ends its job; that of ACQ 0 loses the capture and every tag (R84, R101). -/
def Acq.reset (s : State) (e : Nat) : State :=
  let s := s.setJob e none
  if e = 0 then { s with snap := none, tags := [] } else s

/-- Is an address range in shared SRAM or one global TLM alias? -/
def Acq.goodArea (a n : Nat) : Bool :=
  match rangeFor a n with
  | .sram | .tlm _ => true
  | _ => false

/-- Special effects of a write to an ACQ register; START and STOP in one write act in that order (DESIGN CHOICE, log entry 110). -/
def Acq.write (s : State) (req e off v : Nat) (store : State → State) : State :=
  let p := Acq.p e
  let a := Acq.b e + off
  if off = 0x040 then
    if v % 0x10000 = 0 ∧ 0x10000000 ≤ v ∧ v ≤ 0x113C0000 then store s else s.logErr p 0x40 a req
  else if off = 0x048 then
    let s := if v.testBit 0 then Acq.start s req else s
    if v.testBit 1 then Snap.stopNow s else s
  else if off = 0x060 then
    if v % 0x1000 = 0 && Acq.goodArea v 0x1000 && Acq.queued s e == 0 then store s else s.logErr p 0x44 a req
  else if off = 0x064 then
    let h := s.get (Acq.b e) Acq.Q_HEAD_HEAD
    if 64 < (v % 128 + 128 - h) % 128 then s.logErr p 0x45 a req
    else
      let n := Acq.queued s e
      (store s).raiseIf (n != 0 && v % 128 == h) p 2
  else if off = 0x06C then Acq.ctl s e v
  else store s

/-- BLOCK_STAT of an ACQ page. -/
def Acq.blockStat (s : State) (e : Nat) : Nat :=
  b2n (s.job e).isSome + 2 * b2n (e == 0 && s.snap.isSome) + 4 * b2n (s.flag (Acq.b e) Acq.ENG_STAT_HALTED)

end Sys2Proof.Machine
end

