-- ==== Sys2Proof/Machine/Arr.lean ====
section
/-! DEFINITION. The antenna array (spec/07 R166, R169 to R174, R178, R179): elements, beams and covariance. -/

namespace Sys2Proof.Machine

/-- ARR page. -/
def Arr.p : Nat := 0x018

/-- ARR page base. -/
def Arr.b : Nat := pg 0x018

/-- CDL page. -/
def Cdl.p : Nat := 0x048

/-- CDL page base. -/
def Cdl.b : Nat := pg 0x048

/-- The correlator's sample count at sample `n`: the group sample count once loaded (R160). -/
def State.gsc (s : State) (n : Nat) : Nat := (n + s.cdl.gscOfs) % 2 ^ 48

/-- The sample whose group sample count is `g`, after the island left reset. -/
def State.sampleOfGsc (s : State) (g : Nat) : Nat := (g + (2 ^ 48 - s.cdl.gscOfs % 2 ^ 48)) % 2 ^ 48

/-- CDL_CFG.ROLE. -/
def Cdl.role (s : State) : Nat := s.get Cdl.b Cdl.CDL_CFG_ROLE

/-- CDL_STAT.STATE: 0 DOWN, 1 CLK_LOCK, 2 SYNC_LOCK, 3 LANES_UP, 4 ALIGNED, 5 READY, 6 ISOLATED. -/
def Cdl.state (s : State) : Nat := s.get Cdl.b Cdl.CDL_STAT_STATE

/-- Does the module take part in a link: enabled, its island running, with a role? -/
def Cdl.on (s : State) : Bool := s.en Cdl.p && s.running .arr && Cdl.role s != 0

/-- Does the link see its neighbours: not while the pads carry the test patterns (spec/20 R460). -/
def Cdl.linked (s : State) : Bool := Cdl.on s && !s.flag (pg 0x0F0) Test.TEST_STAT_PRBS_ON

/-- Does the module originate frames as a Herald (R157, R176)? -/
def Cdl.isHerald (s : State) : Bool := Cdl.on s && ((Cdl.role s == 1 && Cdl.state s != 6) || s.cdl.heralds)

/-- Round to nearest, ties toward +∞. -/
def roundUp (a : Int) (sh : Nat) : Int := if sh = 0 then a else floorDiv (a + (2 ^ (sh - 1) : Nat)) (2 ^ sh : Nat)

/-- A chain sample requantised (R166). -/
def requant (v : Int) (sh : Nat) : Int := clampI (-7) 7 (roundUp v sh)

/-- A field of a word. -/
def Fld.of (f : Fld) (w : Word) : Nat := bitsOf w.toNat f.lo f.w

/-! ### What beams rest on, sample by sample (R169, R170, R172) -/

/-- Does the module form beams and covariance: unlinked, a Herald, or a follower that succeeded one (R157, R170, R176)? -/
def Arr.forms (s : State) : Bool := (Cdl.role s != 2 || s.cdl.heralds) && s.running .arr

/-- What the beams rest on now.  Elements 0 and 1 are the module's own; those of positions 1 to 3 need a READY member that is not
isolated and sends samples (R169). -/
def Arr.now (s : State) : ArrView :=
  let mem (p : Nat) : MemberSt := (s.cdl.members[p]?).getD ⟨0, false, false, 0⟩
  let up (p : Nat) : Bool := Cdl.isHerald s && (mem p).state == 5 && !(mem p).iso && (mem p).sends
  { on := s.en Arr.p && Arr.forms s
    up := if Arr.forms s then 3 + (([1, 2, 3] : List Nat).map (fun p => 3 * b2n (up p) * 4 ^ p)).sum else 0
    valid := (([1, 2, 3] : List Nat).map (fun p => (mem p).valid % 16 * 16 ^ p)).sum
    ctl := s.wreg (Arr.b + 0x040)
    delay := s.wget Arr.b Arr.ALIGN_DELAY_DELAY
    weights := (List.range 64).map (fun i => s.wreg (Arr.b + 0x100 + 4 * i)) }

/-- What the beams rested on at sample `n`. -/
def Arr.at_ (s : State) (n : Nat) : ArrView :=
  match s.arr.views.reverse.find? (fun e => decide (n < e.1)) with
  | some e => e.2
  | none => Arr.now s

/-- What the beams rest on is about to change, from the present sample on. -/
def Arr.changing (s : State) : State :=
  let m := s.sampleAt s.now
  if s.arr.views.any (fun e => e.1 == m) then s
  else { s with arr := { s.arr with views := (m, Arr.now s) :: s.arr.views.filter (fun e => decide (m < e.1 + 2 ^ 24)) } }

/-! ### Elements (R166, R169) -/

/-- One array element at a sample, requantised (R166, R169): present, SAMPLE_VALID, v4 of I and Q. -/
structure Elem where
  present : Bool
  valid   : Bool
  i       : Int
  q       : Int
  deriving DecidableEq, Repr

/-- A missing element reads as 0 (R169). -/
def Elem.none_ : Elem := ⟨false, false, 0, 0⟩

/-- Element `e` of band `b` at sample `n`, with the settings and members of `v`; `look` gives the module's own chains. -/
def Arr.elem (s : State) (v : ArrView) (look : Nat → Nat → Iq) (b n e : Nat) : Elem :=
  let sh := Arr.ARR_CTL_RQ_SHIFT.of v.ctl
  if !v.up.testBit e then Elem.none_
  else if e < 2 then
    let x := look (b + 2 * e) n
    ⟨true, x.valid, requant x.i sh, requant x.q sh⟩
  else
    let g := s.gsc n
    match s.arr.frames.find? (fun f => f.1 == e / 2 && decide ((g + 2 ^ 48 - f.2.1) % 2 ^ 48 < 64)) with
    | none => Elem.none_
    | some f =>
      let c := b + 2 * (e % 2)
      let x := (f.2.2[4 * ((g + 2 ^ 48 - f.2.1) % 2 ^ 48) + c]?).getD 0
      ⟨true, v.valid.testBit (4 * (e / 2) + c), toSigned 4 x, toSigned 4 (x / 16)⟩

/-- The eight elements of band `b` at sample `n`. -/
def Arr.elems (s : State) (v : ArrView) (look : Nat → Nat → Iq) (b n : Nat) : List Elem :=
  (List.range 8).map (Arr.elem s v look b n)

/-! ### Beams (R170, R171) -/

/-- Weight of beam `k` of band `b` on element `e`. -/
def Arr.weight (v : ArrView) (b k e : Nat) : Int × Int :=
  let w := (v.weights[32 * b + 8 * k + e]?).getD 0
  (toSigned 16 w.toNat, toSigned 16 (w.toNat / 2 ^ 16))

/-- Output of beam `k` of band `b` over the eight elements, and its components clamped (R170): the plain sum of weight times element,
with no phase correction of an element (R174). -/
def Arr.beam (v : ArrView) (b k : Nat) (xs : List Elem) : Iq × Nat :=
  let ws := (List.range 8).map (fun e => (Arr.weight v b k e, (xs[e]?).getD Elem.none_))
  let zero := ws.all (fun w => w.1 == (0, 0))
  let bad := ws.any (fun w => w.1 != (0, 0) && !(w.2.present && w.2.valid))
  let y := ws.foldl (fun (a : Int × Int) w =>
    if w.2.present && w.2.valid then
      (a.1 + w.1.1 * w.2.i - w.1.2 * w.2.q, a.2 + w.1.1 * w.2.q + w.1.2 * w.2.i)
    else a) (0, 0)
  let sh := 14 - Arr.ARR_CTL_BEAM_SHIFT.of v.ctl
  let yi := roundUp y.1 sh
  let yq := roundUp y.2 sh
  let ok := v.on && !zero && !(Arr.ARR_CTL_STRICT.of v.ctl == 1 && bad)
  (⟨clampI (-127) 127 yi, clampI (-127) 127 yq, ok⟩,
   b2n (decide (yi < -127 ∨ 127 < yi)) + b2n (decide (yq < -127 ∨ 127 < yq)))

/-- What a beam sample that enters the correlator at sample `m` rests on: weights, shifts and delay in force there, so that they change
on one sample with the channels (R172), and the members as they were at its release 8 samples before (DEDUCED, log entry 45). -/
def Arr.viewFor (s : State) (m : Nat) : ArrView :=
  let v := Arr.at_ s m
  let r := Arr.at_ s (m - 8)
  { v with up := r.up, valid := r.valid }

/-- Beam `k` of band `b` as it enters the correlator at sample `m`: formed from the elements of the sample ALIGN_DELAY + 8 before
(R171). -/
def Arr.beamAt (s : State) (look : Nat → Nat → Iq) (b k m : Nat) : Iq × Nat :=
  let v := Arr.viewFor s m
  Arr.beam v b k (if m < v.delay + 8 then [] else Arr.elems s v look b (m - v.delay - 8))

/-- A channel's beam sample; `x` is what the two antennas' chains of the band showed at the sample it is formed from. -/
def Arr.sample (s : State) (b k m : Nat) (x : Smp) : Iq :=
  let y := (Arr.beamAt s (fun i n => s.chainSmp i n (if i < 2 then (x.i, x.q) else (x.i2, x.q2))) b k m).1
  if y.valid then y else ⟨0, 0, false⟩

/-- Is a beam valid at sample `m` (R170)? -/
def Arr.beamValid (s : State) (b k m : Nat) : Bool := (Arr.sample s b k m ⟨0, 0, 0, 0⟩).valid

/-- BEAM_VALID of the measurement header at sample `m`. -/
def Arr.beamValids (s : State) (m : Nat) : Nat :=
  ((List.range 8).map (fun i => b2n (Arr.beamValid s (i / 4) (i % 4) m) * 2 ^ i)).sum

/-- Samples of the period before that a beam can still rest on: the largest ALIGN_DELAY and the 8 samples after the release. -/
def Arr.reach : Nat := 1023 + 8

/-- At an update tick the beams of the period are formed from what the chains gave in it: clamped components go into BEAM_SAT (R170,
R178) (DESIGN CHOICE, log entry 113). -/
def Arr.saturate (s : State) : State :=
  let cur := s.curSample
  let from_ := s.arr.satTo
  let s := { s with arr := { s.arr with satTo := cur } }
  if s.arr.frames.isEmpty && s.chains.toList.all (fun c => c.out.isEmpty) then s
  else
    let outs := s.chains.toList.map (fun c => (c.outAt, c.out.toArray))
    let look (i n : Nat) : Iq :=
      let o := (outs[i]?).getD (0, #[])
      if s.validAt i n ∧ o.1 ≤ n then
        let y := (o.2[n - o.1]?).getD (0, 0)
        ⟨y.1, y.2, true⟩
      else ⟨0, 0, false⟩
    let one (m : Nat) : Nat :=
      if (Arr.at_ s m).on then ((List.range 8).map (fun i => (Arr.beamAt s look (i / 4) (i % 4) m).2)).sum else 0
    let n := (List.range (min (cur - from_) 16384)).foldl (fun a d => a + one (cur - d)) 0
    if n = 0 then s
    else (s.put Arr.b Arr.BEAM_SAT_COUNT (min (s.get Arr.b Arr.BEAM_SAT_COUNT + n) (2 ^ 32 - 1))).raise Arr.p 3

/-! ### ELEM_STAT (R178) -/

/-- PRESENT and VALID at a release; ELEM_LOST when a PRESENT bit falls (R178). -/
def Arr.setPresent (s : State) (present valid : Nat) : State :=
  let old := s.get Arr.b Arr.ELEM_STAT_PRESENT
  let fell := (List.range 8).any (fun e => old.testBit e && !present.testBit e)
  let s := (s.put Arr.b Arr.ELEM_STAT_PRESENT present).put Arr.b Arr.ELEM_STAT_VALID valid
  s.raiseIf fell Arr.p 1

/-- The release at sample `r`: which elements it holds, and which are valid in one of the bands at least (DESIGN CHOICE, log entry
113). -/
def Arr.release (s : State) (r : Nat) : State :=
  let v := Arr.at_ s r
  let row (b : Nat) : List Elem :=
    if r < v.delay then [] else Arr.elems s v (fun i n => s.chainSmp i n (0, 0)) b (r - v.delay)
  let h := row 0
  let l := row 1
  let mask (f : Elem → Bool) (xs : List Elem) : Nat := (xs.zipIdx.map (fun (x, e) => b2n (f x) * 2 ^ e)).sum
  Arr.setPresent s (mask (fun x => x.present) h) (mask (fun x => x.valid) h ||| mask (fun x => x.valid) l)

/-- Insert a sample into a list in ascending order, once. -/
def Arr.insAsc (x : Nat) : List Nat → List Nat
  | [] => [x]
  | y :: t => if x < y then x :: y :: t else if x = y then y :: t else y :: Arr.insAsc x t

/-- ELEM_STAT follows the releases up to the present one: those at which a member, a frame or a setting changes what is present. -/
def Arr.settle (s : State) : State :=
  let cur := s.curSample
  if !s.running .arr ∨ !Arr.forms s then { s with arr := { s.arr with seen := cur } }
  else
    let d := s.wget Arr.b Arr.ALIGN_DELAY_DELAY
    let edges := s.arr.frames.flatMap (fun f => let n := s.sampleOfGsc f.2.1 + d; [n, n + 64])
    let all := (s.arr.views.map (·.1) ++ edges).filter (fun r => decide (s.arr.seen < r ∧ r < cur))
    let s := s.each (all.foldr Arr.insAsc [cur]) Arr.release
    { s with arr := { s.arr with seen := cur } }

/-! ### Covariance (R173) -/

/-- Samples of a window. -/
def Arr.window (s : State) : Nat := 2 ^ s.wget Arr.b Arr.COV_CFG_COV_LEN

/-- Windowing begins again at the next window boundary of the released counts (R173, R179). -/
def Arr.restart (s : State) : State :=
  let w := Arr.window s
  let g := (s.gsc s.nextSample + 2 ^ 48 - s.wget Arr.b Arr.ALIGN_DELAY_DELAY) % 2 ^ 48
  { s with arr := { s.arr with covFrom := (g + w - 1) / w * w % 2 ^ 48 } }

/-- The hand-over of the ARR page (R172, R173, R178). -/
def Arr.handOver (s : State) : State :=
  let cfg (s : State) := (s.wget Arr.b Arr.ARR_CTL_RQ_SHIFT, s.wreg (Arr.b + 0x048))
  let old := cfg s
  let was := s.wflag Arr.b Arr.COV_CFG_COV_EN
  match (Arr.changing s).takePage Arr.p with
  | (_, none) => s
  | (s, some c) =>
    let s := if s.wflag Arr.b Arr.COV_CFG_COV_EN && !Arr.forms s then
        (s.wput Arr.b Arr.COV_CFG_COV_EN 0).logErr Arr.p 0x41 (Arr.b + 0x048) c.req
      else s
    let s := if s.wflag Arr.b Arr.COV_CFG_COV_EN && !was then
        { s with arr := { s.arr with covSeq := 0 } }.put Arr.b Arr.COV_STAT_VALID 0
      else s
    if cfg s = old then s else Arr.restart s

/-- Accumulated products of a pair of elements over a window (R173): the plain x_i conj(x_j), with no phase correction of an element
(R174) (DEDUCED, log entry 45). -/
def Arr.cov (xs : List (List Elem)) (i j : Nat) : Int × Int :=
  xs.foldl (fun a row =>
    let x := (row[i]?).getD Elem.none_
    let y := (row[j]?).getD Elem.none_
    if x.present && x.valid && y.present && y.valid then
      (a.1 + x.i * y.i + x.q * y.q, a.2 + x.q * y.i - x.i * y.q)
    else a) (0, 0)

/-- A covariance record of a band. -/
def Arr.record (s : State) (band seq g t : Nat) (xs : List (List Elem)) : List Nat :=
  let missing := (List.range 8).foldl (fun a e =>
    a + b2n (xs.any (fun row =>
      let x := (row[e]?).getD Elem.none_
      !(x.present && x.valid))) * 2 ^ e) 0
  let head := recBytes [(2, 0x4356), (1, band), (1, missing), (4, seq), (8, g), (8, t), (4, Arr.window s),
    (1, s.wget Arr.b Arr.ARR_CTL_RQ_SHIFT)] ++ List.replicate 35 0
  let pairs := (List.range 8).flatMap (fun i => (List.range (8 - i)).map (fun d => (i, i + d)))
  head ++ pairs.flatMap (fun p =>
    let r := Arr.cov xs p.1 p.2
    leBytes 4 (ofSigned 32 r.1) ++ leBytes 4 (ofSigned 32 r.2))

/-- COV_WINDOW_END: `win` holds the four chains' samples (AH, AL, BH, BL) at each sample of the window (R173). -/
def execCovWindowEnd (win : List (List (Int × Int))) (s : State) : Out :=
  if !s.wflag Arr.b Arr.COV_CFG_COV_EN ∨ !s.en Arr.p ∨ s.frozen Arr.p ∨ !Arr.forms s then .next s
  else
    let g := s.arr.covFrom
    let w := Arr.window s
    let n := s.sampleOfGsc g
    let d := s.wget Arr.b Arr.ALIGN_DELAY_DELAY
    let s := s.runToSample (n + w + d)
    let rows (band : Nat) : List (List Elem) := (List.range w).map (fun j =>
      let row := (win[j]?).getD []
      Arr.elems s (Arr.at_ s (n + j + d)) (fun i n => s.chainSmp i n ((row[i]?).getD (0, 0))) band (n + j))
    let t := s.replicaAt n
    let seq := s.arr.covSeq + 1
    let last := if s.flag Arr.b Arr.COV_STAT_VALID then 1 - s.get Arr.b Arr.COV_STAT_LAST else 0
    let dst := 64 * s.wget Arr.b Arr.COV_DST_ADDR + 0x2C0 * last
    let rec_ (band : Nat) (xs : List (List Elem)) (s : State) : State :=
      let r := Arr.record s band seq g t xs
      -- entries first, header last
      (s.put8 (dst + 352 * band + 64) (r.drop 64)).put8 (dst + 352 * band) (r.take 64)
    let s := rec_ 1 (rows 1) (rec_ 0 (rows 0) s)
    let s := { s with arr := { s.arr with covFrom := (g + w) % 2 ^ 48, covSeq := seq } }
    let s := ((s.put Arr.b Arr.COV_STAT_LAST last).put Arr.b Arr.COV_STAT_VALID 1).put Arr.b Arr.COV_STAT_SEQ seq
    .next (s.raise Arr.p 0)

/-- Special effects of a write to an ARR register: the placement of COV_DST. -/
def Arr.write (s : State) (req off v : Nat) (store : State → State) : State :=
  if off = 0x04C then
    if v % 64 = 0 ∧ inSramArea v 1408 then store s else s.logErr Arr.p 0x40 (Arr.b + off) req
  else store s

/-- BLOCK_STAT of the ARR page: BEAMS. -/
def Arr.blockStat (s : State) : Nat := b2n (s.en Arr.p && Arr.forms s)

end Sys2Proof.Machine
end

