-- ==== Sys2Proof/Machine/Time.lean ====
section
/-! DEFINITION. Coast mode, timescales, leases, steps and leap events (spec/08 R180 to R192, R206). -/

namespace Sys2Proof.Machine

/-- TIME page. -/
def Time.p : Nat := 0x050

/-- TIME page base. -/
def Time.b : Nat := pg 0x050

/-- Register base of timescale `n`. -/
def Ts.b (n : Nat) : Nat := 0x50100 + 0x80 * n

/-- A timescale beside its registers. -/
def State.tst (s : State) (n : Nat) : TsSt := s.tsSt[n]?.getD ⟨0, false, 0, 0, 0, 0, 0, 0, none, []⟩

/-- Change a timescale beside its registers. -/
def State.modTs (s : State) (n : Nat) (f : TsSt → TsSt) : State := { s with tsSt := s.tsSt.setIfInBounds n (f (s.tst n)) }

/-- Coast mode (R181). -/
def State.coast (s : State) : Bool := s.flag Time.b TimeP.TIME_STAT_COAST

/-- TS_STAT.STATE: 0 NEVER, 1 CURRENT, 2 HOLDOVER (R187). -/
def State.tsState (s : State) (n : Nat) : Nat := s.get (Ts.b n) TsR.TS_STAT_STATE

/-! ### Presentation (R186) -/

/-- The value or the increment of timescale `n` is about to change: the stretch that ends now is kept for presentations of
earlier instants (R186). Stretches older than 2^18 ticks are dropped: no capture is presented so late
(DEDUCED, log entry 100). -/
def Time.mark (s : State) (n : Nat) : State :=
  s.modTs n (fun t => { t with
    past := ⟨s.now, (s.tsv n).total, s.incNow n⟩ :: t.past.filter (fun g => decide (s.now < g.til + 2 ^ 18)) })

/-- Value of timescale `n` at the instant `u` (1/64 ticks), in 2^-48 ns, with the value and increment in force at that instant
(R186). -/
def State.tsAt64 (s : State) (n : Nat) (u : Nat) : Int :=
  match ((s.tst n).past.filter (fun g => decide (u < 64 * g.til))).getLast? with
  | some g => (g.total : Int) + floorDiv (g.inc * ((u : Int) - 64 * g.til)) 64
  | none => ((s.tsv n).total : Int) + floorDiv (s.incNow n * ((u : Int) - 64 * s.now)) 64

/-- Seconds, nanoseconds and 2^-16 ns of a timescale at the instant `u` (1/64 ticks), truncated to the earlier. -/
def State.present (s : State) (n u : Nat) : Nat × Nat × Nat :=
  let v := (s.tsAt64 n u).toNat
  let ns := v / 2 ^ 48
  (ns / 1000000000 % 2 ^ 48, ns % 1000000000, v / 2 ^ 32 % 2 ^ 16)

/-! ### Leases (R187, R188) -/

/-- The timescale changes its lease state: TS_STATE_n. -/
def Time.setState (s : State) (n st : Nat) : State :=
  if s.tsState n = st then s else (s.put (Ts.b n) TsR.TS_STAT_STATE st).raise Time.p (8 + n)

/-- The lease of timescale `n` runs out now (R187, R188). -/
def Time.expire (s : State) (n : Nat) : State :=
  let e := s.get (Ts.b n) TsR.ERR_BOUND_BOUND
  let s := s.modTs n (fun t => { t with target := s.incNow n, holdAt := s.now, holdBnd := e, holdMs := 0 })
  (Time.setState s n 2).put (Ts.b n) TsR.PUB_BOUND_BOUND e

/-- A bit written to TIME_LEASE renews the lease (R187). -/
def Time.renew (s : State) (n : Nat) : State :=
  let s := (Time.setState s n 1).modTs n (fun t => { t with renewAt := s.now })
  s.put (Ts.b n) TsR.PUB_BOUND_BOUND (s.get (Ts.b n) TsR.ERR_BOUND_BOUND)

/-- Tick at which a CURRENT lease runs out. -/
def Time.expiresAt (s : State) (n : Nat) : Nat := (s.tst n).renewAt + s.get (Ts.b n) TsR.LEASE_LEN_LEN * 640000

/-- LEASE_LEN takes effect at once: an overdue lease expires (R187). -/
def Time.leaseLen (s : State) (n : Nat) : State :=
  if s.tsState n = 1 ∧ Time.expiresAt s n ≤ s.now then Time.expire s n else s

/-- LEASE_EXPIRY. -/
def execLeaseExpiry (ts : Fin 4) (s : State) : Out :=
  let n := ts.val
  if s.tsState n ≠ 1 then .next s
  else .next (Time.expire (s.runTo (Time.expiresAt s n)) n)

/-- HOLD_BOUND_UPDATE: the next whole millisecond of HOLDOVER (R187). -/
def execHoldBoundUpdate (ts : Fin 4) (s : State) : Out :=
  let n := ts.val
  if s.tsState n ≠ 2 then .next s
  else
    let s := s.runTo ((s.tst n).holdAt + 640000 * ((s.tst n).holdMs + 1))
    let m := (s.now - (s.tst n).holdAt) / 640000
    let v := (s.tst n).holdBnd + s.get (Ts.b n) TsR.HOLD_RATE_RATE * m / 1000000
    .next ((s.modTs n (fun t => { t with holdMs := m })).put (Ts.b n) TsR.PUB_BOUND_BOUND (min v (2 ^ 32 - 1)))

/-- Computed registers of the TIME page (R187, R206). -/
def Time.read (s : State) (off : Nat) : Option Nat :=
  if off = 0x040 then some (s.now % 2 ^ 32)
  else if off = 0x044 then some (s.now / 2 ^ 32)
  else if off < 0x100 ∨ 0x300 ≤ off then none
  else
    let n := (off - 0x100) / 0x80
    let o := off % 0x80
    if o = 0x50 then some (if s.tsState n = 1 then (Time.expiresAt s n - s.now) / 640000 else 0)
    else if o = 0x54 then some (if s.tsState n = 2 then min ((s.now - (s.tst n).holdAt) / 640000000) (2 ^ 32 - 1) else 0)
    else none

/-! ### Coast mode (R181) -/

/-- COAST_ENTER's own registers; the calendar's part is in Cal.lean. -/
def Time.coastIn (s : State) (cause : Nat) : State :=
  let s := (s.put Time.b TimeP.TIME_STAT_COAST 1).put Time.b TimeP.TIME_STAT_COAST_CAUSE cause
  (s.count Time.b TimeP.TIME_STAT_COAST_CNT).raise Time.p 0

/-- COAST_EXIT: SYN_T has been released; the hand-back is at the next reference edge (R181). -/
def execCoastExit (s : State) : Out :=
  if !s.coast ∨ s.pwr.asleep ∨ s.get (pg 0x008 + 0x100) Pll.PLL_STAT_STATE ≠ 3 then .next s
  else
    let s := s.runTo ((s.now + 63) / 64 * 64)
    .next (((s.put Time.b TimeP.TIME_STAT_COAST 0).put Time.b TimeP.TIME_STAT_COAST_CAUSE 0).raise Time.p 1)

/-! ### Increments and steps (R184, R185, R189) -/

/-- Nominal increment and the largest deviation of a taken one (R184). -/
def Time.nominal : Nat := 0x0001900000000000
def Time.maxDev : Nat := 87960930222

/-- L_n of R185. -/
def Time.slew (s : State) (n : Nat) : Nat := s.wget (Ts.b n) TsR.SLEW_LIM_LIM * 25 * 2 ^ 48 / 16000000000

/-- What a take of the TIME page does to timescale `n` (R184, R189); `gen` and `req` of the COMMIT, `oldCtl` and `oldVal`
the working step registers before it (DEDUCED, log entry 51). -/
def Time.takeTs (s : State) (gen req n : Nat) (oldCtl : Word) (oldVal : List Word) : State :=
  let b := Ts.b n
  let inc := s.wget b TsR.INC
  let lim := clampN (Time.nominal - Time.maxDev) (Time.nominal + Time.maxDev) inc
  let s := if lim = inc then s
    else ((s.setWreg b (lim % 2 ^ 32)).setWreg (b + 4) (lim / 2 ^ 32)).logErr Time.p E.RANGE_CLAMPED b req
  let s := if (s.tst n).incWr then s.modTs n (fun t => { t with target := lim, incWr := false }) else s
  let mode := s.wget b TsR.STEP_CTL_STEP_MODE
  let val := s.wget b TsR.STEP_VAL_VAL
  if mode = 2 ∧ 1000000000 ≤ bitsOf val 16 30 then
    let s := s.setWreg (b + 0x28) oldCtl.toNat
    let s := s.each [0, 1, 2] (fun s i => s.setWreg (b + 0x2C + 4 * i) ((oldVal[i]?).getD 0).toNat)
    s.logErr Time.p E.RANGE_REJECTED (b + 0x2C) req
  else if s.wget b TsR.STEP_CTL_STEP_GEN = gen then
    if mode = 0 then s.put b TsR.TS_STAT_STEP_ARMED 0
    else (s.put b TsR.TS_STAT_STEP_ARMED 1).modTs n (fun t => { t with stMode := mode, stVal := val })
  else s

/-- The hand-over of the TIME page (R184). -/
def Time.handOver (s : State) : State :=
  let old := (List.range 4).map (fun n =>
    (s.wreg (Ts.b n + 0x28), [s.wreg (Ts.b n + 0x2C), s.wreg (Ts.b n + 0x30), s.wreg (Ts.b n + 0x34)]))
  match s.takePage Time.p with
  | (s, none) => s
  | (s, some c) =>
    s.logOnce (s.each (List.range 4) (fun s n =>
      let o := (old[n]?).getD (0, [])
      Time.takeTs s c.gen c.req n o.1 o.2)) Time.p

/-- INC_ANCHOR takes INC_NOW (R185). -/
def Time.anchor (s : State) : State :=
  s.each (List.range 4) (fun s n => s.put (Ts.b n) TsR.INC_ANCHOR_INC (s.incNow n))

/-- A whole second that has come: at tick `t` (R185). -/
def Time.secondAt (s : State) (t : Nat) : State :=
  if s.secLast + 640000000 ≤ t then { Time.anchor s with secLast := s.secLast + 640000000 } else s

/-- INC_NOW moves toward TARGET within the slew limit (R185); also answers whether the clamp acts. -/
def Time.slewTo (s : State) (n : Nat) : State × Bool :=
  let b := Ts.b n
  let a := s.get b TsR.INC_ANCHOR_INC
  let l := Time.slew s n
  let v := clampN (a - l) (a + l) (s.tst n).target
  let lim := v != (s.tst n).target
  let s := if v = s.incNow n then s else Time.mark s n
  ((s.put b TsR.INC_NOW_INC v).putB b TsR.TS_STAT_LIMITED lim, lim)

/-- The update tick of the TIME page: anchor if a second falls on it, hand-over, clamp (R184, R185). -/
def Time.update (s : State) : State :=
  let s := s.runTo (s.updLast + 65536)
  let s := { s with updLast := s.updLast + 65536 }
  let s := Time.handOver (Time.secondAt s s.updLast)
  let (s, any) := (List.range 4).foldl (fun (s, any) n =>
    let (s, l) := Time.slewTo s n
    (s, any || l)) (s, false)
  s.raiseIf any Time.p 4

/-- SECOND_TICK: at the next whole second of the base counter INC_ANCHOR takes INC_NOW (R185). -/
def execSecondTick (s : State) : Out :=
  let t := s.secLast + 640000000
  .next (Time.secondAt (s.runTo t) t)

/-! ### TCAP, steps, leap events -/

/-- TIME_CMD.TCAP: the capture tick is the first after the write (R186). -/
def Time.tcap (s : State) : State :=
  let s := s.ticks 1
  let s := s.put Time.b TimeP.TCAP_T_T s.now
  s.each (List.range 4) (fun s n =>
    let (sec, ns, sub) := s.present n (64 * s.now)
    ((s.put (Ts.b n) TsR.CAP_SEC_SEC sec).put (Ts.b n) TsR.CAP_NS_NS ns).put (Ts.b n) TsR.CAP_SUBNS_SUBNS sub)

/-- A step permit on timescale `m` (R190): none when nothing changes (NOOP). -/
def Time.step (s : State) (m : Nat) : State × Bool :=
  let b := Ts.b m
  if !s.flag b TsR.TS_STAT_STEP_ARMED then (s.logErr Time.p 0x41 Time.b 8, false)
  else
    let t := s.tst m
    let v : Int := if t.stMode = 1 then ((s.tsv m).total : Int) + toSigned 64 t.stVal * (2 ^ 32 : Nat)
      else (((t.stVal / 2 ^ 48 % 2 ^ 48 * 1000000000 + bitsOf t.stVal 16 30) * 2 ^ 48 + t.stVal % 2 ^ 16 * 2 ^ 32 : Nat) : Int)
    if v < 0 ∨ ((2 ^ 48 * 1000000000 * 2 ^ 48 : Nat) : Int) ≤ v then (s.logErr Time.p 0x40 Time.b 8, false)
    else
      let s := Time.mark s m
      let s := { s with ts := s.ts.setIfInBounds m (TsVal.ofTotal v.toNat) }
      let s := s.modTs m (fun t => { t with stepAt := some s.now })
      (((s.put b TsR.TS_STAT_STEP_ARMED 0).count b TsR.STEPS_COUNT).raise Time.p 2, true)

/-- A leap event (R192): false when neither flag is set (NOOP). -/
def Time.leap (s : State) : State × Bool :=
  let a := s.flag Time.b TimeP.LEAP_CTL_LEAP61
  let d := s.flag Time.b TimeP.LEAP_CTL_LEAP59
  if !a && !d then (s, false)
  else
    let o := s.getI Time.b TimeP.UTC_OFS_OFS
    let s := s.putI Time.b TimeP.UTC_OFS_OFS (if a then o + 1 else o - 1)
    (((s.put Time.b TimeP.LEAP_CTL_LEAP61 0).put Time.b TimeP.LEAP_CTL_LEAP59 0).raise Time.p 3, true)

end Sys2Proof.Machine
end

