-- ==== Sys2Proof/Machine/Net.lean ====
section
/-! DEFINITION. Ports, switch, time-stamps and the rings of the internal port (spec/09 R209 to R215, R217, R218, R230,
R231).  The PTP engine is in Ptp.lean. -/

namespace Sys2Proof.Machine

/-- Page base of port `p`, of the switch and of the PTP engine. -/
def Eth.b (p : Nat) : Nat := pg (0x060 + p)
def Sw.b : Nat := pg 0x062
def Ptp.b : Nat := pg 0x063

/-- Change the network island beside its registers. -/
def State.modNet (s : State) (f : NetSt → NetSt) : State := { s with net := f s.net }

/-- Big-endian number in octets `o` to `o + n − 1`. -/
def beAt (l : List Nat) (o n : Nat) : Nat := ((l.drop o).take n).foldl (fun a x => 256 * a + x) 0

/-- The `n` big-endian octets of a number. -/
def beBytes (v n : Nat) : List Nat := (leBytes n v).reverse

/-- Replace octets from `o`. -/
def setOctets (l : List Nat) (o : Nat) (x : List Nat) : List Nat := l.take o ++ x ++ l.drop (o + x.length)

/-- May port `p` carry frames: enabled, linked, its island running? -/
def Eth.up (s : State) (p : Nat) : Bool :=
  s.en (0x060 + p) && s.flag (Eth.b p) Eth.ETH_STAT_LINK && s.running .net

/-! ### Frames -/

/-- A frame taken apart: tag (PCP and VID), EtherType, where the payload starts, and the PTP message in it: where it starts
and its transport (R215). -/
structure Frame where
  tag  : Option (Nat × Nat)
  pay  : Nat
  ptp  : Option (Nat × Nat)

/-- Take a frame apart (R215). -/
def Frame.of (f : List Nat) : Frame :=
  let tagged := beAt f 12 2 == 0x8100
  let pay := if tagged then 18 else 14
  let ty := beAt f (pay - 2) 2
  let udp (o : Nat) : Bool := beAt f (o + 2) 2 == 319 || beAt f (o + 2) 2 == 320
  let ptp := if ty = 0x88F7 then some (pay, 0)
    else if ty = 0x0800 then
      let h := pay + 4 * (beAt f pay 1 % 16)
      if beAt f (pay + 9) 1 = 17 && udp h then some (h + 8, 1) else none
    else if ty = 0x86DD then
      if beAt f (pay + 6) 1 = 17 && udp (pay + 40) then some (pay + 48, 2) else none
    else none
  ⟨if tagged then some (beAt f 14 2 / 2 ^ 13, beAt f 14 2 % 2 ^ 12) else none, pay, ptp⟩

/-- PTP header fields of a message: type, domain, two-step, correction (2^-16 ns), portIdentity, sequenceId, time-stamp. -/
def Msg.type (m : List Nat) : Nat := beAt m 0 1 % 16
def Msg.domain (m : List Nat) : Nat := beAt m 4 1
def Msg.twoStep (m : List Nat) : Bool := (beAt m 6 1).testBit 1
def Msg.corr (m : List Nat) : Int := toSigned 64 (beAt m 8 8)
def Msg.clockId (m : List Nat) : Nat := beAt m 20 8
def Msg.portId (m : List Nat) : Nat := beAt m 20 10
def Msg.seq (m : List Nat) : Nat := beAt m 30 2
def Msg.stamp (m : List Nat) : Int := (((beAt m 34 6) * 1000000000 + beAt m 40 4) * 2 ^ 16 : Nat)

/-- Set the correctionField. -/
def Msg.setCorr (m : List Nat) (c : Int) : List Nat := setOctets m 8 (beBytes (ofSigned 64 c) 8)

/-- One's complement sum of octet pairs. -/
def onesSum (l : List Nat) : Nat → Nat
  | 0 => 0
  | n + 1 => beAt l 0 2 + onesSum (l.drop 2) n

/-- Put a modified PTP message back into its frame under R218: `none` when a UDP/IPv6 frame lacks the two bytes. -/
def Frame.withMsg (f : List Nat) (o transport : Nat) (m : List Nat) : Option (List Nat) :=
  let old := f.drop o
  let mlen := beAt old 2 2
  if transport = 0 then some (setOctets f o m)
  else if transport = 1 then some (setOctets (setOctets f o m) (o - 2) [0, 0])
  else if beAt f (o - 4) 2 < 8 + mlen + 2 then none
  else
    -- the two bytes after the message keep the checksum valid
    let n := (mlen + 1) / 2
    let d := (onesSum (old.take mlen) n + 0xFFFF * 2 ^ 16 - onesSum (m.take mlen) n + beAt f (o + mlen) 2) % 0xFFFF
    some (setOctets (setOctets f o (m.take mlen)) (o + mlen) (beBytes d 2))

/-! ### VLANs, learning, forwarding (R211) -/

/-- The valid VLAN entry of a VID: MEMBER and UNTAG masks. -/
def Sw.vlan (s : State) (vid : Nat) : Option (Nat × Nat) :=
  ((List.range 16).find? (fun v => s.wflag (Sw.b + 4 * v) Sw.VLAN_VALID && s.wget (Sw.b + 4 * v) Sw.VLAN_VID == vid)).map
    (fun v => (s.wget (Sw.b + 4 * v) Sw.VLAN_MEMBER, s.wget (Sw.b + 4 * v) Sw.VLAN_UNTAG))

/-- VLAN of a frame that enters at port `p`: VID, MEMBER and UNTAG; `none` when it is dropped (DEDUCED, log entry 53). -/
def Sw.classify (s : State) (p : Nat) (f : Frame) : Option (Nat × Nat × Nat) :=
  let vid := match f.tag with
    | some t => t.2
    | none => s.wget (Sw.b + 4 * p) Sw.PVID
  match Sw.vlan s vid with
  | some (m, u) => if m.testBit p then some (vid, m, u) else none
  | none => none

/-- The source address is learned, in a table of 1,024 entries (R211). -/
def Sw.learn (s : State) (p mac : Nat) : State :=
  if !s.wflag Sw.b Sw.SW_CFG_LEARN ∨ (mac / 2 ^ 40) % 2 = 1 then s
  else
    let l := s.net.learned.filter (fun x => x.1 != mac)
    if 1024 ≤ l.length then s else s.modNet (fun n => { n with learned := (mac, p, s.now) :: l })

/-- Ports a destination leads to, but the ingress port: its own, or all. -/
def Sw.ports (s : State) (ingress mac : Nat) : List Nat :=
  let all := (List.range 3).filter (· ≠ ingress)
  if (mac / 2 ^ 40) % 2 = 1 then all
  else if mac = s.get Sw.b Sw.MAC2_MAC then [2].filter (· ≠ ingress)
  else match s.net.learned.find? (fun x => x.1 == mac) with
    | some x => [x.2.1].filter (· ≠ ingress)
    | none => all

/-- A frame as it leaves a port: tagged or untagged under the VLAN's UNTAG mask (R211). -/
def Sw.egress (f : List Nat) (fr : Frame) (vid untag p : Nat) : List Nat :=
  let body := f.take 12 ++ f.drop (if fr.tag.isSome then 16 else 12)
  if untag.testBit p then body
  else
    let pcp := match fr.tag with
      | some t => t.1
      | none => 0
    body.take 12 ++ [0x81, 0x00] ++ beBytes (pcp * 2 ^ 13 + vid) 2 ++ body.drop 12

/-- Ticks that a frame of `n` octets without FCS holds the wire of port `p`, with preamble, FCS and gap: 8 ns an octet at 1 Gbit/s
(R214: 672 ns for 64 octets), ten times as long at each lower speed; rounded up. -/
def Eth.span (s : State) (p n : Nat) : Nat :=
  ((max n 60 + 24) * 512 * 10 ^ s.get (Eth.b p) Eth.ETH_STAT_SPEED + 99) / 100

/-- A frame goes on the wire of port `p` at the tick `t`. -/
def Eth.out (s : State) (p t : Nat) (f : List Nat) : State :=
  (s.modNet (fun n => { n with
    wire := n.wire.set p f
    queues := n.queues.modify p (fun x => { x with free := t + Eth.span s p f.length }) })).count (Eth.b p) Eth.TX_FRAMES_COUNT

/-- Egress of port `p`. -/
def Eth.egress (s : State) (p : Nat) : EgressQ := s.net.queues[p]?.getD EgressQ.init

/-- The queue served next: 3 before all others, then the first non-empty one after that served last (R211). -/
def EgressQ.next (x : EgressQ) : Option Nat :=
  [3, (x.turn + 1) % 3, (x.turn + 2) % 3, x.turn % 3].find? (fun k => !((x.q[k]?).getD []).isEmpty)

/-- Egress of port `p`: as long as the wire is free at the present tick, a waiting frame leaves, at the instant the wire came free;
at most `n` frames (R211). -/
def Eth.serve (s : State) (p : Nat) : Nat → State
  | 0 => s
  | n + 1 =>
    let x := Eth.egress s p
    match x.next with
    | none => s
    | some k =>
      if s.now < x.free then s
      else match (x.q[k]?).getD [] with
        | [] => s
        | f :: l =>
          let s := s.modNet (fun n => { n with queues := n.queues.modify p (fun x =>
            { x with q := x.q.set k l, turn := if k = 3 then x.turn else k }) })
          Eth.serve (Eth.out s p x.free f) p n

/-- Frames waiting at port `p`. -/
def EgressQ.size (x : EgressQ) : Nat := (x.q.map List.length).sum

/-- Both external ports serve their queues. -/
def Net.serve (s : State) : State := s.each [0, 1] (fun s p => Eth.serve s p (Eth.egress s p).size)

/-- A frame of queue `k` leaves by port `p`: at once when the wire is free and nothing waits, else from its queue (R211). -/
def Eth.send (s : State) (p k : Nat) (f : List Nat) : State :=
  if !Eth.up s p then s
  else
    let s := Eth.serve s p (Eth.egress s p).size
    let x := Eth.egress s p
    if x.free ≤ s.now ∧ x.next = none then Eth.out s p s.now f
    else s.modNet (fun n => { n with queues := n.queues.modify p (fun x => { x with q := x.q.modify k (· ++ [f]) }) })

/-- The egress queue of a frame: PCP bits [2:1], and 3 for a PTP message (R211). -/
def Frame.queue (fr : Frame) : Nat :=
  if fr.ptp.isSome then 3
  else match fr.tag with
    | some t => t.1 / 2 % 4
    | none => 0

/-! ### Receive ring (R213) -/

/-- Is the receive ring full? -/
def Sw.hrxFull (s : State) : Bool :=
  (s.get Sw.b Sw.HRX_WP_WP + 1) % max (s.get Sw.b Sw.HRX_SLOTS_SLOTS) 1 == s.get Sw.b Sw.HRX_RP_RP

/-- A frame goes to the receive ring: header fields PORT, FLAGS without bit 4, VID, DOM and the instant `u`. -/
def Sw.deliver (s : State) (f : List Nat) (port flags vid dom u : Nat) : State :=
  if !s.flag Sw.b Sw.HOST_CTL_HOST_EN then s
  else if Sw.hrxFull s ∨ s.get Sw.b Sw.HRX_BASE_BASE = 0 then
    ((s.count Sw.b Sw.HOST_DROP_COUNT).raise 0x062 2).modNet (fun n => { n with lost := true })
  else
    let wp := s.get Sw.b Sw.HRX_WP_WP
    let a := 64 * s.get Sw.b Sw.HRX_BASE_BASE + 2048 * wp
    let s := s.put8 (a + 32) f
    let s := s.put8 a (recBytes [(2, f.length), (1, port), (1, flags + 16 * b2n s.net.lost), (2, vid), (1, dom), (1, u % 64),
      (8, u / 64)] ++ List.replicate 16 0)
    let s := (s.modNet (fun n => { n with lost := false })).put Sw.b Sw.HRX_WP_WP
      ((wp + 1) % max (s.get Sw.b Sw.HRX_SLOTS_SLOTS) 1)
    s.raise 0x062 0

/-! ### Time-stamp points (R214) -/

/-- A latency in 1/64 ticks, nearest (DESIGN CHOICE, log entry 12). -/
def psTo64 (ps : Nat) : Nat := (2 * ps * 128 + 3125) / (2 * 3125)

/-- Ingress point of a capture, in 1/64 ticks. -/
def Eth.ingress (s : State) (p t fine : Nat) : Nat :=
  let sp := s.get (Eth.b p) Eth.ETH_STAT_SPEED
  64 * t + (if s.coast then 0 else fine) - psTo64 (s.get (Eth.b p + 8 * sp) Eth.ING_LAT_PS)

/-- Egress point of a capture, in 1/64 ticks. -/
def Eth.egressAt (s : State) (p t fine : Nat) : Nat :=
  let sp := s.get (Eth.b p) Eth.ETH_STAT_SPEED
  64 * t + (if s.coast then 0 else fine) + psTo64 (s.get (Eth.b p + 8 * sp) Eth.EGR_LAT_PS)

/-- Value of timescale `n` at an instant (1/64 ticks), in 2^-16 ns. -/
def State.tsNs (s : State) (n u : Nat) : Int := floorDiv (s.tsAt64 n u) (2 ^ 32 : Nat)

/-! ### Links -/

/-- Speed and duplex a link comes up with: auto-negotiated, or forced by ETH_CFG with AN_EN = 0; 1 Gbit/s is full duplex only
(R209, R230). -/
def Eth.resolve (s : State) (p speed : Nat) (full : Bool) : Nat × Bool :=
  let (sp, fd) := if s.flag (Eth.b p) Eth.ETH_CFG_AN_EN then (speed, full)
    else (s.get (Eth.b p) Eth.ETH_CFG_SPEED, s.flag (Eth.b p) Eth.ETH_CFG_FULL)
  (sp, fd || sp == 0)

/-- LINK_UP. -/
def execLinkUp (port : Fin 2) (speed : Fin 3) (full master : Bool) (s : State) : Out :=
  let b := Eth.b port.val
  if !s.en (0x060 + port.val) ∨ !s.running .net then .next s
  else
    let (sp, fd) := Eth.resolve s port.val speed.val full
    let s := (s.put b Eth.ETH_STAT_LINK 1).put b Eth.ETH_STAT_SPEED sp
    let s := (s.putB b Eth.ETH_STAT_FULL fd).putB b Eth.ETH_STAT_MS (master && sp == 0)
    .next (s.raise (0x060 + port.val) 0)

/-- The link of a port goes down, and the frames waiting for it are gone (DESIGN CHOICE, log entry 106). -/
def Eth.down (s : State) (p : Nat) : State :=
  if !s.flag (Eth.b p) Eth.ETH_STAT_LINK then s
  else
    let s := s.modNet (fun n => { n with queues := n.queues.set p EgressQ.init })
    ((s.put (Eth.b p) Eth.ETH_STAT_LINK 0).count (Eth.b p) Eth.ETH_STAT_DOWNS).raise (0x060 + p) 1

/-- LINK_DOWN. -/
def execLinkDown (port : Fin 2) (s : State) : Out := .next (Eth.down s port.val)

/-- ADDRESS_AGE: an address unused for AGE seconds is removed (R211). -/
def execAddressAge (mac : BitVec 48) (s : State) : Out :=
  match s.net.learned.find? (fun x => x.1 == mac.toNat) with
  | none => .next s
  | some x =>
    let s := s.runTo (x.2.2 + 640000000 * s.wget Sw.b Sw.SW_CFG_AGE)
    .next (s.modNet (fun n => { n with learned := n.learned.filter (fun y => y.1 != mac.toNat) }))

/-! ### Registers -/

/-- Placement of a ring: its page, address error code `c` (the busy code is `c + 1`), base, bytes, busy; shared by several rings. -/
def Net.place (s : State) (p req a c base bytes : Nat) (busy : Bool) (store : State → State) : State :=
  if busy then s.logErr p (c + 1) a req
  else if base % 64 = 0 ∧ base ≠ 0 ∧ inSramArea base bytes then store s else s.logErr p c a req

/-- A ring's size: busy, its own range, and the placement while placed (R463). -/
def Net.size (s : State) (p req a c n lo hi base bytes : Nat) (busy : Bool) (store : State → State) : State :=
  if busy then s.logErr p (c + 1) a req
  else if n < lo ∨ hi < n then s.logErr p E.RANGE_REJECTED a req
  else if base ≠ 0 ∧ !inSramArea base bytes then s.logErr p c a req
  else store s

/-- Special effects of a write to an ETH register. -/
def Eth.write (s : State) (req inst off v : Nat) (store : State → State) : State :=
  let a := Eth.b inst + off
  let t := store s
  if off = 0x040 ∧ t.get (Eth.b inst) Eth.ETH_CFG_SPEED = 0 ∧ !v.testBit 3 then
    (t.put (Eth.b inst) Eth.ETH_CFG_FULL (s.get (Eth.b inst) Eth.ETH_CFG_FULL)).logErr (0x060 + inst) E.RANGE_REJECTED a req
  else t

/-- Special effects of a write to a SWITCH register (R213, R231, R463). -/
def Sw.write (s : State) (req off v : Nat) (store : State → State) : State :=
  let a := Sw.b + off
  let p := 0x062
  let busy := s.flag Sw.b Sw.HOST_CTL_HOST_EN
  let rej := s.logErr p E.RANGE_REJECTED a req
  if off = 0x0A0 then Net.place s p req a 0x40 v (2048 * s.get Sw.b Sw.HRX_SLOTS_SLOTS) busy store
  else if off = 0x0A4 then
    Net.size s p req a 0x40 (v % 2 ^ 13) 4 4096 (64 * s.get Sw.b Sw.HRX_BASE_BASE) (2048 * (v % 2 ^ 13)) busy store
  else if off = 0x0AC then if s.get Sw.b Sw.HRX_SLOTS_SLOTS ≤ v % 2 ^ 13 then rej else store s
  else if off = 0x0B0 then Net.place s p req a 0x40 v (2048 * s.get Sw.b Sw.HTX_SLOTS_SLOTS) busy store
  else if off = 0x0B4 then
    Net.size s p req a 0x40 (v % 2 ^ 13) 4 4096 (64 * s.get Sw.b Sw.HTX_BASE_BASE) (2048 * (v % 2 ^ 13)) busy store
  else if off = 0x0B8 then
    if s.get Sw.b Sw.HTX_SLOTS_SLOTS ≤ v % 2 ^ 13 then rej
    else if s.get Sw.b Sw.HTX_BASE_BASE = 0 then s.logErr p 0x40 a req else store s
  else store s

/-- BLOCK_STAT of the ETH and SWITCH pages. -/
def Eth.blockStat (s : State) (p : Nat) : Nat := b2n (s.flag (Eth.b p) Eth.ETH_STAT_LINK)
def Sw.blockStat (s : State) : Nat := b2n (s.flag Sw.b Sw.HOST_CTL_HOST_EN)

end Sys2Proof.Machine
end

