-- ==== Sys2Proof/Machine/Ptp.lean ====
section
/-! DEFINITION. The PTP engine: routing of messages, transparent clock, responder, servo samples, path monitor,
successors, and the transmit ring (spec/09 R213, R215 to R229, R232).  Times are in 2^-16 ns, path delays in 2^-8 ns. -/

namespace Sys2Proof.Machine

/-! ### Domain slots -/

/-- Register base of slot `d`. -/
def Ptp.d (d : Nat) : Nat := Ptp.b + 0x100 + 0x40 * d

/-- A slot beside its registers. -/
def Ptp.slot (s : State) (d : Nat) : PtpSlot := s.net.slots[d]?.getD PtpSlot.init

/-- Change a slot beside its registers. -/
def Ptp.mod (s : State) (d : Nat) (f : PtpSlot → PtpSlot) : State :=
  s.modNet (fun n => { n with slots := n.slots.modify d f })

/-- PTP state of port `p` in slot `d`. -/
def Ptp.port (s : State) (d p : Nat) : PtpPort := (Ptp.slot s d).ports[p]?.getD ⟨none, none, none, none, none⟩

/-- An instant (1/64 ticks) presented in each timescale, 2^-16 ns: every time-stamp of a slot is one of these (R215). -/
def Ptp.stamps (s : State) (u : Nat) : List Int := (List.range 4).map (fun n => s.tsNs n u)

/-- Change it. -/
def Ptp.modPort (s : State) (d p : Nat) (f : PtpPort → PtpPort) : State :=
  Ptp.mod s d (fun x => { x with ports := x.ports.modify p f })

/-- Is slot `d` enabled? -/
def Ptp.on (s : State) (d : Nat) : Bool := s.en 0x063 && s.wflag (Ptp.d d) PtpD.DOM_CFG_EN

/-- ROLE of port `p` in slot `d`: 0 disabled, 1 master, 2 slave, 3 passive. -/
def Ptp.role (s : State) (d p : Nat) : Nat :=
  s.wget (Ptp.d d) (if p = 0 then PtpD.PORT_CFG_ROLE0 else PtpD.PORT_CFG_ROLE1)

/-- Peer delay on port `p` in slot `d`. -/
def Ptp.p2p (s : State) (d p : Nat) : Bool := s.wflag (Ptp.d d) (if p = 0 then PtpD.PORT_CFG_P2P0 else PtpD.PORT_CFG_P2P1)

/-- Timescale of slot `d`. -/
def Ptp.ts (s : State) (d : Nat) : Nat := s.wget (Ptp.d d) PtpD.DOM_CFG_TS

/-- The slot a message belongs to (R215); the lowest, should two match. -/
def Ptp.find (s : State) (transport : Nat) (m : List Nat) : Option Nat :=
  (List.range 4).find? (fun d => Ptp.on s d && s.wget (Ptp.d d) PtpD.DOM_CFG_TRANSPORT == transport
    && s.wget (Ptp.d d) PtpD.DOM_CFG_DOMAIN == Msg.domain m)

/-- portIdentity and sequenceId of a request in one number. -/
def Msg.key (m : List Nat) : Nat := Msg.portId m * 2 ^ 16 + Msg.seq m

/-- The same for the request that a response names (requestingPortIdentity). -/
def Msg.reqKey (m : List Nat) : Nat := beAt m 44 10 * 2 ^ 16 + Msg.seq m

/-! ### Path monitor (R222 to R224) -/

/-- MPD and MPD_NEW of slot `d`. -/
def Ptp.mpd (s : State) (d : Nat) : Int := s.getI (Ptp.d d) PtpD.MPD
def Ptp.mpdNew (s : State) (d : Nat) : Int := s.getI (Ptp.d d) PtpD.MPD_NEW_MPD

/-- Seeding starts: after enabling, RESEED or a change of active master (R222). -/
def Ptp.seed (s : State) (d : Nat) : State :=
  let s := Ptp.mod s d (fun x => { x with seedN := 0, seedSum := 0, candN := 0, candSum := 0, nearN := 0, farN := 0, farSum := 0 })
  (s.put (Ptp.d d) PtpD.PM_STAT_SEEDED 0).put (Ptp.d d) PtpD.PM_STAT_SUSPECT 0

/-- A freeze ends: FROZEN and STEPPED clear. -/
def Ptp.thaw (s : State) (d : Nat) : State :=
  let s := (s.put (Ptp.d d) PtpD.PM_STAT_FROZEN 0).put (Ptp.d d) PtpD.PM_STAT_STEPPED 0
  Ptp.mod s d (fun x => { x with nearN := 0, farN := 0, farSum := 0, accept := false })

/-- A change of active master re-seeds and ends a freeze (R224, R226). -/
def Ptp.newMaster (s : State) (d : Nat) : State :=
  let s := Ptp.thaw (Ptp.seed s d) d
  let s := (s.put (Ptp.d d) PtpD.PM_STAT_ARB 0).put (Ptp.d d) PtpD.PM_STAT_GNSS_OK 0
  Ptp.mod s d (fun x => { x with changed := true })

/-- One filter step towards a sample. -/
def Ptp.filt (s : State) (d : Nat) (v x : Int) : Int :=
  v + floorDiv (x - v) (2 ^ s.wget (Ptp.d d) PtpD.PM_CFG_PM_AVG : Nat)

/-- Within PM_THR? -/
def Ptp.near (s : State) (d : Nat) (v x : Int) : Bool := (x - v).natAbs ≤ 256 * s.wget (Ptp.d d) PtpD.PM_THR_NS

/-- The action of POLICY at a step whose mean stands in MPD_NEW (R223). -/
def Ptp.policy (s : State) (d : Nat) : State :=
  let b := Ptp.d d
  let pol := s.wget b PtpD.PM_CFG_POLICY
  if pol = 0 then s.putI b PtpD.MPD (Ptp.mpdNew s d)
  else if pol = 2 ∧ s.tsState (s.wget b PtpD.PM_CFG_GNSS_TS) = 1 then
    ((s.putI b PtpD.MPD (Ptp.mpdNew s d)).put b PtpD.PM_STAT_GNSS_OK 1).put b PtpD.PM_STAT_ARB 1
  else s.put b PtpD.PM_STAT_FROZEN 1

/-- A step or a new value beside a freeze: MPD_NEW takes the mean, STEP_CNT counts, PM_STEP is raised. -/
def Ptp.step (s : State) (d : Nat) (sum : Int) (n : Nat) : State :=
  let b := Ptp.d d
  (((s.putI b PtpD.MPD_NEW_MPD (floorDiv sum n)).put b PtpD.PM_STAT_STEPPED 1).count b PtpD.PM_STAT_STEP_CNT).raise 0x063 8

/-- A path sample reaches the monitor of slot `d` (R222 to R224) (DEDUCED, log entry 56). -/
def Ptp.path (s : State) (d : Nat) (x : Int) : State :=
  let b := Ptp.d d
  let cnt := s.wget b PtpD.PM_CFG_PM_CNT
  let s := if (Ptp.slot s d).accept && s.flag b PtpD.PM_STAT_FROZEN then
    Ptp.thaw (s.putI b PtpD.MPD (Ptp.mpdNew s d)) d else Ptp.mod s d (fun y => { y with accept := false })
  let s := if (Ptp.slot s d).reseed && s.flag b PtpD.PM_STAT_SEEDED then Ptp.seed s d else s
  let s := Ptp.mod s d (fun y => { y with reseed := false })
  let st := Ptp.slot s d
  if !s.flag b PtpD.PM_STAT_SEEDED then
    let n := 2 ^ s.wget b PtpD.PM_CFG_PM_AVG
    let s := Ptp.mod s d (fun y => { y with seedN := st.seedN + 1, seedSum := st.seedSum + x })
    if st.seedN + 1 < n then s
    else (s.putI b PtpD.MPD (floorDiv (st.seedSum + x) (st.seedN + 1 : Nat))).put b PtpD.PM_STAT_SEEDED 1
  else if s.flag b PtpD.PM_STAT_FROZEN then
    let nearN := if Ptp.near s d (Ptp.mpd s d) x then st.nearN + 1 else 0
    if nearN ≠ 0 ∧ cnt ≤ nearN then (Ptp.thaw s d).raise 0x063 8
    else if Ptp.near s d (Ptp.mpdNew s d) x then
      Ptp.mod (s.putI b PtpD.MPD_NEW_MPD (Ptp.filt s d (Ptp.mpdNew s d) x)) d
        (fun y => { y with nearN := nearN, farN := 0, farSum := 0 })
    else if cnt ≤ st.farN + 1 then
      Ptp.mod (Ptp.step s d (st.farSum + x) (st.farN + 1)) d (fun y => { y with nearN := nearN, farN := 0, farSum := 0 })
    else Ptp.mod s d (fun y => { y with nearN := nearN, farN := st.farN + 1, farSum := st.farSum + x })
  else if Ptp.near s d (Ptp.mpd s d) x then
    let s := s.putI b PtpD.MPD (Ptp.filt s d (Ptp.mpd s d) x)
    Ptp.mod (s.put b PtpD.PM_STAT_SUSPECT 0) d (fun y => { y with candN := 0, candSum := 0 })
  else
    let pos : Bool := Ptp.mpd s d < x
    let (n, sum) := if st.candN ≠ 0 ∧ st.candPos = pos then (st.candN + 1, st.candSum + x) else (1, x)
    if cnt ≤ n then
      let s := Ptp.mod (s.put b PtpD.PM_STAT_SUSPECT 0) d (fun y => { y with candN := 0, candSum := 0 })
      Ptp.policy (Ptp.step s d sum n) d
    else Ptp.mod (s.put b PtpD.PM_STAT_SUSPECT 1) d (fun y => { y with candN := n, candSum := sum, candPos := pos })

/-! ### Successors (R226) -/

/-- clockIdentity in successor entry `k` of slot `d`. -/
def Ptp.succ (s : State) (d k : Nat) : Nat := s.wget (Ptp.b + 0x40 * d + 8 * k) PtpP.SUCC_ID

/-- Is entry `k` live: an Announce within ANN_TO, the second one where `n` is 2? -/
def Ptp.live (s : State) (d k n : Nat) : Bool :=
  match ((Ptp.slot s d).ann[k]?).getD none with
  | some (t, run) => Ptp.succ s d k != 0 && s.now < t + 640000 * s.wget (Ptp.d d) PtpD.PORT_CFG_ANN_TO && n ≤ run
  | none => false

/-- The live entries. -/
def Ptp.lives (s : State) (d : Nat) : List Nat := (List.range 8).filter (fun k => Ptp.live s d k 1)

/-- Identity of the active master, 0 for none. -/
def Ptp.master (s : State) (d : Nat) : Nat :=
  if !s.wflag (Ptp.d d) PtpD.DOM_CFG_STATIC then Ptp.succ s d 0
  else if (Ptp.slot s d).active then Ptp.succ s d (s.get (Ptp.d d) PtpD.PM_STAT_SUCC_IDX) else 0

/-- The entry active under STATIC = 1: the lowest live one; a higher-ranked one than the active needs two Announces. -/
def Ptp.pick (s : State) (d : Nat) : Option Nat :=
  let cur := s.get (Ptp.d d) PtpD.PM_STAT_SUCC_IDX
  let held := (Ptp.slot s d).active && Ptp.live s d cur 1
  (List.range 8).find? (fun k => Ptp.live s d k (if held && decide (k < cur) then 2 else 1))

/-- Choose the active master anew; `out` says that ANN_TO has run out, `irq` that the guard raises its event (R226). -/
def Ptp.evaluate (s : State) (d : Nat) (out irq : Bool) : State :=
  let b := Ptp.d d
  let own := s.get Ptp.b PtpP.CLOCK_ID_ID
  let first := if out then (List.range 8).find? (fun k => Ptp.live s d k 1 || Ptp.succ s d k == own && own != 0)
    else (Ptp.lives s d).head?
  let s := s.putB b PtpD.PM_STAT_SUCC_NONE (Ptp.lives s d).isEmpty
  let s := if !s.wflag b PtpD.DOM_CFG_STATIC then
      (s.put b PtpD.PM_STAT_SUCC_IDX 0).raiseIf (irq && !Ptp.live s d 0 1) 0x063 1
    else match Ptp.pick s d with
      | none => (Ptp.mod s d (fun x => { x with active := false })).raiseIf irq 0x063 1
      | some k =>
        let same := (Ptp.slot s d).active && s.get b PtpD.PM_STAT_SUCC_IDX == k
        let s := s.raiseIf irq 0x063 1
        if same then s
        else
          let s := Ptp.mod (s.put b PtpD.PM_STAT_SUCC_IDX k) d (fun x => { x with active := true })
          (Ptp.newMaster s d).raise 0x063 2
  match first with
  | some k => s.raiseIf (Ptp.succ s d k == own && own != 0) 0x063 3
  | none => s

/-- ANN_TO of slot `d` runs out (guard of spec/16; called by GUARD_TIMEOUT). -/
def Ptp.announceTimeout (s : State) (d : Nat) (irq : Bool) : State :=
  if !Ptp.on s d ∨ s.frozen 0x063 then s else Ptp.evaluate s d true irq

/-- An Announce on a slave port (R226). -/
def Ptp.announce (s : State) (d : Nat) (m : List Nat) : State :=
  match (List.range 8).find? (fun k => Ptp.succ s d k == Msg.clockId m && Msg.clockId m != 0) with
  | none => s
  | some k =>
    let run := if Ptp.live s d k 1 then
        match ((Ptp.slot s d).ann[k]?).getD none with
        | some (_, r) => min (r + 1) 2
        | none => 1
      else 1
    let s := if Ptp.master s d == Msg.clockId m then s.qualify (14 + d) else s
    Ptp.evaluate (Ptp.mod s d (fun x => { x with ann := x.ann.set k (some (s.now, run)) })) d false false

/-! ### Hand-over (R228) -/

/-- Entries of slot `d` that a hand-over replaces hold no Announce; then the active master is chosen anew (R226). -/
def Ptp.replaced (s : State) (d : Nat) (old : List Nat) : State :=
  let same := (List.range 8).map (fun k => Ptp.succ s d k == (old[k]?).getD 0)
  if same.all id then s
  else Ptp.evaluate (Ptp.mod s d (fun x => { x with ann := (x.ann.zip same).map (fun (a, b) => if b then a else none) })) d false false

/-- The hand-over of the PTP page: a slot just enabled starts afresh, a changed active master re-seeds (R222, R226, R228). -/
def Ptp.handOver (s : State) : State :=
  let old := (List.range 4).map (fun d => (Ptp.on s d, Ptp.master s d, (List.range 8).map (Ptp.succ s d)))
  match s.takePage 0x063 with
  | (s, none) => s
  | (s, some _) => s.each (List.range 4) (fun s d =>
      let (on, mst, ids) := (old[d]?).getD (false, 0, [])
      if !on && Ptp.on s d then
        let s := Ptp.mod s d (fun _ => PtpSlot.init)
        Ptp.thaw (Ptp.seed s d) d
      else if on && Ptp.on s d then
        let s := Ptp.replaced s d ids
        if Ptp.master s d = mst then s else Ptp.newMaster s d
      else s)

/-- The values for a message whose time-stamp point is `u` (1/64 ticks): from the next update tick on, those that its hand-over
takes (R228). -/
def Ptp.from_ (s : State) (u : Nat) : State := if 64 * (s.updLast + 65536) ≤ u ∧ s.running .net then Ptp.handOver s else s

/-! ### Servo samples (R221, R223) -/

/-- Is the servo ring full? -/
def Ptp.srvFull (s : State) : Bool :=
  (s.get Ptp.b PtpP.SRV_WP_WP + 1) % max (s.get Ptp.b PtpP.SRV_SLOTS_SLOTS) 1 == s.get Ptp.b PtpP.SRV_RP_RP

/-- A Sync from the active master gives a servo sample: `t1c` is t1 with the corrections, `u` the ingress point, which reads `at_` in
the timescales, `seq` its sequenceId (R221, R223, R226, R229) (DEDUCED, log entry 57). -/
def Ptp.sample (s : State) (d p : Nat) (t1c : Int) (u : Nat) (at_ : List Int) (seq : Nat) (two : Bool) : State :=
  let b := Ptp.d d
  let t2 := at_[Ptp.ts s d]?.getD 0
  let s := Ptp.modPort s d p (fun x => { x with sync := some (t1c, t2), wait := none })
  if s.frozen 0x063 then s.count Ptp.b PtpP.SRV_DROP_COUNT
  else if (Ptp.lives s d).isEmpty then s.put b PtpD.PM_STAT_SUCC_NONE 1
  else
    let s := s.put b PtpD.PM_STAT_SUCC_NONE 0
    let g := s.wget b PtpD.PM_CFG_GNSS_TS
    let ok := s.flag b PtpD.PM_STAT_ARB && s.wget b PtpD.PM_CFG_POLICY == 2 && s.tsState g == 1
    let s := s.putB b PtpD.PM_STAT_GNSS_OK ok
    let base := t1c + 256 * (Ptp.mpd s d + s.wgetI b PtpD.ASYM)
    let comp := if ok then floorDiv (at_[g]?.getD 0 - base) 256 else 0
    let s := if ok then s.putI b PtpD.COMP comp else s
    let fl (f : Fld) (i : Nat) : Nat := 2 ^ i * s.get b f
    let flags := fl PtpD.PM_STAT_FROZEN 0 + fl PtpD.PM_STAT_ARB 1 + 4 * b2n two + 8 * (1 - s.get b PtpD.PM_STAT_SEEDED)
      + 16 * b2n (Ptp.slot s d).changed + fl PtpD.PM_STAT_SUSPECT 5
    if !s.flag Ptp.b PtpP.PTP_CTL_SRV_EN then s
    else if Ptp.srvFull s ∨ s.get Ptp.b PtpP.SRV_BASE_BASE = 0 then
      (s.count Ptp.b PtpP.SRV_DROP_COUNT).raise 0x063 6
    else
      let wp := s.get Ptp.b PtpP.SRV_WP_WP
      let r := recBytes [(8, u / 64), (1, u % 64), (1, d + 4 * p), (1, flags), (1, 0), (2, seq), (2, 0),
        (8, ofSigned 64 (t2 - base)), (4, ofSigned 32 (Ptp.mpd s d)), (4, ofSigned 32 comp)]
      let s := s.put8 (64 * s.get Ptp.b PtpP.SRV_BASE_BASE + 32 * wp) r
      let s := Ptp.mod s d (fun x => { x with changed := false })
      (s.put Ptp.b PtpP.SRV_WP_WP ((wp + 1) % max (s.get Ptp.b PtpP.SRV_SLOTS_SLOTS) 1)).raise 0x063 0

/-- The peer link delay of port `p` in slot `d`, which is also the path sample of a slave port (R221). -/
def Ptp.linkDelay (s : State) (d p : Nat) (twice : Int) : State :=
  let x := floorDiv twice 512
  let s := s.putI (Ptp.d d + 4 * p) PtpD.LINK_DELAY_DELAY x
  if Ptp.role s d p = 2 ∧ !s.frozen 0x063 then Ptp.path s d x else s

/-- What the engine does with a message of slot `d` on port `p` beside routing and replies (R220, R221, R226). -/
def Ptp.act (s : State) (d p : Nat) (m : List Nat) (u : Nat) : State :=
  let role := Ptp.role s d p
  let ty := Msg.type m
  let mine := role == 2 && Msg.clockId m == Ptp.master s d && Ptp.master s d != 0
  let t := s.tsNs (Ptp.ts s d) u
  let pt := Ptp.port s d p
  if role = 0 then s
  else if ty = 0 ∧ mine then
    if Msg.twoStep m then Ptp.modPort s d p (fun x => { x with wait := some (Msg.seq m, u, Ptp.stamps s u, Msg.corr m) })
    else Ptp.sample s d p (Msg.stamp m + Msg.corr m) u (Ptp.stamps s u) (Msg.seq m) false
  else if ty = 8 ∧ mine then
    match pt.wait with
    | some (q, u0, at_, c) => if q = Msg.seq m then Ptp.sample s d p (Msg.stamp m + c + Msg.corr m) u0 at_ q true else s
    | none => s
  else if ty = 9 ∧ mine then
    match pt.sync, pt.t3 with
    | some (t1c, t2), some (key, t3) =>
      if key ≠ Msg.reqKey m ∨ Ptp.p2p s d p then s
      else
        let s := Ptp.modPort s d p (fun x => { x with t3 := none })
        let x := floorDiv ((t2 - t1c) + (Msg.stamp m - Msg.corr m - t3)) 512
        if s.frozen 0x063 then s else Ptp.path s d x
    | _, _ => s
  else if ty = 3 ∧ Ptp.p2p s d p then
    match pt.pd1 with
    | some (key, t1) =>
      if key ≠ Msg.reqKey m then s
      else if Msg.twoStep m then
        Ptp.modPort s d p (fun x => { x with pd1 := none, pdWait := some (key, t - t1 - Msg.corr m + Msg.stamp m) })
      else Ptp.linkDelay (Ptp.modPort s d p (fun x => { x with pd1 := none })) d p (t - t1 - Msg.corr m)
    | none => s
  else if ty = 10 ∧ Ptp.p2p s d p then
    match pt.pdWait with
    | some (key, v) =>
      if key ≠ Msg.reqKey m then s
      else Ptp.linkDelay (Ptp.modPort s d p (fun x => { x with pdWait := none })) d p (v - Msg.stamp m - Msg.corr m)
    | none => s
  else if ty = 11 ∧ role = 2 ∧ !s.frozen 0x063 then Ptp.announce s d m
  else s

/-! ### Responder (R220) -/

/-- Does the responder take this message of slot `d`? -/
def Ptp.takes (s : State) (d p : Nat) (m : List Nat) : Bool :=
  s.wflag Ptp.b PtpP.PTP_CTL_HW_RESP && Ptp.role s d p != 0 &&
    ((Msg.type m == 1 && Ptp.role s d p == 1) || (Msg.type m == 2 && Ptp.p2p s d p))

/-- The reply to a Delay_Req or Pdelay_Req received at `u` and answered at `e` (1/64 ticks): PTP message octets
(DEDUCED, log entry 55). -/
def Ptp.reply (s : State) (d p : Nat) (m : List Nat) (u e : Nat) : List Nat :=
  let n := Ptp.ts s d
  let (sec, ns, sub) := s.present n u
  let head (ty : Nat) (c : Int) (ctl : Nat) : List Nat :=
    [beAt m 0 1 / 16 * 16 + ty, beAt m 1 1, 0, 54, Msg.domain m, beAt m 5 1, 0, 0] ++ beBytes (ofSigned 64 c) 8
      ++ [0, 0, 0, 0] ++ beBytes (s.get Ptp.b PtpP.CLOCK_ID_ID) 8 ++ beBytes (p + 1) 2 ++ beBytes (Msg.seq m) 2 ++ [ctl, 0x7F]
  if Msg.type m = 1 then
    head 9 (Msg.corr m - sub) 3 ++ beBytes sec 6 ++ beBytes ns 4 ++ beBytes (Msg.portId m) 10
  else
    head 3 (Msg.corr m + (s.tsNs n e - s.tsNs n u)) 5 ++ List.replicate 10 0 ++ beBytes (Msg.portId m) 10

/-- The frame of a reply `r` to the request `f` over transport `tr`: from the port's MAC address, to
the group the request went to or else to its sender, with its tag; over UDP from the port of the reply's kind (319 event, 320
general), with R218's checksum 0 or two octets of padding.  The module's IP address, which no register holds, is free
(R210, R218, R220) (DEDUCED, log entry 55). -/
def Ptp.frame (s : State) (p : Nat) (f : List Nat) (tr : Nat) (r : List Nat) : List Nat × State :=
  let octets (l : List Nat) (i n : Nat) : List Nat := (l.drop i).take n
  let group := (beAt f 0 1).testBit 0
  let pay := (Frame.of f).pay
  let head := (if group then octets f 0 6 else octets f 6 6) ++ beBytes (s.get (Eth.b p) Eth.MAC_ADDR_MAC) 6 ++ octets f 12 (pay - 12)
  let port := beBytes (if Msg.type r < 4 then 319 else 320) 2
  if tr = 0 then (head ++ r, s)
  else if tr = 1 then
    let (own, s) := s.draw (2 ^ 32)
    let ip (sum : Nat) : List Nat := [0x45, 0] ++ beBytes (28 + r.length) 2 ++ [0, 0, 0, 0, 1, 17] ++ beBytes sum 2 ++ beBytes own 4
      ++ (if group then octets f (pay + 16) 4 else octets f (pay + 12) 4)
    (head ++ ip (0xFFFF - onesSum (ip 0) 10 % 0xFFFF) ++ port ++ port ++ beBytes (8 + r.length) 2 ++ [0, 0] ++ r, s)
  else
    let (own, s) := s.draw (2 ^ 128)
    let addr := beBytes own 16 ++ (if group then octets f (pay + 24) 16 else octets f (pay + 8) 16)
    let len := beBytes (10 + r.length) 2
    let udp (sum : Nat) : List Nat := port ++ port ++ len ++ beBytes sum 2 ++ r ++ [0, 0]
    let sum := 0xFFFF - onesSum (addr ++ len ++ [0, 17] ++ udp 0) (32 + 4 + 10 + r.length) % 0xFFFF
    (head ++ [0x60, 0, 0, 0] ++ len ++ [17, 1] ++ addr ++ udp sum, s)

/-- Answer a request in frame `f`, within RESP_MAX in each whole second of the base counter (R220, R229). -/
def Ptp.respond (s : State) (d p vid untag : Nat) (f : List Nat) (fr : Frame) (o tr u e : Nat) : State :=
  let m := f.drop o
  if s.frozen 0x063 then s.count Ptp.b PtpP.RESP_DROP_COUNT
  else
    let sec := s.now / 640000000
    let n := if s.net.respSec = sec then s.net.respCnt else 0
    if s.wget Ptp.b PtpP.RESP_MAX_RATE ≤ n then (s.count Ptp.b PtpP.RESP_DROP_COUNT).raise 0x063 4
    else
      let s := s.modNet (fun x => { x with respSec := sec, respCnt := n + 1 })
      let (g, s) := Ptp.frame s p f tr (Ptp.reply s d p m u e)
      Eth.send s p 3 (Sw.egress g fr vid untag p)

/-! ### Transparent clock (R219) -/

/-- Residence, in 2^-16 ns of a timescale, from an ingress to an egress point. -/
def Ptp.residence (s : State) (n u e : Nat) : Int := roundDiv (((e : Int) - u) * s.incNow n) (64 * 2 ^ 32)

/-- A message forwarded at `e`: the message as it leaves, `none` when it is not forwarded, and the residence table. -/
def Ptp.transit (s : State) (slot : Option Nat) (p : Nat) (m : List Nat) (u e : Nat) : Option (List Nat) × State :=
  let ty := Msg.type m
  let p2p := s.wflag Ptp.b PtpP.PTP_CTL_TC_P2P
  let n := match slot with
    | some d => Ptp.ts s d
    | none => s.wget Ptp.b PtpP.PTP_CTL_TC_TS
  let link := if p2p && ty == 0 then 256 * s.getI (Ptp.d (slot.getD 0) + 4 * p) PtpD.LINK_DELAY_DELAY else 0
  let r := Ptp.residence s n u e + link
  if p2p ∧ (ty = 1 ∨ ty = 9) then (none, s)
  else if ty = 0 ∧ Msg.twoStep m then
    (some m, s.modNet (fun x => { x with tcTab := (Msg.portId m, Msg.seq m, r, s.now) :: x.tcTab.take 63 }))
  else if ty ≤ 3 then (some (Msg.setCorr m (Msg.corr m + r)), s)
  else if ty = 8 then
    match s.net.tcTab.find? (fun x => x.1 == Msg.portId m && x.2.1 == Msg.seq m) with
    | some x => (some (Msg.setCorr m (Msg.corr m + x.2.2.1)),
        s.modNet (fun y => { y with tcTab := y.tcTab.filter (fun z => !(z.1 == Msg.portId m && z.2.1 == Msg.seq m)) }))
    | none => (some m, s.count Ptp.b PtpP.TC_UNMATCHED_COUNT)
  else (some m, s)

/-- TC_ENTRY_EXPIRE: the oldest entry is discarded once it is 1 s old (R219). -/
def execTcEntryExpire (s : State) : Out :=
  match s.net.tcTab.getLast? with
  | none => .next s
  | some x => .next ((s.runTo (x.2.2.2 + 640000000)).modNet (fun y => { y with tcTab := y.tcTab.dropLast }))

/-! ### Reception (R211, R214, R215) -/

/-- A PTP message of a classified frame, received at `u` (R215, R219, R220). -/
def Ptp.receive (s : State) (p vid member untag : Nat) (f : List Nat) (fr : Frame) (o tr u e : Nat) : State :=
  let m := f.drop o
  let slot := if s.en 0x063 then Ptp.find s tr m else none
  let event := if tr = 0 then decide (Msg.type m < 4) else beAt f (o - 6) 2 == 319
  let tc := s.en 0x063 && s.wflag Ptp.b PtpP.PTP_CTL_TC_EN
  let s := if Msg.type m = 2 then s.modNet (fun n => { n with pdReq := n.pdReq.modify p (fun l =>
      (Msg.portId m, Msg.seq m, Ptp.stamps s u) :: l.filter (fun x => !(x.1 == Msg.portId m && x.2.1 == Msg.seq m))) }) else s
  let taken := match slot with
    | some d => Ptp.takes s d p m
    | none => false
  let ring := !taken && member.testBit 2 && (match slot with
    | some d => Ptp.role s d p != 0
    | none => !tc)
  let s := if !ring then s
    else Sw.deliver s (Sw.egress f fr vid untag 2) p (1 + 2 * b2n event + 4 + 8 * b2n fr.tag.isSome) vid (slot.getD 255) u
  let s := if tc && member.testBit (1 - p) then
      match Ptp.transit s slot p m u (Eth.egressAt s (1 - p) (e / 64) (e % 64)) with
      | (none, s) => s
      | (some m', s) =>
        let f' := if m' = m then f else (Frame.withMsg f o tr m').getD f
        Eth.send s (1 - p) 3 (Sw.egress f' fr vid untag (1 - p))
    else s
  match slot with
  | none => s
  | some d =>
    if taken then Ptp.respond s d p vid untag f fr o tr u (Eth.egressAt s p (e / 64) (e % 64)) else Ptp.act s d p m u

/-- A frame arrives on an external port; one longer than 1,522 octets with its FCS is not received (R209, R211, R213, R214, R228)
(DESIGN CHOICE, log entry 106). -/
def Net.receive (rx : Rx) (s : State) : State :=
  let p := rx.port.val
  let s := s.runTo rx.t.toNat
  if !Eth.up s p ∨ 1518 < rx.octets.length then s
  else if !rx.fcsOk then (s.count (Eth.b p) Eth.RX_ERR_COUNT).raise (0x060 + p) 2
  else
    let s := s.count (Eth.b p) Eth.RX_FRAMES_COUNT
    let f := rx.octets.map (·.toNat)
    let fr := Frame.of f
    if !s.en 0x062 then s
    else match Sw.classify s p fr with
      | none => (s.count Sw.b Sw.VLAN_DROP_COUNT).raise 0x062 2
      | some (vid, member, untag) =>
        let s := Sw.learn s p (beAt f 6 6)
        let u := Eth.ingress s p rx.t.toNat rx.fine.toNat
        let s := Ptp.from_ s u
        match fr.ptp with
        | some (o, tr) => Ptp.receive s p vid member untag f fr o tr u (64 * rx.eT.toNat + rx.eFine.toNat)
        | none =>
          s.each ((Sw.ports s p (beAt f 0 6)).filter (fun q => member.testBit q)) (fun s q =>
            if q = 2 then Sw.deliver s (Sw.egress f fr vid untag 2) p (4 + 8 * b2n fr.tag.isSome) vid 255 u
            else Eth.send s q fr.queue (Sw.egress f fr vid untag q))

/-- PTP message type of a received frame: 16 for another frame. -/
def Net.typeOf (rx : Rx) : Nat :=
  let f := rx.octets.map (·.toNat)
  match (Frame.of f).ptp with
  | some (o, _) => Msg.type (f.drop o)
  | none => 16

/-- A received frame of one of the message types `l`; another frame is another command's. -/
def Net.receiveIf (l : List Nat) (rx : Rx) (s : State) : Out := .next (if Net.typeOf rx ∈ l then Net.receive rx s else s)

/-- FRAME_RECEIVE: every frame but the messages with rows of their own. -/
def execFrameReceive (rx : Rx) (s : State) : Out := Net.receiveIf [4, 5, 6, 7, 12, 13, 14, 15, 16] rx s
/-- SYNC. -/
def execSync (rx : Rx) (s : State) : Out := Net.receiveIf [0] rx s
/-- FOLLOW_UP. -/
def execFollowUp (rx : Rx) (s : State) : Out := Net.receiveIf [8] rx s
/-- DELAY_REQ. -/
def execDelayReq (rx : Rx) (s : State) : Out := Net.receiveIf [1] rx s
/-- DELAY_RESP. -/
def execDelayResp (rx : Rx) (s : State) : Out := Net.receiveIf [9] rx s
/-- PDELAY_REQ. -/
def execPdelayReq (rx : Rx) (s : State) : Out := Net.receiveIf [2] rx s
/-- PDELAY_RESP, and its follow-up. -/
def execPdelayResp (rx : Rx) (s : State) : Out := Net.receiveIf [3, 10] rx s
/-- ANNOUNCE. -/
def execAnnounce (rx : Rx) (s : State) : Out := Net.receiveIf [11] rx s

/-! ### QUALITY (R225) -/

/-- Accuracies of the codes 0x17 to 0x30 of the clockAccuracy table of IEEE 1588-2019, in fs (PRESUMED, log entry 16). -/
def Ptp.accuracies : List Nat :=
  [1000, 2500, 10000, 25000, 100000, 250000, 1000000, 2500000, 10000000, 25000000, 100000000, 250000000, 1000000000, 2500000000,
   10000000000, 25000000000, 100000000000, 250000000000, 1000000000000, 2500000000000, 10000000000000, 25000000000000,
   100000000000000, 250000000000000, 1000000000000000, 10000000000000000]

/-- Code of the smallest accuracy at or above a bound in 2^-8 ns; 0x31 beyond the table. -/
def Ptp.accCode (b256 : Nat) : Nat := 0x17 + (Ptp.accuracies.takeWhile (fun a => 256 * a < b256 * 1000000)).length

/-- clockAccuracy code of slot `d` from the bound B. -/
def Ptp.acc (s : State) (d : Nat) : Nat :=
  let bound := s.get (Ts.b (Ptp.ts s d)) TsR.PUB_BOUND_BOUND
  if bound = 2 ^ 32 - 1 then 0xFE
  else Ptp.accCode (256 * bound +
    (if s.flag (Ptp.d d) PtpD.PM_STAT_FROZEN then (Ptp.mpdNew s d - Ptp.mpd s d).natAbs else 0))

/-- Is the slot's timescale in HOLDOVER? -/
def Ptp.hold (s : State) (d : Nat) : Bool := s.tsState (Ptp.ts s d) == 2

/-- QUAL_d as read. -/
def Ptp.qual (s : State) (d : Nat) : Nat := Ptp.acc s d + 256 * b2n (Ptp.hold s d)

/-- Overwrite the quality fields of an Announce. -/
def Ptp.quality (s : State) (d : Nat) (m : List Nat) : List Nat :=
  if Msg.type m ≠ 11 then m
  else
    let b := Ptp.d d
    let m := setOctets m 49 [max (beAt m 49 1) (Ptp.acc s d)]
    let m := if Ptp.hold s d then setOctets m 48 [max (beAt m 48 1) (s.wget b PtpD.DOM_CFG_HOLD_CLASS)] else m
    if !s.wflag b PtpD.DOM_CFG_UTC_HW then m
    else
      let m := setOctets m 44 (beBytes (ofSigned 16 (s.getI Time.b TimeP.UTC_OFS_OFS)) 2)
      setOctets m 7 [beAt m 7 1 / 8 * 8 + 4 + 2 * s.get Time.b TimeP.LEAP_CTL_LEAP59 + s.get Time.b TimeP.LEAP_CTL_LEAP61]

/-! ### Transmit ring (R213, R217) -/

/-- Preamble and SFD, 8 octets, in ps at speed `sp` (PRESUMED, log entry 16). -/
def Eth.preamble (sp : Nat) : Nat := 64000 * 10 ^ sp

/-- One-step insertion of the egress point `e` (R217): the message, and the state after a free value where a Pdelay_Resp
answers no known request. -/
def Ptp.insert (s : State) (d p e : Nat) (m : List Nat) : List Nat × State :=
  let n := Ptp.ts s d
  if Msg.twoStep m then (m, s)
  else if Msg.type m = 0 then
    let (sec, ns, sub) := s.present n e
    (Msg.setCorr (setOctets (setOctets m 34 (beBytes sec 6)) 40 (beBytes ns 4)) (Msg.corr m + sub), s)
  else if Msg.type m = 3 then
    match ((s.net.pdReq[p]?).getD []).find? (fun x => x.1 * 2 ^ 16 + x.2.1 == Msg.reqKey m) with
    | some x => (Msg.setCorr m (Msg.corr m + (s.tsNs n e - (x.2.2[n]?).getD 0)), s)
    | none => let (v, s) := s.draw (2 ^ 64); (Msg.setCorr m v, s)
  else (m, s)

/-- HOST_FRAME_SEND: the next transmit slot leaves at the replica value `launch` (R213, R217, R225)
(DEDUCED, log entry 54). -/
def execHostFrameSend (launch : BitVec 64) (s : State) : Out :=
  let rp := s.get Sw.b Sw.HTX_RP_RP
  if !s.en 0x062 ∨ !s.running .net ∨ !s.flag Sw.b Sw.HOST_CTL_HOST_EN ∨ s.get Sw.b Sw.HTX_BASE_BASE = 0
      ∨ rp = s.get Sw.b Sw.HTX_WP_WP ∨ s.net.tx.isSome then .next s
  else
    let s := s.runTo launch.toNat
    let a := 64 * s.get Sw.b Sw.HTX_BASE_BASE + 2048 * rp
    let (s, h) := s.devRead a 32
    let h := h.getD []
    let len := leNat (h.take 2)
    let flags := (h[3]?).getD 0
    let d := (h[4]?).getD 0 % 4
    let (s, fo) := s.devRead (a + 32) (min (max len 1) 2016)
    let f := fo.getD []
    let fr := Frame.of f
    let tx (s : State) (st : Nat) (ports : List Nat) (e : Option Nat) (m : List Nat) : Out :=
      .next (s.modNet (fun n => { n with tx := some ⟨a, st, flags, (fr.ptp.map (·.2)).getD 0, ports, e, m⟩ }))
    if len < 14 ∨ 1518 < len ∨ fo.isNone ∨ (flags / 2 % 4 ≠ 0 ∧ fr.ptp.isNone) then tx s 3 [] none []
    else match Sw.classify s 2 fr with
      | none =>
        let (v, s) := ((s.count Sw.b Sw.VLAN_DROP_COUNT).raise 0x062 2).draw 4
        tx s (v + 1) [] none []
      | some (vid, member, untag) =>
        let s := Sw.learn s 2 (beAt f 6 6)
        let named := (h[2]?).getD 0 % 4
        let want := if named ≠ 0 then (List.range 2).filter (fun p => named.testBit p)
          else if fr.ptp.isSome then [0, 1] else (Sw.ports s 2 (beAt f 0 6)).filter (· ≠ 2)
        let ports := want.filter (fun p => member.testBit p && Eth.up s p)
        match ports.head? with
        | none => tx s 2 [] none []
        | some p =>
          let sp := s.get (Eth.b p) Eth.ETH_STAT_SPEED
          let e := Eth.egressAt s p launch.toNat 0 + psTo64 (Eth.preamble sp)
          match fr.ptp with
          | none => tx (s.each ports (fun s q => Eth.out s q launch.toNat (Sw.egress f fr vid untag q))) 1 ports none []
          | some (o, tr) =>
            let m := f.drop o
            let one := flags.testBit 1
            let v := Ptp.from_ s e
            let (m1, w) := if one then Ptp.insert v d p e m else (m, v)
            let s := { s with fresh := w.fresh }
            let m2 := if flags.testBit 2 then Ptp.quality v d m1 else m1
            let (f2, st) := if m2 = m then (f, 1)
              else match Frame.withMsg f o tr m2 with
                | some g => (g, 1)
                | none => (f, 3)
            let ins := if one && st == 1 && m1 != m then some e else none
            tx (s.each ports (fun s q => Eth.out s q launch.toNat (Sw.egress f2 fr vid untag q))) st ports ins (f2.drop o)

/-- The egress point of an own request is kept for the path delay (R221). -/
def Ptp.sent (s : State) (t : TxSt) (u : Nat) : State :=
  match if s.en 0x063 then Ptp.find s t.transport t.msg else none with
  | none => s
  | some d => s.each t.ports (fun s p =>
      let v := some (Msg.key t.msg, s.tsNs (Ptp.ts s d) u)
      if Msg.type t.msg = 1 then Ptp.modPort s d p (fun x => { x with t3 := v })
      else if Msg.type t.msg = 2 then Ptp.modPort s d p (fun x => { x with pd1 := v })
      else s)

/-- HOST_TX_DONE: the egress point has been captured at (`t`, `fine`) (R213, R217). -/
def execHostTxDone (t : BitVec 64) (fine : BitVec 6) (s : State) : Out :=
  match s.net.tx with
  | none => .next s
  | some x =>
    let s := (s.runTo t.toNat).modNet (fun n => { n with tx := none })
    let s := match x.ports.head? with
      | none => s.put8 (x.addr + 5) [x.status]
      | some p =>
        let u := Eth.egressAt s p t.toNat fine.toNat
        let dev := match x.egress with
          | some e => decide (128 * s.wget Ptp.b PtpP.INS_TOL_PS < 3125 * ((u : Int) - e).natAbs)
          | none => false
        let s := if dev then (s.count Ptp.b PtpP.INS_DEV_COUNT).raise 0x063 5 else s
        let s := s.put8 (x.addr + 5) [if dev then 4 else x.status]
        let s := if x.flags % 4 = 0 then s else (s.put8 (x.addr + 8) (leBytes 8 (u / 64))).put8 (x.addr + 16) [u % 64]
        if x.msg = [] then s else Ptp.sent s x u
    let n := max (s.get Sw.b Sw.HTX_SLOTS_SLOTS) 1
    .next ((s.put Sw.b Sw.HTX_RP_RP ((s.get Sw.b Sw.HTX_RP_RP + 1) % n)).raise 0x062 1)

/-! ### Hand-over and registers (R228, R232) -/

/-- TIME_UPDATE_TICK: the hand-overs of the TIME and PTP pages and the clamp (R184, R185, R228). -/
def execTimeUpdateTick (s : State) : Out :=
  .next (if s.running .net then Ptp.handOver (Time.update s) else Time.update s)

/-- Special effects of a write to a PTP register (R224, R232). -/
def Ptp.write (s : State) (req off v : Nat) (store : State → State) : State :=
  let a := Ptp.b + off
  let busy := s.flag Ptp.b PtpP.PTP_CTL_SRV_EN
  if off = 0x050 then Net.place s 0x063 req a 0x40 v (32 * s.get Ptp.b PtpP.SRV_SLOTS_SLOTS) busy store
  else if off = 0x054 then
    Net.size s 0x063 req a 0x40 (v % 2 ^ 16) 2 65535 (64 * s.get Ptp.b PtpP.SRV_BASE_BASE) (32 * (v % 2 ^ 16)) busy store
  else if off = 0x05C then
    if s.get Ptp.b PtpP.SRV_SLOTS_SLOTS ≤ v % 2 ^ 16 then s.logErr 0x063 E.RANGE_REJECTED a req else store s
  else if 0x100 ≤ off ∧ off < 0x200 ∧ off % 0x40 = 0x24 then
    let d := (off - 0x100) / 0x40
    let b := Ptp.d d
    Ptp.mod (store s) d (fun x => { x with
      accept := x.accept || (v.testBit 0 && s.flag b PtpD.PM_STAT_FROZEN)
      reseed := x.reseed || (v.testBit 1 && s.flag b PtpD.PM_STAT_SEEDED) })
  else store s

/-- Computed registers of the PTP page. -/
def Ptp.read (s : State) (off : Nat) : Option Nat :=
  if 0x100 ≤ off ∧ off < 0x200 ∧ off % 0x40 = 0x28 then some (Ptp.qual s ((off - 0x100) / 0x40)) else none

/-- BLOCK_STAT of the PTP page. -/
def Ptp.blockStat (s : State) : Nat := b2n ((List.range 4).any (fun d => s.flag (Ptp.d d) PtpD.PM_STAT_FROZEN))

end Sys2Proof.Machine
end

