-- ==== Sys2Proof/Machine/Evt.lean ====
section
/-! DEFINITION. The TP and CYC pads (spec/08 R202) and the event-capture inputs (spec/08 R203 to R205, R208). -/

namespace Sys2Proof.Machine

/-! ### Pulse spans on the pads -/

/-- May a span that starts now drive pad `p`: DRIVE, TIME EN, and the module not on VBAK (R15, R182, R202)? -/
def Pad.allowed (s : State) (p : Nat) : Bool :=
  s.flag (Time.b + 8 * p) TimeP.PAD_CTL_DRIVE && s.en Time.p && !s.pwr.asleep

/-- DRIVE, EN or the supply is about to change: what each pad allowed until now stays known for spans that began before the action that
gives them (R202). -/
def Pad.changing (s : State) : State :=
  { s with padLog := (s.now, (List.range 8).map (Pad.allowed s)) :: s.padLog.filter (fun e => decide (s.now < e.1 + 2 ^ 16)) }

/-- What pad `p` allowed at the instant `u` (1/64 ticks). -/
def Pad.allowedAt (s : State) (p u : Nat) : Bool :=
  match s.padLog.reverse.find? (fun e => decide (u < 64 * e.1)) with
  | some e => (e.2[p]?).getD false
  | none => Pad.allowed s p

/-- The span as the pad drives it: one that began before now ends where DRIVE or EN fell in between (R202). -/
def Pad.driven (s : State) (x : Span) : Span :=
  let falls := (s.padLog.map (fun e => 64 * e.1)).filter (fun u => decide (x.from_ < u) && !Pad.allowedAt s x.pad u)
  { x with to_ := falls.foldl min x.to_ }

/-- Do two spans touch: overlap, or one starts less than 2 ticks after the other ends (R202)? -/
def Span.joins (a b : Span) : Bool :=
  a.pad == b.pad && decide (b.from_ < a.to_ + 128) && decide (a.from_ < b.to_ + 128)

/-- A started span joins the spans driven; OVERLAP counts one for each span so joined (R202) (DEDUCED, log entry 47). -/
def Pad.add (s : State) (x : Span) : State :=
  let hit := s.spans.filter (fun y => x.joins y)
  let all := hit.foldl (fun (a : Span) y => ⟨a.pad, min a.from_ y.from_, max a.to_ y.to_⟩) x
  let s := { s with spans := all :: s.spans.filter (fun y => !x.joins y) }
  s.each hit (fun s _ => s.count Time.b TimeP.OVERLAP_COUNT)

/-- Spans whose start has come are driven or discarded (R202). -/
def Pad.settle (s : State) : State :=
  let due := s.spanQ.filter (fun x => decide (x.from_ ≤ 64 * s.now))
  let s := { s with spanQ := s.spanQ.filter (fun x => !decide (x.from_ ≤ 64 * s.now)) }
  s.each due (fun s x => if Pad.allowedAt s x.pad x.from_ then Pad.add s (Pad.driven s x) else s)

/-- A pulse action on pad `p` at the instant `u` (1/64 ticks): the span starts DELAY later and lasts PAD_WIDTH ticks; in
coast mode edges fall on the tick at or after (R181, R202) (DEDUCED, log entry 46). -/
def Pad.pulse (s : State) (p u : Nat) : State :=
  let st := ((u : Int) + s.getI (Time.b + 8 * p) TimeP.PAD_CTL_DELAY).toNat
  let st := if s.coast then (st + 63) / 64 * 64 else st
  Pad.settle { s with spanQ := ⟨p, st, st + 64 * s.get (Time.b + 8 * p) TimeP.PAD_WIDTH_WIDTH⟩ :: s.spanQ }

/-- Is pad `p` asserted now? -/
def Pad.asserted (s : State) (p : Nat) : Bool :=
  s.spans.any (fun x => x.pad == p && decide (x.from_ ≤ 64 * s.now ∧ 64 * s.now < x.to_))

/-- PAD_STAT: electrical levels after POL; high-impedance pads on VBAK read their pull-down (R182, R206).  `early` are the spans that a
negative DELAY starts before the action that gives them. -/
def Pad.stat (s : State) (early : List Span) : Nat :=
  let s := Pad.settle s
  let s := { s with spans := (early.filter (fun x => Pad.allowedAt s x.pad x.from_)).map (Pad.driven s) ++ s.spans }
  (List.range 8).foldl (fun a p =>
    a + b2n (!s.pwr.asleep &&
      (Pad.asserted s p != s.flag (Time.b + 8 * p) TimeP.PAD_CTL_POL)) * 2 ^ p) 0

/-- DRIVE or EN went to 0: the spans under way on a pad that may no longer be driven end now (R202). -/
def Pad.cut (s : State) : State :=
  { s with spans := s.spans.filter (fun x => Pad.allowed s x.pad || decide (x.to_ ≤ 64 * s.now)) }

/-- PULSE_END: the pad's pulse ends and the pad returns to its idle level (R202). -/
def execPulseEnd (pad : Fin 8) (s : State) : Out :=
  let s := Pad.settle s
  match (s.spans.filter (fun x => x.pad == pad.val && decide (64 * s.now < x.to_))).foldl
      (fun (m : Option Nat) x => some (match m with | none => x.to_ | some y => min y x.to_)) none with
  | none => .next s
  | some t =>
    let s := s.runTo ((t + 63) / 64)
    -- spans that ended 2 ticks ago or earlier join nothing any more
    .next { s with spans := s.spans.filter (fun x => decide (64 * s.now < x.to_ + 128)) }

/-- Edges of spans that fall due in [from, to) ticks while SYN_T is lost: driven at the coast edge, counted (R181). -/
def Pad.late (s : State) (lo hi : Nat) : State :=
  let due (u : Nat) : Bool := decide (64 * lo ≤ u ∧ u < 64 * hi)
  let n := ((s.spans ++ s.spanQ).map (fun x => b2n (due x.from_) + b2n (due x.to_))).sum
  s.put Time.b TimeP.EDGE_LATE_COUNT (min (s.get Time.b TimeP.EDGE_LATE_COUNT + n) (2 ^ 32 - 1))

/-! ### Event capture -/

/-- EVT page. -/
def Evt.p : Nat := 0x054

/-- EVT page base. -/
def Evt.b : Nat := pg 0x054

/-- Register base of input `i`. -/
def Evt.ib (i : Nat) : Nat := Evt.b + 0x100 + 0x20 * i

/-- An input beside its registers. -/
def State.evt (s : State) (i : Nat) : EvtSt := s.evtIn[i]?.getD ⟨none, none, none⟩

/-- Change an input beside its registers. -/
def State.modEvt (s : State) (i : Nat) (f : EvtSt → EvtSt) : State := { s with evtIn := s.evtIn.setIfInBounds i (f (s.evt i)) }

/-- Is the instant `u` inside a window (R205)? -/
def inWindow (w : Option (Nat × Nat)) (u : Nat) : Bool :=
  match w with
  | some (o, c) => decide (o ≤ u ∧ u < c)
  | none => false

/-- An EVT_WINDOW action at the instant `u` for `len` × 64 ticks (R205). -/
def Evt.window (s : State) (i u len : Nat) : State :=
  let s := s.modEvt i (fun e =>
    if inWindow e.cur u then { e with cur := e.cur.map (fun w => (w.1, max w.2 (u + 64 * 64 * len))) }
    else { e with prev := e.cur, cur := some (u, u + 64 * 64 * len) })
  s.put (Evt.ib i) EvtI.WIN_STAT_OPEN 1

/-- WINDOW_CLOSE. -/
def execWindowClose (input : Fin 8) (s : State) : Out :=
  let i := input.val
  match (s.evt i).cur with
  | some (_, c) =>
    if s.flag (Evt.ib i) EvtI.WIN_STAT_OPEN then
      .next ((s.runTo ((c + 63) / 64)).put (Evt.ib i) EvtI.WIN_STAT_OPEN 0)
    else .next s
  | none => .next s

/-- Is the event ring full (R204)? -/
def Evt.full (s : State) : Bool :=
  (s.get Evt.b EvtP.EVT_WP_WP + 1) % max (s.get Evt.b EvtP.EVT_SLOTS_SLOTS) 1 == s.get Evt.b EvtP.EVT_RP_RP

/-- RING_WM while the fill is at or above the watermark. -/
def Evt.watermark (s : State) : State :=
  let sl := max (s.get Evt.b EvtP.EVT_SLOTS_SLOTS) 1
  let fill := (s.get Evt.b EvtP.EVT_WP_WP + sl - s.get Evt.b EvtP.EVT_RP_RP % sl) % sl
  s.raiseIf (s.get Evt.b EvtP.EVT_WM_WM ≤ fill) Evt.p 8

/-- A record is dropped (R204, R463). -/
def Evt.drop (s : State) : State := (s.count Evt.b EvtP.RING_DROP_COUNT).raise Evt.p 9

/-- Set the loss flag of a record (INFO bit 6). -/
def Evt.mark (r : List Nat) : List Nat := r.set 9 ((r[9]?).getD 0 ||| 64)

/-- The oldest record of the FIFO leaves it: into the ring, or dropped while the ring is unplaced (R204, R463). -/
def Evt.drain (s : State) : State :=
  match s.evtFifo with
  | [] => s
  | r :: t =>
    if !s.flag Evt.b EvtP.EVT_CTL_RING_EN then s
    else if s.get Evt.b EvtP.EVT_BASE_BASE = 0 then
      let s := Evt.drop { s with evtFifo := t }
      match t with
      | [] => { s with evtLost := true }
      | x :: u => { s with evtFifo := Evt.mark x :: u }
    else if Evt.full s || !s.running .fabric then s
    else
      let wp := s.get Evt.b EvtP.EVT_WP_WP
      let s := { s with evtFifo := t }.put8 (64 * s.get Evt.b EvtP.EVT_BASE_BASE + 32 * wp) r
      Evt.watermark (s.put Evt.b EvtP.EVT_WP_WP ((wp + 1) % max (s.get Evt.b EvtP.EVT_SLOTS_SLOTS) 1))

/-- EVT_RECORD_WRITE. -/
def execEvtRecordWrite (s : State) : Out := .next (Evt.drain s)

/-- A record enters the FIFO of 64, or is dropped (R204). -/
def Evt.queue (s : State) (r : List Nat) : State :=
  let s := if 64 ≤ s.evtFifo.length then Evt.drain s else s
  if 64 ≤ s.evtFifo.length then { Evt.drop s with evtLost := true }
  else { s with evtFifo := s.evtFifo ++ [if s.evtLost then Evt.mark r else r], evtLost := false }

/-- EVENT_CAPTURE: `t` and `fine` are the pad's first transition of a run that passes the filter (R203 to R205). -/
def execEventCapture (input : Fin 8) (t : BitVec 64) (fine : BitVec 6) (rising : Bool) (s : State) : Out :=
  let i := input.val
  let b := Evt.ib i
  let edge := s.get b EvtI.EVT_CFG_EDGE
  if !s.en Evt.p ∨ !s.flag b EvtI.EVT_CFG_EN ∨ !edge.testBit (if rising then 0 else 1) ∨ s.pwr.asleep then .next s
  else
    let s := s.runTo (t.toNat + s.get b EvtI.EVT_CFG_FILTER)
    let raw := 64 * t.toNat + (if s.coast then 0 else fine.toNat)
    let u := ((raw : Int) - s.getI b EvtI.EVT_CFG_DELAY).toNat
    -- in coast mode the time-stamp is a whole tick, the one at or before the corrected instant (R181) (DESIGN CHOICE, log entry 111)
    let u := if s.coast then u / 64 * 64 else u
    let tooSoon := match (s.evt i).last with
      | some v => decide (u < v + 64 * 64)
      | none => false
    if tooSoon then .next ((s.count b EvtI.LOST_COUNT).raise Evt.p 10)
    else
      let s := s.modEvt i (fun e => { e with last := some u })
      let s := ((s.put b EvtI.LAST_T_T (u / 64)).put b EvtI.LAST_FINE_FINE (u % 64)).count b EvtI.EVT_CNT_CAPTURED
      let s := s.raise Evt.p i
      let gate := s.get b EvtI.EVT_CFG_GATE
      let inside := inWindow (s.evt i).cur u || inWindow (s.evt i).prev u
      if gate = 1 && !inside then .next (s.count b EvtI.OUTSIDE_COUNT)
      else
        let n := s.get b EvtI.EVT_CFG_TSEL
        let (sec, ns, sub) := s.present n u
        let info := i + 8 * b2n (!rising) + 16 * b2n (gate != 0 && inside) + 32 * b2n (gate != 0) + 128 * b2n s.coast
        let s := { s with evtSeq := s.evtSeq + 1 }
        .next (Evt.queue s (recBytes [(8, u / 64), (1, u % 64), (1, info), (2, s.evtSeq), (4, ns), (6, sec), (2, sub),
          (1, n + 4 * s.tsState n), (7, 0)]))

/-- EVT_CTL.FLUSH (DEDUCED, log entry 48). -/
def Evt.flush (s : State) : State :=
  let lost := s.evtLost || s.evtFifo.any (fun r => ((r[9]?).getD 0).testBit 6)
  let s := { s with evtFifo := [], evtLost := lost }.put Evt.b EvtP.EVT_WP_WP (s.get Evt.b EvtP.EVT_RP_RP)
  let s := s.put Evt.b EvtP.RING_DROP_COUNT 0
  s.each (List.range 8) (fun s i =>
    ((s.put (Evt.ib i) EvtI.EVT_CNT_CAPTURED 0).put (Evt.ib i) EvtI.LOST_COUNT 0).put (Evt.ib i) EvtI.OUTSIDE_COUNT 0)

/-- A changed FILTER restarts the history of the input's guard (spec/16 R378). -/
def Evt.refilter (old s : State) : State :=
  s.each (List.range 8) (fun s g =>
    if s.get (Evt.ib g) EvtI.EVT_CFG_FILTER = old.get (Evt.ib g) EvtI.EVT_CFG_FILTER then s
    else { s with guards := s.guards.setIfInBounds g { s.guards[g]?.getD ⟨[], 0, 0⟩ with hist := [] } })

/-- Special effects of a write to an EVT register (R208, R463). -/
def Evt.write (s : State) (req off v : Nat) (store : State → State) : State :=
  let a := Evt.b + off
  let busy := s.flag Evt.b EvtP.EVT_CTL_RING_EN
  if off = 0x040 then
    let s := store s
    if v.testBit 1 then Evt.flush s else s
  else if off = 0x044 then
    if busy then s.logErr Evt.p 0x41 a req
    else if v % 64 = 0 ∧ v ≠ 0 ∧ inSramArea v (32 * s.get Evt.b EvtP.EVT_SLOTS_SLOTS) then store s
    else s.logErr Evt.p 0x40 a req
  else if off = 0x048 then
    let n := v % 2 ^ 16
    let base := 64 * s.get Evt.b EvtP.EVT_BASE_BASE
    if busy then s.logErr Evt.p 0x41 a req
    else if n < 2 then s.logErr Evt.p E.RANGE_REJECTED a req
    else if base ≠ 0 ∧ !inSramArea base (32 * n) then s.logErr Evt.p 0x40 a req
    else Evt.watermark (store s)
  else if off = 0x050 then
    if s.get Evt.b EvtP.EVT_SLOTS_SLOTS ≤ v % 2 ^ 16 then s.logErr Evt.p E.RANGE_REJECTED a req
    else Evt.watermark (store s)
  else if off = 0x054 then Evt.watermark (store s)
  else Evt.refilter s (store s)

/-- BLOCK_STAT of the EVT page. -/
def Evt.blockStat (s : State) : Nat := b2n (Evt.full s)

/-- Special effects of a write to a TIME register (R187, R202, R206). -/
def Time.write (s : State) (req off v : Nat) (store : State → State) : State :=
  if off = 0x054 then (if v.testBit 0 then Time.tcap s else s)
  else if off = 0x058 then s.each ((List.range 4).filter (fun n => v.testBit n)) Time.renew
  else if off = 0x060 then
    if v % 4 = 3 then s.logErr Time.p E.RANGE_REJECTED (Time.b + off) req else store s
  else if 0x080 ≤ off ∧ off < 0x0C0 ∧ off % 8 = 0 then Pad.cut (store (Pad.changing (Pad.settle s)))
  else if off < 0x100 ∨ 0x300 ≤ off then store s
  else
    let n := (off - 0x100) / 0x80
    let o := off % 0x80
    if o = 0x00 ∨ o = 0x04 then (store s).modTs n (fun t => { t with incWr := true })
    else if o = 0x1C then Time.leaseLen (store s) n
    else if o = 0x20 then
      let s := store s
      if s.tsState n = 1 then s.put (Ts.b n) TsR.PUB_BOUND_BOUND (s.get (Ts.b n) TsR.ERR_BOUND_BOUND) else s
    else store s

/-- BLOCK_STAT of the TIME page. -/
def Time.blockStat (s : State) : Nat := b2n s.coast + 2 * b2n ((List.range 4).any (fun n => s.tsState n == 2))

end Sys2Proof.Machine
end

