-- ==== Sys2Proof/Machine/Cal.lean ====
section
/-! DEFINITION. The calendar (spec/08 R193 to R201, R207; spec/01 R21 to R23; spec/19 R437). -/

namespace Sys2Proof.Machine

/-- CAL page. -/
def Cal.p : Nat := 0x051

/-- CAL page base. -/
def Cal.b : Nat := pg 0x051

/-- Register base of entry `e`. -/
def Cal.eb (e : Nat) : Nat := 0x52000 + 0x20 * e

/-- Window offset of E_COMMIT_e. -/
def Cal.key (e : Nat) : Nat := Cal.b + 0x400 + 4 * e

/-- An entry beside its registers. -/
def State.ent (s : State) (e : Nat) : Entry := Tab.get (fun _ => ⟨none, none, 0⟩) s.ents e

/-- Replace an entry beside its registers. -/
def State.setEnt (s : State) (e : Nat) (x : Entry) : State :=
  { s with ents := Tab.set (fun _ => ⟨none, none, 0⟩) s.ents e x }

/-- E_STAT.STATE: 0 OFF, 1 WAIT, 2 DONE, 3 BAD (R193). -/
def Cal.state (s : State) (e : Nat) : Nat := s.get (Cal.eb e) CalE.E_STAT_STATE

/-- Working ACTION. -/
def Cal.action (s : State) (e : Nat) : Nat := s.wget (Cal.eb e) CalE.E_CTL_ACTION

/-- Does an action target another island (R201)? -/
def Cal.other (a : Nat) : Bool := decide (3 ≤ a ∧ a ≤ 7)

/-- Island that an action targets (R201). -/
def Cal.island (a : Nat) : Island :=
  if a = 3 ∨ a = 4 then .corr else if a = 5 then .acq else if a = 6 then .radio else if a = 7 then .fabric else .time

/-- The guard and lead (R21, R23, R196). -/
def Cal.guard (s : State) (e : Nat) : Nat := if s.coast && Cal.other (Cal.action s e) then 192 else 16

/-! ### Instants (R194) -/

/-- Working TSEL; 4 is BASE. -/
def Cal.tsel (s : State) (e : Nat) : Nat := s.wget (Cal.eb e) CalE.E_CTL_TSEL

/-- The anchor, in 2^-16 ns, or 2^-16 tick in BASE mode. -/
def Cal.anchor (s : State) (e : Nat) : Nat :=
  let b := Cal.eb e
  let t0 := s.wget b CalE.E_T0_T0
  let t1 := s.wget b CalE.E_T1_T1
  if Cal.tsel s e = 4 then (t1 * 2 ^ 32 + t0) * 2 ^ 16
  else ((t1 * 2 ^ 16 + t0 / 2 ^ 16) * 1000000000 + s.wget b CalE.E_T2_NS) * 2 ^ 16 + t0 % 2 ^ 16

/-- The period, in the anchor's unit. -/
def Cal.period (s : State) (e : Nat) : Nat := s.wget (Cal.eb e) CalE.E_PER_PERIOD

/-- Exact instant (1/64 ticks) of a value of the entry's time: b − f/64 ticks (R194). -/
def Cal.convert (s : State) (e t : Nat) : Int :=
  if Cal.tsel s e = 4 then ((t + 1023) / 1024 : Nat)
  else
    let n := Cal.tsel s e
    let x : Int := (t * 2 ^ 32 : Nat)
    let v : Int := (s.tsv n).total
    let inc : Int := max (s.incNow n) 1
    let j := -(floorDiv (v - x) inc)
    64 * (s.now + j) - floorDiv (64 * (v + j * inc - x)) inc

/-- Instant of occurrence `k`. -/
def Cal.instOf (s : State) (e k : Nat) : Int := Cal.convert s e (Cal.anchor s e + k * Cal.period s e)

/-- First `k` whose instant is at or after the tick `lim` (R198). -/
def Cal.firstK (s : State) (e lim : Nat) : Nat :=
  let n := Cal.tsel s e
  let val : Int := if n = 4 then ((lim * 2 ^ 16 : Nat) : Int)
    else floorDiv (((s.tsv n).total : Int) + s.incNow n * ((lim : Int) - s.now)) (2 ^ 32 : Nat)
  let k := (-(floorDiv ((Cal.anchor s e : Int) - val) (max (Cal.period s e) 1 : Nat))).toNat
  -- the estimate rounds: settle it between two neighbours
  let lo := k - 2
  (((List.range 6).map (lo + ·)).find? (fun j => decide (64 * (lim : Int) ≤ Cal.instOf s e j))).getD k

/-- Instant of the pending occurrence. -/
def Cal.occInst (s : State) (e : Nat) (o : Occ) : Int :=
  if o.conv then 64 * o.b - o.f else Cal.instOf s e o.k

/-- Tick of an instant: the first at or after it. -/
def tickUp (u : Int) : Nat := (-(floorDiv (-u) 64)).toNat

/-! ### Entry status -/

/-- STATE and REMAIN of an entry (R193, R207). -/
def Cal.setState (s : State) (e st : Nat) : State :=
  let b := Cal.eb e
  let cnt := s.wget b CalE.E_CTL_COUNT
  let remain := if st ≠ 1 then 0 else if !s.wflag b CalE.E_CTL_ROTA then 1 else cnt - (s.ent e).used
  let s := if st = 1 then s else s.setEnt e { s.ent e with occ := none }
  (s.put b CalE.E_STAT_STATE st).put b CalE.E_STAT_REMAIN remain

/-- The entry sets LATE for `n` occurrences (R197, R198). -/
def Cal.late (s : State) (e n : Nat) : State :=
  let f : Fld := ⟨CalP.LATE.off + 4 * (e / 32), e % 32, 1⟩
  let s := (s.put (Cal.eb e) CalE.E_STAT_LATE 1).put Cal.b f 1
  (s.put Cal.b CalP.LATE_CNT_COUNT (min (s.get Cal.b CalP.LATE_CNT_COUNT + n) (2 ^ 32 - 1))).raise Cal.p 1

/-- The entry sets DROPPED (R197, R437). -/
def Cal.dropped (s : State) (e : Nat) : State := (s.put (Cal.eb e) CalE.E_STAT_DROPPED 1).raise Cal.p 2

/-- Occurrence `k` becomes pending; it is converted at once when less than 20,480 ticks ahead (R194). -/
def Cal.arm (s : State) (e k : Nat) : State :=
  let u := Cal.instOf s e k
  let b := tickUp u
  let o : Occ := { k := k, b := b, f := ((64 * b : Nat) - u).toNat, own := b, conv := decide (b ≤ s.now + 20480),
                   disp := false, drop := false, late := false }
  Cal.setState (s.setEnt e { s.ent e with occ := some o }) e 1

/-- A one-shot whose instant lies before now + G (R197). -/
def Cal.lateOne (s : State) (e own : Nat) : State :=
  let pol := s.wget (Cal.eb e) CalE.E_CTL_LATE_POL
  let s := Cal.late s e 1
  if pol = 2 ∨ (pol = 0 ∧ Cal.action s e = 6) then Cal.setState (Cal.dropped s e) e 2
  else
    let o : Occ := { k := 0, b := s.now + Cal.guard s e, f := 0, own := own, conv := true, disp := false, drop := false,
                     late := true }
    Cal.setState (s.setEnt e { s.ent e with occ := some o }) e 1

/-- A one-shot is taken or reconverted (R197). -/
def Cal.oneShot (s : State) (e : Nat) : State :=
  let u := Cal.instOf s e 0
  if 64 * ((s.now + Cal.guard s e : Nat) : Int) ≤ u then Cal.arm s e 0 else Cal.lateOne s e (tickUp u)

/-- A Rota goes on with its first occurrence from `kMin` up at or after now + G; occurrences passed over are counted from
`kFrom`; after a step (`spaced`) one more is passed over when less than P follows the last one fired (R191, R198). -/
def Cal.rota (s : State) (e kMin kFrom : Nat) (spaced : Bool) : State :=
  let k := max kMin (Cal.firstK s e (s.now + Cal.guard s e))
  let close := spaced && (match (s.ent e).last with
    | some u => decide ((Cal.instOf s e k - u) * s.incNow (Cal.tsel s e) < ((Cal.period s e * 2 ^ 38 : Nat) : Int))
    | none => false)
  let k' := if close then k + 1 else k
  let skip := if close && k < kFrom then k' - kFrom + 1 else k' - kFrom
  let cnt := s.wget (Cal.eb e) CalE.E_CTL_COUNT
  let used := (s.ent e).used
  let ends := cnt != 0 && decide (cnt ≤ used + skip)
  let skip := if ends then cnt - used else skip
  let s := if skip = 0 then s else
    let b := Cal.eb e
    Cal.late (s.put b CalE.E_STAT_SKIPPED (min 255 (s.get b CalE.E_STAT_SKIPPED + skip))) e skip
  let s := s.setEnt e { s.ent e with used := used + skip }
  if ends then Cal.setState s e 2 else Cal.arm s e k'

/-! ### Hand-overs (R196, R199, R201) -/

/-- Is the working configuration valid (R201)? -/
def Cal.valid (s : State) (e : Nat) : Bool :=
  let b := Cal.eb e
  let a := Cal.action s e
  let t := Cal.tsel s e
  decide (a ≤ 10) && decide (t ≤ 4) && s.wget b CalE.E_CTL_LATE_POL != 3 &&
    (t == 4 || decide (s.wget b CalE.E_T2_NS < 1000000000)) &&
    (!s.wflag b CalE.E_CTL_ROTA || decide ((if t = 4 then 640 else 1000) * 2 ^ 16 ≤ Cal.period s e)) &&
    (a != 10 || s.wget b CalE.E_ARG_ARG / 256 != 0)

/-- First `k` whose instant lies after `u`. -/
def Cal.kAfter (s : State) (e u : Nat) : Nat :=
  let k := Cal.firstK s e (u / 64)
  (((List.range 4).map (k + ·)).find? (fun j => decide ((u : Int) < Cal.instOf s e j))).getD k

/-- COMMIT_PEND of the CAL page: an entry commit is armed (R38, R196). -/
def Cal.pend (s : State) : State :=
  s.putB Cal.b H.COMMIT_PEND (s.armed.any (fun x => decide (Cal.key 0 ≤ x.key ∧ x.key < Cal.key 256)))

/-- An armed entry COMMIT is taken now; `own` when it is taken at the entry's own occurrence (R196, R198)
(DEDUCED, log entry 27). -/
def Cal.take (s : State) (e : Nat) (own : Bool) : State :=
  match s.armedAt (Cal.key e) with
  | none => s
  | some c =>
    let b := Cal.eb e
    let s := ((s.disarm (Cal.key e)).copyShadow b (b + 0x1C)).put (Cal.b + 4 * e) CalP.E_TAKEN_GEN c.gen
    let s := (Cal.pend s).raise Cal.p 30
    let last := if own then (s.ent e).last else none
    let s := (s.put b CalE.E_STAT_SKIPPED 0).setEnt e ⟨none, last, 0⟩
    if !s.wflag b CalE.E_CTL_ENABLE then Cal.setState s e 0
    else if !Cal.valid s e then
      ((Cal.setState s e 3).logErr Cal.p 0x40 b c.req).raise Cal.p 3
    else if s.wflag b CalE.E_CTL_ROTA then
      let from_ := match last with
        | some u => Cal.kAfter s e u
        | none => 0
      Cal.rota s e from_ from_ false
    else Cal.oneShot s e

/-- The hand-over of an entry in OFF, DONE or BAD: the first time-island edge after the COMMIT arrives, or now where that
edge has passed (R196). -/
def Cal.handOver (s : State) (e : Nat) : State :=
  match s.armedAt (Cal.key e) with
  | none => s
  | some c => if Cal.state s e = 1 then s else Cal.take (s.runTo (c.at_ + 1)) e false

/-! ### Disturbances (R191, R200) -/

/-- An occurrence not yet dispatched that lies before now + G is treated by R197 or R198; at CAL EN's return a waiting
commit is taken on the same tick (R200). -/
def Cal.recheck (s : State) (e : Nat) (en : Bool) : State :=
  match (s.ent e).occ with
  | none => s
  | some o =>
    if Cal.state s e ≠ 1 ∨ o.disp then s
    else
      let u := Cal.occInst s e o
      if 64 * ((s.now + Cal.guard s e : Nat) : Int) ≤ u then s
      else if s.wflag (Cal.eb e) CalE.E_CTL_ROTA then
        -- the occurrences passed over count first (R200)
        let s := Cal.rota s e o.k o.k false
        if en then Cal.take s e true else s
      else
        let s := Cal.lateOne s e (if o.late then o.own else tickUp u)
        if en && Cal.state s e == 2 then Cal.take s e false else s

/-- Pending occurrences on timescale `n` are reconverted after a step; `but` is the entry that fires (R191). -/
def Cal.onStep (s : State) (n but : Nat) : State :=
  s.each (List.range 256) (fun s e =>
    match (s.ent e).occ with
    | none => s
    | some o =>
      if e = but ∨ Cal.state s e ≠ 1 ∨ o.disp ∨ Cal.tsel s e ≠ n ∨ (o.conv ∧ o.b = s.now) then s
      else if s.wflag (Cal.eb e) CalE.E_CTL_ROTA then Cal.rota s e 0 o.k true
      else Cal.oneShot s e)

/-- The release after VBAK operation and CAL EN's return disturb every entry (R182, R200) (DEDUCED, log entry 49). -/
def Cal.disturbAll (s : State) (en : Bool) : State := s.each (List.range 256) (fun s e => Cal.recheck s e en)

/-- Coast entry disturbs the entries that target another island (R200). -/
def Cal.coastIn (s : State) (cause : Nat) : State :=
  (Time.coastIn s cause).each (List.range 256) (fun s e => if Cal.other (Cal.action s e) then Cal.recheck s e false else s)

/-- The active Vigil's record of a coast entry is the TIME_CLK event of its cause; the time island may be the first to see that (R181,
spec/16 R374) (DESIGN CHOICE, log entry 111). -/
def Cal.coastFault (s : State) : State :=
  if (s.vig.running ++ s.vig.waiting).any (fun r => r.cls == 2) then s else s.fault 2 4 0x008 0

/-- COAST_ENTER: SYN_T's last edge was at `lost`; coast mode begins at the first or second reference edge after it, and
pad edges due in between are driven there (R181). -/
def execCoastEnter (lost : BitVec 64) (second : Bool) (s : State) : Out :=
  if s.coast then .next s
  else
    let t := (lost.toNat / 64 + 1 + b2n second) * 64
    let s := Pad.late (s.runTo t) lost.toNat t
    .next (Cal.coastIn (Cal.coastFault s) 1)

/-! ### Firing (R21, R22, R196, R201) -/

/-- OCCURRENCE_CONVERT: 20,480 ticks ahead the occurrence is converted, once (R194). -/
def execOccurrenceConvert (entry : Fin 256) (s : State) : Out :=
  let e := entry.val
  match (s.ent e).occ with
  | none => .next s
  | some o =>
    if o.conv then .next s
    else
      let s := s.runTo (tickUp (Cal.instOf s e o.k) - 20480)
      let u := Cal.instOf s e o.k
      let b := tickUp u
      .next (s.setEnt e { s.ent e with
        occ := some { o with b := b, f := ((64 * b : Nat) - u).toNat, own := b, conv := true } })

/-- The action goes to its target island with its instant, its own and that at which it fires (R21, R22, R197); an island held in reset
drops it (R437). -/
def Cal.dispatch (s : State) (e : Nat) (o : Occ) : State :=
  let gone := s.isReset (Cal.island (Cal.action s e))
  let t := tickUp (Cal.occInst s e o)
  let x : Action := ⟨e, Cal.action s e, s.wget (Cal.eb e) CalE.E_ARG_ARG, if o.late then o.own else t, t, o.late⟩
  let s := s.setEnt e { s.ent e with occ := some { o with disp := true, drop := gone } }
  if gone then Cal.dropped s e else { s with acts := x.insert s.acts }

/-- ACTION_DISPATCH: 16 ticks (192 in coast mode) before its instant (R21, R23). -/
def execActionDispatch (entry : Fin 256) (s : State) : Out :=
  let e := entry.val
  match (s.ent e).occ with
  | none => .next s
  | some o =>
    if Cal.state s e ≠ 1 ∨ !Cal.other (Cal.action s e) ∨ o.disp ∨ !s.en Cal.p ∨ s.pwr.asleep then .next s
    else .next (Cal.dispatch (s.runTo (tickUp (Cal.occInst s e o) - Cal.guard s e)) e o)

/-- An action inside the time island at the instant `u`; true when the permit or leap event changed nothing. -/
def Cal.timeAction (s : State) (e u : Nat) : State × Bool :=
  let a := Cal.action s e
  let arg := s.wget (Cal.eb e) CalE.E_ARG_ARG
  if a = 1 then (Pad.pulse s (arg % 4) u, false)
  else if a = 2 then (Pad.pulse s (4 + arg % 4) u, false)
  else if a = 8 then
    let (s, did) := Time.step s (arg % 4)
    (if did then Cal.onStep s (arg % 4) e else s, !did)
  else if a = 9 then
    let (s, did) := Time.leap s
    (s, !did)
  else if a = 10 then (Evt.window s (arg % 8) u (arg / 256), false)
  else (s, false)

/-- After a firing: a waiting commit is taken on the same tick, else the next occurrence becomes pending (R196, R198). -/
def Cal.next (s : State) (e k : Nat) : State :=
  let b := Cal.eb e
  let rota := s.wflag b CalE.E_CTL_ROTA
  let cnt := s.wget b CalE.E_CTL_COUNT
  let done := !rota || (cnt != 0 && decide (cnt ≤ (s.ent e).used))
  -- a COMMIT that arrived on the tick of the instant waits for the next occurrence (R199)
  if (match s.armedAt (Cal.key e) with | some c => decide (c.at_ < s.now) | none => false) then Cal.take (if done then Cal.setState s e 2 else s) e true
  else if done then Cal.setState s e 2
  else if (s.tst (Cal.tsel s e)).stepAt = some s.now ∧ Cal.tsel s e < 4 then Cal.rota s e 0 (k + 1) true
  else Cal.rota s e (k + 1) (k + 1) false

/-- The entry's pending occurrence fires at its instant. -/
def Cal.fire (s : State) (e : Nat) : State :=
  match (s.ent e).occ with
  | none => s
  | some o =>
    if Cal.state s e ≠ 1 ∨ (!s.en Cal.p ∧ !o.disp) ∨ s.pwr.asleep then s
    else
      let u := Cal.occInst s e o
      let s := s.runTo (tickUp u)
      let s := if Cal.other (Cal.action s e) && !o.disp then Cal.dispatch s e o else s
      let drop := match (s.ent e).occ with
        | some o => o.drop
        | none => false
      let (s, noop) := Cal.timeAction s e u.toNat
      let s := if !drop && s.wflag (Cal.eb e) CalE.E_CTL_IRQ then
          (s.put Cal.b ⟨CalP.FIRED.off + 4 * (e / 32), e % 32, 1⟩ 1).raise Cal.p 0
        else s
      let s := if noop then (s.put (Cal.eb e) CalE.E_STAT_NOOP 1).raise Cal.p 4 else s
      let s := s.setEnt e ⟨none, some u.toNat, (s.ent e).used + 1⟩
      Cal.next s e o.k

/-- The occurrence fires if its action is `a` (DEDUCED, log entry 50). -/
def Cal.fireIf (s : State) (e a : Nat) : State := if Cal.action s e = a then Cal.fire s e else s

/-- OCCURRENCE_FIRE. -/
def execOccurrenceFire (entry : Fin 256) (s : State) : Out := .next (Cal.fire s entry.val)

/-- CAL_TIMER: a TIMER action fires and only reports FIRED. -/
def execCalTimer (entry : Fin 256) (s : State) : Out := .next (Cal.fireIf s entry.val 0)

/-- TP_PULSE: a pulse span on TP0 to TP3. -/
def execTpPulse (entry : Fin 256) (s : State) : Out := .next (Cal.fireIf s entry.val 1)

/-- CYC_PULSE: a pulse span on CYC0 to CYC3. -/
def execCycPulse (entry : Fin 256) (s : State) : Out := .next (Cal.fireIf s entry.val 2)

/-- STEP_PERMIT. -/
def execStepPermit (entry : Fin 256) (s : State) : Out := .next (Cal.fireIf s entry.val 8)

/-- LEAP_EVENT. -/
def execLeapEvent (entry : Fin 256) (s : State) : Out := .next (Cal.fireIf s entry.val 9)

/-- EVT_WINDOW. -/
def execEvtWindow (entry : Fin 256) (s : State) : Out := .next (Cal.fireIf s entry.val 10)

/-! ### Commands and registers (R201, R207) -/

/-- CANCEL (R201). -/
def Cal.cancel (s : State) (e : Nat) : State := Cal.take (Cal.setState s e 0) e false

/-- CLEAR_ALL (R201). -/
def Cal.clearAll (s : State) : State :=
  let s := s.each (List.range 256) (fun s e => if Cal.state s e = 0 then s else Cal.setState s e 0)
  Cal.pend { s with armed := s.armed.filter (fun x => !decide (Cal.key 0 ≤ x.key ∧ x.key < Cal.key 256)) }

/-- Spans that a negative DELAY has started before the pulse action that gives them (R202). -/
def Cal.early (s : State) : List Span :=
  if !s.en Cal.p then []
  else (List.range 256).flatMap (fun e => match (s.ent e).occ with
    | none => []
    | some o =>
      let a := Cal.action s e
      if Cal.state s e ≠ 1 ∨ !o.conv ∨ (a ≠ 1 ∧ a ≠ 2) then []
      else
        let p := s.wget (Cal.eb e) CalE.E_ARG_ARG % 4 + (if a = 2 then 4 else 0)
        let st := (Cal.occInst s e o + s.getI (Time.b + 8 * p) TimeP.PAD_CTL_DELAY).toNat
        let st := if s.coast then (st + 63) / 64 * 64 else st
        if st ≤ 64 * s.now then [⟨p, st, st + 64 * s.get (Time.b + 8 * p) TimeP.PAD_WIDTH_WIDTH⟩] else [])

/-- Special effects of a write to a CAL register. -/
def Cal.write (s : State) (req off v : Nat) (store : State → State) : State :=
  if off = 0x040 then
    let s := store s
    let s := if v.testBit 8 then Cal.cancel s (v % 256) else s
    if v.testBit 9 then Cal.clearAll s else s
  else if 0x400 ≤ off ∧ off < 0x800 then Cal.pend (s.arm req Cal.p (Cal.b + off) v)
  else store s

/-- Computed registers of the CAL page: ACTIVE. -/
def Cal.read (s : State) (off : Nat) : Option Nat :=
  if off = 0x044 then some ((List.range 256).filter (fun e => Cal.state s e == 1)).length else none

/-- BLOCK_STAT of the CAL page: WIDE_GUARD. -/
def Cal.blockStat (s : State) : Nat := b2n s.coast

end Sys2Proof.Machine
end

