-- ==== Sys2Proof/Machine/Clk.lean ====
section
/-! DEFINITION. Clocks (spec/15): the reference monitor, the nine PLLs, the hitless sample clock and DLL_CDL. -/

namespace Sys2Proof.Machine

/-- PLL numbers: 0 SYN_T, 1 SYN_E, 2 SYN_S0, 3 SYN_S1, 4 SYN_LOH, 5 SYN_LOL, 6 SYN_RAD, 7 SYN_C, 8 SYN_SAFE (R352). -/
def Pll.page (k : Nat) : Nat := if k < 2 then 0x008 else if k < 4 then 0x009 else if k < 7 then 0x00A else 0x00B

/-- Block of a PLL on its CLK page (R352). -/
def Pll.blk (k : Nat) : Nat := if k < 2 then k else if k < 4 then k - 2 else if k < 7 then k - 4 else k - 7

/-- Register block of a PLL (R364). -/
def Pll.b (k : Nat) : Nat := pg (Pll.page k) + 0x100 + 0x40 * Pll.blk k

/-- The hidden state of a PLL. -/
def State.pll (s : State) (k : Nat) : PllSt := s.plls[k]?.getD ⟨0, 0, 0, none, false⟩

/-- Change the hidden state of a PLL. -/
def State.modPll (s : State) (k : Nat) (f : PllSt → PllSt) : State :=
  { s with plls := s.plls.setIfInBounds k (f (s.pll k)) }

/-- PLL_STAT.STATE. -/
def State.pllState (s : State) (k : Nat) : Nat := s.get (Pll.b k) Pll.PLL_STAT_STATE

/-- Target frequency in Hz (R352); SYN_RAD has none of its own. -/
def Pll.target (s : State) (k : Nat) : Nat :=
  match k with
  | 0 => 640000000 | 1 => 125000000 | 2 => 1309440000 | 3 => 1309440000 | 4 => 1575420000 | 5 => 1176450000
  | 6 => 0 | 7 => s.get (Pll.b 7) Pll.PLL_DIV_N * 10000000 | _ => 160000000

/-- Islands that a PLL feeds; SYN_SAFE also those on their backup clock (R13, R352). -/
def Pll.feeds (s : State) (k : Nat) : List Island :=
  match k with
  | 0 => []
  | 1 => [.net]
  | 2 => if s.flag (pg 0x009) Clk1.PAIR_STAT_ACTIVE then [] else [.rf, .corr, .arr]
  | 3 => if s.flag (pg 0x009) Clk1.PAIR_STAT_ACTIVE then [.rf, .corr, .arr] else []
  | 7 => [.acq, .core, .fabric]
  | 8 => [.radio, .flash] ++ s.onBackup
  | _ => []

/-- Gate off islands: their crossings stall (R27). -/
def State.stall (s : State) (l : List Island) : State := { s with stalled := l ++ s.stalled.filter (· ∉ l) }

/-- Islands run again. -/
def State.unstall (s : State) (l : List Island) : State := { s with stalled := s.stalled.filter (· ∉ l) }

/-- Move islands to their backup clock, SYN_SAFE; while that is gated off too they stall (R13, R27). -/
def State.toBackup (s : State) (l : List Island) : State :=
  let s := { s with onBackup := l ++ s.onBackup.filter (· ∉ l) }
  if s.flag (Pll.b 8) Pll.PLL_STAT_GATED then s.stall l else s.unstall l

/-- Islands return to their primary clock. -/
def State.fromBackup (s : State) (l : List Island) : State :=
  ({ s with onBackup := s.onBackup.filter (· ∉ l) }).unstall l

/-- Is the PLL the active sample synthesizer? -/
def Pll.isActive (s : State) (k : Nat) : Bool :=
  (k == 2 && !s.flag (pg 0x009) Clk1.PAIR_STAT_ACTIVE) || (k == 3 && s.flag (pg 0x009) Clk1.PAIR_STAT_ACTIVE)

/-- Begin a glide: the output is not gated (R354). -/
def State.glide (s : State) (k : Nat) : State :=
  (s.put (Pll.b k) Pll.PLL_STAT_STATE 4).modPll k (fun x => { x with good := 0, glide := 0 })

/-- Does a PLL have a valid stored band for its target (R356)? -/
def Pll.hasStored (s : State) (k : Nat) : Bool :=
  s.flag (Pll.b k) Pll.PLL_CTL_USE_STORED &&
    (if k = 7 then s.flag (pg 0x00B + 4 * (s.get (Pll.b 7) Pll.PLL_DIV_N - 40)) Clk3.CBAND_N_VALID
     else (s.pll k).stored.isSome)

/-- Band LO `k` leaves lock: gated at once; its enabled chains report it unless an OSC calibration gates it (spec/03 R51, R62). -/
def State.loLost (s : State) (k : Nat) : State :=
  if k = 4 ∨ k = 5 then
    let s := { s with loGateAt := s.loGateAt.setIfInBounds (k - 4) (some s.nextSample) }
    let s := if s.oscRuns (k - 4) then s
      else s.each [k - 4, k - 2] (fun s i => if s.en (Rfe.page i) then s.modCh i (fun c => { c with lostLo := true }) else s)
    s.noteValid
  else s

/-- Begin a gated change at the current target: gate, then the stored band or a search (R355). -/
def State.gatedChange (s : State) (k : Nat) : State :=
  let s := if k = 7 then s.toBackup [.acq, .core, .fabric] else s.stall (Pll.feeds s k)
  let s := (s.put (Pll.b k) Pll.PLL_STAT_GATED 1).put (Pll.b k) Pll.PLL_STAT_FEEDING 0
  let s := (s.put (Pll.b k) Pll.PLL_STAT_STATE (if Pll.hasStored s k then 2 else 1)).modPll k (fun x => { x with good := 0, glide := 0, keep := false })
  s.loLost k

/-- Counter windows of 25.6 µs in which a PLL must settle on a band it has stored (R352, R356). -/
def Pll.storedWindows (k : Nat) : Nat := if k = 2 ∨ k = 3 then 15 else if k = 4 ∨ k = 5 then 7 else 5

/-- Loss of lock (R358, R359): the output is gated at once, STATE = SEARCH, LOST_k. -/
def State.loseLock (s : State) (k : Nat) : State :=
  let b := Pll.b k
  let act := Pll.isActive s k
  let fed := Pll.feeds s k
  let s := (s.put b Pll.PLL_STAT_GATED 1).put b Pll.PLL_STAT_STATE 1
  let s := (s.put b Pll.PLL_STAT_FEEDING 0).count b Pll.PLL_EVENTS_LOSSES
  let s := (s.raise (Pll.page k) (2 * Pll.blk k)).modPll k (fun x => { x with good := 0, glide := 0, keep := false })
  let s := s.loLost k
  let c := pg 0x009
  if act then
    if s.flag c Clk1.PAIR_STAT_STANDBY_OK then
      let s := (s.put c Clk1.PAIR_STAT_ACTIVE (if k = 2 then 1 else 0)).put c Clk1.PAIR_STAT_STANDBY_OK 0
      let s := (s.count c Clk1.SWITCHES_COUNT).raise 0x009 8
      { s.put (Pll.b (5 - k)) Pll.PLL_STAT_FEEDING 1 with synAt := some s.nextSample }
    else (s.stall fed).noteValid
  else if k = 2 ∨ k = 3 then s.put c Clk1.PAIR_STAT_STANDBY_OK 0
  else s.stall fed

/-- A PLL releases its output (R355): LOCKED_k, CHANGE_DONE on SYN_C, the band result stored (R356). -/
def State.release (s : State) (k band : Nat) : State :=
  let b := Pll.b k
  let s := (s.put b Pll.PLL_STAT_STATE 3).put b Pll.PLL_STAT_GATED 0
  let s := (s.put b Pll.PLL_STAT_BAND band).put b Pll.PLL_STAT_BAND_VALID 1
  let s := s.count b Pll.PLL_EVENTS_RELOCKS
  let s := (s.raise (Pll.page k) (2 * Pll.blk k + 1)).modPll k (fun x => { x with fails := 0, stored := some band, keep := false })
  if k = 7 then
    let e := pg 0x00B + 4 * (s.get b Pll.PLL_DIV_N - 40)
    let s := (s.put e Clk3.CBAND_N_BAND band).put e Clk3.CBAND_N_VALID 1
    ((s.fromBackup [.acq, .core, .fabric]).put b Pll.PLL_STAT_FEEDING 1).raise 0x00B 9
  else if (k = 2 ∨ k = 3) ∧ !Pll.isActive s k then s.put (pg 0x009) Clk1.PAIR_STAT_STANDBY_OK 1
  else ((s.unstall (Pll.feeds s k)).put b Pll.PLL_STAT_FEEDING 1).noteValid

/-- Is a window's count within `num / den` of the target: |count × 10^7 − 256 f| × den ≤ 256 f × num (R357)? -/
def Pll.within (f count num den : Nat) : Bool :=
  decide (((count * 10000000 : Nat) - (256 * f : Nat) : Int).natAbs * den ≤ 256 * f * num)

/-! ### The reference (R349 to R351) -/

/-- Does REF10_IN feed the module? -/
def State.extActive (s : State) : Bool := s.flag (pg 0x008) Clk0.REF_STAT_EXT_ACTIVE

/-- Change the reference source: build-out, SWITCHES, REF_SWITCH, and every locked PLL glides (R350, R354).  The
build-out value depends on the phase of the new source: a free value (DESIGN CHOICE, log entry 1). -/
def State.switchRef (s : State) (ext : Bool) : State :=
  let b := pg 0x008
  let (d, s) := s.draw 4096
  let s := (s.put b Clk0.REF_BUILD_DELAY d).putB b Clk0.REF_STAT_EXT_ACTIVE ext
  let s := (s.count b Clk0.REF_STAT_SWITCHES).raise 0x008 8
  s.each (List.range 9) (fun s k => if s.pllState k = 3 then s.glide k else s)

/-- Choose the source after a change of qualification, TCXO or REF_CFG, and hold or release the PLLs (R350, R351)
(DEDUCED, log entry 52). -/
def State.refEval (s : State) (requalified : Bool) : State :=
  let b := pg 0x008
  let sel := s.get b Clk0.REF_CFG_REF_SEL == 1
  let qual := s.flag b Clk0.REF_STAT_EXT_QUAL
  let tcxo := s.flag b Clk0.REF_STAT_TCXO_OK
  let s := if s.extActive then
      (if !(sel && qual) && tcxo then
        let s := s.switchRef false
        let s := if qual then s else s.faultFixed 0x08 11 0x008
        { s with refLost := !qual }
       else s)
    else if sel && qual && (!tcxo || (requalified && (!s.refLost || s.flag b Clk0.REF_CFG_REVERT))) then s.switchRef true
    else s
  if !qual && !tcxo then
    if s.flag b Clk0.REF_STAT_NONE then s
    else
      let s := ((s.put b Clk0.REF_STAT_NONE 1).raise 0x008 10).faultFixed 0x08 11 0x008
      s.each (List.range 9) (fun s k =>
        if s.pllState k = 3 ∨ s.pllState k = 4 then s.put (Pll.b k) Pll.PLL_STAT_STATE 5 else s)
  else if s.flag b Clk0.REF_STAT_NONE then
    (s.put b Clk0.REF_STAT_NONE 0).each (List.range 9) (fun s k => if s.pllState k = 5 then s.glide k else s)
  else s

/-- REF_WINDOW: a 1 ms window of REF10_IN, its offset from the TCXO in 10^-12 (R350). -/
def execRefWindow (fofs : Int) (s : State) : Out :=
  let b := pg 0x008
  let s := s.putI b Clk0.REF_FOFS_FOFS fofs
  if fofs.natAbs ≤ s.get b Clk0.REF_CFG_REF_TOL * 1000000 then
    let s := { s with refGood := min (s.refGood + 1) 16 }
    if s.refGood = 16 ∧ !s.flag b Clk0.REF_STAT_EXT_QUAL then
      .next (((s.put b Clk0.REF_STAT_EXT_QUAL 1).raise 0x008 9).refEval true)
    else .next s
  else
    let s := { s with refGood := 0 }
    if s.flag b Clk0.REF_STAT_EXT_QUAL then .next ((s.put b Clk0.REF_STAT_EXT_QUAL 0).refEval false) else .next s

/-- REF_LOSS: 400 ns without an edge of REF10_IN (R350). -/
def execRefLoss (s : State) : Out :=
  let s := { s with refGood := 0 }
  .next ((s.put (pg 0x008) Clk0.REF_STAT_EXT_QUAL 0).refEval false)

/-- TCXO_FAILURE: the amplitude monitor clears TCXO_OK (R351). -/
def execTcxoFailure (s : State) : Out := .next ((s.put (pg 0x008) Clk0.REF_STAT_TCXO_OK 0).refEval false)

/-! ### DLL_CDL (R361) -/

/-- Set the code of DLL_CDL, shown in DLL_STAT and CDL_DLL. -/
def State.setDll (s : State) (code : Nat) : State :=
  (s.put (pg 0x009) Clk1.DLL_STAT_CODE code).put (pg 0x048) Cdl.CDL_DLL_CODE code

/-- The line has acquired CDL_CLK_IN. -/
def State.dllLock (s : State) : State :=
  let s := (s.put (pg 0x009) Clk1.DLL_STAT_INPUT 1).put (pg 0x009) Clk1.DLL_STAT_DLL_LOCKED 1
  (s.put (pg 0x048) Cdl.CDL_STAT_DLL_LOCKED 1).raise 0x009 10

/-- The line has lost its input. -/
def State.dllLost (s : State) : State :=
  let s := (s.put (pg 0x009) Clk1.DLL_STAT_INPUT 0).put (pg 0x009) Clk1.DLL_STAT_DLL_LOCKED 0
  (s.put (pg 0x048) Cdl.CDL_STAT_DLL_LOCKED 0).raise 0x009 11

/-! ### The LOCK pad and REF10_OUT (R349, R362) -/

/-- What holds a pad: nothing, pulls to low of these lengths in ps at each phase comparison, or a steady low. -/
inductive LockPad where
  | released
  | pulses (ps : List Nat)
  | low
  deriving DecidableEq, Repr

/-- What a PLL does to the LOCK pad (R362). -/
def Clk.lockOf (s : State) (k : Nat) : LockPad :=
  let st := s.pllState k
  if !s.flag (Pll.b k) Pll.PLL_CTL_LOCK_OUT ∨ st = 0 then .released
  else if st = 3 ∨ st = 4 then
    .pulses [(s.getI (Pll.b k) Pll.PLL_PHERR_PHERR).natAbs * 2 ^ s.get (pg 0x00B) Clk3.LOCK_CFG_LOCK_GAIN]
  else .low

/-- The open-drain LOCK pad (R362). -/
def Clk.lockPad (s : State) : LockPad :=
  if !s.flag (pg 0x00B) Clk3.LOCK_CFG_LOCK_EN then .released
  else (List.range 9).foldl (fun p k =>
    match p, Clk.lockOf s k with
    | .low, _ | _, .low => .low
    | .pulses a, .pulses b => .pulses (a ++ b)
    | .released, x | x, .released => x) .released

/-- The source that REF10_OUT repeats, after build-out: REF10_IN or the TCXO; none while it holds its last level (R349). -/
def Clk.ref10Out (s : State) : Option Bool :=
  if s.flag (pg 0x008) Clk0.REF_STAT_NONE then none else some s.extActive

/-! ### CLK registers and the hand-over of CPLL_TARGET (R353, R363) -/

/-- A RESEARCH bit written to a PLL (R363, R355). -/
def Clk.research (s : State) (req k : Nat) : State :=
  if k = 8 ∨ k = 6 ∨ Pll.isActive s k then s.logErr (Pll.page k) 0x41 (Pll.b k) req
  else s.gatedChange k

/-- The hand-over edge of CPLL_TARGET (R353 to R355): none while a change runs, and without a reference there is no edge; a PLL that has
not run yet only takes its target, and one that FAILED starts a gated change (DEDUCED, log entry 98). -/
def Clk.handOver (s : State) : State :=
  let st := s.pllState 7
  if st = 1 ∨ st = 2 ∨ st = 4 ∨ st = 5 then s
  else
    match s.takePage 0x00B with
    | (s, none) => s
    | (s, some _) =>
      let n0 := s.get (Pll.b 7) Pll.PLL_DIV_N
      let n := s.wget (pg 0x00B) Clk3.CPLL_TARGET_N
      if n = n0 then s
      else
        let s := (s.put (Pll.b 7) Pll.PLL_DIV_N n).put (Pll.b 7) Pll.PLL_EXPECT_COUNT (256 * n)
        if st = 0 then s else if st = 3 ∧ 20 * (n - n0 + (n0 - n)) ≤ n0 then s.glide 7 else s.gatedChange 7

/-- Special effects of a write to a CLK register. -/
def Clk.write (s : State) (req inst off v : Nat) (store : State → State) : State :=
  let blocks := if inst = 2 then 3 else 2
  let first := if inst = 0 then 0 else if inst = 1 then 2 else if inst = 2 then 4 else 7
  if 0x100 ≤ off ∧ off < 0x100 + 0x40 * blocks ∧ off % 0x40 = 0 then
    let s := store s
    if v % 2 = 1 then Clk.research s req (first + (off - 0x100) / 0x40) else s
  else if inst = 0 ∧ off = 0x040 then
    let old := s.get (pg 0x008) Clk0.REF_CFG_REF_SEL
    let s := store s
    let s := if old = 0 then { s with refLost := false } else s
    s.refEval (old = 0)
  else if inst = 3 ∧ 0x200 ≤ off then
    let st := s.pllState 7
    if st = 1 ∨ st = 2 ∨ st = 4 then s.logErr 0x00B 0x42 (pg 0x00B + off) req else store s
  else store s

end Sys2Proof.Machine
end

