-- ==== Sys2Proof/Machine/Trkg.lean ====
section
/-! DEFINITION. The tracking channels (spec/05): NCOs, correlation, intervals, hand-overs, groups, dump path, readback. -/

namespace Sys2Proof.Machine

/-! ### Channel records and registers -/

/-- Channel entry base. -/
def Ch.b (n : Nat) : Nat := 0x100000 + 0x100 * n

/-- Channel record. -/
def State.chn (s : State) (n : Nat) : Chan := Tab.get (fun _ => Chan.init) s.chan n

/-- Replace a channel record. -/
def State.setChn (s : State) (n : Nat) (c : Chan) : State :=
  { s with chan := Tab.set (fun _ => Chan.init) s.chan n c }

/-- CH_STAT.STATE. -/
def State.chState (s : State) (n : Nat) : Nat := s.get (Ch.b n) Ch.CH_STAT_STATE

/-- A channel event (R133). -/
def State.chRaise (s : State) (n bit : Nat) : State :=
  s.put (Ch.b n) ⟨0x008, 0, 32⟩ (s.get (Ch.b n) ⟨0x008, 0, 32⟩ ||| 2 ^ bit)

/-- TRKG page number. -/
def Trkg.p : Nat := 0x030

/-- Signal code, code number and working settings of a channel. -/
def Ch.sig (s : State) (n : Nat) : Nat := s.wget (Ch.b n) Ch.SIG_CFG_SIGNAL
def Ch.num (s : State) (n : Nat) : Nat := s.wget (Ch.b n) Ch.SIG_CFG_CODE_NUM
def Ch.nb (s : State) (n : Nat) : Bool := s.wflag (Ch.b n) Ch.SIG_CFG_NB
def Ch.len (s : State) (n : Nat) : Nat := s.priLen (Ch.sig s n) (Ch.num s n)

/-! ### NCOs (R114, R115) -/

/-- Advance a channel's phases by `k` samples. -/
def Ch.step (s : State) (n : Nat) (c : Chan) (k : Nat) : Chan :=
  let b := Ch.b n
  let l := max (Ch.len s n) 1
  let tot := (c.chip * 2 ^ 40 + c.frac) + k * s.wget b Ch.CODE_RATE_RATE
  let chips := tot / 2 ^ 40
  { c with
    pos := c.pos + k
    carr := c.carr + BitVec.ofInt 72 (s.wgetI b Ch.CARR_FREQ_FREQ * k)
    chip := chips % l
    frac := tot % 2 ^ 40
    period := c.period + BitVec.ofNat 32 (chips / l) }

/-- Samples from the phases `c` to the first sample whose period count satisfies R118. -/
def Ch.toBoundary (s : State) (n : Nat) (c : Chan) : Nat :=
  let b := Ch.b n
  let len := max (s.wget b Ch.INT_CFG_INT_LEN) 1
  let ph := s.wget b Ch.INT_CFG_INT_PHASE
  let l := max (Ch.len s n) 1
  let rate := max (s.wget b Ch.CODE_RATE_RATE) 1
  let hit (d : Nat) : Bool := (((c.period + BitVec.ofNat 32 d).toNat : Int) - ph) % (len : Int) == 0
  let d := (((List.range (2 * len + 1)).map (· + 1)).find? hit).getD len
  let dist := d * l * 2 ^ 40 - (c.chip * 2 ^ 40 + c.frac)
  let k := (dist + rate - 1) / rate
  if Ch.nb s n then k + (4 - s.gsc (c.pos + k) % 4) % 4 else k

/-- The phases of a channel's record at sample `m`; before a group start that lies ahead, the ones it had until then (R130, spec/06
R139). -/
def Ch.at_ (s : State) (n : Nat) (c : Chan) (m : Nat) : Chan :=
  if c.pos ≤ m then Ch.step s n c (m - c.pos)
  else match c.was with
    | none => c
    | some w =>
      let l := max (Ch.len s n) 1
      let k := m - w.at_
      let tot := (w.chip * 2 ^ 40 + w.frac) + k * w.rate
      let chips := tot / 2 ^ 40
      { c with
        carr := w.carr + BitVec.ofInt 72 (toSigned 40 w.freq * k)
        chip := chips % l
        frac := tot % 2 ^ 40
        period := w.period + BitVec.ofNat 32 (chips / l) }

/-- Settings of a channel at sample `m` that a hand-over changes: CARR_FREQ, CODE_RATE, generation. -/
def Ch.setAt (s : State) (n : Nat) (c : Chan) (m : Nat) : Nat × Nat × Nat :=
  match c.was with
  | some w =>
    if m < c.pos then (w.freq, w.rate, w.gen)
    else (s.wget (Ch.b n) Ch.CARR_FREQ_FREQ, s.wget (Ch.b n) Ch.CODE_RATE_RATE, s.get (Ch.b n) Ch.COMMIT_TAKEN_GEN)
  | none => (s.wget (Ch.b n) Ch.CARR_FREQ_FREQ, s.wget (Ch.b n) Ch.CODE_RATE_RATE, s.get (Ch.b n) Ch.COMMIT_TAKEN_GEN)

/-- Whole periods completed at sample `m` in the interval in progress there (RB_INFO.INT_POS, R138): 0 on a boundary sample
(R140). -/
def Ch.intPos (s : State) (n : Nat) (c : Chan) (m : Nat) : Nat :=
  let k := m - c.pos
  let d := Ch.at_ s n c m
  let e := Ch.toBoundary s n c
  let own := match c.was with
    | some w => if m < c.pos then w.per0 else c.period0
    | none => c.period0
  let p0 := if e ≤ k then (Ch.step s n c e).period else BitVec.ofNat 32 own
  (d.period - p0).toNat % 256

/-! ### Correlation (R116, R117, R120, R130) -/

/-- round(64 cos(2π (m + 1/2) / 64)) for m = 0 to 15. -/
def cosTab : List Int := [64, 63, 62, 60, 58, 55, 51, 47, 43, 38, 33, 27, 22, 16, 9, 3]

/-- round(64 cos(2π (m + 1/2) / 64)). -/
def cos64 (m : Nat) : Int :=
  let q := m % 64 / 16
  let r := m % 16
  let g (i : Nat) : Int := (cosTab[i]?).getD 0
  if q = 0 then g r else if q = 1 then -g (15 - r) else if q = 2 then -g r else g (15 - r)

/-- round(64 sin(2π (m + 1/2) / 64)). -/
def sin64 (m : Nat) : Int := cos64 (m + 48)

/-- The wiped sample (R116). -/
def Ch.wipe (c : Chan) (x : Iq) : Int × Int :=
  let m := c.carr.toNat / 2 ^ 34 % 64
  let cc := cos64 m
  let ss := sin64 m
  (floorDiv (x.i * cc + x.q * ss + 32) 64, floorDiv (x.q * cc - x.i * ss + 32) 64)

/-- Offset of tap `k` from the prompt in 2^-40 chip (R117). -/
def Ch.tapOfs (s : State) (n k : Nat) : Int :=
  let b := Ch.b n
  let e (m : Nat) : Int := ((s.wget b Ch.TAP_CFG_SP_IN + (m - 1) * s.wget b Ch.TAP_CFG_SP_OUT) * 2 ^ 36 : Nat)
  if k < 4 then e (4 - k) else if k = 4 then 0 else -e (k - 4)

/-- Replica sign of tap `k`; `ahead` shifts the code phase (narrowband groups, R130). -/
def Ch.tap (s : State) (n : Nat) (c : Chan) (ahead : Nat) (k : Nat) : Int :=
  let l := max (Ch.len s n) 1
  let ph : Int := ((c.chip * 2 ^ 40 + c.frac + ahead : Nat) : Int) + Ch.tapOfs s n k
  let w := (ph % ((l * 2 ^ 40 : Nat) : Int)).toNat
  let sg := Ch.sig s n
  let nu := Ch.num s n
  let neg := s.replica sg nu (s.wget (Ch.b n) Ch.SIG_CFG_SUBC) (w / 2 ^ 40) (w % 2 ^ 40)
  let sec := s.wflag (Ch.b n) Ch.SIG_CFG_SEC_WIPE &&
    s.secChip sg nu c.period.toNat (s.wget (Ch.b n) Ch.INT_CFG_SEC_OFS)
  if neg != sec then -1 else 1

/-- Add a wiped value to the nine accumulators. -/
def Ch.addTaps (s : State) (n : Nat) (c : Chan) (ahead : Nat) (w : Int × Int) : List (Int × Int) :=
  (List.range 9).map (fun k =>
    let a := (c.acc[k]?).getD (0, 0)
    let r := Ch.tap s n c ahead k
    (a.1 + r * w.1, a.2 + r * w.2))

/-- One sample of a running channel at full rate: correlate, count, advance (R116, R121). -/
def Ch.sample (s : State) (n : Nat) (c : Chan) (x : Iq) : Chan :=
  let acc := if x.valid then Ch.addTaps s n c 0 (Ch.wipe c x) else c.acc
  let c := { c with acc := acc, nsamp := c.nsamp + 1, inval := c.inval + b2n !x.valid,
                        invTot := c.invTot + b2n !x.valid }
  Ch.step s n c 1

/-- Four wiped samples summed and correlated at the group's centre (R130). -/
def Ch.group (s : State) (n : Nat) (c : Chan) (xs : List Iq) : Chan :=
  let (w, c', bad) := xs.foldl (fun (w, c', bad) x =>
    let y := if x.valid then Ch.wipe c' x else (0, 0)
    ((w.1 + y.1, w.2 + y.2), Ch.step s n c' 1, bad + (if x.valid then 0 else 1))) ((0, 0), c, 0)
  { c' with
    acc := Ch.addTaps s n c (3 * s.wget (Ch.b n) Ch.CODE_RATE_RATE / 2) w
    nsamp := c.nsamp + xs.length, inval := c.inval + bad, invTot := c.invTot + bad }

/-- Where the feed ends early the analog side shows 0 (DESIGN CHOICE, log entry 14). -/
def feedGet (feed : List Smp) (i : Nat) : Smp := (feed[i]?).getD ⟨0, 0, 0, 0⟩

/-- Sample `m` of a channel's source (R113): the output of a chain, or a beam of the signal's band; `x` is what the analog side shows. -/
def Ch.src (s : State) (n m : Nat) (x : Smp) : Iq :=
  let src := s.wget (Ch.b n) Ch.SIG_CFG_SRC
  if src < 4 then s.chainSmp src m (x.i, x.q) else Arr.sample s (Ch.sig s n / 16 % 2) (src - 4) m x

/-- `k` samples of the channel's source, of which `feed` holds what begins at sample `p`. -/
def Ch.samples (s : State) (n p : Nat) (feed : List Smp) : Nat → Chan → Chan
  | 0, c => c
  | k + 1, c => Ch.samples s n p feed k (Ch.sample s n c (Ch.src s n c.pos (feedGet feed (c.pos - p))))

/-- `g` narrowband groups. -/
def Ch.groups (s : State) (n p : Nat) (feed : List Smp) : Nat → Chan → Chan
  | 0, c => c
  | g + 1, c =>
    Ch.groups s n p feed g (Ch.group s n c ((List.range 4).map (fun j => Ch.src s n (c.pos + j) (feedGet feed (c.pos + j - p)))))

/-- The first sample at or after `m` at which a narrowband group starts (R130). -/
def State.groupStart (s : State) (m : Nat) : Nat := m + (4 - s.gsc m % 4) % 4

/-- A channel's samples up to `m`, with the code store as it is at the first of them. -/
def Ch.span (s : State) (n p m : Nat) (feed : List Smp) (c : Chan) : Chan :=
  let t := s.storeAt c.pos
  let k := m - c.pos
  if Ch.nb s n then Ch.samples t n p feed (k % 4) (Ch.groups t n p feed (k / 4) c) else Ch.samples t n p feed k c

/-- Samples between `a` and `m` from which on a channel reads a rewritten code store, and `m`, in ascending order (R109). -/
def Ch.cuts (s : State) (n a m : Nat) : List Nat :=
  let cut (e : Nat) : Nat := if Ch.nb s n then s.groupStart e else e
  (((s.codeLog.map (fun e => cut e.1)).filter (fun e => decide (a < e ∧ e < m))).foldr Arr.insAsc [m])

/-- The secondary chips that a channel uses from period `p` to period `q` (R120). -/
def Ch.secUsed (s : State) (n : Nat) (p q : BitVec 32) : List Nat :=
  let l := s.secLen (Ch.sig s n) (Ch.num s n)
  if !s.wflag (Ch.b n) Ch.SIG_CFG_SEC_WIPE ∨ l = 0 then []
  else (List.range (min ((q - p).toNat + 1) l)).map (fun i => (p.toNat + i + s.wget (Ch.b n) Ch.INT_CFG_SEC_OFS) % l)

/-- A running channel processes its source up to sample `m`; `feed` holds what the analog side shows from its position on. -/
def Ch.runUntil (s : State) (n m : Nat) (feed : List Smp) : State :=
  let c := s.chn n
  if m ≤ c.pos then s
  else
    let c' := (Ch.cuts s n c.pos m).foldl (fun x e => Ch.span s n c.pos e feed x) c
    let last := (Ch.src s n (m - 1) (feedGet feed (m - 1 - c.pos))).valid
    ((s.setChn n c').parityOf (Ch.sig s n) (Ch.num s n) (Ch.secUsed s n c.period c'.period)).putB (Ch.b n) Ch.CH_STAT_SRC_VALID last

/-- CH_STAT of a running channel: SRC_VALID is that of its last sample (R133). -/
def Ch.read (s : State) (n off : Nat) : Option Nat :=
  if off = 0x004 ∧ s.chState n = 2 ∧ s.frozen Trkg.p = false then
    some (putBits (s.regN (Ch.b n + 0x004)) 3 1 (b2n (Ch.src s n s.curSample ⟨0, 0, 0, 0⟩).valid))
  else none

/-! ### The dump path (R20, R127, R128) -/

/-- Slots written and not yet read. -/
def Trkg.fill (s : State) : Nat :=
  let b := pg Trkg.p
  let sz := max (s.get b Trkg.DUMP_SIZE_SIZE) 1
  (s.get b Trkg.DUMP_WP_WP + sz - s.get b Trkg.DUMP_RP_RP % sz) % sz

/-- Is the dump ring full (R127)? -/
def Trkg.full (s : State) : Bool :=
  let b := pg Trkg.p
  (s.get b Trkg.DUMP_WP_WP + 1) % max (s.get b Trkg.DUMP_SIZE_SIZE) 1 == s.get b Trkg.DUMP_RP_RP

/-- DUMP_WM while the fill is at or above the watermark (R135). -/
def Trkg.watermark (s : State) : State :=
  s.raiseIf (s.get (pg Trkg.p) Trkg.DUMP_WM_WM ≤ Trkg.fill s) Trkg.p 16

/-- Drop a record: DUMP_OVF counts, the channel's next record carries the loss flag (R20, R463). -/
def Trkg.drop (s : State) (n : Nat) : State :=
  let b := pg Trkg.p
  let z := s.get b Trkg.DUMP_OVF_COUNT
  let s := (s.count b Trkg.DUMP_OVF_COUNT).raiseIf (z == 0) Trkg.p 17
  s.setChn n { s.chn n with lost := true }

/-- Entries of the 64 KB dump FIFO: whole 96-byte records (R20). -/
def Trkg.fifoMax : Nat := 65536 / 96

/-- Queue a record: the FIFO holds boundary samples in order, and channels in ascending order at the same one (R128). -/
def Trkg.queue (x : Nat × Nat × List Nat) : List (Nat × Nat × List Nat) → List (Nat × Nat × List Nat)
  | [] => [x]
  | y :: t => if x.1 < y.1 ∨ (x.1 = y.1 ∧ x.2.1 < y.2.1) then x :: y :: t else y :: Trkg.queue x t

/-- The interval in progress ends at the channel's position: its record is queued (R118, R127), `cut` telling how it
ended, and the next interval begins there; `load` marks a start or a load. -/
def Ch.endInterval (s : State) (n : Nat) (cut load : Bool) : State :=
  let b := Ch.b n
  let c := s.chn n
  let syn := s.get (pg 0x009) Clk1.SWITCHES_COUNT
  let s := if c.inval = 0 then s else s.chRaise n 4
  let dumping := s.flag (pg Trkg.p) Trkg.DUMP_CTL_DUMP_EN && s.en Trkg.p && s.flag b Ch.CH_CTL_DUMP_EN && 0 < c.nsamp
  let s := if dumping then
      let seq := (s.get b Ch.CH_STAT_DUMP_SEQ + 1) % 2 ^ 16
      let s := s.put b Ch.CH_STAT_DUMP_SEQ seq
      if s.get (pg Trkg.p) Trkg.DUMP_BASE_BASE = 0 ∨ Trkg.fifoMax ≤ s.dumpFifo.length then Trkg.drop s n
      else
        let t := s.replicaAt c.first
        let flags := b2n (c.inval != 0) + 2 * b2n (c.syn != syn) + 4 * b2n c.mid + 8 * b2n cut + 16 * b2n c.started +
          32 * b2n (Ch.nb s n) + 64 * b2n (4 ≤ s.wget b Ch.SIG_CFG_SRC) + 128 * b2n c.lost
        let rec0 := recBytes [(2, n + 512 * Ch.sig s n), (1, flags), (1, seq), (2, s.get b Ch.COMMIT_TAKEN_GEN),
          (2, min c.inval 65535), (8, t), (4, c.nsamp), (4, c.period0)]
        let taps := c.acc.flatMap (fun a => leBytes 4 (ofSigned 32 a.1) ++ leBytes 4 (ofSigned 32 a.2))
        { s with dumpFifo := Trkg.queue (c.pos, n, rec0 ++ taps) s.dumpFifo }.setChn n { c with lost := false }
    else s
  let c := s.chn n
  s.setChn n { c with acc := List.replicate 9 (0, 0), nsamp := 0, inval := 0, first := c.pos,
                      period0 := c.period.toNat, started := load, mid := false, syn := syn }

/-- DUMP_RECORD_WRITE: the oldest record of the FIFO goes whole into the ring when there is room (R127). -/
def execDumpRecordWrite (s : State) : Out :=
  match s.dumpFifo with
  | [] => .next s
  | (_, _, r) :: t =>
    let b := pg Trkg.p
    if s.get b Trkg.DUMP_BASE_BASE = 0 ∨ Trkg.full s ∨ !s.running .fabric then .next s
    else
      let wp := s.get b Trkg.DUMP_WP_WP
      let s := { s with dumpFifo := t }.put8 (s.get b Trkg.DUMP_BASE_BASE * 0x1000 + 96 * wp) r
      let s := s.put b Trkg.DUMP_WP_WP ((wp + 1) % max (s.get b Trkg.DUMP_SIZE_SIZE) 1)
      .next (Trkg.watermark s)

/-! ### Hand-overs (R111, R113, R119, R122 to R124, R130) -/

/-- The cause for which a working configuration is invalid; 0 when it is valid (CH_STAT.REASON, lowest code first). -/
def Ch.reason (s : State) (n : Nat) : Nat :=
  let b := Ch.b n
  let sg := Ch.sig s n
  let nu := Ch.num s n
  let src := s.wget b Ch.SIG_CFG_SRC
  let sub := s.wget b Ch.SIG_CFG_SUBC
  let il := s.wget b Ch.INT_CFG_INT_LEN
  let rate := s.wget b Ch.CODE_RATE_RATE
  match sigOf sg with
  | none => 1
  | some g =>
    if !codeNumOk sg nu then 2
    else if !s.codeValid sg nu (s.wflag b Ch.SIG_CFG_SEC_WIPE) then 3
    else if (sg = 0x3F ∧ 4 ≤ src) ∨ (sg ≠ 0x3F ∧ src < 4 ∧ src % 2 ≠ sg / 16) then 4
    else if (if sg = 0x3F then s.rate10 sg nu * 10230 < il * s.priLen sg nu else 100 < il * g.ms) then 5
    else if il ≤ s.wget b Ch.INT_CFG_INT_PHASE then 6
    else if Ch.nb s n ∧ (10 < s.rate10 sg nu ∨ 1 < sub) then 7
    else if g.subc < sub then 8
    else if rate = 0 ∨ 0x4000000000 < rate then 9
    else 0

/-- Load CODE_INIT, PERIOD_INIT and CARR_INIT as the phases of this sample (R123 step 3). -/
def Ch.load (s : State) (n : Nat) : State :=
  let b := Ch.b n
  let c := s.chn n
  s.setChn n { c with
    chip := s.wget b Ch.CODE_INIT_CHIP % max (Ch.len s n) 1
    frac := s.wget b Ch.CODE_INIT_FRAC * 2 ^ 8
    period := BitVec.ofNat 32 (s.wget b Ch.PERIOD_INIT_PERIOD)
    carr := BitVec.ofNat 72 (s.wget b Ch.CARR_INIT_PHASE * 2 ^ 8) }

/-- Add CODE_STEP and CARR_STEP to the phases of this sample (R123 step 4). -/
def Ch.applyStep (s : State) (n : Nat) : State :=
  let b := Ch.b n
  let c := s.chn n
  let l := max (Ch.len s n) 1
  let tot : Int := ((c.chip * 2 ^ 40 + c.frac : Nat) : Int) + s.wgetI b Ch.CODE_STEP_STEP * 2 ^ 16
  let m : Int := ((l * 2 ^ 40 : Nat) : Int)
  let r := (tot % m).toNat
  s.setChn n { c with
    chip := r / 2 ^ 40, frac := r % 2 ^ 40
    period := c.period + BitVec.ofInt 32 (Int.fdiv tot m)
    carr := c.carr + BitVec.ofInt 72 (s.wgetI b Ch.CARR_STEP_STEP * 2 ^ 8) }

/-- Does period count `p` satisfy R118? -/
def Ch.isBoundary (s : State) (n p : Nat) : Bool :=
  ((p : Int) - s.wget (Ch.b n) Ch.INT_CFG_INT_PHASE) % (max (s.wget (Ch.b n) Ch.INT_CFG_INT_LEN) 1 : Nat) == 0

/-- The hand-over of a channel at its present position (R123, R124): `start` for a start hand-over, `inside` when the
sample lies inside an interval (DEDUCED, log entry 38) (DEDUCED, log entry 39). -/
def Ch.handOver (s : State) (n : Nat) (start inside : Bool) : State :=
  let b := Ch.b n
  match s.armedAt (b + 0x014) with
  | none => s
  | some cm =>
    let old := (s.wreg (b + 0x020), s.wreg (b + 0x024), s.wreg (b + 0x028))
    let running := s.chState n = 2
    let gen0 := s.get b Ch.COMMIT_TAKEN_GEN
    -- the interval in progress is closed with its old settings when the hand-over cuts it
    let sh (o : Nat) : Word := s.reg (b + o)
    let cfgChange := old != (sh 0x020, sh 0x024, sh 0x028)
    let loads := start || s.get b Ch.APPLY_GEN_LOAD_GEN == cm.gen
    let s := if running && inside && (cfgChange || loads) then Ch.endInterval s n true loads else s
    let s := (s.disarm (b + 0x014)).copyShadow (b + 0x020) (b + 0x080)
    let s := ((s.put b Ch.COMMIT_TAKEN_GEN cm.gen).put b Ch.CH_STAT_COMMIT_PEND 0).chRaise n 1
    let why := Ch.reason s n
    if why ≠ 0 then
      let s := ((s.put b Ch.CH_STAT_STATE 3).put b Ch.CH_STAT_REASON why).chRaise n 2
      (s.raise Trkg.p 19).logErr Trkg.p 0x40 (b + 0x020) cm.req
    else
      let s := if loads then Ch.load s n else s
      let p0 := (s.chn n).period
      let stepped := s.wget b Ch.APPLY_GEN_STEP_GEN == cm.gen
      let s := if stepped then Ch.applyStep s n else s
      let p1 := (s.chn n).period
      let c := s.chn n
      let carr := stepped && s.wgetI b Ch.CARR_STEP_STEP != 0
      let s := s.setChn n { c with
        loadAt := if loads || carr then c.pos else c.loadAt
        codeAt := if stepped && s.wgetI b Ch.CODE_STEP_STEP != 0 then some c.pos else c.codeAt
        handAt := some c.pos }
      let code := stepped && s.wgetI b Ch.CODE_STEP_STEP != 0
      if start then
        let c := s.chn n
        let syn := s.get (pg 0x009) Clk1.SWITCHES_COUNT
        let s := s.setChn n { c with acc := List.replicate 9 (0, 0), nsamp := 0, inval := 0, first := c.pos,
                                     period0 := p1.toNat, started := true, mid := false, syn := syn,
                                     invTot := 0, invBase := 0, startAt := c.pos, loadAt := c.pos, stopAt := none,
                                     codeAt := if code then some c.pos else none, handAt := some c.pos, was := none }
        (s.put b Ch.CH_STAT_STATE 2).chRaise n 0
      else if running && inside && !(cfgChange || loads) then
        -- the periods that the step crosses, forward or back, modulo 2^32
        let d := (p1 - p0).toInt
        let lo := if 0 ≤ d then p0 else p1
        let crossed := stepped &&
          (List.range d.natAbs).any (fun j => Ch.isBoundary s n (lo + BitVec.ofNat 32 (j + 1)).toNat)
        -- the interval that ends here ran under the generation before (R127)
        if crossed then (Ch.endInterval (s.put b Ch.COMMIT_TAKEN_GEN gen0) n true false).put b Ch.COMMIT_TAKEN_GEN cm.gen
        else s.setChn n { s.chn n with mid := true }
      else
        s.setChn n { s.chn n with period0 := p1.toNat, started := loads }

/-- The sample at which a channel acts that hands over at `m`: a narrowband channel, and one that becomes narrowband there, at the next
group start (R130). -/
def Ch.align (s : State) (n m : Nat) : Nat :=
  if Ch.nb s n || ((s.armedAt (Ch.b n + 0x014)).isSome && s.flag (Ch.b n) Ch.SIG_CFG_NB) then s.groupStart m else m

/-- A channel enters IDLE at the next sample: its NCOs hold there, the interval is discarded, and a latch at that sample still
reports it (R112, R134, R140). -/
def Ch.stop (s : State) (n : Nat) : State :=
  if s.chState n = 0 then s
  else
    let c := s.chn n
    let m := s.nextSample
    let c := if s.chState n ≠ 2 then c
      else if s.frozen Trkg.p then { c with stopAt := some m }
      else { Ch.at_ s n c m with pos := max m c.pos, stopAt := some m }
    let s := if s.chState n = 2 ∧ s.frozen Trkg.p = false then
        s.putB (Ch.b n) Ch.CH_STAT_SRC_VALID (Ch.src s n (m - 1) ⟨0, 0, 0, 0⟩).valid else s
    (s.setChn n { c with acc := List.replicate 9 (0, 0), nsamp := 0, inval := 0 }).put (Ch.b n) Ch.CH_STAT_STATE 0

/-- A write of CH_CTL: RUN going to 1 enters WAIT, to 0 enters IDLE (R110, R112, R134). -/
def Ch.ctl (s : State) (n : Nat) (before : Bool) : State :=
  let run := s.flag (Ch.b n) Ch.CH_CTL_RUN
  if run && !before then (if s.en Trkg.p then s.put (Ch.b n) Ch.CH_STAT_STATE 1 else s)
  else if !run then Ch.stop s n
  else s

/-- First sample that follows a write of CH_CTL of the channel (R439). -/
def Ch.afterMove (s : State) (n : Nat) : Nat :=
  match (s.chn n).moved with
  | some (k, _) => k + 1
  | none => 0

/-- The start hand-over of a waiting or halted channel with PATH = 0: at the first sample at or after START_T; where its COMMIT was armed
after START_T, at the sample after that, and LATE_START is raised when the channel starts (R111). -/
def Ch.start (s : State) (n : Nat) : State :=
  let b := Ch.b n
  match s.armedAt (b + 0x014) with
  | none => s
  | some cm =>
    let t := s.get b Ch.START_T
    let late := decide (t < cm.at_)
    let m := max (if late then s.sampleAfter cm.at_ else s.sampleAt t) (max (Ch.afterMove s n) s.curSample)
    let m := if s.flag b Ch.SIG_CFG_NB then s.groupStart m else m
    let s := s.runToSample m
    let s := Ch.handOver (s.setChn n { s.chn n with pos := m }) n true false
    if late && s.chState n == 2 then s.chRaise n 3 else s

/-- CH_CTL as an integration boundary or group commit at sample `m` finds it: a write counts from the first sample after it arrives
(spec/19 R439). -/
def Ch.ctlAt (s : State) (n m : Nat) : Nat :=
  match (s.chn n).moved with
  | some (k, w) => if m ≤ k then w else s.get (Ch.b n) ⟨0x000, 0, 32⟩
  | none => s.get (Ch.b n) ⟨0x000, 0, 32⟩

/-- PATH and GROUP at sample `m`. -/
def Ch.pathAt (s : State) (n m : Nat) : Bool := (Ch.ctlAt s n m).testBit 2
def Ch.groupAt (s : State) (n m : Nat) : Nat := bitsOf (Ch.ctlAt s n m) 4 4

/-- A write of CH_CTL arrives: the word before it still holds at the sample at which it arrives (R439). -/
def Ch.move (s : State) (n : Nat) (w : Nat) : State :=
  let c := s.chn n
  let k := s.curSample
  match c.moved with
  | some (j, _) => if j = k then s else s.setChn n { c with moved := some (k, w) }
  | none => s.setChn n { c with moved := some (k, w) }

/-- Does a channel wait for its start with PATH = 0? -/
def Ch.waits (s : State) (n : Nat) : Bool :=
  let st := s.chState n
  (st == 1 || st == 3) && !s.flag (Ch.b n) Ch.CH_CTL_PATH && s.en Trkg.p && !s.frozen Trkg.p && s.running .corr

/-- A running channel reaches its integration boundary; its record is queued, and with PATH = 0 an armed COMMIT is taken at that
sample (R118, R122) (DEDUCED, log entry 40). -/
def Ch.boundary (s : State) (n : Nat) (feed : List Smp) : State :=
  let c := s.chn n
  let m := c.pos + Ch.toBoundary s n c
  let path := Ch.pathAt s n m
  let m := if path then m else Ch.align s n m
  let s := Ch.runUntil (s.runToSample m) n m feed
  let s := Ch.endInterval s n false false
  if path then s else Ch.handOver s n false false

/-! ### Groups (R125, R126) -/

/-- Channels of a group that follow group commits. -/
def Trkg.members (s : State) (g : Nat) : List Nat :=
  (List.range 512).filter (fun n => s.get (Ch.b n) ⟨0, 2, 1⟩ == 1 && s.get (Ch.b n) Ch.CH_CTL_GROUP == g)

/-- Those that a commit at sample `m` acts on (R122, spec/19 R439). -/
def Trkg.membersAt (s : State) (g m : Nat) : List Nat :=
  (List.range 512).filter (fun n => Ch.pathAt s n m && Ch.groupAt s n m == g)

/-- One member at the commit sample `m`: an armed COMMIT is taken; else it counts as missed. -/
def Trkg.commitMember (s : State) (n m : Nat) (feed : List Smp) : State × Bool :=
  let b := Ch.b n
  let st := s.chState n
  if (s.armedAt (b + 0x014)).isNone then (s, true)
  else if st = 2 then
    let m' := Ch.align s n m
    let c := s.chn n
    let w := Ch.at_ s n c m
    let was := if m' = m then none else
      some ⟨m, w.carr, w.chip, w.frac, w.period, c.period0, s.wget b Ch.CARR_FREQ_FREQ, s.wget b Ch.CODE_RATE_RATE,
        s.get b Ch.COMMIT_TAKEN_GEN, c.loadAt, c.codeAt⟩
    let ends := decide (m' = c.pos + Ch.toBoundary s n c)
    let s := Ch.runUntil s n m' feed
    let s := s.setChn n { s.chn n with was := was }
    let s := if ends then Ch.endInterval s n false false else s
    (Ch.handOver s n false (decide ((s.chn n).first < m')), false)
  else if st = 0 then (s, false)
  else
    let m' := if s.flag b Ch.SIG_CFG_NB then s.groupStart m else m
    (Ch.handOver (s.setChn n { s.chn n with pos := m' }) n true false, false)

/-- A commit of group `g` at sample `m`; a second one at the same sample is the same commit (R125) (DEDUCED, log entry 42). -/
def Trkg.commitGroup (s : State) (g m : Nat) (feed : List (Nat × List Smp)) : State :=
  if !s.en Trkg.p ∨ s.frozen Trkg.p ∨ (s.grpAt[g]?).join = some m then s
  else
    let b := pg Trkg.p
    let (s, miss) := (Trkg.membersAt s g m).foldl (fun (s, k) n =>
      let (s, miss) := Trkg.commitMember s n m (((feed.find? (fun x => x.1 == n)).map (·.2)).getD [])
      (s, if miss then k + 1 else k)) (s, 0)
    let s := if s.flag Arr.b Arr.ARR_CTL_HO_SRC && s.get Arr.b Arr.ARR_CTL_HO_GROUP == g then Arr.handOver s else s
    let s := s.put (b + 4 * g) Trkg.GRP_STAT_TAKEN (s.get (b + 4 * g) Trkg.GRP_STAT_TAKEN + 1)
    let s := s.put (b + 4 * g) Trkg.GRP_STAT_MISS miss
    let s := { s.put (b + 8 * g) Trkg.GRP_T_T (s.replicaAt m) with grpAt := s.grpAt.setIfInBounds g (some m) }
    (s.raise Trkg.p g).raiseIf (miss != 0) Trkg.p 18

/-- Groups named by a GRP_CMD mask, at the first sample after the write arrives. -/
def Trkg.grpCmd (s : State) (mask : Nat) (feed : List (Nat × List Smp)) : State :=
  if mask % 2 ^ 16 = 0 then s
  else
    let m := s.nextSample
    (s.runToSample m).each ((List.range 16).filter (fun g => mask.testBit g)) (fun s g => Trkg.commitGroup s g m feed)

/-- A tracking group commit action of the calendar, carried out at the first sample edge at which the island's replica has reached its
instant (R21, R125); a frozen block drops it (R44). -/
def Trkg.action (s : State) (x : Action) (feed : List (Nat × List Smp)) : State :=
  if !s.running .corr then s
  else if s.frozen Trkg.p then s.logErr Trkg.p E.FROZEN_ACTION (pg Trkg.p) 8
  else
    let m := s.edgeFor x.fire
    Trkg.commitGroup (s.runToSample m) (x.arg % 16) m feed

/-- Arm a channel's COMMIT (R38, R122). -/
def Ch.arm (s : State) (req n gen : Nat) : State :=
  let s' := s.arm req Trkg.p (Ch.b n + 0x014) gen
  if gen % 2 ^ 16 = 0 then s' else s'.put (Ch.b n) Ch.CH_STAT_COMMIT_PEND 1

/-- GRP_ARM: as if the generation had been written to each member's COMMIT (R126). -/
def Trkg.grpArm (s : State) (req v : Nat) : State :=
  let gen := v % 2 ^ 16
  let g := v / 2 ^ 16 % 16
  if gen = 0 then s.logErr Trkg.p E.RANGE_REJECTED (pg Trkg.p + 0x064) req
  else
    let l := Trkg.members s g
    { s.each l (fun s n => Ch.arm s req n gen) with grpArmed := some (req, s.now, l) }

/-- A write of a channel's COMMIT. Where a GRP_ARM of another requester has reached the island at the same tick, and so on the same edge,
the COMMIT acts before it, and the generation of the GRP_ARM is the one pending (spec/19 R440; DEDUCED, log entry 109). -/
def Ch.commit (s : State) (req n gen : Nat) : State :=
  match s.grpArmed with
  | some (r, t, l) =>
    if gen % 2 ^ 16 ≠ 0 ∧ r ≠ req ∧ t = s.now ∧ l.contains n = true ∧ (s.armedAt (Ch.b n + 0x014)).isSome = true then s else Ch.arm s req n gen
  | none => Ch.arm s req n gen

/-! ### Readback, enable, freeze (R129, R131, R134) -/

/-- A read of RB_T captures the readback fields of a channel at the next sample (R129) (DEDUCED, log entry 101). -/
def Ch.readback (s : State) (n : Nat) : State :=
  let b := Ch.b n
  let m := s.nextSample
  let s := s.runToSample m
  let live := s.chState n == 2 && !s.frozen Trkg.p
  let c0 := s.chn n
  let c := if live then Ch.at_ s n c0 m else c0
  let (freq, rate, gen) := Ch.setAt s n c0 m
  let t := s.replicaAt m
  -- what a wide readback field captured before is replaced as well
  let s := { s with capt := s.capt.filter (fun x => !decide (b + 0x080 ≤ x.1 ∧ x.1 < b + 0x0B0)) }
  let s := s.put b Ch.RB_T_T t
  let s := s.put b Ch.RB_CODE_FRAC (c.frac / 2 ^ 8)
  let s := s.put b Ch.RB_CODE_CHIP c.chip
  let s := s.put b Ch.RB_PERIOD_PERIOD c.period.toNat
  let s := s.put b Ch.RB_CARR_PHASE (c.carr.toNat / 2 ^ 8)
  let s := s.put b Ch.RB_FREQ_FREQ freq
  let s := s.put b Ch.RB_RATE_RATE rate
  let s := s.put b Ch.RB_INFO_GEN gen
  let s := s.put b Ch.RB_INFO_INT_POS (if live then Ch.intPos s n c0 m else (c.period - BitVec.ofNat 32 c.period0).toNat)
  s.put b Ch.RB_INFO_STATE (s.chState n)

/-- TRKG EN: 0 holds every channel in IDLE; 1 releases channels with RUN = 1 into WAIT (R134). -/
def Trkg.enable (s : State) (en : Bool) : State :=
  s.each (List.range 512) (fun s n =>
    if en then (if s.get (Ch.b n) ⟨0, 0, 1⟩ = 1 ∧ s.chState n = 0 then s.put (Ch.b n) Ch.CH_STAT_STATE 1 else s)
    else Ch.stop s n)

/-- TRKG frozen: every running channel ends its interval at the freeze edge, flagged CUT (R131); `feed` holds the samples of
the channels' sources up to that edge. -/
def Trkg.freeze (s : State) (feed : List (Nat × List Smp)) : State :=
  let m := s.nextSample
  s.each ((List.range 512).filter (fun n => s.chState n == 2)) (fun s n =>
    Ch.endInterval (Ch.runUntil s n m (((feed.find? (fun x => x.1 == n)).map (·.2)).getD [])) n true false)

/-- TRKG resumes: every running channel begins a new interval at the resume sample (R131). -/
def Trkg.unfreeze (s : State) : State :=
  let m := s.nextSample
  s.each ((List.range 512).filter (fun n => s.chState n == 2)) (fun s n =>
    let b := Ch.b n
    let c := { s.chn n with pos := m }
    let m' := if Ch.nb s n then s.groupStart m else m
    -- the NCOs run again from the resume sample; a narrowband channel's first group starts at `m'` (R130)
    let d := Ch.step s n c (m' - m)
    let was := if m' = m then none else
      some ⟨m, c.carr, c.chip, c.frac, c.period, c.period0, s.wget b Ch.CARR_FREQ_FREQ, s.wget b Ch.CODE_RATE_RATE,
        s.get b Ch.COMMIT_TAKEN_GEN, c.loadAt, c.codeAt⟩
    s.setChn n { d with first := m', period0 := d.period.toNat, syn := s.get (pg 0x009) Clk1.SWITCHES_COUNT, was := was })

/-- Does a ring of `bytes` at `a` lie in shared SRAM below the dump bay or in one global TLM alias (R134)? -/
def ringArea (a bytes : Nat) : Bool :=
  inSramArea a bytes || (bytes != 0 && match rangeFor a bytes with | .tlm _ => true | _ => false)

/-- Special effects of a write to a TRKG register (R134, R135, R463). -/
def Trkg.write (s : State) (req off v : Nat) (store : State → State) : State :=
  let p := Trkg.p
  let b := pg p
  let a := b + off
  if off = 0x040 then
    let s := store s
    if v.testBit 1 then s.put b Trkg.DUMP_OVF_COUNT 0 else s
  else if off = 0x044 then
    if s.flag b Trkg.DUMP_CTL_DUMP_EN then s.logErr p 0x42 a req
    else if v = 0 ∨ v % 0x1000 ≠ 0 ∨ !ringArea v (96 * s.get b Trkg.DUMP_SIZE_SIZE) then s.logErr p 0x41 a req
    else store s
  else if off = 0x048 then
    let n := v % 2 ^ 20
    if s.flag b Trkg.DUMP_CTL_DUMP_EN then s.logErr p 0x42 a req
    else if n < 64 then s.logErr p E.RANGE_REJECTED a req
    else if s.get b Trkg.DUMP_BASE_BASE ≠ 0 ∧ !ringArea (s.get b Trkg.DUMP_BASE_BASE * 0x1000) (96 * n) then s.logErr p 0x41 a req
    else Trkg.watermark (store s)
  else if off = 0x050 then
    if s.get b Trkg.DUMP_SIZE_SIZE ≤ v % 2 ^ 20 then s.logErr p E.RANGE_REJECTED a req
    else Trkg.watermark (store s)
  else if off = 0x054 then Trkg.watermark (store s)
  else if off = 0x060 then Trkg.grpCmd s v []
  else if off = 0x064 then (if v % 2 ^ 16 = 0 then Trkg.grpArm s req v else Trkg.grpArm (store s) req v)
  else store s

/-- Special effects of a write to a channel entry register. -/
def Ch.write (s : State) (req n off v : Nat) (store : State → State) : State :=
  if off = 0x000 then
    let before := s.flag (Ch.b n) Ch.CH_CTL_RUN
    Ch.ctl (Ch.move (store s) n (s.get (Ch.b n) ⟨0x000, 0, 32⟩)) n before
  else if off = 0x010 then
    s.put (Ch.b n) ⟨0x008, 0, 32⟩ (s.get (Ch.b n) ⟨0x008, 0, 32⟩ &&& (2 ^ 32 - 1 - v % 2 ^ 32))
  else if off = 0x014 then Ch.commit s req n v
  else store s

/-- CH_IRQ_SUM and RUN_SUM words (R135). -/
def Trkg.sums (s : State) (off : Nat) : Option Nat :=
  let word (k : Nat) (f : Nat → Bool) : Nat := (List.range 32).foldl (fun a j => a + b2n (f (32 * k + j)) * 2 ^ j) 0
  if 0x140 ≤ off ∧ off < 0x180 then
    some (word ((off - 0x140) / 4) (fun n => s.get (Ch.b n) ⟨0x008, 0, 32⟩ &&& s.get (Ch.b n) ⟨0x00C, 0, 32⟩ != 0))
  else if 0x180 ≤ off ∧ off < 0x1C0 then
    some (word ((off - 0x180) / 4) (fun n => s.chState n == 2))
  else none

/-- BLOCK_STAT of the TRKG page. -/
def Trkg.blockStat (s : State) : Nat :=
  b2n (s.flag (pg Trkg.p) Trkg.DUMP_CTL_DUMP_EN) + 2 * b2n (Trkg.full s && !s.dumpFifo.isEmpty)

end Sys2Proof.Machine
end

