-- ==== Sys2Proof/Machine/Cdl.lean ====
section
/-! DEFINITION. The Cindoyth link and stack groups (spec/07 R156 to R168, R175 to R177). -/

namespace Sys2Proof.Machine

/-- Change the link beside its registers. -/
def State.modCdl (s : State) (f : CdlSt → CdlSt) : State := { s with cdl := f s.cdl }

/-- STATE changes: STATE_CHG (R177). -/
def Cdl.setState (s : State) (st : Nat) : State :=
  if Cdl.state s = st then s else (s.put Cdl.b Cdl.CDL_STAT_STATE st).raise Cdl.p 0

/-- Position in the chain. -/
def Cdl.pos (s : State) : Nat := s.get Cdl.b Cdl.CDL_STAT_POSITION

/-! ### Frames and blocks sent (R162, R163, R165) -/

/-- CRC-16 of R162 over bits, most significant first, polynomial 0x1021. -/
def crc16 : List Bool → Nat → Nat
  | [], r => r
  | b :: t, r =>
    let top := (r.testBit 15) != b
    crc16 t (if top then ((2 * r) % 2 ^ 16) ^^^ 0x1021 else (2 * r) % 2 ^ 16)

/-- The bits of a number, most significant first. -/
def bitsMsb (v : Nat) : Nat → List Bool
  | 0 => []
  | n + 1 => v.testBit n :: bitsMsb v n

/-- A frame: PRE, TYPE, DEST, ROUTE, PAYLOAD, CRC and the GAP of ones (R162). -/
def Cdl.frame (type dest src hops payload : Nat) : BitVec 128 :=
  let body := type % 16 * 2 ^ 76 + dest % 16 * 2 ^ 72 + (src % 8 + 8 * (hops % 8)) * 2 ^ 64 + payload % 2 ^ 64
  BitVec.ofNat 128 (0xF628 * 2 ^ 112 + body * 2 ^ 32 + crc16 (bitsMsb body 80) 0xFFFF * 2 ^ 16 + 0xFFFF)

/-- First sample of the next slot that has nothing to send: slots begin at GSC multiples of 128 (R162, R163). -/
def Cdl.freeSlot (s : State) : Nat :=
  let n := (s.cdl.sent.map (fun f => f.1 + 128)).foldl max s.nextSample
  n + (128 - s.gsc n % 128) % 128

/-- Send a frame on CDL_SYNC_OUT in the next free slot. -/
def Cdl.send (s : State) (type dest src hops payload : Nat) : State :=
  let n := Cdl.freeSlot s
  s.modCdl (fun c => { c with
    sent := c.sent.filter (fun f => decide (s.curSample < f.1 + 128)) ++ [(n, Cdl.frame type dest src hops payload)] })

/-- The position that a module's own frames carry in SRC: 0 for a Herald. -/
def Cdl.src (s : State) : Nat := if Cdl.isHerald s then 0 else Cdl.pos s

/-- Send a frame that this module originates. -/
def Cdl.originate (s : State) (type dest payload : Nat) : State := Cdl.send s type dest (Cdl.src s) 0 payload

/-- What CDL_SYNC_OUT carries in the slot that begins at sample `n`: IDLE where nothing else is sent (R163); nothing where the module
drives no link downstream. -/
def Cdl.slot (s : State) (n : Nat) : Option (BitVec 128) :=
  if !Cdl.linked s ∨ !s.cdl.clkOut ∨ (s.cdl.isolated ∧ !s.cdl.heralds) then none
  else match s.cdl.sent.find? (fun f => f.1 == n) with
    | some f => some f.2
    | none => some (Cdl.frame 0 15 (Cdl.src s) 0 0)

/-- Send a control block on the UTX lanes, and data blocks after it. -/
def Cdl.block (s : State) (type payload : Nat) (data : List Nat) : State :=
  s.modCdl (fun c => { c with blockOut := (type % 256 + 256 * (payload % 2 ^ 56)) :: data })

/-- Block `k` that leaves on the UTX lanes from the last batch on: IDLE behind it (R165). -/
def Cdl.laneBlock (s : State) (k : Nat) : Nat := (s.cdl.blockOut[k]?).getD 0xA1

/-- The own chains' SAMPLE_VALID, AH to BL (R165). -/
def Cdl.ownValid (s : State) : Nat := ((List.range 4).map (fun i => b2n (Rfe.sampleValid s i) * 2 ^ i)).sum

/-! ### Isolation (R175, R176) -/

/-- The reference of the sample synthesizers: the output of DLL_CDL at 1:1, or the module's reference (R158, spec/15 R352, R353). -/
def Cdl.reference (s : State) (dll : Bool) : State :=
  let s := s.each [2, 3] (fun s k =>
    (s.put (Pll.b k) Pll.PLL_DIV_N (if dll then 16 else 16368)).put (Pll.b k) Pll.PLL_DIV_R (if dll then 1 else 125))
  s.modCdl (fun c => { c with dllRef := dll })

/-- The sample synthesizers leave the upstream clock: they glide to the reference of an unlinked module (R175). -/
def Cdl.dropClock (s : State) : State :=
  if s.cdl.dllRef then
    let s := Cdl.reference s false
    ((s.glide 2).glide 3).modCdl (fun c => { c with loRef := false })
  else s

/-- The sample synthesizers take the upstream clock through a gated change (R158, sequence of R161). -/
def Cdl.takeClock (s : State) : State :=
  if s.cdl.dllRef then s
  else
    let s := Cdl.reference s true
    (s.gatedChange 2).gatedChange 3

/-- The member becomes isolated; `clock` when its synthesizers leave the upstream clock, which an isolated member's may still do.  With
SUCCEED it is the Herald of the members below it, at position 0 (R175, R176). -/
def Cdl.isolate (s : State) (clock : Bool) : State :=
  let s := if clock then Cdl.dropClock s else s
  if Cdl.state s = 6 ∨ Cdl.role s = 0 then s
  else
    let s := Arr.changing s
    let succ := Cdl.role s == 2 && s.flag Cdl.b Cdl.CDL_CFG_SUCCEED
    let s := s.modCdl (fun c => { c with isolated := true, heralds := succ, synced := false, good := 0, crcHist := [], epochs := [] })
    let s := if succ then
        ((s.put Cdl.b Cdl.CDL_STAT_POSITION 0).put Cdl.b Cdl.CDL_STAT_MEMBERS 1).modCdl (fun c =>
          { c with members := CdlSt.init.members })
      else s
    (Cdl.setState s 6).raise Cdl.p 8

/-- CDL EN goes to 1: the link starts in the module's role (R175, R158). -/
def Cdl.enable (s : State) : State :=
  let s := Arr.changing s
  let s := s.modCdl (fun x => { CdlSt.init with gscOfs := x.gscOfs, epochSeq := x.epochSeq, dllRef := x.dllRef })
  let s := (s.put Cdl.b Cdl.CDL_STAT_MEMBERS 0).put Cdl.b Cdl.CDL_STAT_ARRAY_IGNORED 0
  let s := (s.put Cdl.b Cdl.CDL_STAT_POSITION 0).put Cdl.b Cdl.CDL_STAT_LANE_LOCK 0
  match Cdl.role s with
  | 1 =>
    let s := s.modCdl (fun x => { x with clkOut := true, loaded := true })
    Cdl.setState (s.put Cdl.b Cdl.CDL_STAT_MEMBERS 1) 5
  | 2 => Cdl.setState (if s.flag (pg 0x009) Clk1.DLL_STAT_DLL_LOCKED && Cdl.linked s then Cdl.takeClock s else s) 0
  | _ => Cdl.setState s 0

/-- CDL EN goes to 0: the module is isolated, which keeps CDL_CLK_OUT running, and the link is down. -/
def Cdl.disable (s : State) : State :=
  let s := Cdl.isolate (Arr.changing s) true
  let s := s.modCdl (fun c => { c with heralds := false, synced := false, members := CdlSt.init.members })
  (Cdl.setState s 0).put Cdl.b Cdl.CDL_STAT_MEMBERS 0

/-! ### The follower's clock (R158, R361) -/

/-- DLL_LOCK: DLL_CDL has acquired CDL_CLK_IN; a follower's sample synthesizers take it as their reference (R158).  STATE stays DOWN
until frames arrive (R157) (DEDUCED, log entry 44). -/
def execDllLock (s : State) : Out :=
  let s := s.dllLock
  .next (if Cdl.linked s && Cdl.role s == 2 && Cdl.state s == 0 then Cdl.takeClock s else s)

/-- DLL_LOST: 1 µs without an input edge; the sample synthesizers glide (R361, R175). -/
def execDllLost (s : State) : Out :=
  if s.flag (pg 0x009) Clk1.DLL_STAT_INPUT then .next (Cdl.dropClock s.dllLost) else .next s

/-- CLK_IN_LOSS: the follower glides to the reference of an unlinked module and becomes isolated (R175). -/
def execClkInLoss (s : State) : Out := .next (if Cdl.on s && Cdl.role s == 2 then Cdl.isolate s true else s)

/-- Move DLL_CDL by `d` steps, holding it at an end with DLL_LIMIT (R361). -/
def Cdl.moveDll (s : State) (d : Int) : State :=
  let v := (s.get (pg 0x009) Clk1.DLL_STAT_CODE : Int) + d
  let s := s.setDll (clampI 0 8191 v).toNat
  if v ≤ 0 ∨ 8191 ≤ v then (s.put (pg 0x009) Clk1.DLL_STAT_LIMIT 1).raise 0x009 12 else s

/-! ### Exchanges with the downstream neighbour (R159) -/

/-- The next PING of an exchange (R159). -/
def Cdl.ping (s : State) : State :=
  let d := Cdl.src s + 1
  (Cdl.originate s 3 d s.cdl.pingSeq).modCdl (fun c => { c with pingSeq := (c.pingSeq + 1) % 2 ^ 16 })

/-- The alignment of the downstream neighbour begins: 256 exchanges (R159). -/
def Cdl.beginAlign (s : State) : State := Cdl.ping (s.modCdl (fun c => { c with rttSum := 0, rttCnt := 0, tracks := false }))

/-- May the module align its downstream neighbour: its lanes are locked, and it drives CDL_CLK_OUT as a Herald or READY? -/
def Cdl.aligns (s : State) : Bool :=
  s.get Cdl.b Cdl.CDL_STAT_LANE_LOCK == 3 && s.cdl.clkOut && (Cdl.isHerald s || Cdl.state s == 5)

/-- DLL_TRACK: each millisecond the upstream neighbour's exchange moves the DLL by at most one step, and the module begins an exchange
with the neighbour that it has aligned (R159). -/
def execDllTrack (step : Int) (s : State) : Out :=
  if !Cdl.linked s then .next s
  else
    let s := if Cdl.role s == 2 && (Cdl.state s == 4 || Cdl.state s == 5) then Cdl.moveDll s (clampI (-1) 1 step) else s
    .next (if s.cdl.tracks && Cdl.aligns s then Cdl.ping s else s)

/-! ### Received frames (R162 to R164) -/

/-- Is the member done with its alignment: GSC loaded, and its band LOs locked on the aligned clock if ARRAY asks for it?
Then it is READY, drives CDL_CLK_OUT and aligns the member below it (R158, R161, R177). -/
def Cdl.settle (s : State) : State :=
  let locked (k : Nat) : Bool := s.pllState k == 3 && !s.flag (Pll.b k) Pll.PLL_STAT_GATED
  if Cdl.state s = 4 ∧ s.cdl.loaded ∧ (!s.cdl.loRef ∨ (locked 4 ∧ locked 5)) then
    let s := Cdl.setState (s.modCdl (fun c => { c with clkOut := true, smpNext := none })) 5
    if Cdl.aligns s then Cdl.beginAlign s else s
  else s

/-- The member's position, and whether it leaves ARRAY unused (R157, R163). -/
def Cdl.place (s : State) (pos : Nat) : State :=
  (s.put Cdl.b Cdl.CDL_STAT_POSITION pos).putB Cdl.b Cdl.CDL_STAT_ARRAY_IGNORED (s.flag Cdl.b Cdl.CDL_CFG_ARRAY && decide (4 ≤ pos))

/-- CRC failures in the last 1,024 frames: the quantity of guard 13 (R164, spec/16 R381). -/
def Cdl.failures (s : State) : Nat := (s.cdl.crcHist.filter (fun b => b)).length

/-- A frame of `type` arrives: CRC, SYNC_LOCK after three good frames at 128-bit spacing, position, the act of a frame for this member,
forwarding.  The first good frame shows that a clock is locked on (DEDUCED, log entry 44). -/
def Cdl.receive (s : State) (type : Nat) (f : CdlFrame) (act : State → State) : State :=
  if !Cdl.linked s ∨ Cdl.role s ≠ 2 ∨ s.cdl.isolated ∨ !s.cdl.dllRef then s
  else
    let s := s.modCdl (fun c => { c with crcHist := ((!f.ok) :: c.crcHist).take 1024 })
    if !f.ok then (s.count Cdl.b Cdl.CRC_ERR_COUNT).modCdl (fun c => { c with good := 0 })
    else
      let pos := f.src.toNat + f.hops.toNat + 1
      let s := (s.modCdl (fun c => { c with good := if f.gap = 128 then c.good + 1 else 1 })).qualify 13
      let s := if Cdl.state s = 0 then Cdl.setState s 1 else s
      let s := if !s.cdl.synced && 3 ≤ s.cdl.good && pos ≤ 7 then
          let s := s.modCdl (fun c => { c with synced := true })
          if Cdl.state s = 1 then Cdl.setState s 2 else s
        else s
      if !s.cdl.synced then s
      else
        let s := Cdl.place s pos
        let d := f.dest.toNat
        let s := if d = pos ∨ d = 15 then act s else s
        if (d ≤ 7 ∨ d = 15) ∧ d ≠ pos ∧ pos < 7 ∧ type < 7 ∧ s.cdl.clkOut ∧ !s.cdl.isolated then
          Cdl.send s type d f.src.toNat (f.hops.toNat + 1) f.payload.toNat
        else s

/-- IDLE_FRAME: an IDLE frame, or one of the types 7 to F, which is discarded (R163). -/
def execIdleFrame (f : CdlIdle) (s : State) : Out :=
  .next (Cdl.receive s (match f.reserved with | none => 0 | some k => 7 + k.val) f.frame (fun s => s))

/-- Has the group sample count `g` passed? -/
def Cdl.passed (s : State) (g : Nat) : Bool := decide (0 < (s.gsc (s.nextSample - 1) + 2 ^ 48 - g) % 2 ^ 48 ∧
  (s.gsc (s.nextSample - 1) + 2 ^ 48 - g) % 2 ^ 48 < 2 ^ 47)

/-- EPOCH: a latch is scheduled at its GSC, or it is late (R168). -/
def execEpoch (f : CdlFrame) (s : State) : Out :=
  .next (Cdl.receive s 1 f (fun s =>
    let g := f.payload.toNat % 2 ^ 48
    if !s.flag Cdl.b Cdl.CDL_CFG_EPOCH_SHARE then s
    else if Cdl.passed s g then (s.count Cdl.b Cdl.EPOCH_LATE_COUNT).raise Cdl.p 6
    else (s.countWrap Cdl.b Cdl.EPOCH_CNT_COUNT).modCdl (fun c => { c with epochs := c.epochs ++ [(g, none)] })))

/-- The count is loaded: running narrowband channels go to the sample of the load in their old groups and to the first new group
start, where their intervals end with CUT (R160, R130). -/
def Cdl.loadGsc (s : State) (g : Nat) (feed : List (Nat × List Smp)) : State :=
  let n := s.nextSample
  let s := s.runToSample n
  let nb := if s.frozen Trkg.p then [] else (List.range 512).filter (fun c => s.chState c == 2 && Ch.nb s c)
  let run (s : State) (c m from_ : Nat) : State :=
    Ch.runUntil s c m ((((feed.find? (fun x => x.1 == c)).map (·.2)).getD []).drop from_)
  let at0 := nb.map (fun c => (c, (s.chn c).pos))
  let s := s.each at0 (fun s x => run s x.1 n 0)
  let s := s.modCdl (fun c => { c with gscOfs := (g + 2 ^ 48 - n % 2 ^ 48) % 2 ^ 48, loaded := true, sent := [], smpNext := none })
  s.each at0 (fun s x =>
    let p := (s.chn x.1).pos
    Ch.endInterval (run s x.1 (s.groupStart p) (p - x.2)) x.1 true false)

/-- SET_GSC: the count is loaded at the first sample of the next frame (R160); a member of the array group re-references its band LOs at
each load (R161), and is READY again when they have locked. -/
def execSetGsc (f : CdlLoad) (s : State) : Out :=
  .next (Cdl.receive s 2 f.frame (fun s =>
    let s := Cdl.loadGsc s (f.frame.payload.toNat % 2 ^ 48) f.feed
    let lo := s.flag Cdl.b Cdl.CDL_CFG_ARRAY && decide (Cdl.pos s ≤ 3)
    let s := s.modCdl (fun c => { c with loRef := lo })
    let s := if Cdl.state s = 5 then Cdl.setState s 4 else s
    Cdl.settle (if lo then (s.gatedChange 4).gatedChange 5 else s)))

/-- PING: the module returns a PONG block with the turnaround it measured (R159, R165). -/
def execPing (f : CdlFrame) (turn : BitVec 24) (s : State) : Out :=
  .next (Cdl.receive s 3 f (fun s =>
    Cdl.block s 0xA4 (Cdl.pos s + 2 ^ 8 * (f.payload.toNat % 256) + 2 ^ 16 * turn.toNat) []))

/-- DLL_SET: the DLL code changes and the residuals are taken (R159, R163). -/
def execDllSet (f : CdlFrame) (s : State) : Out :=
  .next (Cdl.receive s 4 f (fun s =>
    let v := f.payload.toNat
    let resid := toSigned 16 (bitsOf v 32 16)
    let s := Cdl.moveDll s (toSigned 16 (v % 2 ^ 16))
    let s := s.putI Cdl.b Cdl.CDL_SKEW_SKEW resid
    let s := s.putI Cdl.b Cdl.CDL_SKEW_SKEW_H (toSigned 16 (bitsOf v 16 16) + resid)
    if Cdl.state s = 3 then Cdl.setState s 4 else s))

/-- A message arrives (R163, R177). -/
def Cdl.message (s : State) (src data : Nat) : State :=
  let s := if s.cdl.msgNew then s.put Cdl.b Cdl.MSG_RX_INFO_OVR 1 else s
  let s := (s.put Cdl.b Cdl.MSG_RX_DATA data).put Cdl.b Cdl.MSG_RX_INFO_SRC src
  (s.modCdl (fun c => { c with msgNew := true })).raise Cdl.p 4

/-- MSG_FRAME: a MSG frame from the Herald, or (`block`) a MSG block from a follower, which a follower forwards. -/
def execMsgFrame (f : CdlFrame) (block : Bool) (s : State) : Out :=
  if !block then .next (Cdl.receive s 5 f (fun s => Cdl.message s f.src.toNat f.payload.toNat))
  else if !Cdl.linked s ∨ s.get Cdl.b Cdl.CDL_STAT_LANE_LOCK ≠ 3 then .next s
  else if !f.ok then .next (s.count Cdl.b Cdl.BLK_ERR_COUNT)
  else if Cdl.isHerald s then .next (Cdl.message s f.src.toNat f.payload.toNat)
  else .next (Cdl.block s 0xA5 f.src.toNat [f.payload.toNat])

/-- LEAVE: the member is isolated; one that is isolated already leaves the upstream clock (R175). -/
def execLeave (f : CdlFrame) (s : State) : Out :=
  if Cdl.on s ∧ Cdl.role s = 2 ∧ s.cdl.isolated then
    .next (if f.ok ∧ (f.dest = 15 ∨ f.dest.toNat = f.src.toNat + f.hops.toNat + 1) then Cdl.isolate s true else s)
  else .next (Cdl.receive s 6 f (fun s => Cdl.isolate s false))

/-- SYNC_LOCK is lost: the member is isolated on the clock it has (R164, R175). -/
def Cdl.syncLoss (s : State) : State :=
  if !Cdl.on s ∨ Cdl.role s ≠ 2 ∨ !s.cdl.synced then s else Cdl.isolate s false

/-! ### Upstream lanes (R159, R165, R166) -/

/-- LANES_UP: lanes lock; with both DRX lanes the module can align its neighbour (R159, R165). -/
def execLanesUp (lock : LaneLock) (s : State) : Out :=
  if !Cdl.linked s then .next s
  else match lock with
    | .up => .next (if Cdl.state s = 2 then Cdl.setState s 3 else s)
    | .down lanes =>
      let old := s.get Cdl.b Cdl.CDL_STAT_LANE_LOCK
      let s := s.put Cdl.b Cdl.CDL_STAT_LANE_LOCK (old ||| lanes.toNat)
      .next (if old ≠ 3 ∧ Cdl.aligns s then Cdl.beginAlign s else s)

/-- Does the module take blocks from its DRX lanes? -/
def Cdl.lanes (s : State) : Bool := Cdl.linked s && s.get Cdl.b Cdl.CDL_STAT_LANE_LOCK == 3

/-- The 256 exchanges are complete: the averaged RTT, then DLL_SET and SET_GSC in their slots and ALIGN_DONE; the count is that of the
frame behind SET_GSC with the hop's whole periods (R159, R160).  The hop itself is outside the spec (DESIGN CHOICE, log entry 112). -/
def Cdl.aligned (s : State) (sum : Int) : State :=
  let s := s.modCdl (fun c => { c with rttSum := 0, rttCnt := 0, tracks := true })
  let s := s.put Cdl.b Cdl.CDL_RTT_RTT (roundDiv (sum * 3125) (256 * 128)).toNat
  let down2 := (s.get Cdl.b Cdl.CDL_RTT_RTT : Int) + s.getI Cdl.b Cdl.CDL_ASYM_ASYM
  let d := Cdl.src s + 1
  let s := Cdl.originate s 4 d (ofSigned 16 (Config.dllChange down2) + 2 ^ 16 * s.get Cdl.b Cdl.CDL_SKEW_SKEW_H +
    2 ^ 32 * ofSigned 16 (Config.dllResidual down2))
  let g := s.gsc (Cdl.freeSlot s) + 128 + Config.hopPeriods down2
  (Cdl.originate s 2 d (g % 2 ^ 48)).raise Cdl.p 3

/-- PONG: one RTT sample, in units of 1/64 tick; the 256th ends the alignment, and behind it one exchange a millisecond follows (R159). -/
def execPong (h : CdlHead) (seq : BitVec 8) (turn : BitVec 24) (elapsed : Nat) (s : State) : Out :=
  if !Cdl.lanes s then .next s
  else if !h.ok then .next (s.count Cdl.b Cdl.BLK_ERR_COUNT)
  else if h.pos.val ≠ Cdl.src s + 1 ∧ !Cdl.isHerald s then
    .next (Cdl.block s 0xA4 (h.pos.val + 2 ^ 8 * seq.toNat + 2 ^ 16 * turn.toNat) [])
  else if h.pos.val ≠ Cdl.src s + 1 ∨ seq.toNat ≠ (s.cdl.pingSeq + 255) % 256 ∨ s.cdl.tracks then .next s
  else
    let sum := s.cdl.rttSum + ((elapsed : Int) - turn.toNat)
    let n := s.cdl.rttCnt + 1
    if n = 256 then .next (Cdl.aligned s sum)
    else .next (Cdl.ping (s.modCdl (fun c => { c with rttSum := sum, rttCnt := n })))

/-- The members from position `p` down are lost: MEMBERS, MEMBER_LOST, and their elements (R175). -/
def Cdl.lose (s : State) (p : Nat) : State :=
  let s := Arr.changing s
  let s := s.put Cdl.b Cdl.CDL_STAT_MEMBERS (s.get Cdl.b Cdl.CDL_STAT_MEMBERS % 2 ^ p)
  let s := s.modCdl (fun c => { c with members := c.members.zipIdx.map (fun (m, i) =>
    if p ≤ i then ⟨0, false, false, 0⟩ else m) })
  let m := 2 ^ (2 * p)
  let s := Arr.setPresent s (s.get Arr.b Arr.ELEM_STAT_PRESENT % m) (s.get Arr.b Arr.ELEM_STAT_VALID % m)
  s.raise Cdl.p 2

/-- STATUS_BLOCK: the Herald updates the member; MEMBER_READY when it is READY; STATE 0 of a member that was READY is the report of
its loss (R161, R165, R175) (DESIGN CHOICE, log entry 112). -/
def execStatusBlock (h : CdlHead) (state : BitVec 3) (iso : Bool) (sends : Bool) (valid : BitVec 4) (s : State) : Out :=
  if !Cdl.lanes s then .next s
  else if !h.ok then .next (s.count Cdl.b Cdl.BLK_ERR_COUNT)
  else if !Cdl.isHerald s then
    .next (Cdl.block s 0xA3 (h.pos.val + 8 * state.toNat + 64 * b2n iso + 128 * b2n sends + 256 * valid.toNat) [])
  else
    let s := Arr.changing s
    let s := s.modCdl (fun c => { c with members := c.members.set h.pos.val ⟨state.toNat, iso, sends, valid.toNat⟩ })
    let m := s.get Cdl.b Cdl.CDL_STAT_MEMBERS
    if state.toNat = 5 ∧ !m.testBit h.pos.val then
      .next ((s.put Cdl.b Cdl.CDL_STAT_MEMBERS (m ||| 2 ^ h.pos.val)).raise Cdl.p 1)
    else if state.toNat = 0 ∧ h.pos.val ≠ 0 ∧ m.testBit h.pos.val then .next (Cdl.lose s h.pos.val)
    else .next s

/-- SAMPLE_FRAME: a Herald stores it for its release; one that arrives after its release is discarded (R169); a follower forwards it
whole (R166). -/
def execSampleFrame (h : CdlHead) (gsc : BitVec 48) (data : List (BitVec 8)) (s : State) : Out :=
  let bytes := (data.map (fun b => b.toNat)).take 256
  if !Cdl.lanes s then .next s
  else if !h.ok then .next (s.count Cdl.b Cdl.BLK_ERR_COUNT)
  else if !Cdl.isHerald s then
    .next (Cdl.block s 0xA2 (h.pos.val + 8 * gsc.toNat) ((List.range 32).map (fun k => leNat ((bytes.drop (8 * k)).take 8))))
  else if Cdl.passed s ((gsc.toNat + s.wget Arr.b Arr.ALIGN_DELAY_DELAY) % 2 ^ 48) then
    .next ((s.count Arr.b Arr.ELEM_LATE_COUNT).raise Arr.p 2)
  else
    -- beams and covariance windows that are formed later still read it
    let keep := s.arr.frames.filter (fun x => !Cdl.passed s ((x.2.1 + 2 ^ 24) % 2 ^ 48))
    .next { s with arr := { s.arr with frames := keep ++ [(h.pos.val, gsc.toNat, bytes)] } }

/-- Does the module send its samples: an array follower that is READY and not isolated (R157, R166)? -/
def Cdl.sends (s : State) : Bool :=
  Cdl.on s && Cdl.role s == 2 && Cdl.state s == 5 && s.flag Cdl.b Cdl.CDL_CFG_ARRAY && decide (1 ≤ Cdl.pos s ∧ Cdl.pos s ≤ 3)

/-- SAMPLE_FRAME_SEND: the next 64 samples of AH, AL, BH and BL, requantised, from a GSC multiple of 64; frames follow one another
without a gap (R166).  `rows` is what the analog side shows of the four chains at each sample. -/
def execSampleFrameSend (rows : List (List (Int × Int))) (s : State) : Out :=
  if !Cdl.sends s then .next s
  else
    let sh := s.wget Arr.b Arr.ARR_CTL_RQ_SHIFT
    let m := s.nextSample
    let n := match s.cdl.smpNext with
      | some k => if s.curSample < k + 8192 then k else m + (64 - s.gsc m % 64) % 64
      | none => m + (64 - s.gsc m % 64) % 64
    let s := s.runToSample (n + 63)
    let byte (r c : Nat) : Nat :=
      let x := s.chainSmp c (n + r) ((((rows[r]?).getD [])[c]?).getD (0, 0))
      ofSigned 4 (requant x.i sh) + 16 * ofSigned 4 (requant x.q sh)
    let word (r : Nat) : Nat := leNat ((List.range 4).map (byte r))
    .next ((Cdl.block s 0xA2 (Cdl.pos s + 8 * s.gsc n)
      ((List.range 32).map (fun k => word (2 * k) + 2 ^ 32 * word (2 * k + 1)))).modCdl (fun c => { c with smpNext := some (n + 64) }))

/-- STATUS_SEND: every 256 sample periods, here at the tick `due`; READY is reached here when the band LOs have locked (R165)
(DEDUCED, log entry 44). -/
def execStatusSend (due : BitVec 64) (s : State) : Out :=
  if !Cdl.linked s ∨ Cdl.role s ≠ 2 then .next s
  else
    let s := Cdl.settle (s.runTo due.toNat)
    .next (Cdl.block s 0xA3 (Cdl.pos s + 8 * Cdl.state s + 64 * b2n s.cdl.isolated + 128 * b2n (Cdl.sends s) +
      256 * Cdl.ownValid s) [])

/-- MEMBER_LOST: no STATUS in 3 periods, or lost block lock (R175): the Herald clears MEMBERS bits p to 7; another member reports the
loss upstream as a STATUS of p with STATE DOWN (DESIGN CHOICE, log entry 112). -/
def execMemberLost (pos : Fin 8) (s : State) : Out :=
  if !Cdl.on s ∨ pos.val = 0 then .next s
  else
    let s := if pos.val = Cdl.src s + 1 then
        (s.put Cdl.b Cdl.CDL_STAT_LANE_LOCK 0).modCdl (fun c => { c with tracks := false })
      else s
    .next (if Cdl.isHerald s then Cdl.lose s pos.val else Cdl.block s 0xA3 pos.val [])

/-! ### Commands and registers (R167, R177) -/

/-- EPOCH_ANNOUNCE: a Herald predicts the latching GSC of a latch action and sends EPOCH; one announced late is latched
by the Herald alone (R167). -/
def execEpochAnnounce (instant : BitVec 64) (s : State) : Out :=
  if !Cdl.isHerald s ∨ !s.flag Cdl.b Cdl.CDL_CFG_EPOCH_SHARE then .next s
  else if instant.toNat < s.now + 20480 then .next (s.count Cdl.b Cdl.EPOCH_LATE_COUNT)
  else
    let g := s.gsc (s.sampleAt (instant.toNat + 1))
    let s := Cdl.originate s 1 15 (g + 2 ^ 48 * (s.cdl.epochSeq % 2 ^ 16))
    let s := s.modCdl (fun c => { c with epochSeq := (c.epochSeq + 1) % 2 ^ 16,
                                         epochs := c.epochs ++ [(g, some instant.toNat)] })
    .next (s.countWrap Cdl.b Cdl.EPOCH_CNT_COUNT)

/-- MSG_SEND (R177). -/
def Cdl.msgSend (s : State) (req : Nat) : State :=
  if s.flag Cdl.b Cdl.MSG_CTL_TX_BUSY then s.logErr Cdl.p 0x42 (Cdl.b + 0x060) req
  else if Cdl.on s then s.put Cdl.b Cdl.MSG_CTL_TX_BUSY 1 else s

/-- MSG_TX_DONE: the message leaves as a frame (Herald) or a block (follower). -/
def execMsgTxDone (s : State) : Out :=
  if !s.flag Cdl.b Cdl.MSG_CTL_TX_BUSY ∨ !s.running .arr then .next s
  else
    let d := s.get Cdl.b Cdl.MSG_TX_DATA
    let s := if Cdl.isHerald s then Cdl.originate s 5 (s.get Cdl.b Cdl.MSG_CTL_DEST) d
      else Cdl.block s 0xA5 (Cdl.pos s) [d]
    .next ((s.put Cdl.b Cdl.MSG_CTL_TX_BUSY 0).raise Cdl.p 5)

/-- ALIGN: a Herald realigns every member, hop by hop: each member that is READY again aligns the next (R177). -/
def Cdl.align (s : State) (req : Nat) : State :=
  if !Cdl.isHerald s then s.logErr Cdl.p 0x43 (Cdl.b + 0x060) req
  else
    let s := (Arr.changing s).modCdl (fun c => { c with members := CdlSt.init.members })
    Cdl.beginAlign (s.put Cdl.b Cdl.CDL_STAT_MEMBERS 1)

/-- Special effects of a write to a CDL register. -/
def Cdl.write (s : State) (req off v : Nat) (store : State → State) : State :=
  let a := Cdl.b + off
  if off = 0x040 then
    -- a rejected value affects its own field only (R37); a value ROLE or ARRAY already has is no write of it (DEDUCED, log entry 65)
    let role := s.get Cdl.b Cdl.CDL_CFG_ROLE
    let array := s.get Cdl.b Cdl.CDL_CFG_ARRAY
    let t := store s
    let t := if s.en Cdl.p ∧ role ≠ v % 4 then (t.put Cdl.b Cdl.CDL_CFG_ROLE role).logErr Cdl.p 0x41 a req
      else if v % 4 = 3 then (t.put Cdl.b Cdl.CDL_CFG_ROLE role).logErr Cdl.p E.RANGE_REJECTED a req
      else t
    if s.en Cdl.p ∧ array ≠ b2n (v.testBit 5) then (t.put Cdl.b Cdl.CDL_CFG_ARRAY array).logErr Cdl.p 0x41 a req else t
  else if off = 0x060 then
    let s := if v.testBit 0 then Cdl.align s req else s
    let s := if v.testBit 1 then Cdl.isolate s s.cdl.isolated else s
    let s := if v.testBit 2 then Cdl.msgSend s req else s
    if v.testBit 3 then
      (((s.put Cdl.b Cdl.EPOCH_CNT_COUNT 0).put Cdl.b Cdl.EPOCH_LATE_COUNT 0).put Cdl.b Cdl.CRC_ERR_COUNT 0).put
        Cdl.b Cdl.BLK_ERR_COUNT 0
    else s
  else if off = 0x064 then
    let d := v % 16
    if (1 ≤ d ∧ d ≤ 7) ∨ d = 15 then store s else s.logErr Cdl.p E.RANGE_REJECTED a req
  else store s

/-- Computed registers of the CDL page: CDL_GSC, and what the CLK1 page shows of DLL_CDL. -/
def Cdl.read (s : State) (off : Nat) : Option Nat :=
  if off = 0x058 then some (s.gsc (s.nextSample - 1) % 2 ^ 32)
  else if off = 0x05C then some (s.gsc (s.nextSample - 1) / 2 ^ 32)
  else if off = 0x044 then some (putBits (s.regN (Cdl.b + off)) 16 1 (s.get (pg 0x009) Clk1.DLL_STAT_DLL_LOCKED))
  else if off = 0x054 then some (s.get (pg 0x009) Clk1.DLL_STAT_CODE)
  else none

/-- A read of MSG_RX: the message has been read (R177). -/
def Cdl.msgRead (s : State) : State := s.modCdl (fun c => { c with msgNew := false })

/-- BLOCK_STAT of the CDL page: LINKED, HERALD. -/
def Cdl.blockStat (s : State) : Nat := b2n (Cdl.state s == 5) + 2 * b2n (Cdl.role s == 1)

end Sys2Proof.Machine
end

