-- ==== Sys2Proof/Machine/CoreCtl.lean ====
section
/-! DEFINITION. The Thithigor cores' state and their CORE pages (spec/11 R263, R264, R275, R293 to R296). -/

namespace Sys2Proof.Machine

/-- Page of core `c`. -/
def Cpu.p (c : Nat) : Nat := 0x0C0 + c

/-- Register base of core `c`. -/
def Cpu.b (c : Nat) : Nat := pg (Cpu.p c)

/-- A core. -/
def State.core (s : State) (c : Nat) : CoreSt := s.cores[c]?.getD CoreSt.init

/-- Replace a core. -/
def State.setCore (s : State) (c : Nat) (k : CoreSt) : State := { s with cores := s.cores.setIfInBounds c k }

/-- Change a core. -/
def State.modCore (s : State) (c : Nat) (f : CoreSt → CoreSt) : State := s.setCore c (f (s.core c))

/-- CORE_STAT.STATE: 0 RESET, 1 RUN, 2 WAIT, 3 HALTED, 4 STOPPED, 5 DOUBLE (R293). -/
def Cpu.state (s : State) (c : Nat) : Nat := s.get (Cpu.b c) CoreP.CORE_STAT_STATE

/-- Enter a state. -/
def Cpu.setState (s : State) (c st : Nat) : State := s.put (Cpu.b c) CoreP.CORE_STAT_STATE st

/-- Enter HALTED with a cause; HALTED is raised. -/
def Cpu.halt (s : State) (c cause : Nat) : State :=
  ((Cpu.setState s c 3).put (Cpu.b c) CoreP.CORE_STAT_HALT_CAUSE cause).raise (Cpu.p c) 0

/-- Defined bits of a control register (R264, R275). -/
def Cpu.crMask (n : Nat) : Nat :=
  if n = 0 ∨ n = 3 then 0x3FF7737F else if n = 4 then 0x1FFFFF else if n = 6 then 0xFFFFFFC0 else 0xFFFFFFFF

/-- A control register. -/
def CoreSt.crN (k : CoreSt) (n : Nat) : Nat := (k.cr[n]?.getD 0).toNat

/-- Write a control register: undefined bits read 0. -/
def CoreSt.setCr (k : CoreSt) (n v : Nat) : CoreSt :=
  { k with cr := k.cr.setIfInBounds n (BitVec.ofNat 32 (v &&& Cpu.crMask n)) }

/-- SR bits. -/
def CoreSt.sr (k : CoreSt) (i : Nat) : Bool := (k.crN 0).testBit i

/-- Set a field of SR. -/
def CoreSt.setSr (k : CoreSt) (lo w v : Nat) : CoreSt := k.setCr 0 (putBits (k.crN 0) lo w v)

/-! ### Reset, start, stop -/

/-- Invalidate a core's instruction cache (R272). -/
def Cpu.clearIc (s : State) (c : Nat) : State := { s with icache := Tab.clearRange (256 * c) (256 * c + 256) s.icache }

/-- Invalidate a core's data cache. -/
def Cpu.clearDc (s : State) (c : Nat) : State := { s with dcache := Tab.clearRange (256 * c) (256 * c + 256) s.dcache }

/-- A core as SRST leaves it: R263's values, caches invalid, buffered stores discarded (R294). -/
def Cpu.reset (s : State) (c : Nat) : State := (Cpu.clearDc (Cpu.clearIc (s.setWb c []) c) c).setCore c CoreSt.init

/-- A core leaves RESET at an address: STARTED (R293). -/
def Cpu.startAt (s : State) (c pc : Nat) : State :=
  ((Cpu.setState s c 1).modCore c (fun k => { k with pc := BitVec.ofNat 32 pc })).raise (Cpu.p c) 3

/-- PAGE_CTL.EN goes to 0: the core stops (R294). -/
def Cpu.disable (s : State) (c : Nat) : State :=
  let st := Cpu.state s c
  if st = 4 then s else Cpu.setState ((s.drainAll c).modCore c (fun k => { k with left := st })) c 4

/-- PAGE_CTL.EN returns to 1. -/
def Cpu.enable (s : State) (c : Nat) : State := if Cpu.state s c = 4 then Cpu.setState s c (s.core c).left else s

/-- The core has stalled under FREEZE: HALT_CAUSE shows it while the core is not HALTED (DEDUCED, log entry 79). -/
def Cpu.freeze (s : State) (c : Nat) : State :=
  if Cpu.state s c = 1 ∨ Cpu.state s c = 2 then s.put (Cpu.b c) CoreP.CORE_STAT_HALT_CAUSE 6 else s

/-- The core resumes from FREEZE. -/
def Cpu.unfreeze (s : State) (c : Nat) : State :=
  if s.get (Cpu.b c) CoreP.CORE_STAT_HALT_CAUSE = 6 then s.put (Cpu.b c) CoreP.CORE_STAT_HALT_CAUSE 0 else s

/-! ### CORE_CTL (R293) -/

/-- START. -/
def Cpu.start (s : State) (req c : Nat) : State :=
  if !s.en (Cpu.p c) then s.logErr (Cpu.p c) 0x43 (Cpu.b c + 0x040) req
  else if Cpu.state s c = 0 then Cpu.startAt s c (2 * s.get (Cpu.b c) CoreP.START_PC_PC)
  else s

/-- HALT. -/
def Cpu.haltCmd (s : State) (req c : Nat) : State :=
  if !s.en (Cpu.p c) then s.logErr (Cpu.p c) 0x43 (Cpu.b c + 0x040) req
  else if Cpu.state s c = 1 ∨ Cpu.state s c = 2 then Cpu.halt s c 1
  else s

/-- RESUME. -/
def Cpu.resume (s : State) (req c : Nat) : State :=
  if Cpu.state s c = 3 then (Cpu.setState s c 1).put (Cpu.b c) CoreP.CORE_STAT_HALT_CAUSE 0
  else s.logErr (Cpu.p c) 0x41 (Cpu.b c + 0x040) req

/-- STEP: the instruction runs when the access is complete. -/
def Cpu.stepCmd (s : State) (req c : Nat) : State :=
  if !s.en (Cpu.p c) then s.logErr (Cpu.p c) 0x43 (Cpu.b c + 0x040) req
  else if Cpu.state s c = 3 then s.modCore c (fun k => { k with step := true })
  else s.logErr (Cpu.p c) 0x41 (Cpu.b c + 0x040) req

/-- May START_PC take this address (START_ADDR, R294)? -/
def Cpu.goodStart (a : Nat) : Bool :=
  a % 2 == 0 && (match rangeOf a with
    | .own | .rom | .sram | .flash => true
    | _ => false)

/-! ### Debug access (R296) -/

/-- May DBG_DATA be reached: HALTED and not frozen? -/
def Cpu.dbgOk (s : State) (c : Nat) : Bool := Cpu.state s c == 3 && !s.frozen (Cpu.p c)

/-- Is a DBG_SEL index defined? -/
def Cpu.dbgIndex (i : Nat) : Bool := decide (i ≤ 0x1A ∨ (0x20 ≤ i ∧ i ≤ 0x29))

/-- The state element an index selects. -/
def CoreSt.dbgGet (k : CoreSt) (i : Nat) : Nat :=
  if i < 0x10 then (k.a[i]?.getD 0).toNat
  else if i < 0x14 then (k.mb[i - 0x10]?.getD 0).toNat
  else if i < 0x18 then (k.ml[i - 0x14]?.getD 0).toNat
  else if i = 0x18 then k.pc.toNat
  else if i = 0x19 then k.acc0.toNat
  else if i = 0x1A then k.acc1.toNat
  else k.crN (i - 0x20)

/-- Set the state element an index selects. -/
def CoreSt.dbgSet (k : CoreSt) (i v : Nat) : CoreSt :=
  let w := BitVec.ofNat 32 v
  if i < 0x10 then { k with a := k.a.setIfInBounds i w }
  else if i < 0x14 then { k with mb := k.mb.setIfInBounds (i - 0x10) w }
  else if i < 0x18 then { k with ml := k.ml.setIfInBounds (i - 0x14) w }
  else if i = 0x18 then { k with pc := w }
  else if i = 0x19 then { k with acc0 := BitVec.ofNat 80 v }
  else if i = 0x1A then { k with acc1 := BitVec.ofNat 80 v }
  else k.setCr (i - 0x20) v

/-- The captured state element: 80 bits, of which 32-bit elements use the low word. -/
def Cpu.dbgValue (s : State) (c : Nat) : Nat := (s.core c).dbgGet (s.get (Cpu.b c) CoreP.DBG_SEL_INDEX)

/-- Special effects of a write to a CORE page. -/
def Cpu.write (s : State) (req c off v : Nat) (store : State → State) : State :=
  let p := Cpu.p c
  let b := Cpu.b c
  if off = 0x040 then
    let s := store s
    let s := if v.testBit 0 then Cpu.start s req c else s
    let s := if v.testBit 1 then Cpu.haltCmd s req c else s
    let s := if v.testBit 2 then Cpu.resume s req c else s
    if v.testBit 3 then Cpu.stepCmd s req c else s
  else if off = 0x048 then if Cpu.goodStart v then store s else s.logErr p 0x42 (b + off) req
  else if off = 0x050 then
    if Cpu.dbgIndex (v % 256) then store s else s.logErr p E.RANGE_REJECTED (b + off) req
  else if off = 0x054 ∨ off = 0x058 ∨ off = 0x05C then
    if !Cpu.dbgOk s c then s.logErr p 0x41 (b + off) req
    else
      let i := s.get b CoreP.DBG_SEL_INDEX
      let acc := i == 0x19 || i == 0x1A
      if off = 0x054 ∧ i = 0x18 ∧ v % 2 = 1 then s.logErr p E.RANGE_REJECTED (b + off) req
      else
        let s := store s
        if off = 0x054 ∧ !acc then s.modCore c (fun k => k.dbgSet i v)
        else if off = 0x05C ∧ acc then
          s.modCore c (fun k => k.dbgSet i (s.get b CoreP.DBG_DATA_DATA + 2 ^ 64 * (v % 2 ^ 16)))
        else s
  else if off = 0x0BC then
    if v.testBit 0 then s.each [0x0A0, 0x0A4, 0x0A8, 0x0AC, 0x0B0, 0x0B4, 0x0B8] (fun s o => s.setReg (b + o) 0) else s
  else store s

/-- Reads with effects of a CORE page: the DBG_DATA words capture the selected state; CYCLES counts core clocks, of which
the spec states no number for what a run executes (free, never falling). -/
def Cpu.read (s : State) (req c off : Nat) : Option (Nat × State) :=
  let b := Cpu.b c
  if off = 0x054 ∨ off = 0x058 ∨ off = 0x05C then
    if !Cpu.dbgOk s c then some (0, s.logErr (Cpu.p c) 0x41 (b + off) req)
    else
      let v := Cpu.dbgValue s c
      if off = 0x054 then
        let capt := Tab.ins (Tab.ins s.capt (b + 0x058) (BitVec.ofNat 32 (v / 2 ^ 32))) (b + 0x05C) (BitVec.ofNat 32 (v / 2 ^ 64))
        some (v % 2 ^ 32, { s with capt := capt })
      else
        match s.capt.find? (fun x => x.1 == b + off) with
        | some x => some (x.2.toNat, s)
        | none => some (v / 2 ^ (if off = 0x058 then 32 else 64) % 2 ^ 32, s)
  else if off = 0x044 then some (bitsOf (s.regN (b + off)) 0 8 + 256 * b2n (decide (Island.core ∈ s.onBackup)), s)
  else none

/-- Core clocks pass before a read of CYCLES (free; none while the clock is gated off) (DESIGN CHOICE, log entry 87). -/
def Cpu.clocks (s : State) (c : Nat) : State :=
  if Cpu.state s c = 4 then s
  else
    let (d, s) := s.draw (2 ^ 20)
    s.put (Cpu.b c) CoreP.CYCLES_COUNT (s.get (Cpu.b c) CoreP.CYCLES_COUNT + d)

end Sys2Proof.Machine
end

