-- ==== Sys2Proof/Machine/Dma.lean ====
section
/-! DEFINITION. DMA channels: sets, triggers, hand-over, completion, feed lists, aborts (spec/13 R312 to R331).  Bursts are
in DmaRun.lean, beside the register accesses they may make. -/

namespace Sys2Proof.Machine

/-- Page and base of the DMA page; register base of channel `n`. -/
def Dma.p : Nat := 0x080
def Dma.b : Nat := pg 0x080
def Dma.cb (n : Nat) : Nat := 0x81000 + 0x80 * n

/-- A channel beside its registers. -/
def Dma.ch (s : State) (n : Nat) : DmaCh := s.dma[n]?.getD ⟨0, 0, none, none⟩

/-- Replace it. -/
def Dma.set (s : State) (n : Nat) (c : DmaCh) : State := { s with dma := s.dma.setIfInBounds n c }

/-- CH_STAT.STATE: 0 IDLE, 1 ARMED, 2 RUNNING, 3 FEEDING, 4 ABORTING. -/
def Dma.st (s : State) (n : Nat) : Nat := s.get (Dma.cb n) DmaC.CH_STAT_STATE

/-- Enter a state. -/
def Dma.setSt (s : State) (n st : Nat) : State := s.put (Dma.cb n) DmaC.CH_STAT_STATE st

/-- An event of a channel: 0 DONE, 1 ERR, 2 ABORTED, 3 TRIG_MISS, 4 COMMIT_DONE. -/
def Dma.raise (s : State) (n bit : Nat) : State :=
  s.put (Dma.cb n) DmaC.CH_IRQ_RAW_EVT (s.get (Dma.cb n) DmaC.CH_IRQ_RAW_EVT ||| 2 ^ bit)

/-! ### The ACTIVE set (R312) -/

/-- MODE, element size, KIND, TSRC, PRIO of the ACTIVE set. -/
def Dma.ctl (s : State) (n : Nat) : Nat := s.wget (Dma.cb n) DmaC.CTL
def Dma.mode (s : State) (n : Nat) : Nat := Dma.ctl s n % 4
def Dma.size (s : State) (n : Nat) : Nat := 2 ^ bitsOf (Dma.ctl s n) 2 2
def Dma.kind (s : State) (n : Nat) : Nat := s.wget (Dma.cb n) DmaC.TRIG % 4
def Dma.tsrc (s : State) (n : Nat) : Nat := bitsOf (s.wget (Dma.cb n) DmaC.TRIG) 8 6
def Dma.prio (s : State) (n : Nat) : Nat := bitsOf (Dma.ctl s n) 8 2
def Dma.burst (s : State) (n : Nat) : Nat := bitsOf (s.wget (Dma.cb n) DmaC.TRIG) 16 9

/-- Bytes per row and in the whole set. -/
def Dma.len (s : State) (n : Nat) : Nat := s.wget (Dma.cb n) DmaC.LEN
def Dma.total (s : State) (n : Nat) : Nat := Dma.len s n * s.wget (Dma.cb n) DmaC.ROWS

/-- Is the source read? -/
def Dma.readsSrc (s : State) (n : Nat) : Bool :=
  Dma.mode s n == 0 || (Dma.mode s n == 2 && !(Dma.ctl s n).testBit 6)

/-- Source and destination address of the element at byte `pos` of the set (R313). -/
def Dma.srcAt (s : State) (n pos : Nat) : Nat :=
  let l := max (Dma.len s n) 1
  let o : Nat := if (Dma.ctl s n).testBit 4 then 0 else pos % l
  ((s.wget (Dma.cb n) DmaC.SRC + o : Nat) + (pos / l : Nat) * s.wgetI (Dma.cb n) DmaC.SPITCH).toNat % 2 ^ 32
def Dma.dstAt (s : State) (n pos : Nat) : Nat :=
  let l := max (Dma.len s n) 1
  let o : Nat := if (Dma.ctl s n).testBit 5 then 0 else pos % l
  ((s.wget (Dma.cb n) DmaC.DST + o : Nat) + (pos / l : Nat) * s.wgetI (Dma.cb n) DmaC.DPITCH).toNat % 2 ^ 32

/-- Does a span touch the register window? -/
def Dma.touches (a n : Nat) : Bool := decide (a < 0x40120000 ∧ 0x40000000 < a + n)

/-- Does a row start at an element of the register window (R315)? -/
def Dma.inRegs (s : State) (n : Nat) : Bool :=
  let l := Dma.len s n
  (List.range (s.wget (Dma.cb n) DmaC.ROWS)).any (fun r =>
    Dma.touches (Dma.dstAt s n (r * l)) (if (Dma.ctl s n).testBit 5 then Dma.size s n else l) ||
    (Dma.readsSrc s n && Dma.touches (Dma.srcAt s n (r * l)) (if (Dma.ctl s n).testBit 4 then Dma.size s n else l)))

/-- Is the ACTIVE set valid (R315)? -/
def Dma.valid (s : State) (n : Nat) : Bool :=
  let b := Dma.cb n
  let sz := Dma.size s n
  let len := Dma.len s n
  let rows := s.wget b DmaC.ROWS
  let trig := s.wget b DmaC.TRIG
  let al (v : Nat) : Bool := v % sz == 0
  Dma.mode s n != 3 && decide (1 ≤ len ∧ len ≤ 16777216 ∧ 1 ≤ rows ∧ rows ≤ 65536 ∧ len * rows ≤ 16777216) &&
  (!Dma.readsSrc s n || al (s.wget b DmaC.SRC)) && al (s.wget b DmaC.DST) && al len && al (s.wget b DmaC.SPITCH) &&
  al (s.wget b DmaC.DPITCH) && (4 ≤ sz || !Dma.inRegs s n) &&
  (Dma.kind s n != 2 || (decide (1 ≤ Dma.burst s n ∧ Dma.burst s n ≤ 256) && al (Dma.burst s n) && decide (Dma.tsrc s n ≤ 31))) &&
  !(Dma.kind s n == 3 && Dma.tsrc s n == n) &&
  s.wget b DmaC.WB % 32 == 0 && s.wget b DmaC.FEED % 64 == 0 &&
  Dma.ctl s n / 2 ^ 11 == 0 && !(Dma.ctl s n).testBit 7 && bitsOf trig 2 6 == 0 && bitsOf trig 14 2 == 0 &&
  trig / 2 ^ 25 == 0 && s.wget b DmaC.TAG / 2 ^ 16 == 0

/-- CUR_SRC, CUR_DST and CUR_ROW follow the bytes moved. -/
def Dma.cur (s : State) (n : Nat) : State :=
  let pos := (Dma.ch s n).pos
  let b := Dma.cb n
  ((s.put b DmaC.CUR_SRC_ADDR (Dma.srcAt s n pos)).put b DmaC.CUR_DST_ADDR (Dma.dstAt s n pos)).put b DmaC.CUR_ROW_ROW
    (pos / max (Dma.len s n) 1)

/-! ### Completion (R323 to R325) -/

/-- Set status codes of R323. -/
def Dma.DONE : Nat := 0x01
def Dma.MISMATCH : Nat := 0x02
def Dma.BAD : Nat := 0x10
def Dma.CFG : Nat := 0x11
def Dma.ABORTED : Nat := 0x12
def Dma.FEED_ERR : Nat := 0x13

/-- CHAIN triggers of channel `m` (R317) (DEDUCED, log entry 62). -/
def Dma.chain (s : State) (m : Nat) : State :=
  s.each (List.range 64) (fun s n =>
    if n = m ∨ Dma.kind s n ≠ 3 ∨ Dma.tsrc s n ≠ m then s
    else if Dma.st s n = 1 then Dma.setSt s n 2
    else if Dma.st s n = 2 ∨ Dma.st s n = 4 then Dma.raise (s.count (Dma.cb n) DmaC.MISSED_COUNT) n 3
    else s)

/-- Steps 1 to 5 of R323. -/
def Dma.finish (s : State) (n status fault : Nat) : State :=
  let b := Dma.cb n
  let c := Dma.ch s n
  let left := Dma.total s n - c.pos
  let ofs := c.ofs.getD 0xFFFFFFFF
  let wb := s.wget b DmaC.WB
  let s := if wb = 0 then s
    else match s.devWrite wb (recBytes [(1, status), (1, n), (2, s.wget b DmaC.TAG), (4, left), (4, fault), (4, ofs), (4, c.mis),
        (4, 0), (8, replica 8 s.now)]) with
      | (s, true) => s
      | (s, false) => (Dma.raise s n 1).logErr Dma.p 0x42 (b + 0x044) 11
  let s := ((s.put b DmaC.RESIDUE_BYTES left).put b DmaC.FAULT_ADDR_ADDR fault).put b DmaC.MISMATCH_OFS_OFS ofs
  let s := (s.put b DmaC.MISMATCH_CNT_COUNT c.mis).put b DmaC.CH_STAT_STATUS status
  let s := s.countWrap b DmaC.CH_STAT_SETS
  let s := if (status = 1 ∨ status = 2) ∧ (Dma.ctl s n).testBit 10 then Dma.raise s n 0 else s
  let s := if status = 0x10 ∨ status = 0x11 then Dma.raise s n 1 else s
  let s := if status = 0x12 then Dma.raise s n 2 else s
  let s := Dma.set s n { c with fin := none }
  if status = 0x12 then s else Dma.chain s n

/-- With no COMMIT armed: follow the feed, or IDLE (R321). -/
def Dma.settle (s : State) (n : Nat) : State := Dma.setSt s n (if s.wget (Dma.cb n) DmaC.FEED = 0 then 0 else 3)

/-- A set is taken with generation `gen`: it is armed, started, or invalid and completes with CFG; an invalid one goes on with
`after`, step 6 of R323 (R315, R317, R320). -/
def Dma.take (after : State → State) (s : State) (n gen : Nat) (bad : Bool) : State :=
  let b := Dma.cb n
  let s := (s.copyShadow b (b + 0x34)).put b DmaC.COMMIT_TAKEN_GEN gen
  let s := Dma.raise (Dma.set s n ⟨0, 0, none, none⟩) n 4
  if bad ∨ !Dma.valid s n then after (Dma.finish s n Dma.CFG 0)
  else Dma.cur (Dma.setSt s n (if Dma.kind s n = 0 then 2 else 1)) n

/-- Take the armed COMMIT of a channel, or settle (R320, step 6 of R323). -/
def Dma.next (s : State) (n : Nat) : State :=
  let key := Dma.cb n + 0x048
  match s.armedAt key with
  | some c =>
    if s.frozen Dma.p then Dma.settle s n
    else Dma.take (fun s => Dma.settle s n) ((s.disarm key).put (Dma.cb n) DmaC.CH_STAT_COMMIT_PEND 0) n c.gen false
  | none => Dma.settle s n

/-- A fed set is taken; where it is invalid, a COMMIT armed meanwhile is the next hand-over (R321, R323). -/
def Dma.taken (s : State) (n gen : Nat) (bad : Bool) : State := Dma.take (fun s => Dma.next s n) s n gen bad

/-- The hand-over of an IDLE channel (R320, R330). -/
def Dma.handOver (s : State) (n : Nat) : State :=
  if Dma.st s n ≠ 0 ∨ s.frozen Dma.p ∨ !s.running .fabric ∨ (s.armedAt (Dma.cb n + 0x048)).isNone then s else Dma.next s n

/-- A write of the channel's COMMIT register (R320). -/
def Dma.arm (s : State) (req n gen : Nat) : State :=
  let s' := s.arm req Dma.p (Dma.cb n + 0x048) gen
  if gen % 2 ^ 16 = 0 then s' else s'.put (Dma.cb n) DmaC.CH_STAT_COMMIT_PEND 1

/-- Can the engine act: enabled, not frozen, its island running? (DEDUCED, log entry 63) -/
def Dma.live (s : State) : Bool := s.en Dma.p && !s.frozen Dma.p && s.running .fabric

/-- SET_COMPLETE: the data accesses of the channel's set have been acknowledged (R323). -/
def execSetComplete (chan : Fin 64) (s : State) : Out :=
  let n := chan.val
  match (Dma.ch s n).fin with
  | none => .next s
  | some (status, fault) =>
    if Dma.st s n ≠ 2 ∨ !Dma.live s then .next s else .next (Dma.next (Dma.finish s n status fault) n)

/-! ### Feed lists (R321) -/

/-- The fetch of the next set into SHADOW: the bytes read, or a bus error. -/
def Dma.fetch (s : State) (n : Nat) : State × Option (List Nat) :=
  let (s, r) := s.devRead (s.wget (Dma.cb n) DmaC.FEED) 64
  match r with
  | none => (s, none)
  | some l => (s.each (List.range 13) (fun s i => s.setReg (Dma.cb n + 4 * i) (leNat ((l.drop (4 * i)).take 4))), some l)

/-- The list ends with FEED_ERR. -/
def Dma.feedErr (s : State) (n : Nat) : State :=
  Dma.setSt (Dma.raise (s.put (Dma.cb n) DmaC.CH_STAT_STATUS Dma.FEED_ERR) n 1) n 0

/-- FEED_FETCH: the fetch of a FEEDING channel completes; one from the flash window waits for the flash's clock (R27). -/
def execFeedFetch (chan : Fin 64) (s : State) : Out :=
  let n := chan.val
  if Dma.st s n ≠ 3 ∨ !Dma.live s ∨ s.flashWaits (s.wget (Dma.cb n) DmaC.FEED) then .next s
  else
    match Dma.fetch s n with
    | (s, none) => .next (Dma.feedErr s n)
    | (s, some l) =>
      let tag := leNat ((l.drop 0x30).take 2)
      .next (if tag = 0 then Dma.feedErr s n else Dma.taken s n tag ((l.drop 0x34).any (· ≠ 0)))

/-! ### Triggers and aborts (R317, R326, R330) -/

/-- A START trigger reaches a channel. -/
def Dma.start (s : State) (n : Nat) : State :=
  if Dma.st s n = 1 ∧ Dma.kind s n = 1 then Dma.setSt s n 2
  else Dma.raise (s.count (Dma.cb n) DmaC.MISSED_COUNT) n 3

/-- CH_CMD.START. -/
def Dma.startCmd (s : State) (req n : Nat) : State :=
  if s.frozen Dma.p then s.logErr Dma.p 0x41 (Dma.cb n + 0x040) req
  else if !s.en Dma.p then s else Dma.start s n

/-- DMA_START: the next DMA_START action dispatched, the one of `fire` and channel ARG[5:0]; a stalled fabric completes it on resume (R27, R201).
Actions of one instant for one channel are one trigger (R317). -/
def execDmaStart (fire : BitVec 64) (chan : Fin 64) (s : State) : Out :=
  match s.takeAct (fun x => x.act == 7) (fun x => x.fire == fire.toNat && x.arg % 64 == chan.val) with
  | none => .next s
  | some (x, s) =>
    let s := { s with acts := s.acts.filter (fun y => !(y.act == 7 && y.fire == x.fire && y.arg % 64 == x.arg % 64)) }
    let s := s.runTo x.fire
    if s.isReset .fabric ∨ !s.en Dma.p then .next s
    else if s.frozen Dma.p then .next (s.logErr Dma.p E.FROZEN_ACTION Dma.b 8)
    else .next (Dma.start s (x.arg % 64))

/-- Has the channel issued an access of a burst that its page has not answered? -/
def Dma.waits (s : State) (n : Nat) : Bool := s.held.any (fun h => h.req == 13 && h.val == n)

/-- The end of an abort (R326): status ABORTED with the record and the residue; out of FEEDING (`fin` none) the fetch fills SHADOW and
STATUS reads ABORTED.  The channel is IDLE and its COMMIT disarmed. -/
def Dma.abortEnd (s : State) (n : Nat) : State :=
  let s := if (Dma.ch s n).fin.isNone then ((Dma.fetch s n).1).put (Dma.cb n) DmaC.CH_STAT_STATUS Dma.ABORTED
    else Dma.finish s n Dma.ABORTED 0
  Dma.setSt ((s.disarm (Dma.cb n + 0x048)).put (Dma.cb n) DmaC.CH_STAT_COMMIT_PEND 0) n 0

/-- ABORT_ALL ends once every channel is IDLE: every SHADOW field returns to reset (R326). -/
def Dma.cleared (s : State) : State :=
  if s.dmaClear ∧ (List.range 64).all (fun n => Dma.st s n == 0) then
    let s := s.each (List.range 64) (fun s n => { s with regs := Tab.clearRange (Dma.cb n) (Dma.cb n + 0x34) s.regs })
    { s.raise Dma.p 0 with dmaClear := false }
  else s

/-- Aborts that can end: no access of theirs is outstanding and the engine, which writes their records, is not frozen (R326, R330;
DEDUCED, log entry 62). -/
def Dma.endAborts (s : State) : State :=
  if s.frozen Dma.p then s
  else Dma.cleared (s.each (List.range 64) (fun s n => if Dma.st s n = 4 ∧ !Dma.waits s n then Dma.abortEnd s n else s))

/-- ABORT reaches a channel, which is ABORTING until the access it has issued is answered (R326). -/
def Dma.abortCh (s : State) (n : Nat) : State :=
  let st := Dma.st s n
  if st = 0 ∨ st = 4 then s
  else Dma.setSt (if st = 3 then s else Dma.set s n { Dma.ch s n with fin := some (Dma.ABORTED, 0) }) n 4

/-- CH_CMD.ABORT. -/
def Dma.abort (s : State) (n : Nat) : State := Dma.endAborts (Dma.abortCh s n)

/-- DMA_CTL.ABORT_ALL. -/
def Dma.abortAll (s : State) : State := Dma.endAborts { s.each (List.range 64) Dma.abortCh with dmaClear := true }

/-- An access of a channel's burst ends with a bus error (R28, R325); a channel that is ABORTING ends then. -/
def Dma.failed (s : State) (n addr : Nat) : State :=
  if Dma.st s n = 4 then Dma.endAborts s else Dma.set s n { Dma.ch s n with fin := some (Dma.BAD, addr) }

/-- SRST and a fabric restart end every set without a record (R330). -/
def Dma.reset (s : State) : State :=
  let s := s.each (List.range 64) (fun s n => s.disarm (Dma.cb n + 0x048))
  { s with dma := Vector.replicate 64 ⟨0, 0, none, none⟩, dmaLast := 63, dmaClear := false,
           held := s.held.filter (fun h => decide (h.req ≠ 13)) }

/-! ### Registers -/

/-- Special effects of a write to the DMA page or a channel's registers at window offset `a`. -/
def Dma.write (s : State) (req a v : Nat) (store : State → State) : State :=
  if a = Dma.b + 0x040 then if v.testBit 0 then Dma.abortAll s else s
  else if a < 0x81000 then store s
  else
    let n := (a - 0x81000) / 0x80
    let o := a % 0x80
    if o = 0x040 then
      let s := if v.testBit 0 then Dma.startCmd s req n else s
      if v.testBit 1 then Dma.abort s n else s
    else if o = 0x048 then Dma.arm s req n v
    else if o = 0x078 then
      s.put (Dma.cb n) DmaC.CH_IRQ_RAW_EVT ((s.get (Dma.cb n) DmaC.CH_IRQ_RAW_EVT) &&& (31 - v % 32))
    else store s

/-- Is a channel's interrupt source asserted (R332, R35)? -/
def Dma.irq (s : State) (n : Nat) : Bool :=
  s.get (Dma.cb n) DmaC.CH_IRQ_RAW_EVT &&& s.get (Dma.cb n) DmaC.CH_IRQ_EN_EN != 0

/-- Computed registers of the DMA page but REQ_STAT. -/
def Dma.read (s : State) (off : Nat) : Option Nat :=
  let bits (k : Nat) (f : Nat → Bool) : Nat := ((List.range 32).map (fun j => b2n (f (32 * k + j)) * 2 ^ j)).sum
  let busy (n : Nat) : Bool := Dma.st s n != 0
  if off = 0x044 then some ((List.range 64).filter busy).length
  else if off = 0x048 ∨ off = 0x04C then some (bits ((off - 0x048) / 4) busy)
  else if off = 0x050 ∨ off = 0x054 then some (bits ((off - 0x050) / 4) (Dma.irq s))
  else none

/-- BLOCK_STAT: ANY_RUNNING. -/
def Dma.blockStat (s : State) : Nat := b2n ((List.range 64).any (fun n => decide (2 ≤ Dma.st s n)))

end Sys2Proof.Machine
end

