-- ==== Sys2Proof/Machine/Exc.lean ====
section
/-! DEFINITION. Taking an exception or an interrupt, the double fault and the return (spec/11 R283 to R290). -/

namespace Sys2Proof.Machine

/-- An exception as R283 describes it: code, bits [31:8] of ECAUSE, EADDR. -/
structure Exc where
  code  : Nat
  info  : Nat
  eaddr : Nat
  deriving DecidableEq, Repr

/-- An exception without further information. -/
def Exc.plain (code eaddr : Nat) : Exc := ⟨code, 0, eaddr⟩

/-- The access at which core `c`'s instruction waits is over. -/
def Cpu.unhold (s : State) (c : Nat) : State := { s with held := s.held.filter (fun h => h.req ≠ 16 + c) }

/-- Entry (R284): ESR (its RA tells a repeated instruction), EPC, ECAUSE, EADDR; EXL set, RA cleared; the vector
(DEDUCED, log entry 81). -/
def CoreSt.enter (k : CoreSt) (e : Exc) (epc vector : Nat) (ra : Bool) : CoreSt :=
  let sr := k.crN 0
  let k := k.setCr 3 (putBits sr 6 1 (b2n ra))
  let k := ((k.setCr 2 epc).setCr 4 (e.code + 256 * e.info)).setCr 5 e.eaddr
  let k := k.setCr 0 (putBits (putBits sr 9 1 1) 6 1 0)
  { k with pc := BitVec.ofNat 32 (k.crN 6 + vector), rep := false }

/-- A synchronous exception while EXL is 1 (R287): the core stops in DOUBLE. -/
def Cpu.double (s : State) (c : Nat) (e : Exc) (pc : Nat) : State :=
  let b := Cpu.b c
  let s := ((Cpu.setState s c 5).put b CoreP.CORE_STAT_HALT_CAUSE 7).put b CoreP.CORE_FAULT_CAUSE e.code
  let s := ((s.put b CoreP.DBL_ADDR_ADDR e.eaddr).put b CoreP.DBL_PC_PC pc).raise (Cpu.p c) 1
  (s.drainAll c).fault 0x0C c e.code pc

/-- Core `c` takes a synchronous exception: `pc` is the instruction's address, `epc` what EPC holds, `ra` whether the instruction
is repeated with iterations left (R284, R286, R287). -/
def Cpu.except (s : State) (c : Nat) (e : Exc) (pc epc : Nat) (ra : Bool) : State :=
  let s := Cpu.unhold s c
  if (s.core c).sr 9 then Cpu.double s c e pc
  else s.modCore c (fun k => k.enter e epc 0 ra)

/-- An exception with EPC at the instruction at PC. -/
def Cpu.raise (s : State) (c : Nat) (e : Exc) : State :=
  let k := s.core c
  Cpu.except s c e k.pc.toNat k.pc.toNat k.rep

/-- Core `c` takes an interrupt of source `n` and priority `prio` (R284, R289). -/
def Cpu.interrupt (s : State) (c n prio : Nat) : State :=
  s.modCore c (fun k => (k.enter ⟨0x20, n, 0⟩ k.pc.toNat 0x40 k.rep).setSr 12 3 prio)

/-- RTE (R288): SR from ESR, PC from EPC; a repeat goes on when ESR.RA is 1. -/
def CoreSt.rte (k : CoreSt) : CoreSt :=
  let ra := (k.crN 3).testBit 6
  let k := k.setCr 0 (k.crN 3)
  { k with pc := BitVec.ofNat 32 (k.crN 2 / 2 * 2), rep := ra }

end Sys2Proof.Machine
end

