-- ==== Sys2Proof/Machine/Field.lean ====
section
/-! DEFINITION. FIFOs and registers of the host SPI target, CAN controllers, UARTs, I2C controller and GPIO (spec/18
R404 to R429); SPI frames are in SpiFrame.lean. -/

namespace Sys2Proof.Machine

def Spi.p : Nat := 0x0B0
def Spi.b : Nat := pg 0x0B0
def Can.p (n : Nat) : Nat := 0x0B1 + n
def Can.b (n : Nat) : Nat := pg (0x0B1 + n)
def Uart.p (n : Nat) : Nat := 0x0B3 + n
def Uart.b (n : Nat) : Nat := pg (0x0B3 + n)
def I2c.p : Nat := 0x0B6
def I2c.b : Nat := pg 0x0B6
def Gpio.p : Nat := 0x0B7
def Gpio.b : Nat := pg 0x0B7

/-! ### GPIO (R428, R429) -/

/-- Does pin `n` take its alternate function? -/
def Gpio.alt (s : State) (n : Nat) : Bool := s.flag (Gpio.b + 4 * n) Gpio.PIN_CFG_ALT

/-- Filtered level of pin `n`. -/
def Gpio.level (s : State) (n : Nat) : Bool := (s.get Gpio.b Gpio.GPIO_IN_IN).testBit n

/-- Level interrupts set their bits again while the level holds. -/
def Gpio.levels (s : State) : State :=
  s.each (List.range 16) (fun s n =>
    let m := s.get (Gpio.b + 4 * n) Gpio.PIN_CFG_IRQ_MODE
    s.raiseIf ((m == 4 && Gpio.level s n) || (m == 5 && !Gpio.level s n)) Gpio.p n)

/-- GPIO_INPUT_CHANGE: the filtered level of a pin. -/
def execGpioInputChange (pin : Fin 16) (high : Bool) (s : State) : Out :=
  let n := pin.val
  if !s.running .fabric ∨ Gpio.level s n = high then .next s
  else
    let m := s.get (Gpio.b + 4 * n) Gpio.PIN_CFG_IRQ_MODE
    let s := s.putB Gpio.b ⟨Gpio.GPIO_IN_IN.off, n, 1⟩ high
    let s := s.raiseIf (m == 3 || (m == 1 && high) || (m == 2 && !high)) Gpio.p n
    .next (Gpio.levels s)

/-- CAN0_STB, CAN1_STB: high while the controller is in CONFIG or BUS_OFF. -/
def Can.stb (s : State) (n : Nat) : Bool :=
  let st := s.get (Can.b n) Can.CAN_STAT_STATE
  st == 0 || st == 3

/-- What the module drives on GPIO pin `n`: `none` for nothing. -/
def Gpio.drive (s : State) (n : Nat) : Option Bool :=
  if Gpio.alt s n then
    if n = 4 then some (!s.flag (Uart.b 1) Uart.UART_STAT_RTS) else if n = 6 then some (!s.flag (Uart.b 2) Uart.UART_STAT_RTS)
    else if n = 12 then some (Can.stb s 0) else if n = 13 then some (Can.stb s 1) else none
  else
    let out := (s.get Gpio.b Gpio.GPIO_OUT_OUT).testBit n
    if !(s.get Gpio.b Gpio.GPIO_OE_OE).testBit n ∨ (out ∧ s.flag (Gpio.b + 4 * n) Gpio.PIN_CFG_OD) then none else some out

/-- Special effects of a write to the GPIO page. -/
def Gpio.write (s : State) (req off v : Nat) (store : State → State) : State :=
  let out := s.get Gpio.b Gpio.GPIO_OUT_OUT
  let m := v % 2 ^ 16
  let s :=
    if off = 0x048 then s.put Gpio.b Gpio.GPIO_OUT_OUT (out ||| m)
    else if off = 0x04C then s.put Gpio.b Gpio.GPIO_OUT_OUT (out &&& (0xFFFF - m))
    else if off = 0x050 then s.put Gpio.b Gpio.GPIO_OUT_OUT (out ^^^ m)
    else if 0x100 ≤ off ∧ off < 0x140 ∧ v.testBit 8 ∧ (off - 0x100) / 4 ∉ [4, 5, 6, 7, 12, 13] then
      -- NO_ALT rejects ALT only (R37)
      let w := Gpio.b + off - 0x100
      ((store s).put w Gpio.PIN_CFG_ALT (s.get w Gpio.PIN_CFG_ALT)).logErr Gpio.p 0x41 (Gpio.b + off) req
    else store s
  Gpio.levels s

/-! ### Host SPI target: FIFOs and doorbells (R407, R413, R415) -/

/-- Change the SPI target beside its registers. -/
def State.modSpi (s : State) (f : SpiSt → SpiSt) : State := { s with spi := f s.spi }

/-- FIFO_STAT and watermarks follow the FIFOs. -/
def Spi.levels (s : State) : State :=
  (s.put Spi.b Spi.FIFO_STAT_RX_LEVEL s.spi.rxf.length).put Spi.b Spi.FIFO_STAT_TX_LEVEL s.spi.txf.length

/-- Are the receive and transmit request lines asserted (R407)? -/
def Spi.rxReq (s : State) : Bool := s.en Spi.p && decide (s.get Spi.b Spi.HOST_CFG_RX_DREQ ≤ s.spi.rxf.length)
def Spi.txReq (s : State) : Bool := s.en Spi.p && decide (s.get Spi.b Spi.HOST_CFG_TX_DREQ + s.spi.txf.length ≤ 256)

/-- HOST_IRQ_N is low. -/
def Spi.hostIrq (s : State) : Bool := (s.get Spi.b Spi.HOST_DB_DB &&& s.get Spi.b Spi.HOST_MASK_MASK) != 0

/-- A read of an SPI register with an effect: value and state. -/
def Spi.read (s : State) (req off : Nat) : Option (Nat × State) :=
  if off = 0x05C then
    match s.spi.rxf with
    | [] => some (0, s.logErr Spi.p 0x41 (Spi.b + off) req)
    | w :: t => some (w, Spi.levels (s.modSpi (fun x => { x with rxf := t })))
  else if off = 0x060 then some (0, s)
  else none

/-- Special effects of a write to the SPI page. -/
def Spi.write (s : State) (req off v : Nat) (store : State → State) : State :=
  if off = 0x050 then s.put Spi.b Spi.HOST_DB_DB (s.get Spi.b Spi.HOST_DB_DB ||| v % 2 ^ 16)
  else if off = 0x060 then
    if 256 ≤ s.spi.txf.length then s.logErr Spi.p 0x42 (Spi.b + off) req
    else Spi.levels (s.modSpi (fun x => { x with txf := x.txf ++ [v] }))
  else if off = 0x068 then
    let s := s.modSpi (fun x => { x with rxf := if v.testBit 0 then [] else x.rxf, txf := if v.testBit 1 then [] else x.txf })
    let s := Spi.levels s
    s.raiseIf (v.testBit 1 && Spi.txReq s) Spi.p 4
  else store s

/-- Guard 21 times out (R414; called by GUARD_TIMEOUT). -/
def Spi.timeout (s : State) : State :=
  ((s.modSpi (fun x => { x with deaf := true })).put Spi.b Spi.HOST_STAT_RESULT 0x09).raise Spi.p 1

/-! ### CAN (R416 to R421) -/

/-- A controller beside its registers. -/
def Can.st (s : State) (n : Nat) : CanSt := s.can[n]?.getD ⟨[], [], [], [], [], false, false⟩

/-- Change it. -/
def State.modCan (s : State) (n : Nat) (f : CanSt → CanSt) : State := { s with can := s.can.setIfInBounds n (f (Can.st s n)) }

/-- CAN_STAT.STATE: 0 CONFIG, 1 ACTIVE, 2 PASSIVE, 3 BUS_OFF. -/
def Can.state (s : State) (n : Nat) : Nat := s.get (Can.b n) Can.CAN_STAT_STATE

/-- Is the controller on the bus? -/
def Can.live (s : State) (n : Nat) : Bool :=
  s.en (Can.p n) && s.running .fabric && (Can.state s n == 1 || Can.state s n == 2)

/-- Enter a state: STATE_CHG. -/
def Can.setState (s : State) (n st : Nat) : State :=
  if Can.state s n = st then s else (s.put (Can.b n) Can.CAN_STAT_STATE st).raise (Can.p n) 2

/-- Q_STAT follows the queues. -/
def Can.levels (s : State) (n : Nat) : State :=
  let c := Can.st s n
  ((s.put (Can.b n) Can.Q_STAT_TXQ_FREE (16 - c.txq.length - b2n (c.part != []))).put (Can.b n) Can.Q_STAT_RX_RECS
    ((c.rxf.length + 19) / 20)).put (Can.b n) Can.Q_STAT_TXE_EVTS ((c.txe.length + 3) / 4)

/-- Does the configuration meet the register ranges and rate limits (R417)? -/
def Can.timingOk (s : State) (n : Nat) : Bool :=
  let g (f : Fld) := s.get (Can.b n) f
  let inR (lo v hi : Nat) : Bool := decide (lo ≤ v ∧ v ≤ hi)
  inR 4 (g Can.NBT_TQ) 255 && inR 2 (g Can.NBT_TSEG1) 128 && inR 1 (g Can.NBT_TSEG2) 64 &&
  inR 1 (g Can.NBT_SJW) (g Can.NBT_TSEG2) && decide (640 ≤ (1 + g Can.NBT_TSEG1 + g Can.NBT_TSEG2) * g Can.NBT_TQ) &&
  inR 4 (g Can.DBT_TQ) 255 && inR 1 (g Can.DBT_TSEG1) 32 && inR 1 (g Can.DBT_TSEG2) 16 &&
  inR 1 (g Can.DBT_SJW) (g Can.DBT_TSEG2) && decide (128 ≤ (1 + g Can.DBT_TSEG1 + g Can.DBT_TSEG2) * g Can.DBT_TQ)

/-- EN goes to 1 (R417). -/
def Can.enable (s : State) (req n : Nat) : State :=
  if Can.timingOk s n then
    let s := (s.put (Can.b n) Can.CAN_STAT_REC 0).put (Can.b n) Can.CAN_STAT_TEC 0
    Can.setState s n 1
  else s.logErr (Can.p n) 0x42 (Can.b n + 0x00C) req

/-- EN goes to 0. -/
def Can.disable (s : State) (n : Nat) : State := Can.setState s n 0

/-- Rank of a record in bus arbitration: the lower wins (ISO 11898-1). -/
def Can.rank (r : List Nat) : Nat :=
  let w := r.headD 0
  let base := bitsOf w 18 11
  if w.testBit 29 then base * 2 ^ 21 + 3 * 2 ^ 19 + bitsOf w 0 18 * 2 + b2n (w.testBit 30)
  else base * 2 ^ 21 + b2n (w.testBit 30) * 2 ^ 20

/-- Index of the pending record that wins at a frame's start: lowest rank, oldest first, among those pending then (R418). -/
def Can.best (c : CanSt) (sof : Nat) : Option Nat :=
  (((c.txq.zip c.txAt).zipIdx.filter (fun x => decide (x.1.2 ≤ sof))).foldl (fun (b : Option (Nat × Nat)) x =>
    match b with
    | some (k, _) => if Can.rank x.1.1 < k then some (Can.rank x.1.1, x.2) else b
    | none => some (Can.rank x.1.1, x.2)) none).map (·.2)

/-- FLAGS and TAG of a record. -/
def Can.flags (r : List Nat) : Nat := bitsOf ((r[1]?).getD 0) 8 8
def Can.tag (r : List Nat) : Nat := bitsOf ((r[1]?).getD 0) 16 16

/-- An event of a record goes to TXE (R418); `t` is the base counter at SOF. -/
def Can.event (s : State) (n : Nat) (r : List Nat) (status t : Nat) : State :=
  let s := if 60 < (Can.st s n).txe.length then s.count (Can.b n) Can.TXE_LOST_COUNT
    else s.modCan n (fun c => { c with txe := c.txe ++ [Can.tag r + 2 ^ 16 * status, 0, t % 2 ^ 32, t / 2 ^ 32] })
  (Can.levels s n).raiseIf ((Can.flags r).testBit 0) (Can.p n) 1

/-- Every pending record but the one at `but` ends with a status; no SOF time exists, so the time is open. -/
def Can.cancel (s : State) (n status : Nat) (but : Option Nat) : State :=
  let c := Can.st s n
  let kept {α : Type} (l : List α) : List α := match but with
    | some k => (l.drop k).take 1
    | none => []
  let q := match but with
    | some k => c.txq.eraseIdx k
    | none => c.txq
  let s := Can.levels (s.modCan n (fun c => { c with txq := kept c.txq, txAt := kept c.txAt })) n
  s.each q (fun s r => let (t, s) := s.draw (2 ^ 64); Can.event s n r status t)

/-- Every pending record ends with a status. -/
def Can.cancelAll (s : State) (n status : Nat) : State := Can.cancel s n status none

/-- CAN_CMD.CANCEL ends every pending record but one whose frame has started; whether the record that wins has started is the bus's
affair, so it is open (R418; DESIGN CHOICE, log entry 66). -/
def Can.cancelCmd (s : State) (n : Nat) : State :=
  let (k, s) := s.draw 2
  Can.cancel s n 4 (if k = 1 ∧ Can.live s n ∧ !s.flag (Can.b n) Can.CAN_CFG_LISTEN then Can.best (Can.st s n) s.now else none)

/-- Error counters give the state (ISO 11898-1). -/
def Can.settle (s : State) (n : Nat) : State :=
  let tec := s.get (Can.b n) Can.CAN_STAT_TEC
  let rec_ := s.get (Can.b n) Can.CAN_STAT_REC
  if 256 ≤ tec then Can.cancelAll (Can.setState s n 3) n 6
  else Can.setState s n (if 128 ≤ tec ∨ 128 ≤ rec_ then 2 else 1)

/-- Store a received frame (R419). -/
def Can.receive (s : State) (n : Nat) (id : Nat) (ide : Bool) (ctl : Nat) (rtr : Bool) (data : List Nat) (t : Nat) : State :=
  let b := Can.b n
  let en := (List.range 16).filter (fun f => s.flag (b + 8 * f) Can.FILT_ID_EN)
  let hit := en.find? (fun f => s.flag (b + 8 * f) Can.FILT_ID_FILT_IDE == ide &&
    ((id ^^^ s.get (b + 8 * f) Can.FILT_ID_ID) &&& s.get (b + 8 * f) Can.FILT_MASK_MASK) == 0)
  let tag := if en = [] then some 0xFF else hit
  match tag with
  | none => s
  | some tag =>
    let c := Can.st s n
    if 32 ≤ (c.rxf.length + 19) / 20 then
      ((s.count b Can.RX_LOST_COUNT).raise (Can.p n) 3).modCan n (fun c => { c with lost := true })
    else
      let pay := (List.range 16).map (fun i => leNat ((List.range 4).map (fun j => (data[4 * i + j]?).getD 0)))
      let w := [id + 2 ^ 29 * b2n ide + 2 ^ 30 * b2n rtr, ctl + 2 ^ 8 * b2n c.lost + 2 ^ 16 * tag, t % 2 ^ 32, t / 2 ^ 32] ++ pay
      (Can.levels (s.modCan n (fun c => { c with rxf := c.rxf ++ w, lost := false })) n).raise (Can.p n) 0

/-- CAN_FRAME_RX (DESIGN CHOICE, log entry 66). -/
def execCanFrameRx (can : Fin 2) (f : CanRx) (s : State) : Out :=
  let n := can.val
  if !Can.live s n ∨ s.flag (Can.b n) Can.CAN_CFG_LOOPBACK ∨ (f.fdf ∧ !s.flag (Can.b n) Can.CAN_CFG_FD_EN) then .next s
  else
    let s := s.runTo f.sof.toNat
    let r := s.get (Can.b n) Can.CAN_STAT_REC
    -- ISO 11898-1 lowers REC by 1, from above 127 to some value of 119 to 127
    let (v, s) := if 127 < r then s.draw 9 else (0, s)
    let s := s.put (Can.b n) Can.CAN_STAT_REC (if 127 < r then 119 + v else r - 1)
    let s := (Can.settle s n).put (Can.b n) Can.CAN_STAT_LEC 0
    let ctl := f.dlc.toNat + 16 * b2n f.fdf + 32 * b2n f.brs + 64 * b2n f.esi
    .next (Can.receive s n f.ident.toNat f.ide ctl f.rtr (f.data.map (·.toNat)) (replica 8 f.sof.toNat))

/-- CAN_TX_COMPLETE: the winning record was sent (0), lost arbitration (1) or met an error (2) (R418). -/
def execCanTxComplete (can : Fin 2) (status : Fin 3) (sof : BitVec 64) (s : State) : Out :=
  let n := can.val
  let c := Can.st s n
  if !Can.live s n ∨ s.flag (Can.b n) Can.CAN_CFG_LISTEN then .next s
  else
    match Can.best c sof.toNat with
    | none => .next s
    | some k =>
    let s := s.runTo sof.toNat
    let r := (c.txq[k]?).getD []
    let single := (Can.flags r).testBit 1
    if status.val ≠ 0 ∧ !single then .next s
    else
      let s := s.modCan n (fun c => { c with txq := c.txq.eraseIdx k, txAt := c.txAt.eraseIdx k })
      let s := Can.event s n r (status.val + 1) (replica 8 sof.toNat)
      if status.val ≠ 0 then .next s
      else
        let s := s.put (Can.b n) Can.CAN_STAT_TEC (s.get (Can.b n) Can.CAN_STAT_TEC - 1)
        let s := ((Can.settle s n).put (Can.b n) Can.CAN_STAT_LEC 0).qualify (19 + n)
        if s.flag (Can.b n) Can.CAN_CFG_LOOPBACK then
          let w := r.headD 0
          let data := ((r.drop 4).flatMap (fun x => leBytes 4 x))
          .next (Can.receive s n (bitsOf w 0 29) (w.testBit 29) (bitsOf ((r[1]?).getD 0) 0 6) (w.testBit 30) data (replica 8 sof.toNat))
        else .next s

/-- CAN_BUS_ERROR: an error of kind `lec` as transmitter or receiver; a receiver's count goes up by 1, or by 8 where ISO 11898-1 says so,
a transmitter's by 8, but not where an error-passive one that misses an acknowledgement sees no dominant bit (`by8` false) (R420;
PRESUMED, log entry 24). -/
def execCanBusError (can : Fin 2) (lec : Fin 7) (tx by8 : Bool) (s : State) : Out :=
  let n := can.val
  if !Can.live s n then .next s
  else
    let b := Can.b n
    let s := (s.put b Can.CAN_STAT_LEC lec.val).raise (Can.p n) 4
    let s := if tx ∧ lec.val = 3 ∧ Can.state s n = 2 ∧ !by8 then s
      else if tx then s.put b Can.CAN_STAT_TEC (min (s.get b Can.CAN_STAT_TEC + 8) 511)
      else s.put b Can.CAN_STAT_REC (min (s.get b Can.CAN_STAT_REC + (if by8 then 8 else 1)) 255)
    .next (Can.settle s n)

/-- BUS_OFF_RECOVERED: 128 occurrences of 11 recessive bits (R420). -/
def execBusOffRecovered (can : Fin 2) (s : State) : Out :=
  let n := can.val
  let b := Can.b n
  if Can.state s n ≠ 3 ∨ !s.en (Can.p n) ∨ !s.running .fabric ∨ (!s.flag b Can.CAN_CFG_BO_AUTO ∧ !(Can.st s n).recov) then .next s
  else
    let s := (s.put b Can.CAN_STAT_TEC 0).put b Can.CAN_STAT_REC 0
    .next (Can.setState (s.modCan n (fun c => { c with recov := false })) n 1)

/-- Guard 19 or 20 times out (R420; called by GUARD_TIMEOUT). -/
def Can.timeout (s : State) (n : Nat) : State := Can.cancelAll s n 5

/-- A read of a CAN FIFO register. -/
def Can.read (s : State) (req n off : Nat) : Option (Nat × State) :=
  let c := Can.st s n
  let empty := some (0, s.logErr (Can.p n) 0x43 (Can.b n + off) req)
  if off = 0x058 then some (0, s)
  else if off = 0x05C then
    match c.rxf with
    | [] => empty
    | w :: t => some (w, Can.levels (s.modCan n (fun c => { c with rxf := t })) n)
  else if off = 0x060 then
    match c.txe with
    | [] => empty
    | w :: t => some (w, Can.levels (s.modCan n (fun c => { c with txe := t })) n)
  else none

/-- A word written to TXQ_DATA; the 20th makes the record pending (R418). -/
def Can.push (s : State) (req n v : Nat) : State :=
  let c := Can.st s n
  let a := Can.b n + 0x058
  if c.part = [] ∧ 16 ≤ c.txq.length then s.logErr (Can.p n) 0x44 a req
  else
    let r := c.part ++ [v]
    if r.length < 20 then Can.levels (s.modCan n (fun c => { c with part := r })) n
    else
      let w := r.headD 0
      let ctl := (r[1]?).getD 0
      let fdf := ctl.testBit 4
      let bad := (!fdf && (decide (8 < ctl % 16) || ctl.testBit 5)) || (fdf && w.testBit 30)
      let s := s.modCan n (fun c => { c with part := [], txq := if bad then c.txq else c.txq ++ [r],
                                              txAt := if bad then c.txAt else c.txAt ++ [s.now] })
      let s := Can.levels s n
      if bad then s.logErr (Can.p n) 0x45 a req else s

/-- Special effects of a write to a CAN page. -/
def Can.write (s : State) (req n off v : Nat) (store : State → State) : State :=
  let busy := s.en (Can.p n)
  if off = 0x044 ∨ off = 0x048 ∨ off = 0x04C then
    if busy then s.logErr (Can.p n) 0x41 (Can.b n + off) req else store s
  else if off = 0x040 then
    -- CAN_BUSY rejects a change of BO_AUTO only (R37) (DEDUCED, log entry 65)
    let auto := s.get (Can.b n) Can.CAN_CFG_BO_AUTO
    if busy ∧ auto ≠ b2n (v.testBit 3) then
      ((store s).put (Can.b n) Can.CAN_CFG_BO_AUTO auto).logErr (Can.p n) 0x41 (Can.b n + off) req
    else store s
  else if off = 0x054 then
    let s := if v.testBit 0 then s.modCan n (fun c => { c with recov := Can.state s n == 3 }) else s
    if v.testBit 1 then Can.cancelCmd s n else s
  else if off = 0x058 then Can.push s req n v
  else store s

/-! ### UARTs (R422 to R424) -/

/-- A UART beside its registers. -/
def Uart.st (s : State) (n : Nat) : UartSt := s.uart[n]?.getD ⟨[], [], none, 0⟩

/-- Change it. -/
def State.modUart (s : State) (n : Nat) (f : UartSt → UartSt) : State :=
  { s with uart := s.uart.setIfInBounds n (f (Uart.st s n)) }

/-- Does flow control act, on RTS_N or CTS_N (R422)? -/
def Uart.flow (s : State) (n : Nat) (cts : Bool) : Bool :=
  s.flag (Uart.b n) Uart.UART_CFG_FLOW && (n == 0 || Gpio.alt s (2 + 2 * n + b2n cts))

/-- Is the next character held back? -/
def Uart.heldBack (s : State) (n : Nat) : Bool := Uart.flow s n true && !s.flag (Uart.b n) Uart.UART_STAT_CTS

/-- UART_STAT follows the FIFOs; RTS_N goes high at 56 and low at 48. -/
def Uart.levels (s : State) (n : Nat) : State :=
  let u := Uart.st s n
  let b := Uart.b n
  let s := ((s.put b Uart.UART_STAT_RX_LEVEL u.rx.length).put b Uart.UART_STAT_TX_LEVEL u.tx.length).putB b Uart.UART_STAT_TX_IDLE
    (u.cur.isNone && u.tx == [])
  if !Uart.flow s n false then s.put b Uart.UART_STAT_RTS 0
  else if 56 ≤ u.rx.length then s.put b Uart.UART_STAT_RTS 0
  else if u.rx.length ≤ 48 then s.put b Uart.UART_STAT_RTS 1
  else s

/-- Level of the TX pad: low while TX_BREAK holds it, high while no character is sent; none, the bits of the character (R422, R424). -/
def Uart.txPad (s : State) (n : Nat) : Option Bool :=
  if s.flag (Uart.b n) Uart.UART_CFG_TX_BREAK then some false else if (Uart.st s n).cur.isNone then some true else none

/-- Start the next character if none is being sent and CTS_N allows it. -/
def Uart.kick (s : State) (n : Nat) : State :=
  let u := Uart.st s n
  match u.cur, u.tx with
  | none, c :: t =>
    if !s.en (Uart.p n) ∨ Uart.heldBack s n then Uart.levels s n
    else Uart.levels (s.modUart n (fun u => { u with cur := some c, tx := t })) n
  | _, _ => Uart.levels s n

/-- Are the request lines asserted? (DEDUCED, log entry 65) -/
def Uart.rxReq (s : State) (n : Nat) : Bool :=
  s.en (Uart.p n) && decide (4 * s.get (Uart.b n) Uart.UART_CFG_RX_DREQ ≤ (Uart.st s n).rx.length)
def Uart.txReq (s : State) (n : Nat) : Bool :=
  s.en (Uart.p n) && decide (4 * s.get (Uart.b n) Uart.UART_CFG_TX_DREQ + (Uart.st s n).tx.length ≤ 64)

/-- A character arrives. -/
def Uart.receive (s : State) (n data : Nat) (parErr stop : Bool) : State :=
  let b := Uart.b n
  let d := if s.flag b Uart.UART_CFG_BITS7 then data % 128 else data
  let par := parErr && s.get b Uart.UART_CFG_PARITY != 0
  let brk := !stop && d == 0
  let s := if par then s.count b Uart.ERR_CNTS_PARITY else s
  let s := if !stop then s.count b Uart.ERR_CNTS_FRAMING else s
  let s := if brk then s.count b Uart.ERR_CNTS_BREAKS else s
  let s := s.raiseIf (par || !stop) (Uart.p n) 3
  if 64 ≤ (Uart.st s n).rx.length then (s.count b Uart.ERR_CNTS_OVERRUN).raise (Uart.p n) 4
  else
    let s := Uart.levels (s.modUart n (fun u => { u with rx := u.rx ++ [(d, b2n par + 2 * b2n (!stop) + 4 * b2n brk)] })) n
    s.raiseIf (Uart.rxReq s n) (Uart.p n) 0

/-- UART_RX_CHAR. -/
def execUartRxChar (uart : Fin 3) (data : BitVec 8) (parErr stop : Bool) (s : State) : Out :=
  let n := uart.val
  if !s.en (Uart.p n) ∨ !s.running .fabric ∨ s.flag (Uart.b n) Uart.UART_CFG_LOOP then .next s
  else .next (Uart.receive s n data.toNat parErr stop)

/-- UART_TX_CHAR: the character being sent ends. -/
def execUartTxChar (uart : Fin 3) (s : State) : Out :=
  let n := uart.val
  match (Uart.st s n).cur with
  | none => .next s
  | some c =>
    if !s.en (Uart.p n) ∨ !s.running .fabric then .next s
    else
      let s := s.modUart n (fun u => { u with cur := none, last := c })
      let s := if s.flag (Uart.b n) Uart.UART_CFG_LOOP then Uart.receive s n c false true else s
      let s := Uart.kick s n
      let s := s.raiseIf (Uart.txReq s n) (Uart.p n) 1
      .next (s.raiseIf ((Uart.st s n).cur.isNone && (Uart.st s n).tx == []) (Uart.p n) 5)

/-- RX_IDLE. -/
def execRxIdle (uart : Fin 3) (s : State) : Out :=
  let n := uart.val
  .next (s.raiseIf (s.en (Uart.p n) && (Uart.st s n).rx != []) (Uart.p n) 2)

/-- CTS_N_CHANGE. -/
def execCtsNChange (uart : Fin 3) (high : Bool) (s : State) : Out :=
  let n := uart.val
  .next (Uart.kick (s.putB (Uart.b n) Uart.UART_STAT_CTS (!high)) n)

/-- A read of a UART FIFO register. -/
def Uart.read (s : State) (req n off : Nat) : Option (Nat × State) :=
  let u := Uart.st s n
  let empty := some (0, s.logErr (Uart.p n) 0x42 (Uart.b n + off) req)
  if off = 0x048 then
    match u.rx with
    | [] => empty
    | (d, f) :: t => some (d + 256 * f + 2048, Uart.levels (s.modUart n (fun u => { u with rx := t })) n)
  else if off = 0x04C then
    if u.rx.length < 4 then empty
    else some (leNat ((u.rx.take 4).map (·.1)), Uart.levels (s.modUart n (fun u => { u with rx := u.rx.drop 4 })) n)
  else if off = 0x050 ∨ off = 0x054 then some (0, s)
  else none

/-- Special effects of a write to a UART page. -/
def Uart.write (s : State) (req n off v : Nat) (store : State → State) : State :=
  let b := Uart.b n
  let full := s.logErr (Uart.p n) 0x43 (b + off) req
  let push (l : List Nat) : State :=
    if 64 < (Uart.st s n).tx.length + l.length then full else Uart.kick (s.modUart n (fun u => { u with tx := u.tx ++ l })) n
  if off = 0x044 then if s.en (Uart.p n) then s.logErr (Uart.p n) 0x41 (b + off) req else store s
  else if off = 0x040 then
    let old := s.get b ⟨0x040, 0, 4⟩
    if s.en (Uart.p n) ∧ v % 16 ≠ old then
      -- the rejected fields are the lowest of the word (R37)
      Uart.kick ((store (s.logErr (Uart.p n) 0x41 (b + off) req)).put b ⟨0x040, 0, 4⟩ old) n
    else Uart.kick (store s) n
  else if off = 0x050 then push [v % 256]
  else if off = 0x054 then push (leBytes 4 v)
  else if off = 0x05C then
    let s := s.modUart n (fun u => { u with rx := if v.testBit 0 then [] else u.rx, tx := if v.testBit 1 then [] else u.tx })
    Uart.levels (if v.testBit 2 then s.setReg (b + 0x060) 0 else s) n
  else store s

/-! ### I2C (R425 to R427) -/

/-- Change the I2C controller beside its registers. -/
def State.modI2c (s : State) (f : I2cSt → I2cSt) : State := { s with i2c := f s.i2c }

/-- I2C_STAT follows the queues. -/
def I2c.levels (s : State) : State :=
  ((s.put I2c.b I2c.I2C_STAT_CMD_LEVEL s.i2c.cmds.length).put I2c.b I2c.I2C_STAT_RX_LEVEL s.i2c.rx.length).put I2c.b
    I2c.I2C_STAT_TX_LEVEL s.i2c.tx.length

/-- Request lines. -/
def I2c.rxReq (s : State) : Bool := s.en I2c.p && decide (4 * s.get I2c.b I2c.I2C_CFG_RX_DREQ ≤ s.i2c.rx.length)
def I2c.txReq (s : State) : Bool := s.en I2c.p && decide (4 * s.get I2c.b I2c.I2C_CFG_TX_DREQ + s.i2c.tx.length ≤ 16)

/-- The first command ends with a status: LAST, XFER and its interrupt. -/
def I2c.finish (s : State) (status : Nat) : State :=
  match s.i2c.cmds with
  | [] => s
  | c :: t =>
    let s := (s.put I2c.b I2c.I2C_STAT_LAST status).put I2c.b I2c.XFER_BYTES s.i2c.done
    let s := s.modI2c (fun x => { x with cmds := t, done := 0 })
    let s := s.raiseIf (c.testBit 21) I2c.p 0
    I2c.levels (s.raiseIf (decide (2 ≤ status)) I2c.p 1)

/-- Queued commands end FLUSHED. -/
def I2c.flush (s : State) : State := s.each s.i2c.cmds (fun s _ => I2c.finish s 6)

/-- Can the controller run its first command? -/
def I2c.live (s : State) : Bool := s.en I2c.p && s.running .fabric && s.i2c.cmds != []

/-- I2C_CMD_DONE: the line reports `n` bytes written, or the bytes read, since its last report; status 0 leaves the command
running, 1 to 4 end it (R426).  A report that the FIFOs cannot carry changes nothing: the controller holds SCL low. -/
def execI2cCmdDone (status : Fin 5) (n : BitVec 8) (data : List (BitVec 8)) (s : State) : Out :=
  if !I2c.live s then .next s
  else
    let c := s.i2c.cmds.headD 0
    let rd := c.testBit 11
    let k := if rd then data.length else n.toNat
    let left := bitsOf c 12 8 - s.i2c.done
    if left < k ∨ (status.val = 1 ∧ k ≠ left) ∨ (rd ∧ 16 < s.i2c.rx.length + k) ∨ (!rd ∧ s.i2c.tx.length < k) then .next s
    else
      let s := (s.put I2c.b I2c.I2C_STAT_BUS_BUSY 1).modI2c (fun x =>
        if rd then { x with rx := x.rx ++ data.map (·.toNat), done := x.done + k }
        else { x with last := ((x.tx.take k).getLast?).getD x.last, tx := x.tx.drop k, done := x.done + k })
      let s := I2c.levels s
      let s := (s.raiseIf (rd && I2c.rxReq s) I2c.p 2).raiseIf (!rd && decide (0 < k) && I2c.txReq s) I2c.p 3
      let st := status.val
      if st = 0 then .next s
      else
        let s := if st ≠ 1 ∨ c.testBit 20 then s.put I2c.b I2c.I2C_STAT_BUS_BUSY 0 else s
        let s := I2c.finish s st
        .next (if st = 1 then s else I2c.flush s)

/-- I2C_STRETCH_TIMEOUT. -/
def execI2cStretchTimeout (s : State) : Out := if !I2c.live s then .next s else .next (I2c.flush (I2c.finish s 5))

/-- A read of an I2C FIFO register. -/
def I2c.read (s : State) (req off : Nat) : Option (Nat × State) :=
  let empty := some (0, s.logErr I2c.p 0x42 (I2c.b + off) req)
  if off = 0x058 then
    match s.i2c.rx with
    | [] => empty
    | d :: t => some (d + 2048, I2c.levels (s.modI2c (fun x => { x with rx := t })))
  else if off = 0x05C then
    if s.i2c.rx.length < 4 then empty
    else some (leNat (s.i2c.rx.take 4), I2c.levels (s.modI2c (fun x => { x with rx := x.rx.drop 4 })))
  else if off = 0x060 ∨ off = 0x064 then some (0, s)
  else none

/-- Special effects of a write to the I2C page. -/
def I2c.write (s : State) (req off v : Nat) (store : State → State) : State :=
  let push (l : List Nat) : State :=
    if 16 < s.i2c.tx.length + l.length then s.logErr I2c.p 0x43 (I2c.b + off) req
    else I2c.levels (s.modI2c (fun x => { x with tx := x.tx ++ l }))
  if off = 0x048 then
    if 8 ≤ s.i2c.cmds.length then s.logErr I2c.p 0x41 (I2c.b + off) req
    else I2c.levels ((store s).modI2c (fun x => { x with cmds := x.cmds ++ [v] }))
  else if off = 0x04C then
    let s := if v.testBit 0 ∧ s.i2c.cmds ≠ [] then
        I2c.flush ((I2c.finish s 7).put I2c.b I2c.I2C_STAT_BUS_BUSY 0)
      else s
    let s := if v.testBit 1 then s.put I2c.b I2c.I2C_STAT_BUS_BUSY 0 else s
    I2c.levels (s.modI2c (fun x => { x with rx := if v.testBit 2 then [] else x.rx, tx := if v.testBit 3 then [] else x.tx }))
  else if off = 0x060 then push [v % 256]
  else if off = 0x064 then push (leBytes 4 v)
  else store s

/-! ### DMA request lines (R318, R407) -/

/-- Level of request line `l`. -/
def State.reqLine (s : State) (l : Nat) : Bool :=
  if !s.running .fabric then false
  else if l = 0 then Spi.rxReq s else if l = 1 then Spi.txReq s
  else if l < 6 then
    let n := (l - 2) / 2
    s.en (Can.p n) && (if l % 2 = 0 then decide (20 ≤ (Can.st s n).rxf.length) else decide ((Can.st s n).txq.length < 16))
  else if l < 12 then if l % 2 = 0 then Uart.rxReq s ((l - 6) / 2) else Uart.txReq s ((l - 6) / 2)
  else if l = 12 then I2c.rxReq s else if l = 13 then I2c.txReq s
  else if l = 14 ∨ l = 15 then
    let f (fld : Fld) : Nat := s.get Gpio.b ⟨fld.off, fld.lo + 8 * (l - 14), fld.w⟩
    f Gpio.GPIO_DREQ_EN_A == 1 && Gpio.level s (f Gpio.GPIO_DREQ_PIN_A) == (f Gpio.GPIO_DREQ_POL_A == 1)
  else false

/-- Every FIFO of the page's interface is emptied and it stops (R404). -/
def Field.reset (s : State) (p : Nat) : State :=
  if p = Spi.p then { s with spi := ⟨[], [], none, 0, 0, [], false⟩, held := s.held.filter (fun h => decide (h.req ≠ 12)) }
  else if p = 0x0B1 ∨ p = 0x0B2 then s.modCan (p - 0x0B1) (fun _ => ⟨[], [], [], [], [], false, false⟩)
  else if 0x0B3 ≤ p ∧ p ≤ 0x0B5 then s.modUart (p - 0x0B3) (fun _ => ⟨[], [], none, 0⟩)
  else if p = I2c.p then { s with i2c := ⟨[], [], [], 0, 0⟩ }
  else s

end Sys2Proof.Machine
end

