-- ==== Sys2Proof/Machine/Flash.lean ====
section
/-! DEFINITION. The SRAM scrubber, flash operations and the Annal (spec/14 R333 to R344, R348). -/

namespace Sys2Proof.Machine

def Mem.b : Nat := pg 0x090
def Flash.b : Nat := pg 0x091
def Annal.b : Nat := pg 0x092

/-- Change the flash island beside its registers. -/
def State.modFl (s : State) (f : FlashSt → FlashSt) : State := { s with fl := f s.fl }

/-! ### Scrubber (R335) -/

/-- SCRUB_STEP. -/
def execScrubStep (s : State) : Out :=
  if !s.flag Mem.b Mem.SCRUB_CTL_SCRUB_EN ∨ !s.en 0x090 ∨ !s.running .fabric then .next s
  else
    let w := s.get Mem.b Mem.SCRUB_POS_WORD
    let s := (s.eccRead (0x10000000 + 8 * w) 8).1
    if w + 1 = 2 ^ 22 then
      .next (((s.put Mem.b Mem.SCRUB_POS_WORD 0).count Mem.b Mem.PASSES_COUNT).raise 0x090 2)
    else .next (s.put Mem.b Mem.SCRUB_POS_WORD (w + 1))

/-! ### Flash contents -/

/-- Window address of flash offset 0. -/
def Flash.win : Nat := 0x20000000

/-- Program bytes at a window address: programming only clears bits (DESIGN CHOICE, log entry 18); caches follow R271. -/
def State.flashProgram (s : State) (a : Nat) (bytes : List Nat) : State :=
  let old := s.bytesAt a bytes.length
  (s.poke a (List.zipWith (fun x y => x &&& y) old bytes)).invalidate none a bytes.length

/-- Erase `n` bytes at a window address. -/
def State.flashErase (s : State) (a n : Nat) : State :=
  { s with mem := Tab.clearRange a (a + n) s.mem }.invalidate none a n

/-! ### FLASH page (R337, R338) -/

/-- An operation ends with a status. -/
def Flash.finish (s : State) (status : Nat) : State :=
  let s := s.modFl (fun f => { f with op := none })
  let s := ((s.put Flash.b Flash.FL_STAT_BUSY 0).put Flash.b Flash.FL_STAT_STATUS status).countWrap Flash.b Flash.FL_STAT_COUNT
  s.raise 0x091 (if status = 1 then 0 else 1)

/-- Does `[o, o + n)` touch region 15 or a protected region? -/
def Flash.protected_ (s : State) (o n : Nat) : Bool :=
  (List.range 16).any (fun r => decide (o < (r + 1) * 0x400000 ∧ r * 0x400000 < o + n)
    && (r == 15 || (s.get Flash.b Flash.WP_PROT).testBit r))

/-- A write of FL_CMD: bits PROGRAM, ERASE_SEC, ERASE_BLK; the block is idle while EN is 0 (DEDUCED, log entry 108). -/
def Flash.command (s : State) (req v : Nat) : State :=
  let v := v % 8
  if v = 0 ∨ !s.en 0x091 then s
  else if s.flag Flash.b Flash.FL_STAT_BUSY then s.logErr 0x091 0x41 (Flash.b + 0x04C) req
  else
    let o := s.get Flash.b Flash.FL_ADDR_OFS
    let src := s.get Flash.b Flash.FL_SRC_ADDR
    let n := if v = 1 then s.get Flash.b Flash.FL_LEN_BYTES else if v = 2 then 0x1000 else 0x10000
    let good : Bool := match rangeFor src n with
      | .sram => true
      | .tlm _ => true
      | _ => false
    let arg := if v = 1 then good && decide (src % 4 = 0 ∧ 1 ≤ n ∧ n ≤ 65536 ∧ o + n ≤ 0x4000000)
      else if v = 2 ∨ v = 4 then o % n == 0 else false
    if !arg then Flash.finish s 0x12
    else if Flash.protected_ s o n then Flash.finish s 0x11
    else (s.put Flash.b Flash.FL_STAT_BUSY 1).modFl (fun f => { f with
      op := some ⟨if v = 1 then 0 else if v = 2 then 1 else 2, o, src, n, false⟩ })

/-- Program and verify page after page of an operation; the bytes left and where. -/
def Flash.pages (s : State) (src o n : Nat) : Nat → State × Nat
  | 0 => (s, 0x01)
  | fuel + 1 =>
    if n = 0 then (s, 0x01)
    else
      let k := min n (256 - o % 256)
      match s.devRead src k with
      | (s, none) => (s, 0x14)
      | (s, some l) =>
        let s := s.flashProgram (Flash.win + o) l
        match (List.range k).find? (fun i => (s.byte (Flash.win + o + i)).toNat != l[i]?.getD 0) with
        | some i => (s.put Flash.b Flash.FAIL_ADDR_OFS (o + i), 0x10)
        | none => Flash.pages s (src + k) (o + k) (n - k) fuel

/-- FLASH_OP_DONE: the operation ends; its effect on the array is whole here (DESIGN CHOICE, log entry 18). -/
def execFlashOpDone (s : State) : Out :=
  match s.fl.op with
  | none => .next s
  | some op =>
    if op.susp ∨ !s.running .flash ∨ !s.en 0x091 then .next s
    else if op.kind = 0 then
      let (s, st) := Flash.pages s op.src op.ofs op.len 258
      .next (Flash.finish s st)
    else .next (Flash.finish (s.flashErase (Flash.win + op.ofs) op.len) 0x01)

/-- ERASE_SUSPEND: a window read waits. -/
def execEraseSuspend (s : State) : Out :=
  .next (s.modFl (fun f => { f with op := f.op.map (fun o => { o with susp := o.susp || o.kind != 0 }) }))

/-- ERASE_RESUME. -/
def execEraseResume (s : State) : Out := .next (s.modFl (fun f => { f with op := f.op.map (fun o => { o with susp := false }) }))

/-! ### The Annal: halves and entries (R339, R340) -/

/-- Window address of half `h`. -/
def Annal.half (h : Nat) : Nat := 0x23C00000 + 0x200000 * h

/-- Is the header of half `h` valid? -/
def Annal.headOk (s : State) (h : Nat) : Bool :=
  let a := Annal.half h
  s.numAt a 2 == 0x4148 && s.numAt (a + 12) 4 == crc32c (s.bytesAt a 12)

/-- GEN and SEQ_TOP of a header. -/
def Annal.genOf (s : State) (h : Nat) : Nat := s.numAt (Annal.half h + 4) 4
def Annal.topOf (s : State) (h : Nat) : Nat := s.numAt (Annal.half h + 8) 4

/-- Write the header of half `h`. -/
def Annal.head (s : State) (h gen top : Nat) : State :=
  let l := recBytes [(2, 0x4148), (2, 0), (4, gen), (4, top)]
  s.flashProgram (Annal.half h) (l ++ leBytes 4 (crc32c l))

/-- Size of an entry. -/
def Annal.size (len : Nat) : Nat := (16 + len + 15) / 16 * 16

/-- Is the body of the entry at `a` complete? -/
def Annal.crcOk (s : State) (a : Nat) : Bool :=
  let n := s.numAt (a + 4) 2
  s.numAt (a + 12 + n) 4 == crc32c (s.bytesAt (a + 2) (n + 10))

/-- FILL of a write pointer, percent. -/
def Annal.fill (ptr : Nat) : Nat := (ptr - 0x1000) * 100 / 2093056

/-- Move the write pointer: WRITE_PTR and FILL; crossing HARV_THR from below raises FILL_THR and starts a harvest, and
falling below it clears CROWDED (R342). -/
def Annal.setPtr (s : State) (p : Nat) : State :=
  let b := Annal.b
  let thr := s.get b Annal.ANN_CTL_HARV_THR
  let old := Annal.fill s.fl.ptr
  let s := s.modFl (fun f => { f with ptr := p })
  let s := (s.put b Annal.WRITE_PTR_OFS p).put b Annal.ANN_STAT_FILL (Annal.fill p)
  if Annal.fill p < thr then s.put b Annal.ANN_STAT_CROWDED 0
  else if old < thr then
    let s := s.raise 0x092 3
    if s.flag b Annal.ANN_STAT_CROWDED then s else s.put b Annal.ANN_STAT_HARVESTING 1
  else s

/-- Valid entries of half `h` from offset `o` up to `ptr`: (offset, TYPE, KEY, LEN, SEQ). -/
def Annal.entries (s : State) (h ptr : Nat) : Nat → Nat → List (Nat × Nat × Nat × Nat × Nat)
  | _, 0 => []
  | o, fuel + 1 =>
    if ptr ≤ o then []
    else
      let a := Annal.half h + o
      let n := s.numAt (a + 4) 2
      if 4096 < n then []
      else
        let rest := Annal.entries s h ptr (o + Annal.size n) fuel
        if s.numAt a 2 = 0x414E ∧ Annal.crcOk s a then
          (o, s.numAt (a + 2) 1, s.numAt (a + 3) 1, n, s.numAt (a + 8) 4) :: rest
        else rest

/-- Slots of 16 bytes in a half. -/
def Annal.slots : Nat := 131072

/-! ### Appending (R341) -/

/-- A request ends: RES registers, counts, interrupt. -/
def Annal.result (s : State) (r : AnnReq) (status seq : Nat) (addr : Option Nat) : State :=
  let b := Annal.b
  -- for a request without an entry the spec states no RES_ADDR
  let (x, s) := match addr with
    | some a => (a, s)
    | none => s.draw (2 ^ 32)
  let s := (((s.put b Annal.RES_INFO_TAG r.tag).put b Annal.RES_INFO_STATUS status).put b Annal.RES_SEQ_SEQ seq).put b
    Annal.RES_ADDR_ADDR x
  (s.countWrap b Annal.COUNTS_DONE).raise 0x092 (if status = 1 then 0 else 1)

/-- The bytes of an entry after its MAGIC (R340). -/
def Annal.body (typ key seq : Nat) (l : List Nat) : List Nat :=
  let body := recBytes [(1, typ), (1, key), (2, l.length), (2, 0xFFFF), (4, seq)] ++ l
  body ++ leBytes 4 (crc32c body)

/-- Write an entry at the write pointer: status 0x01 DONE, 0x10 FULL or 0x13 VERIFY, its SEQ and its address (R341). -/
def Annal.append (s : State) (typ key : Nat) (l : List Nat) : State × Nat × Nat × Option Nat :=
  let b := Annal.b
  let p := s.fl.ptr
  let size := Annal.size l.length
  if 0x200000 < p + size then (s, 0x10, 0, none)
  else
    let seq := s.get b Annal.NEXT_SEQ_SEQ
    let s := s.put b Annal.NEXT_SEQ_SEQ (seq + 1)
    let a := Annal.half (s.get b Annal.ANN_STAT_HALF) + p
    let bytes := Annal.body typ key seq l
    let s := s.flashProgram (a + 2) bytes
    let ok := s.bytesAt (a + 2) bytes.length == bytes && s.numAt a 2 == 0xFFFF
    let s := Annal.setPtr (s.flashProgram a (leBytes 2 (if ok then 0x414E else 0))) (p + size)
    if ok then (s, 0x01, seq, some a) else (s, 0x13, 0, some a)

/-- Are the arguments of a request good? -/
def Annal.argOk (r : AnnReq) : Bool :=
  let place : Bool := match rangeFor r.src (max r.len 1) with
    | .sram => true
    | .tlm _ => true
    | _ => false
  decide (1 ≤ r.typ ∧ r.typ ≤ 8 ∧ r.len ≤ 4096 ∧ r.src % 4 = 0) && place

/-- Serve a request of firmware (R341). -/
def Annal.serve (s : State) (r : AnnReq) : State :=
  if !Annal.argOk r then Annal.result s r 0x11 0 none
  else
    match if r.len = 0 then (s, some []) else s.devRead r.src r.len with
    | (s, none) => Annal.result s r 0x12 0 none
    | (s, some l) =>
      let (s, status, seq, addr) := Annal.append s r.typ r.key l
      Annal.result s r status seq addr

/-- Serve a request of the Vigils' queue; one that cannot be written is counted (spec/16 R373). -/
def Annal.serveVig (s : State) (typ : Nat) (l : List Nat) : State :=
  let (s, status, _, _) := Annal.append s typ 0 l
  if status = 1 then s else s.count (Vig.b (s.vig.active.getD 0)) Vig.ANNAL_LOST_COUNT

/-- A write of APP_GO: bits GO, LASTGASP, DISARM (R341, R344); the block is idle while EN is 0 (DEDUCED, log entry 108). -/
def Annal.go (s : State) (req v : Nat) : State :=
  let b := Annal.b
  let v := if s.en 0x092 then v else v / 2 * 2
  let r : AnnReq := ⟨s.get b Annal.APP_SRC_ADDR, s.get b Annal.APP_HDR_TYPE, s.get b Annal.APP_HDR_KEY, s.get b Annal.APP_HDR_LEN,
    s.get b Annal.APP_TAG_TAG⟩
  let s := if !v.testBit 0 then s
    else if !s.flag b Annal.ANN_STAT_READY then s.logErr 0x092 0x42 (b + 0x060) req
    else if 16 ≤ s.fl.queue.length then s.logErr 0x092 0x41 (b + 0x060) req
    else
      let s := s.modFl (fun f => { f with queue := f.queue ++ [r] })
      (s.countWrap b Annal.COUNTS_POSTED).put b Annal.ANN_STAT_QDEPTH s.fl.queue.length
  let s := if v.testBit 1 then (s.modFl (fun f => { f with gasp := some r })).put b Annal.ANN_STAT_GASP_ARMED 1 else s
  if v.testBit 2 then (s.modFl (fun f => { f with gasp := none })).put b Annal.ANN_STAT_GASP_ARMED 0 else s

/-- Does the engine serve its queues? -/
def Annal.serves (s : State) : Bool := s.running .flash && s.en 0x092 && s.flag Annal.b Annal.ANN_STAT_READY

/-- The oldest request completes, those of the Vigils first (spec/16 R373). -/
def Annal.serveNext (s : State) : State :=
  match s.vig.queue, s.fl.queue with
  | (typ, l) :: t, _ => Annal.serveVig (s.modVigs (fun x => { x with queue := t })) typ l
  | [], r :: t => Annal.serve ((s.modFl (fun f => { f with queue := t })).put Annal.b Annal.ANN_STAT_QDEPTH t.length) r
  | [], [] => s

/-- APPEND_DONE. -/
def execAppendDone (s : State) : Out := .next (if Annal.serves s then Annal.serveNext s else s)

/-! ### Harvest (R342) -/

/-- ANN_CTL.HARVEST. -/
def Annal.harvest (s : State) : State :=
  if s.flag Annal.b Annal.ANN_STAT_CROWDED ∨ !s.flag Annal.b Annal.ANN_STAT_READY ∨ !s.en 0x092 then s
  else s.put Annal.b Annal.ANN_STAT_HARVESTING 1

/-- Is an entry live among `all`? -/
def Annal.liveIn (s : State) (all : List (Nat × Nat × Nat × Nat × Nat)) (e : Nat × Nat × Nat × Nat × Nat) : Bool :=
  let (_, t, k, n, q) := e
  let same := all.filter (fun x => x.2.1 == t && x.2.2.1 == k && decide (q < x.2.2.2.2))
  n != 0 && !same.any (fun x => x.2.2.2.1 == 0) && decide (same.length < s.get (Annal.b + 4 * (t - 1) + 4) Annal.KEEP)

/-- Insert by SEQ. -/
def Annal.insSeq (e : Nat × Nat × Nat × Nat × Nat) : List (Nat × Nat × Nat × Nat × Nat) → List (Nat × Nat × Nat × Nat × Nat)
  | [] => [e]
  | x :: t => if e.2.2.2.2 < x.2.2.2.2 then e :: x :: t else x :: Annal.insSeq e t

/-- HARVEST_DONE: erase, copy, header; the new half becomes current. -/
def execHarvestDone (s : State) : Out :=
  let b := Annal.b
  if !s.flag b Annal.ANN_STAT_HARVESTING ∨ !s.running .flash ∨ !s.en 0x092 then .next s
  else
    let h := s.get b Annal.ANN_STAT_HALF
    let g := 1 - h
    let all := Annal.entries s h s.fl.ptr 0x1000 Annal.slots
    let live := (all.filter (Annal.liveIn s all)).foldl (fun l e => Annal.insSeq e l) []
    let top := all.foldl (fun m e => max m e.2.2.2.2) (Annal.topOf s h)
    let s := s.flashErase (Annal.half g) 0x200000
    let (s, p) := live.foldl (fun (s, p) e =>
      (s.flashProgram (Annal.half g + p) (s.bytesAt (Annal.half h + e.1) (16 + e.2.2.2.1)), p + Annal.size e.2.2.2.1)) (s, 0x1000)
    let gen := Annal.genOf s h + 1
    let s := (Annal.head s g gen top).put b Annal.ANN_GEN_GEN gen
    let s := (s.put b Annal.ANN_STAT_HALF g).put b Annal.ANN_STAT_HARVESTING 0
    let s := s.modFl (fun f => { f with ptr := p })
    let s := (s.put b Annal.WRITE_PTR_OFS p).put b Annal.ANN_STAT_FILL (Annal.fill p)
    let s := s.raise 0x092 2
    if s.get b Annal.ANN_CTL_HARV_THR ≤ Annal.fill p then .next ((s.put b Annal.ANN_STAT_CROWDED 1).raise 0x092 4)
    else .next (s.put b Annal.ANN_STAT_CROWDED 0)

/-! ### Recovery (R343) -/

/-- Classify the slots of the half at window address `w` from offset `o`: the end of the journal, and the highest valid
SEQ. -/
def Annal.scan (s : State) (w : Nat) : Nat → Nat → Nat → State × Nat × Nat
  | o, top, 0 => (s, o, top)
  | o, top, fuel + 1 =>
    if 0x200000 ≤ o then (s, o, top)
    else
      let a := w + o
      let magic := s.numAt a 2
      let n := s.numAt (a + 4) 2
      if magic = 0xFFFF ∧ s.bytesAt (a + 2) 10 = List.replicate 10 0xFF then (s, o, top)
      else if 4096 < n then
        ((s.put Annal.b Annal.ANN_STAT_TORN_HDR 1).put Annal.b Annal.ANN_STAT_HARVESTING 1, o, top)
      else if magic = 0 then Annal.scan s w (o + Annal.size n) top fuel
      else if Annal.crcOk s a then
        let s := if magic = 0x414E then s
          else (s.flashProgram a (leBytes 2 0x414E)).count Annal.b Annal.RECOV_TORN
        Annal.scan s w (o + Annal.size n) (max top (s.numAt (a + 8) 4)) fuel
      else Annal.scan ((s.flashProgram a [0, 0]).count Annal.b Annal.RECOV_DEAD) w (o + Annal.size n) top fuel

/-- RECOVERY_SCAN: choose the current half and scan it. -/
def execRecoveryScan (s : State) : Out :=
  let b := Annal.b
  if !s.running .flash ∨ !s.en 0x092 ∨ s.flag b Annal.ANN_STAT_READY ∨ s.fl.scan.isSome then .next s
  else
    let o0 := Annal.headOk s 0
    let o1 := Annal.headOk s 1
    let h := if o0 && o1 then (if Annal.genOf s 0 < Annal.genOf s 1 then 1 else 0) else if o1 then 1 else 0
    let s := if o0 || o1 then s else Annal.head (s.flashErase (Annal.half 0) 0x200000) 0 1 0
    let s := (s.put b Annal.ANN_STAT_HALF h).put b Annal.ANN_GEN_GEN (Annal.genOf s h)
    let s := (s.put b Annal.RECOV_DEAD 0).put b Annal.RECOV_TORN 0
    let (s, p, top) := Annal.scan s (Annal.half h) 0x1000 (Annal.topOf s h) Annal.slots
    let s := s.modFl (fun f => { f with ptr := p, scan := some top })
    .next ((s.put b Annal.WRITE_PTR_OFS p).put b Annal.ANN_STAT_FILL (Annal.fill p))

/-- RECOVERED: the scan completes. -/
def execRecovered (s : State) : Out :=
  match s.fl.scan with
  | none => .next s
  | some top =>
    if !s.running .flash ∨ !s.en 0x092 then .next s
    else
      let s := s.modFl (fun f => { f with scan := none })
      .next (((s.put Annal.b Annal.NEXT_SEQ_SEQ (top + 1)).put Annal.b Annal.ANN_STAT_READY 1).raise 0x092 5)

/-! ### Power loss and restart (R343, R344) -/

/-- The cells as a flash operation and a harvest cut short leave them, both over: how many pages are whole and what an
abandoned erase leaves is open; the half a harvest was building has no header (DEDUCED, log entry 64). -/
def Flash.cut (s : State) : State :=
  let s := match s.fl.op with
    | none => s
    | some op =>
      let s := s.modFl (fun f => { f with op := none })
      if op.kind = 0 then
        let (k, s) := s.draw (op.len / 256 + 2)
        (Flash.pages s op.src op.ofs (min op.len (256 * k)) 258).1
      else
        let l := (List.range op.len).map (fun i => Config.freeValue (s.fresh + i) % 256)
        let s := { s with fresh := s.fresh + op.len }
        (s.poke (Flash.win + op.ofs) l).invalidate none (Flash.win + op.ofs) op.len
  if s.flag Annal.b Annal.ANN_STAT_HARVESTING then
    (s.flashErase (Annal.half (1 - s.get Annal.b Annal.ANN_STAT_HALF)) 0x200000).put Annal.b Annal.ANN_STAT_HARVESTING 0
  else s

/-- The first bytes of the entry being programmed when the island restarts, without its MAGIC; how many is open (R343)
(DEDUCED, log entry 64). -/
def Annal.tear (s : State) : State :=
  let write (s : State) (typ key : Nat) (l : List Nat) : State :=
    if 0x200000 < s.fl.ptr + Annal.size l.length then s
    else
      let bytes := Annal.body typ key (s.get Annal.b Annal.NEXT_SEQ_SEQ) l
      let (k, s) := s.draw (bytes.length + 1)
      s.flashProgram (Annal.half (s.get Annal.b Annal.ANN_STAT_HALF) + s.fl.ptr + 2) (bytes.take k)
  if !Annal.serves s then s
  else
    match s.vig.queue, s.fl.queue with
    | (typ, l) :: _, _ => write s typ 0 l
    | [], r :: _ =>
      if !Annal.argOk r then s
      else if r.len = 0 then write s r.typ r.key []
      else match s.devRead r.src r.len with
        | (s, none) => s
        | (s, some l) => write s r.typ r.key l
    | [], [] => s

/-- Requests not started are dropped: all but the oldest where the engine serves them (R344); those of the Vigils are counted. -/
def Annal.dropQueue (s : State) : State :=
  let serves := Annal.serves s
  let keepV := if serves then s.vig.queue.take 1 else []
  let keepQ := if serves && s.vig.queue.isEmpty then s.fl.queue.take 1 else []
  let lost := s.vig.queue.drop keepV.length
  let q := s.fl.queue.drop keepQ.length
  let s := (s.modVigs (fun x => { x with queue := keepV })).modFl (fun f => { f with queue := keepQ })
  let s := (s.put Annal.b Annal.ANN_STAT_QDEPTH keepQ.length).each q (fun s r => Annal.result s r 0x14 0 none)
  s.each lost (fun s _ => s.count (Vig.b (s.vig.active.getD 0)) Vig.ANNAL_LOST_COUNT)

/-- PoE is lost (called by POWER_LOSS of spec/17, R344): the operation ends with POWER and requests not started are dropped; then the
entry being programmed, which is the oldest request, completes, and then the last gasp (DEDUCED, log entry 64). -/
def Flash.powerLoss (s : State) : State :=
  let s := if s.fl.op.isSome then Flash.finish (Flash.cut s) 0x13 else Flash.cut s
  let s := Annal.dropQueue s
  let s := if Annal.serves s then Annal.serveNext s else s
  match s.fl.gasp with
  | none => s
  | some r =>
    if !Annal.serves s then s
    else Annal.serve ((s.modFl (fun f => { f with gasp := none })).put Annal.b Annal.ANN_STAT_GASP_ARMED 0) r

/-- What the island was at when a reset reaches it, before any memory is cleared: the cells stand as they are. -/
def Flash.stop (s : State) : State := Flash.cut (Annal.tear s)

/-- The island restarts: requests, those of the Vigils with them, and the operation are lost (R343). -/
def Flash.reset (s : State) : State :=
  ((Flash.stop s).modFl (fun f => { f with op := none, queue := [], gasp := none, ptr := 0, scan := none })).modVigs
    (fun x => { x with queue := [] })

/-! ### Registers -/

/-- Special effects of a write to the FLASH page. -/
def Flash.write (s : State) (req off v : Nat) (store : State → State) : State :=
  if off = 0x04C then Flash.command s req v else store s

/-- Special effects of a write to the ANNAL page. -/
def Annal.write (s : State) (req off v : Nat) (store : State → State) : State :=
  if off = 0x040 then
    let s := store s
    -- a threshold raised above FILL ends CROWDED as FILL falling below it does (DEDUCED, log entry 108)
    let s := if s.get Annal.b Annal.ANN_STAT_FILL < s.get Annal.b Annal.ANN_CTL_HARV_THR then s.put Annal.b Annal.ANN_STAT_CROWDED 0 else s
    if v.testBit 0 then Annal.harvest s else s
  else if off = 0x060 then Annal.go s req v
  else store s

end Sys2Proof.Machine
end

