-- ==== Sys2Proof/Machine/Dsp.lean ====
section
/-! DEFINITION. The digital path of a receive chain (spec/03 R49 steps 6 to 11, R64, R65, R67) and the monitor's transform (R70). -/

namespace Sys2Proof.Machine

/-- A number of 2^-f, rounded as a stage rounds (Config.roundsUp). -/
def Dsp.shr (stage : Nat) (x : Int) (f : Nat) : Int :=
  let d : Int := (2 ^ f : Nat)
  floorDiv x d + (if x % d ≠ 0 ∧ Config.roundsUp stage x then 1 else 0)

/-- One of the chain's 8-bit components (R51). -/
def Dsp.clamp8 (x : Int) : Int := clampI (-128) 127 x

/-! ### DC removal (R64) -/

/-- The first-order high-pass on one component: the value with the DC estimate taken off, and the next estimate, which moves towards
the sample by 2^-(DC_TC + 8) of the difference, or is held (R64). -/
def Dsp.highPass (tc : Nat) (held : Bool) (est x : Int) : Int × Int :=
  let f := Config.pathFrac
  let y := Dsp.clamp8 (x - Dsp.shr 1 est f)
  (y, if held then est else est + Dsp.shr 0 (x * (2 ^ f : Nat) - est) (tc + 8))

/-! ### Blanking (R65) -/

/-- Settings of the path over a period: DC_TC, image correction (none: off), and the blanker: threshold (none: off), PRE_LEN and
BLANK_LEN. -/
structure Dsp.Cfg where
  tc   : Nat
  img  : Option (Int × Int)
  thr  : Option Nat
  pre  : Nat
  post : Nat

/-- Blank the `n` samples that entered the line last. -/
def Dsp.blankLast (n : Nat) (l : List PathSmp) : List PathSmp := (l.take n).map (fun x => { x with zero := true }) ++ l.drop n

/-- Steps 6 to 9 for one sample: `l` holds the samples that have entered the delay line, the newest first. -/
def Dsp.enter (c : Dsp.Cfg) (p : Path) (l : List PathSmp) (x : Int × Int) (valid : Bool) : Path × List PathSmp :=
  let held := !valid || decide (0 < p.hold)
  let (i, dcI) := Dsp.highPass c.tc held p.dcI x.1
  let (q, dcQ) := Dsp.highPass c.tc held p.dcQ x.2
  let (i, q) := match c.img with
    | some g => let y := Config.imageCorrect g.1 g.2 (i, q); (Dsp.clamp8 y.1, Dsp.clamp8 y.2)
    | none => (i, q)
  let (i, q) := if valid then (i, q) else (0, 0)
  let exceeds := match c.thr with
    | some t => valid && decide ((t : Int) < i * i + q * q)
    | none => false
  let hold := if exceeds then c.post else p.hold - 1
  let l := if exceeds then Dsp.blankLast c.pre l else l
  ({ p with dcI := dcI, dcQ := dcQ, hold := hold }, ⟨i, q, valid, exceeds || decide (0 < p.hold)⟩ :: l)

/-- Steps 6 to 9 over the samples of a period. -/
def Dsp.enterAll (c : Dsp.Cfg) (valid : Nat → Bool) (p : Path) (l : List PathSmp) (xs : List (Int × Int)) : Path × List PathSmp :=
  (xs.zipIdx.foldl (fun (a : Path × List PathSmp) x => Dsp.enter c a.1 a.2 x.1 (valid x.2)) (p, l))

/-! ### Notches (R67) -/

/-- One sample through a notch of depth `r` at frequency `f` with state `w`: its pole lies at 1 − 2^-r, its zero on the unit circle.
Answers the output and the next state. -/
def Dsp.notch (r : Nat) (f : Int) (w x : Int × Int) : (Int × Int) × (Int × Int) :=
  let g := Config.pathFrac
  let u := Config.rotate f w
  let next (x u : Int) : Int := x * (2 ^ g : Nat) + u - Dsp.shr 2 u r
  let w' := (next x.1 u.1, next x.2 u.2)
  ((Dsp.clamp8 (Dsp.shr 3 (w'.1 - u.1) g), Dsp.clamp8 (Dsp.shr 3 (w'.2 - u.2) g)), w')

/-- A notch over a period: `move` gives the frequency after a sample.  Answers outputs, state and frequency. -/
def Dsp.notchAll (r : Nat) (move : Int → Int × Int → Int × Int → Int) (w : Int × Int) (f : Int) (xs : List (Int × Int)) :
    List (Int × Int) × (Int × Int) × Int :=
  let a := xs.foldl (fun (a : List (Int × Int) × (Int × Int) × Int) x =>
    let (y, w') := Dsp.notch r a.2.2 a.2.1 x
    (y :: a.1, w', move a.2.2 w' y)) ([], w, f)
  (a.1.reverse, a.2)

/-- Sum of I² + Q². -/
def Dsp.power (l : List (Int × Int)) : Nat := l.foldl (fun a x => a + (x.1 * x.1 + x.2 * x.2).toNat) 0

/-- 256 × 10 log10 (num / den) as a register shows it: rounding, and a ratio below one or without a meaning, are left open: free
values (DESIGN CHOICE, log entry 1). -/
def State.showDb (s : State) (num den : Nat) : Nat × State :=
  if den = 0 ∨ num < den then s.draw (2 ^ 16)
  else
    let k := dbFloor num den
    if dbExact num den k then (k, s) else let (v, s) := s.draw 2; (k + v, s)

/-- Correlation with the tone reference from sample `n` on (R74): the sum of x times the conjugate of the reference. -/
def Dsp.tone (ofs : Int) (n : Nat) (xs : List (Int × Int)) : Int × Int :=
  xs.zipIdx.foldl (fun (a : Int × Int) x =>
    let r := Config.lantRef ofs (n + x.2)
    (a.1 + x.1.1 * r.1 + x.1.2 * r.2, a.2 + x.1.2 * r.1 - x.1.1 * r.2)) (0, 0)

/-! ### The monitor's transform (R70) -/

/-- |Σ (1 − cos(2π n / 4096)) x e^(−2πi n m / 4096)|² of a block at bin `k` (m = k − 2,048), in 2^-120: the Hann window has unit noise
power gain after the factor 2/3 (R70). -/
def Dsp.binPower (xs : List (Int × Int)) (k : Nat) : Nat :=
  let y := xs.zipIdx.foldl (fun (a : Int × Int) x =>
    let n := x.2
    let w : Int := (2 ^ 30 : Nat) - Config.cos4096 (n % 4096)
    let ph := n * (k + 2048) % 4096
    let c := Config.cos4096 ph
    let sn := Config.cos4096 ((ph + 3072) % 4096)
    (a.1 + w * (x.1.1 * c + x.1.2 * sn), a.2 + w * (x.1.2 * c - x.1.1 * sn))) (0, 0)
  (y.1 * y.1 + y.2 * y.2).toNat

/-- BIN[k] of the average over blocks: round(256 × 10 log10 P_k) of the mean of |X_k|² / 4,096 (R70, R72). -/
def Dsp.bin (blocks : List (List (Int × Int))) (k : Nat) : Nat :=
  dbRound (2 * (blocks.map (fun b => Dsp.binPower b k)).sum) (3 * 4096 * blocks.length * 2 ^ 120)

end Sys2Proof.Machine
end

