-- ==== Sys2Proof/Machine/Rfe.lean ====
section
/-! DEFINITION. The GNSS front end (spec/03): update ticks, AGC, calibrations, blanking, notches, spectral monitor, Lantern
tone and antenna bias of the four chains. -/

namespace Sys2Proof.Machine

/-- Register block of chain `i`. -/
def Rfe.b (i : Nat) : Nat := pg (Rfe.page i)

/-- The chain of the same band on the other antenna. -/
def Rfe.partner (i : Nat) : Nat := (i + 2) % 4

/-- Does a chain take part in a band LO calibration (R466)? -/
def Rfe.takesPart (s : State) (i : Nat) : Bool := s.en (Rfe.page i) && !s.frozen (Rfe.page i)

/-- The chains of a band that take part in its LO calibration (R466). -/
def Rfe.parts (s : State) (band : Nat) : List Nat := [band, band + 2].filter (fun i => Rfe.takesPart s i)

/-- Does an OSC calibration of the band stand requested or running, in a queue or shared? -/
def Rfe.oscPending (s : State) (band : Nat) : Bool :=
  (s.oscOf band).isSome || decide (.osc ∈ (s.ch band).calQ) || decide (.osc ∈ (s.ch (band + 2)).calQ)

/-- Is a chain busy (R57)? -/
def Rfe.busy (s : State) (i : Nat) : Bool :=
  let c := s.ch i
  c.calQ != [] || c.calRun.isSome || c.wait.isSome ||
    (match s.oscOf (Rfe.band i) with
     | some o => decide (i ∈ o.by_) || (o.elapsed.isSome && Rfe.takesPart s i)
     | none => false)

/-! ### Calibration commands (R57, R59) -/

/-- Number of a calibration in CAL_STAT.STEP. -/
def CalKind.code : CalKind → Nat
  | .dc => 1 | .filter => 2 | .image => 3 | .osc => 4

/-- Duration of a calibration in update periods (R57). -/
def CalKind.periods : CalKind → Nat
  | .dc => 2 | .filter => 10 | .image => 20 | .osc => 5

/-- Request a band LO calibration, or join the one that stands (R59): by a command of chain `i`, or by AUTO_OSC (R61). -/
def Rfe.requestOsc (s : State) (i : Nat) (auto : Bool) : State :=
  let band := Rfe.band i
  let o := (s.oscOf band).getD ⟨[], false, none⟩
  s.setOsc band (some (if auto then { o with auto := true } else { o with by_ := i :: o.by_.filter (· ≠ i) }))

/-- A write of CAL_CMD (R57): the command bits of `v` are DC, FILTER, IMAGE, OSC, ALL from bit 0; where several refusals hold, the
first of CAL_DISABLED, CAL_FROZEN, CAL_BUSY is logged (DESIGN CHOICE, log entry 32). -/
def Rfe.calCmd (s : State) (req i v : Nat) : State :=
  let p := Rfe.page i
  let a := pg p + 0x0E0
  let bits := v % 32
  if bits = 0 then s
  else if !s.en p then s.logErr p 0x43 a req
  else if s.frozen p || s.flag (pg p) H.FREEZE then s.logErr p 0x41 a req
  else if bits = 8 && Rfe.oscPending s (Rfe.band i) then
    (if (s.oscOf (Rfe.band i)).isSome then Rfe.requestOsc s i false else s)
  else if Rfe.busy s i then s.logErr p 0x40 a req
  else
    let has (k : Nat) : Bool := v.testBit k || (k < 3 && v.testBit 4)
    let q := (if has 0 then [CalKind.dc] else []) ++ (if has 1 then [.filter] else []) ++
      (if has 2 then [.image] else [])
    if v.testBit 3 then
      if q = [] then Rfe.requestOsc s i false else s.modCh i (fun c => { c with calQ := q ++ [.osc] })
    else s.modCh i (fun c => { c with calQ := q })

/-- A firmware write to a result register takes effect at once unless the chain is busy (R60). -/
def Rfe.resultWrite (s : State) (req i a v : Nat) : State :=
  if Rfe.busy s i then s.logErr (Rfe.page i) 0x40 a req else s.setReg a v

/-- Record a failed or abandoned step (R60, R466). -/
def Rfe.fail (s : State) (i step : Nat) : State :=
  let b := Rfe.b i
  let s := if s.flag b Rfe.CAL_STAT_FAIL then s else s.put b Rfe.CAL_STAT_FAIL_STEP step
  (s.put b Rfe.CAL_STAT_FAIL 1).raise (Rfe.page i) 1

/-- CAL_STAT.RUNNING and STEP of a chain from what runs. -/
def Rfe.showCal (s : State) (i : Nat) : State :=
  let b := Rfe.b i
  let step := match (s.ch i).calRun with
    | some (k, _) => k.code
    | none => if s.oscRuns (Rfe.band i) && Rfe.takesPart s i then 4 else 0
  (s.put b Rfe.CAL_STAT_STEP step).put b Rfe.CAL_STAT_RUNNING (b2n (step != 0))

/-- Is the antenna on the chain's input (R58): not while its DC, FILTER or IMAGE calibration runs? -/
def Rfe.antennaIn (s : State) (i : Nat) : Bool := (s.ch i).calRun.isNone

/-- A band LO calibration that no chain takes part in any more is abandoned; its LO is released under its lock rule on the band it
has (R466). -/
def Rfe.oscCheck (s : State) (band : Nat) : State :=
  match s.oscOf band with
  | none => s
  | some o =>
    if Rfe.parts s band = [] then
      let s := s.setOsc band none
      if o.elapsed.isSome then (s.put (Pll.b (4 + band)) Pll.PLL_STAT_STATE 2).modPll (4 + band) (fun x => { x with keep := true, good := 0 })
      else s
    else if o.elapsed.isNone ∧ o.by_ = [] ∧ !o.auto then s.setOsc band none
    else s

/-- A chain stops taking part in calibrations: it is frozen or disabled; `part` says whether it took part in one of its band's LO
(R466).  R466's list names no CAL_DONE, and none is raised (DEDUCED, log entry 33). -/
def Rfe.abandon (s : State) (i : Nat) (part : Bool) : State :=
  let s := match (s.ch i).calRun with
    -- samples become valid again at the next update tick (R78)
    | some (k, _) =>
      (Rfe.fail s i k.code).modCh i (fun c => { c with valid := false, back := true, cut := some k })
    | none => s
  let s := s.modCh i (fun c => { c with calRun := none, calQ := [] })
  let band := Rfe.band i
  let s := match s.oscOf band with
    | some o =>
      let s := if o.elapsed.isSome && part then Rfe.fail s i 4 else s
      s.setOsc band (some { o with by_ := o.by_.filter (· ≠ i) })
    | none => s
  (Rfe.showCal (Rfe.oscCheck s band) i).noteValid

/-- A chain stops under FREEZE: a power-up wait that has begun is held (R78). -/
def Rfe.freeze (s : State) (i : Nat) : State :=
  (Rfe.abandon s i (s.en (Rfe.page i))).modCh i (fun c => { c with waitHeld := match c.wait with | some n => decide (n < 2) | none => false })

/-- EN written to 0 (R51, R466), or a soft reset of the page. -/
def Rfe.disable (s : State) (i : Nat) : State :=
  ((Rfe.abandon s i (!s.frozen (Rfe.page i))).modCh i (fun c =>
    { c with wait := none, waitHeld := false, valid := false, back := false, lostLo := false })).noteValid

/-- EN going to 1 (R63): the analog path powers up and waits 2 periods. -/
def Rfe.enable (s : State) (i : Nat) : State :=
  (Rfe.showCal (s.modCh i (fun c => { c with wait := some 2, waitHeld := false, valid := false, back := false, lostLo := false })) i).noteValid

/-- A spectral average that begins at the present sample, after `seq` records. -/
def Rfe.monNew (s : State) (seq : Nat) (toB : Bool) : Mon := ⟨seq, toB, 63, 0, false, false, s.sampleAt s.now, []⟩

/-- A frozen chain resumes: its monitor restarts the average, SEQ continues (R78). -/
def Rfe.resume (s : State) (i : Nat) : State :=
  Rfe.showCal (s.modCh i (fun c => { c with mon := Rfe.monNew s c.mon.seq c.mon.toB })) i

/-! ### The hand-over and its checks (R54, R465) -/

/-- Largest word of ±BW/2 in units of 81.84 MHz / 2^24. -/
def Rfe.halfBw (bw : Nat) : Int := ((bw * 500000 * 2 ^ 24 / 81840000 : Nat) : Int)

/-- Clamp a working frequency field into ±`lim`, logged under R461. -/
def Rfe.clampWork (s : State) (i req : Nat) (b : Nat) (f : Fld) (lim : Int) : State :=
  let v := s.wgetI b f
  let v' := clampI (-lim) lim v
  if v = v' then s else (s.wput b f (ofSigned f.w v')).logErr (Rfe.page i) E.RANGE_CLAMPED (b + f.off) req

/-- Notch `k` starts its release count anew. -/
def Rfe.relZero (s : State) (i k : Nat) : State := s.modCh i (fun c => { c with rel := c.rel.set k 0 })

/-- Take an armed commit at the update tick and apply what the taken generation changes (R54, R67, R465).  Answers whether it sets
the gain, and the notches whose frequency it commits. -/
def Rfe.handOver (s : State) (i : Nat) : State × Bool × List Nat :=
  let p := Rfe.page i
  let b := pg p
  let monWas := s.wflag b Rfe.MON_CFG_MON_EN
  match s.takePage p with
  | (s, none) => (s, false, [])
  | (s, some c) =>
    let s0 := s
    -- GAIN_MIN above GAIN_MAX is taken as GAIN_MIN = GAIN_MAX
    let gmin := s.wget b Rfe.GAIN_CTL_GAIN_MIN
    let gmax := s.wget b Rfe.GAIN_CTL_GAIN_MAX
    let s := if gmax < gmin then
        (s.wput b Rfe.GAIN_CTL_GAIN_MIN gmax).logErr p E.RANGE_CLAMPED (b + 0x044) c.req else s
    let half := Rfe.halfBw (s.wget b Rfe.CHAIN_CFG_BW)
    -- notches: the clamp of FREQ, mode changes, committed frequencies, F_NOW of tracking notches within the new bandwidth
    let s := s.each (List.range 4) (fun s k =>
      let nb := b + 0x060 + 0x10 * k
      let s := Rfe.clampWork s i c.req nb { Rfe.NOTCH_FREQ_FREQ with off := 4 } half
      let mode := s.wget nb ⟨0, 0, 2⟩
      let st := s.get nb ⟨8, 24, 2⟩
      let fq := s.wgetI nb ⟨4, 0, 24⟩
      if mode = 0 then Rfe.relZero (s.put nb ⟨8, 24, 2⟩ 0) i k
      else if mode = 1 then Rfe.relZero ((s.put nb ⟨8, 24, 2⟩ 3).putI nb ⟨8, 0, 24⟩ fq) i k
      else if k ∈ (s.ch i).freqWr then Rfe.relZero ((s.put nb ⟨8, 24, 2⟩ 2).putI nb ⟨8, 0, 24⟩ fq) i k
      else if st = 2 then
        let f := s.getI nb ⟨8, 0, 24⟩
        let f' := clampI (-half) half f
        if f = f' then s else (s.putI nb ⟨8, 0, 24⟩ f').logErr p E.RANGE_CLAMPED (nb + 8) c.req
      else s.put nb ⟨8, 24, 2⟩ 1)
    -- MON_EN with no buffer leaves the monitor off
    let s := if s.wflag b Rfe.MON_CFG_MON_EN && s.wget b Rfe.MON_DST_ADDR == 0 then
        (s.wput b Rfe.MON_CFG_MON_EN 0).logErr p 0x42 (b + 0x0B0) c.req else s
    let s := if i < 2 then
        Rfe.clampWork s i c.req b Rfe.LANT_OFS_OFS (((s.wget b Rfe.CHAIN_CFG_BW - 2) * 500000 * 2 ^ 24 / 81840000 : Nat) : Int)
      else s
    let s := s0.logOnce s p
    -- the average, SEQ and VALID start anew when MON_EN is set
    let s := if s.wflag b Rfe.MON_CFG_MON_EN && !monWas then
        (s.modCh i (fun c => { c with mon := Rfe.monNew s 0 false })).put b Rfe.MON_STAT_VALID 0
      else s
    let wr := (s.ch i).gainWr
    let fq := (s.ch i).freqWr
    let s := s.modCh i (fun c => { c with gainWr := false, freqWr := [] })
    if wr then
      (s.put b Rfe.GAIN_STAT_GAIN_NOW (clampN (s.wget b Rfe.GAIN_CTL_GAIN_MIN) (s.wget b Rfe.GAIN_CTL_GAIN_MAX)
        (s.wget b Rfe.GAIN_CTL_MAN_GAIN)), true, fq)
    else (s, false, fq)

/-! ### The digital path over a period (R49, R64, R65, R67) -/

/-- What a period shows of a chain: samples clipped at the converter, samples measured at step 7 and their sum of I² + Q² (R55), the
step 7 samples themselves, and samples blanked. -/
structure Rfe.Seen where
  clipped : Nat
  nMeas   : Nat
  sumSq   : Nat
  seven   : List (Int × Int)
  blanked : Nat

/-- Settings of the digital path over the period that ends. -/
def Rfe.pathCfg (s : State) (i : Nat) : Dsp.Cfg :=
  let b := Rfe.b i
  { tc := s.wget b Rfe.CHAIN_CFG_DC_TC
    img := if s.wflag b Rfe.CHAIN_CFG_IMG_CORR then some (s.getI b Rfe.IMG_RES_GAIN_C, s.getI b Rfe.IMG_RES_PHASE_C) else none
    thr := if s.wflag b Rfe.BLANK_CFG_BLANK_EN && !(s.ch i).satSkip then (s.ch i).thr else none
    pre := s.wget b Rfe.BLANK_CFG_PRE_LEN
    post := s.wget b Rfe.BLANK_CFG_BLANK_LEN }

/-- Is the band's Lantern tone on (R73)? -/
def State.lantOn (s : State) (band : Nat) : Bool := s.wflag (Rfe.b band) Rfe.LANT_CFG_LANT_ON

/-- A step of a tracking notch's frequency from `f` by `d` in a period that began at `f0`: slew, bandwidth and Lantern guard (R67). -/
def Rfe.notchStep (s : State) (i : Nat) (f0 f d : Int) : Int :=
  let b := Rfe.b i
  let slew : Int := ((s.wget b Rfe.NOTCH_GLB_SLEW * 1000 * 2 ^ 24 / 81840000 : Nat) : Int)
  let half := Rfe.halfBw (s.wget b Rfe.CHAIN_CFG_BW)
  let t := clampI (-half) half (clampI (f0 - slew) (f0 + slew) (f + d))
  if s.lantOn (Rfe.band i) then
    let c := s.wgetI (Rfe.b (Rfe.band i)) Rfe.LANT_OFS_OFS
    let g : Int := 10251
    if f ≤ c - g then min t (c - g) else if c + g ≤ f then max t (c + g) else t
  else t

/-- Notch `k` over the samples of a period: a TRACKING one adapts where `adapt` says so; NOTCH_ATT is 0 where it does not filter (R67)
(DESIGN CHOICE, log entry 103). -/
def Rfe.notchRun (s : State) (i k : Nat) (adapt : Bool) (tone : Nat) (xs : List (Int × Int)) : State × List (Int × Int) :=
  let nb := Rfe.b i + 0x060 + 0x10 * k
  let st := s.get nb ⟨8, 24, 2⟩
  let setW (s : State) (w : Int × Int) : State :=
    s.modCh i (fun c => { c with path := { c.path with notch := c.path.notch.set k w } })
  if st = 2 ∨ st = 3 then
    let r := s.wget nb ⟨0, 4, 4⟩
    let f0 := s.getI nb ⟨8, 0, 24⟩
    let move (f : Int) (w y : Int × Int) : Int :=
      if st = 2 ∧ adapt then Rfe.notchStep s i f0 f (Dsp.shr 4 (Config.notchSense r f w y) (s.wget nb ⟨0, 8, 4⟩)) else f
    let (ys, w, f) := Dsp.notchAll r move (((s.ch i).path.notch[k]?).getD (0, 0)) f0 xs
    let s := (setW s w).putI nb ⟨8, 0, 24⟩ f
    let (att, s) := s.showDb (Dsp.power xs) (Dsp.power ys)
    ((s.put nb ⟨0xC, 0, 16⟩ att).put nb ⟨0xC, 16, 16⟩ tone, ys)
  else (((setW s (0, 0)).put nb ⟨0xC, 0, 16⟩ 0).put nb ⟨0xC, 16, 16⟩ 0, xs)

/-- Steps 5 to 11 of a chain over the period whose first sample is `first` (R49): `x.adc` enters the delay line, what leaves it goes
through the blanker and notches 0 to 3 to the chain output. -/
def Rfe.runPath (s : State) (i first : Nat) (x : ChainIn) (adapt : Bool) : State × Rfe.Seen :=
  let p := (s.ch i).path
  let (p, l) := Dsp.enterAll (Rfe.pathCfg s i) (fun k => s.validAt i (first + k)) p p.line.reverse x.adc
  let all := l.reverse
  let left := all.take x.adc.length
  let s := s.modCh i (fun c => { c with path := { p with line := all.drop x.adc.length } })
  let (s, out) := (List.range 4).foldl (fun (a : State × List (Int × Int)) k =>
      Rfe.notchRun a.1 i k adapt ((x.tone[k]?).getD 0) a.2)
    (s, left.map (fun e => if e.zero then (0, 0) else (e.i, e.q)))
  -- the array still needs the last samples of the period before (spec/07 R171)
  let s := s.modCh i (fun c =>
    let old := if c.outAt + c.out.length = first then c.out.drop (c.out.length - Arr.reach) else []
    { c with outAt := first - old.length, out := old ++ out })
  let entered := all.drop 16
  let meas := (entered.drop 48).filter (fun e => e.valid && !e.zero)
  let full (v : Int) : Bool := v == 127 || v == -128
  (s, ⟨(x.adc.filter (fun v => full v.1 || full v.2)).length, meas.length, Dsp.power (meas.map (fun e => (e.i, e.q))),
    entered.map (fun e => (e.i, e.q)), (left.filter (fun e => e.zero)).length⟩)

/-! ### AGC (R55, R56) -/

/-- The gain that follows a period's measurement (R55). -/
def Rfe.agcGain (s : State) (i : Nat) (x : Rfe.Seen) : Nat :=
  let b := Rfe.b i
  let g := s.get b Rfe.GAIN_STAT_GAIN_NOW
  let lo := s.wget b Rfe.GAIN_CTL_GAIN_MIN
  let hi := s.wget b Rfe.GAIN_CTL_GAIN_MAX
  let att := s.wget b Rfe.AGC_CFG_ATTACK_MAX
  let dec := s.wget b Rfe.AGC_CFG_DECAY_MAX
  let sh := s.wget b Rfe.AGC_CFG_AGC_SH
  let db := s.wget b Rfe.AGC_CFG_DEADBAND
  let ref := 2 * s.wget b Rfe.AGC_CFG_AGC_TGT ^ 2 * x.nMeas
  if x.nMeas = 0 then g
  else if x.clipped > 81 then clampN lo hi (g - att)
  else if ref ≤ x.sumSq then
    if dbWithin x.sumSq ref db then g else clampN lo hi (g - min (dbSteps x.sumSq ref sh 15) att)
  else if x.sumSq = 0 then clampN lo hi (g + dec)
  else if dbWithin ref x.sumSq db then g else clampN lo hi (g + min (dbSteps ref x.sumSq sh 15) dec)

/-- Store the measured power (AGC_POWER): 0 where there was no measurement. -/
def Rfe.putPower (s : State) (i n sum : Nat) : State :=
  let b := Rfe.b i
  let s := s.put b Rfe.AGC_POWER_N_MEAS n
  if n = 0 then s.put b Rfe.AGC_POWER_P_DB 0
  else
    let (v, s) := s.showDb sum n
    s.put b Rfe.AGC_POWER_P_DB v

/-- Count consecutive ticks at a gain limit (R56). -/
def Rfe.gainLimit (s : State) (i : Nat) : State :=
  let b := Rfe.b i
  let g := s.get b Rfe.GAIN_STAT_GAIN_NOW
  if g = s.wget b Rfe.GAIN_CTL_GAIN_MIN ∨ g = s.wget b Rfe.GAIN_CTL_GAIN_MAX then
    let n := min ((s.ch i).lim + 1) 11
    let s := s.modCh i (fun c => { c with lim := n })
    if n = 10 then (s.put b Rfe.GAIN_STAT_AT_LIMIT 1).raise (Rfe.page i) 11 else s
  else (s.put b Rfe.GAIN_STAT_AT_LIMIT 0).modCh i (fun c => { c with lim := 0 })

/-- Samples clipped in the period, and CLIP. -/
def Rfe.clipTick (s : State) (i clipped : Nat) : State :=
  (s.put (Rfe.b i) Rfe.GAIN_STAT_CLIP_CNT (min clipped 65535)).raiseIf (decide (81 < clipped)) (Rfe.page i) 2

/-- The AGC's part of a tick: measurement, and gain step unless a commit has just set the gain or a calibration holds it (R54, R55, R58). -/
def Rfe.agcTick (s : State) (i : Nat) (x : Rfe.Seen) (keepGain : Bool) : State :=
  let b := Rfe.b i
  let s := if s.wflag b Rfe.GAIN_CTL_AGC_EN then
      let g := Rfe.agcGain s i x
      Rfe.putPower (if keepGain then s else s.put b Rfe.GAIN_STAT_GAIN_NOW g) i x.nMeas x.sumSq
    else Rfe.putPower s i 0 0
  Rfe.gainLimit s i

/-! ### Blanking, notches, Lantern (R65 to R69, R74) -/

/-- The largest number below 2^`n` + `acc` for which `p` holds, found bit by bit from the top; `acc` where it holds for none. -/
def searchTop (p : Nat → Bool) : Nat → Nat → Nat
  | 0, acc => acc
  | n + 1, acc => searchTop p n (if p (acc + 2 ^ n) then acc + 2 ^ n else acc)

/-- The blanking threshold of the coming period: the whole part of (K / 4)² × P_ref, P_ref the power measured over the last one times
the gain change `up` − `down` dB applied at this tick; none while P_ref is 0 (R65, R66). -/
def Rfe.threshold (k n sum up down : Nat) : Option Nat :=
  if n = 0 ∨ sum = 0 then none
  else some (searchTop (fun t => (16 * n * t) ^ 10 * 10 ^ down ≤ (k * k * sum) ^ 10 * 10 ^ up) 16 0)

/-- The blanking record of the period (R65, R66). -/
def Rfe.blankTick (s : State) (i n : Nat) : State :=
  let b := Rfe.b i
  let sat := decide (s.wget b Rfe.BLANK_CFG_BLANK_CAP * 8184 < 100 * n)
  let s := (s.put b Rfe.BLANK_STAT_BLANKED n).put b Rfe.BLANK_STAT_BLANK_SAT (b2n sat)
  (s.modCh i (fun c => { c with satSkip := sat })).raiseIf sat (Rfe.page i) 3

/-- Notch `k` releases to SEEKING (R67). -/
def Rfe.notchRelease (s : State) (i k : Nat) : State :=
  ((s.put (Rfe.b i + 0x060 + 0x10 * k) ⟨8, 24, 2⟩ 1).modCh i (fun c => { c with rel := c.rel.set k 0 })).raise (Rfe.page i) 5

/-- The release decision of a notch that tracked over the period (R67). -/
def Rfe.notchTick (s : State) (i k : Nat) (tone : Nat) : State :=
  let n := if tone % 2 ^ 16 < 256 * s.wget (Rfe.b i) Rfe.NOTCH_GLB_RELEASE_THR then ((s.ch i).rel[k]?).getD 0 + 1 else 0
  let s := s.modCh i (fun c => { c with rel := c.rel.set k n })
  if s.wget (Rfe.b i) Rfe.NOTCH_GLB_RELEASE_CNT ≤ n then Rfe.notchRelease s i k else s

/-- Is notch `k` in TRACKING? -/
def Rfe.tracks (s : State) (i k : Nat) : Bool := s.get (Rfe.b i + 0x060 + 0x10 * k) ⟨8, 24, 2⟩ == 2

/-- Two tracking notches nearer than 2 × 2^-R × 81.84 MHz / π, R the smaller depth (R68); π to 15 places. -/
def Rfe.tooClose (s : State) (i j k : Nat) : Bool :=
  let b := Rfe.b i + 0x060
  let r := min (s.wget (b + 0x10 * j) ⟨0, 4, 4⟩) (s.wget (b + 0x10 * k) ⟨0, 4, 4⟩)
  let d := (s.getI (b + 0x10 * j) ⟨8, 0, 24⟩ - s.getI (b + 0x10 * k) ⟨8, 0, 24⟩).natAbs
  d * 3141592653589793 < 2 ^ (25 - r) * 1000000000000000

/-- The tracking notches that have come too close to a lower-numbered one (R68). -/
def Rfe.collisions (s : State) (i : Nat) : List Nat :=
  [(0, 1), (0, 2), (1, 2), (0, 3), (1, 3), (2, 3)].foldl (fun (l : List Nat) (j, k) =>
    if Rfe.tracks s i j && Rfe.tracks s i k && !l.contains j && !l.contains k && Rfe.tooClose s i j k then k :: l else l) []

/-- Did a calibration of the chain, or FILTER or IMAGE on its partner, overlap the period (R58)? -/
def Rfe.skipped (s : State) (i : Nat) : Bool :=
  let ran (j : Nat) : Option CalKind := match (s.ch j).calRun with
    | some (k, _) => some k
    | none => (s.ch j).cut
  (ran i).isSome || ran (Rfe.partner i) == some .filter || ran (Rfe.partner i) == some .image

/-- The Lantern correlation of the period that began at sample `first`, tick `t` (R74). -/
def Rfe.lantTick (s : State) (i first t : Nat) (skip : Bool) (seven : List (Int × Int)) : State :=
  let b := Rfe.b i
  if s.lantOn (Rfe.band i) && s.validSpan i first 8184 && !skip then
    let (x, y) := Dsp.tone (s.wgetI (Rfe.b (Rfe.band i)) Rfe.LANT_OFS_OFS) first seven
    (((s.putI b Rfe.LANT_I_VALUE x).putI b Rfe.LANT_Q_VALUE y).put b Rfe.LANT_T_T (replica 0 t)).raise (Rfe.page i) 12
  else s

/-! ### Calibration progress (R57 to R63) -/

/-- The last step of the power-up ends: samples become valid and the AGC starts from MAN_GAIN (R63). -/
def Rfe.powerUpDone (s : State) (i : Nat) : State :=
  let b := Rfe.b i
  (s.modCh i (fun c => { c with valid := true })).put b Rfe.GAIN_STAT_GAIN_NOW
    (clampN (s.wget b Rfe.GAIN_CTL_GAIN_MIN) (s.wget b Rfe.GAIN_CTL_GAIN_MAX) (s.wget b Rfe.GAIN_CTL_MAN_GAIN))

/-- Die temperature in 0.25 °C (POWER DIE_TEMP). -/
def State.dieTemp (s : State) : Int := s.getI (pg 0x0A0) Power.DIE_TEMP_T

/-- Die temperature in whole °C, rounded down (DESIGN CHOICE, log entry 12). -/
def State.dieDeg (s : State) : Int := floorDiv s.dieTemp 4

/-- A calibration of the chain ends: CAL_DONE, results or failure (R60) (DEDUCED, log entry 33). -/
def Rfe.calEnd (s : State) (i : Nat) (k : CalKind) (x : ChainIn) : State :=
  let b := Rfe.b i
  let s := (s.modCh i (fun c => { c with calRun := none })).raise (Rfe.page i) 0
  if x.okCal then
    match k with
    | .dc => (s.putI b Rfe.DC_RES_DC_I x.res1).putI b Rfe.DC_RES_DC_Q x.res2
    | .filter => s.putI b Rfe.FILT_RES_TRIM x.res1
    | .image =>
      (((s.putI b Rfe.IMG_RES_GAIN_C x.res1).putI b Rfe.IMG_RES_PHASE_C x.res2).put b Rfe.IMG_DB_REJ x.rej).putI b
        Rfe.CAL_STAT_T_IMG s.dieDeg
    | .osc => s
  else Rfe.fail s i k.code

/-- Start the next requested calibration of the chain at this tick (R57). -/
def Rfe.calNext (s : State) (i : Nat) : State :=
  let c := s.ch i
  match c.calRun, c.calQ with
  | none, .osc :: _ => Rfe.requestOsc (s.modCh i (fun c => { c with calQ := [] })) i false
  | none, k :: t => s.setCh i { c with calRun := some (k, k.periods), calQ := t }
  | none, [] => s
  | some _, _ => s

/-- Calibrations and the power-up wait of a chain at a tick. -/
def Rfe.calTick (s : State) (i : Nat) (x : ChainIn) : State :=
  let b := Rfe.b i
  let c := s.ch i
  let s := match c.wait, c.waitHeld with
    -- the wait held by a freeze resumes at this tick for the periods that remained (R78)
    | some _, true => s.modCh i (fun c => { c with waitHeld := false })
    | some 0, false =>
      let s := s.modCh i (fun c => { c with wait := none })
      if s.flag b Rfe.CHAIN_CFG_AUTO_CAL then s.modCh i (fun c => { c with calQ := [.dc, .filter, .image] })
      else Rfe.powerUpDone s i
    | some (n + 1), false => s.modCh i (fun c => { c with wait := some n })
    | none, _ => s
  let starting := !c.valid
  let s := match c.calRun with
    | some (k, n + 2) => s.modCh i (fun c => { c with calRun := some (k, n + 1) })
    | some (k, _) =>
      let s := Rfe.calEnd s i k x
      if starting && (s.ch i).calQ == [] then Rfe.powerUpDone s i else s
    | none => s
  Rfe.showCal (Rfe.calNext s i) i

/-- The band LO is released after an OSC calibration that gave no new band: on the band it used before (R60, R355). -/
def Rfe.loBack (s : State) (band : Nat) : State :=
  let b := Pll.b (4 + band)
  let s := ((s.put b Pll.PLL_STAT_STATE 3).put b Pll.PLL_STAT_GATED 0).put b Pll.PLL_STAT_FEEDING 1
  ((s.count b Pll.PLL_EVENTS_RELOCKS).raise (Pll.page (4 + band)) (2 * Pll.blk (4 + band) + 1)).noteValid

/-- The band LO calibration of a band at a tick: the LO is gated from its start, for two periods on a stored band, five on a full
search, and then released (R51, R57, R59; DEDUCED, log entry 99). -/
def Rfe.oscTick (s : State) (band : Nat) (x : ChainIn) : State :=
  match s.oscOf band with
  | none => s
  | some o =>
    let pb := pg 0x00A + 0x100 + 0x40 * band
    let parts := Rfe.parts s band
    let finish (s : State) : State :=
      let s := s.each parts (fun s i =>
        let b := Rfe.b i
        let s := s.raise (Rfe.page i) 0
        if x.okOsc then
          (((s.put b Rfe.OSC_RES_VCO_BAND x.band).putI b Rfe.CAL_STAT_T_OSC s.dieDeg).put b Rfe.CAL_STAT_LO_CAL_DUE 0).modCh i
            (fun c => { c with tOsc := s.dieTemp })
        else Rfe.fail s i 4)
      let s := if x.okOsc then s.release (4 + band) x.band else Rfe.loBack s band
      (s.setOsc band none).each parts (fun s i => Rfe.showCal s i)
    match o.elapsed with
    | none =>
      ((s.setOsc band (some { o with elapsed := some 0 })).gatedChange (4 + band)).each parts (fun s i => Rfe.showCal s i)
    | some n =>
      let stored := s.flag pb Pll.PLL_CTL_USE_STORED && s.flag pb Pll.PLL_STAT_BAND_VALID && x.okStored
      if (n + 1 = 2 ∧ stored) ∨ 5 ≤ n + 1 then finish s
      else s.setOsc band (some { o with elapsed := some (n + 1) })

/-- LO_UNLOCK once for each loss of lock of the band LO that no OSC calibration causes, at the first tick at which LO_LOCKED reads 0
(R62). -/
def Rfe.unlockTick (s : State) (i : Nat) : State :=
  if (s.ch i).lostLo && !(s.loUp (Rfe.band i) && !s.oscRuns (Rfe.band i)) then
    (s.modCh i (fun c => { c with lostLo := false })).raise (Rfe.page i) 9
  else s

/-- What the spectral average remembers of a period at gain `g` that is not skipped (R58, R71). -/
def Rfe.monTick (s : State) (i first g : Nat) (skip : Bool) (clipped : Nat) : State :=
  let sat := s.flag (Rfe.b i) Rfe.BLANK_STAT_BLANK_SAT
  if !s.wflag (Rfe.b i) Rfe.MON_CFG_MON_EN then s
  else if skip then s.modCh i (fun c => { c with mon := { c.mon with skips := first :: c.mon.skips } })
  else s.modCh i (fun c => { c with mon := { c.mon with
    gainLo := min c.mon.gainLo g, gainHi := max c.mon.gainHi g, clip := c.mon.clip || clipped != 0, sat := c.mon.sat || sat } })

/-- What an update tick first does for a chain: its digital path over the period that has ended, with the settings in force in it
(R49, R65, R66, R74); a frozen chain's path runs on, its notches do not adapt, its monitor and Lantern detector have stopped (R78). -/
def Rfe.ended (s : State) (i first t : Nat) (skip : Bool) (x : ChainIn) : State × Rfe.Seen :=
  if !s.en (Rfe.page i) then (s, ⟨0, 0, 0, [], 0⟩)
  else
    let held := s.frozen (Rfe.page i) || (s.ch i).calRun.isSome || (s.ch i).cut.isSome
    let g := s.get (Rfe.b i) Rfe.GAIN_STAT_GAIN_NOW
    let (s, y) := Rfe.runPath s i first x (!held)
    let s := Rfe.clipTick (Rfe.blankTick s i y.blanked) i y.clipped
    if s.frozen (Rfe.page i) then (s, y)
    else (Rfe.lantTick (Rfe.monTick s i first g skip y.clipped) i first t skip y.seven, y)

/-- Hand-over, AGC and notch decisions of a chain at an update tick (R53 to R56, R66 to R68). -/
def Rfe.decide_ (s : State) (i : Nat) (x : ChainIn) (y : Rfe.Seen) : State :=
  let p := Rfe.page i
  let s := if s.en p && (s.ch i).back then s.modCh i (fun c => { c with valid := true, back := false }) else s
  let close := Rfe.collisions s i
  let was := (List.range 4).filter (fun k => Rfe.tracks s i k)
  let cal := (s.ch i).calRun.isSome || (s.ch i).cut.isSome
  let (s, setG, fq) := Rfe.handOver s i
  if !s.en p || s.frozen p then s
  else
    let s := Rfe.agcTick s i y (setG || cal)
    if cal then s
    else s.each (was.filter (fun k => !fq.contains k && Rfe.tracks s i k)) (fun s k =>
      if close.contains k then Rfe.notchRelease s i k else Rfe.notchTick s i k ((x.tone[k]?).getD 0))

/-- The calibrations of a chain at an update tick, what a capture sees of its gain and clipping, and its blanking threshold for the
coming period; `g0` is the gain before the tick. -/
def Rfe.settle (s : State) (i g0 : Nat) (x : ChainIn) (y : Rfe.Seen) : State :=
  let p := Rfe.page i
  let s := s.modCh i (fun c => { c with cut := none })
  if !s.en p then s
  else if s.frozen p then Rfe.unlockTick s i
  else
    let s := Rfe.calTick (Rfe.unlockTick s i) i x
    let g := s.get (pg p) Rfe.GAIN_STAT_GAIN_NOW
    let s := if g = g0 then s else Snap.gain s i g
    let s := if 81 < y.clipped then Snap.clip s i else s
    let n := if s.wflag (pg p) Rfe.GAIN_CTL_AGC_EN then y.nMeas else 0
    s.modCh i (fun c => { c with thr := Rfe.threshold (s.wget (pg p) Rfe.BLANK_CFG_BLANK_K) n y.sumSq (g - g0) (g0 - g) })

/-- UPDATE_TICK: 64,000 ticks (8,184 sample clocks) after the last one; all four chains (R52).  What has ended is evaluated for every
chain before any of them takes a hand-over or starts a calibration. -/
def execUpdateTick (c0 c1 c2 c3 : ChainIn) (s : State) : Out :=
  if !s.running .rf then .next s
  else
    let t := s.rfLast
    let first := s.sampleAt t
    let s := s.runTo (t + 64000)
    let s := { s with rfLast := t + 64000 }
    let g (i : Nat) : Nat := s.get (Rfe.b i) Rfe.GAIN_STAT_GAIN_NOW
    let k (i : Nat) : Bool := Rfe.skipped s i
    let (g0, g1, g2, g3) := (g 0, g 1, g 2, g 3)
    let (k0, k1, k2, k3) := (k 0, k 1, k 2, k 3)
    let (s, y0) := Rfe.ended s 0 first t k0 c0
    let (s, y1) := Rfe.ended s 1 first t k1 c1
    let (s, y2) := Rfe.ended s 2 first t k2 c2
    let (s, y3) := Rfe.ended s 3 first t k3 c3
    let s := Rfe.decide_ (Rfe.decide_ (Rfe.decide_ (Rfe.decide_ s 0 c0 y0) 1 c1 y1) 2 c2 y2) 3 c3 y3
    let s := Rfe.settle (Rfe.settle (Rfe.settle (Rfe.settle s 0 g0 c0 y0) 1 g1 c1 y1) 2 g2 c2 y2) 3 g3 c3 y3
    let s := (Rfe.oscTick (Rfe.oscTick s 0 c0) 1 c1).noteValid
    let s := Arr.settle (Arr.saturate s)
    -- the update tick is the hand-over instant of the ARR page with HO_SRC = 0 (spec/07 R172)
    .next (if s.flag Arr.b Arr.ARR_CTL_HO_SRC then s else Arr.handOver s)

/-! ### Spectral monitor (R69 to R72) -/

/-- Insert into a list sorted from the smallest. -/
def insAsc (x : Nat) : List Nat → List Nat
  | [] => [x]
  | y :: t => if x ≤ y then x :: y :: t else y :: insAsc x t

/-- Sort ascending. -/
def sortAsc : List Nat → List Nat
  | [] => []
  | x :: t => insAsc x (sortAsc t)

/-- Index and value of the strongest entry, the lowest index among equals (DESIGN CHOICE, log entry 12). -/
def peakOf (l : List Nat) : Nat × Nat :=
  (l.foldl (fun (acc : Nat × Nat × Nat) v => (acc.1 + 1, if acc.2.2 < v then (acc.1, v) else acc.2)) (0, 0, l.headD 0)).2

/-- May bin `k` seed a notch (R69)? -/
def Rfe.seedBin (s : State) (i median : Nat) (k v : Nat) : Bool :=
  let b := Rfe.b i
  let f : Int := ((k : Int) - 2048) * 4096
  let band := Rfe.band i
  let guard := s.lantOn band && decide ((f - s.wgetI (Rfe.b band) Rfe.LANT_OFS_OFS).natAbs < 10251)
  let near := (List.range 4).any (fun n =>
    let nb := b + 0x060 + 0x10 * n
    s.get nb ⟨8, 24, 2⟩ == 2 &&
      decide ((f - s.getI nb ⟨8, 0, 24⟩).natAbs * 3141592653589793 < 2 ^ (25 - s.wget nb ⟨0, 4, 4⟩) * 1000000000000000))
  decide (median + 256 * s.wget b Rfe.NOTCH_GLB_SEED_THR ≤ v) && !guard && !near

/-- Seed the seeking notches with AUTO_SEED, lowest number first, strongest bin first (R69)
(DESIGN CHOICE, log entry 34). -/
def Rfe.seed (s : State) (i median : Nat) (bins : List Nat) : State :=
  s.each (List.range 4) (fun s n =>
    let nb := Rfe.b i + 0x060 + 0x10 * n
    if s.get nb ⟨8, 24, 2⟩ = 1 ∧ s.wflag nb ⟨0, 12, 1⟩ ∧ s.wget nb ⟨0, 0, 2⟩ = 2 then
      let cand := (List.range bins.length).map (fun k =>
        let v := (bins[k]?).getD 0
        if Rfe.seedBin s i median k v then v + 1 else 0)
      let (k, v) := peakOf cand
      if v = 0 then s
      else ((s.put nb ⟨8, 24, 2⟩ 2).putI nb ⟨8, 0, 24⟩ (((k : Int) - 2048) * 4096)).raise (Rfe.page i) 4
    else s)

/-- Is the block of 4,096 samples from `n` of chain `i` counted: valid throughout, and in no skipped period (R70)? -/
def Rfe.goodBlock (s : State) (i n : Nat) : Bool :=
  s.validSpan i n 4096 && (s.ch i).mon.skips.all (fun p => decide (p + 8184 ≤ n ∨ n + 4096 ≤ p))

/-- The first samples of the next `k` blocks counted from `n` on, one block every `stride` (R70). -/
def Rfe.blocksFrom (s : State) (i stride : Nat) : Nat → Nat → Nat → List Nat
  | 0, _, _ => []
  | _ + 1, 0, _ => []
  | fuel + 1, k + 1, n =>
    if Rfe.goodBlock s i n then n :: Rfe.blocksFrom s i stride fuel k (n + 4096 * stride)
    else Rfe.blocksFrom s i stride fuel (k + 1) (n + 4096 * stride)

/-- SPECTRUM_RECORD: 2^AVG_EXP transforms done and the record written by the tick `done` (R70 to R72).  `pre` and `post` hold the samples
of the counted blocks at the two taps, oldest block first; a sample they lack is 0. -/
def execSpectrumRecord (chain : Fin 4) (done : BitVec 64) (pre post : List (List (Int × Int))) (s : State) : Out :=
  let i := chain.val
  let p := Rfe.page i
  let b := pg p
  if !(s.en p && s.wflag b Rfe.MON_CFG_MON_EN && !s.frozen p && s.running .rf) then .next s
  else
    let mon := (s.ch i).mon
    let stride := max (s.wget b Rfe.MON_CFG_STRIDE) 1
    let navg := 2 ^ s.wget b Rfe.MON_CFG_AVG_EXP
    let starts := Rfe.blocksFrom s i stride ((s.curSample - mon.at_) / (4096 * stride) + navg + 1) navg mon.at_
    if starts.length < navg then .next s
    else
    let n0 := starts.headD 0
    let n1 := starts.getLastD 0
    let s := (s.runToSample (n1 + 4096)).runTo done.toNat
    let blocks := if s.wflag b Rfe.MON_CFG_TAP then post else pre
    let bins := (List.range 4096).map (fun k => min (Dsp.bin ((blocks.map (List.take 4096)).take navg) k) 65535)
    let sorted := sortAsc bins
    -- the median of an even count lies between the two middle values: a free value there (DESIGN CHOICE, log entry 1)
    let m0 := (sorted[2047]?).getD 0
    let m1 := (sorted[2048]?).getD 0
    let (d, s) := s.draw (m1 - m0 + 1)
    let median := m0 + d
    let (pk, pv) := peakOf bins
    let g := s.get b Rfe.GAIN_STAT_GAIN_NOW
    let lo := min mon.gainLo g
    let hi := max mon.gainHi g
    let dst := s.wget b Rfe.MON_DST_ADDR + (if mon.toB then 0x2040 else 0)
    let seq := (mon.seq + 1) % 2 ^ 32
    let flags := b2n (s.wflag b Rfe.MON_CFG_TAP) + 2 * b2n (lo != hi) + 4 * b2n mon.clip + 8 * b2n mon.sat +
      16 * b2n (s.lantOn (Rfe.band i))
    let s := s.put8 (dst + 0x40) (bins.flatMap (fun v => leBytes 2 v))
    let s := s.put8 dst (recBytes [(2, 0x5350), (1, i), (1, flags), (4, seq), (8, replica 0 (s.tickOf n0)),
      (8, replica 0 (s.tickOf (n1 + 4095))), (2, navg), (1, lo), (1, hi), (2, median), (2, pk), (2, pv), (30, 0)])
    let s := ((s.put b Rfe.MON_STAT_LAST (b2n mon.toB)).put b Rfe.MON_STAT_VALID 1).put b Rfe.MON_STAT_SEQ seq
    let s := s.raise p 6
    let s := s.modCh i (fun c => { c with mon := ⟨seq, !mon.toB, 63, 0, false, false, n1 + 4096 * stride,
      c.mon.skips.filter (fun p => decide (n1 < p + 8184))⟩ })
    .next (Rfe.seed s i median bins)

/-! ### Antenna bias (R75, R76) -/

/-- The AH or BH chain that carries an antenna's bias fields. -/
def Rfe.biasChain (antenna : Nat) : Nat := 2 * antenna

/-- Hardware foldback: current above 75 mA switches the bias off and sets FOLDBACK (R76); STATE stays as it was and no retry follows
(DESIGN CHOICE, log entry 104). -/
def execBiasFoldback (antenna : Fin 2) (s : State) : Out :=
  let i := Rfe.biasChain antenna.val
  if !(s.ch i).biasOn then .next s
  else .next ((s.modCh i (fun c => { c with biasOn := false, biasRun := 0 })).put (Rfe.b i) Rfe.BIAS_STAT_FOLDBACK 1)

/-- A SHORT bias is switched on again RETRY × 100 ms (64,000,000 ticks) after it was switched off, and the retry count rises (R76). -/
def execBiasRetry (antenna : Fin 2) (s : State) : Out :=
  let i := Rfe.biasChain antenna.val
  let b := Rfe.b i
  match (s.ch i).shortAt with
  | none => .next s
  | some t =>
    if s.flag b Rfe.BIAS_CTL_BIAS_EN && s.flag b Rfe.BIAS_CTL_AUTO_RETRY && s.get b Rfe.BIAS_STAT_STATE == 3 then
      let s := s.runTo (t + s.get b Rfe.BIAS_CTL_RETRY * 64000000)
      .next ((s.modCh i (fun c => { c with biasOn := true, biasRun := 0, shortAt := none })).count b Rfe.BIAS_STAT_RETRIES)
    else .next s

/-- A write of BIAS_CTL: BIAS_EN switches the bias; STATE shows OK at once, and a bias that the foldback switched off goes on again with
any write that has BIAS_EN = 1 (DESIGN CHOICE, log entry 104). -/
def Rfe.biasCtl (s : State) (i : Nat) : State :=
  let b := Rfe.b i
  let en := s.flag b Rfe.BIAS_CTL_BIAS_EN
  let s := if en then (if s.get b Rfe.BIAS_STAT_STATE = 0 then s.put b Rfe.BIAS_STAT_STATE 1 else s)
    else s.put b Rfe.BIAS_STAT_STATE 0
  s.modCh i (fun c => { c with
    biasOn := if en then (c.biasOn || s.get b Rfe.BIAS_STAT_STATE != 3) else false
    shortAt := if en then c.shortAt else none })

/-- The bias guard of an antenna reports LOW, HIGH or OK for its filtered sample (R76); `irq` as its ACTION says (spec/16
R380).  OPEN returns to OK at the first filtered value within limits (DESIGN CHOICE, log entry 104). -/
def Rfe.biasGuard (s : State) (antenna : Nat) (verdict : Nat) (value : Nat) (filter : Nat) (irq : Bool) : State :=
  let i := Rfe.biasChain antenna
  let b := Rfe.b i
  let p := Rfe.page i
  let s := s.put b Rfe.BIAS_STAT_CURRENT (min value 4095)
  if !(s.ch i).biasOn then s
  else if verdict = 1 then
    if s.get b Rfe.BIAS_STAT_STATE = 2 then s else (s.put b Rfe.BIAS_STAT_STATE 2).raiseIf irq p 7
  else if verdict = 2 then
    ((s.modCh i (fun c => { c with biasOn := false, biasRun := 0, shortAt := some s.now })).put b Rfe.BIAS_STAT_STATE 3).raiseIf irq p 8
  else
    let n := (s.ch i).biasRun + 1
    let s := s.modCh i (fun c => { c with biasRun := n })
    if s.get b Rfe.BIAS_STAT_STATE = 3 then (if filter ≤ n then s.put b Rfe.BIAS_STAT_STATE 1 else s)
    else s.put b Rfe.BIAS_STAT_STATE 1

/-- The die temperature moved beyond OSC_DELTA since the last OSC calibration (R61). -/
def Rfe.tempCheck (s : State) (i : Nat) : State :=
  let b := Rfe.b i
  let d := (s.dieTemp - (s.ch i).tOsc).natAbs
  if s.en (Rfe.page i) && decide (4 * s.wget b Rfe.CAL_TEMP_OSC_DELTA < d) then
    let s := if s.flag b Rfe.CAL_STAT_LO_CAL_DUE then s else (s.put b Rfe.CAL_STAT_LO_CAL_DUE 1).raise (Rfe.page i) 10
    if s.wflag b Rfe.CAL_TEMP_AUTO_OSC && Rfe.takesPart s i then Rfe.requestOsc s i true else s
  else s

/-! ### Register writes of an RFE page -/

/-- BLOCK_STAT of an RFE page. -/
def Rfe.blockStat (s : State) (i : Nat) : Nat :=
  let b := Rfe.b i
  b2n (Rfe.sampleValid s i) + 2 * b2n (s.loUp (Rfe.band i) && !s.oscRuns (Rfe.band i)) +
    4 * b2n (s.flag b Rfe.CAL_STAT_RUNNING) + 8 * b2n (s.wflag b Rfe.GAIN_CTL_AGC_EN) +
    16 * b2n (s.get b Rfe.BLANK_STAT_BLANKED != 0) +
    32 * b2n ((List.range 4).any (fun k => s.get (b + 0x060 + 0x10 * k) ⟨8, 24, 2⟩ ≥ 2)) +
    64 * b2n (i % 2 == 0 && s.get b Rfe.BIAS_STAT_STATE == 1)

/-- Special effects of a write to an RFE register; `store` is the plain effect of the access rows (R60, R80). -/
def Rfe.write (s : State) (req i off v : Nat) (store : State → State) : State :=
  let p := Rfe.page i
  let a := pg p + off
  if off = 0x044 then (store s).modCh i (fun c => { c with gainWr := true })
  else if 0x060 ≤ off ∧ off < 0x0A0 ∧ off % 16 = 4 then
    (store s).modCh i (fun c => { c with freqWr := ((off - 0x060) / 16) :: c.freqWr.filter (· ≠ (off - 0x060) / 16) })
  else if off = 0x0B4 then
    if v % 64 = 0 && inSramArea v 16512 then store s else s.logErr p 0x42 a req
  else if off = 0x0E0 then Rfe.calCmd s req i v
  else if off = 0x0F0 ∨ off = 0x0F4 ∨ off = 0x0F8 then
    if Rfe.busy s i then s.logErr p 0x40 a req else store s
  else if off = 0x110 then Rfe.biasCtl (store s) i
  else store s

end Sys2Proof.Machine
end

