-- ==== Sys2Proof/Machine/Meas.lean ====
section
/-! DEFINITION. The measurement latch and its block ring (spec/06 R137 to R146, R153 to R155; spec/07 R167, R168). -/

namespace Sys2Proof.Machine

/-- MEAS page. -/
def Meas.p : Nat := 0x040

/-- MEAS page base. -/
def Meas.b : Nat := pg 0x040

/-- Bytes of a slot (R144). -/
def Meas.slot : Nat := 0x6040

/-- Is the ring full (R144)? -/
def Meas.full (s : State) : Bool :=
  (s.get Meas.b Meas.MEAS_WP_WP + 1) % max (s.get Meas.b Meas.MEAS_SLOTS_SLOTS) 1 == s.get Meas.b Meas.MEAS_RP_RP

/-- MEAS_WM while the fill is at or above the watermark. -/
def Meas.watermark (s : State) : State :=
  let n := max (s.get Meas.b Meas.MEAS_SLOTS_SLOTS) 1
  let fill := (s.get Meas.b Meas.MEAS_WP_WP + n - s.get Meas.b Meas.MEAS_RP_RP % n) % n
  s.raiseIf (s.get Meas.b Meas.MEAS_WM_WM ≤ fill) Meas.p 2

/-- A latch is not taken and counts as missed (R141). -/
def Meas.miss (s : State) (f : Fld) : State :=
  ({ s with measMissed := min (s.measMissed + 1) 65535 }.count Meas.b f).raise Meas.p 1

/-- Instant of sample `n` in 1/64 ticks (R142). -/
def State.fineOf (s : State) (n : Nat) : Nat :=
  if s.coast then 64 * s.tickOf n else 64 * s.smpZ + 512000 * n / 1023

/-- Band of a channel's source: 0 H, 1 L. -/
def Ch.srcBand (s : State) (n : Nat) : Nat :=
  if Ch.sig s n = 0x3F then s.wget (Ch.b n) Ch.SIG_CFG_SRC % 2 else Ch.sig s n / 16 % 2

/-- Is sample `m` of a channel's source valid? -/
def Meas.validAt (s : State) (n m : Nat) : Bool := (Ch.src s n m ⟨0, 0, 0, 0⟩).valid

/-- Invalid samples of a channel since its start up to sample `m` (R146); a frozen channel takes none (DEDUCED, log entry 43). -/
def Meas.invalid (s : State) (n m : Nat) : Nat :=
  let c := s.chn n
  let bad (a k : Nat) : Nat := ((List.range k).filter (fun i => !Meas.validAt s n (a + i))).length
  if s.frozen Trkg.p then c.invTot
  else if c.pos ≤ m then c.invTot + bad c.pos (m + 1 - c.pos)
  else c.invTot - bad (m + 1) (c.pos - (m + 1))

/-- Bytes of a channel's entry (R138 to R140, R145, R146). -/
def Meas.entry (s : State) (n m : Nat) : List Nat :=
  let b := Ch.b n
  let c := s.chn n
  let frz := s.frozen Trkg.p
  let d := if frz then c else Ch.at_ s n c m
  let first := s.measSeq == 0
  let prev := s.measPrev.1
  let since (e : Nat) : Bool := (first || decide (prev < e)) && decide (e ≤ m)
  -- before a group start that lies ahead, the load and step are those of until then
  let (loadAt, codeAt) := match c.was with
    | some w => if m < c.pos then (w.loadAt, w.codeAt) else (c.loadAt, c.codeAt)
    | none => (c.loadAt, c.codeAt)
  let tot := Meas.invalid s n m
  let inval := if first || decide (prev < c.startAt) then tot else tot - c.invBase
  let sg := Ch.sig s n
  let gate := (s.loGateAt[Ch.srcBand s n]?).join.getD 0
  let eflags := b2n (frz || !Meas.validAt s n m) + 2 * b2n (c.handAt == some m) + 4 * b2n (since loadAt) +
    8 * b2n (inval != 0) + 16 * b2n (since c.startAt) + 32 * b2n (match codeAt with | some e => since e | none => false)
  let (freq, rate, gen) := Ch.setAt s n c m
  recBytes [(2, n + 512 * sg), (1, Ch.num s n),
    (1, s.wget b Ch.SIG_CFG_SRC + 8 * b2n (Ch.nb s n) + 16 * b2n (s.wflag b Ch.SIG_CFG_SEC_WIPE) + 32 * s.wget b Ch.SIG_CFG_SUBC),
    (1, eflags), (1, if frz then (d.period - BitVec.ofNat 32 c.period0).toNat % 256 else Ch.intPos s n c m), (2, gen),
    (8, d.carr.toNat / 2 ^ 8), (4, d.frac / 2 ^ 8), (2, d.chip), (2, min inval 65535), (4, d.period.toNat),
    (4, freq % 2 ^ 32), (1, freq / 2 ^ 32), (1, 0), (2, rate / 2 ^ 32), (4, rate % 2 ^ 32),
    (4, min ((m - max loadAt gate) / 81840) (2 ^ 32 - 1)), (4, 0)]

/-- Is a channel in RUN at sample `m`?  One whose RUN goes to 0 at that sample still is (R140); a narrowband one that waits for its group
start is when it ran before. -/
def Meas.runs (s : State) (m n : Nat) : Bool :=
  let c := s.chn n
  (s.chState n == 2 && (decide (c.pos ≤ m) || (match c.was with | some w => decide (w.at_ ≤ m) | none => false))) ||
    c.stopAt == some m

/-- Is a channel in RUN at sample `m` and its REPORT bit set (R145)? -/
def Meas.reports (s : State) (m n : Nat) : Bool :=
  Meas.runs s m n && (s.wget (Meas.b + 4 * (n / 32)) Meas.REPORT_MASK).testBit (n % 32)

/-- Channels that a latch at sample `m` reports. -/
def Meas.reported (s : State) (m : Nat) : List Nat := (List.range 512).filter (Meas.reports s m)

/-- Copy the channels at sample `m` and open the block (R138, R142 to R145, R153). -/
def Meas.take (s : State) (m : Nat) (treq : Option Nat) (late manual : Bool) : State :=
  let s := (s.takePage Meas.p).1
  let b := Meas.b
  let u := s.fineOf m
  let ts := s.wget b Meas.MEAS_CFG_TS_SEL
  let (sec, ns, sub) := s.present ts u
  let since (e : Option Nat) : Bool := match e with
    | some x => decide (s.measPrev.1 < x ∧ x ≤ m)
    | none => false
  let flags := b2n (since s.synAt) +
    16 * b2n (match (s.tst ts).stepAt with | some t => decide (s.measPrev.2 < t) | none => false) +
    32 * b2n (since (s.loGateAt[0]?).join) + 64 * b2n (since (s.loGateAt[1]?).join) + 128 * b2n (s.frozen Trkg.p)
  let gains := ((List.range 4).map (fun i => s.get (Rfe.b i) Rfe.GAIN_STAT_GAIN_NOW * 2 ^ (8 * i))).sum
  let valids := ((List.range 4).map (fun i => b2n (s.validAt i m) * 2 ^ i)).sum
  let l : Latch :=
    { m := m, u := u, treq := treq.getD (u / 64), late := late, manual := manual,
      flags := flags + 4 * b2n (s.measMissed != 0) + 256 * ts, missed := s.measMissed
      before := recBytes [(6, sec), (1, u % 64), (1, s.tsState ts + 4 * b2n s.coast), (4, ns), (2, sub)]
      after := recBytes [(4, s.get (Ts.b ts) TsR.PUB_BOUND_BOUND), (4, gains), (1, valids), (1, Arr.beamValids s m),
        (2, s.measMissed), (4, s.gsc m), (1, s.get (pg 0x009) Clk1.PAIR_STAT_ACTIVE), (7, 0)]
      ents := (Meas.reported s m).map (fun n => (n, Meas.entry s n m))
      invs := ((List.range 512).filter (Meas.runs s m)).map (fun n => (n, Meas.invalid s n m)) }
  { s with latch := some l, measMissed := 0 }.put8
    (64 * s.get b Meas.MEAS_BASE_BASE + Meas.slot * s.get b Meas.MEAS_WP_WP) [0, 0]

/-- Put a channel's row into rows that ascend by channel, in place of the one that is there. -/
def Meas.place {α : Type} (x : Nat × α) : List (Nat × α) → List (Nat × α)
  | [] => [x]
  | y :: t => if x.1 < y.1 then x :: y :: t else if x.1 = y.1 then x :: t else y :: Meas.place x t

/-- A hand-over of channel `n` on the latching sample comes before the copy, in whatever order the two are carried out: the copy of the
channel is made anew (R140). -/
def Meas.retake (s : State) (n : Nat) : State :=
  match s.latch with
  | none => s
  | some l =>
    if s.curSample ≠ l.m then s
    else
      { s with latch := some { l with
          ents := if Meas.reports s l.m n then Meas.place (n, Meas.entry s n l.m) l.ents else l.ents.filter (fun e => e.1 != n)
          invs := if Meas.runs s l.m n then Meas.place (n, Meas.invalid s n l.m) l.invs else l.invs.filter (fun e => e.1 != n) } }

/-- A latch at sample `m`: taken, joined to one at the same sample, or missed (R140, R141) (DEDUCED, log entry 43). -/
def Meas.latch (s : State) (req m : Nat) (treq : Option Nat) (late manual : Bool) : State :=
  if !s.en Meas.p ∨ !s.running .corr then s
  else
    let s := s.runToSample m
    match s.latch with
    | some l =>
      if l.m = m then
        { s with latch := some { l with treq := min l.treq (treq.getD (l.u / 64)), late := l.late || late,
                                        manual := l.manual || manual } }
      else (Meas.miss s Meas.MEAS_MISS_COUNT).logErr Meas.p 0x42 (if manual then Meas.b + 0x044 else Meas.b) req
    | none =>
      if Meas.full s ∨ s.get Meas.b Meas.MEAS_BASE_BASE = 0 then Meas.miss s Meas.MEAS_OVR_COUNT
      else Meas.take s m treq late manual

/-- A 1 written to MEAS_CMD.LATCH: the first sample edge after the write (R137); T_REQ is what the island's replica shows at the write
(R145). -/
def Meas.manual (s : State) (req : Nat) : State :=
  if s.frozen Meas.p then s.logErr Meas.p 0x43 (Meas.b + 0x044) req
  else Meas.latch s req s.nextSample (some (replica 1 s.now)) false true

/-- MEAS_LATCH: the next latch that the calendar has dispatched is carried out at the first sample edge at which the island's replica has
reached the instant at which it fired; T_REQ is the entry's own instant (R21, R137, R143).  `own`, `fire` and `late` name it.  An instant announced as a shared epoch is
latched by SHARED_EPOCH_LATCH instead (R167). -/
def execMeasLatch (own fire : BitVec 64) (late : Bool) (s : State) : Out :=
  match s.takeAct (fun x => x.act == 4) (fun x => x.own == own.toNat && x.fire == fire.toNat && x.late == late) with
  | none => .next s
  | some (x, s) =>
    if s.cdl.epochs.any (fun e => e.2 == some x.own) then .next s
    else if s.frozen Meas.p then .next (s.logErr Meas.p E.FROZEN_ACTION Meas.b 8)
    else .next (Meas.latch s 8 (s.edgeFor x.fire) (some x.own) x.late false)

/-- SHARED_EPOCH_LATCH: the oldest announced epoch, that of the count `gsc`, is latched at its GSC (R167, R168). -/
def execSharedEpochLatch (gsc : BitVec 48) (s : State) : Out :=
  match s.cdl.epochs with
  | [] => .next s
  | (g, treq) :: t =>
    if g ≠ gsc.toNat then .next s
    else
    let s := s.modCdl (fun c => { c with epochs := t })
    if !s.flag Cdl.b Cdl.CDL_CFG_EPOCH_SHARE ∨ (s.cdl.isolated ∧ !s.cdl.heralds) ∨ !Cdl.on s then .next s
    else if Cdl.passed s g then .next ((s.count Cdl.b Cdl.EPOCH_LATE_COUNT).raise Cdl.p 6)
    else if s.frozen Meas.p then .next (s.logErr Meas.p E.FROZEN_ACTION Meas.b 8)
    else .next (Meas.latch s 8 (s.curSample + (g + 2 ^ 48 - s.gsc s.curSample) % 2 ^ 48) treq false false)

/-- Bytes 0x02 to 0x3F of the header of block `seq` (R145). -/
def Meas.header (l : Latch) (flags seq : Nat) : List Nat :=
  recBytes [(1, flags), (1, l.flags / 256), (4, seq), (8, l.u / 64), (8, l.treq)] ++ l.before ++
    recBytes [(2, l.ents.length)] ++ l.after

/-- BLOCK_DONE: entries, header and MAGIC are in the slot; pointers, counts and events (R144, R145). -/
def execBlockDone (s : State) : Out :=
  match s.latch with
  | none => .next s
  | some l =>
    if !s.running .corr ∨ !s.running .fabric then .next s
    else
      let b := Meas.b
      let wp := s.get b Meas.MEAS_WP_WP
      let a := 64 * s.get b Meas.MEAS_BASE_BASE + Meas.slot * wp
      let seq := if s.measSeq = 2 ^ 32 - 1 then 1 else s.measSeq + 1
      -- bit 0 also tells of a switch on the latching sample itself
      let flags := (l.flags % 256 + 2 * b2n l.late + 8 * b2n l.manual) ||| b2n (s.synAt == some l.m)
      let s := s.put8 (a + 64) (l.ents.flatMap (·.2))
      let s := s.put8 (a + 2) (Meas.header l flags seq)
      let s := s.put8 a [0x45, 0x4D]
      let s := s.put b Meas.MEAS_WP_WP ((wp + 1) % max (s.get b Meas.MEAS_SLOTS_SLOTS) 1)
      let s := (s.put b Meas.MEAS_SEQ_SEQ seq).put b Meas.LAST_T_T (l.u / 64)
      let s := s.each l.invs (fun s x =>
        let c := s.chn x.1
        if c.startAt ≤ l.m then s.setChn x.1 { c with invBase := x.2 } else s)
      let s := { s with latch := none, measPrev := (l.m, l.u / 64), measSeq := seq }
      .next (Meas.watermark ((s.raise Meas.p 0).raiseIf (flags.testBit 0) Meas.p 3))

/-! ### Hand-overs, which a latch on their sample sees (R140) -/

/-- CHANNEL_START: a waiting or halted channel with PATH = 0 takes its armed COMMIT and starts (R111). -/
def execChannelStart (chan : Fin 512) (s : State) : Out :=
  .next (if Ch.waits s chan.val then Meas.retake (Ch.start s chan.val) chan.val else s)

/-- INTERVAL_END: a running channel reaches its integration boundary (R118, R122). -/
def execIntervalEnd (chan : Fin 512) (feed : List Smp) (s : State) : Out :=
  .next (if s.chState chan.val = 2 ∧ s.en Trkg.p ∧ !s.frozen Trkg.p ∧ s.running .corr then
    Meas.retake (Ch.boundary s chan.val feed) chan.val else s)

/-- GROUP_COMMIT_ACTION: the next group commit that the calendar has dispatched, that of `group` at `fire`, is carried out (R125); it stays on its way while the
correlator island does not run. -/
def execGroupCommitAction (group : Fin 16) (fire : BitVec 64) (feed : List (Nat × List Smp)) (s : State) : Out :=
  match s.takeAct (fun x => x.act == 3 && s.running .corr) (fun x => x.arg % 16 == group.val && x.fire == fire.toNat) with
  | none => .next s
  | some (x, s) => .next ((Trkg.action s x feed).each ((List.range 512).filter (fun n => Ch.groupAt s n (s.edgeFor x.fire) == x.arg % 16)) Meas.retake)

/-- MEAS EN goes to 1: SEQ starts anew (R145). -/
def Meas.enable (s : State) : State := { s with measSeq := 0, measPrev := (s.nextSample - 1, s.now), measMissed := 0 }

/-- MEAS frozen: a block being written is abandoned and counted (R154). -/
def Meas.freeze (s : State) : State :=
  match s.latch with
  | none => s
  | some l =>
    let s := { s with latch := none, measMissed := min (s.measMissed + l.missed + 1) 65535 }
    s.count Meas.b Meas.MEAS_MISS_COUNT

/-- Special effects of a write to a MEAS register (R155). -/
def Meas.write (s : State) (req off v : Nat) (store : State → State) : State :=
  let a := Meas.b + off
  if off = 0x044 then
    let s := if v.testBit 0 then Meas.manual s req else s
    if v.testBit 1 then (s.put Meas.b Meas.MEAS_MISS_COUNT 0).put Meas.b Meas.MEAS_OVR_COUNT 0 else s
  else if off = 0x048 then
    if s.en Meas.p then s.logErr Meas.p 0x41 a req
    else if v % 64 = 0 ∧ v ≠ 0 ∧ inSramArea v (Meas.slot * s.get Meas.b Meas.MEAS_SLOTS_SLOTS) then store s
    else s.logErr Meas.p 0x40 a req
  else if off = 0x04C then
    let n := v % 2 ^ 10
    let base := 64 * s.get Meas.b Meas.MEAS_BASE_BASE
    if s.en Meas.p then s.logErr Meas.p 0x41 a req
    else if n < 2 then s.logErr Meas.p E.RANGE_REJECTED a req
    else if base ≠ 0 ∧ !inSramArea base (Meas.slot * n) then s.logErr Meas.p 0x40 a req
    else Meas.watermark (store s)
  else if off = 0x054 then
    if s.get Meas.b Meas.MEAS_SLOTS_SLOTS ≤ v % 2 ^ 10 then s.logErr Meas.p E.RANGE_REJECTED a req
    else Meas.watermark (store s)
  else if off = 0x058 then Meas.watermark (store s)
  else store s

/-- BLOCK_STAT of the MEAS page: WRITING, RING_FULL. -/
def Meas.blockStat (s : State) : Nat := b2n s.latch.isSome + 2 * b2n (Meas.full s)

end Sys2Proof.Machine
end

