-- ==== Sys2Proof/Machine/Rails.lean ====
section
/-! DEFINITION. The supply outputs and the heater (spec/17 R386 to R391). -/

namespace Sys2Proof.Machine

/-- The POWER page. -/
def Power.b : Nat := pg 0x0A0

/-- Change the hidden power state. -/
def State.modPwr (s : State) (f : PwrSt → PwrSt) : State := { s with pwr := f s.pwr }

/-- Is full class in force (R386)? -/
def Power.full (s : State) : Bool := s.flag Power.b Power.PD_STAT_FULL

/-- Is load shed (R389)? -/
def Power.shedding (s : State) : Bool := s.flag Power.b Power.PD_STAT_SHED

/-- Are the outputs able to run: class granted, PoE present, no load shed? -/
def Power.able (s : State) : Bool :=
  !Power.shedding s && !s.pwr.asleep && !s.flag Power.b Power.PD_STAT_DENIED

/-- VAUX12 is on (R387 to R389). -/
def State.vauxOn (s : State) : Bool := s.flag Power.b Power.RAIL_CTL_VAUX_EN && !s.pwr.vauxOff && Power.able s

/-- PA_SUPPLY is on (R387 to R389, spec/20 R457). -/
def State.paOn (s : State) : Bool :=
  s.flag Power.b Power.RAIL_CTL_PA_SUP_EN && !s.pwr.paOff && Power.full s && Power.able s && !s.jtag.test

/-- Limit of VAUX12 in the class in force, mA (R387). -/
def Power.maxMA (s : State) : Nat := if Power.full s then 2000 else 750

/-- HEAT_STAT.BLOCKED and DUTY: HEAT_DRV is held low while guard 12 is HIGH, VAUX12 is off or SENSE_FAULT is set (R391). -/
def Power.heatBlock (s : State) : State :=
  let hot := s.get (pg 0x004 + 0x100 + 0x20 * 12) GuardG.GD_STAT_STATE == 2
  let blocked := hot || !s.vauxOn || s.flag Power.b Power.HEAT_STAT_SENSE_FAULT
  let s := s.putB Power.b Power.HEAT_STAT_BLOCKED blocked
  if blocked ∨ !s.flag Power.b Power.HEAT_CTL_HEAT_EN then s.put Power.b Power.HEAT_STAT_DUTY 0 else s

/-- A heater sample: the filtered temperature `t` and the conversion `raw`, in 0.25 °C (R391).  The rise of SENSE_FAULT
raises HEAT_FAULT (DESIGN CHOICE, log entry 12). -/
def Power.heatSample (s : State) (t raw : Int) : State :=
  let b := Power.b
  let bad := decide (raw < -220 ∨ 600 < raw)
  let s := s.raiseIf (bad && !s.flag b Power.HEAT_STAT_SENSE_FAULT) 0x0A0 4
  let s := (s.putB b Power.HEAT_STAT_SENSE_FAULT bad).putI b Power.HEAT_STAT_T t
  let duty := (s.get b Power.HEAT_CTL_HEAT_GAIN : Int) * (4 * s.getI b Power.HEAT_CTL_SETPOINT - t)
  Power.heatBlock (s.putI b Power.HEAT_STAT_DUTY (clampI 0 (s.get b Power.HEAT_CTL_DUTY_MAX) duty))

/-- OVERCURRENT_TRIP: VAUX12 or PA_SUPPLY above its limit for 1 ms (`held`), or above 1.5 times the limit (R388). -/
def execOvercurrentTrip (pa : Bool) (ma : BitVec 16) (held : Bool) (s : State) : Out :=
  let i := ma.toNat
  let lim := if pa then 1800 else s.get Power.b Power.VAUX_ILIM_MA
  let on := if pa then s.paOn else s.vauxOn
  if !on ∨ !(held && decide (lim < i) || decide (3 * lim < 2 * i)) then .next s
  else if pa then
    .next (((s.modPwr (fun p => { p with paOff := true })).put Power.b Power.RAIL_STAT_PA_TRIP 1).raise 0x0A0 3)
  else
    .next (Power.heatBlock (((s.modPwr (fun p => { p with vauxOff := true })).put Power.b Power.RAIL_STAT_VAUX_TRIP 1).raise
      0x0A0 2))

/-- Special effects of a write to the POWER page (R387, R388, R391). -/
def Power.write (s : State) (req off v : Nat) (store : State → State) : State :=
  if off = 0x044 then
    let pa := v.testBit 1
    let s' := s.putB Power.b Power.RAIL_CTL_VAUX_EN (v.testBit 0)
    let s' := if v.testBit 0 then s'.modPwr (fun p => { p with vauxOff := false }) else s'
    let s' := if pa ∧ !Power.full s then s'.logErr 0x0A0 0x41 (Power.b + off) req
      else
        let s' := s'.putB Power.b Power.RAIL_CTL_PA_SUP_EN pa
        if pa then s'.modPwr (fun p => { p with paOff := false }) else s'
    Power.heatBlock s'
  else if off = 0x048 then
    let m := Power.maxMA s
    if m < v % 4096 then (s.put Power.b Power.VAUX_ILIM_MA m).logErr 0x0A0 E.RANGE_CLAMPED (Power.b + off) req else store s
  else if off = 0x060 then Power.heatBlock (store s)
  else store s

/-- RAIL_STAT and PA_I as read: the outputs' state; their currents are measured values, free while an output is on
(DEDUCED, log entry 69). -/
def Power.read (s : State) (off : Nat) : Option (Nat × State) :=
  if off = 0x04C then
    let (i, s') := if s.vauxOn then s.draw (2 ^ 16) else (0, s)
    let trips := bitsOf (s.regN (Power.b + 0x04C)) 3 2
    some (b2n s.vauxOn + 2 * b2n (!s.pwr.asleep) + 4 * b2n s.paOn + 8 * trips + 2 ^ 16 * i, s')
  else if off = 0x050 then some (if s.paOn then s.draw 4096 else (0, s))
  else none

end Sys2Proof.Machine
end

