-- ==== Sys2Proof/Machine/Rad.lean ====
section
/-! DEFINITION. The telemetry radio (spec/10): states and transitions, transmission, calibration, reception, slots. -/

namespace Sys2Proof.Machine

/-- Page and base of the radio, base of its tables. -/
def Rad.p : Nat := 0x070
def Rad.b : Nat := pg 0x070
def Rad.tb : Nat := pg 0x071

/-- Change the radio beside its registers. -/
def State.modRad (s : State) (f : RadSt → RadSt) : State := { s with rad := f s.rad }

/-- RAD_STATE.STATE: 0 OFF, 1 SLEEP, 2 IDLE, 3 SYNTH, 4 RX, 5 TX, 6 CAL. -/
def Rad.st (s : State) : Nat := s.get Rad.b RadP.RAD_STATE_STATE

/-- The radio can advance: enabled, not frozen, its island running. -/
def Rad.live (s : State) : Bool := s.en Rad.p && !s.frozen Rad.p && s.running .radio

/-- Full class (R240)? -/
def Rad.full (s : State) : Bool := s.flag Rad.b RadP.RAD_STATE_CLASS

/-- Counter `k` of R260 goes up. -/
def Rad.count (s : State) (k : Nat) : State := s.count (Rad.b + 4 * k) RadP.counters_COUNT

/-- Microseconds in ticks. -/
def usTicks (n : Nat) : Nat := 640 * n

/-- Data rate in force, kbit/s. -/
def Rad.kbps (s : State) : Nat := ([50, 100, 150, 200, 300][s.wget Rad.b RadP.RAD_CFG_RATE]?).getD 100

/-- `n` bit periods in ticks. -/
def Rad.bits (s : State) (n : Nat) : Nat := n * 640000 / Rad.kbps s

/-- A latency in 2^-8 ns as ticks, nearest (DESIGN CHOICE, log entry 12). -/
def latTicks (n : Nat) : Nat := (n + 200) / 400

/-- The radio's pads follow its state in full class: PA_LNA is high in RX (R241, R240). -/
def Rad.pads (s : State) (en trsw : Bool) : State :=
  let f := Rad.full s
  s.modRad (fun r => { r with paEn := f && en, paTrsw := f && trsw, paLna := f && Rad.st s == 4 })

/-- Enter a state: STATE_CHG (R235). -/
def Rad.setSt (s : State) (st : Nat) : State :=
  Rad.pads (if Rad.st s = st then s else (s.put Rad.b RadP.RAD_STATE_STATE st).raise Rad.p 8) (st == 5) (st == 5)

/-! ### Calibration (R249) -/

/-- Hop entries in use. -/
def Rad.hops (s : State) : List Nat := (List.range 64).filter (fun h => s.get (Rad.tb + 8 * h) RadT.HOP_FREQ != 0)

/-- Duration of a calibration, µs. -/
def Rad.calTime (s : State) (k : Nat) : Nat :=
  if k = 1 then 40 else if k = 2 then 100 else if k = 3 then 400 else 150 * (Rad.hops s).length

/-- CAL_STAT follows what runs and what waits. -/
def Rad.showCal (s : State) : State :=
  let run := s.rad.cal != []
  let s := s.putB Rad.b RadP.CAL_STAT_RUNNING run
  let s := s.put Rad.b RadP.CAL_STAT_STEP (match s.rad.cal.head? with | some (k, _) => k | none => 0)
  s.putB Rad.b RadP.CAL_STAT_PENDING (s.rad.calQ != [])

/-- Pending calibrations start when the radio is in IDLE. -/
def Rad.tryCal (s : State) : State :=
  if !Rad.live s ∨ Rad.st s ≠ 2 ∨ s.rad.move.isSome ∨ s.rad.calQ = [] then s
  else
    let ks := [1, 2, 3, 4].filter (· ∈ s.rad.calQ)
    let (l, _) := ks.foldl (fun (l, t) k => let e := t + usTicks (Rad.calTime s k); (l ++ [(k, e)], e)) (([] : List (Nat × Nat)), s.now)
    Rad.showCal (Rad.setSt (s.modRad (fun r => { r with calQ := [], cal := l })) 6)

/-- Request calibrations: the bits of `v` are DC, FILTER, IMAGE, OSC, ALL. -/
def Rad.calCmd (s : State) (req v : Nat) : State :=
  let ks := [1, 2, 3, 4].filter (fun k => v.testBit (k - 1) || (k < 4 && v.testBit 4))
  if ks = [] then s
  else if s.rad.cal ≠ [] then s.logErr Rad.p 0x44 (Rad.b + 0x054) req
  else Rad.tryCal (Rad.showCal (s.modRad (fun r => { r with calQ := [1, 2, 3, 4].filter (fun k => k ∈ r.calQ ∨ k ∈ ks) })))

/-- A running calibration is abandoned (R239, R259); one that waits still waits. -/
def Rad.dropCal (s : State) : State :=
  let run := s.rad.cal != []
  let s := Rad.showCal (s.modRad (fun r => { r with cal := [], back := none }))
  if run then (s.put Rad.b RadP.CAL_STAT_FAIL 1).raise Rad.p 10 else s

/-- The die temperature has moved beyond CAL_DELTA from T_OSC (R249); called when it is measured. -/
def Rad.tempCheck (s : State) : State :=
  let d := (s.dieTemp - s.rad.tOsc).natAbs
  if s.en Rad.p && s.wflag Rad.b RadP.CAL_CFG_AUTO_CAL && decide (4 * s.wget Rad.b RadP.CAL_CFG_CAL_DELTA < d)
      && !s.flag Rad.b RadP.CAL_STAT_CAL_DUE then
    let s := (s.put Rad.b RadP.CAL_STAT_CAL_DUE 1).raise Rad.p 11
    Rad.tryCal (Rad.showCal (s.modRad (fun r => { r with calQ := r.calQ.filter (· ≠ 4) ++ [4] })))
  else s

/-! ### Transitions (R236) -/

/-- Time of a transition in µs, from a stored band and with a search; times the table does not list are sums of its own
(DEDUCED, log entry 59). -/
def Rad.time (st to_ : Nat) : Nat × Nat :=
  if to_ = 0 then (5, 5)
  else if to_ = 1 then
    let t := if st = 0 then 200 else if st = 1 then 0 else if st = 2 ∨ st = 3 ∨ st = 6 then 5 else 15
    (t, t)
  else if to_ = 2 then
    let t := if st = 0 then 250 else if st = 1 then 50 else if st = 2 ∨ st = 6 then 0 else 10
    (t, t)
  else if st = 0 then (340, 490)
  else if st = 1 then (140, 290)
  else if (st = 4 ∧ to_ = 5) ∨ (st = 5 ∧ to_ = 4) then (120, 270)
  else (90, 240)

/-- Is the band of a hop entry stored? -/
def Rad.stored (s : State) (h : Nat) : Bool := s.flag (Rad.tb + 8 * h) RadT.HOP_B_BAND_VALID

/-- Start the transition to state `to_` at the tick `t0`; to RX on hop entry `hop`. -/
def Rad.go (s : State) (t0 to_ hop : Nat) : State :=
  let st := Rad.st s
  let s := s.modRad (fun r => { r with rx := none })
  if to_ = 4 then
    if s.get Rad.b RadP.RAD_STATE_HOP = hop ∧ ((st = 4 ∧ s.rad.move.isNone) ∨ s.rad.move.map (·.1) = some 4) then s
    else
      let stored := Rad.stored s hop
      let t := if stored then (Rad.time st 4).1 else (Rad.time st 4).2
      let s := (Rad.setSt s 3).put Rad.b RadP.RAD_STATE_HOP hop
      s.modRad (fun r => { r with move := some (4, t0 + usTicks t), search := !stored })
  else if st = to_ ∧ s.rad.move.isNone then Rad.tryCal s
  else s.modRad (fun r => { r with move := some (to_, t0 + usTicks (Rad.time st to_).1), search := false })

/-- Where the radio goes after a frame, or when what held it up ends (R238, R257): the slot's hop while a slot is held, the
END state after a closed window, IDLE first when a calibration waits, else `ret` (1 SLEEP, 2 IDLE, 4 RX). -/
def Rad.after (s : State) (t0 ret : Nat) : State :=
  let hop := s.get Rad.b RadP.RAD_STATE_HOP
  match s.rad.win with
  | some w => Rad.go s t0 4 w.hop
  | none =>
    match s.rad.endTo with
    | some e => Rad.go (s.modRad (fun r => { r with endTo := none })) t0 e hop
    | none =>
      if s.rad.calQ ≠ [] then Rad.go (s.modRad (fun r => { r with back := some ret })) t0 2 hop
      else Rad.go s t0 ret hop

/-- TRANSITION_COMPLETE. -/
def execTransitionComplete (s : State) : Out :=
  match s.rad.move with
  | none => .next s
  | some (to_, due) =>
    if 3 ≤ to_ ∨ s.frozen Rad.p ∨ !s.running .radio then .next s
    else
      let s := (s.runTo due).modRad (fun r => { r with move := none })
      .next (Rad.tryCal (Rad.setSt s to_))

/-! ### Transmission (R241 to R248) -/

/-- Write TX_STAT and raise TX_DONE; a rejection raises TX_REJECT as well (R248). -/
def Rad.txStat (s : State) (status d : Nat) (sched reject : Bool) : State :=
  let b := Rad.b
  let s := (s.put b RadP.TX_STAT_STATUS status).put b RadP.TX_STAT_DESC d
  let s := (s.putB b RadP.TX_STAT_SCHED sched).countWrap b RadP.TX_STAT_COUNT
  (s.raise Rad.p 1).raiseIf reject Rad.p 12

/-- Base counter at the transmit time-stamp point (R255). -/
def Rad.txPoint (s : State) (x : RadTx) : Nat :=
  x.first + Rad.bits s (8 * (s.wget Rad.b RadP.RAD_CFG_PREAMBLE + 2))

/-- The transmission ends with a status: TX_T where the SFD was sent. -/
def Rad.endTx (s : State) (status : Nat) : State :=
  match s.rad.tx with
  | none => s
  | some x =>
    let sent := Rad.st s == 5 && decide (Rad.txPoint s x ≤ s.now)
    let s := if sent then
        s.put Rad.b RadP.TX_T_T (Rad.txPoint s x + latTicks (s.get (Rad.b + 4 * s.wget Rad.b RadP.RAD_CFG_RATE) RadP.TX_LAT_NS))
      else s
    let s := (s.modRad (fun r => { r with tx := none })).put Rad.b RadP.RAD_STATE_TX_PEND 0
    Rad.pads (Rad.txStat s status x.d x.sched false) false false

/-- A transmission ends early, the radio entering IDLE over the ramp-down. -/
def Rad.cutTx (s : State) (status : Nat) : State :=
  if s.rad.tx.isNone then s
  else
    let s := (Rad.endTx s status).modRad (fun r => { r with move := none })
    if Rad.st s = 6 then s else Rad.go s s.now 2 0

/-- Is a frame being received: from the preamble on, unless its SFD did not come in time? -/
def Rad.frame (s : State) : Bool :=
  match s.rad.rx with
  | some x => x.t.isSome || decide (s.now ≤ x.until_)
  | none => false

/-- Start the transition of an accepted transmission whose first preamble symbol leaves at `first`. -/
def Rad.launch (s : State) (x : RadTx) (first : Nat) : State :=
  let stored := Rad.stored s x.hop
  let s := ((Rad.setSt s 3).put Rad.b RadP.RAD_STATE_HOP x.hop).put Rad.b RadP.RAD_STATE_TX_PEND 0
  s.modRad (fun r => { r with tx := some { x with first := first }, rx := none, search := !stored,
                              move := some (5, first - usTicks 12) })

/-- Shared SRAM or a global TLM alias (R244)? -/
def Rad.payloadOk : Rng → Bool
  | .sram => true
  | .tlm _ => true
  | _ => false

/-- A transmission with descriptor `d` starts at the tick `t0` (R244 to R247) (DEDUCED, log entry 58). -/
def Rad.start (s : State) (t0 d : Nat) (sched badArg : Bool) : State :=
  let t := Rad.tb + 16 * d
  let reject (status : Nat) : State := Rad.txStat s status d sched true
  let len := s.get t RadT.TXD1_LEN
  let fcs2 := s.flag t RadT.TXD2_FCS2
  let addr := s.get t RadT.TXD0_ADDR
  let hop := s.get t RadT.TXD1_HOP
  let mem := rangeFor addr (max len 1)
  let st := Rad.st s
  if badArg then reject 0x13
  else if st = 0 then reject 0x19
  else if st = 5 ∨ s.rad.tx.isSome then reject 0x11
  else if len = 0 ∨ 2047 < len + (if fcs2 then 2 else 4) ∨ !Rad.payloadOk mem
      ∨ s.get (Rad.tb + 8 * hop) RadT.HOP_FREQ = 0 then reject 0x13
  else if Rad.full s ∧ !s.paOn then reject 0x14
  else if sched ∧ s.wflag Rad.b RadP.TX_POL_HOLD_POL ∧ s.tsState (s.wget Rad.b RadP.TX_POL_HOLD_TS) ≠ 1 then reject 0x15
  else if Rad.frame s ∧ !s.wflag Rad.b RadP.TX_POL_PREEMPT then reject 0x12
  else
    let limit := usTicks (s.wget Rad.b (if sched then RadP.TX_DEFER_SCHED else RadP.TX_DEFER_IMM))
    let tm := Rad.time (if st = 6 then 2 else st) 5
    let dur := usTicks (if Rad.stored s hop then tm.1 else tm.2)
    let wait := match s.rad.cal.getLast? with
      | some (_, e) => e - t0
      | none => 0
    if limit < wait then reject 0x10
    else
      let s := if Rad.frame s then Rad.count s 3 else s
      let (s, data) := s.devRead addr len
      let aer := s.get t RadT.TXD2_AER
      let dtx := s.wget Rad.b RadP.RAD_CFG_DIV_TX
      let ret := ([0, 2, 4, 1][s.get t RadT.TXD2_RET]?).getD 0
      let x : RadTx := {
        d := d, sched := sched, late := decide (0 < wait), hop := hop, power := s.get (Rad.tb + 4 * s.get t RadT.TXD1_POWER) RadT.PWR_DRIVE
        aer := if aer = 1 ∨ aer = 2 then aer else if dtx = 0 then s.get Rad.b RadP.RAD_STATE_AER + 1 else dtx
        fcs2 := fcs2, whiten := s.flag t RadT.TXD2_WHITEN
        ret := if ret = 0 then ([2, 4, 1][s.wget Rad.b RadP.RAD_CFG_RET]?).getD 2 else ret
        data := data.getD [], bad := data.isNone
        first := t0 + wait + dur, planned := t0 + dur, limit := limit }
      if s.rad.cal = [] then Rad.launch s x x.first
      else (s.modRad (fun r => { r with tx := some x })).put Rad.b RadP.RAD_STATE_TX_PEND 1

/-- A calendar RADIO_TX action: the instant it executes at, and its state (R243, R259). -/
def Rad.action (s : State) (fire : Nat) (f : State → Nat → State) : State :=
  let s := s.runTo fire
  if !s.running .radio then s
  else if s.frozen Rad.p then s.logErr Rad.p E.FROZEN_ACTION Rad.b 8
  else f s s.now

/-- RADIO_TX: the next RADIO_TX action dispatched with ARG[7] = 0, the one of `fire` and ARG[6:0] (R201, R243). -/
def execRadioTx (fire : BitVec 64) (arg : BitVec 7) (s : State) : Out :=
  match s.takeAct (fun x => x.act == 6 && !x.arg.testBit 7) (fun x => x.fire == fire.toNat && x.arg % 128 == arg.toNat) with
  | none => .next s
  | some (x, s) => .next (Rad.action s x.fire (fun s t => Rad.start s t (x.arg % 16) true (x.arg % 128 / 16 != 0)))

/-- Is a window open? -/
def Rad.winOpen (s : State) : Bool := match s.rad.win with
  | some w => w.opened
  | none => false

/-- The receive slot `arg` is taken up at the tick `t`; an open window stands until the new one's own open (R243, R256, R257).  In OFF it
is ignored (DEDUCED, log entry 60). -/
def Rad.slot (s : State) (t arg : Nat) : State :=
  if arg / 16 ≠ 0 then Rad.count s 6
  else if Rad.st s = 0 then s
  else
    let b := Rad.tb + 16 * arg
    let o := t + usTicks (s.get b RadT.RSD1_W_OPEN)
    let e := s.get b RadT.RSD0_END
    let w : RadWin := {
      slot := arg, hop := s.get b RadT.RSD0_HOP, end_ := if e = 0 then 2 else if e = 1 then 1 else 4
      open_ := o, close := o + usTicks (s.get b RadT.RSD2_W_LEN), opened := false }
    s.modRad (fun r => if Rad.winOpen s then { r with winNext := some w } else { r with win := some w })

/-- RECEIVE_SLOT: the next RADIO_TX action dispatched with ARG[7] = 1, the one of `fire` and ARG[6:0] (R201, R243). -/
def execReceiveSlot (fire : BitVec 64) (arg : BitVec 7) (s : State) : Out :=
  match s.takeAct (fun x => x.act == 6 && x.arg.testBit 7) (fun x => x.fire == fire.toNat && x.arg % 128 == arg.toNat) with
  | none => .next s
  | some (x, s) => .next (Rad.action s x.fire (fun s t => Rad.slot s t (x.arg % 128)))

/-- The band found by a search goes into the hop entry (R236, R237, R249). -/
def Rad.storeBand (s : State) (h band : Nat) : State :=
  let b := Rad.tb + 8 * h
  ((s.put b RadT.HOP_B_VCO_BAND band).put b RadT.HOP_B_BAND_VALID 1).putI b RadT.HOP_B_T_BAND s.dieDeg

/-- SYNTH_READY: SYN_RAD has settled; `locked` is its lock check, `band` what a search found (R236, R237, R241, R246). -/
def execSynthReady (locked : Bool) (band : BitVec 6) (s : State) : Out :=
  match s.rad.move with
  | none => .next s
  | some (to_, due) =>
    if to_ < 4 ∨ !Rad.live s then .next s
    else
      let hop := s.get Rad.b RadP.RAD_STATE_HOP
      let s := s.runTo due
      if !s.rad.search && !locked then
        -- a fallback: a full search, 240 µs more
        let s := Rad.count s 4
        let s := s.modRad (fun r => { r with
          search := true, move := some (to_, due + usTicks 240)
          tx := r.tx.map (fun x => { x with first := x.first + usTicks 240, late := true }) })
        match s.rad.tx with
        | some x => .next (if to_ = 5 ∧ x.limit < x.first - x.planned then Rad.cutTx s 0x10 else s)
        | none => .next s
      else
        let s := if s.rad.search then Rad.storeBand s hop band.toNat else s
        let s := s.modRad (fun r => { r with move := none })
        if to_ = 4 then .next (Rad.setSt s 4)
        else .next (Rad.setSt (s.runTo (due + usTicks 12)) 5)

/-! #### The frame on the air (R234); SFD, PHR, FCS and PN9 are those of IEEE 802.15.4 (PRESUMED, log entry 17) -/

/-- CRC step of a byte with a reflected polynomial. -/
def Fsk.crcByte (poly r b : Nat) : Nat :=
  (List.range 8).foldl (fun r _ => if r % 2 = 1 then (r / 2) ^^^ poly else r / 2) (r ^^^ b)

/-- The FCS of a payload, octets in sending order: 2 octets or 4. -/
def Fsk.fcs (two : Bool) (l : List Nat) : List Nat :=
  if two then leBytes 2 (l.foldl (Fsk.crcByte 0x8408) 0)
  else leBytes 4 ((l ++ List.replicate (4 - l.length) 0).foldl (Fsk.crcByte 0xEDB88320) 0xFFFFFFFF ^^^ 0xFFFFFFFF)

/-- One octet of PN9 and the register after it; bit 0 of the register is the oldest bit. -/
def Fsk.pn9 (r : Nat) : Nat × Nat :=
  (List.range 8).foldl (fun (o, r) i =>
    let x := b2n (r.testBit 0 ^^ r.testBit 5)
    (o + x * 2 ^ i, r / 2 + x * 2 ^ 8)) (0, r)

/-- Octets whitened with PN9. -/
def Fsk.whiten : Nat → List Nat → List Nat
  | _, [] => []
  | r, x :: t => (x ^^^ (Fsk.pn9 r).1) :: Fsk.whiten (Fsk.pn9 r).2 t

/-- The octets of a frame: preamble, SFD, PHR, PSDU. -/
def Rad.octets (s : State) (x : RadTx) : List Nat :=
  let psdu := x.data ++ Fsk.fcs x.fcs2 x.data
  let n := psdu.length
  let rev (v k : Nat) : Nat := ((List.range k).map (fun i => b2n (v.testBit i) * 2 ^ (k - 1 - i))).sum
  List.replicate (s.wget Rad.b RadP.RAD_CFG_PREAMBLE) 0x55 ++
    (if s.wflag Rad.b RadP.RAD_CFG_SFD_SEL then [0x5E, 0x70] else [0x09, 0x72]) ++
    [8 * b2n x.fcs2 + 16 * b2n x.whiten + 32 * rev (n / 256) 3, rev (n % 256) 8] ++
    (if x.whiten then Fsk.whiten 0x1FF psdu else psdu)

/-- TX_END: the last symbol leaves at t_e, from which the next transition counts, and the sequence runs down over 10 µs (R236, R241, R248,
R255). -/
def execTxEnd (s : State) : Out :=
  match s.rad.tx with
  | none => .next s
  | some x =>
    if Rad.st s ≠ 5 ∨ !Rad.live s then .next s
    else
      -- after a bus error the FIFO is empty when the first PSDU octet is due (R247)
      let n := if x.bad then 0 else x.data.length + (if x.fcs2 then 2 else 4)
      let te := x.first + Rad.bits s (8 * (s.wget Rad.b RadP.RAD_CFG_PREAMBLE + 4 + n))
      let s := (s.runTo (te + usTicks 10)).modRad (fun r => { r with air := (Rad.octets s x).take (s.wget Rad.b RadP.RAD_CFG_PREAMBLE + 4 + n) })
      let s := Rad.endTx s (if x.bad then 0x16 else if x.late then 0x02 else 0x01)
      .next (Rad.after s te x.ret)

/-- TX_UNDERRUN: the transmit FIFO empties at the tick `t` (R247). -/
def execTxUnderrun (t : BitVec 64) (s : State) : Out :=
  match s.rad.tx with
  | none => .next s
  | some x =>
    if Rad.st s ≠ 5 ∨ !Rad.live s then .next s
    else
      let s := Rad.endTx (s.runTo t.toNat) 0x16
      .next (Rad.after s s.now x.ret)

/-- PA_DET violates its limits during a transmission (R242; called by the guard of spec/16). -/
def Rad.paFault (s : State) (irq : Bool) : State :=
  match s.rad.tx with
  | none => s
  | some x =>
    if Rad.st s ≠ 5 then s
    else
      let s := (Rad.endTx s 0x17).raiseIf irq Rad.p 13
      Rad.after s s.now x.ret

/-- SYN_RAD is lost in SYNTH, RX or TX (RAD_CLK of spec/16 R371): the frame ends ABORTED, the radio enters IDLE and the next
transition searches. -/
def Rad.clkLoss (s : State) : State :=
  let st := Rad.st s
  if st = 3 ∨ st = 4 ∨ st = 5 then
    let hop := s.get Rad.b RadP.RAD_STATE_HOP
    let s := (Rad.endTx s 0x18).modRad (fun r => { r with move := none, rx := none })
    Rad.go (s.put (Rad.tb + 8 * hop) RadT.HOP_B_BAND_VALID 0) s.now 2 0
  else s

/-- SYN_SAFE is lost, and the radio island stalls: a frame in the air is lost, a transmission being reported as failed, with ABORTED
(spec/01 R30) (DEDUCED, log entry 107). -/
def Rad.stall (s : State) : State :=
  let s := if Rad.frame s then s.modRad (fun r => { r with rx := none }) else s
  if Rad.st s = 5 then Rad.cutTx s 0x18 else s

/-! ### End of a calibration (R249) -/

/-- RADIO_CAL_START. -/
def execRadioCalStart (s : State) : Out := .next (Rad.tryCal s)

/-- OSC completes: T_OSC, and CAL_DUE clears (R249). -/
def Rad.oscDone (s : State) : State :=
  ((s.modRad (fun r => { r with tOsc := s.dieTemp })).putI Rad.b RadP.CAL_STAT_T_OSC s.dieDeg).put Rad.b RadP.CAL_STAT_CAL_DUE 0

/-- A transmission deferred by a calibration leaves: its ready start lies one transition from IDLE ahead, and a difference beyond the
limit ends it with BUSY_CAL (R246). -/
def Rad.resumeTx (s : State) (x : RadTx) : State :=
  let tm := Rad.time 2 5
  let first := max x.planned (s.now + usTicks (if Rad.stored s x.hop then tm.1 else tm.2))
  let x := { x with late := decide (x.planned < first) }
  if x.limit < first - x.planned then Rad.cutTx (s.modRad (fun r => { r with tx := some x })) 0x10 else Rad.launch s x first

/-- RADIO_CAL_DONE: results of DC, FILTER, IMAGE (`none`: failed), and the bands found for the hop entries in use, in
order. -/
def execRadioCalDone (res : List (Option (BitVec 16))) (bands : List (Option (BitVec 6))) (s : State) : Out :=
  match s.rad.cal.getLast? with
  | none => .next s
  | some (_, e) =>
    if !Rad.live s then .next s
    else
      let ks := s.rad.cal.map (·.1)
      let s := s.runTo e
      let bad (k : Nat) : Bool := ((res[k - 1]?).getD none).isNone
      let fail := ks.any (fun k => k < 4 && bad k)
      let s := s.modRad (fun r => { r with cal := [], trims := (List.range 3).map (fun i =>
        match if (i + 1) ∈ ks then (res[i]?).getD none else none with
        | some v => v.toNat
        | none => (r.trims[i]?).getD 0) })
      let hops := (Rad.hops s).zip (bands ++ List.replicate 64 none)
      let s := if 4 ∈ ks then s.each hops (fun s (h, x) => match x with
          | some v => Rad.storeBand s h v.toNat
          | none => s.put (Rad.tb + 8 * h) RadT.HOP_B_BAND_VALID 0) else s
      let fail := fail || (decide (4 ∈ ks) && hops.any (fun x => x.2.isNone))
      let s := if 4 ∈ ks then Rad.oscDone s else s
      let s := if fail then (s.put Rad.b RadP.CAL_STAT_FAIL 1).raise Rad.p 10 else s
      let s := Rad.showCal (Rad.setSt (s.raise Rad.p 9) 2)
      match s.rad.tx with
      | some x => .next (Rad.resumeTx s x)
      | none =>
        let hop := s.get Rad.b RadP.RAD_STATE_HOP
        let back := s.rad.back.getD 2
        let done := s.modRad (fun r => { r with back := none })
        let rest := if s.rad.calQ ≠ [] then Rad.tryCal s else Rad.go done s.now back hop
        .next (match s.rad.win with
          | some w => if w.opened then Rad.go done s.now 4 w.hop else rest
          | none => rest)

/-! ### Reception (R251 to R255) -/

/-- PREAMBLE_DETECT: a preamble of 16 symbols ends its detection at the tick `t`; the RSSI of both aerials (R251). -/
def execPreambleDetect (t : BitVec 64) (rssi1 rssi2 : BitVec 16) (s : State) : Out :=
  let s := s.runTo t.toNat
  if !Rad.live s ∨ Rad.st s ≠ 4 ∨ Rad.frame s then .next s
  else
    let div := s.wflag Rad.b RadP.RAD_CFG_DIV_EN
    let cur := s.get Rad.b RadP.RAD_STATE_AER
    let aer := if !div then 0 else if rssi1.toInt = rssi2.toInt then cur else if rssi1.toInt < rssi2.toInt then 1 else 0
    let w := (if div then 2 * s.wget Rad.b RadP.RAD_CFG_DIV_SYMS else 0) + 32
    let s := (s.put Rad.b RadP.RAD_STATE_AER aer).put Rad.b RadP.RSSI (if aer = 0 then rssi1 else rssi2).toNat
    .next (s.modRad (fun r => { r with rx := some {
      until_ := s.now + Rad.bits s w
      alt := if div then (if aer = 0 then rssi2 else rssi1).toNat else 0x8000
      slot := r.win.map (fun x => (x.slot, x.open_, x.close)), t := none } }))

/-- The receive slot of a frame with time-stamp `t`: a window that `t` lies in, the present one or one that is over, else the present
one or the one at the preamble (R256). -/
def Rad.slotOf (s : State) (x : RadRx) (t : Nat) : Option (Nat × Nat × Nat) :=
  let cur := s.rad.win.map (fun w => (w.slot, w.open_, w.close))
  ((cur.toList ++ s.rad.past).find? (fun y => decide (y.2.1 ≤ t ∧ t < y.2.2))).or (cur.or x.slot)

/-- An open window is over at the tick `t`; it is kept as long as a time-stamp can still lie in it (RX_LAT is below 2^24 ticks). -/
def RadSt.over (r : RadSt) (t : Nat) : RadSt :=
  match r.win with
  | some w => if w.opened then { r with past := (w.slot, w.open_, min w.close t) :: r.past.filter (fun y => decide (t < y.2.2 + 2 ^ 24)) }
      else r
  | none => r

/-- SFD_DETECT: the end of the last SFD symbol by the recovered symbol timing and the island's time replica (R19, R255). -/
def execSfdDetect (t : BitVec 64) (s : State) : Out :=
  let s := s.runTo t.toNat
  match s.rad.rx with
  | none => .next s
  | some x =>
    if !Rad.live s ∨ Rad.st s ≠ 4 ∨ x.t.isSome ∨ !Rad.frame s then .next s
    else
      let lat := latTicks (s.get (Rad.b + 4 * s.wget Rad.b RadP.RAD_CFG_RATE) RadP.RX_LAT_NS)
      let t := replica 6 t.toNat - lat
      .next (s.modRad (fun r => { r with rx := some { x with slot := Rad.slotOf s x t, t := some t } }))

/-- A frame is lost to the ring: RX_DROP (R253). -/
def Rad.drop (s : State) : State := ((Rad.count s 2).raise Rad.p 3).modRad (fun r => { r with lost := true })

/-- A received frame goes to the ring (R253, R254). -/
def Rad.deliver (s : State) (hdr psdu : List Nat) (flags : Nat) (overrun : Bool) : State :=
  let b := Rad.b
  let n := max (s.get b RadP.RXR_SLOTS_SLOTS) 1
  let wp := s.get b RadP.RXR_WP_WP
  let base := 64 * s.get b RadP.RXR_BASE_BASE
  let a := base + 2112 * wp
  if !s.flag b RadP.RX_CTL_RING_EN then s
  else if overrun ∨ base = 0 ∨ (wp + 1) % n = s.get b RadP.RXR_RP_RP then Rad.drop s
  else
    let fl := flags + 64 * b2n s.rad.lost
    match s.blockWrite (a + 0x40) psdu with
    | (s, false) => Rad.drop s
    | (s, true) =>
      match s.blockWrite a (hdr.take 2 ++ [fl] ++ hdr.drop 3) with
      | (s, false) => Rad.drop s
      | (s, true) =>
        let s := ((s.put b RadP.RXR_WP_WP ((wp + 1) % n)).modRad (fun r => { r with lost := false })).raise Rad.p 0
        s.raiseIf (decide (s.get b RadP.RXR_WM_WM ≤ ((wp + 1) % n + n - s.get b RadP.RXR_RP_RP % n) % n)) Rad.p 2

/-- RX_FRAME: a frame ends: Mode Switch, FCS Type and Data Whitening of its PHR, the PSDU octets as received, RSSI over the
PHR, frequency error, and whether the receive FIFO overran (R253, R254, R256). -/
def execRxFrame (ms fcs2 whiten : Bool) (psdu : List (BitVec 8)) (rssi freqErr : BitVec 16) (overrun : Bool) (s : State) : Out :=
  match s.rad.rx with
  | none => .next s
  | some x =>
    match x.t with
    | none => .next s
    | some t =>
      if !Rad.live s ∨ Rad.st s ≠ 4 then .next s
      else
        let b := Rad.b
        let n := psdu.length % 2048
        let s := s.runTo (t + Rad.bits s (8 * (2 + n)))
        let raw := (psdu.take n).map (·.toNat)
        let oct := if whiten then Fsk.whiten 0x1FF raw else raw
        let k := if fcs2 then 2 else 4
        let good := Fsk.fcs fcs2 (oct.take (n - k)) == oct.drop (n - k)
        let gate := s.wget b RadP.RX_CFG_RX_GATE
        let inside := match x.slot with
          | some (_, o, c) => decide (o ≤ t ∧ t < c)
          | none => false
        let s := s.modRad (fun r => { r with rx := none, seq := (r.seq + 1) % 2 ^ 16 })
        let flags := b2n good + 2 * b2n fcs2 + 4 * b2n whiten + 8 * b2n inside + 16 * b2n x.slot.isSome
          + 32 * s.get b RadP.RAD_STATE_AER + 128 * s.wget b RadP.RAD_CFG_SFD_SEL
        let slot := match x.slot with
          | some (i, _, _) => i
          | none => 0
        let hdr := recBytes [(2, n), (1, 0), (1, s.get b RadP.RAD_STATE_HOP), (1, s.wget b RadP.RAD_CFG_RATE), (1, slot),
          (2, s.rad.seq), (8, t), (2, rssi.toNat), (2, x.alt), (2, freqErr.toNat)] ++ List.replicate 42 0
        let s := if ms ∨ n < k then Rad.count s 1
          else
            let s := if good then s else Rad.count s 0
            if !good && !s.wflag b RadP.RX_CFG_KEEP_BAD then s
            else if gate = 1 ∧ !inside then Rad.count s 5
            else Rad.deliver s hdr oct flags overrun
        .next (Rad.after s s.now (([2, 4, 1][s.wget b RadP.RAD_CFG_RET]?).getD 2))

/-! ### Receive windows (R256, R257) -/

/-- The window that opens next: the slot's own, or the one that replaces an open one. -/
def Rad.winDue (s : State) : Option RadWin := if Rad.winOpen s then s.rad.winNext else s.rad.win

/-- SLOT_WINDOW_OPEN: the radio must be in RX on the slot's hop entry. -/
def execSlotWindowOpen (s : State) : Out :=
  match Rad.winDue s with
  | none => .next s
  | some w =>
    if !s.running .radio then .next s
    else
      let s := (s.runTo w.open_).modRad (fun r => { r.over w.open_ with win := some { w with opened := true }, winNext := none, endTo := none })
      let st := Rad.st s
      let s := if st = 6 then s.put Rad.b RadP.RAD_STATE_WIN_LATE 1 else s
      .next (if !Rad.live s ∨ st = 0 ∨ st = 5 ∨ st = 6 ∨ s.rad.tx.isSome then s
        else if st = 4 ∧ s.get Rad.b RadP.RAD_STATE_HOP = w.hop ∧ s.rad.move.isNone then s
        else if (s.rad.move.map (·.1)) = some 4 ∧ s.get Rad.b RadP.RAD_STATE_HOP = w.hop then s
        else Rad.go s s.now 4 w.hop)

/-- SLOT_WINDOW_CLOSE: then the END state, after a frame in progress. -/
def execSlotWindowClose (s : State) : Out :=
  match s.rad.win with
  | none => .next s
  | some w =>
    if !w.opened ∨ !s.running .radio then .next s
    else
      let s := (s.runTo w.close).modRad (fun r => { r.over w.close with win := r.winNext, winNext := none })
      let st := Rad.st s
      .next (if !Rad.live s ∨ st = 0 then s
        else if st = 6 then s.modRad (fun r => { r with back := some w.end_ })
        else if Rad.frame s ∨ s.rad.tx.isSome then s.modRad (fun r => { r with endTo := some w.end_ })
        else Rad.after (s.modRad (fun r => { r with endTo := some w.end_ })) s.now w.end_)

/-! ### Commands and registers (R235, R239, R258 to R261) -/

/-- The radio goes OFF: everything in progress ends (R235, R239). -/
def Rad.stop (s : State) : State :=
  let s := Rad.dropCal (Rad.endTx s 0x18)
  s.modRad (fun r => { r with move := none, rx := none, win := none, winNext := none, endTo := none })

/-- EN written: OFF to SLEEP, or OFF at once (R235). -/
def Rad.enable (s : State) : State := if Rad.st s = 0 then Rad.go s s.now 1 0 else s
def Rad.disable (s : State) : State := Rad.showCal (Rad.setSt (Rad.stop s) 0)

/-- A command bit of CMD: 0 SLEEP, 1 IDLE, 2 RX, 3 TX, 4 OFF, 5 ABORT (DEDUCED, log entry 60). -/
def Rad.cmd (s : State) (req desc k : Nat) : State :=
  let st := Rad.st s
  if s.frozen Rad.p then s
  else if k = 3 then Rad.start s s.now desc false false
  else if !s.en Rad.p then s
  else if k = 4 then if st = 0 then Rad.stop s else Rad.showCal (Rad.go (Rad.stop s) s.now 0 0)
  else if k = 5 then
    let s := Rad.dropCal (Rad.endTx s 0x18)
    let s := s.modRad (fun r => { r with move := none, rx := none })
    Rad.showCal (if Rad.st s = 6 then Rad.tryCal (Rad.setSt s 2) else Rad.go s s.now 2 0)
  else if st = 5 ∨ st = 6 ∨ s.rad.tx.isSome ∨ (k = 2 ∧ st = 0) then s.logErr Rad.p 0x40 (Rad.b + 0x060) req
  else
    let s := s.modRad (fun r => { r with move := if r.move.map (·.1) = some 4 ∧ k ≠ 2 then none else r.move })
    let hop := s.wget Rad.b RadP.RX_CFG_RX_HOP
    Rad.go s s.now (if k = 0 then 1 else if k = 1 then 2 else 4) hop

/-- The page freezes (R259). -/
def Rad.freeze (s : State) : State :=
  let tx := s.rad.tx.isSome
  let s := Rad.dropCal (Rad.endTx s 0x18)
  let s := s.modRad (fun r => { r with rx := none, move := if tx then none else r.move })
  if Rad.st s = 6 ∨ (tx ∧ (Rad.st s = 3 ∨ Rad.st s = 5)) then Rad.setSt s 2 else s

/-- May the RADIO page hand over (R258)? -/
def Rad.quiet (s : State) : Bool :=
  let st := Rad.st s
  (st == 0 || st == 1 || st == 2 || (st == 4 && !Rad.frame s)) && s.rad.tx.isNone && s.rad.cal == []

/-- The hand-over of the RADIO page (R258). -/
def Rad.handOver (s : State) : State :=
  if !Rad.quiet s then s
  else
    let hop := s.wget Rad.b RadP.RX_CFG_RX_HOP
    match s.takePage Rad.p with
    | (s, none) => s
    | (s, some _) =>
      let s := s.modRad (fun r => { r with rx := none })
      let hop' := s.wget Rad.b RadP.RX_CFG_RX_HOP
      if Rad.st s = 4 ∧ hop ≠ hop' then Rad.go s s.now 4 hop' else s

/-- Special effects of a write to a RADIO register. -/
def Rad.write (s : State) (req off v : Nat) (store : State → State) : State :=
  let a := Rad.b + off
  let busy := s.flag Rad.b RadP.RX_CTL_RING_EN
  let slots := s.get Rad.b RadP.RXR_SLOTS_SLOTS
  if off = 0x054 then Rad.calCmd (store s) req v
  else if off = 0x060 then
    ((List.range 6).filter (fun k => v.testBit k)).foldl (fun s k => Rad.cmd s req (bitsOf v 8 4) k) (store s)
  else if off = 0x080 then Net.place s Rad.p req a 0x41 v (2112 * slots) busy store
  else if off = 0x084 then
    Net.size s Rad.p req a 0x41 (v % 2 ^ 12) 2 4095 (64 * s.get Rad.b RadP.RXR_BASE_BASE) (2112 * (v % 2 ^ 12)) busy store
  else if off = 0x08C then if slots ≤ v % 2 ^ 12 then s.logErr Rad.p E.RANGE_REJECTED a req else store s
  else store s

/-- Special effects of a write to the radio tables; errors are logged on the RADIO page (R250, R261). -/
def Rad.tabWrite (s : State) (req off v : Nat) (store : State → State) : State :=
  let a := Rad.tb + off
  if 0x200 ≤ off then store s
  else if off % 8 = 0 then
    let f := v % 2 ^ 20
    if f = 0 ∨ (863000 ≤ f ∧ f ≤ 876000) ∨ (902000 ≤ f ∧ f ≤ 928000) then (store s).put a ⟨4, 8, 1⟩ 0
    else s.logErr Rad.p 0x43 a req
  else if s.rad.cal ≠ [] then s.logErr Rad.p 0x44 a req
  else store s

/-- Computed registers: RAD_STATE.FRAME (R260), the running step of CAL_STAT. -/
def Rad.read (s : State) (off : Nat) : Option Nat :=
  if off = 0x064 then some (putBits (s.regN (Rad.b + off)) 3 1 (b2n (Rad.frame s)))
  else if off = 0x058 then
    match s.rad.cal.find? (fun x => s.now < x.2) with
    | some (k, _) => some (putBits (s.regN (Rad.b + off)) 1 3 k)
    | none => none
  else none

/-- BLOCK_STAT: ON_AIR, WINDOW. -/
def Rad.blockStat (s : State) : Nat :=
  b2n (Rad.st s == 5) + 2 * b2n (Rad.winOpen s)

end Sys2Proof.Machine
end

