-- ==== Sys2Proof/Machine/Reset.lean ====
section
/-! DEFINITION. Island restarts and the reset kinds (spec/02 R46, spec/17 R393, R394). -/

namespace Sys2Proof.Machine

/-- Islands in the order of R13. -/
def Island.all : List Island := [.rf, .corr, .acq, .arr, .time, .net, .radio, .core, .fabric, .flash, .superv, .power]

/-- The island of a number. -/
def Island.nth (n : Nat) : Island := (Island.all[n]?).getD .power

/-- The pages of an island. -/
def Island.pages (i : Island) : List Nat := (List.range 0x120).filter (fun p => (pageInfo p).isSome && pageIsland p == i)

/-- Does a page carry the common header? -/
def hasHead (p : Nat) : Bool := match pageInfo p with
  | some (b, _) => hasHeader b
  | none => false

/-! ### Accesses that a reset or the fabric ends (spec/01 R28, R462) -/

/-- A held access leaves the list. -/
def Bus.drop (s : State) (h : Held) : State := { s with held := s.held.filter (fun x => decide (x ≠ h)) }

/-- A held access ends with a value or a bus error; the debug access register shows the end of its own (spec/20 R458). -/
def Bus.finish (s : State) (h : Held) (v : Nat) (err : Bool) : State :=
  let w := BitVec.ofNat 32 v
  let s := (Bus.drop s h).answer h.req (if h.write then [] else [w]) err
  if h.req = 10 then { s with jtag := { s.jtag with res := b2n err, data := if h.write then s.jtag.data else v } } else s

/-- A held access ends with a bus error: nothing is written, 0 is read (R28). -/
def Bus.fail (s : State) (h : Held) : State := Bus.finish s h 0 true

/-- A held access of any requester ends with an error response: a core takes BUS_LOAD or BUS_STORE, a DMA set ends with BAD, the WRITE of
the host SPI target will end at this word, and every other requester is answered (R28). -/
def Bus.abort (s : State) (h : Held) : State :=
  if 16 ≤ h.req then Cpu.raise (Bus.drop s h) (h.req - 16) (Exc.plain (if h.write then 0x0A else 0x09) h.addr)
  else if h.req = 13 then Dma.failed (Bus.drop s h) h.val h.addr
  else if h.req = 12 then { s with held := s.held.map (fun x => if x = h then { x with n := 0 } else x) }
  else Bus.fail s h

/-- Page of a window address. -/
def Held.page (h : Held) : Nat := (h.addr - 0x40000000) / 0x1000

/-- Accesses outstanding to the pages end with an error response before the pages are reset (R28, R462). -/
def Reset.abort (s : State) (ps : List Nat) : State :=
  s.each (s.held.filter (fun h => decide (0x40000000 ≤ h.addr ∧ h.page ∈ ps))) Bus.abort

/-! ### What resets leave -/

/-- Registers of pages return to their reset words, but for those at the addresses `keep`, and for the bits of the masks `live`; COMMITs
and captures of the pages are abandoned (R45, R46).  A once field that is kept stays written: a write to it after the reset is its
second one (R9; DESIGN CHOICE, log entry 105). -/
def Reset.pages (s : State) (ps keep : List Nat) (live : List (Nat × Nat)) : State :=
  let out (a : Nat) : Bool := decide (a / 0x1000 ∉ ps ∨ a ∈ keep)
  let t := { s with
    regs := s.regs.filter (fun e => out e.1)
    work := s.work.filter (fun e => out e.1)
    capt := s.capt.filter (fun e => out e.1)
    once := s.once.filter out
    armed := s.armed.filter (fun x => out x.key) }
  t.each (live.filter (fun x => decide (x.1 / 0x1000 ∈ ps))) (fun t x =>
    t.setReg x.1 ((s.regN x.1 &&& x.2) + ((resetWord x.1).toNat &&& (2 ^ 32 - 1 - x.2))))

/-- Registers of the four CLK pages that a power island restart keeps (spec/15 R363): REF_CFG, PAIR_CFG, CPLL_TARGET, LOCK_CFG, PLL_CTL
and CBAND. -/
def Reset.clkKeep : List Nat :=
  [pg 0x008 + 0x040, pg 0x009 + 0x040, pg 0x00B + 0x040, pg 0x00B + 0x044] ++ (List.range 9).map Pll.b ++
    (List.range 41).map (fun j => pg 0x00B + 0x200 + 4 * j)

/-- What shows the PLLs, the source and build-out in force and DLL_CDL, which run on unchanged (spec/15 R363): PLL_STAT but FAST_TRIP,
PLL_DIV, PLL_EXPECT, REF_STAT but SWITCHES, REF_BUILD, PAIR_STAT but SKEW, DLL_STAT (DEDUCED, log entry 96). -/
def Reset.clkLive : List (Nat × Nat) :=
  (List.range 9).flatMap (fun k => [(Pll.b k + 0x04, 0x7F2F), (Pll.b k + 0x08, 0xFFFFFF), (Pll.b k + 0x10, 0xFFFFFF)]) ++
    [(pg 0x008 + 0x044, 0xF), (pg 0x008 + 0x048, 0xFFF), (pg 0x009 + 0x044, 0x3), (pg 0x009 + 0x050, 0x1FFF0007)]

/-- Registers that an island restart keeps (R394 and the chapters it names; what the module's surroundings and the last reset
decide stays as well: straps, RESET_CAUSE). -/
def Reset.keep (i : Island) : List Nat :=
  match i with
  | .rf => [0x10110, 0x12110]
  | .acq => [0x20040, 0x20060, 0x20064, 0x20068, 0x21060, 0x21064, 0x21068]
  | .arr => [0x48040, 0x4804C]
  | .fabric => [0x93040, 0x9304C, 0x0005C, 0x00044, 0x00048]
  | .flash => [0x91058]
  | .superv => [0x02050, 0x03050]
  | .power => ((List.range 0x400).map (fun j => pg 0x0A0 + 4 * j)).drop 16 ++ Reset.clkKeep
  | _ => []

/-- Bits that an island restart leaves because they show what it does not change: the PLLs, the class that the radio read at its release
(spec/10 R240), the boot mode, and the debug grant, which lasts through an island restart (R401). -/
def Reset.live (i : Island) : List (Nat × Nat) :=
  match i with
  | .radio => [(0x70064, 0x80)]
  | .fabric => [(0xF0040, 1), (0x00180, 3)]
  | .power => Reset.clkLive
  | _ => []

/-- What an island holds beside its registers, as a reset leaves it (DEDUCED, log entry 96). -/
def Reset.inner (s : State) (i : Island) : State :=
  let r := State.reset
  match i with
  | .rf =>
    -- the update counter starts at 0 when the island leaves the reset (spec/03 R52)
    { s with
      chains := Vector.ofFn (fun c : Fin 4 =>
        { Chain.init with biasOn := (s.ch c).biasOn, biasRun := (s.ch c).biasRun, shortAt := (s.ch c).shortAt })
      osc := r.osc, rfLast := s.now }
  | .corr =>
    let ofs := if s.cdl.loaded then s.cdl.gscOfs else (2 ^ 48 - s.nextSample % 2 ^ 48) % 2 ^ 48
    let s := { s with chan := [], dumpFifo := [], grpAt := r.grpAt, grpArmed := none, codeLog := [], crcRun := none, crcAcc := 0, latch := none,
                      measPrev := (s.nextSample - 1, s.now), measSeq := 0, measMissed := 0
                      acts := s.acts.filter (fun x => decide (x.act ≠ 3 ∧ x.act ≠ 4)) }
    s.modCdl (fun c => { c with gscOfs := ofs })
  | .acq =>
    -- INTERRUPTED stays set over a restart that finds no job (R101; DESIGN CHOICE, log entry 110)
    let ran (e : Nat) : Bool := (s.job e).isSome || s.flag (Acq.b e) Acq.ENG_STAT_INTERRUPTED
    { s with snap := none, tags := [], jobs := r.jobs, acts := s.acts.filter (fun x => x.act != 5) }.each ([0, 1].filter ran) (fun s e =>
      s.put (Acq.b e) Acq.ENG_STAT_INTERRUPTED 1)
  | .arr =>
    -- the synthesizers leave the upstream clock; beams of earlier samples are formed from what they rested on (spec/07 R175, R179)
    let s := Cdl.dropClock (Arr.changing s)
    { s with
      cdl := { CdlSt.init with gscOfs := s.cdl.gscOfs, clkOut := s.cdl.clkOut }
      arr := { s.arr with covFrom := 0, covSeq := 0 } }
  | .time => s
  | .net => { s with net := r.net }
  | .radio => { s with rad := r.rad, acts := s.acts.filter (fun x => x.act != 6) }
  | .core => s.each (List.range 6) (fun s c => Cpu.unhold (Cpu.reset s c) c)
  | .fabric =>
    let s := s.each [0x0B0, 0x0B1, 0x0B2, 0x0B3, 0x0B4, 0x0B5, 0x0B6, 0x0B7] (fun s p => Field.reset s p)
    let s := (Dma.reset s).modFl (fun f => { f with dumpRun := none })
    let s := { s with held := s.held.filter (fun h => decide (h.req ≠ 12)) }
    { s.modPwr (fun p => { p with hash := none, waitHost := false, kickAt := s.now }) with
      swi := 0, acts := s.acts.filter (fun x => x.act != 7) }
  | .flash => Flash.reset s
  | .superv => { s with vig := { r.vig with faultN := s.vig.faultN, faultAt := s.vig.faultAt, queue := s.vig.queue }, guards := r.guards }
  | .power => s

/-- DBG_CHAL takes a new random value (spec/17 R401). -/
def Reset.challenge (s : State) : State :=
  s.each [0x190, 0x194, 0x198, 0x19C] (fun s o => let (v, s) := s.draw (2 ^ 32); s.setReg o v)

/-- The radio reads the class in force at its release (spec/10 R240). -/
def Reset.radioClass (s : State) : State := s.putB Rad.b RadP.RAD_STATE_CLASS (Power.full s)

/-- FAULT_SRC after a supervision reset: LAST_RESORT is kept (R376, R394). -/
def Reset.faultSrc (s : State) : State :=
  s.each [0, 1] (fun s v => (s.put (Vig.b v) Vig.FAULT_SRC_FATAL 0).put (Vig.b v) Vig.FAULT_SRC_FW 0)

/-- Core 0 leaves RESET at the boot ROM (spec/11 R293). -/
def Reset.core0 (s : State) : State := Cpu.startAt s 0 0x04000000

/-- An island restart (R46): accesses outstanding to it end first (R28), then its pages and what it holds beside them are reset, RESTARTED
on each page with a header; a linked module is isolated (spec/07 R175, R179) (DEDUCED, log entry 70). -/
def Reset.island (s : State) (i : Island) : State :=
  if i = .time then s
  else
    let s := Reset.abort s (if i = .fabric then List.range 0x120 else i.pages)
    let pads := s.rad
    let linked := Cdl.on s
    let s := Reset.inner s i
    let kept := s
    let s := Reset.pages s i.pages (Reset.keep i) (Reset.live i)
    let s := match i with
      | .acq => s.each [0, 1] (fun s e => s.put (Acq.b e) Acq.ENG_STAT_INTERRUPTED (kept.get (Acq.b e) Acq.ENG_STAT_INTERRUPTED))
      | .arr => if linked then (Cdl.setState (s.modCdl (fun c => { c with isolated := true })) 6).raise Cdl.p 8 else s
      | .radio => (Rad.setSt s 0).modRad (fun r => { r with air := pads.air })
      | .core => Reset.core0 s
      | .fabric => Reset.challenge s
      | .superv => Reset.faultSrc s
      | _ => s
    (s.each (i.pages.filter hasHead) (fun s p => s.put (pg p) H.RESTARTED 1)).noteValid

/-- Is an address inside the dump bay? -/
def inBay (a : Nat) : Bool := decide (0x11FC0000 ≤ a ∧ a < 0x12000000)

/-- SRAM and TLM initialisation (spec/14 R333): all words 0 with valid check codes, but the dump bay where `bay` keeps it.
Flash keeps its contents. -/
def Reset.memory (s : State) (bay : Bool) : State :=
  { s with
    mem := s.mem.filter (fun c => decide (rangeOf c.1 = .flash) || (bay && inBay c.1))
    eccBad := s.eccBad.filter (fun x => bay && inBay x.1) }

/-- The islands a warm reset resets. -/
def Island.warm : List Island := [.rf, .corr, .acq, .arr, .net, .radio, .core, .fabric, .flash, .superv, .power]

/-- Registers a warm reset keeps (R394: those not marked "island restart only"). -/
def Reset.warmKeep : List Nat := [0x93040, 0x9304C, 0x0005C, 0x00044, 0x00048, 0x91058, 0x02050, 0x03050] ++ Reset.keep .power

/-- Bits that it leaves. -/
def Reset.warmLive : List (Nat × Nat) := (0xF0040, 1) :: Reset.clkLive

/-- The JTAG access in progress ends with a bus error when the islands that carry it are reset (R28, R462). -/
def Reset.jtag (s : State) : State :=
  let s := if s.held.any (fun h => h.req == 10) then { s with jtag := { s.jtag with res := 1, data := 0 } } else s
  { s with held := [] }

/-- A warm reset (R393): every island but the time island; the boot ROM then starts (spec/17 R395). -/
def Reset.warm (s : State) : State :=
  let s := Flash.reset (Reset.jtag s)
  let bay := s.flag (pg 0x093) Dump.DUMP_CTL_DUMP_VALID
  let cnt := s.get 0 Sys.RESET_CAUSE_WARM_CNT
  let s := Reset.memory s bay
  let s := s.each Island.warm (fun s i => Reset.inner s i)
  let s := { s with chains := State.reset.chains, code := [], codeBad := [], inReset := [], stalled := s.stalled.filter (fun i => i == Island.time),
                    spi := State.reset.spi, resp := s.resp, jtag := { s.jtag with test := false } }
  let s := s.modCdl (fun c => { c with gscOfs := (2 ^ 48 - s.nextSample % 2 ^ 48) % 2 ^ 48 })
  let s := Reset.pages s (Island.warm.flatMap Island.pages) Reset.warmKeep Reset.warmLive
  let s := (s.modPwr (fun p => { p with back := none, running := none })).put Power.b Power.PD_STAT_SHED 0
  let s := (s.put 0 Sys.RESET_CAUSE_KIND 5).put 0 Sys.RESET_CAUSE_WARM_CNT (satInc 8 cnt)
  let s := if bay then s.count (pg 0x093) Dump.RESETS_COUNT else s
  let s := Reset.faultSrc s
  let s := Vig.pin s (s.vig.faultN && decide (s.now < s.vig.faultAt + Vig.lowTicks) || Vig.faultSrc s)
  (Reset.core0 (Reset.radioClass (Reset.challenge (Power.heatBlock s)))).noteValid

/-- The time island's fields of `t` put into `s` (R393 "kept"). -/
def Reset.keepTime (t s : State) : State :=
  let lo := pg 0x050
  let hi := pg 0x055
  let inT (a : Nat) : Bool := decide (lo ≤ a ∧ a < hi)
  { s with
    regs := Tab.copyRange lo hi t.regs s.regs
    work := Tab.copyRange lo hi t.work s.work
    capt := t.capt.filter (fun e => inT e.1)
    once := t.once.filter inT
    armed := t.armed.filter (fun x => inT x.key)
    base := t.base, ts := t.ts, tsSt := t.tsSt, updLast := t.updLast, secLast := t.secLast, ents := t.ents, spanQ := t.spanQ,
    spans := t.spans, padLog := t.padLog, evtIn := t.evtIn, evtFifo := t.evtFifo, evtSeq := t.evtSeq, evtLost := t.evtLost }

/-- The other reset kinds (R393): `kind` as RESET_CAUSE.KIND has it, 0 power-on to 4 software full.  Flash keeps its contents;
straps and the class in force are what they were. -/
def Reset.full (s : State) (kind : Nat) : State :=
  let s := Flash.stop (Reset.jtag s)
  let r : State := { State.reset with
    pending := s.pending, resp := s.resp, fresh := s.fresh
    mem := s.mem.filter (fun c => decide (rangeOf c.1 = .flash))
    fl := { State.reset.fl with dumpSeq := if kind ≤ 1 then 0 else s.fl.dumpSeq }
    jtag := { s.jtag with test := false }
    plls := if kind ≤ 1 then State.reset.plls else s.plls }
  let r := if kind = 1 then
      let r := Reset.keepTime s r
      { r with smpZ := (s.now + 7999) / 8000 * 8000, rfLast := s.now }
    else r
  let pd (f : Fld) (x : State) : State := x.put Power.b f (s.get Power.b f)
  let r := pd Power.PD_STAT_DENIED (pd Power.PD_STAT_FALLBACK (pd Power.PD_STAT_FULL (pd Power.PD_STAT_REQ r)))
  let r := r.put Power.b Power.VAUX_ILIM_MA (Power.maxMA r)
  let r := r.put 0 ⟨0x044, 0, 3⟩ (s.get 0 ⟨0x044, 0, 3⟩)
  let r := r.put (pg 0x0F0) Test.TEST_STAT_PT_MODE (b2n (s.get 0 Sys.STRAPS_BOOT == 3))
  let r := (r.put 0 Sys.RESET_CAUSE_KIND kind).modPwr (fun p => { p with kickAt := r.now })
  -- LAST_RESORT outlives a Vigil and a software full reset (R376)
  let r := if 3 ≤ kind ∧ s.flag (Vig.b 0) Vig.FAULT_SRC_LAST_RESORT then Vig.setSrc r Vig.FAULT_SRC_LAST_RESORT else r
  Reset.radioClass (Reset.challenge r)

/-- Hold islands in reset; accesses outstanding to them end with an error response (R462). -/
def Reset.hold (s : State) (l : List Island) : State :=
  let s := Reset.abort s (l.flatMap Island.pages)
  let s := s.each l (fun s i => Reset.inner s i)
  let s := if decide (Island.rf ∈ l) then { s with chains := State.reset.chains } else s
  let keep := if decide (Island.power ∈ l) then [] else Reset.warmKeep
  let s := Reset.pages s (l.flatMap Island.pages) keep (if decide (Island.power ∈ l) then [] else Reset.warmLive)
  { s with inReset := l ++ s.inReset.filter (· ∉ l) }.noteValid

end Sys2Proof.Machine
end

