-- ==== Sys2Proof/Machine/Guard.lean ====
section
/-! DEFINITION. Input guards and what they set off (spec/16 R378 to R381, R385; spec/17 R389 to R392). -/

namespace Sys2Proof.Machine

/-! ### Loss and return of PoE (spec/17 R389, R390) -/

/-- Islands held in reset while load is shed. -/
def Island.shed : List Island := [.rf, .corr, .arr, .acq, .radio]

/-- Guard 8 enters LOW: load is shed, the flash and Annal island acts on the loss, port 0 loses its link (R389, R436, spec/14
R344, spec/19 R435). -/
def Power.shed (s : State) : State :=
  if Power.shedding s ∨ s.pwr.asleep then s
  else
    let s := Reset.hold ((s.put Power.b Power.PD_STAT_SHED 1).raise 0x0A0 1) Island.shed
    let s := if s.running .net then Eth.down s 0 else s
    Flash.powerLoss (Power.heatBlock (s.modPwr (fun p => { p with back := none })))

/-- HOLDUP_END: the hold-up store falls below its working limit; with VBAK the time island runs on, in coast mode (R389, spec/08
R182). -/
def execHoldupEnd (vbak : Bool) (s : State) : Out :=
  if !Power.shedding s ∨ s.pwr.asleep then .next s
  else
    let s := Reset.hold (Pad.changing (Pad.settle s)) (Island.all.filter (fun i => i != Island.time))
    let s := Pad.cut (s.modPwr (fun p => { p with asleep := true, pwrGood := false }))
    .next (if vbak then Cal.coastIn s 2 else { Reset.keepTime State.reset s with inReset := Island.all })

/-! ### Guards (R378, R379) -/

/-- Register block of guard `g`. -/
def Guard.b (g : Nat) : Nat := pg 0x004 + 0x100 + 0x20 * g

/-- A guard beside its registers. -/
def Guard.st (s : State) (g : Nat) : GuardSt := s.guards[g]?.getD ⟨[], 0, 0⟩

/-- Change a guard beside its registers. -/
def Guard.mod (s : State) (g : Nat) (f : GuardSt → GuardSt) : State :=
  { s with guards := s.guards.setIfInBounds g (f (Guard.st s g)) }

/-- FILTER, held on the EVT page for guards 0 to 7; 0 counts as 1. -/
def Guard.filter (s : State) (g : Nat) : Nat :=
  max 1 (if g < 8 then s.get (Evt.ib g) EvtI.EVT_CFG_FILTER else s.get (Guard.b g) GuardG.GD_CFG_FILTER)

/-- TO, held on the PTP page for guards 14 to 17. -/
def Guard.to_ (s : State) (g : Nat) : Nat :=
  if 14 ≤ g ∧ g ≤ 17 then s.get (Ptp.d (g - 14)) PtpD.PORT_CFG_ANN_TO else s.get (Guard.b g) GuardG.GD_TO_TO

/-- ACTION; fixed at 2 for guards 0 to 7. -/
def Guard.action (s : State) (g : Nat) : Nat := if g < 8 then 2 else s.get (Guard.b g) GuardG.GD_CFG_ACTION

/-- STATE: 0 OK, 1 LOW, 2 HIGH, 3 TIMEOUT. -/
def Guard.state (s : State) (g : Nat) : Nat := s.get (Guard.b g) GuardG.GD_STAT_STATE

/-- The mean of samples, the nearest whole number (DESIGN CHOICE, log entry 12). -/
def meanI (l : List Int) : Int := roundDiv (l.foldl (· + ·) 0) (max 1 l.length)

/-- The filtered value after a sample (R378): a level guard keeps its level until a new one has held FILTER samples
(DEDUCED, log entry 68). -/
def Guard.filtered (s : State) (g : Nat) (hist : List Int) : Int :=
  let old := s.getI (Guard.b g) GuardG.GD_VAL_VALUE
  if g < 8 then
    match hist with
    | [] => old
    | x :: _ => if Guard.filter s g ≤ hist.length ∧ hist.all (· == x) then x else old
  else meanI hist

/-- Where a filtered value lies: 1 below LO, 2 above HI, 0 within (R379). -/
def Guard.verdict (s : State) (g : Nat) (v : Int) : Nat :=
  let lo := s.getI (Guard.b g) GuardG.GD_LO_LO
  let hi := s.getI (Guard.b g) GuardG.GD_HI_HI
  if lo ≠ -0x8000 ∧ v < lo then 1 else if hi ≠ 0x7FFF ∧ hi < v then 2 else 0

/-- Fault class of a guard's Vigil event (R381). -/
def Guard.fault (s : State) (g st : Nat) : State :=
  if g = 8 ∧ st = 1 then s.faultNoted 0x11 g 0 0
  else if g = 11 ∧ st = 2 then s.fault 0x10 g 0 0
  else s.faultNoted 0x0F g 0 0

/-- Entry into LOW, HIGH or TIMEOUT: VIOL, COUNT and the action (R379, R380).  The blocks raise their own named events. -/
def Guard.enter (s : State) (g st : Nat) : State :=
  let b := Guard.b g
  let a := Guard.action s g
  let s := s.put b GuardG.GD_STAT_STATE st
  let s := if a = 0 then s else (s.put b GuardG.GD_STAT_VIOL 1).count b GuardG.GD_STAT_COUNT
  let own := g == 8 || g == 11 || g == 12 || decide (19 ≤ g)
  let s := s.raiseIf (own && decide (2 ≤ a)) 0x004 g
  let s := s.raiseIf (g == 13 && decide (2 ≤ a)) Cdl.p 7
  if a = 3 then Guard.fault s g st else s

/-- What a sample of guard `g` brings whatever its action is: `v` filtered, `raw` the sample, `now` the verdict, `old` and `st`
the state before and after (R381). -/
def Guard.effect (s : State) (g : Nat) (v raw : Int) (now old st : Nat) : State :=
  let irq := decide (2 ≤ Guard.action s g)
  if g = 8 then
    let s := s.put Power.b Power.PD_STAT_VPOE raw.toNat
    if st = 1 ∧ old ≠ 1 then Power.shed s
    else if st = 0 ∧ old ≠ 0 ∧ Power.shedding s then s.modPwr (fun p => { p with back := some s.now })
    else if st ≠ 0 then s.modPwr (fun p => { p with back := none })
    else s
  else if g = 9 ∨ g = 10 then
    if s.isReset .rf then s else Rfe.biasGuard s (g - 9) now v.toNat (Guard.filter s g) irq
  else if g = 11 then
    let s := s.putI Power.b Power.DIE_TEMP_T raw
    let s := if s.isReset .rf then s else s.each (List.range 4) (fun s i => Rfe.tempCheck s i)
    if s.isReset .radio then s else Rad.tempCheck s
  else if g = 12 then Power.heatSample s v raw
  else if g = 18 then (if st ≠ 0 ∧ old = 0 ∧ Rad.full s then Rad.paFault s irq else s)
  else if g = 22 then s.put Power.b Power.VBAK_MV_MV (10 * raw).toNat
  else s

/-- Are the samples of guard `g` taken: the supervision island runs; PA_DET in transmit, and in full class only (spec/10
R240)? -/
def Guard.sampled (s : State) (g : Nat) : Bool :=
  s.running .superv && !s.pwr.asleep && (g != 18 || (Rad.full s && Rad.st s == 5 && s.rad.paEn)) && (g != 13 || Cdl.on s) &&
    (g < 14 || 18 ≤ g)

/-- GUARD_SAMPLE: a sample of the input of guard `guard` (R378, R379); for guards 13 and up to 21 without a level the sample only
serves what its input says: CAN controllers qualify while no record is pending (spec/18 R420). -/
def execGuardSample (guard : Fin 23) (value : Int) (s : State) : Out :=
  let g := guard.val
  if !Guard.sampled s g then .next s
  else if 19 ≤ g ∧ g ≤ 21 then
    .next (if g ≤ 20 ∧ (Can.st s (g - 19)).txq = [] then s.qualify g else s)
  else
    -- guard 13 looks at the link's own count of failed frames (R164, R381)
    let value := if g = 13 then (Cdl.failures s : Int) else value
    let hist := (value :: (Guard.st s g).hist).take (Guard.filter s g)
    let s := Guard.mod s g (fun x => { x with hist := hist })
    let v := Guard.filtered s g hist
    let s := s.putI (Guard.b g) GuardG.GD_VAL_VALUE v
    let now := Guard.verdict s g v
    let old := Guard.state s g
    let good := if now = 0 then (Guard.st s g).good + 1 else 0
    let s := Guard.mod s g (fun x => { x with good := good })
    let s := if old = 3 then s
      else if now ≠ 0 then (if now = old then s else Guard.enter s g now)
      else if old ≠ 0 ∧ Guard.filter s g ≤ good then s.put (Guard.b g) GuardG.GD_STAT_STATE 0
      else s
    .next (Guard.effect s g v value now old (Guard.state s g))

/-- Ticks of a guard's TO: units of a frame slot of 128 samples for guard 13, of 1 ms for the Announce messages, else of 100 µs
(R381). -/
def Guard.span (s : State) (g : Nat) : Nat :=
  let t := Guard.to_ s g
  if g = 13 then (t * 128 * 8000 + 1022) / 1023 else if 14 ≤ g ∧ g ≤ 17 then t * 640000 else t * 64000

/-- Does the guard measure TO (R379, R381)? -/
def Guard.timed (s : State) (g : Nat) : Bool :=
  s.running .superv && !s.pwr.asleep && Guard.to_ s g != 0 && Guard.state s g != 3 &&
    (if g = 13 then Cdl.on s && s.cdl.synced else if 14 ≤ g ∧ g ≤ 17 then Ptp.on s (g - 14)
     else if g = 19 then s.en 0x0B1 else if g = 20 then s.en 0x0B2 else g == 21 && s.en 0x0B0)

/-- TO units of guard `g` have passed without a qualifying event: TIMEOUT, and what the input's table row names (R379 to R381). -/
def Guard.timeout (s : State) (g : Nat) : State :=
  if !Guard.timed s g then s
  else
    let s := s.runTo ((Guard.st s g).qual + Guard.span s g)
    let s := Guard.enter s g 3
    let irq := decide (2 ≤ Guard.action s g)
    if g = 13 then Cdl.syncLoss s
    else if g ≤ 17 then Ptp.announceTimeout s (g - 14) irq
    else if g ≤ 20 then Can.timeout s (g - 19)
    else Spi.timeout s

/-- GUARD_TIMEOUT: TO units without a qualifying event (R379). -/
def execGuardTimeout (guard : Fin 23) (s : State) : Out := .next (Guard.timeout s guard.val)

/-- SYNC_TIMEOUT: guard 13, TO frame slots without a good frame; SYNC_LOCK is lost (R164, R175). -/
def execSyncTimeout (s : State) : Out := .next (Guard.timeout s 13)

/-! ### GUARD page (R385) -/

/-- BLOCK_STAT and VIOL_SUM. -/
def Guard.sum (s : State) : Nat := ((List.range 23).map (fun g => b2n (Guard.state s g != 0) * 2 ^ g)).sum

/-- Computed registers of the GUARD page: settings held elsewhere. -/
def Guard.read (s : State) (off : Nat) : Option Nat :=
  let g := (off - 0x100) / 0x20
  if off = 0x040 then some (Guard.sum s)
  else if 0x100 ≤ off ∧ g < 8 ∧ off % 0x20 = 0 then some (s.get (Evt.ib g) EvtI.EVT_CFG_FILTER + 0x200)
  else if 0x100 ≤ off ∧ 14 ≤ g ∧ g ≤ 17 ∧ off % 0x20 = 0x0C then some (Guard.to_ s g)
  else none

/-- Special effects of a write to the GUARD page. -/
def Guard.write (s : State) (req off v : Nat) (store : State → State) : State :=
  let a := pg 0x004 + off
  let g := (off - 0x100) / 0x20
  let o := off % 0x20
  if off < 0x100 then store s
  else if (o = 0 ∧ g < 8) ∨ (o = 0x0C ∧ 14 ≤ g ∧ g ≤ 17) then s.logErr 0x004 E.READONLY_WRITE a req
  else if o = 0 then
    let old := s.get (Guard.b g) GuardG.GD_CFG_FILTER
    let s := store s
    if s.get (Guard.b g) GuardG.GD_CFG_FILTER = old then s else Guard.mod s g (fun x => { x with hist := [] })
  else if o = 4 then
    if s.getI (Guard.b g) GuardG.GD_HI_HI < toSigned 16 v then s.logErr 0x004 E.RANGE_REJECTED a req else store s
  else if o = 8 then
    if toSigned 16 v < s.getI (Guard.b g) GuardG.GD_LO_LO then s.logErr 0x004 E.RANGE_REJECTED a req else store s
  else store s

end Sys2Proof.Machine
end

