-- ==== Sys2Proof/Machine/Sha.lean ====
section
/-! DEFINITION. SHA-256 (spec/17 R396, R401, R403 name it; its algorithm is FIPS 180-4's, PRESUMED, log entry 19). -/

namespace Sys2Proof.Machine

/-- Round constants. -/
def Sha.k : List Word :=
  [0x428A2F98, 0x71374491, 0xB5C0FBCF, 0xE9B5DBA5, 0x3956C25B, 0x59F111F1, 0x923F82A4, 0xAB1C5ED5,
   0xD807AA98, 0x12835B01, 0x243185BE, 0x550C7DC3, 0x72BE5D74, 0x80DEB1FE, 0x9BDC06A7, 0xC19BF174,
   0xE49B69C1, 0xEFBE4786, 0x0FC19DC6, 0x240CA1CC, 0x2DE92C6F, 0x4A7484AA, 0x5CB0A9DC, 0x76F988DA,
   0x983E5152, 0xA831C66D, 0xB00327C8, 0xBF597FC7, 0xC6E00BF3, 0xD5A79147, 0x06CA6351, 0x14292967,
   0x27B70A85, 0x2E1B2138, 0x4D2C6DFC, 0x53380D13, 0x650A7354, 0x766A0ABB, 0x81C2C92E, 0x92722C85,
   0xA2BFE8A1, 0xA81A664B, 0xC24B8B70, 0xC76C51A3, 0xD192E819, 0xD6990624, 0xF40E3585, 0x106AA070,
   0x19A4C116, 0x1E376C08, 0x2748774C, 0x34B0BCB5, 0x391C0CB3, 0x4ED8AA4A, 0x5B9CCA4F, 0x682E6FF3,
   0x748F82EE, 0x78A5636F, 0x84C87814, 0x8CC70208, 0x90BEFFFA, 0xA4506CEB, 0xBEF9A3F7, 0xC67178F2]

/-- Initial hash value. -/
def Sha.h0 : List Word :=
  [0x6A09E667, 0xBB67AE85, 0x3C6EF372, 0xA54FF53A, 0x510E527F, 0x9B05688C, 0x1F83D9AB, 0x5BE0CD19]

/-- One more word of the message schedule; the words so far, newest first. -/
def Sha.next (w : List Word) : Word :=
  let g (i : Nat) : Word := w[i]?.getD 0
  let s0 := (g 14).rotateRight 7 ^^^ (g 14).rotateRight 18 ^^^ (g 14) >>> 3
  let s1 := (g 1).rotateRight 17 ^^^ (g 1).rotateRight 19 ^^^ (g 1) >>> 10
  g 15 + s0 + g 6 + s1

/-- `n` further words of the schedule. -/
def Sha.schedule : Nat → List Word → List Word
  | 0, w => w
  | n + 1, w => Sha.schedule n (Sha.next w :: w)

/-- One round on the working variables a to h. -/
def Sha.round (v : List Word) (kw : Word) : List Word :=
  match v with
  | [a, b, c, d, e, f, g, h] =>
    let t1 := h + (e.rotateRight 6 ^^^ e.rotateRight 11 ^^^ e.rotateRight 25) + ((e &&& f) ^^^ (~~~ e &&& g)) + kw
    let t2 := (a.rotateRight 2 ^^^ a.rotateRight 13 ^^^ a.rotateRight 22) + ((a &&& b) ^^^ (a &&& c) ^^^ (b &&& c))
    [t1 + t2, a, b, c, d + t1, e, f, g]
  | _ => v

/-- One 64-byte block, as 16 words. -/
def Sha.block (h : List Word) (m : List Word) : List Word :=
  let w := (Sha.schedule 48 m.reverse).reverse
  let v := (List.zipWith (· + ·) Sha.k w).foldl Sha.round h
  List.zipWith (· + ·) h v

/-- A big-endian number of bytes. -/
def beNat (l : List Nat) : Nat := l.foldl (fun a b => a * 256 + b % 256) 0

/-- The 16 words of the first block of a message. -/
def Sha.words (l : List Nat) : List Word := (List.range 16).map (fun i => BitVec.ofNat 32 (beNat ((l.drop (4 * i)).take 4)))

/-- Hash `n` blocks. -/
def Sha.run : Nat → List Word → List Nat → List Word
  | 0, h, _ => h
  | n + 1, h, l => Sha.run n (Sha.block h (Sha.words l)) (l.drop 64)

/-- The 32 bytes of the SHA-256 of a message of bytes. -/
def sha256 (msg : List Nat) : List Nat :=
  let n := msg.length
  let pad := (64 - (n + 9) % 64) % 64
  let len := (List.range 8).map (fun i => 8 * n / 256 ^ (7 - i) % 256)
  let l := msg ++ 0x80 :: (List.replicate pad 0 ++ len)
  (Sha.run (l.length / 64) Sha.h0 l).flatMap (fun w => (List.range 4).map (fun i => w.toNat / 256 ^ (3 - i) % 256))

end Sys2Proof.Machine
end

