-- ==== Sys2Proof/Machine/Boot.lean ====
section
/-! DEFINITION. The boot ROM's results, the resets that start it, the watchdog, the hash helper and the debug unlock
(spec/17 R386, R390, R393 to R401, R403; spec/20 R459). -/

namespace Sys2Proof.Machine

/-! ### Images (R396) -/

/-- Where an image may be and what its try count is: base address, end of the room for it, tries. -/
structure Boot.Src where
  base  : Nat
  limit : Nat
  tries : Nat
  deriving DecidableEq, Repr

/-- Image A or B in flash. -/
def Boot.flash (s : State) (b : Bool) : Boot.Src :=
  if b then ⟨0x21800000, 0x23000000, s.get 0 Sys.BOOT_TRY_TRY_B⟩ else ⟨0x20000000, 0x21800000, s.get 0 Sys.BOOT_TRY_TRY_A⟩

/-- A section: OFS, DEST, LEN, TYPE. -/
structure Boot.Sec where
  ofs  : Nat
  dest : Nat
  len  : Nat
  typ  : Nat
  deriving DecidableEq, Repr

/-- Section `i` of the image at `a`. -/
def Boot.sec (s : State) (a i : Nat) : Boot.Sec :=
  let b := a + 0x20 + 16 * i
  ⟨s.numAt b 4, s.numAt (b + 4) 4, s.numAt (b + 8) 4, s.numAt (b + 12) 1⟩

/-- The sections of an image. -/
def Boot.secs (s : State) (a : Nat) : List Boot.Sec := (List.range (s.numAt (a + 4) 2)).map (Boot.sec s a)

/-- Does a section lie inside its image and its destination? -/
def Boot.secOk (s : State) (x : Boot.Src) (c : Boot.Sec) : Bool :=
  let inside := decide (x.base + c.ofs + c.len ≤ x.limit)
  let dest := c.len == 0 || (match rangeFor c.dest c.len with
    | .sram => !s.bayLocked c.dest c.len
    | .tlm _ => true
    | _ => false)
  if c.typ = 0 then inside && dest
  else if c.typ = 1 then inside
  else if c.typ = 2 then inside && decide (c.dest + c.len ≤ 0x100000 ∧ c.dest % 4 = 0 ∧ c.len % 4 = 0)
  else c.typ == 3 && dest

/-- May ENTRY hold this address: own TLM, shared SRAM or flash window, even? -/
def Boot.entryOk (a : Nat) : Bool :=
  a % 2 == 0 && (match rangeOf a with
    | .own | .sram | .flash => true
    | _ => false)

/-- The digest of an image. -/
def Boot.digest (s : State) (x : Boot.Src) : List Nat :=
  sha256 (s.bytesAt x.base 0xE0 ++
    ((Boot.secs s x.base).filter (fun c => decide (c.typ < 3))).flatMap (fun c => s.bytesAt (x.base + c.ofs) c.len))

/-- The result of checking an image, by the table of R399; the conditions are tested in the order of R396 (DEDUCED, log entry 20). -/
def Boot.check (s : State) (x : Boot.Src) : Nat :=
  let a := x.base
  let n := s.numAt (a + 4) 2
  if x.limit < a + 320 ∨ s.numAt a 4 ≠ 0x53484231 ∨ n = 0 ∨ 8 < n then 1
  else if s.numAt (a + 12) 4 < s.get 0 Sys.FUSE_CFG_ROLLBACK then 2
  else if 3 ≤ x.tries then 3
  else if !(Boot.secs s a).all (Boot.secOk s x) ∨ !Boot.entryOk (s.numAt (a + 16) 4) then 6
  else if !s.flag 0 Sys.FUSE_CFG_SECURE then 0
  else if leNat (sha256 (s.bytesAt (a + 0xA0) 64)) ≠ s.get 0 Sys.PKHASH_HASH then 4
  else if !Config.signatureOk (beNat (Boot.digest s x)) (beNat (s.bytesAt (a + 0xA0) 64)) (beNat (s.bytesAt (a + 0xE0) 64)) then 5
  else 0

/-- Words of a type 2 section go into the code store. -/
def Boot.codeWords (s : State) (src dest : Nat) : Nat → State
  | 0 => s
  | n + 1 => Boot.codeWords (s.setCodeWord (dest / 4) (s.numAt src 4)) (src + 4) (dest + 4) n

/-- Load one section (R397). -/
def Boot.loadSec (x : Boot.Src) (s : State) (c : Boot.Sec) : State :=
  if c.typ = 0 then s.store (some 0) c.dest (s.bytesAt (x.base + c.ofs) c.len)
  else if c.typ = 3 then s.store (some 0) c.dest (List.replicate c.len 0)
  else if c.typ = 2 then Boot.codeWords s (x.base + c.ofs) c.dest (c.len / 4)
  else s

/-- What the ROM leaves in the registers that no rule names: free values (DESIGN CHOICE, log entry 1). -/
def Boot.scramble (s : State) : State :=
  let f (i w : Nat) : BitVec w := BitVec.ofNat w (Config.freeValue (s.fresh + i))
  let s' := s.modCore 0 (fun k => { k with
    a := Vector.ofFn (fun i : Fin 16 => f i 32)
    mb := Vector.ofFn (fun i : Fin 4 => f (16 + i) 32)
    ml := Vector.ofFn (fun i : Fin 4 => f (20 + i) 32)
    acc0 := f 24 80
    acc1 := f 25 80
    rep := false })
  { s' with fresh := s.fresh + 26 }

/-- The ROM loads and enters an image (R397): `id` 0 A, 1 B, 2 host. -/
def Boot.enter (s : State) (x : Boot.Src) (id : Nat) : State :=
  let entry := s.numAt (x.base + 16) 4
  let s := s.each (Boot.secs s x.base) (Boot.loadSec x)
  let s := if id = 0 then s.count 0 Sys.BOOT_TRY_TRY_A else if id = 1 then s.count 0 Sys.BOOT_TRY_TRY_B else s
  let s := (Cpu.clearIc s 0).put 0 Sys.BOOT_STAT_IMAGE id
  let s := (s.put 0 Sys.BOOT_STAT_CODE 0).putB 0 Sys.BOOT_STAT_UNSIGNED (!s.flag 0 Sys.FUSE_CFG_SECURE)
  let s := (s.put (pg 0x0F0) Test.PRBS_CTL_PRBS_EN (if s.flag (pg 0x0F0) Test.TEST_STAT_PT_MODE then 0
      else s.get (pg 0x0F0) Test.PRBS_CTL_PRBS_EN))
  let s := s.putB (pg 0x0F0) Test.TEST_STAT_PRBS_ON (s.flag (pg 0x0F0) Test.PRBS_CTL_PRBS_EN)
  let s := (Boot.scramble s).modPwr (fun p => { p with running := some id, waitHost := false })
  (Cpu.setState s 0 1).modCore 0 (fun k => { k.setCr 0 0 with pc := BitVec.ofNat 32 entry })

/-- The ROM tells the host that it waits for HOST_IMG: HOST_MASK and HOST_DB bit 15 (spec/18 R413). -/
def Boot.call (s : State) : State :=
  let b := Spi.b
  if s.locked 0x0B0 then (s.logErr 0x0B0 E.LOCKED (b + 0x054) 0).logErr 0x0B0 E.LOCKED (b + 0x050) 0
  else (s.put b Spi.HOST_MASK_MASK (s.get b Spi.HOST_MASK_MASK ||| 2 ^ 15)).put b Spi.HOST_DB_DB (s.get b Spi.HOST_DB_DB ||| 2 ^ 15)

/-- Mode 0b01: the host SPI target is enabled, IMAGE = 2, the ROM waits for HOST_IMG (R399). -/
def Boot.download (s : State) : State :=
  let s := (s.put (pg 0x0B0) H.EN 1).put (pg 0x0B0) H.ENABLED 1
  Boot.call ((s.put 0 Sys.BOOT_STAT_IMAGE 2).modPwr (fun p => { p with waitHost := true }))

/-- HOST_IMG written: while the ROM waits it checks the image there, then enters it or records the reason (R399). -/
def Boot.host (s : State) (addr : Nat) : State :=
  if !s.pwr.waitHost ∨ Cpu.state s 0 ≠ 1 then s
  else
    let x : Boot.Src := ⟨addr, 0x12000000, 0⟩
    let code := if rangeOf addr = .sram then Boot.check s x else 1
    let s := s.put 0 Sys.BOOT_STAT_CODE_H code
    if code = 0 then Boot.enter s x 2 else Boot.call s

/-- Mode 0b00 (R397). -/
def Boot.images (s : State) : State :=
  let seq (b : Bool) : Nat := s.numAt ((Boot.flash s b).base + 8) 4
  let order := if seq false < seq true then [true, false] else [false, true]
  let note (s : State) (b : Bool) (c : Nat) : State :=
    if b then s.put 0 Sys.BOOT_STAT_CODE_B c else s.put 0 Sys.BOOT_STAT_CODE_A c
  let code (b : Bool) : Nat := Boot.check s (Boot.flash s b)
  match order.find? (fun b => code b == 0) with
  | some b =>
    let s := s.each (order.takeWhile (fun x => x != b)) (fun s x => note s x (code x))
    Boot.enter (note s b 0) (Boot.flash s b) (b2n b)
  | none =>
    let s := s.each order (fun s x => note s x (code x))
    Boot.download (Vig.setSrc (s.put 0 Sys.BOOT_STAT_CODE 8) Vig.FAULT_SRC_FW)

/-- Mode 0b11: the production tests leave their result; what they measured is free, within the bits the spec gives
(R459) (DEDUCED, log entry 74). -/
def Boot.test (s : State) : State :=
  let (pass, s) := s.draw (2 ^ 13)
  let (run, s) := s.draw (2 ^ 13)
  let (first, s) := s.draw (2 ^ 32)
  let (ms, s) := s.draw 2001
  let s := s.store (some 0) 0x10000000 (recBytes [(2, 0x5054), (2, 0x0100), (4, pass), (4, run), (4, 0), (16, s.get 0 Sys.UID), (4, first), (4, ms),
    (24, 0)])
  let s := s.modUart 0 (fun u => { u with last := 0x0A })
  let b := pg 0x0F0
  let s := (s.put b H.EN 1).put b H.ENABLED 1
  Boot.download ((s.put b Test.PRBS_CTL_PRBS_EN 1).put b Test.TEST_STAT_PRBS_ON 1)

/-- The boot ROM runs (R395) (DEDUCED, log entry 71). -/
def Boot.rom (s : State) : State :=
  let m := s.get 0 Sys.STRAPS_BOOT
  if m = 0 then Boot.images s
  else if m = 1 then Boot.download s
  else if m = 2 then Cpu.setState (Vig.setSrc (s.put 0 Sys.BOOT_STAT_CODE 7) Vig.FAULT_SRC_FW) 0 2
  else Boot.test s

/-! ### Resets (R393) -/

/-- Islands that boundary-scan test mode holds in reset (spec/20 R457). -/
def Island.tested : List Island := Island.all.filter (fun i => i != Island.power && i != Island.time && i != Island.superv)

/-- The reset kinds but the warm one, and what starts after them; below class 4 only power and time run (R386). -/
def Boot.full (s : State) (kind : Nat) : State :=
  let s := Reset.full s kind
  if s.flag Power.b Power.PD_STAT_DENIED then
    (Reset.hold s (Island.all.filter (fun i => i != Island.power && i != Island.time))).modPwr (fun p => { p with pwrGood := false })
  else if s.jtag.test then Reset.hold s Island.tested
  else Boot.rom s

/-- A warm reset and the boot ROM after it. -/
def Boot.warm (s : State) : State := Boot.rom (Reset.warm s)

/-- Straps sampled and class granted at a power-on (R386, R446). -/
def Boot.straps (s : State) (boot : Nat) (full : Bool) (granted : Nat) : State :=
  let s := s.put 0 ⟨0x044, 0, 3⟩ (boot + 4 * b2n full)
  let ok := decide (4 ≤ granted)
  let s := (s.putB Power.b Power.PD_STAT_REQ full).putB Power.b Power.PD_STAT_FULL (full && decide (6 ≤ granted))
  (s.putB Power.b Power.PD_STAT_FALLBACK (full && ok && decide (granted < 6))).putB Power.b Power.PD_STAT_DENIED (!ok)

/-- CLASS_FALLBACK is raised after release. -/
def Boot.fallback (s : State) : State := s.raiseIf (s.flag Power.b Power.PD_STAT_FALLBACK) 0x0A0 0

/-- Is the time island running on VBAK, the others off? -/
def Power.onVbak (s : State) : Bool := s.pwr.asleep && !s.isReset .time

/-- POWER_ON: PoE is applied with no time island kept. -/
def execPowerOn (boot : BitVec 2) (full : Bool) (granted : BitVec 4) (s : State) : Out :=
  if Power.onVbak s then .next s
  else .next (Boot.fallback (Boot.full { Boot.straps s boot.toNat full granted.toNat with jtag := State.reset.jtag } 0))

/-- POE_RETURN: during load shed PoE has been back for 100 ms; else PoE returns to a module that was off or on VBAK (R390, spec/08
R182).  Where the class granted releases no other island, the stop of R182 lasts (DEDUCED, log entry 80). -/
def execPoeReturn (boot : BitVec 2) (full : Bool) (granted : BitVec 4) (s : State) : Out :=
  if s.pwr.asleep then
    let kept := Power.onVbak s
    let s := { Boot.straps (Pad.changing (Pad.settle s)) boot.toNat full granted.toNat with jtag := State.reset.jtag }
    let s := Boot.fallback (Boot.full s (if kept then 1 else 0))
    .next (if kept ∧ s.flag Power.b Power.PD_STAT_DENIED then s.modPwr (fun p => { p with asleep := true })
      else if kept then Cal.disturbAll ((s.put Time.b TimeP.TIME_STAT_VBAK_SEEN 1).raise Time.p 5) false else s)
  else
    match s.pwr.back with
    | some t => if Power.shedding s then .next (Boot.warm (s.runTo (t + 64000000))) else .next s
    | none => .next s

/-- RESET_N low for at least 1 µs, then high; ignored on VBAK (spec/20 R444). -/
def execResetN (s : State) : Out := if s.pwr.asleep then .next s else .next (Boot.full s 2)

/-- WATCHDOG_EXPIRY: MS pass without a kick. -/
def execWatchdogExpiry (s : State) : Out :=
  let ms := s.get 0 Sys.WDOG_MS
  if ms = 0 ∨ !s.running .fabric then .next s
  else
    let s := s.runTo (s.pwr.kickAt + ms * 640000)
    .next (if s.flag 0 Sys.WDOG_WARM then Boot.warm s else Boot.full s 3)

/-! ### Hash helper and debug unlock (R401, R403) -/

/-- Work of the hash helper: bit 0 SHA-256, bit 1 VERIFY, bit 2 SUBMIT. -/
def Hash.work (s : State) : Nat := s.pwr.hash.getD 0

/-- Set the work (DEDUCED, log entry 72). -/
def Hash.setWork (s : State) (w : Nat) : State :=
  (s.modPwr (fun p => { p with hash := if w = 0 then none else some w })).putB 0 Sys.HASH_STAT_BUSY (decide (w % 4 ≠ 0))

/-- The SHA-256 mode; an unreadable source leaves HASH_OUT free. -/
def Hash.sha (s : State) : State :=
  let a := s.get 0 Sys.HASH_SRC_ADDR
  let n := s.get 0 Sys.HASH_LEN_BYTES
  let ok := n == 0 || (match rangeFor a n with
    | .sram | .tlm _ | .flash => true
    | _ => false)
  let (s, r) := if n = 0 ∨ !ok then (s, if ok then some [] else none) else s.devRead a n
  match r with
  | some l => s.put 0 Sys.HASH_OUT_DIGEST (leNat (sha256 l))
  | none => let (v, s) := s.draw (2 ^ 256); s.put 0 Sys.HASH_OUT_DIGEST v

/-- The VERIFY mode: SIG_OK. -/
def Hash.verify (s : State) : State :=
  let big (f : Fld) (n : Nat) : Nat := beNat (leBytes n (s.get 0 f))
  s.putB 0 Sys.HASH_STAT_SIG_OK (Config.signatureOk (big Sys.HASH_OUT_DIGEST 32) (big Sys.VER_KEY_KEY 64) (big Sys.VER_SIG_SIG 64))

/-- HASH_DONE: the commanded modes complete, SHA-256 before VERIFY. -/
def execHashDone (s : State) : Out :=
  let w := Hash.work s
  if w % 4 = 0 ∨ !s.running .fabric ∨ (w.testBit 0 ∧ s.flashWaits (s.get 0 Sys.HASH_SRC_ADDR)) then .next s
  else
    let s := if w.testBit 0 then Hash.sha s else s
    let s := if w.testBit 1 then Hash.verify s else s
    .next ((Hash.setWork s (w / 4 * 4)).raise 0 0)

/-- The token: key, signature and scope. -/
def Dbg.token (s : State) : List Nat := leBytes 132 (s.get 0 Sys.DBG_TOKEN_TOKEN)

/-- Is the token good (R401)? -/
def Dbg.good (s : State) : Bool :=
  let t := Dbg.token s
  let key := t.take 64
  let want := if s.get 0 Sys.DBGHASH_HASH = 0 then s.get 0 Sys.PKHASH_HASH else s.get 0 Sys.DBGHASH_HASH
  let msg := leBytes 16 (s.get 0 Sys.DBG_CHAL_CHAL) ++ leBytes 16 (s.get 0 Sys.UID) ++ t.drop 128
  leNat (sha256 key) == want && Config.signatureOk (beNat (sha256 msg)) (beNat key) (beNat ((t.drop 64).take 64))

/-- DBG_RESULT: a SUBMIT is decided, DBG_CHAL renewed. -/
def execDbgResult (s : State) : Out :=
  let w := Hash.work s
  if !w.testBit 2 ∨ !s.running .fabric then .next s
  else
    let ok := Dbg.good s
    let s' := Hash.setWork s (w % 4)
    let s' := if ok then s'.put 0 Sys.DBG_STAT_SCOPE (leNat ((Dbg.token s).drop 128)) else s'
    .next (Reset.challenge ((s'.putB 0 Sys.DBG_STAT_FAILED (!ok)).raise 0 1))

/-! ### SYS page -/

/-- BOOT_OK clears the try count of the running image (R397). -/
def Boot.ok (s : State) : State :=
  match s.pwr.running with
  | some 0 => s.put 0 Sys.BOOT_TRY_TRY_A 0
  | some 1 => s.put 0 Sys.BOOT_TRY_TRY_B 0
  | _ => s

/-- Special effects of a write to the SYS page (R403) (DEDUCED, log entry 73). -/
def Sys.write (s : State) (req off v : Nat) (store : State → State) : State :=
  if off = 0x04C then
    if v = 0x52530046 then Boot.full s 4
    else if v = 0x52530057 then Boot.warm s
    else s.logErr 0 E.KEY_BAD off req
  else if off = 0x050 then (store s).modPwr (fun p => { p with kickAt := s.now })
  else if off = 0x054 then (if v.testBit 0 then s.modPwr (fun p => { p with kickAt := s.now }) else s)
  else if off = 0x060 then (if v.testBit 0 then Boot.ok s else s)
  else if off = 0x064 then Boot.host (store s) v
  else if off = 0x0C8 then Hash.setWork s (Hash.work s ||| v % 4)
  else if off = 0x184 then
    let s := if v.testBit 0 then Hash.setWork s (Hash.work s ||| 4) else s
    if v.testBit 1 then s.put 0 Sys.DBG_STAT_SCOPE 0 else s
  else store s

end Sys2Proof.Machine
end

