-- ==== Sys2Proof/Machine/ClkLoss.lean ====
section
/-! DEFINITION. Counter windows and fast trips of the PLLs (spec/15 R354 to R358) with the faults they are (spec/16 R374). -/

namespace Sys2Proof.Machine

/-- DETAIL of a clock fault: CLK page and block (spec/16 R373). -/
def Pll.detail (k : Nat) : Nat := Pll.page k + 4096 * Pll.blk k

/-- SOURCE of a clock fault: the first island of R13 that the PLL feeds (DESIGN CHOICE, log entry 12). -/
def Pll.source (k : Nat) : Nat := ([4, 5, 1, 1, 0, 0, 6, 7, 6][k]?).getD 11

/-- Fault class of a PLL's loss of lock (spec/16 R374). -/
def Pll.faultClass (k : Nat) : Nat := ([2, 4, 1, 1, 6, 6, 7, 3, 5][k]?).getD 1

/-- Loss of lock with its fault: the active sample synthesizer or any other running PLL; the radio ends its frame at the
loss of SYN_RAD (spec/15 R358, spec/16 R374, spec/10 R237). -/
def State.lost (s : State) (k : Nat) : State :=
  let act := Pll.isActive s k
  let seen : Bool := match k with
    | 2 | 3 => act
    | 6 => decide (Rad.st s = 3 ∨ Rad.st s = 4 ∨ Rad.st s = 5)
    | 8 => decide (3 ≤ s.pllState 7 ∧ s.pllState 7 ≤ 5)
    | _ => true
  let s := s.loseLock k
  let s := if k = 6 then Rad.clkLoss s else if k = 8 then Rad.stall s else s
  -- a coast entry may have recorded the loss of SYN_T already (log entry 111)
  if !seen ∨ (k = 0 ∧ (s.vig.running ++ s.vig.waiting).any (fun r => r.cls == 2)) then s else s.fault (Pll.faultClass k) (Pll.source k) (Pll.detail k) 0

/-- PLL_WINDOW: one counter window of a PLL (R354 to R358, and the first search after power-up).  `noBand` says that a search has found no band. -/
def execPllWindow (pll : Fin 9) (count : Nat) (noBand : Bool) (band : BitVec 6) (phErr skew : Int) (s : State) : Out :=
  let k := pll.val
  let b := Pll.b k
  let f := Pll.target s k
  let s := s.put b Pll.PLL_COUNT_COUNT count
  let s := s.putI b Pll.PLL_PHERR_PHERR phErr
  -- the standby synthesizer's skew (R359)
  let s := if k = 2 ∨ k = 3 then
      let c := pg 0x009
      let s := s.putI c Clk1.PAIR_STAT_SKEW skew
      s.raiseIf (s.flag c Clk1.PAIR_STAT_STANDBY_OK && decide (s.get c Clk1.PAIR_CFG_PAIR_TOL < skew.natAbs)) 0x009 9
    else s
  -- an OSC calibration times the release of its LO itself (spec/03 R57)
  if (k = 4 ∨ k = 5) ∧ s.oscRuns (k - 4) then .next s else
  let good := Pll.within f count 1 1000
  let st := s.pllState k
  let g := if good then (s.pll k).good + 1 else 0
  -- after power-up a PLL that is OFF searches, but for SYN_RAD, which the radio starts (spec/17, power-up sequence; DEDUCED, log entry 98)
  let starts := st = 0 ∧ k ≠ 6 ∧ !s.pwr.asleep
  let keep := (s.pll k).keep
  if st = 1 ∨ st = 2 ∨ starts then
    if noBand ∧ !keep then
      if 3 ≤ (s.pll k).fails + 1 then
        .next (((s.put b Pll.PLL_STAT_STATE 6).modPll k (fun x => { x with good := 0, fails := 3 })).fault 0x0E
          (Pll.source k) (Pll.detail k) 0)
      else .next ((s.put b Pll.PLL_STAT_STATE 1).modPll k (fun x => { x with good := 0, fails := x.fails + 1 }))
    else if 4 ≤ g then .next ((s.release k (if keep then s.get b Pll.PLL_STAT_BAND else band.toNat)).modPll k (fun x => { x with good := 0 }))
    else
      -- a band that has not settled in its time is searched for (R356)
      let w := (s.pll k).glide + 1
      let next := if good then 2 else if st = 2 ∧ w ≤ Pll.storedWindows k then 2 else 1
      .next ((s.put b Pll.PLL_STAT_STATE next).modPll k (fun x => { x with good := g, glide := if next = 2 then w else 0 }))
  else if st = 4 then
    if 4 ≤ g then
      let s := (s.put b Pll.PLL_STAT_STATE 3).modPll k (fun x => { x with good := 0, glide := 0 })
      .next (s.raiseIf (k == 7) 0x00B 8)
    else if 40 ≤ (s.pll k).glide + 1 then .next (s.lost k)
    else .next (s.modPll k (fun x => { x with good := g, glide := x.glide + 1 }))
  else if st = 3 then
    if Pll.within f count 5 1000 then .next s else .next (s.lost k)
  else .next s

/-- FAST_TRIP: a running PLL loses lock within 100 ns (R357). -/
def execFastTrip (pll : Fin 9) (s : State) : Out :=
  let k := pll.val
  let st := s.pllState k
  if st = 3 ∨ st = 4 ∨ st = 5 then .next ((s.put (Pll.b k) Pll.PLL_STAT_FAST_TRIP 1).lost k)
  else .next s

end Sys2Proof.Machine
end

