-- ==== Sys2Proof/Machine/Irq.lean ====
section
/-! DEFINITION. The interrupt router (spec/02 R35, R47, R48, R464). -/

namespace Sys2Proof.Machine

/-- IRQ_STAT of a page (R35). -/
def State.irqStat (s : State) (p : Nat) : Nat := s.get (pg p) H.IRQ_RAW &&& s.get (pg p) H.IRQ_EN

/-- Bits `[lo, hi)` of a 32-bit mask. -/
def maskBits (lo hi : Nat) : Nat := 2 ^ hi - 2 ^ lo

/-- Page and IRQ_STAT bits of a router source (R47); channel, DMA channel and software sources have none here. -/
def Irq.sourcePage (n : Nat) : Option (Nat × Nat) :=
  let all := maskBits 0 32
  if n = 0 then some (0x000, all)
  else if n ≤ 3 then some (n + 1, all)
  else if n ≤ 7 then some (0x004 + n, all)
  else if n ≤ 11 then some (0x008 + n, all)
  else if n = 12 then some (0x018, all)
  else if n = 13 then some (0x048, all)
  else if n ≤ 15 then some (0x012 + n, all)
  else if n = 16 then some (0x028, all)
  else if n = 17 then some (0x030, maskBits 16 32)
  else if n ≤ 33 then some (0x030, 2 ^ (n - 18))
  else if n ≤ 49 then none
  else if n = 50 then some (0x040, all)
  else if n = 51 then some (0x050, maskBits 0 8 + maskBits 12 32)
  else if n = 52 then some (0x051, all)
  else if n = 53 then some (0x054, maskBits 8 32)
  else if n ≤ 61 then some (0x054, 2 ^ (n - 54))
  else if n ≤ 65 then some (0x050, 2 ^ (n - 62 + 8))
  else if n ≤ 67 then some (0x060 + (n - 66), all)
  else if n = 68 then some (0x062, all)
  else if n = 69 then some (0x063, maskBits 0 8 + maskBits 9 32)
  else if n = 70 then some (0x063, 2 ^ 8)
  else if n = 71 then some (0x070, maskBits 4 32)
  else if n = 72 then some (0x070, maskBits 0 4)
  else if n = 73 then some (0x080, all)
  else if n ≤ 137 then none
  else if n ≤ 141 then some (0x090 + (n - 138), all)
  else if n = 142 then some (0x0A0, all)
  else if n ≤ 149 then some (0x0B0 + (n - 143), all)
  else if n = 150 then some (0x0B7, 1 + maskBits 16 32)
  else if n ≤ 165 then some (0x0B7, 2 ^ (n - 150))
  else if n ≤ 171 then some (0x0C0 + (n - 166), all)
  else if n = 172 then some (0x0F0, all)
  else if n = 173 then some (0x001, all)
  else none

/-- Level of a router source (ROUTE_n.ASSERTED, R47) (DEDUCED, log entry 26). -/
def Irq.asserted (s : State) (n : Nat) : Bool :=
  match Irq.sourcePage n with
  | some (p, m) => s.irqStat p &&& m != 0
  | none =>
    if 34 ≤ n ∧ n ≤ 49 then (Trkg.sums s (0x140 + 4 * (n - 34))).getD 0 != 0
    else if 74 ≤ n ∧ n ≤ 137 then Dma.irq s (n - 74)
    else if 248 ≤ n ∧ n ≤ 255 then s.swi.getLsbD (n - 248)
    else false

/-- Register of ROUTE_n. -/
def Irq.route (n : Nat) : Nat := pg 0x001 + 4 * n

/-- Is source `n` presented to core `c` (R48)? -/
def Irq.presented (s : State) (c n : Nat) : Bool :=
  let r := Irq.route n
  s.en 0x001 && s.flag r Irq.ROUTE_EN && s.get r Irq.ROUTE_CORE == c &&
    decide (s.get (pg 0x001 + 8 * c) Irq.THRESH_LEVEL ≤ s.get r Irq.ROUTE_PRIO) && Irq.asserted s n

/-- The highest-ranked source presented to a core: highest PRIO, then lowest number (R48). -/
def Irq.claim (s : State) (c : Nat) : Option Nat :=
  (List.range 256).foldl (fun best n =>
    if Irq.presented s c n then
      match best with
      | none => some n
      | some m => if s.get (Irq.route m) Irq.ROUTE_PRIO < s.get (Irq.route n) Irq.ROUTE_PRIO then some n else best
    else best) none

/-- Priority of a source. -/
def Irq.prio (s : State) (n : Nat) : Nat := s.get (Irq.route n) Irq.ROUTE_PRIO

/-- Special effects of a write to the router page (R47). -/
def Irq.write (s : State) (req off v : Nat) (store : State → State) : State :=
  if off = 0x080 then { s with swi := s.swi ||| BitVec.ofNat 8 v }
  else if off = 0x084 then { s with swi := s.swi &&& ~~~ (BitVec.ofNat 8 v) }
  else if 0x400 ≤ off then
    if 6 ≤ v % 8 then s.logErr 0x001 E.RANGE_REJECTED (pg 0x001 + off) req else store s
  else store s

/-- Computed registers of the router page. -/
def Irq.read (s : State) (off : Nat) : Option Nat :=
  if 0x040 ≤ off ∧ off < 0x070 ∧ off % 8 = 0 then
    some (match Irq.claim s ((off - 0x040) / 8) with
      | none => 0x100
      | some n => n)
  else if 0x400 ≤ off ∧ off < 0x800 then
    some (bitsOf (s.regN (pg 0x001 + off)) 0 16 + 2 ^ 16 * b2n (Irq.asserted s ((off - 0x400) / 4)))
  else none

end Sys2Proof.Machine
end

