-- ==== Sys2Proof/Machine/PageCtl.lean ====
section
/-! DEFINITION. PAGE_CTL: what EN, FREEZE and SRST do to each block (spec/02 R43 to R45 and the chapters' own rules). -/

namespace Sys2Proof.Machine

/-- PAGE_FEAT of a page. -/
def Page.feat (p : Nat) : Nat := match pageInfo p with
  | some (b, i) => pageFeat b i
  | none => 0

/-- Does the page honour FREEZE, SRST? -/
def Page.freezable (p : Nat) : Bool := (Page.feat p).testBit 2
def Page.resettable (p : Nat) : Bool := (Page.feat p).testBit 3

/-- PRBS_EN as the patterns run (spec/20 R460). -/
def Test.run (s : State) (on : Bool) : State :=
  let b := pg 0x0F0
  let s := (s.putB b Test.PRBS_CTL_PRBS_EN on).putB b Test.TEST_STAT_PRBS_ON on
  if on then s else ((s.put b Test.TEST_STAT_LOCK_SYNC 0).put b Test.TEST_STAT_LOCK_DRX0 0).put b Test.TEST_STAT_LOCK_DRX1 0

/-- The timeout of a guard starts again. -/
def Guard.restart (s : State) (g : Nat) : State := Guard.mod s g (fun x => { x with qual := s.now })

/-- A block acts on a change of EN. -/
def Page.onEn (s : State) (req p : Nat) (on : Bool) : State :=
  match pageInfo p with
  | some (.rfe, i) => if on then Rfe.enable s i else Rfe.disable s i
  | some (.arr, _) => if on then Arr.restart s else s
  | some (.acq, e) => if on then Acq.enable s e else s
  | some (.trkg, _) => Trkg.enable s on
  | some (.meas, _) => if on then Meas.enable s else s
  | some (.cdl, _) => if on then Cdl.enable s else Cdl.disable s
  | some (.time, _) => if on then s else Pad.cut s
  | some (.cal, _) => if on then Cal.disturbAll s true else s
  | some (.eth, i) => if on then s else Eth.down s i
  | some (.radio, _) => if on then Rad.enable s else Rad.disable s
  | some (.spi, _) => if on then Guard.restart s 21 else s
  | some (.can, n) => if on then Guard.restart (Can.enable s req n) (19 + n) else Can.disable s n
  | some (.uart, n) => Uart.kick s n
  | some (.core, c) => if on then Cpu.enable s c else Cpu.disable s c
  | some (.test, _) => if on then s else Test.run s false
  | _ => s

/-- EN is written: the block acts on a change, and ENABLED shows it.  Pulse spans and beams of before the write keep the old
EN (spec/08 R202, spec/07 R170). -/
def Page.setEn (s : State) (req p : Nat) (on : Bool) : State :=
  let old := s.en p
  let s := if p = 0x050 then Pad.changing (Pad.settle s) else if p = 0x018 ∨ p = 0x048 then Arr.changing s else s
  let s := (s.putB (pg p) H.EN on).putB (pg p) H.ENABLED on
  if old = on then s else Page.onEn s req p on

/-- A block stops under FREEZE (R44); `feed` is what the tracking channels receive up to the freeze edge. -/
def Page.onFreeze (s : State) (p : Nat) (feed : List (Nat × List Smp)) : State :=
  match pageInfo p with
  | some (.rfe, i) => Rfe.freeze s i
  | some (.acq, e) => Acq.freeze s e
  | some (.trkg, _) => Trkg.freeze s feed
  | some (.meas, _) => Meas.freeze s
  | some (.radio, _) => Rad.freeze s
  | some (.core, c) => Cpu.freeze s c
  | _ => s

/-- A block resumes. -/
def Page.onResume (s : State) (p : Nat) : State :=
  match pageInfo p with
  | some (.rfe, i) => Rfe.resume s i
  | some (.arr, _) => Arr.restart s
  | some (.trkg, _) => Trkg.unfreeze s
  | some (.core, c) => Cpu.unfreeze s c
  | some (.dma, _) => Dma.endAborts s
  | _ => s

/-- FREEZE is written: clearing it resumes a frozen block at once; FREEZE_DONE reports the stop. -/
def Page.setFreeze (s : State) (p : Nat) (on : Bool) : State :=
  let s := s.putB (pg p) H.FREEZE on
  if on ∨ !s.frozen p then s else Page.onResume (s.put (pg p) H.FROZEN 0) p

/-- What a block holds beside its registers returns to its reset state (R45). -/
def Page.inner (s : State) (p : Nat) : State :=
  match pageInfo p with
  | some (.rfe, i) => (Rfe.disable s i).setCh i Chain.init
  | some (.arr, _) => let s := Arr.changing s; { s with arr := { s.arr with covFrom := 0, covSeq := 0 } }
  | some (.acq, e) => Acq.reset s e
  | some (.code, _) => { s with crcRun := none, crcAcc := 0 }
  | some (.trkg, _) => { s with chan := [], dumpFifo := [], grpAt := State.reset.grpAt, grpArmed := none }
  | some (.meas, _) => Meas.enable { s with latch := none }
  | some (.cdl, _) =>
    let s := Cdl.isolate (Arr.changing s) true
    s.modCdl (fun c => { CdlSt.init with gscOfs := c.gscOfs, epochSeq := c.epochSeq, clkOut := c.clkOut })
  | some (.eth, i) => Eth.down s i
  | some (.sw, _) => s.modNet (fun n => { n with learned := [], lost := false, tx := none, queues := NetSt.init.queues })
  | some (.ptp, _) => s.modNet (fun n => { n with tcTab := [], pdReq := NetSt.init.pdReq, slots := NetSt.init.slots, respSec := 0, respCnt := 0 })
  | some (.radio, _) => (Rad.disable s).modRad (fun r => { RadSt.init with air := r.air })
  | some (.dma, _) => Dma.reset s
  | some (.spi, _) | some (.can, _) | some (.uart, _) | some (.i2c, _) | some (.gpio, _) => Field.reset s p
  | some (.core, c) =>
    let s := Cpu.unhold (Cpu.reset s c) c
    if c = 0 then s.modPwr (fun x => { x with waitHost := false }) else s
  | _ => s

/-- Bits that SRST leaves because they show what it does not change: the radio's state, which its reset sets, and the class in force;
the boot mode. -/
def Page.live (p : Nat) : List (Nat × Nat) := if p = 0x070 then [(0x70064, 0x87)] else if p = 0x0F0 then [(0xF0040, 1)] else []

/-- SRST (R45): the page and its array pages return to reset, EN keeps its value, FREEZE is 0, BUSY until the reset is complete;
an enabled chain, controller or radio then starts again (DEDUCED, log entry 77). -/
def Page.srst (s : State) (req p : Nat) : State :=
  let on := s.en p
  let ps := p :: arrayPages p
  let s := Reset.pages (Page.inner s p) ps [] (Page.live p)
  let s := ((s.putB (pg p) H.EN on).putB (pg p) H.ENABLED on).put (pg p) H.BUSY 1
  match pageInfo p with
  | some (.rfe, i) => if on then Rfe.enable s i else s
  | some (.arr, _) => if on then Arr.restart s else s
  | some (.can, n) => if on then Can.enable s req n else s
  | some (.radio, _) => if on then Rad.enable s else s
  | some (.test, _) => Test.run s false
  | _ => s

/-- A write to PAGE_CTL (R43, R45). -/
def Page.ctl (s : State) (req p v : Nat) : State :=
  let fz := Page.freezable p
  let rs := Page.resettable p
  let denied := (v.testBit 1 && !rs) || (v.testBit 2 && !fz)
  let s := if denied then s.logErr p E.CTL_DENIED (pg p + 0x00C) req else s
  let s := Page.setEn s req p (v.testBit 0)
  let s := if fz then Page.setFreeze s p (v.testBit 2) else s
  if v.testBit 1 && rs then Page.srst s req p else s

end Sys2Proof.Machine
end

