-- ==== Sys2Proof/Machine/Vig.lean ====
section
/-! DEFINITION. The Vigils, their recipes, FATAL, the dump procedure, the last-resort reset and the VIG pages (spec/16 R368 to
R384). -/

namespace Sys2Proof.Machine

/-- The supervision island runs. -/
def Vig.runs (s : State) : Bool := s.running .superv && !s.pwr.asleep

/-- Show OTHER_OK on both pages. -/
def Vig.others (s : State) : State :=
  s.each [0, 1] (fun s v =>
    let o := 1 - v
    s.putB (Vig.b v) Vig.VIG_STAT_OTHER_OK ((Vig.of s o).checked && decide (Vig.state s o ≤ 1)))

/-- Vigil `v` enters a state. -/
def Vig.setState (s : State) (v st : Nat) : State := Vig.others (s.put (Vig.b v) Vig.VIG_STAT_STATE st)

/-- Is Vigil `v` STANDBY? -/
def Vig.standby (s : State) (v : Nat) : Bool := (Vig.of s v).checked && Vig.state s v == 1

/-- A recipe's write to offset `off` of the locked page `p` is ignored (R36, R372). -/
def Vig.ignored (s : State) (p off : Nat) : State := s.logErr p E.LOCKED (pg p + off) 9

/-- A fault that waited for an active Vigil is taken up from its first step (R371). -/
def Vig.adopt (s : State) (v : Nat) (r : Recipe) : State :=
  if r.cls = 0x08 ∨ r.cls = 0x0A ∨ r.cls = 0x13 then Vig.finish (Vig.take s v r) r 1
  else if r.cls = 0x0B ∨ r.cls = 0x0F ∨ r.cls = 0x11 then
    (Vig.record s v r (if Vig.enabled s v r.cls then 0 else 5) 0).raise (2 + v) 0
  else Vig.take s v r

/-- Vigil `v` becomes ACTIVE and takes up what waited. -/
def Vig.activate (s : State) (v : Nat) : State :=
  let s := (Vig.setState s v 0).modVigs (fun x => { x with active := some v })
  let w := s.vig.waiting
  (s.modVigs (fun x => { x with waiting := [] })).each w (fun s r => Vig.adopt s v r)

/-- Restart Vigil `v`: RESTARTING until its self-check (R369). -/
def Vig.restart (s : State) (v : Nat) : State :=
  (s.modVig v (fun x => { x with checked := false, bad := false, run := 0, heard := s.now })) |> fun s => Vig.setState s v 3

/-- Takeover by Vigil `v` (R369). -/
def Vig.takeover (s : State) (v : Nat) : State :=
  let s := s.modVigs (fun x => { x with running := x.running.map (fun r => { r with took := true }) })
  let s := Vig.activate s v
  let s := (s.count (Vig.b v) Vig.VIG_STAT_TAKEOVERS).raise (2 + v) 3
  Vig.restart (s.fault 9 10 0 0) (1 - v)

/-- The active role moves to the STANDBY Vigil `v`. -/
def Vig.swap (s : State) (v : Nat) : State :=
  Vig.activate ((Vig.setState s (1 - v) 1).modVigs (fun x => { x with move := false })) v

/-- HEARTBEAT: Vigil `vigil` sends one, with the recipe it runs and its step (R369); at the first that reports none, a written PREFER
moves the active role (R370). -/
def execHeartbeat (vigil : Fin 2) (s : State) : Out :=
  let v := vigil.val
  let x := Vig.of s v
  if !Vig.runs s ∨ !x.checked ∨ x.bad ∨ 1 < Vig.state s v then .next s
  else
    let act := decide (s.vig.active = some v)
    let now := if act then (match s.vig.running with | r :: _ => (r.cls, r.step) | [] => (0, 0)) else (0, 0)
    let s := s.modVig v (fun x => { x with seq := x.seq + 1 })
    let s := s.modVigs (fun x => { x with beat := x.beat.set v now })
    let s := s.modVig (1 - v) (fun x => { x with heard := s.now, run := 0 })
    .next (if s.vig.move && act && now.1 == 0 && Vig.standby s (1 - v) then Vig.swap s (1 - v) else s)

/-- HEARTBEAT_MISSED: Vigil `vigil` counts 12 µs without a heartbeat from the other; the third in a row brings a takeover, or
the restart of the standby (R369). -/
def execHeartbeatMissed (vigil : Fin 2) (s : State) : Out :=
  let v := vigil.val
  let o := 1 - v
  let x := Vig.of s v
  if !Vig.runs s ∨ !x.checked ∨ 1 < Vig.state s v then .next s
  else
    let s := s.runTo (x.heard + 7680 * (x.run + 1))
    let s := (s.count (Vig.b v) Vig.VIG_STAT_MISSED).modVig v (fun x => { x with run := x.run + 1 })
    if x.run + 1 ≠ 3 ∨ 1 < Vig.state s o then .next s
    else if s.vig.active = some o then .next (Vig.takeover s v)
    else if s.vig.active = some v then .next ((Vig.restart (s.fault 9 10 0 0) o).raise (2 + v) 4)
    else .next s

/-- VIG_OSC_CAL: every 1 ms a Vigil measures its ring oscillator, while a reference is valid (R368). -/
def execVigOscCal (vigil : Fin 2) (khz : BitVec 16) (s : State) : Out :=
  let b := Vig.b vigil.val
  if !Vig.runs s ∨ s.flag (pg 0x008) Clk0.REF_STAT_NONE then .next s
  else .next ((s.put b Vig.VIG_OSC_KHZ khz.toNat).put b Vig.VIG_STAT_CAL_VALID 1)

/-- Does the self-check find what the model sees of it good: the measured ring frequency, and the two configuration copies (R370)? -/
def Vig.sound (s : State) (v : Nat) : Bool :=
  let b := Vig.b v
  let khz := s.get b Vig.VIG_OSC_KHZ
  (!s.flag b Vig.VIG_STAT_CAL_VALID || decide (40000 ≤ khz ∧ khz ≤ 60000)) &&
    ([0x040, 0x054, 0x058] ++ (List.range 6).map (0x060 + 4 * ·)).all (fun o => s.reg (Vig.b 0 + o) == s.reg (Vig.b 1 + o))

/-- SELF_CHECK of Vigil `vigil` (R369, R370): `good` is what its recipe ROM, state RAM and status lines show. -/
def execSelfCheck (vigil : Fin 2) (good : Bool) (s : State) : Out :=
  let v := vigil.val
  let ok := good && Vig.sound s v
  let o := 1 - v
  let x := Vig.of s v
  if !Vig.runs s ∨ (x.checked ∧ Vig.state s v = 2) then .next s
  else if !x.checked then
    let s := s.modVig v (fun x => { x with checked := true, bad := !ok, heard := s.now, run := 0 })
    let failed (w : Nat) : Bool := (Vig.of s w).checked && Vig.state s w == 2
    if ok then
      let first := s.vig.active == none && (s.get (Vig.b 0) Vig.VIG_CFG_PREFER == v || failed o)
      .next (if first then Vig.activate s v else Vig.setState s v 1)
    else
      let s := Vig.setState s v 2
      match s.vig.active with
      | some a => .next (s.raise (2 + a) 4)
      | none => .next (if Vig.standby s o then Vig.activate s o else s)
  else if ok then .next s
  else
    let s := s.modVig v (fun x => { x with bad := true })
    .next (if s.vig.active = some v ∧ Vig.standby s o then Vig.takeover s o else s)

/-! ### Dump procedure (R382) -/

/-- DUMP_CMD (spec/14 R347); the block is idle while EN is 0, but for the Vigils' own procedure (DEDUCED, log entry 108). -/
def Dump.start (s : State) (req v : Nat) : State :=
  let v := v % 4
  if v = 0 ∨ (!s.en 0x093 ∧ req ≠ 9) then s
  else if s.flag (pg 0x093) Dump.DUMP_STAT_BUSY then s.logErr 0x093 0x41 (pg 0x093 + 0x044) req
  else (s.put (pg 0x093) Dump.DUMP_STAT_BUSY 1).modFl (fun f => { f with dumpRun := some (v, s.now) })

/-- The bay. -/
def Dump.bay : Nat := 0x11FC0000

/-- An accumulator in the ASAVE layout (spec/12 R308). -/
def accBytes (a : BitVec 80) : List Nat := leBytes 8 a.toNat ++ leBytes 8 (ofSigned 64 (toSigned 16 (a.toNat / 2 ^ 64)))

/-- Does the dump read the registers of core `c`: HALTED or DOUBLE, and not frozen? -/
def Vig.reached (s : State) (c : Nat) : Bool := (Cpu.state s c == 3 || Cpu.state s c == 5) && !s.frozen (Cpu.p c)

/-- DBG_SEL and a captured DBG_DATA as the dump leaves them: the order of its reads is open (DEDUCED, log entry 95). -/
def Vig.select (s : State) (c : Nat) : State :=
  let (g, s) := s.draw 37
  let s := s.put (Cpu.b c) CoreP.DBG_SEL_INDEX (if g ≤ 0x1A then g else g + 5)
  if Cpu.state s c = 3 then (match Cpu.read s 9 c 0x054 with
    | some (_, s) => s
    | none => s) else s

/-- The context of core `c` into the bay: all of it when its registers are reached, else CORE_STAT and VALID. -/
def Vig.context (s : State) (c : Nat) : State :=
  let a := Dump.bay + 0x1000 + 0x200 * c
  let b := Cpu.b c
  let k := s.core c
  let stat := match Cpu.read s 9 c 0x044 with
    | some (w, _) => w
    | none => s.regN (b + 0x044)
  if Vig.reached s c then
    let l := k.a.toList.flatMap (fun w => leBytes 4 w.toNat) ++ k.mb.toList.flatMap (fun w => leBytes 4 w.toNat) ++
      k.ml.toList.flatMap (fun w => leBytes 4 w.toNat) ++ leBytes 4 k.pc.toNat ++ leBytes 4 stat ++ accBytes k.acc0 ++ accBytes k.acc1 ++
      (List.range 10).flatMap (fun i => leBytes 4 (k.crN i)) ++
      [0x0D0, 0x0D4, 0x0D8].flatMap (fun o => leBytes 4 (s.regN (b + o))) ++ leBytes 4 1 ++
      [0x0A0, 0x0A4, 0x0A8, 0x0AC].flatMap (fun o => leBytes 4 (s.regN (b + o))) ++ List.replicate 304 0
    (Vig.select s c).store none a l
  else (s.store none (a + 0x064) (leBytes 4 stat)).store none (a + 0x0BC) [0, 0, 0, 0]

/-- The fault record into the bay. -/
def Vig.faultRecord (s : State) (v : Nat) (d : VigDump) : State :=
  let b := Vig.b v
  let states := ((List.range 6).map (fun k => Cpu.state s k * 2 ^ (3 * k))).sum
  let events := ((Vig.of s v).log.take 110).flatten
  let l := recBytes [(2, 0x4652), (1, (d.ev.map Recipe.cls).getD 0), (1, v), (4, s.get b Vig.LOG_CNT_COUNT), (8, d.t), (8, s.now), (4, s.regN (b + 0x0A8)),
      (4, Guard.sum s), (4, states)] ++ List.replicate 28 0 ++ events
  s.store none (Dump.bay + 0x200) (l ++ List.replicate (3584 - l.length) 0)

/-- Is HALT written to a core in step 2? -/
def Vig.haltDue (s : State) (c : Nat) : Bool := (Cpu.state s c == 1 || Cpu.state s c == 2) && s.running .core

/-- The dump meets a locked page: it does nothing more, and a FATAL ends LOCKED (R372) (DEDUCED, log entry 95). -/
def Vig.dumpLocked (s : State) (v p off : Nat) (ev : Option Recipe) : State :=
  let s := (Vig.ignored s p off).modVigs (fun x => { x with dump := none })
  match ev with
  | some f => Vig.record s v f 4 s.now
  | none => s

/-- Steps 3 to 5. -/
def Vig.dumpCores (s : State) (v : Nat) (d : VigDump) : State :=
  let stop := (List.range 6).find? (fun c => Vig.reached s c && s.locked (Cpu.p c))
  let s := s.each (List.range (stop.getD 6)) Vig.context
  match stop with
  | some c => Vig.dumpLocked s v (Cpu.p c) 0x050 d.ev
  | none =>
    let s := (Vig.faultRecord s v d).store none (Dump.bay + 2) [3]
    Dump.start (s.modVigs (fun x => { x with dump := some d })) 9 3

/-- Steps 1 to 5 of the procedure, started by a FATAL `ev` or by VIG_CMD; the capture then runs until CAPTURE_DONE. -/
def Vig.dump (s : State) (v : Nat) (ev : Option Recipe) (t : Nat) : State :=
  if s.vig.dump.isSome then s
  else
    let s := s.store none Dump.bay [0, 0]
    if s.locked 0x093 then Vig.dumpLocked s v 0x093 0x040 ev
    else
      let s := (s.put (pg 0x093) Dump.DUMP_CTL_DUMP_VALID 1).put (pg 0x093) Dump.DUMP_CTL_PROT 1
      let due := (List.range 6).filter (Vig.haltDue s)
      let halted := (due.takeWhile (fun c => !s.locked (Cpu.p c))).filter (fun c => !s.frozen (Cpu.p c))
      let stop := due.find? (fun c => s.locked (Cpu.p c))
      let s := s.each halted (fun s c => Cpu.haltCmd s 9 c)
      match stop with
      | some c => Vig.dumpLocked s v (Cpu.p c) 0x040 ev
      | none => Vig.dumpCores s v ⟨ev, t, halted⟩

/-- DUMP_DONE: steps 6 and 7 once the capture is complete. -/
def execDumpDone (s : State) : Out :=
  match s.vig.dump, s.vig.active with
  | some d, some v =>
    if !Vig.runs s ∨ s.fl.dumpRun.isSome then .next s
    else
      let s := Vig.post s v 0x08 (s.bytesAt (Dump.bay + 4) 4 ++ s.bytesAt (Dump.bay + 8) 8)
      let s := (s.modVigs (fun x => { x with dump := none })).raise (2 + v) 5
      let m := s.get (Vig.b v) Vig.VIG_CFG_DUMP_THEN
      if m = 1 then
        let s := s.each (d.halted.takeWhile (fun c => !s.locked (Cpu.p c))) (fun s c => Cpu.resume s 9 c)
        match d.halted.find? (fun c => s.locked (Cpu.p c)) with
        | some c => .next (Vig.dumpLocked s v (Cpu.p c) 0x040 d.ev)
        | none => .next s
      else if m = 2 then .next (Boot.warm s)
      else .next s
  | _, _ => .next s

/-- FATAL (R375) for a fault `r`. -/
def Vig.fatal (s : State) (r : Recipe) : State :=
  match s.vig.active with
  | none => s.modVigs (fun x => { x with waiting := x.waiting ++ [{ r with cls := 0x12, t := s.now, step := 1 }] })
  | some v =>
    let f : Recipe := { r with cls := 0x12, t := s.now, step := 1 }
    if !Vig.enabled s v 0x12 then (Vig.record s v f 5 0).raise (2 + v) 0
    else
      let s := (Vig.record s v f 0 0).raise (2 + v) 0
      let s := (Vig.setSrc s Vig.FAULT_SRC_FATAL).raise (2 + v) 2
      if s.flag (Vig.b v) Vig.VIG_CFG_AUTO_DUMP then Vig.dump s v (some f) f.t else s

/-! ### Recipes (R371, R374) -/

/-- The PLL a clock fault names in DETAIL. -/
def Recipe.pll (r : Recipe) : Nat :=
  let p := r.detail % 4096
  let k := r.detail / 4096
  if p = 0x008 then k else if p = 0x009 then 2 + k else if p = 0x00A then 4 + k else 7 + k

/-- Move a recipe to a step. -/
def Vig.toStep (s : State) (r : Recipe) (n : Nat) : State :=
  s.modVigs (fun x => { x with running := x.running.map (fun y => if y = r then { y with step := n } else y) })

/-- A recipe is over without an outcome of its own. -/
def Vig.drop (s : State) (r : Recipe) : State :=
  let s := s.modVigs (fun x => { x with running := x.running.filter (fun y => decide (y ≠ r)) })
  if Vig.isIsland r.cls then Vig.island s r.source false false else s

/-- Start a gated re-search with the stored band, unless the PLL is locked or already settling (R371). -/
def Vig.search (s : State) (k : Nat) : State :=
  let st := s.pllState k
  if st = 3 ∨ st = 4 ∨ st = 2 ∨ (st = 1 ∧ !Pll.hasStored s k) then s else s.gatedChange k

/-- Restart an island under HANG; a core cluster restart starts the boot ROM. -/
def Vig.restartIsland (s : State) (i : Island) : State :=
  let s := Reset.island s i
  if i = .core then Boot.rom s else s

/-- The descriptor of a transmission that a restart of island `i` loses, its four words (spec/10 R259). -/
def Vig.lostTx (s : State) (i : Island) : List Nat :=
  match i, s.rad.tx with
  | .radio, some x => (List.range 4).flatMap (fun k => leBytes 4 (s.regN (Rad.tb + 0x300 + 16 * x.d + 4 * k)))
  | _, _ => []

/-- The HANG recipe: island restart, or FATAL for the time island and at the third restart within 1 s (R374, R375; spec/10 R259). -/
def Vig.hang (s : State) (r : Recipe) : State :=
  let i := Island.nth r.source
  if i = .time then Vig.fatal (Vig.finish s r 3) r
  else
    let lost := Vig.lostTx s i
    let s := Vig.restartIsland s i
    let hs := (r.source, s.now) :: s.vig.hangs.filter (fun x => decide (s.now < x.2 + 640000000))
    let s := Vig.finishWith (s.modVigs (fun x => { x with hangs := hs })) r 2 lost
    if 3 ≤ (hs.filter (fun x => x.1 == r.source)).length then Vig.fatal s r else s

/-- The CORE_DOUBLE recipe: SRST, START_PC and START of the core where RECOV_PC is enabled (DEDUCED, log entry 76). -/
def Vig.recoverCore (s : State) (v : Nat) (r : Recipe) : State :=
  let c := r.source
  let e := Vig.b v + 4 * c
  if s.vig.dump.isSome then s
  else if !s.flag e Vig.RECOV_PC_EN then Vig.drop s r
  else if s.locked (Cpu.p c) then Vig.finish (Vig.ignored s (Cpu.p c) 0x00C) r 4
  else
    let pc := 2 * s.get e Vig.RECOV_PC_PC
    let s := (Page.srst s 9 (Cpu.p c)).put (pg (Cpu.p c)) H.BUSY 0
    let s := Cpu.write s 9 c 0x048 pc (fun s => s.put (Cpu.b c) CoreP.START_PC_PC (pc / 2))
    Vig.finish (Cpu.start s 9 c) r 1

/-- The THERMAL recipe: CPLL_TARGET becomes 40 by a COMMIT (its generation is free), done when SYN_C runs on it. -/
def Vig.thermal (s : State) (r : Recipe) : State :=
  if r.step = 1 then
    if s.locked 0x00B then Vig.finish (Vig.ignored s 0x00B 0x040) r 4
    else
      let (g, s) := s.draw 65535
      let s := s.put (pg 0x00B) Clk3.CPLL_TARGET_N 40
      Vig.toStep (Clk.handOver (s.armPage 9 0x00B (g + 1))) r 2
  else
    let s := Clk.handOver s
    if s.get (Pll.b 7) Pll.PLL_DIV_N = 40 ∧ s.pllState 7 = 3 then Vig.finish s r 1 else s

/-- A recipe's step is complete: its next step begins, or the recipe ends. -/
def Vig.step (s : State) (v : Nat) (r : Recipe) : State :=
  let k := r.pll
  let settled := decide (s.pllState k = 3 ∨ s.pllState k = 4)
  let clock (prep : State → State) (more : Bool) : State :=
    if r.step = 1 then Vig.toStep (Vig.search (prep s) k) r 2
    else if settled && more then Vig.finish s r 1 else s
  match r.cls with
  | 1 | 4 | 5 | 6 => clock id true
  | 2 => clock id (!s.coast)
  | 3 => clock (fun s => if s.pllState 7 = 3 ∨ s.pllState 7 = 4 then s else s.toBackup [.acq, .core, .fabric]) true
  | 7 => Vig.finish s r 1
  | 9 => if (Vig.of s (1 - v)).checked then Vig.finish s r 1 else s
  | 0x0C => Vig.recoverCore s v r
  | 0x0D => Vig.hang s r
  | 0x0E => if k = 0 ∨ k = 6 ∨ k = 7 then Vig.drop s r else Vig.fatal (Vig.finish s r 3) r
  | 0x10 => Vig.thermal s r
  | _ => Vig.finish s r 1

/-- RECIPE_STEP_DONE: the active Vigil goes on with the recipe of a class (R371). -/
def execRecipeStepDone (cls : BitVec 8) (s : State) : Out :=
  match s.vig.active, s.vig.running.find? (fun r => r.cls == cls.toNat) with
  | some v, some r => if Vig.runs s ∧ !(Vig.of s v).bad then .next (Vig.step s v r) else .next s
  | _, _ => .next s

/-- HANG: a crossing to a page has been outstanding longer than HANG_TO while the island's clock runs. -/
def execHang (island : Fin 12) (page : Fin 288) (s : State) : Out :=
  let i := Island.nth island.val
  let ok := (pageInfo page.val).isSome && pageIsland page.val == i && s.running i && Vig.runs s
  if !ok then .next s
  else
    let s := s.fault 0x0D island.val 0 page.val
    match s.vig.running.reverse.find? (fun r => r.cls == 0x0D && r.source == island.val) with
    | some r => .next (Vig.hang s r)
    | none => .next s

/-- LAST_RESORT: 100 µs without a heartbeat, or both Vigils failing their self-check (R376). -/
def execLastResort (s : State) : Out :=
  if !Vig.runs s then .next s
  else
    let both := s.vig.a.bad && s.vig.b.bad
    let s := if both then s else s.runTo (max s.vig.a.heard s.vig.b.heard + 64000)
    let t := s.now
    let s := Vig.setSrc s Vig.FAULT_SRC_LAST_RESORT
    let s := s.put (pg 0x093) Dump.DUMP_CTL_DUMP_VALID 1
    let s := Boot.warm s
    .next (s.modVigs (fun x => { x with waiting := x.waiting ++ [⟨0x13, 10, 0, 0, t, 1, false⟩] }))

/-- FAULT_N_RELEASE: no source holds FAULT_N and its 10 ms are over (R377). -/
def execFaultNRelease (s : State) : Out :=
  if Vig.faultSrc s ∨ !s.vig.faultN then .next s
  else .next (Vig.pin (s.runTo (s.vig.faultAt + Vig.lowTicks)) false)

/-! ### VIG pages (R383, R384) -/

/-- VIG_CMD on the page of Vigil `v`. -/
def Vig.cmd (s : State) (req v x : Nat) : State :=
  let o := 1 - v
  let err (s : State) (code : Nat) : State := s.logErr (2 + v) code (Vig.b v + 0x04C) req
  let s := if x.testBit 0 then
      (if s.vig.dump.isSome then err s 0x42 else Vig.dump s (s.vig.active.getD v) none s.now) else s
  let s := if x.testBit 1 then (if Vig.standby s o then Vig.swap s o else err s 0x41) else s
  if x.testBit 2 then (if (Vig.of s o).checked && Vig.state s o == 2 then Vig.restart s o else err s 0x43) else s

/-- Copy a configuration word to the other page. -/
def Vig.mirror (s : State) (v off : Nat) : State := s.setReg (Vig.b (1 - v) + off) (s.regN (Vig.b v + off))

/-- Special effects of a write to a VIG page. -/
def Vig.write (s : State) (req v off x : Nat) (store : State → State) : State :=
  if off = 0x04C then Vig.cmd s req v x
  else if off = 0x050 then
    let fw := s.flag (Vig.b v) Vig.FAULT_SRC_FW
    let s := Vig.mirror (store s) v off
    if !fw && s.flag (Vig.b v) Vig.FAULT_SRC_FW then Vig.setSrc s Vig.FAULT_SRC_FW else Vig.tryRelease s
  else if off = 0x054 then
    let s := store s
    let e := s.regN (Vig.b v + off) ||| 0x80786
    Vig.mirror (s.setReg (Vig.b v + off) e) v off
  else if off = 0x040 then
    let old := s.get (Vig.b v) Vig.VIG_CFG_PREFER
    let s := Vig.mirror (store s) v off
    let w := s.get (Vig.b v) Vig.VIG_CFG_PREFER
    s.modVigs (fun m => { m with move := (m.move && old == w) || (s.vig.active == some (1 - w) && Vig.standby s w) })
  else if off = 0x058 ∨ (0x060 ≤ off ∧ off < 0x078) then Vig.mirror (store s) v off
  else store s

/-- A read of the first word of LOG_DATA brings up the event at LOG_SEL. -/
def Vig.prep (s : State) (v off : Nat) : State :=
  if off = 0x088 then
    s.put (Vig.b v) Vig.LOG_DATA_EVENT (leNat (((Vig.of s v).log[s.get (Vig.b v) Vig.LOG_SEL_INDEX]?).getD []))
  else s

/-- BLOCK_STAT of a VIG page. -/
def Vig.blockStat (s : State) (v : Nat) : Nat := b2n (decide (s.vig.active = some v)) + 2 * b2n s.vig.faultN

end Sys2Proof.Machine
end

