-- ==== Sys2Proof/Machine/Bus.lean ====
section
/-! DEFINITION. Accesses to the register window: where they go, what a read answers, what a write does to each field (spec/02 R31
to R37, spec/01 R25, R27, R28, R462, spec/17 R400). -/

namespace Sys2Proof.Machine

/-- The window's base address. -/
def Bus.base : Nat := 0x40000000

/-- Outcome of an access: a bus error, held, or done with the value read. -/
inductive Res where
  | err | held | ok (v : Nat)
  deriving DecidableEq, Repr

/-- Where an access to a window offset goes. -/
inductive Way where
  | err | held | reg (p : Nat) (b : Blk) (i off : Nat)
  deriving DecidableEq, Repr

/-- JTAG and the host SPI target reach only SYS without their grant (R400) (DEDUCED, log entry 78). -/
def Bus.denied (s : State) (req p : Nat) : Bool :=
  p != 0 && ((req == 10 && !(s.get 0 Sys.DBG_STAT_SCOPE).testBit 0) || (req == 7 && !(s.get 0 Sys.DBG_STAT_SCOPE).testBit 1))

/-- The island of a window address. -/
def Bus.island (a : Nat) : Island := pageIsland ((a - Bus.base) / 0x1000)

/-- Must an access wait behind those of `l`, which are under way to the same island and complete before it (R17)? -/
def Bus.behind (l : List Held) (a : Nat) : Bool :=
  decide (Bus.base ≤ a) && (pageInfo ((a - Bus.base) / 0x1000)).isSome && l.any (fun h => decide (Bus.base ≤ h.addr) && Bus.island h.addr == Bus.island a)

/-- The code under which an access waits that is part of a longer act of its requester: core c's instruction, the host's WRITE, a DMA
burst. -/
def Bus.who (req : Nat) : Nat := if req < 6 then 16 + req else if req = 7 then 12 else if req = 6 then 13 else req

/-- Route an access: unlisted page, island in reset or denied requester are bus errors (R32, R462, R400); a soft reset in progress,
a gated-off island, and an older access on its way to the island hold it (R45, R27, R17). -/
def Bus.way (s : State) (req a : Nat) : Way :=
  let w := a - Bus.base
  let p := w / 0x1000
  if a < Bus.base then .err
  else match pageInfo p with
    | none => .err
    | some (b, i) =>
      if s.isReset (pageIsland p) || Bus.denied s req p then .err
      else if s.flag (pg (ownerPage p)) H.BUSY ∨ pageIsland p ∈ s.stalled ∨
          Bus.behind (s.held.takeWhile (fun h => h.req != Bus.who req && h.req != req)) a = true then .held
      else .reg p b i (w % 0x1000)

/-- The access rows of the word at `off` of a page. -/
def Bus.fields (b : Blk) (i off : Nat) : List FieldAt :=
  let (rows, o) := pageRows b i off
  fieldsAt rows o

/-- Words of the wide field whose lowest word is at `off` (R33). -/
def Bus.wide (b : Blk) (i off : Nat) : Nat :=
  let (rows, o) := pageRows b i off
  (rows.filterMap (fun r => r.wideAt o)).foldl max 1

/-- Is the word at `off` a higher word of a wide field? -/
def Bus.upper (b : Blk) (i off : Nat) : Bool :=
  let (rows, o) := pageRows b i off
  rows.any (fun r => r.upperAt o)

/-- BLOCK_STAT of a page. -/
def Bus.blockStat (s : State) (b : Blk) (i : Nat) : Nat :=
  match b with
  | .vig => Vig.blockStat s i
  | .guard => b2n (Guard.sum s != 0)
  | .rfe => Rfe.blockStat s i
  | .arr => Arr.blockStat s
  | .acq => Acq.blockStat s i
  | .code => Code.blockStat s
  | .trkg => Trkg.blockStat s
  | .meas => Meas.blockStat s
  | .cdl => Cdl.blockStat s
  | .time => Time.blockStat s
  | .cal => Cal.blockStat s
  | .evt => Evt.blockStat s
  | .eth => Eth.blockStat s i
  | .sw => Sw.blockStat s
  | .ptp => Ptp.blockStat s
  | .radio => Rad.blockStat s
  | .dma => Dma.blockStat s
  | .core => Cpu.state s i
  | _ => 0

/-- A header register as read. -/
def Bus.header (s : State) (p : Nat) (b : Blk) (i off : Nat) : Nat :=
  if off = 0x010 then s.regN (pg p + off) % 32 + 32 * b2n (s.locked p) + 2 ^ 16 * Bus.blockStat s b i
  else if off = 0x01C then s.irqStat p
  else s.regN (pg p + off)

/-- What a read of a word first does or shows where that is not what is stored. -/
def Bus.hookRead (s : State) (req : Nat) (b : Blk) (i off : Nat) : Option (Nat × State) :=
  let pure (o : Option Nat) : Option (Nat × State) := o.map (fun v => (v, s))
  match b with
  | .irq => pure (Irq.read s off)
  | .guard => pure (Guard.read s off)
  | .code => if off = 0x044 then some (Code.dataRead s) else none
  | .trkg => pure (Trkg.sums s off)
  | .chan => pure (Ch.read s (16 * i + off / 0x100) (off % 0x100))
  | .cdl => pure (Cdl.read s off)
  | .time => if off = 0x0C0 then some (Pad.stat s (Cal.early s), s) else pure (Time.read s off)
  | .cal => pure (Cal.read s off)
  | .ptp => pure (Ptp.read s off)
  | .radio => pure (Rad.read s off)
  | .dma =>
    if off = 0x058 then some (((List.range 16).map (fun l => b2n (s.reqLine l) * 2 ^ l)).sum, s) else pure (Dma.read s off)
  | .power => Power.read s off
  | .spi => Spi.read s req off
  | .can => Can.read s req i off
  | .uart => Uart.read s req i off
  | .i2c => I2c.read s req off
  | .core => Cpu.read s req i off
  | _ => none

/-- State changes that come before a read's value is taken: captures and clocks. -/
def Bus.prep (s : State) (b : Blk) (i off : Nat) : State :=
  match b with
  | .vig => Vig.prep s i off
  | .chan => if off % 0x100 = 0x080 then Ch.readback s (16 * i + off / 0x100) else s
  | .cdl => if off = 0x070 then Cdl.msgRead s else s
  | .arr => Arr.settle s
  | .time => if off = 0x0C4 then Pad.settle s else s
  | .core => if off = 0x0A0 then Cpu.clocks s i else s
  | _ => s

/-- The value of a word now. -/
def Bus.word (s : State) (req p : Nat) (b : Blk) (i off : Nat) : Nat × State :=
  if hasHeader b && off < 0x040 then (Bus.header s p b i off, s)
  else match Bus.hookRead s req b i off with
    | some r => r
    | none => (if Bus.fields b i off = [] then 0 else s.regN (pg p + off), s)

/-- Capture `n` higher words from `off` (R33) (DEDUCED, log entry 30). -/
def Bus.capture (s : State) (req p : Nat) (b : Blk) (i off : Nat) : Nat → State
  | 0 => s
  | n + 1 =>
    let v := (Bus.word s req p b i off).1
    Bus.capture { s with capt := Tab.ins s.capt (pg p + off) (BitVec.ofNat 32 v) } req p b i (off + 4) n

/-- A read of a word: a higher word of a wide field answers what was captured, a lowest one captures (R33). -/
def Bus.get (s : State) (req p : Nat) (b : Blk) (i off : Nat) : Nat × State :=
  if Bus.upper b i off && !(b == .core && off == 0x058) then
    match s.capt.find? (fun x => x.1 == pg p + off) with
    | some x => (x.2.toNat, s)
    | none => Bus.word s req p b i off
  else
    let s := Bus.prep s b i off
    let (v, s) := Bus.word s req p b i off
    let n := Bus.wide b i off
    (v, if n ≤ 1 ∨ (b = .core ∧ off = 0x054) then s else Bus.capture s req p b i (off + 4) (n - 1))

/-! ### Writes -/

/-- What a write stores into one field, and the error it finds (R9, R37). -/
def FieldAt.write (f : FieldAt) (old v : Nat) (first : Bool) : Nat × Option Nat :=
  let o := bitsOf old f.lo f.w
  let x := bitsOf v f.lo f.w
  let ranged : Nat × Option Nat := match f.chk with
    | .any => (x, none)
    | .clamp lo hi => if x < lo then (lo, some E.RANGE_CLAMPED) else if hi < x then (hi, some E.RANGE_CLAMPED) else (x, none)
    | .clampS neg hi =>
      let i := toSigned f.w x
      if i < -(neg : Int) then (ofSigned f.w (-(neg : Int)), some E.RANGE_CLAMPED)
      else if (hi : Int) < i then (hi, some E.RANGE_CLAMPED) else (x, none)
    | .reject lo hi => if x < lo ∨ hi < x then (o, some E.RANGE_REJECTED) else (x, none)
  match f.acc with
  | .rd | .pu => (o, none)
  | .oc => (o &&& (2 ^ f.w - 1 - x), none)
  | .fr | .sh => ranged
  | .on => if first then ranged else (o, some E.ONCE_REWRITE)

/-- Does a lock block writes to the field (R36)? -/
def FieldAt.blocked (f : FieldAt) : Bool := f.acc == .fr || f.acc == .pu || f.acc == .sh || f.acc == .on

/-- Store a write field by field; the error of the lowest field is logged once (R37). -/
def Bus.store (req p a : Nat) (fs : List FieldAt) (v : Nat) (s : State) : State :=
  let first := decide (a ∉ s.once)
  let step (x : Nat × Option (Nat × Nat)) (f : FieldAt) : Nat × Option (Nat × Nat) :=
    let (n, e) := f.write (s.regN a) v first
    let err := match e, x.2 with
      | some c, some (lo, c') => if f.lo < lo then some (f.lo, c) else some (lo, c')
      | some c, none => some (f.lo, c)
      | none, y => y
    (putBits x.1 f.lo f.w n, err)
  let (w, err) := fs.foldl step (s.regN a, none)
  let s := s.setReg a w
  let s := if fs.any (fun f => f.acc == .on) && first then { s with once := a :: s.once } else s
  match err with
  | some (_, c) => s.logErr p c a req
  | none => s

/-- TEST page writes (spec/20 R460). -/
def Test.write (s : State) (req off v : Nat) (store : State → State) : State :=
  let b := pg 0x0F0
  if off = 0x044 then
    let s := if v.testBit 0 ∧ !s.en 0x0F0 then s
      else if v.testBit 0 ∧ s.en 0x048 then s.logErr 0x0F0 0x41 (b + off) req
      else if v.testBit 0 = s.flag b Test.PRBS_CTL_PRBS_EN then s
      else Test.run s (v.testBit 0)
    if v.testBit 1 then (s.setReg (b + 0x048) 0).setReg (b + 0x04C) 0 else s
  else store s

/-- The owning block's effects of a write (DEDUCED, log entry 28). -/
def Bus.hook (s : State) (req p : Nat) (b : Blk) (i off v : Nat) (store : State → State) : State :=
  match b with
  | .sys => Sys.write s req off v store
  | .irq => Irq.write s req off v store
  | .vig => Vig.write s req i off v store
  | .guard => Guard.write s req off v store
  | .clk => Clk.write s req i off v store
  | .rfe => Rfe.write s req i off v store
  | .arr => Arr.write s req off v store
  | .acq => Acq.write s req i off v store
  | .code => Code.write s off v store
  | .trkg => Trkg.write s req off v store
  | .chan => Ch.write s req (16 * i + off / 0x100) (off % 0x100) v store
  | .meas => Meas.write s req off v store
  | .cdl => Cdl.write s req off v store
  | .time => Time.write s req off v store
  | .cal => Cal.write s req off v store
  | .evt => Evt.write s req off v store
  | .eth => Eth.write s req i off v store
  | .sw => Sw.write s req off v store
  | .ptp => Ptp.write s req off v store
  | .radio => Rad.write s req off v store
  | .radT => Rad.tabWrite s req off v store
  | .dma | .dmaC => Dma.write s req (pg p + off) v store
  | .flash => Flash.write s req off v store
  | .annal => Annal.write s req off v store
  | .dump => if off = 0x044 then Dump.start s req v else store s
  | .power => Power.write s req off v store
  | .spi => Spi.write s req off v store
  | .can => Can.write s req i off v store
  | .uart => Uart.write s req i off v store
  | .i2c => I2c.write s req off v store
  | .gpio => Gpio.write s req off v store
  | .core =>
    -- a frozen core has stopped: the commands of CORE_CTL do not reach it
    Cpu.write s req i off (if off = 0x040 ∧ s.frozen p then v / 16 * 16 else v) store
  | .test => Test.write s req off v store
  | .calE | .mem => store s

/-- NO_SHADOW code of a page. -/
def Bus.noShadow (p : Nat) : Nat := if p = 0x021 ∨ p = 0x030 then 0x43 else if p = 0x051 then 0x41 else if p = 0x054 then 0x42 else 0x40

/-- A write to LOCK_KEY (R36). -/
def Bus.lockKey (s : State) (req p v : Nat) : State :=
  let b := pg p
  if v = 0x4C4B0001 then s.put b H.LOCKED 1
  else if v = 0x4C4B0002 then (s.put b H.LOCKED 1).put b H.STICKY 1
  else if v = 0x4C4B0000 then (if s.flag b H.STICKY then s else s.put b H.LOCKED 0)
  else s.logErr p E.KEY_BAD (b + 0x034) req

/-- A write to a header register. -/
def Bus.putHeader (s : State) (req p off v : Nat) : State :=
  let b := pg p
  let a := b + off
  let guarded (t : State) : State := if s.locked p then s.logErr p E.LOCKED a req else t
  if off = 0x00C then guarded (Page.ctl s req p v)
  else if off = 0x010 then (if v.testBit 4 then s.put b H.RESTARTED 0 else s)
  else if off = 0x018 then guarded (s.setReg a v)
  else if off = 0x020 then
    let s := s.put b H.IRQ_RAW (s.get b H.IRQ_RAW &&& (2 ^ 32 - 1 - v % 2 ^ 32))
    -- a level interrupt sets its bit again while the level holds (spec/18 R428)
    if p = Gpio.p then Gpio.levels s else s
  else if off = 0x024 then (if v.testBit 31 then (s.setReg a 0).setReg (b + 0x028) 0 else s)
  else if off = 0x02C then
    guarded (if (Page.feat p).testBit 0 then s.armPage req p v else s.logErr p (Bus.noShadow p) a req)
  else if off = 0x034 then Bus.lockKey s req p v
  else if off < 0x038 then s.logErr p E.READONLY_WRITE a req
  else s.logErr p E.RESERVED_WRITE a req

/-- Per-entry interrupt-clear registers, which a lock leaves writable (R36). -/
def Bus.irqClr (b : Blk) (off : Nat) : Bool := (b == .chan && off % 0x100 == 0x010) || (b == .dmaC && off % 0x80 == 0x078)

/-- The bits of a word's one-clears fields. -/
def Bus.clears (fs : List FieldAt) (v : Nat) : Nat :=
  (fs.filter (fun f => f.acc == .oc)).foldl (fun x f => x + bitsOf v f.lo f.w * 2 ^ f.lo) 0

/-- A write to a block's own register. -/
def Bus.putBlock (s : State) (req p : Nat) (b : Blk) (i off v : Nat) : State :=
  let o := ownerPage p
  let a := pg p + off
  let fs := Bus.fields b i off
  if fs = [] then s.logErr o E.RESERVED_WRITE a req
  else if fs.all (fun f => f.acc == .rd) then s.logErr o E.READONLY_WRITE a req
  else if s.locked o && fs.any FieldAt.blocked && !Bus.irqClr b off then
    let oc := fs.filter (fun f => f.acc == .oc)
    let s := s.logErr o E.LOCKED a req
    if oc = [] then s else Bus.hook s req p b i off (Bus.clears fs v) (Bus.store req o a oc v)
  else Bus.hook s req p b i off v (Bus.store req o a fs v)

/-- A write of a word: one access counts at most once in COUNT; hand-overs that it brings about count for themselves (R37). -/
def Bus.put (s : State) (req p : Nat) (b : Blk) (i off v : Nat) : State :=
  let o := pg (ownerPage p)
  let n := s.get o H.COUNT
  let t := if hasHeader b && off < 0x040 then Bus.putHeader s req p off v else Bus.putBlock s req p b i off v
  if satInc 8 n < t.get o H.COUNT ∧ !(p = 0x030 ∧ off = 0x060) then t.put o H.COUNT (satInc 8 n) else t

/-- A word read of the window. -/
def Bus.read (s : State) (req a : Nat) : Res × State :=
  if a % 4 ≠ 0 then (.err, s)
  else match Bus.way s req a with
    | .err => (.err, s)
    | .held => (.held, s)
    | .reg p b i off => let (v, s) := Bus.get s req p b i off; (.ok v, s)

/-- A word write of the window. -/
def Bus.write (s : State) (req a v : Nat) : Res × State :=
  if a % 4 ≠ 0 then (.err, s)
  else match Bus.way s req a with
    | .err => (.err, s)
    | .held => (.held, s)
    | .reg p b i off => (.ok 0, Bus.put s req p b i off (v % 2 ^ 32))

/-- A read of `n` bytes (R33): within a word, or two words of 64 bits. -/
def Bus.readN (s : State) (req a n : Nat) : Res × State :=
  if n = 8 then
    match Bus.read s req a with
    | (.ok lo, s) =>
      match Bus.read s req (a + 4) with
      | (.ok hi, s) => (.ok (lo + 2 ^ 32 * hi), s)
      | r => r
    | r => r
  else if a % 4 + n > 4 then (.err, s)
  else
    match Bus.read s req (a / 4 * 4) with
    | (.ok v, s) => (.ok (bitsOf v (8 * (a % 4)) (8 * n)), s)
    | r => r

/-- A write of `n` bytes (R33): a narrow one is ignored and logged with SIZE. -/
def Bus.writeN (s : State) (req a n v : Nat) : Res × State :=
  if n = 8 then
    match Bus.write s req a v with
    | (.ok _, s) => Bus.write s req (a + 4) (v / 2 ^ 32)
    | r => r
  else if n = 4 then Bus.write s req a v
  else if a % 4 + n > 4 then (.err, s)
  else
    match Bus.way s req (a / 4 * 4) with
    | .err => (.err, s)
    | .held => (.held, s)
    | .reg p _ _ _ => (.ok 0, s.logErr (ownerPage p) E.SIZE (a - Bus.base) req)

/-! ### Requesters other than cores -/

/-- Hold an access until its page answers (R27, R45) (DEDUCED, log entry 31). -/
def Bus.hold (s : State) (req a : Nat) (write : Bool) (v n : Nat) : State := { s with held := s.held ++ [⟨req, a, write, v, n⟩] }

/-- An access that was held completes, or goes on waiting; a memory access waits for the fabric or the flash (R27). -/
def Bus.retry (s : State) (h : Held) : State :=
  if Bus.behind (s.held.takeWhile (fun x => decide (x ≠ h))) h.addr then s
  else if rangeFor h.addr h.n ≠ .regs then
    if !s.running .fabric ∨ s.flashWaits h.addr then s
    else if h.write then let (s, ok) := s.blockWrite h.addr (leBytes h.n h.val); Bus.finish s h 0 (!ok)
    else match s.devRead h.addr h.n with
      | (s, some l) => Bus.finish s h (leNat l) false
      | (s, none) => Bus.fail s h
  else
    let (r, s') := if h.write then Bus.writeN s h.req h.addr h.n h.val else Bus.read s h.req h.addr
    match r with
    | .held => s
    | .ok v => Bus.finish s' h v false
    | .err => Bus.fail s h

/-- Held accesses that are no part of an instruction, a DMA burst or a WRITE of the host complete when their target answers again, in
their order. -/
def Bus.release (s : State) : State := s.each (s.held.filter (fun h => decide (h.req < 12))) Bus.retry

/-- Before a new access of a requester: a core's write buffer drains (spec/11 R267), and older accesses to the same island that can
complete do so (R17). -/
def Bus.ready (s : State) (req a : Nat) : State :=
  let s := if req < 6 then s.drainAll req else s
  if Bus.behind s.held a then Bus.release s else s

/-- Carry out a write command of a requester, `n` bytes at an address: the answer says whether it met a bus error; an access to a
held page waits. -/
def Bus.commandN (s : State) (req a n v : Nat) : State :=
  let s := Bus.ready s req a
  if Bus.behind s.held a then Bus.hold s req a true v n
  else match Bus.writeN s req a n v with
    | (.ok _, s) => s.answer req [] false
    | (.err, s) => s.answer req [] true
    | (.held, s) => Bus.hold s req a true v n

/-- A word write at a window offset. -/
def Bus.command (s : State) (req a v : Nat) : State := Bus.commandN s req (Bus.base + a) 4 v

/-- Carry out a read command of a requester: the answer holds the word. -/
def Bus.fetch (s : State) (req a : Nat) : State :=
  let s := Bus.ready s req (Bus.base + a)
  if Bus.behind s.held (Bus.base + a) then Bus.hold s req (Bus.base + a) false 0 4
  else match Bus.read s req (Bus.base + a) with
    | (.ok v, s) => s.answer req [BitVec.ofNat 32 v] false
    | (.err, s) => s.answer req [0] true
    | (.held, s) => Bus.hold s req (Bus.base + a) false 0 4

end Sys2Proof.Machine
end

