-- ==== Sys2Proof/Machine/Isa.lean ====
section
/-! DEFINITION. The Thithigor encoding: the opcode table, operand roles and sizes, and decoding and encoding of parcels
(spec/12 R297 to R300, R304, R306, R308). -/

namespace Sys2Proof

open Machine

/-- Bytes of an operand of a size code (R298): .B .H .W .D .F .G .Q. -/
def Isa.bytes (z : Nat) : Nat := if z = 0 then 1 else if z = 1 then 2 else if z = 3 ∨ z = 5 then 8 else 4

/-- What an instruction does with an operand: writes it, reads and writes it, reads it, reads it as a compare's first operand,
takes its address (LEA), exchanges it atomically, compares with it (CAS), saves or restores an accumulator in it. -/
inductive Role where
  | dst | mod | src | cmp | addr | atom | cas | save | restore
  deriving DecidableEq, Repr

/-- The forms of the opcode tables (R304, R308, R306). -/
inductive Kind where
  | none | unary | widen | lea | swap | cas | binary | compare | fma | cvt | acc2 | aext | ald | asave | arstr
  | disp | src | dst
  deriving DecidableEq, Repr

/-- A row of the opcode table: form, accepted size codes, whether .S exists, what X may hold (0: 0; 1: bit 0; 2: a size code). -/
structure Ent where
  kind  : Kind
  sizes : List Nat
  sat   : Bool
  x     : Nat
  deriving DecidableEq, Repr

/-- The ALU-layout table (R304, R308). -/
def Isa.alu (opc : Nat) : Option Ent :=
  let bhwdq := [0, 1, 2, 3, 6]
  let bhwd := [0, 1, 2, 3]
  let fg := [4, 5]
  match opc with
  | 0x00 => some ⟨.none, [0], false, 0⟩
  | 0x01 => some ⟨.unary, [0, 1, 2, 3, 4, 5, 6], false, 0⟩
  | 0x02 | 0x03 => some ⟨.widen, [0, 1, 2], false, 0⟩
  | 0x04 => some ⟨.lea, [2], false, 2⟩
  | 0x05 => some ⟨.swap, [2, 3], false, 0⟩
  | 0x06 => some ⟨.cas, [2, 3], false, 0⟩
  | 0x08 | 0x09 => some ⟨.binary, bhwdq, true, 0⟩
  | 0x0A | 0x0B => some ⟨.binary, bhwd, false, 0⟩
  | 0x0C | 0x0D => some ⟨.unary, bhwdq, true, 0⟩
  | 0x0E => some ⟨.compare, bhwdq, false, 0⟩
  | 0x0F | 0x10 | 0x11 | 0x12 => some ⟨.binary, bhwdq, false, 0⟩
  | 0x14 => some ⟨.binary, bhwd, true, 0⟩
  | 0x15 | 0x16 => some ⟨.binary, [1, 2, 3], false, 0⟩
  | 0x17 | 0x19 => some ⟨.binary, bhwd, true, 0⟩
  | 0x18 | 0x1A => some ⟨.binary, bhwd, false, 0⟩
  | 0x20 | 0x21 | 0x22 => some ⟨.binary, bhwdq, false, 0⟩
  | 0x23 => some ⟨.unary, bhwdq, false, 0⟩
  | 0x24 => some ⟨.compare, bhwdq, false, 0⟩
  | 0x25 => some ⟨.compare, bhwd, false, 0⟩
  | 0x26 | 0x27 | 0x28 => some ⟨.binary, bhwd, false, 0⟩
  | 0x29 | 0x2A => some ⟨.unary, bhwd, false, 0⟩
  | 0x30 => some ⟨.binary, bhwdq, true, 0⟩
  | 0x31 | 0x32 | 0x33 | 0x34 => some ⟨.binary, bhwdq, false, 0⟩
  | 0x38 | 0x39 | 0x3A | 0x3B => some ⟨.binary, fg, false, 0⟩
  | 0x3C => some ⟨.unary, fg, false, 0⟩
  | 0x3D => some ⟨.fma, fg, false, 0⟩
  | 0x3E => some ⟨.compare, fg, false, 1⟩
  | 0x3F | 0x40 => some ⟨.binary, fg, false, 0⟩
  | 0x41 | 0x42 => some ⟨.unary, fg, false, 0⟩
  | 0x43 | 0x44 => some ⟨.cvt, [0, 1, 2, 3, 4, 5], false, 2⟩
  | 0x48 | 0x49 | 0x4A => some ⟨.acc2, [0, 1, 2], false, 1⟩
  | 0x4B | 0x4C => some ⟨.acc2, [2], false, 0⟩
  | 0x4D => some ⟨.acc2, [6], false, 1⟩
  | 0x4E => some ⟨.none, [0], false, 1⟩
  | 0x4F => some ⟨.ald, [2, 3], false, 1⟩
  | 0x50 => some ⟨.aext, bhwd, false, 1⟩
  | 0x51 => some ⟨.asave, [3], false, 1⟩
  | 0x52 => some ⟨.arstr, [3], false, 1⟩
  | _ => none

/-- The control-layout table (R306): form and the bits of [7:0] that may be set. -/
def Isa.ctl (opc : Nat) : Option (Kind × Nat) :=
  match opc with
  | 0x80 | 0x81 => some (.disp, 0xF0)
  | 0x82 => some (.disp, 0)
  | 0x83 | 0x84 => some (.src, 0)
  | 0x85 | 0x86 => some (.none, 0)
  | 0x87 => some (.none, 0xFF)
  | 0x88 | 0x89 | 0x8A | 0x8B => some (.none, 0)
  | 0x8C => some (.src, 0)
  | 0x8D => some (.dst, 0x0F)
  | 0x8E => some (.src, 0x0F)
  | 0x8F => some (.dst, 0x0F)
  | 0x90 => some (.disp, 0x0F)
  | _ => none

/-- SZ of an opcode parcel's low byte. -/
def Isa.sz (low : Nat) : Nat := low / 32

/-- SAT. -/
def Isa.sat (low : Nat) : Bool := low / 16 % 2 == 1

/-- F3. -/
def Isa.f3 (low : Nat) : Bool := low / 8 % 2 == 1

/-- X. -/
def Isa.x (low : Nat) : Nat := low % 8

/-- May F3 have this value in a form (R299)? -/
def Kind.f3Ok (k : Kind) (f3 : Bool) : Bool :=
  match k with
  | .binary => true
  | .cas | .fma => f3
  | _ => !f3

/-- Is the opcode parcel defined (R299)? -/
def Isa.opcodeOk (opc low : Nat) : Bool :=
  if opc < 0x80 then
    match Isa.alu opc with
    | none => false
    | some e =>
      let z := Isa.sz low
      let x := Isa.x low
      z != 7 && (e.kind != .none || z == 0) && (!Isa.sat low || e.sat) && e.kind.f3Ok (Isa.f3 low) &&
        (if e.x = 0 then x == 0 else if e.x = 1 then decide (x < 2) else x != 7)
  else
    match Isa.ctl opc with
    | none => false
    | some (_, m) => low &&& m == low

/-- Roles and size codes of the operands of a defined opcode parcel, in operand order. -/
def Isa.args (opc low : Nat) : List (Role × Nat) :=
  let z := Isa.sz low
  let kind : Option Kind := if opc < 0x80 then (Isa.alu opc).map (·.kind) else (Isa.ctl opc).map (·.1)
  match kind with
  | some .unary => [(.dst, z), (.src, z)]
  | some .widen => [(.dst, if z = 2 then 3 else 2), (.src, z)]
  | some .lea => [(.dst, 2), (.addr, Isa.x low)]
  | some .swap => [(.atom, z), (.mod, z)]
  | some .cas => [(.atom, z), (.cas, z), (.src, z)]
  | some .binary => if Isa.f3 low then [(.dst, z), (.src, z), (.src, z)] else [(.mod, z), (.src, z)]
  | some .compare => [(.cmp, z), (.src, z)]
  | some .fma => [(.mod, z), (.src, z), (.src, z)]
  | some .cvt => [(.dst, z), (.src, Isa.x low)]
  | some .acc2 => [(.src, z), (.src, z)]
  | some .aext => [(.dst, z), (.src, z)]
  | some .ald => [(.src, z)]
  | some .asave => [(.save, z)]
  | some .arstr => [(.restore, z)]
  | some .src => [(.src, 2)]
  | some .dst => [(.dst, 2)]
  | _ => []

/-- Displacement parcels after the operands. -/
def Isa.dispLen (opc : Nat) : Nat := if opc = 0x80 ∨ opc = 0x90 then 1 else if opc = 0x81 ∨ opc = 0x82 then 2 else 0

/-! ### Operands that an instruction does not accept (ILLEGAL_OPERAND) -/

/-- Is the operand in memory? -/
def Opd.isMem : Opd → Bool
  | .imm _ | .short _ | .reg _ | .buf _ => false
  | _ => true

/-- Is the operand an immediate? -/
def Opd.isImm : Opd → Bool
  | .imm _ | .short _ => true
  | _ => false

/-- Does an operand fit its role and size: registers only as .W integers, immediates only as sources, memory where memory is asked
(R300, R304, R308)? -/
def Opd.fits (o : Opd) (r : Role) (z : Nat) : Bool :=
  (o.isMem || o.isImm || z == 2) &&
    match r with
    | .src | .cas => true
    | .dst | .mod | .cmp => !o.isImm
    | .addr | .atom | .save | .restore => o.isMem

/-- Does CVT or CVTU convert between these size codes (R304)? -/
def Isa.cvtOk (opc zd zs : Nat) : Bool :=
  (zd != 6 && zs != 6) && (decide (zd < 4 ∧ 4 ≤ zs) || decide (4 ≤ zd ∧ zs < 4) || (opc == 0x43 && 4 ≤ zd && 4 ≤ zs && zd != zs))

/-- Does a defined opcode accept its size and control number (R283, R304, R306)? -/
def Isa.sizeOk (opc low : Nat) : Bool :=
  if opc < 0x80 then
    match Isa.alu opc with
    | none => false
    | some e => decide (Isa.sz low ∈ e.sizes) && (e.kind != .cvt || Isa.cvtOk opc (Isa.sz low) (Isa.x low))
  else if opc = 0x8D ∨ opc = 0x8E then decide (low < 10)
  else if opc = 0x8F then decide (low < 4)
  else true

/-- Every operand fits. -/
def Isa.fitAll : List Opd → List (Role × Nat) → Bool
  | o :: t, a :: u => o.fits a.1 a.2 && Isa.fitAll t u
  | _, _ => true

/-- Is a defined instruction accepted as a whole? (DEDUCED, log entry 82) -/
def Op.accepted (o : Op) : Bool := Isa.sizeOk o.opc.toNat o.low.toNat && Isa.fitAll o.l (Isa.args o.opc.toNat o.low.toNat)

/-- The non-repeatable class (R309). -/
def Op.noRepeat (o : Op) : Bool :=
  let n := o.opc.toNat
  decide ((0x80 ≤ n ∧ n ≤ 0x87) ∨ n = 0x90 ∨ n = 0x8C ∨ n = 0x8F ∨ (n = 0x8E ∧ o.low.toNat = 1))

/-! ### Parcels -/

/-- What a run of parcels spells: more are needed, an undefined instruction, or a result and the parcels left. -/
inductive Dec (α : Type) where
  | more
  | bad
  | ok (x : α) (rest : List Nat)
  deriving DecidableEq, Repr

/-- Continue with what was decoded. -/
def Dec.bind {α β : Type} (d : Dec α) (f : α → List Nat → Dec β) : Dec β :=
  match d with
  | .more => .more
  | .bad => .bad
  | .ok x t => f x t

/-- A number of `n` parcels, low first. -/
def Isa.num : Nat → List Nat → Dec Nat
  | 0, t => .ok 0 t
  | _ + 1, [] => .more
  | n + 1, p :: t => (Isa.num n t).bind (fun v u => .ok (p % 65536 + 65536 * v) u)

/-- The `n` parcels of a number, low first. -/
def Isa.parcels : Nat → Nat → List Nat
  | 0, _ => []
  | n + 1, v => v % 65536 :: Isa.parcels n (v / 65536)

/-- Extension parcels of an immediate (R300). -/
def Isa.immLen (z : Nat) : Nat := if z ≤ 1 then 1 else if z = 3 ∨ z = 5 then 4 else 2

/-- A descriptor parcel and its extension parcels (R300). -/
def Isa.opd (z : Nat) : List Nat → Dec Opd
  | [] => .more
  | p :: t =>
    let r := BitVec.ofNat 4 (p / 256)
    let arg := p % 256
    match p / 4096 % 16 with
    | 0 => if p % 4096 ≠ 0 then .bad
        else (Isa.num (Isa.immLen z) t).bind (fun v u => .ok (.imm (BitVec.ofNat 64 (if z = 0 then v % 256 else v))) u)
    | 1 => .ok (.short (BitVec.ofNat 12 p)) t
    | 2 => if p % 4096 ≠ 0 then .bad else (Isa.num 2 t).bind (fun v u => .ok (.abs (BitVec.ofNat 32 v)) u)
    | 3 => if arg ≠ 0 then .bad else .ok (.reg r) t
    | 4 => .ok (.disp r (BitVec.ofNat 8 arg)) t
    | 5 => if arg ≠ 0 then .bad else (Isa.num 2 t).bind (fun v u => .ok (.long r (BitVec.ofNat 32 v)) u)
    | 6 => if arg % 4 ≠ 0 then .bad else .ok (.idx r (BitVec.ofNat 4 (arg / 16)) (BitVec.ofNat 2 (arg / 4))) t
    | 7 => if arg = 0 then .bad else .ok (.post r (BitVec.ofNat 8 arg)) t
    | 8 => if arg ≠ 0 then .bad else .ok (.pre r) t
    | 9 => if arg % 64 = 0 then .bad else .ok (.modulo r (BitVec.ofNat 2 (arg / 64)) (BitVec.ofNat 6 arg)) t
    | 10 => if arg / 32 % 2 ≠ 0 ∨ arg % 32 = 0 ∨ 24 < arg % 32 then .bad
        else .ok (.rev r (BitVec.ofNat 2 (arg / 64)) (BitVec.ofNat 5 arg)) t
    | 11 => if arg ≠ 0 ∨ 8 ≤ p / 256 % 16 then .bad else .ok (.buf (BitVec.ofNat 3 (p / 256))) t
    | _ => .bad

/-- The parcels of an operand. -/
def Opd.encode (z : Nat) : Opd → List Nat
  | .imm v => 0 :: Isa.parcels (Isa.immLen z) v.toNat
  | .short v => [0x1000 + v.toNat]
  | .abs a => 0x2000 :: Isa.parcels 2 a.toNat
  | .reg r => [0x3000 + 256 * r.toNat]
  | .disp r d => [0x4000 + 256 * r.toNat + d.toNat]
  | .long r d => (0x5000 + 256 * r.toNat) :: Isa.parcels 2 d.toNat
  | .idx r m sc => [0x6000 + 256 * r.toNat + 16 * m.toNat + 4 * sc.toNat]
  | .post r s => [0x7000 + 256 * r.toNat + s.toNat]
  | .pre r => [0x8000 + 256 * r.toNat]
  | .modulo r k s => [0x9000 + 256 * r.toNat + 64 * k.toNat + s.toNat]
  | .rev r k b => [0xA000 + 256 * r.toNat + 64 * k.toNat + b.toNat]
  | .buf r => [0xB000 + 256 * r.toNat]

/-- Can an operand of size code `z` be encoded (R299, R300)? -/
def Opd.wf (z : Nat) : Opd → Bool
  | .imm v => decide (v.toNat < 2 ^ (8 * Isa.bytes z))
  | .post _ s => s != 0
  | .modulo _ _ s => s != 0
  | .rev _ _ b => decide (1 ≤ b.toNat ∧ b.toNat ≤ 24)
  | _ => true

/-- The operands of the given size codes, in order. -/
def Isa.opds : List Nat → List Nat → Dec (List Opd)
  | [], t => .ok [] t
  | z :: zs, t => (Isa.opd z t).bind (fun o u => (Isa.opds zs u).bind (fun l v => .ok (o :: l) v))

/-- Size codes of the operands. -/
def Isa.sizes (opc low : Nat) : List Nat := (Isa.args opc low).map (·.2)

/-- Decode an instruction (R297). -/
def Isa.decode : List Nat → Dec Op
  | [] => .more
  | p :: t =>
    let opc := p / 256 % 256
    let low := p % 256
    if !Isa.opcodeOk opc low then .bad
    else (Isa.opds (Isa.sizes opc low) t).bind (fun l u =>
      (Isa.num (Isa.dispLen opc) u).bind (fun d v => .ok ⟨BitVec.ofNat 8 opc, BitVec.ofNat 8 low, l, BitVec.ofNat 32 d⟩ v))

/-- The parcels of operands of the given size codes. -/
def Isa.encodeOpds : List Nat → List Opd → List Nat
  | z :: zs, o :: t => o.encode z ++ Isa.encodeOpds zs t
  | _, _ => []

/-- Encode an instruction (R297). -/
def Op.encode (o : Op) : List Nat :=
  (256 * o.opc.toNat + o.low.toNat) ::
    (Isa.encodeOpds (Isa.sizes o.opc.toNat o.low.toNat) o.l ++ Isa.parcels (Isa.dispLen o.opc.toNat) o.d.toNat)

/-- Every operand can be encoded in its place. -/
def Isa.opdsWf : List Nat → List Opd → Bool
  | z :: zs, o :: t => o.wf z && Isa.opdsWf zs t
  | [], [] => true
  | _, _ => false

/-- Do parcels exist that spell the instruction (R299)? -/
def Op.wf (o : Op) : Bool :=
  Isa.opcodeOk o.opc.toNat o.low.toNat && Isa.opdsWf (Isa.sizes o.opc.toNat o.low.toNat) o.l &&
    decide (o.d.toNat < 2 ^ (16 * Isa.dispLen o.opc.toNat))

/-- Is the operand defined (R299)? -/
def Opd.defined : Opd → Bool
  | .post _ s => s != 0
  | .modulo _ _ s => s != 0
  | .rev _ _ b => decide (1 ≤ b.toNat ∧ b.toNat ≤ 24)
  | _ => true

/-- The operands are as many as the opcode asks for and defined. -/
def Op.defined (o : Op) : Bool :=
  Isa.opcodeOk o.opc.toNat o.low.toNat && o.l.length == (Isa.args o.opc.toNat o.low.toNat).length && o.l.all Opd.defined

/-- Length of an instruction in parcels. -/
def Op.len (o : Op) : Nat := o.encode.length

/-- An ALU-layout instruction of an opcode, a form and its operands; a third operand selects the three-operand form. -/
def Op.alu (opc : Nat) (f : Form) (f3 : Bool) (l : List Opd) : Op :=
  ⟨BitVec.ofNat 8 opc, BitVec.ofNat 8 (32 * f.sz.toNat + 16 * b2n f.sat + 8 * b2n f3 + f.x.toNat), l, 0⟩

/-- A control-layout instruction. -/
def Op.ctl (opc low : Nat) (l : List Opd) (d : Nat) : Op := ⟨BitVec.ofNat 8 opc, BitVec.ofNat 8 low, l, BitVec.ofNat 32 d⟩

end Sys2Proof
end

