-- ==== Sys2Proof/Machine/Flags.lean ====
section
/-! DEFINITION. Integer arithmetic of the Thithigor cores and the flags it sets (spec/11 R275 to R280, spec/12 R304, R307). -/

namespace Sys2Proof.Machine

/-- What an operation answers: its result; C, Z, N and V where it sets them; DZ; the floating-point flags it raises. -/
structure Alu where
  v  : Nat
  c  : Option Bool := none
  z  : Option Bool := none
  n  : Option Bool := none
  o  : Option Bool := none
  dz : Bool := false
  ff : Nat := 0
  deriving DecidableEq, Repr

/-- What an operation works on: width in bits, size code, four lanes, .S, X, C and RM of SR, a free number, and the operand values
in operand order. -/
structure In where
  w   : Nat
  z   : Nat
  q   : Bool
  sat : Bool
  x   : Nat
  c   : Bool
  rm  : Nat
  fr  : Nat
  v   : List Nat
  deriving DecidableEq, Repr

/-- Operand value number `i`. -/
def In.arg (i : In) (k : Nat) : Nat := i.v[k]?.getD 0

/-- The first source of a binary operation: d in the two-operand form, s1 in the three-operand form (R304). -/
def In.l (i : In) : Nat := if i.v.length = 3 then i.arg 1 else i.arg 0

/-- The last source. -/
def In.r (i : In) : Nat := if i.v.length = 3 then i.arg 2 else i.arg 1

/-- Sign bit of a `w`-bit value. -/
def signBit (w v : Nat) : Bool := v.testBit (w - 1)

/-- Does an integer fit `w` signed bits? -/
def fitsS (w : Nat) (i : Int) : Bool := decide (-(2 ^ (w - 1) : Int) ≤ i ∧ i < (2 ^ (w - 1) : Int))

/-- The `w`-bit pattern of the nearest signed value. -/
def satS (w : Nat) (i : Int) : Nat := ofSigned w (clampI (-(2 ^ (w - 1) : Int)) ((2 ^ (w - 1) : Int) - 1) i)

/-- A result with Z and N. -/
def Alu.zn (w v : Nat) : Alu := { v := v, z := some (v == 0), n := some (signBit w v) }

/-- A result with Z and N, and V cleared. -/
def Alu.logic (w v : Nat) : Alu := { Alu.zn w v with o := some false }

/-- The exact result of a signed operation, wrapped or saturated, with V (R277). -/
def Alu.signed (w : Nat) (sat : Bool) (i : Int) : Alu :=
  { Alu.zn w (if sat then satS w i else ofSigned w i) with o := some (!fitsS w i) }

/-- Four 8-bit lanes (R279). -/
def Alu.lanes (f : Nat → Nat → Alu) (a b : Nat) : Alu :=
  let l := (List.range 4).map (fun i => f (bitsOf a (8 * i) 8) (bitsOf b (8 * i) 8))
  let v := leNat (l.map (·.v))
  { v := v, c := some false, z := some (v == 0), n := some false, o := some (l.any (fun r => r.o == some true)) }

/-- A binary operation, per lane for .Q. -/
def In.bin (i : In) (f : Nat → Nat → Nat → Alu) : Alu := if i.q then Alu.lanes (f 8) i.l i.r else f i.w i.l i.r

/-- A unary operation, per lane for .Q. -/
def In.una (i : In) (f : Nat → Nat → Alu) : Alu :=
  if i.q then Alu.lanes (fun a _ => f 8 a) (i.arg 1) 0 else f i.w (i.arg 1)

/-- A shift by the low byte of the last source, the same for every lane (R278) (DEDUCED, log entry 85). -/
def In.shift (i : In) (f : Nat → Nat → Nat → Alu) : Alu :=
  let n := i.r % 256
  if i.q then Alu.lanes (fun a _ => f 8 a n) i.l 0 else f i.w i.l n

/-! ### Sums -/

/-- x + y + k (R277). -/
def Alu.add (sat : Bool) (k w x y : Nat) : Alu :=
  { Alu.signed w sat (toSigned w x + toSigned w y + k) with c := some (decide (2 ^ w ≤ x + y + k)) }

/-- x − y − k; C is the borrow. -/
def Alu.sub (sat : Bool) (k w x y : Nat) : Alu :=
  { Alu.signed w sat (toSigned w x - toSigned w y - k) with c := some (decide (x < y + k)) }

/-- 0 − x. -/
def Alu.neg (sat : Bool) (w x : Nat) : Alu := { Alu.signed w sat (-(toSigned w x)) with c := some (x != 0) }

/-- Absolute value; C is not set. -/
def Alu.abs (sat : Bool) (w x : Nat) : Alu := Alu.signed w sat (toSigned w x).natAbs

/-- Minimum or maximum. -/
def Alu.pick (left : Bool) (w x y : Nat) : Alu := Alu.logic w (if left then x else y)

/-! ### Products and quotients -/

/-- Low half of the product. -/
def Alu.mul (sat : Bool) (w x y : Nat) : Alu := Alu.signed w sat (toSigned w x * toSigned w y)

/-- High half of the product, signed or unsigned. -/
def Alu.mulh (sgn : Bool) (w x y : Nat) : Alu :=
  Alu.logic w (if sgn then ofSigned w (floorDiv (toSigned w x * toSigned w y) (2 ^ w)) else x * y / 2 ^ w)

/-- Division by zero: quotient 0 or the dividend as remainder, DZ, V unchanged (R277). -/
def Alu.byZero (w v : Nat) : Alu := { Alu.zn w v with dz := true }

/-- Signed quotient or remainder, truncated toward zero. -/
def Alu.div (sat rem : Bool) (w x y : Nat) : Alu :=
  if y = 0 then Alu.byZero w (if rem then x else 0)
  else
    let a := toSigned w x
    let b := toSigned w y
    if rem then { Alu.zn w (ofSigned w (a.tmod b)) with o := some (!fitsS w (a.tdiv b)) }
    else Alu.signed w sat (a.tdiv b)

/-- Unsigned quotient or remainder. -/
def Alu.divu (rem : Bool) (w x y : Nat) : Alu :=
  if y = 0 then Alu.byZero w (if rem then x else 0) else Alu.logic w (if rem then x % y else x / y)

/-! ### Bits -/

/-- A bit of the first operand is tested; the value after the change (R304). -/
def Alu.bit (f : Nat → Nat → Nat) (w x y : Nat) : Alu :=
  let b := y % w
  { v := f x b, z := some (!x.testBit b) }

/-- Leading zeros of a `w`-bit value. -/
def leadZeros (w v : Nat) : Nat := if v = 0 then w else w - 1 - Nat.log2 v

/-- Ones of the low `w` bits. -/
def ones (w v : Nat) : Nat := ((List.range w).map (fun i => b2n (v.testBit i))).sum

/-- CLZ and POPC: N and V cleared. -/
def Alu.tally (v : Nat) : Alu := { v := v, z := some (v == 0), n := some false, o := some false }

/-! ### Shifts and rotates (R278) -/

/-- Left: V when the signed value does not fit (DEDUCED, log entry 84). -/
def Alu.shl (sat : Bool) (w x n : Nat) : Alu :=
  let i := toSigned w x * (2 ^ n : Nat)
  let v := if sat then satS w i else x * 2 ^ n % 2 ^ w
  { Alu.zn w v with c := some (n != 0 && decide (n ≤ w) && x.testBit (w - n)), o := some (!fitsS w i) }

/-- Logical right. -/
def Alu.shr (w x n : Nat) : Alu :=
  { Alu.logic w (x / 2 ^ n) with c := some (n != 0 && decide (n ≤ w) && x.testBit (n - 1)) }

/-- Arithmetic right. -/
def Alu.sar (w x n : Nat) : Alu :=
  { Alu.logic w (ofSigned w (floorDiv (toSigned w x) (2 ^ n))) with
    c := some (n != 0 && (if n < w then x.testBit (n - 1) else signBit w x)) }

/-- Rotate left by `n`; C is the last bit rotated.  At count 0 the table states no C: it is free (DESIGN CHOICE, log entry 1). -/
def Alu.rol (fr w x n : Nat) : Alu :=
  let k := n % w
  let v := (x * 2 ^ k) % 2 ^ w + x / 2 ^ (w - k)
  let v := v % 2 ^ w
  { Alu.logic w v with c := some (if n = 0 then fr.testBit 0 else v.testBit 0) }

/-- Rotate right. -/
def Alu.ror (fr w x n : Nat) : Alu :=
  let r := Alu.rol fr w x ((w - n % w) % w)
  { Alu.logic w r.v with c := some (if n = 0 then fr.testBit 0 else signBit w r.v) }

/-! ### Flags -/

/-- Store a flag where an operation sets it. -/
def putFlag (sr i : Nat) : Option Bool → Nat
  | none => sr
  | some b => putBits sr i 1 (b2n b)

/-- SR after an operation: C, Z, N, V, the sticky SV and DZ, and the sticky floating-point flags (R275, R276). -/
def Alu.flags (r : Alu) (sr : Nat) : Nat :=
  let sr := putFlag (putFlag (putFlag (putFlag sr 0 r.c) 1 r.z) 2 r.n) 3 r.o
  let sr := if r.o = some true then putBits sr 4 1 1 else sr
  let sr := if r.dz then putBits sr 5 1 1 else sr
  sr ||| r.ff * 2 ^ 20

/-- The conditions (R307). -/
def condHolds (cond sr : Nat) : Bool :=
  let c := sr.testBit 0
  let z := sr.testBit 1
  let n := sr.testBit 2
  let v := sr.testBit 3
  match cond with
  | 0x0 => z
  | 0x1 => !z
  | 0x2 => c
  | 0x3 => !c
  | 0x4 => n
  | 0x5 => !n
  | 0x6 => v
  | 0x7 => !v
  | 0x8 => !c && !z
  | 0x9 => c || z
  | 0xA => n == v
  | 0xB => n != v
  | 0xC => !z && n == v
  | 0xD => z || n != v
  | 0xE => true
  | _ => z || n

end Sys2Proof.Machine
end

