-- ==== Sys2Proof/Machine/Fp.lean ====
section
/-! DEFINITION. IEEE 754 binary32 and binary64 arithmetic, exact and rounded once (spec/11 R281, R282, spec/12 R304, R305). -/

namespace Sys2Proof.Machine

/-- FFLAGS bits (R275): NV, FDZ, OF, UF, NX. -/
def Fp.NV : Nat := 1
def Fp.FDZ : Nat := 2
def Fp.OF : Nat := 4
def Fp.UF : Nat := 8
def Fp.NX : Nat := 16

/-- A format: precision in bits, exponent field width. -/
structure Fmt where
  p : Nat
  e : Nat
  deriving DecidableEq, Repr

/-- The format of a size code: 4 is .F, 5 is .G. -/
def Fmt.of (z : Nat) : Fmt := if z = 4 then ⟨24, 8⟩ else ⟨53, 11⟩

/-- Largest biased exponent. -/
def Fmt.top (f : Fmt) : Nat := 2 ^ f.e - 1

/-- Exponent bias. -/
def Fmt.bias (f : Fmt) : Int := (2 ^ (f.e - 1) : Nat) - 1

/-- Exponent of the least positive number. -/
def Fmt.qmin (f : Fmt) : Int := 1 - f.bias - ((f.p : Int) - 1)

/-- A number taken apart: a NaN pattern, an infinity, or ± m · 2 ^ e. -/
inductive FpV where
  | nan (signalling : Bool)
  | inf (neg : Bool)
  | fin (neg : Bool) (m : Nat) (e : Int)
  deriving DecidableEq, Repr

/-- Sign of a pattern. -/
def Fmt.sign (f : Fmt) (v : Nat) : Bool := v.testBit (f.p + f.e - 1)

/-- Take a pattern apart. -/
def Fmt.unpack (f : Fmt) (v : Nat) : FpV :=
  let s := f.sign v
  let x := bitsOf v (f.p - 1) f.e
  let m := bitsOf v 0 (f.p - 1)
  if x = f.top then (if m = 0 then .inf s else .nan (!m.testBit (f.p - 2)))
  else if x = 0 then .fin s m f.qmin
  else .fin s (m + 2 ^ (f.p - 1)) (f.qmin + (x - 1 : Nat))

/-- Is the pattern a NaN? -/
def FpV.isNan : FpV → Bool
  | .nan _ => true
  | _ => false

/-- Is the pattern a signalling NaN? -/
def FpV.isSig : FpV → Bool
  | .nan s => s
  | _ => false

/-- A pattern from sign, biased exponent and fraction. -/
def Fmt.pack (f : Fmt) (neg : Bool) (x m : Nat) : Nat := b2n neg * 2 ^ (f.p + f.e - 1) + x * 2 ^ (f.p - 1) + m

/-- An infinity. -/
def Fmt.inf (f : Fmt) (neg : Bool) : Nat := f.pack neg f.top 0

/-- A zero. -/
def Fmt.zero (f : Fmt) (neg : Bool) : Nat := f.pack neg 0 0

/-- The default NaN (R282). -/
def Fmt.nan (f : Fmt) : Nat := f.pack false f.top (2 ^ (f.p - 2))

/-- A NaN made quiet. -/
def Fmt.quiet (f : Fmt) (v : Nat) : Nat := v ||| 2 ^ (f.p - 2)

/-- A floating-point answer. -/
structure FpR where
  v  : Nat
  ff : Nat
  deriving DecidableEq, Repr

/-- Is the magnitude rounded up, for a quotient `q`, a remainder `r` of `2 ^ sh` and something below it (R275 RM)? -/
def Fp.up (rm : Nat) (neg : Bool) (q r sh : Nat) (sticky : Bool) : Bool :=
  let exact := r == 0 && !sticky
  if rm = 0 then decide (2 ^ sh < 2 * r) || (2 * r == 2 ^ sh && decide (0 < sh) && (sticky || q % 2 == 1))
  else if rm = 1 then false
  else if rm = 2 then !exact && !neg
  else !exact && neg

/-- The magnitude `m · 2 ^ e` (and a little more when `sticky`) in units of `2 ^ q`, rounded; also whether it was exact. -/
def Fp.quantize (rm : Nat) (neg : Bool) (m : Nat) (e : Int) (sticky : Bool) (q : Int) : Nat × Bool :=
  if q ≤ e then (m * 2 ^ (e - q).toNat, !sticky)
  else
    let sh := (q - e).toNat
    let n := m / 2 ^ sh
    let r := m % 2 ^ sh
    (n + b2n (Fp.up rm neg n r sh sticky), r == 0 && !sticky)

/-- Round `± m · 2 ^ e` into a format (R281): tininess after rounding, subnormal results kept (DEDUCED, log entry 89). -/
def Fmt.round (f : Fmt) (rm : Nat) (neg : Bool) (m : Nat) (e : Int) (sticky : Bool) : FpR :=
  if m = 0 then ⟨f.zero neg, 0⟩
  else
    let ex : Int := (Nat.log2 m : Int) + e
    let q0 : Int := ex - ((f.p : Int) - 1)
    let q := max q0 f.qmin
    let (n, exact) := Fp.quantize rm neg m e sticky q
    let (u, _) := Fp.quantize rm neg m e sticky q0
    let emin : Int := 1 - f.bias
    let tiny := decide (ex < emin) && !(decide (ex = emin - 1) && decide (2 ^ f.p ≤ u))
    let (n, q) := if 2 ^ f.p ≤ n then (n / 2, q + 1) else (n, q)
    let x : Nat := if n < 2 ^ (f.p - 1) then 0 else (q - f.qmin).toNat + 1
    if f.top ≤ x then
      let toInf := rm == 0 || (rm == 2 && !neg) || (rm == 3 && neg)
      ⟨if toInf then f.inf neg else f.pack neg (f.top - 1) (2 ^ (f.p - 1) - 1), Fp.OF + Fp.NX⟩
    else
      let ff := if exact then 0 else if tiny then Fp.UF + Fp.NX else Fp.NX
      ⟨f.pack neg x (n % 2 ^ (f.p - 1)), ff⟩

/-- The NaN answer of operands in order: the first NaN quieted, NV for any signalling one (R282). -/
def Fmt.nans (f : Fmt) (l : List Nat) : Option FpR :=
  match l.find? (fun v => (f.unpack v).isNan) with
  | none => none
  | some v => some ⟨f.quiet v, if l.any (fun v => (f.unpack v).isSig) then Fp.NV else 0⟩

/-- An invalid operation without a NaN operand. -/
def Fmt.invalid (f : Fmt) : FpR := ⟨f.nan, Fp.NV⟩

/-- Sign of an exact zero sum of opposite signs (R282). -/
def Fp.zeroSign (rm : Nat) : Bool := rm == 3

/-- Sum of two finite numbers, rounded once. -/
def Fmt.sum (f : Fmt) (rm : Nat) (na : Bool) (ma : Nat) (ea : Int) (nb : Bool) (mb : Nat) (eb : Int) : FpR :=
  let e := min ea eb
  let a := ma * 2 ^ (ea - e).toNat
  let b := mb * 2 ^ (eb - e).toNat
  let i : Int := (if na then -(a : Int) else a) + (if nb then -(b : Int) else b)
  if i = 0 then ⟨f.zero (if na = nb then na else Fp.zeroSign rm), 0⟩
  else f.round rm (decide (i < 0)) i.natAbs e false

/-- a + b. -/
def Fp.add (f : Fmt) (rm a b : Nat) : FpR :=
  match f.nans [a, b] with
  | some r => r
  | none =>
    match f.unpack a, f.unpack b with
    | .inf s, .inf t => if s = t then ⟨f.inf s, 0⟩ else f.invalid
    | .inf s, _ => ⟨f.inf s, 0⟩
    | _, .inf t => ⟨f.inf t, 0⟩
    | .fin s m e, .fin t n d => f.sum rm s m e t n d
    | _, _ => f.invalid

/-- The pattern with its sign inverted. -/
def Fmt.flip (f : Fmt) (v : Nat) : Nat := v ^^^ 2 ^ (f.p + f.e - 1)

/-- a − b. -/
def Fp.sub (f : Fmt) (rm a b : Nat) : FpR :=
  match f.nans [a, b] with
  | some r => r
  | none => Fp.add f rm a (f.flip b)

/-- a × b. -/
def Fp.mul (f : Fmt) (rm a b : Nat) : FpR :=
  match f.nans [a, b] with
  | some r => r
  | none =>
    match f.unpack a, f.unpack b with
    | .inf s, .inf t => ⟨f.inf (s != t), 0⟩
    | .inf s, .fin t n _ => if n = 0 then f.invalid else ⟨f.inf (s != t), 0⟩
    | .fin s m _, .inf t => if m = 0 then f.invalid else ⟨f.inf (s != t), 0⟩
    | .fin s m e, .fin t n d => f.round rm (s != t) (m * n) (e + d) false
    | _, _ => f.invalid

/-- a ÷ b. -/
def Fp.div (f : Fmt) (rm a b : Nat) : FpR :=
  match f.nans [a, b] with
  | some r => r
  | none =>
    match f.unpack a, f.unpack b with
    | .inf _, .inf _ => f.invalid
    | .inf s, .fin t _ _ => ⟨f.inf (s != t), 0⟩
    | .fin s _ _, .inf t => ⟨f.zero (s != t), 0⟩
    | .fin s m e, .fin t n d =>
      if n = 0 then (if m = 0 then f.invalid else ⟨f.inf (s != t), Fp.FDZ⟩)
      else
        let k := 2 * f.p + 4
        let num := m * 2 ^ k
        if m = 0 then ⟨f.zero (s != t), 0⟩
        else f.round rm (s != t) (num / n) (e - d - k) (num % n != 0)
    | _, _ => f.invalid

/-- √a. -/
def Fp.sqrt (f : Fmt) (rm a : Nat) : FpR :=
  match f.nans [a] with
  | some r => r
  | none =>
    match f.unpack a with
    | .inf false => ⟨f.inf false, 0⟩
    | .fin s m e =>
      if m = 0 then ⟨f.zero s, 0⟩
      else if s then f.invalid
      else
        let k := 2 * f.p + 4 + ((e % 2).toNat)
        let num := m * 2 ^ k
        let r := Nat.sqrt num
        f.round rm false r ((e - k) / 2) (r * r != num)
    | _ => f.invalid

/-- d + a × b, rounded once. -/
def Fp.fma (f : Fmt) (rm d a b : Nat) : FpR :=
  match f.nans [d, a, b] with
  | some r => r
  | none =>
    let zeroInf (x y : FpV) : Bool := match x, y with
      | .inf _, .fin _ m _ => m == 0
      | _, _ => false
    let ua := f.unpack a
    let ub := f.unpack b
    let sp := f.sign a != f.sign b
    if zeroInf ua ub || zeroInf ub ua then f.invalid
    else
      match f.unpack d, ua, ub with
      | .fin sd m e, .fin _ ma ea, .fin _ mb eb => f.sum rm sd m e sp (ma * mb) (ea + eb)
      | .inf sd, .fin _ _ _, .fin _ _ _ => ⟨f.inf sd, 0⟩
      | .inf sd, _, _ => if sd = sp then ⟨f.inf sd, 0⟩ else f.invalid
      | _, _, _ => ⟨f.inf sp, 0⟩

/-- The order of two numbers that are no NaN: a key that rises with the value, −0 below +0. -/
def Fmt.key (f : Fmt) (v : Nat) : Int :=
  let m := bitsOf v 0 (f.p + f.e - 1)
  if f.sign v then -(m : Int) - 1 else m

/-- FMIN or FMAX: −0 ranks below +0. -/
def Fp.pick (f : Fmt) (least : Bool) (a b : Nat) : FpR :=
  match f.nans [a, b] with
  | some r => r
  | none => ⟨if decide (f.key a ≤ f.key b) = least then a else b, 0⟩

/-- FABS or FNEG: the sign bit cleared or inverted; NaN operands under R282. -/
def Fp.sgn (f : Fmt) (neg : Bool) (a : Nat) : FpR :=
  match f.nans [a] with
  | some r => r
  | none => ⟨if neg then f.flip a else bitsOf a 0 (f.p + f.e - 1), 0⟩

/-- Value of a number for comparison: +0 and −0 are equal. -/
def Fmt.rank (f : Fmt) (v : Nat) : Int :=
  let m := bitsOf v 0 (f.p + f.e - 1)
  if f.sign v then -(m : Int) else m

/-- FCMP's flags (R282, R305). -/
def Fp.cmp (f : Fmt) (ordered : Bool) (d s : Nat) : Alu :=
  let a := f.unpack d
  let b := f.unpack s
  if a.isNan || b.isNan then
    { v := 0, c := some true, z := some false, n := some false, o := some true,
      ff := if ordered || a.isSig || b.isSig then Fp.NV else 0 }
  else
    let lt := decide (f.rank d < f.rank s)
    { v := 0, c := some lt, z := some (f.rank d == f.rank s), n := some lt, o := some false }

/-- An integer as a floating-point number. -/
def Fp.ofInt (f : Fmt) (rm : Nat) (i : Int) : FpR := f.round rm (decide (i < 0)) i.natAbs 0 false

/-- A floating-point number as an integer between `lo` and `hi`, as `w` bits (R282). -/
def Fp.toInt (f : Fmt) (rm w : Nat) (lo hi : Int) (a : Nat) : FpR :=
  let out (neg : Bool) : FpR := ⟨ofSigned w (if neg then lo else hi), Fp.NV⟩
  match f.unpack a with
  | .nan _ => ⟨0, Fp.NV⟩
  | .inf s => out s
  | .fin s m e =>
    let (n, exact) := Fp.quantize rm s m e false 0
    let i : Int := if s then -(n : Int) else n
    if i < lo ∨ hi < i then out s else ⟨ofSigned w i, if exact then 0 else Fp.NX⟩

/-- Between formats: a NaN keeps its sign and its leading payload bits (PRESUMED, log entry 21). -/
def Fp.reformat (f g : Fmt) (rm a : Nat) : FpR :=
  match f.unpack a with
  | .nan s =>
    let q := f.quiet a
    let m := bitsOf q 0 (f.p - 1)
    let m := if g.p ≤ f.p then m / 2 ^ (f.p - g.p) else m * 2 ^ (g.p - f.p)
    ⟨g.pack (f.sign a) g.top m, if s then Fp.NV else 0⟩
  | .inf s => ⟨g.inf s, 0⟩
  | .fin s m e => g.round rm s m e false

/-- A floating-point answer as an operation's answer. -/
def FpR.alu (r : FpR) : Alu := { v := r.v, ff := r.ff }

/-- A binary floating-point operation. -/
def In.fbin (i : In) (f : Fmt → Nat → Nat → Nat → FpR) : Alu := (f (Fmt.of i.z) i.rm i.l i.r).alu

/-- CVT and CVTU: d of size SZ, s of size X (R304). -/
def In.cvt (i : In) (sgn : Bool) : Alu :=
  let a := i.arg 1
  let w := i.w
  if i.z < 4 then
    let lo : Int := if sgn then -(2 ^ (w - 1) : Nat) else 0
    let hi : Int := (2 ^ (if sgn then w - 1 else w) : Nat) - 1
    (Fp.toInt (Fmt.of i.x) i.rm w lo hi a).alu
  else if i.x < 4 then (Fp.ofInt (Fmt.of i.z) i.rm (if sgn then toSigned (8 * Isa.bytes i.x) a else (a : Int))).alu
  else (Fp.reformat (Fmt.of i.x) (Fmt.of i.z) i.rm a).alu

end Sys2Proof.Machine
end

