-- ==== Sys2Proof/Machine/Operands.lean ====
section
/-! DEFINITION. The Thithigor addressing modes: where an operand is and what its register update is (spec/12 R300 to R303). -/

namespace Sys2Proof.Machine

/-- Where an operand is: a value, an address register or buffer register (with the value it has there), or memory. -/
inductive Loc where
  | val (v : Nat)
  | a (r v : Nat)
  | buf (r v : Nat)
  | mem (a : Nat)
  deriving DecidableEq, Repr

/-- Address register `r`. -/
def CoreSt.aN (k : CoreSt) (r : Nat) : Nat := (k.a[r]?.getD 0).toNat

/-- Write address register `r`. -/
def CoreSt.setA (k : CoreSt) (r v : Nat) : CoreSt := { k with a := k.a.setIfInBounds r (BitVec.ofNat 32 v) }

/-- MB0 to MB3 are 0 to 3, ML0 to ML3 are 4 to 7 (R300, mode 0xB). -/
def CoreSt.bufN (k : CoreSt) (r : Nat) : Nat := if r < 4 then (k.mb[r]?.getD 0).toNat else (k.ml[r - 4]?.getD 0).toNat

/-- Write a buffer register. -/
def CoreSt.setBuf (k : CoreSt) (r v : Nat) : CoreSt :=
  if r < 4 then { k with mb := k.mb.setIfInBounds r (BitVec.ofNat 32 v) }
  else { k with ml := k.ml.setIfInBounds (r - 4) (BitVec.ofNat 32 v) }

/-- An operand's place, the core after its register update, and the values the update writes to A15. -/
structure Placed where
  loc : Loc
  k   : CoreSt
  sp  : List Nat
  deriving DecidableEq, Repr

/-- An operand without register update. -/
def CoreSt.placed (k : CoreSt) (l : Loc) : Placed := ⟨l, k, []⟩

/-- A memory operand at `addr` that updates An to `v`. -/
def CoreSt.bumped (k : CoreSt) (addr r v : Nat) : Placed := ⟨.mem addr, k.setA r v, if r = 15 then [v] else []⟩

/-- Address arithmetic wraps modulo 2^32 (R300). -/
def wrap32 (i : Int) : Nat := ofSigned 32 i

/-- The modulo update (R301): An drawn into the buffer of base `mb` and length `l`, moved by `st` bytes. -/
def moduloNext (an mb l : Nat) (st : Int) : Nat :=
  if l = 0 then wrap32 (an + st)
  else
    let t := wrap32 ((an : Int) - mb)
    wrap32 (mb + ((t : Int) + st) % (l : Int))

/-- The low `b` bits of a number in reverse order. -/
def revBits : Nat → Nat → Nat
  | 0, _ => 0
  | b + 1, v => v % 2 * 2 ^ b + revBits b (v / 2)

/-- The bit-reversed update (R302): elements of 2 ^ p bytes, b offset bits. -/
def reversedNext (an mb b p : Nat) : Nat :=
  let o := wrap32 ((an : Int) - mb) / 2 ^ p % 2 ^ b
  let o' := revBits b ((revBits b o + 1) % 2 ^ b)
  wrap32 (mb + (o' * 2 ^ p : Nat))

/-- Value of a short immediate (R300, mode 1). -/
def shortValue (z : Nat) (v : BitVec 12) : Nat :=
  if z = 4 ∨ z = 5 then (Fp.ofInt (Fmt.of z) 0 (toSigned 12 v.toNat)).v else ofSigned (8 * Isa.bytes z) (toSigned 12 v.toNat)

/-- The place of an operand of size code `z` (R300 to R302). -/
def CoreSt.place (k : CoreSt) (z : Nat) : Opd → Placed
  | .imm v => k.placed (.val (v.toNat % 2 ^ (8 * Isa.bytes z)))
  | .short v => k.placed (.val (shortValue z v))
  | .abs a => k.placed (.mem a.toNat)
  | .reg r => k.placed (.a r.toNat (k.aN r.toNat))
  | .disp r d => k.placed (.mem (wrap32 (k.aN r.toNat + toSigned 8 d.toNat * Isa.bytes z)))
  | .long r d => k.placed (.mem ((k.aN r.toNat + d.toNat) % 2 ^ 32))
  | .idx r m sc => k.placed (.mem ((k.aN r.toNat + k.aN m.toNat * 2 ^ sc.toNat) % 2 ^ 32))
  | .post r s => k.bumped (k.aN r.toNat) r.toNat (wrap32 (k.aN r.toNat + toSigned 8 s.toNat * Isa.bytes z))
  | .pre r =>
    let v := wrap32 (k.aN r.toNat - (Isa.bytes z : Int))
    k.bumped v r.toNat v
  | .modulo r b s =>
    k.bumped (k.aN r.toNat) r.toNat
      (moduloNext (k.aN r.toNat) (k.bufN b.toNat) (k.bufN (4 + b.toNat)) (toSigned 6 s.toNat * Isa.bytes z))
  | .rev r b n => k.bumped (k.aN r.toNat) r.toNat (reversedNext (k.aN r.toNat) (k.bufN b.toNat) n.toNat (Nat.log2 (Isa.bytes z)))
  | .buf r => k.placed (.buf r.toNat (k.bufN r.toNat))

/-- A placed operand of an instruction: its role, its size code and where it is. -/
structure Arg where
  role : Role
  z    : Nat
  loc  : Loc
  deriving DecidableEq, Repr

/-- Stage 1 of R303: the places of all operands in order, each update before the next place. -/
def CoreSt.places (k : CoreSt) : List Opd → List (Role × Nat) → List Arg × CoreSt × List Nat
  | o :: t, x :: u =>
    let p := k.place x.2 o
    let (l, k', sp) := CoreSt.places p.k t u
    (⟨x.1, x.2, p.loc⟩ :: l, k', p.sp ++ sp)
  | _, _ => ([], k, [])

/-- Is a value written to A15 below the stack limit (R283, STACK)? -/
def CoreSt.below (k : CoreSt) (v : Nat) : Bool := k.crN 7 != 0 && decide (v < k.crN 7)

end Sys2Proof.Machine
end

