-- ==== Sys2Proof/Machine/Cpu.lean ====
section
/-! DEFINITION. How a Thithigor core runs an instruction: caches, write buffer and ordered register accesses (spec/11 R265 to R274),
fetching and decoding, checks in the order of R285, the stages of R303, retirement and repeats (R286, R310), single steps. -/

namespace Sys2Proof.Machine

/-- Why an instruction does not retire now: an exception (with the line of an uncorrectable word and sticky SR bits it sets), a
breakpoint or watchpoint that halts, a register access that is held, or a wait for the fabric. -/
inductive Stop where
  | exc (e : Exc) (ecc : Option Nat) (sticky : Nat)
  | halt (cause : Nat)
  | held (h : Held)
  | wait
  deriving DecidableEq, Repr

/-- An exception without side information. -/
def Stop.plain (code eaddr : Nat) : Stop := .exc (Exc.plain code eaddr) none 0

/-- A step of a core's instruction. -/
abbrev Run (α : Type) := Except Stop α

/-! ### Addresses and caches -/

/-- The one home of a core's address: its own TLM lies at its global alias (R24). -/
def Cpu.home (c a : Nat) : Nat := if a < 0x40000 then 0x30000000 + c * 0x100000 + a else a

/-- Cache set of an address (R266: 32 KB, 4 ways, 32-byte lines). -/
def Cpu.set (c a : Nat) : Nat := c * 256 + a / 32 % 256

/-- Lines that a set of the data cache holds, most recently used first. -/
def Cpu.dcLines (s : State) (c a : Nat) : List Nat := Tab.get (fun _ => []) s.dcache (Cpu.set c a)

/-- Does the data cache hold the line of an address? -/
def Cpu.dcHit (s : State) (c a : Nat) : Bool := decide (a / 32 * 32 ∈ Cpu.dcLines s c a)

/-- The line becomes the most recently used of four (R266). -/
def Cpu.dcTouch (s : State) (c a : Nat) : State :=
  let l := a / 32 * 32
  { s with dcache := Tab.set (fun _ => []) s.dcache (Cpu.set c a) ((l :: (Cpu.dcLines s c a).filter (· ≠ l)).take 4) }

/-- Lines that a set of the instruction cache holds. -/
def Cpu.icLines (s : State) (c a : Nat) : List (Nat × BitVec 256) := Tab.get (fun _ => []) s.icache (Cpu.set c a)

/-- An instruction line becomes the most recently used of four. -/
def Cpu.icPut (s : State) (c a : Nat) (bytes : BitVec 256) : State :=
  let l := a / 32 * 32
  let rest := (Cpu.icLines s c a).filter (fun x => x.1 ≠ l)
  { s with icache := Tab.set (fun _ => []) s.icache (Cpu.set c a) (((l, bytes) :: rest).take 4) }

/-- Does a word of `[a, a + n)` hold an uncorrectable value? -/
def State.eccDead (s : State) (a n : Nat) : Bool := (ecwOf a n).any (fun w => s.eccOf w == some true)

/-- Fetch one parcel (R265, R266, R274). -/
def Cpu.fetchParcel (s : State) (c a : Nat) : Run (Nat × State) :=
  match rangeOf a with
  | .own => .ok (s.numAt (Cpu.home c a) 2, s)
  | .rom | .sram | .flash =>
    if !s.running .fabric then .error .wait
    else
      let line := a / 32 * 32
      match (Cpu.icLines s c a).find? (fun x => x.1 == line) with
      | some x => .ok (bitsOf x.2.toNat (8 * (a % 32)) 16, Cpu.icPut s c a x.2)
      | none =>
        if s.flashWaits a then .error .wait
        else
        let s := s.count (Cpu.b c) CoreP.IC_MISS_COUNT
        let bytes := s.numAt line 32
        let v := bitsOf bytes (8 * (a % 32)) 16
        if rangeOf a = .sram then
          if s.eccDead a 2 then .error (.exc (Exc.plain 0x0B a) (some line) 0)
          else
            let (s, good) := s.eccRead line 32
            .ok (v, if good then Cpu.icPut s c a (BitVec.ofNat 256 bytes) else s)
        else .ok (v, Cpu.icPut s c a (BitVec.ofNat 256 bytes))
  | _ => .error (.plain 0x08 a)

/-- Fetch `n` parcels from `a`. -/
def Cpu.fetchAll (s : State) (c a : Nat) : Nat → Run State
  | 0 => .ok s
  | n + 1 =>
    match Cpu.fetchParcel s c (a % 2 ^ 32) with
    | .error x => .error x
    | .ok (_, s) => Cpu.fetchAll s c (a + 2) n

/-- Fetch and decode the instruction at `a`, one parcel at a time (R297). -/
def Cpu.decodeAt (c a : Nat) : Nat → List Nat → State → Run (Op × State)
  | 0, _, _ => .error (.plain 0x01 0)
  | n + 1, ps, s =>
    match Isa.decode ps with
    | .ok op _ => .ok (op, s)
    | .bad => .error (.plain 0x01 0)
    | .more =>
      match Cpu.fetchParcel s c ((a + 2 * ps.length) % 2 ^ 32) with
      | .error x => .error x
      | .ok (p, s) => Cpu.decodeAt c a n (ps ++ [p]) s

/-! ### Loads and stores -/

/-- The byte of an address that core `c`'s write buffer holds (R268). -/
def Cpu.forwarded (s : State) (c a : Nat) : Option Nat :=
  ((s.wb c).find? (fun e => e.line == a / 32 * 32 && e.mask.getLsbD (a % 32))).map (fun e => bitsOf e.data.toNat (8 * (a % 32)) 8)

/-- The newest byte that core `c` sees at a home address. -/
def Cpu.byteOf (s : State) (c a : Nat) : Nat := (Cpu.forwarded s c a).getD (s.byte a).toNat

/-- The newest `n` bytes at a home address. -/
def Cpu.value (s : State) (c a n : Nat) : Nat := leNat ((List.range n).map (fun i => Cpu.byteOf s c (a + i)))

/-- A data cache access of a load: a hit is used, a miss counts and fills the line unless it holds an uncorrectable word. -/
def Cpu.dcLoad (s : State) (c a : Nat) : State :=
  if Cpu.dcHit s c a then Cpu.dcTouch s c a
  else
    let s := s.count (Cpu.b c) CoreP.DC_MISS_COUNT
    if rangeOf a = .sram then
      let (s, good) := s.eccRead (a / 32 * 32) 32
      if good then Cpu.dcTouch s c a else s
    else Cpu.dcTouch s c a

/-- Load `n` bytes (R265, R268, R270); the address has been checked. -/
def Cpu.load (s : State) (c a n : Nat) : Run (Nat × State) :=
  match rangeFor a n with
  | .own | .tlm _ => .ok (Cpu.value s c (Cpu.home c a) n, s)
  | .regs =>
    match Bus.readN (s.drainAll c) c a n with
    | (.ok v, s) => .ok (v, s)
    | (.held, _) => .error (.held ⟨16 + c, a, false, 0, n⟩)
    | (.err, _) => .error (.plain 0x09 a)
  | .none => .error (.plain 0x09 a)
  | _ => .ok (Cpu.value s c a n, Cpu.dcLoad s c a)

/-- A store enters the write buffer: merged into its line's entry, or a new entry; a full buffer first drains one entry, which
counts in WB_STALL (R267; the count of clocks is free). -/
def Cpu.wbPut (s : State) (c a n v : Nat) : State :=
  let line := a / 32 * 32
  let o := a % 32
  let m := (2 ^ n - 1) * 2 ^ o
  match (s.wb c).find? (fun e => e.line == line) with
  | some _ =>
    s.setWb c ((s.wb c).map (fun e =>
      if e.line = line then
        ⟨line, e.mask ||| BitVec.ofNat 32 m, BitVec.ofNat 256 (putBits e.data.toNat (8 * o) (8 * n) v)⟩
      else e))
  | none =>
    let s :=
      if (s.wb c).length < 8 then s
      else
        let (d, s) := s.draw 200
        let b := Cpu.b c
        let s := s.put b CoreP.WB_STALL_COUNT (min (s.get b CoreP.WB_STALL_COUNT + 1 + d) (2 ^ 32 - 1))
        match s.wb c with
        | [] => s
        | e :: _ => s.drainLine c e.line
    s.setWb c (s.wb c ++ [⟨line, BitVec.ofNat 32 m, BitVec.ofNat 256 (v % 2 ^ (8 * n) * 2 ^ (8 * o))⟩])

/-- Store `n` bytes (R265 to R268, R270); the address has been checked. -/
def Cpu.storeTo (s : State) (c a n v : Nat) : Run State :=
  match rangeFor a n with
  | .own =>
    let h := Cpu.home c a
    .ok ((s.drainLine c (h / 32 * 32)).store (some c) h (leBytes n v))
  | .tlm _ => .ok (Cpu.wbPut s c a n v)
  | .sram => .ok (Cpu.wbPut (if Cpu.dcHit s c a then Cpu.dcTouch s c a else s) c a n v)
  | .regs =>
    match Bus.writeN (s.drainAll c) c a n v with
    | (.ok _, s) => .ok s
    | (.held, _) => .error (.held ⟨16 + c, a, true, v, n⟩)
    | (.err, _) => .error (.plain 0x0A a)
  | _ => .error (.plain 0x0A a)

/-- The read of an atomic access: the write buffer drains, the bytes come from memory itself, and every data cache drops the line
(R273). -/
def Cpu.atomicLoad (s : State) (c a n : Nat) : Nat × State :=
  let s := s.drainAll c
  let h := Cpu.home c a
  let s := if rangeOf a = .sram then (s.eccRead a n).1 else s
  (s.numAt h n, s.invalidate none h n)

/-- The write of an atomic access. -/
def Cpu.atomicStore (s : State) (c a n v : Nat) : State := s.store none (Cpu.home c a) (leBytes n v)

/-! ### Checks before anything takes effect (R283, R285) -/

/-- Does a watchpoint watch an access of `[a, a + n)` (R295, R296)? -/
def Cpu.watched (s : State) (c a n : Nat) (rd wr : Bool) : Bool :=
  (List.range 2).any (fun w =>
    let b := Cpu.b c + 8 * w
    let sz := 2 ^ s.get b CoreP.WP_CTL_SIZE
    let base := s.get b CoreP.WP_ADDR_ADDR / sz * sz
    let rw := s.get b CoreP.WP_CTL_RW
    s.flag b CoreP.WP_CTL_EN && ((rd && rw.testBit 0) || (wr && rw.testBit 1)) && decide (a < base + sz ∧ base < a + n))

/-- Is a breakpoint armed at an address? -/
def Cpu.breakAt (s : State) (c pc : Nat) : Bool :=
  (List.range 4).any (fun i =>
    let b := Cpu.b c + 8 * i
    s.flag b CoreP.BP_EN && 2 * s.get b CoreP.BP_ADDR == pc)

/-- A breakpoint or watchpoint hit: halt, or BREAK or WATCH (R293). -/
def Cpu.hit (s : State) (c : Nat) (watch : Bool) (a : Nat) : Stop :=
  if s.flag (Cpu.b c) CoreP.CORE_CTL_HALT_ON_BP then .halt (if watch then 4 else 3)
  else if watch then .plain 0x1A a else .plain 0x19 0

/-- Does a load of `[a, a + n)` use an uncorrectable word (R274)? (DEDUCED, log entry 88) -/
def Cpu.eccUsed (s : State) (c a n : Nat) (atomic : Bool) : Bool :=
  if atomic then (s.drainAll c).eccDead a n
  else !Cpu.dcHit s c a &&
    (List.range n).any (fun i => (Cpu.forwarded s c (a + i)).isNone && s.eccOf ((a + i) / 8 * 8) == some true)

/-- Is a store to `[a, a + n)` a bus error (R265, R345)? -/
def Cpu.badStore (s : State) (a n : Nat) : Bool :=
  match rangeFor a n with
  | .own | .tlm _ | .regs => false
  | .sram => s.bayLocked a n
  | _ => true

/-- The first cause of R285's fourth group that an operand of `n` bytes at `a` meets; `len` bytes are accessed. -/
def Cpu.checkMem (s : State) (c a n len : Nat) (rd wr atomic : Bool) : Option Stop :=
  let r := rangeFor a len
  let way := if r = .regs then Bus.way s c a else .err
  let atomicOk := match r with
    | .own | .sram | .tlm _ => true
    | _ => false
  if a % n ≠ 0 then some (.plain 0x04 a)
  else if atomic && !atomicOk then some (.plain 0x06 a)
  else if r ≠ .own ∧ r ≠ .none ∧ (!s.running .fabric ∨ (s.flashWaits a ∧ !Cpu.dcHit s c a)) then some .wait
  else if way = .held then some (.held ⟨16 + c, a, !rd, 0, n⟩)
  else if rd && (r == .none || (r == .regs && way == .err)) then some (.plain 0x09 a)
  else if rd && r == .sram && Cpu.eccUsed s c a len atomic then some (.exc (Exc.plain 0x0C a) (some (a / 32 * 32)) 0)
  else if Cpu.watched s c a len rd wr then some (Cpu.hit s c true a)
  else if wr && (Cpu.badStore s a len || (r == .regs && way == .err)) then some (.plain 0x0A a)
  else none

/-- Check a placed operand. -/
def Arg.check (s : State) (c : Nat) (x : Arg) : Option Stop :=
  match x.loc with
  | .mem a =>
    let n := Isa.bytes x.z
    match x.role with
    | .src | .cmp | .cas => Cpu.checkMem s c a n n true false false
    | .dst => Cpu.checkMem s c a n n false true false
    | .mod => Cpu.checkMem s c a n n true true false
    | .atom => Cpu.checkMem s c a n n true true true
    | .save => Cpu.checkMem s c a n 16 false true false
    | .restore => Cpu.checkMem s c a n 16 true false false
    | .addr => none
  | _ => none

/-- Stage 1 of R303 with its checks: places, operand accesses in order, then the stack limit (R285). -/
def Cpu.operands (s : State) (c : Nat) (l : List Opd) (u : List (Role × Nat)) : Run (List Arg × State) :=
  let k := s.core c
  let (args, k', sp) := k.places l u
  match args.findSome? (Arg.check s c) with
  | some x => .error x
  | none =>
    match sp.find? k.below with
    | some v => .error (.plain 0x12 v)
    | none => .ok (args, s.setCore c k')

/-- Read one operand (stage 2 of R303); an address operand answers its address. -/
def Arg.read (s : State) (c : Nat) (x : Arg) : Run (Nat × State) :=
  match x.loc with
  | .val v => .ok (v, s)
  | .a _ v => .ok (v, s)
  | .buf _ v => .ok (v, s)
  | .mem a =>
    let n := Isa.bytes x.z
    match x.role with
    | .dst | .save => .ok (0, s)
    | .addr => .ok (a, s)
    | .atom => .ok (Cpu.atomicLoad s c a n)
    | .restore =>
      match Cpu.load s c a 8 with
      | .error e => .error e
      | .ok (lo, s) =>
        match Cpu.load s c (a + 8) 8 with
        | .error e => .error e
        | .ok (hi, s) => .ok (lo + 2 ^ 64 * (hi % 2 ^ 16), s)
    | _ => Cpu.load s c a n

/-- Read the operands in order. -/
def Cpu.reads (c : Nat) : List Arg → State → Run (List Nat × State)
  | [], s => .ok ([], s)
  | x :: t, s =>
    match x.read s c with
    | .error e => .error e
    | .ok (v, s) =>
      match Cpu.reads c t s with
      | .error e => .error e
      | .ok (l, s) => .ok (v :: l, s)

/-- Write one operand (stage 3 of R303). -/
def Arg.write (s : State) (c : Nat) (x : Arg) (v : Nat) : Run State :=
  match x.loc with
  | .val _ => .ok s
  | .a r _ =>
    let v := v % 2 ^ 32
    if r = 15 ∧ (s.core c).below v then .error (.plain 0x12 v) else .ok (s.modCore c (fun k => k.setA r v))
  | .buf r _ => .ok (s.modCore c (fun k => k.setBuf r v))
  | .mem a =>
    let n := Isa.bytes x.z
    match x.role with
    | .atom => .ok (Cpu.atomicStore s c a n v)
    | .save =>
      match Cpu.storeTo s c a 8 (v % 2 ^ 64) with
      | .error e => .error e
      | .ok s => Cpu.storeTo s c (a + 8) 8 (ofSigned 64 (toSigned 16 (v / 2 ^ 64)))
    | _ => Cpu.storeTo s c a n (v % 2 ^ (8 * n))

/-! ### What an instruction does -/

/-- An instruction that completes: the state, a transfer of control, and the exception it is there to raise (SYS, BKPT). -/
structure Done where
  s   : State
  pc  : Option Nat := none
  exc : Option Exc := none
  deriving DecidableEq, Repr

/-- What an instruction does on core `c` after its fetch; `next` follows it. -/
abbrev Act := State → Nat → Op → Nat → Run Done

/-- What an ALU operation works on. -/
def Cpu.input (k : CoreSt) (op : Op) (fr : Nat) (v : List Nat) : In :=
  let low := op.low.toNat
  let z := Isa.sz low
  ⟨8 * Isa.bytes z, z, z == 6, Isa.sat low, Isa.x low, k.sr 0, bitsOf (k.crN 0) 16 2, fr, v⟩

/-- The exception of an answer: DIV_ZERO with TRAP_DZ, FP_TRAP with FTRAP (R277, R281). -/
def Alu.trap (r : Alu) (sr : Nat) : Option Stop :=
  let t := r.ff &&& bitsOf sr 25 5
  if r.dz && sr.testBit 18 then some (.exc (Exc.plain 0x10 0) none (2 ^ 5))
  else if t ≠ 0 then some (.exc ⟨0x11, t * 2 ^ 8, 0⟩ none (r.ff * 2 ^ 20))
  else none

/-- SR of core `c` after an answer. -/
def Alu.apply (r : Alu) (s : State) (c : Nat) : State := s.modCore c (fun k => k.setCr 0 (r.flags (k.crN 0)))

/-- An ALU operation with operands in place and read: trap, result to the first operand (a compare writes nothing), flags. -/
def Alu.finish (r : Alu) (s : State) (c : Nat) (args : List Arg) : Run Done :=
  match r.trap ((s.core c).crN 0) with
  | some x => .error x
  | none =>
    match args with
    | [] => .ok { s := r.apply s c }
    | x :: _ =>
      if x.role = .cmp then .ok { s := r.apply s c }
      else
        match x.write s c r.v with
        | .error e => .error e
        | .ok s => .ok { s := r.apply s c }

/-- Place, check and read the operands of the instruction. -/
def Cpu.gather (s : State) (c : Nat) (op : Op) : Run (List Arg × List Nat × State) :=
  match Cpu.operands s c op.l (Isa.args op.opc.toNat op.low.toNat) with
  | .error e => .error e
  | .ok (args, s) =>
    match Cpu.reads c args s with
    | .error e => .error e
    | .ok (v, s) => .ok (args, v, s)

/-- An ALU instruction that computes `f` (R303, R304). -/
def Act.alu (f : In → Alu) : Act := fun s c op _ =>
  match Cpu.gather s c op with
  | .error e => .error e
  | .ok (args, v, s) => (f (Cpu.input (s.core c) op 0 v)).finish s c args

/-- An ALU instruction that leaves a flag open: it takes a free number. -/
def Act.aluFree (f : In → Alu) : Act := fun s c op _ =>
  match Cpu.gather s c op with
  | .error e => .error e
  | .ok (args, v, s) =>
    let (fr, s) := s.draw 2
    (f (Cpu.input (s.core c) op fr v)).finish s c args

/-- NOP. -/
def Act.nop : Act := fun s _ _ _ => .ok { s := s }

/-- SWAP: d and s exchanged, d atomically (R273). -/
def Act.swap : Act := fun s c op _ =>
  match Cpu.gather s c op with
  | .ok ([d, x], [vd, vs], s) =>
    match d.write s c vs with
    | .error e => .error e
    | .ok s =>
      match x.write s c vd with
      | .error e => .error e
      | .ok s => .ok { s := s }
  | .ok (_, _, s) => .ok { s := s }
  | .error e => .error e

/-- CAS: if d = s1 then d takes s2, else s1 takes the value read; Z (R273, R304). -/
def Act.cas : Act := fun s c op _ =>
  match Cpu.gather s c op with
  | .ok ([d, x, _], [vd, v1, v2], s) =>
    let z : Alu := { v := 0, z := some (vd == v1) }
    if vd = v1 then
      match d.write s c v2 with
      | .error e => .error e
      | .ok s => .ok { s := z.apply s c }
    else
      match Arg.check s c ({ x with role := .dst } : Arg) with
      | some e => .error e
      | none =>
        match ({ x with role := .dst } : Arg).write s c vd with
        | .error e => .error e
        | .ok s => .ok { s := z.apply s c }
  | .ok (_, _, s) => .ok { s := s }
  | .error e => .error e

/-! ### Accumulators (R280, R308) -/

/-- Accumulator 0 or 1 as an integer. -/
def CoreSt.acc (k : CoreSt) (i : Nat) : Int := if i = 0 then k.acc0.toInt else k.acc1.toInt

/-- Store an accumulator, wrapping modulo 2^80. -/
def CoreSt.setAcc (k : CoreSt) (i : Nat) (v : Int) : CoreSt :=
  if i = 0 then { k with acc0 := BitVec.ofInt 80 v } else { k with acc1 := BitVec.ofInt 80 v }

/-- V and SV after accumulations. -/
def Cpu.accFlags (s : State) (c : Nat) (v : Bool) : State := ({ v := 0, o := some v } : Alu).apply s c

/-- Accumulate what `f` gives for the two sources on ACCk, k in X (R308). -/
def Act.mac (f : Nat → Nat → Nat → Int) : Act := fun s c op _ =>
  match Cpu.gather s c op with
  | .error e => .error e
  | .ok (_, v, s) =>
    let i := Cpu.input (s.core c) op 0 v
    let r := (s.core c).acc i.x + f i.w (i.arg 0) (i.arg 1)
    .ok { s := Cpu.accFlags (s.modCore c (fun k => k.setAcc i.x r)) c (!fitsS 80 r) }

/-- Complex accumulate: I in [15:0], Q in [31:16]; `f` gives the two increments (R308). -/
def Act.cmac (f : Int → Int → Int → Int → Int × Int) : Act := fun s c op _ =>
  match Cpu.gather s c op with
  | .error e => .error e
  | .ok (_, v, s) =>
    let i := Cpu.input (s.core c) op 0 v
    let h (x : Nat) : Int := toSigned 16 x
    let (d0, d1) := f (h (i.arg 0)) (h (i.arg 0 / 2 ^ 16)) (h (i.arg 1)) (h (i.arg 1 / 2 ^ 16))
    let r0 := (s.core c).acc 0 + d0
    let r1 := (s.core c).acc 1 + d1
    .ok { s := Cpu.accFlags (s.modCore c (fun k => (k.setAcc 0 r0).setAcc 1 r1)) c (!fitsS 80 r0 || !fitsS 80 r1) }

/-- An accumulator is loaded with what `f` gives for the operand (ACLR, ALD, ARSTR). -/
def Act.accLoad (f : In → Int) : Act := fun s c op _ =>
  match Cpu.gather s c op with
  | .error e => .error e
  | .ok (_, v, s) =>
    let i := Cpu.input (s.core c) op 0 v
    .ok { s := s.modCore c (fun k => k.setAcc i.x (f i)) }

/-- ASAVE. -/
def Act.asave : Act := fun s c op _ =>
  match Cpu.gather s c op with
  | .ok (x :: _, _, s) =>
    match x.write s c (ofSigned 80 ((s.core c).acc (Isa.x op.low.toNat))) with
    | .error e => .error e
    | .ok s => .ok { s := s }
  | .ok (_, _, s) => .ok { s := s }
  | .error e => .error e

/-- Rounded ACC / 2 ^ sh, ties toward +∞; 0 from 80 on (R308). -/
def accRound (a : Int) (sh : Nat) : Int := if 80 ≤ sh then 0 else if sh = 0 then a else floorDiv (a + 2 ^ (sh - 1)) (2 ^ sh)

/-- AEXT: the rounded accumulator saturated to the size. -/
def Act.aext : Act := fun s c op next => Act.alu (fun i => Alu.signed i.w true (accRound ((s.core c).acc i.x) (i.arg 1 % 256))) s c op next

/-! ### Control (R306) -/

/-- A transfer to `t`, refused at an odd address (FETCH_ALIGN). -/
def Cpu.go (s : State) (t : Nat) : Run Done := if t % 2 = 1 then .error (.plain 0x05 t) else .ok { s := s, pc := some t }

/-- Bcc and BccL: `d` bytes beyond `next`. -/
def Act.branch (d : Op → Int) : Act := fun s c op next =>
  if condHolds (op.low.toNat / 16) ((s.core c).crN 0) then Cpu.go s (wrap32 (next + d op)) else .ok { s := s }

/-- The push of CALL and JSR: a .W store at the decremented A15 (R283, R300). -/
def Cpu.push (s : State) (c v : Nat) : Run State :=
  match Cpu.operands s c [.pre 15] [(.dst, 2)] with
  | .error e => .error e
  | .ok (args, s) =>
    match args with
    | x :: _ => x.write s c v
    | [] => .ok s

/-- A call of `t`. -/
def Cpu.callTo (s : State) (c t next : Nat) : Run Done :=
  if t % 2 = 1 then .error (.plain 0x05 t)
  else
    match Cpu.push s c next with
    | .error e => .error e
    | .ok s => .ok { s := s, pc := some t }

/-- CALL. -/
def Act.call : Act := fun s c op next => Cpu.callTo s c ((next + op.d.toNat) % 2 ^ 32) next

/-- JMP and JSR read their target first. -/
def Act.jump (call : Bool) : Act := fun s c op next =>
  match Cpu.gather s c op with
  | .error e => .error e
  | .ok (_, v, s) => if call then Cpu.callTo s c (v.headD 0) next else Cpu.go s (v.headD 0)

/-- RET: the target from (A15)+. -/
def Act.ret : Act := fun s c _ _ =>
  match Cpu.operands s c [.post 15 1] [(.src, 2)] with
  | .error e => .error e
  | .ok (args, s) =>
    match Cpu.reads c args s with
    | .error e => .error e
    | .ok (v, s) => Cpu.go s (v.headD 0)

/-- RTE (R288). -/
def Act.rte : Act := fun s c _ _ =>
  let t := (s.core c).crN 2
  if t % 2 = 1 then .error (.plain 0x05 t) else .ok { s := s.modCore c (fun k => { k.rte with pc := k.pc }), pc := some t }

/-- DJNZ: the register in [3:0] counts down. -/
def Act.djnz : Act := fun s c op next =>
  let r := op.low.toNat % 16
  let k := s.core c
  let v := wrap32 (k.aN r - (1 : Int))
  if r = 15 ∧ k.below v then .error (.plain 0x12 v)
  else
    let s := s.modCore c (fun k => k.setA r v)
    if v = 0 then .ok { s := s } else .ok { s := s, pc := some (wrap32 (next + 2 * toSigned 16 op.d.toNat)) }

/-- SYS: the exception with the immediate in ECAUSE [15:8] (DEDUCED, log entry 86). -/
def Act.sys : Act := fun s _ op _ => .ok { s := s, exc := some ⟨0x18, op.low.toNat, 0⟩ }

/-- BKPT. -/
def Act.bkpt : Act := fun s _ _ _ => .ok { s := s, exc := some (Exc.plain 0x19 0) }

/-- WAIT: low power until the router presents a source (R291). -/
def Act.wait : Act := fun s c _ _ => .ok { s := if (Irq.claim s c).isSome then s else Cpu.setState s c 2 }

/-- FENCE and IFENCE (R272). -/
def Act.fence (ic : Bool) : Act := fun s c _ _ => let s := s.drainAll c; .ok { s := if ic then Cpu.clearIc s c else s }

/-- MFC. -/
def Act.mfc : Act := fun s c op _ =>
  match Cpu.gather s c op with
  | .ok (x :: _, _, s') =>
    match x.write s' c ((s.core c).crN (op.low.toNat % 16)) with
    | .error e => .error e
    | .ok s => .ok { s := s }
  | .ok (_, _, s) => .ok { s := s }
  | .error e => .error e

/-- MTC. -/
def Act.mtc : Act := fun s c op _ =>
  match Cpu.gather s c op with
  | .error e => .error e
  | .ok (_, v, s) => .ok { s := s.modCore c (fun k => k.setCr (op.low.toNat % 16) (v.headD 0)) }

/-- FEAT: CPUFEATn of the core (R292). -/
def Act.feat : Act := fun s c op _ =>
  match Cpu.gather s c op with
  | .ok (x :: _, _, s) =>
    match x.write s c (s.regN (Cpu.b c + 0x0C0 + 4 * (op.low.toNat % 16))) with
    | .error e => .error e
    | .ok s => .ok { s := s }
  | .ok (_, _, s) => .ok { s := s }
  | .error e => .error e

/-- REP: the target at `next` is checked first, then LC is loaded; with 0 the target is skipped (R309, R310)
(DEDUCED, log entry 90). -/
def Act.rep : Act := fun s c op next =>
  match Cpu.decodeAt c next 17 [] s with
  | .error e => .error e
  | .ok (t, s) =>
    if t.noRepeat then .error (.plain 0x02 0)
    else if !t.accepted then .error (.plain 0x03 0)
    else
      match Cpu.gather s c op with
      | .error e => .error e
      | .ok (_, v, s) =>
        let n := v.headD 0
        let s := s.modCore c (fun k => { k.setCr 1 n with rep := n != 0 })
        .ok { s := s, pc := if n = 0 then some ((next + 2 * t.len) % 2 ^ 32) else none }

/-! ### Running an instruction -/

/-- What a stop does, from the state after the fetch (R283, R293; DEDUCED, log entry 22). -/
def Cpu.stop (s : State) (c : Nat) : Stop → State
  | .exc e ecc sticky =>
    let s := match ecc with
      | some l => (s.eccRead l 32).1
      | none => s
    Cpu.raise (s.modCore c (fun k => k.setCr 0 (k.crN 0 ||| sticky))) c e
  | .halt cause => Cpu.halt s c cause
  | .held h => s.wait h
  | .wait => s

/-- Retirement (R262, R286, R310): counters, LC and PC; then the exception the instruction is there to raise.  Where the
instruction's own store has reset the core, the reset stands. -/
def Cpu.retire (d : Done) (rep : Bool) (c pc next : Nat) : State :=
  let b := Cpu.b c
  if Cpu.state d.s c = 0 ∨ (d.s.core c).pc.toNat ≠ pc then d.s
  else
    let s := ((Cpu.unhold d.s c).countWrap b CoreP.RETIRED_COUNT).put b CoreP.PC_SAMPLE_PC pc
    let s := s.modCore c (fun k =>
      if rep then
        let lc := k.crN 1 - 1
        let k := k.setCr 1 lc
        if lc = 0 then { k with rep := false, pc := BitVec.ofNat 32 next } else k
      else { k with pc := BitVec.ofNat 32 (d.pc.getD next) })
    match d.exc with
    | none => s
    | some e => let k := s.core c; Cpu.except s c e pc k.pc.toNat k.rep

/-- Is the instruction one whose target address is known before it executes, and odd (R285, first group)? -/
def Cpu.oddTarget (k : CoreSt) (op : Op) (next : Nat) : Option Nat :=
  let n := op.opc.toNat
  let t := if n = 0x86 then k.crN 2 else (next + op.d.toNat) % 2 ^ 32
  if (n = 0x82 ∨ n = 0x86 ∨ (n = 0x81 ∧ condHolds (op.low.toNat / 16) (k.crN 0))) ∧ t % 2 = 1 then some t else none

/-- Run a fetched instruction on core `c`, causes in the order of R285 (DEDUCED, log entry 83). -/
def Cpu.attempt (s : State) (c : Nat) (op : Op) (act : Act) : State :=
  let k := s.core c
  let pc := k.pc.toNat
  let next := (pc + 2 * op.len) % 2 ^ 32
  match Cpu.oddTarget k op next with
  | some t => Cpu.stop s c (.plain 0x05 t)
  | none =>
    if Cpu.breakAt s c pc then Cpu.stop s c (Cpu.hit s c false 0)
    else if !op.defined then Cpu.stop s c (.plain 0x01 0)
    else if !op.accepted then Cpu.stop s c (.plain 0x03 0)
    else if k.rep && k.crN 1 == 0 then s.modCore c (fun k => { k with rep := false, pc := BitVec.ofNat 32 next })
    else
      match act s c op next with
      | .error x => Cpu.stop s c x
      | .ok d => Cpu.retire d k.rep c pc next

/-- Fetch the instruction's parcels at PC and run it. -/
def Cpu.run (s : State) (c : Nat) (op : Op) (act : Act) : State :=
  match Cpu.fetchAll s c (s.core c).pc.toNat op.len with
  | .error x => Cpu.stop s c x
  | .ok s => Cpu.attempt s c op act

/-- May core `c` execute: its island runs, its page is enabled and not frozen? -/
def Cpu.alive (s : State) (c : Nat) : Bool := s.running .core && s.en (Cpu.p c) && !s.frozen (Cpu.p c)

end Sys2Proof.Machine
end

