-- ==== Sys2Proof/Machine/Insn.lean ====
section
/-! DEFINITION. What each Thithigor instruction does (spec/12 R304, R306, R308), by opcode, and single steps (spec/11 R293). -/

namespace Sys2Proof.Machine

/-- NOP (R304). -/
def Ins.nop : Act := Act.nop

/-- MOV (R304): d ← s. -/
def Ins.mov : Act := Act.alu (fun i => { v := i.arg 1 })

/-- MOVSX (R304): d ← s sign-extended. -/
def Ins.movsx : Act := Act.alu (fun i => { v := ofSigned 64 (toSigned i.w (i.arg 1)) })

/-- MOVZX (R304): d ← s zero-extended. -/
def Ins.movzx : Act := Act.alu (fun i => { v := i.arg 1 })

/-- LEA (R304): d ← the address of s. -/
def Ins.lea : Act := Act.alu (fun i => { v := i.arg 1 })

/-- SWAP (R304). -/
def Ins.swap : Act := Act.swap

/-- CAS (R304). -/
def Ins.cas : Act := Act.cas

/-- ADD (R304): d + s. -/
def Ins.add : Act := Act.alu (fun i => i.bin (Alu.add i.sat 0))

/-- SUB (R304): d − s. -/
def Ins.sub : Act := Act.alu (fun i => i.bin (Alu.sub i.sat 0))

/-- ADC (R304): d + s + C. -/
def Ins.adc : Act := Act.alu (fun i => i.bin (Alu.add false (b2n i.c)))

/-- SBC (R304): d − s − C. -/
def Ins.sbc : Act := Act.alu (fun i => i.bin (Alu.sub false (b2n i.c)))

/-- NEG (R304): 0 − s. -/
def Ins.neg : Act := Act.alu (fun i => i.una (Alu.neg i.sat))

/-- ABS (R304): absolute value. -/
def Ins.abs : Act := Act.alu (fun i => i.una (Alu.abs i.sat))

/-- CMP (R304): flags of d − s. -/
def Ins.cmp : Act := Act.alu (fun i => i.bin (Alu.sub false 0))

/-- MIN (R304): signed minimum. -/
def Ins.min : Act := Act.alu (fun i => i.bin (fun w x y => Alu.pick (decide (toSigned w x ≤ toSigned w y)) w x y))

/-- MAX (R304): signed maximum. -/
def Ins.max : Act := Act.alu (fun i => i.bin (fun w x y => Alu.pick (decide (toSigned w y ≤ toSigned w x)) w x y))

/-- MINU (R304): unsigned minimum. -/
def Ins.minu : Act := Act.alu (fun i => i.bin (fun w x y => Alu.pick (decide (x ≤ y)) w x y))

/-- MAXU (R304): unsigned maximum. -/
def Ins.maxu : Act := Act.alu (fun i => i.bin (fun w x y => Alu.pick (decide (y ≤ x)) w x y))

/-- MUL (R304): low half of the product. -/
def Ins.mul : Act := Act.alu (fun i => i.bin (Alu.mul i.sat))

/-- MULH (R304): high half, signed. -/
def Ins.mulh : Act := Act.alu (fun i => i.bin (Alu.mulh true))

/-- MULHU (R304): high half, unsigned. -/
def Ins.mulhu : Act := Act.alu (fun i => i.bin (Alu.mulh false))

/-- DIV (R304): signed quotient. -/
def Ins.div : Act := Act.alu (fun i => i.bin (Alu.div i.sat false))

/-- DIVU (R304): unsigned quotient. -/
def Ins.divu : Act := Act.alu (fun i => i.bin (Alu.divu false))

/-- REM (R304): signed remainder. -/
def Ins.rem : Act := Act.alu (fun i => i.bin (Alu.div i.sat true))

/-- REMU (R304): unsigned remainder. -/
def Ins.remu : Act := Act.alu (fun i => i.bin (Alu.divu true))

/-- AND (R304). -/
def Ins.and : Act := Act.alu (fun i => i.bin (fun w x y => Alu.logic w (x &&& y)))

/-- OR (R304). -/
def Ins.or : Act := Act.alu (fun i => i.bin (fun w x y => Alu.logic w (x ||| y)))

/-- XOR (R304). -/
def Ins.xor : Act := Act.alu (fun i => i.bin (fun w x y => Alu.logic w (x ^^^ y)))

/-- NOT (R304). -/
def Ins.not : Act := Act.alu (fun i => i.una (fun w x => Alu.logic w (2 ^ w - 1 - x)))

/-- TST (R304). -/
def Ins.tst : Act := Act.alu (fun i => i.bin (fun w x y => Alu.logic w (x &&& y)))

/-- BTST (R304). -/
def Ins.btst : Act := Act.alu (fun i => i.bin (Alu.bit (fun x _ => x)))

/-- BSET (R304). -/
def Ins.bset : Act := Act.alu (fun i => i.bin (Alu.bit (fun x b => x ||| 2 ^ b)))

/-- BCLR (R304). -/
def Ins.bclr : Act := Act.alu (fun i => i.bin (Alu.bit (fun x b => if x.testBit b then x - 2 ^ b else x)))

/-- BINV (R304). -/
def Ins.binv : Act := Act.alu (fun i => i.bin (Alu.bit (fun x b => x ^^^ 2 ^ b)))

/-- CLZ (R304). -/
def Ins.clz : Act := Act.alu (fun i => Alu.tally (leadZeros i.w (i.arg 1)))

/-- POPC (R304). -/
def Ins.popc : Act := Act.alu (fun i => Alu.tally (ones i.w (i.arg 1)))

/-- SHL (R304). -/
def Ins.shl : Act := Act.alu (fun i => i.shift (Alu.shl i.sat))

/-- SHR (R304). -/
def Ins.shr : Act := Act.alu (fun i => i.shift Alu.shr)

/-- SAR (R304). -/
def Ins.sar : Act := Act.alu (fun i => i.shift Alu.sar)

/-- ROL (R304). -/
def Ins.rol : Act := Act.aluFree (fun i => i.shift (Alu.rol i.fr))

/-- ROR (R304). -/
def Ins.ror : Act := Act.aluFree (fun i => i.shift (Alu.ror i.fr))

/-- FADD (R304). -/
def Ins.fadd : Act := Act.alu (fun i => i.fbin Fp.add)

/-- FSUB (R304). -/
def Ins.fsub : Act := Act.alu (fun i => i.fbin Fp.sub)

/-- FMUL (R304). -/
def Ins.fmul : Act := Act.alu (fun i => i.fbin Fp.mul)

/-- FDIV (R304). -/
def Ins.fdiv : Act := Act.alu (fun i => i.fbin Fp.div)

/-- FSQRT (R304). -/
def Ins.fsqrt : Act := Act.alu (fun i => (Fp.sqrt (Fmt.of i.z) i.rm (i.arg 1)).alu)

/-- FMA (R304). -/
def Ins.fma : Act := Act.alu (fun i => (Fp.fma (Fmt.of i.z) i.rm (i.arg 0) (i.arg 1) (i.arg 2)).alu)

/-- FCMP (R304). -/
def Ins.fcmp : Act := Act.alu (fun i => Fp.cmp (Fmt.of i.z) (i.x == 1) (i.arg 0) (i.arg 1))

/-- FMIN (R304). -/
def Ins.fmin : Act := Act.alu (fun i => i.fbin (fun f _ => Fp.pick f true))

/-- FMAX (R304). -/
def Ins.fmax : Act := Act.alu (fun i => i.fbin (fun f _ => Fp.pick f false))

/-- FABS (R304). -/
def Ins.fabs : Act := Act.alu (fun i => (Fp.sgn (Fmt.of i.z) false (i.arg 1)).alu)

/-- FNEG (R304). -/
def Ins.fneg : Act := Act.alu (fun i => (Fp.sgn (Fmt.of i.z) true (i.arg 1)).alu)

/-- CVT (R304). -/
def Ins.cvt : Act := Act.alu (fun i => i.cvt true)

/-- CVTU (R304). -/
def Ins.cvtu : Act := Act.alu (fun i => i.cvt false)

/-- MAC (R308). -/
def Ins.mac : Act := Act.mac (fun w x y => toSigned w x * toSigned w y)

/-- MSU (R308). -/
def Ins.msu : Act := Act.mac (fun w x y => -(toSigned w x * toSigned w y))

/-- MACU (R308). -/
def Ins.macu : Act := Act.mac (fun _ x y => (x * y : Nat))

/-- CMAC (R308). -/
def Ins.cmac : Act := Act.cmac (fun i1 q1 i2 q2 => (i1 * i2 - q1 * q2, i1 * q2 + q1 * i2))

/-- CMACJ (R308). -/
def Ins.cmacj : Act := Act.cmac (fun i1 q1 i2 q2 => (i1 * i2 + q1 * q2, q1 * i2 - i1 * q2))

/-- DOT4 (R308). -/
def Ins.dot4 : Act := Act.mac (fun _ x y => ((List.range 4).map (fun i => toSigned 8 (bitsOf x (8 * i) 8) * toSigned 8 (bitsOf y (8 * i) 8))).sum)

/-- ACLR (R308). -/
def Ins.aclr : Act := Act.accLoad (fun _ => 0)

/-- ALD (R308). -/
def Ins.ald : Act := Act.accLoad (fun i => toSigned i.w (i.arg 0))

/-- AEXT (R308). -/
def Ins.aext : Act := Act.aext

/-- ASAVE (R308). -/
def Ins.asave : Act := Act.asave

/-- ARSTR (R308). -/
def Ins.arstr : Act := Act.accLoad (fun i => toSigned 80 (i.arg 0))

/-- Bcc (R306). -/
def Ins.bcc : Act := Act.branch (fun op => 2 * toSigned 16 op.d.toNat)

/-- BccL (R306). -/
def Ins.bccl : Act := Act.branch (fun op => op.d.toNat)

/-- CALL (R306). -/
def Ins.call : Act := Act.call

/-- JMP (R306). -/
def Ins.jmp : Act := Act.jump false

/-- JSR (R306). -/
def Ins.jsr : Act := Act.jump true

/-- RET (R306). -/
def Ins.ret : Act := Act.ret

/-- RTE (R306). -/
def Ins.rte : Act := Act.rte

/-- SYS (R306). -/
def Ins.sys : Act := Act.sys

/-- BKPT (R306). -/
def Ins.bkpt : Act := Act.bkpt

/-- WAIT (R306). -/
def Ins.wait : Act := Act.wait

/-- FENCE (R306). -/
def Ins.fence : Act := Act.fence false

/-- IFENCE (R306). -/
def Ins.ifence : Act := Act.fence true

/-- REP (R306). -/
def Ins.rep : Act := Act.rep

/-- MFC (R306). -/
def Ins.mfc : Act := Act.mfc

/-- MTC (R306). -/
def Ins.mtc : Act := Act.mtc

/-- FEAT (R306). -/
def Ins.feat : Act := Act.feat

/-- DJNZ (R306). -/
def Ins.djnz : Act := Act.djnz

/-- The instruction of an opcode. -/
def Isa.act (opc : Nat) : Act :=
  match opc with
  | 0x01 => Ins.mov
  | 0x02 => Ins.movsx
  | 0x03 => Ins.movzx
  | 0x04 => Ins.lea
  | 0x05 => Ins.swap
  | 0x06 => Ins.cas
  | 0x08 => Ins.add
  | 0x09 => Ins.sub
  | 0x0A => Ins.adc
  | 0x0B => Ins.sbc
  | 0x0C => Ins.neg
  | 0x0D => Ins.abs
  | 0x0E => Ins.cmp
  | 0x0F => Ins.min
  | 0x10 => Ins.max
  | 0x11 => Ins.minu
  | 0x12 => Ins.maxu
  | 0x14 => Ins.mul
  | 0x15 => Ins.mulh
  | 0x16 => Ins.mulhu
  | 0x17 => Ins.div
  | 0x18 => Ins.divu
  | 0x19 => Ins.rem
  | 0x1A => Ins.remu
  | 0x20 => Ins.and
  | 0x21 => Ins.or
  | 0x22 => Ins.xor
  | 0x23 => Ins.not
  | 0x24 => Ins.tst
  | 0x25 => Ins.btst
  | 0x26 => Ins.bset
  | 0x27 => Ins.bclr
  | 0x28 => Ins.binv
  | 0x29 => Ins.clz
  | 0x2A => Ins.popc
  | 0x30 => Ins.shl
  | 0x31 => Ins.shr
  | 0x32 => Ins.sar
  | 0x33 => Ins.rol
  | 0x34 => Ins.ror
  | 0x38 => Ins.fadd
  | 0x39 => Ins.fsub
  | 0x3A => Ins.fmul
  | 0x3B => Ins.fdiv
  | 0x3C => Ins.fsqrt
  | 0x3D => Ins.fma
  | 0x3E => Ins.fcmp
  | 0x3F => Ins.fmin
  | 0x40 => Ins.fmax
  | 0x41 => Ins.fabs
  | 0x42 => Ins.fneg
  | 0x43 => Ins.cvt
  | 0x44 => Ins.cvtu
  | 0x48 => Ins.mac
  | 0x49 => Ins.msu
  | 0x4A => Ins.macu
  | 0x4B => Ins.cmac
  | 0x4C => Ins.cmacj
  | 0x4D => Ins.dot4
  | 0x4E => Ins.aclr
  | 0x4F => Ins.ald
  | 0x50 => Ins.aext
  | 0x51 => Ins.asave
  | 0x52 => Ins.arstr
  | 0x80 => Ins.bcc
  | 0x81 => Ins.bccl
  | 0x82 => Ins.call
  | 0x83 => Ins.jmp
  | 0x84 => Ins.jsr
  | 0x85 => Ins.ret
  | 0x86 => Ins.rte
  | 0x87 => Ins.sys
  | 0x88 => Ins.bkpt
  | 0x89 => Ins.wait
  | 0x8A => Ins.fence
  | 0x8B => Ins.ifence
  | 0x8C => Ins.rep
  | 0x8D => Ins.mfc
  | 0x8E => Ins.mtc
  | 0x8F => Ins.feat
  | 0x90 => Ins.djnz
  | _ => Ins.nop

/-- STEP (R293, R311): the instruction at PC is fetched, decoded and run, one iteration of a repeat; the core is HALTED again
unless it met a double fault or waits for an access, when the step stays waiting. -/
def Cpu.stepOne (s : State) (c : Nat) : State :=
  let t := s.put (Cpu.b c) CoreP.CORE_STAT_HALT_CAUSE 0
  let pc := (s.core c).pc.toNat
  let t := match Cpu.decodeAt c pc 17 [] t with
    | .error x => Cpu.stop t c x
    | .ok (op, t) => Cpu.attempt t c op (Isa.act op.opc.toNat)
  if t.held.any (fun h => h.req == 16 + c) || ((!t.running .fabric || decide (Island.flash ∈ t.stalled)) &&
      (t.core c).pc == (s.core c).pc && t.get (Cpu.b c) CoreP.RETIRED_COUNT == s.get (Cpu.b c) CoreP.RETIRED_COUNT) then t
  else
    let t := t.modCore c (fun k => { k with step := false })
    let st := Cpu.state t c
    if (st = 2 ∨ st = 3) ∧ t.get (Cpu.b c) CoreP.CORE_STAT_HALT_CAUSE = 0 then (Cpu.halt t c 2).raise (Cpu.p c) 2 else t

/-- Carry out the steps that wait, for at most `n` rounds (a step may command another core's step)
(DEDUCED, log entry 91). -/
def Cpu.settle : Nat → State → State
  | 0, s => s
  | n + 1, s =>
    match (List.range 6).find? (fun c => (s.core c).step && Cpu.alive s c && Cpu.state s c == 3) with
    | none => s
    | some c => Cpu.settle n (Cpu.stepOne s c)

/-- One instruction of a running core, presented as a command: nothing while the core does not execute (DESIGN CHOICE, log entry 23). -/
def Cpu.row (s : State) (c : Fin 6) (op : Op) (act : Act) : State :=
  if Cpu.alive s c.val && Cpu.state s c.val == 1 then Cpu.settle 8 (Cpu.run s c.val op act) else s

end Sys2Proof.Machine
end

