-- ==== Sys2Proof/Machine/CpuEvt.lean ====
section
/-! DEFINITION. A core's events between instructions: interrupt entry, the end of WAIT, a write buffer entry that drains (spec/11
R267, R289, R291). -/

namespace Sys2Proof.Machine

/-- INTERRUPT_ENTRY (R289): a running or waiting core that holds no access takes the presented source when IE is 1, EXL is 0 and its
priority exceeds IPL. -/
def execInterruptEntry (core : Fin 6) (s : State) : Out :=
  let c := core.val
  let k := s.core c
  let st := Cpu.state s c
  match Irq.claim s c with
  | none => .next s
  | some n =>
    if Cpu.alive s c ∧ (st = 1 ∨ st = 2) ∧ k.sr 8 ∧ !k.sr 9 ∧ bitsOf (k.crN 0) 12 3 < Irq.prio s n ∧
        s.held.all (fun h => h.req != 16 + c) then
      .next (Cpu.interrupt (if st = 2 then Cpu.setState s c 1 else s) c n (Irq.prio s n))
    else .next s

/-- WAIT_END (R291): a presented source of any priority ends WAIT; the entry, if R289 allows one, is INTERRUPT_ENTRY. -/
def execWaitEnd (core : Fin 6) (s : State) : Out :=
  let c := core.val
  if Cpu.alive s c ∧ Cpu.state s c = 2 ∧ (Irq.claim s c).isSome then .next (Cpu.setState s c 1) else .next s

/-- WRITE_BUFFER_DRAIN (R267, R271): one entry drains to its target, in any order. -/
def execWriteBufferDrain (core : Fin 6) (entry : Fin 8) (s : State) : Out :=
  match (s.wb core.val)[entry.val]? with
  | none => .next s
  | some e => if s.running .fabric then .next (s.drainLine core.val e.line) else .next s

end Sys2Proof.Machine
end

