-- ==== Sys2Proof/Machine/CpuRows.lean ====
section
/-! DEFINITION. The meaning of every Thithigor instruction's row (spec/12): the core runs it at its PC (DESIGN CHOICE, log entry 23). -/

namespace Sys2Proof.Machine

/-- NOP (R304). -/
def execNop (c : Fin 6) (s₀ : State) : Out :=
  .next (Cpu.row s₀ c (Op.alu 0x00 ⟨0, false, 0⟩ false []) Ins.nop)

/-- MOV (R304). -/
def execMov (c : Fin 6) (f : Form) (d s : Opd) (t : Option Opd) (s₀ : State) : Out :=
  .next (Cpu.row s₀ c (Op.alu 0x01 f t.isSome (d :: s :: t.toList)) Ins.mov)

/-- MOVSX (R304). -/
def execMovsx (c : Fin 6) (f : Form) (d s : Opd) (t : Option Opd) (s₀ : State) : Out :=
  .next (Cpu.row s₀ c (Op.alu 0x02 f t.isSome (d :: s :: t.toList)) Ins.movsx)

/-- MOVZX (R304). -/
def execMovzx (c : Fin 6) (f : Form) (d s : Opd) (t : Option Opd) (s₀ : State) : Out :=
  .next (Cpu.row s₀ c (Op.alu 0x03 f t.isSome (d :: s :: t.toList)) Ins.movzx)

/-- LEA (R304). -/
def execLea (c : Fin 6) (f : Form) (d s : Opd) (t : Option Opd) (s₀ : State) : Out :=
  .next (Cpu.row s₀ c (Op.alu 0x04 f t.isSome (d :: s :: t.toList)) Ins.lea)

/-- SWAP (R304). -/
def execSwap (c : Fin 6) (f : Form) (d s : Opd) (t : Option Opd) (s₀ : State) : Out :=
  .next (Cpu.row s₀ c (Op.alu 0x05 f t.isSome (d :: s :: t.toList)) Ins.swap)

/-- CAS (R304). -/
def execCas (c : Fin 6) (f : Form) (d s : Opd) (t : Option Opd) (s₀ : State) : Out :=
  .next (Cpu.row s₀ c (Op.alu 0x06 f t.isSome (d :: s :: t.toList)) Ins.cas)

/-- ADD (R304). -/
def execAdd (c : Fin 6) (f : Form) (d s : Opd) (t : Option Opd) (s₀ : State) : Out :=
  .next (Cpu.row s₀ c (Op.alu 0x08 f t.isSome (d :: s :: t.toList)) Ins.add)

/-- SUB (R304). -/
def execSub (c : Fin 6) (f : Form) (d s : Opd) (t : Option Opd) (s₀ : State) : Out :=
  .next (Cpu.row s₀ c (Op.alu 0x09 f t.isSome (d :: s :: t.toList)) Ins.sub)

/-- ADC (R304). -/
def execAdc (c : Fin 6) (f : Form) (d s : Opd) (t : Option Opd) (s₀ : State) : Out :=
  .next (Cpu.row s₀ c (Op.alu 0x0A f t.isSome (d :: s :: t.toList)) Ins.adc)

/-- SBC (R304). -/
def execSbc (c : Fin 6) (f : Form) (d s : Opd) (t : Option Opd) (s₀ : State) : Out :=
  .next (Cpu.row s₀ c (Op.alu 0x0B f t.isSome (d :: s :: t.toList)) Ins.sbc)

/-- NEG (R304). -/
def execNeg (c : Fin 6) (f : Form) (d s : Opd) (t : Option Opd) (s₀ : State) : Out :=
  .next (Cpu.row s₀ c (Op.alu 0x0C f t.isSome (d :: s :: t.toList)) Ins.neg)

/-- ABS (R304). -/
def execAbs (c : Fin 6) (f : Form) (d s : Opd) (t : Option Opd) (s₀ : State) : Out :=
  .next (Cpu.row s₀ c (Op.alu 0x0D f t.isSome (d :: s :: t.toList)) Ins.abs)

/-- CMP (R304). -/
def execCmp (c : Fin 6) (f : Form) (d s : Opd) (t : Option Opd) (s₀ : State) : Out :=
  .next (Cpu.row s₀ c (Op.alu 0x0E f t.isSome (d :: s :: t.toList)) Ins.cmp)

/-- MIN (R304). -/
def execMin (c : Fin 6) (f : Form) (d s : Opd) (t : Option Opd) (s₀ : State) : Out :=
  .next (Cpu.row s₀ c (Op.alu 0x0F f t.isSome (d :: s :: t.toList)) Ins.min)

/-- MAX (R304). -/
def execMax (c : Fin 6) (f : Form) (d s : Opd) (t : Option Opd) (s₀ : State) : Out :=
  .next (Cpu.row s₀ c (Op.alu 0x10 f t.isSome (d :: s :: t.toList)) Ins.max)

/-- MINU (R304). -/
def execMinu (c : Fin 6) (f : Form) (d s : Opd) (t : Option Opd) (s₀ : State) : Out :=
  .next (Cpu.row s₀ c (Op.alu 0x11 f t.isSome (d :: s :: t.toList)) Ins.minu)

/-- MAXU (R304). -/
def execMaxu (c : Fin 6) (f : Form) (d s : Opd) (t : Option Opd) (s₀ : State) : Out :=
  .next (Cpu.row s₀ c (Op.alu 0x12 f t.isSome (d :: s :: t.toList)) Ins.maxu)

/-- MUL (R304). -/
def execMul (c : Fin 6) (f : Form) (d s : Opd) (t : Option Opd) (s₀ : State) : Out :=
  .next (Cpu.row s₀ c (Op.alu 0x14 f t.isSome (d :: s :: t.toList)) Ins.mul)

/-- MULH (R304). -/
def execMulh (c : Fin 6) (f : Form) (d s : Opd) (t : Option Opd) (s₀ : State) : Out :=
  .next (Cpu.row s₀ c (Op.alu 0x15 f t.isSome (d :: s :: t.toList)) Ins.mulh)

/-- MULHU (R304). -/
def execMulhu (c : Fin 6) (f : Form) (d s : Opd) (t : Option Opd) (s₀ : State) : Out :=
  .next (Cpu.row s₀ c (Op.alu 0x16 f t.isSome (d :: s :: t.toList)) Ins.mulhu)

/-- DIV (R304). -/
def execDiv (c : Fin 6) (f : Form) (d s : Opd) (t : Option Opd) (s₀ : State) : Out :=
  .next (Cpu.row s₀ c (Op.alu 0x17 f t.isSome (d :: s :: t.toList)) Ins.div)

/-- REM (R304). -/
def execRem (c : Fin 6) (f : Form) (d s : Opd) (t : Option Opd) (s₀ : State) : Out :=
  .next (Cpu.row s₀ c (Op.alu 0x19 f t.isSome (d :: s :: t.toList)) Ins.rem)

/-- DIVU (R304). -/
def execDivu (c : Fin 6) (f : Form) (d s : Opd) (t : Option Opd) (s₀ : State) : Out :=
  .next (Cpu.row s₀ c (Op.alu 0x18 f t.isSome (d :: s :: t.toList)) Ins.divu)

/-- REMU (R304). -/
def execRemu (c : Fin 6) (f : Form) (d s : Opd) (t : Option Opd) (s₀ : State) : Out :=
  .next (Cpu.row s₀ c (Op.alu 0x1A f t.isSome (d :: s :: t.toList)) Ins.remu)

/-- AND (R304). -/
def execAnd (c : Fin 6) (f : Form) (d s : Opd) (t : Option Opd) (s₀ : State) : Out :=
  .next (Cpu.row s₀ c (Op.alu 0x20 f t.isSome (d :: s :: t.toList)) Ins.and)

/-- OR (R304). -/
def execOr (c : Fin 6) (f : Form) (d s : Opd) (t : Option Opd) (s₀ : State) : Out :=
  .next (Cpu.row s₀ c (Op.alu 0x21 f t.isSome (d :: s :: t.toList)) Ins.or)

/-- XOR (R304). -/
def execXor (c : Fin 6) (f : Form) (d s : Opd) (t : Option Opd) (s₀ : State) : Out :=
  .next (Cpu.row s₀ c (Op.alu 0x22 f t.isSome (d :: s :: t.toList)) Ins.xor)

/-- NOT (R304). -/
def execNot (c : Fin 6) (f : Form) (d s : Opd) (t : Option Opd) (s₀ : State) : Out :=
  .next (Cpu.row s₀ c (Op.alu 0x23 f t.isSome (d :: s :: t.toList)) Ins.not)

/-- TST (R304). -/
def execTst (c : Fin 6) (f : Form) (d s : Opd) (t : Option Opd) (s₀ : State) : Out :=
  .next (Cpu.row s₀ c (Op.alu 0x24 f t.isSome (d :: s :: t.toList)) Ins.tst)

/-- BTST (R304). -/
def execBtst (c : Fin 6) (f : Form) (d s : Opd) (t : Option Opd) (s₀ : State) : Out :=
  .next (Cpu.row s₀ c (Op.alu 0x25 f t.isSome (d :: s :: t.toList)) Ins.btst)

/-- BSET (R304). -/
def execBset (c : Fin 6) (f : Form) (d s : Opd) (t : Option Opd) (s₀ : State) : Out :=
  .next (Cpu.row s₀ c (Op.alu 0x26 f t.isSome (d :: s :: t.toList)) Ins.bset)

/-- BCLR (R304). -/
def execBclr (c : Fin 6) (f : Form) (d s : Opd) (t : Option Opd) (s₀ : State) : Out :=
  .next (Cpu.row s₀ c (Op.alu 0x27 f t.isSome (d :: s :: t.toList)) Ins.bclr)

/-- BINV (R304). -/
def execBinv (c : Fin 6) (f : Form) (d s : Opd) (t : Option Opd) (s₀ : State) : Out :=
  .next (Cpu.row s₀ c (Op.alu 0x28 f t.isSome (d :: s :: t.toList)) Ins.binv)

/-- CLZ (R304). -/
def execClz (c : Fin 6) (f : Form) (d s : Opd) (t : Option Opd) (s₀ : State) : Out :=
  .next (Cpu.row s₀ c (Op.alu 0x29 f t.isSome (d :: s :: t.toList)) Ins.clz)

/-- POPC (R304). -/
def execPopc (c : Fin 6) (f : Form) (d s : Opd) (t : Option Opd) (s₀ : State) : Out :=
  .next (Cpu.row s₀ c (Op.alu 0x2A f t.isSome (d :: s :: t.toList)) Ins.popc)

/-- SHL (R304). -/
def execShl (c : Fin 6) (f : Form) (d s : Opd) (t : Option Opd) (s₀ : State) : Out :=
  .next (Cpu.row s₀ c (Op.alu 0x30 f t.isSome (d :: s :: t.toList)) Ins.shl)

/-- SHR (R304). -/
def execShr (c : Fin 6) (f : Form) (d s : Opd) (t : Option Opd) (s₀ : State) : Out :=
  .next (Cpu.row s₀ c (Op.alu 0x31 f t.isSome (d :: s :: t.toList)) Ins.shr)

/-- SAR (R304). -/
def execSar (c : Fin 6) (f : Form) (d s : Opd) (t : Option Opd) (s₀ : State) : Out :=
  .next (Cpu.row s₀ c (Op.alu 0x32 f t.isSome (d :: s :: t.toList)) Ins.sar)

/-- ROL (R304). -/
def execRol (c : Fin 6) (f : Form) (d s : Opd) (t : Option Opd) (s₀ : State) : Out :=
  .next (Cpu.row s₀ c (Op.alu 0x33 f t.isSome (d :: s :: t.toList)) Ins.rol)

/-- ROR (R304). -/
def execRor (c : Fin 6) (f : Form) (d s : Opd) (t : Option Opd) (s₀ : State) : Out :=
  .next (Cpu.row s₀ c (Op.alu 0x34 f t.isSome (d :: s :: t.toList)) Ins.ror)

/-- FADD (R304). -/
def execFadd (c : Fin 6) (f : Form) (d s : Opd) (t : Option Opd) (s₀ : State) : Out :=
  .next (Cpu.row s₀ c (Op.alu 0x38 f t.isSome (d :: s :: t.toList)) Ins.fadd)

/-- FSUB (R304). -/
def execFsub (c : Fin 6) (f : Form) (d s : Opd) (t : Option Opd) (s₀ : State) : Out :=
  .next (Cpu.row s₀ c (Op.alu 0x39 f t.isSome (d :: s :: t.toList)) Ins.fsub)

/-- FMUL (R304). -/
def execFmul (c : Fin 6) (f : Form) (d s : Opd) (t : Option Opd) (s₀ : State) : Out :=
  .next (Cpu.row s₀ c (Op.alu 0x3A f t.isSome (d :: s :: t.toList)) Ins.fmul)

/-- FDIV (R304). -/
def execFdiv (c : Fin 6) (f : Form) (d s : Opd) (t : Option Opd) (s₀ : State) : Out :=
  .next (Cpu.row s₀ c (Op.alu 0x3B f t.isSome (d :: s :: t.toList)) Ins.fdiv)

/-- FSQRT (R304). -/
def execFsqrt (c : Fin 6) (f : Form) (d s : Opd) (t : Option Opd) (s₀ : State) : Out :=
  .next (Cpu.row s₀ c (Op.alu 0x3C f t.isSome (d :: s :: t.toList)) Ins.fsqrt)

/-- FMA (R304). -/
def execFma (c : Fin 6) (f : Form) (d s : Opd) (t : Option Opd) (s₀ : State) : Out :=
  .next (Cpu.row s₀ c (Op.alu 0x3D f t.isSome (d :: s :: t.toList)) Ins.fma)

/-- FCMP (R304). -/
def execFcmp (c : Fin 6) (f : Form) (d s : Opd) (t : Option Opd) (s₀ : State) : Out :=
  .next (Cpu.row s₀ c (Op.alu 0x3E f t.isSome (d :: s :: t.toList)) Ins.fcmp)

/-- FMIN (R304). -/
def execFmin (c : Fin 6) (f : Form) (d s : Opd) (t : Option Opd) (s₀ : State) : Out :=
  .next (Cpu.row s₀ c (Op.alu 0x3F f t.isSome (d :: s :: t.toList)) Ins.fmin)

/-- FMAX (R304). -/
def execFmax (c : Fin 6) (f : Form) (d s : Opd) (t : Option Opd) (s₀ : State) : Out :=
  .next (Cpu.row s₀ c (Op.alu 0x40 f t.isSome (d :: s :: t.toList)) Ins.fmax)

/-- FABS (R304). -/
def execFabs (c : Fin 6) (f : Form) (d s : Opd) (t : Option Opd) (s₀ : State) : Out :=
  .next (Cpu.row s₀ c (Op.alu 0x41 f t.isSome (d :: s :: t.toList)) Ins.fabs)

/-- FNEG (R304). -/
def execFneg (c : Fin 6) (f : Form) (d s : Opd) (t : Option Opd) (s₀ : State) : Out :=
  .next (Cpu.row s₀ c (Op.alu 0x42 f t.isSome (d :: s :: t.toList)) Ins.fneg)

/-- CVT (R304). -/
def execCvt (c : Fin 6) (f : Form) (d s : Opd) (t : Option Opd) (s₀ : State) : Out :=
  .next (Cpu.row s₀ c (Op.alu 0x43 f t.isSome (d :: s :: t.toList)) Ins.cvt)

/-- CVTU (R304). -/
def execCvtu (c : Fin 6) (f : Form) (d s : Opd) (t : Option Opd) (s₀ : State) : Out :=
  .next (Cpu.row s₀ c (Op.alu 0x44 f t.isSome (d :: s :: t.toList)) Ins.cvtu)

/-- MAC (R308). -/
def execMac (c : Fin 6) (f : Form) (d s : Opd) (s₀ : State) : Out :=
  .next (Cpu.row s₀ c (Op.alu 0x48 f false [d, s]) Ins.mac)

/-- MSU (R308). -/
def execMsu (c : Fin 6) (f : Form) (d s : Opd) (s₀ : State) : Out :=
  .next (Cpu.row s₀ c (Op.alu 0x49 f false [d, s]) Ins.msu)

/-- MACU (R308). -/
def execMacu (c : Fin 6) (f : Form) (d s : Opd) (s₀ : State) : Out :=
  .next (Cpu.row s₀ c (Op.alu 0x4A f false [d, s]) Ins.macu)

/-- CMAC (R308). -/
def execCmac (c : Fin 6) (f : Form) (d s : Opd) (s₀ : State) : Out :=
  .next (Cpu.row s₀ c (Op.alu 0x4B f false [d, s]) Ins.cmac)

/-- CMACJ (R308). -/
def execCmacj (c : Fin 6) (f : Form) (d s : Opd) (s₀ : State) : Out :=
  .next (Cpu.row s₀ c (Op.alu 0x4C f false [d, s]) Ins.cmacj)

/-- DOT4 (R308). -/
def execDot4 (c : Fin 6) (f : Form) (d s : Opd) (s₀ : State) : Out :=
  .next (Cpu.row s₀ c (Op.alu 0x4D f false [d, s]) Ins.dot4)

/-- AEXT (R308). -/
def execAext (c : Fin 6) (f : Form) (d s : Opd) (s₀ : State) : Out :=
  .next (Cpu.row s₀ c (Op.alu 0x50 f false [d, s]) Ins.aext)

/-- ACLR (R308). -/
def execAclr (c : Fin 6) (f : Form) (s₀ : State) : Out :=
  .next (Cpu.row s₀ c (Op.alu 0x4E f false []) Ins.aclr)

/-- ALD (R308). -/
def execAld (c : Fin 6) (f : Form) (s : Opd) (s₀ : State) : Out :=
  .next (Cpu.row s₀ c (Op.alu 0x4F f false [s]) Ins.ald)

/-- ASAVE (R308). -/
def execAsave (c : Fin 6) (f : Form) (s : Opd) (s₀ : State) : Out :=
  .next (Cpu.row s₀ c (Op.alu 0x51 f false [s]) Ins.asave)

/-- ARSTR (R308). -/
def execArstr (c : Fin 6) (f : Form) (s : Opd) (s₀ : State) : Out :=
  .next (Cpu.row s₀ c (Op.alu 0x52 f false [s]) Ins.arstr)

/-- BCC (R306). -/
def execBcc (c : Fin 6) (cond : BitVec 4) (d : BitVec 16) (s₀ : State) : Out :=
  .next (Cpu.row s₀ c (Op.ctl 0x80 (16 * cond.toNat) [] d.toNat) Ins.bcc)

/-- BCCL (R306). -/
def execBccl (c : Fin 6) (cond : BitVec 4) (d : BitVec 32) (s₀ : State) : Out :=
  .next (Cpu.row s₀ c (Op.ctl 0x81 (16 * cond.toNat) [] d.toNat) Ins.bccl)

/-- CALL (R306). -/
def execCall (c : Fin 6) (d : BitVec 32) (s₀ : State) : Out :=
  .next (Cpu.row s₀ c (Op.ctl 0x82 0 [] d.toNat) Ins.call)

/-- JMP (R306). -/
def execJmp (c : Fin 6) (x : Opd) (s₀ : State) : Out :=
  .next (Cpu.row s₀ c (Op.ctl 0x83 0 [x] 0) Ins.jmp)

/-- JSR (R306). -/
def execJsr (c : Fin 6) (x : Opd) (s₀ : State) : Out :=
  .next (Cpu.row s₀ c (Op.ctl 0x84 0 [x] 0) Ins.jsr)

/-- REP (R306). -/
def execRep (c : Fin 6) (x : Opd) (s₀ : State) : Out :=
  .next (Cpu.row s₀ c (Op.ctl 0x8C 0 [x] 0) Ins.rep)

/-- SYS (R306). -/
def execSys (c : Fin 6) (imm : BitVec 8) (s₀ : State) : Out :=
  .next (Cpu.row s₀ c (Op.ctl 0x87 imm.toNat [] 0) Ins.sys)

/-- RET (R306). -/
def execRet (c : Fin 6) (s₀ : State) : Out :=
  .next (Cpu.row s₀ c (Op.ctl 0x85 0 [] 0) Ins.ret)

/-- RTE (R306). -/
def execRte (c : Fin 6) (s₀ : State) : Out :=
  .next (Cpu.row s₀ c (Op.ctl 0x86 0 [] 0) Ins.rte)

/-- BKPT (R306). -/
def execBkpt (c : Fin 6) (s₀ : State) : Out :=
  .next (Cpu.row s₀ c (Op.ctl 0x88 0 [] 0) Ins.bkpt)

/-- WAIT (R306). -/
def execWait (c : Fin 6) (s₀ : State) : Out :=
  .next (Cpu.row s₀ c (Op.ctl 0x89 0 [] 0) Ins.wait)

/-- FENCE (R306). -/
def execFence (c : Fin 6) (s₀ : State) : Out :=
  .next (Cpu.row s₀ c (Op.ctl 0x8A 0 [] 0) Ins.fence)

/-- IFENCE (R306). -/
def execIfence (c : Fin 6) (s₀ : State) : Out :=
  .next (Cpu.row s₀ c (Op.ctl 0x8B 0 [] 0) Ins.ifence)

/-- MFC (R306). -/
def execMfc (c : Fin 6) (i : BitVec 4) (x : Opd) (s₀ : State) : Out :=
  .next (Cpu.row s₀ c (Op.ctl 0x8D i.toNat [x] 0) Ins.mfc)

/-- MTC (R306). -/
def execMtc (c : Fin 6) (i : BitVec 4) (x : Opd) (s₀ : State) : Out :=
  .next (Cpu.row s₀ c (Op.ctl 0x8E i.toNat [x] 0) Ins.mtc)

/-- FEAT (R306). -/
def execFeat (c : Fin 6) (i : BitVec 4) (x : Opd) (s₀ : State) : Out :=
  .next (Cpu.row s₀ c (Op.ctl 0x8F i.toNat [x] 0) Ins.feat)

/-- DJNZ (R306). -/
def execDjnz (c : Fin 6) (r : BitVec 4) (d : BitVec 16) (s₀ : State) : Out :=
  .next (Cpu.row s₀ c (Op.ctl 0x90 r.toNat [] d.toNat) Ins.djnz)

end Sys2Proof.Machine
end

