-- ==== Sys2Proof/Machine/DmaRun.lean ====
section
/-! DEFINITION. DMA bursts: which channel is served, what a burst moves, and how it ends (spec/13 R313, R314, R317, R319, R325). -/

namespace Sys2Proof.Machine

/-- What a burst meets: nothing, a bus error at an address, or a page that does not answer now. -/
inductive Burst where
  | done | bad (a : Nat) | held (h : Held)
  deriving DecidableEq, Repr

/-- Bytes of the burst at byte `pos` of the set (R314): up to 256, not beyond the row end or a 256-byte boundary of the source or
the destination; an element of the register window is a burst of its own. -/
def Dma.burstLen (s : State) (n pos : Nat) : Nat :=
  let sz := Dma.size s n
  let row := Dma.len s n - pos % max (Dma.len s n) 1
  let src := Dma.srcAt s n pos
  let dst := Dma.dstAt s n pos
  let rs := Dma.readsSrc s n
  if Dma.touches dst sz || (rs && Dma.touches src sz) then sz
  else
    let l := min 256 row
    let l := if (Dma.ctl s n).testBit 5 then l else min l (256 - dst % 256)
    if rs && !(Dma.ctl s n).testBit 4 then min l (256 - src % 256) else l

/-- Read an element: through the register window, or from memory as a device (R269). -/
def Dma.readEl (s : State) (n a : Nat) : Except (Burst × State) (List Nat × State) :=
  let sz := Dma.size s n
  if rangeFor a sz = .regs then
    match Bus.readN s 6 a sz with
    | (.ok v, s) => .ok (leBytes sz v, s)
    | (.err, s) => .error (.bad a, s)
    | (.held, s) => .error (.held ⟨13, a, false, n, sz⟩, s)
  else if s.flashWaits a then .error (.held ⟨13, a, false, n, sz⟩, s)
  else
    match s.devRead a sz with
    | (s, some l) => .ok (l, s)
    | (s, none) => .error (.bad a, s)

/-- Write an element. -/
def Dma.writeEl (s : State) (n a : Nat) (l : List Nat) : Except Burst State :=
  let sz := Dma.size s n
  if rangeFor a sz = .regs then
    match Bus.writeN s 6 a sz (leNat l) with
    | (.ok _, s) => .ok s
    | (.err, _) => .error (.bad a)
    | (.held, _) => .error (.held ⟨13, a, true, n, sz⟩)
  else
    match s.devWrite a l with
    | (s, true) => .ok s
    | (_, false) => .error (.bad a)

/-- Pattern bytes for the element at destination address `a`: byte (a mod 8) of PATTERN (R313). -/
def Dma.pattern (s : State) (n a : Nat) : List Nat :=
  (List.range (Dma.size s n)).map (fun i => bitsOf (s.wget (Dma.cb n) DmaC.PATTERN) (8 * ((a + i) % 8)) 8)

/-- Read the source bytes of `k` elements from byte `pos`, or take their pattern: the elements read before the first bus error, and
how the reading ended. -/
def Dma.readSrc (n : Nat) : Nat → Nat → State → List (List Nat) × Burst × State
  | 0, _, s => ([], .done, s)
  | k + 1, pos, s =>
    if Dma.readsSrc s n then
      match Dma.readEl s n (Dma.srcAt s n pos) with
      | .error (e, s) => ([], e, s)
      | .ok (l, s) =>
        let (t, e, s) := Dma.readSrc n k (pos + Dma.size s n) s
        (l :: t, e, s)
    else
      let (t, e, s) := Dma.readSrc n k (pos + Dma.size s n) s
      (Dma.pattern s n (Dma.dstAt s n pos) :: t, e, s)

/-- An element of the set has been handled. -/
def Dma.advance (s : State) (n : Nat) (unequal : Bool) : State :=
  let c := Dma.ch s n
  Dma.set s n { c with
    pos := c.pos + Dma.size s n
    mis := if unequal then min (c.mis + 1) (2 ^ 32 - 1) else c.mis
    ofs := if unequal && c.ofs.isNone then some c.pos else c.ofs }

/-- Write the elements read, or compare them with the destination (R313). -/
def Dma.apply (n : Nat) : List (List Nat) → State → Burst × State
  | [], s => (.done, s)
  | l :: t, s =>
    let a := Dma.dstAt s n (Dma.ch s n).pos
    if Dma.mode s n = 2 then
      match Dma.readEl s n a with
      | .error x => x
      | .ok (d, s) => Dma.apply n t (Dma.advance s n (d != l))
    else
      match Dma.writeEl s n a l with
      | .error e => (e, s)
      | .ok s =>
        let s := s.put Dma.b DmaP.BYTES_COUNT (s.get Dma.b DmaP.BYTES_COUNT + Dma.size s n)
        Dma.apply n t (Dma.advance s n false)

/-- One burst of channel `n`, of at most `most` bytes: elements before a failing one are complete, the failing one ends the set
with BAD (R325); a page that does not answer leaves the burst to a later moment (DEDUCED, log entry 61). -/
def Dma.move (s : State) (n most : Nat) : State :=
  let sz := max (Dma.size s n) 1
  let pos := (Dma.ch s n).pos
  let k := min most (Dma.burstLen s n pos) / sz
  let (l, e1, t) := Dma.readSrc n k pos s
  let (e2, t) := Dma.apply n l t
  let t := { t with held := t.held.filter (fun h => !(h.req == 13 && h.val == n)) }
  match (if e2 = .done then e1 else e2) with
  | .held h => s.wait h
  | .bad a => let t := Dma.cur t n; Dma.set t n { Dma.ch t n with fin := some (Dma.BAD, a) }
  | .done =>
    let t := Dma.cur t n
    let c := Dma.ch t n
    if Dma.total t n ≤ c.pos then Dma.set t n { c with fin := some (if c.mis = 0 then Dma.DONE else Dma.MISMATCH, 0) } else t

/-- Has a channel a burst ready (R319): a running one, one whose request line is asserted (R317), or one ABORTING that has issued an
access (R326)? -/
def Dma.ready (s : State) (n : Nat) : Bool :=
  let st := Dma.st s n
  if st == 4 then Dma.waits s n
  else (Dma.ch s n).fin.isNone &&
    (if Dma.kind s n == 2 then (st == 1 || st == 2) && s.reqLine (Dma.tsrc s n) else st == 2)

/-- The channel served next: the highest PRIO, in ascending order after the one last served (R319). -/
def Dma.served (s : State) : Option Nat :=
  (((List.range 64).map (fun i => (s.dmaLast + 1 + i) % 64)).filter (Dma.ready s)).foldl (fun best n =>
    match best with
    | none => some n
    | some m => if Dma.prio s m < Dma.prio s n then some n else best) none

/-- The bursts of one request: BURST bytes, or what is left of the set. -/
def Dma.request (n : Nat) : Nat → Nat → State → State
  | 0, _, s => s
  | fuel + 1, left, s =>
    if left = 0 ∨ (Dma.ch s n).fin.isSome ∨ Dma.waits s n then s
    else
      let p := (Dma.ch s n).pos
      let s := Dma.move s n left
      Dma.request n fuel (left - ((Dma.ch s n).pos - p)) s

/-- The channel served moves its burst: BURST bytes for a request (R317), else one burst of R314; an ABORTING channel then ends. -/
def Dma.serve (s : State) (n : Nat) : State :=
  let s := { s with dmaLast := n }
  Cpu.settle 8
    (if Dma.st s n = 4 then Dma.endAborts (Dma.move s n 256)
     else if Dma.kind s n = 2 then Dma.request n 256 (Dma.burst s n) (Dma.setSt s n 2)
     else Dma.move s n 256)

/-- DMA_BURST_DONE: the engine arbitrates, and the burst of the channel it serves completes. -/
def execDmaBurstDone (s : State) : Out :=
  match Dma.served s with
  | none => .next s
  | some n => .next (if Dma.live s then Dma.serve s n else s)

/-- DMA_REQUEST: the request line of an armed or running REQ set is asserted; one burst of BURST bytes moves (R317), unless another
channel's burst comes first (R319): then it moves at its turn. -/
def execDmaRequest (chan : Fin 64) (s : State) : Out :=
  let n := chan.val
  .next (if Dma.kind s n = 2 ∧ Dma.served s = some n ∧ Dma.live s then Dma.serve s n else s)

end Sys2Proof.Machine
end

