-- ==== Sys2Proof/Machine/DumpRun.lean ====
section
/-! DEFINITION. The dump capture (spec/14 R346, R347): register pages and channel summaries read into the bay, then the header. -/

namespace Sys2Proof.Machine

/-- Is a register page held for a soft reset, so that the capture waits for it?  A gated-off island ends its accesses with a bus
error instead (R28). -/
def Dump.waits (s : State) (p : Nat) : Bool :=
  match pageInfo p with
  | none => false
  | some _ => s.flag (pg (ownerPage p)) H.BUSY && !s.isReset (pageIsland p) && decide (pageIsland p ∉ s.stalled)

/-- Words of a page from `off`, as the capture engine reads them; false at the first bus error, after which they are 0. -/
def Dump.words (p : Nat) : Nat → Nat → State → List Nat × Bool × State
  | 0, _, s => ([], true, s)
  | n + 1, off, s =>
    match Bus.read s 11 (Bus.base + pg p + off) with
    | (.ok v, s) =>
      let (l, ok, s) := Dump.words p n (off + 4) s
      (v :: l, ok, s)
    | _ => (List.replicate (n + 1) 0, false, s)

/-- Bytes of words. -/
def wordBytes (l : List Nat) : List Nat := l.flatMap (leBytes 4)

/-- Register of SNAP_PAGE_k: its page, and whether it is enabled (DEDUCED, log entry 95). -/
def Dump.page (s : State) (k : Nat) : Nat := bitsOf (s.regN (pg 0x093 + 0x080 + 4 * k)) 0 9
def Dump.pageOn (s : State) (k : Nat) : Bool := (s.regN (pg 0x093 + 0x080 + 4 * k)).testBit 15

/-- Snapshot `k` and its directory entry: OK or FAILED; 0 for a page not enabled. -/
def Dump.snap (s : State) (k : Nat) : State :=
  let e := Dump.bay + 0x40 + 4 * k
  if !Dump.pageOn s k then s.store none e [0, 0, 0, 0]
  else
    let p := Dump.page s k
    let (l, ok, s) := Dump.words p 1024 0 s
    let s := (s.store none (Dump.bay + 0xA000 + 0x1000 * k) (wordBytes l)).store none e (leBytes 4 (p + 2 ^ (if ok then 16 else 17)))
    if ok then s else s.count (pg 0x093) Dump.DUMP_STAT_FAILED

/-- Summary of channel `n`; a word whose read ends in a bus error is 0 (R25). -/
def Dump.chan (s : State) (n : Nat) : State :=
  let p := 0x100 + n / 16
  let o := 0x100 * (n % 16)
  let (a, _, s) := Dump.words p 7 o s
  let (b, _, s) := Dump.words p 2 (o + 0x020) s
  let (c, _, s) := Dump.words p 7 (o + 0x080) s
  s.store none (Dump.bay + 0x2000 + 64 * n) (wordBytes (a ++ b ++ c))

/-- CAPTURE_DONE (R347): the capture under way copies what its command names and writes the header, MAGIC last. -/
def execCaptureDone (s : State) : Out :=
  match s.fl.dumpRun with
  | none => .next s
  | some (cmd, t) =>
    let pages := (if cmd.testBit 0 then ((List.range 54).filter (Dump.pageOn s)).map (Dump.page s) else []) ++
      (if cmd.testBit 1 then [0x100] else [])
    if pages.any (Dump.waits s) ∨ !s.running .fabric then .next s
    else
      let d := pg 0x093
      let s := s.put d Dump.DUMP_STAT_FAILED 0
      let s := if cmd.testBit 0 then s.each (List.range 54) Dump.snap else s
      let s := if cmd.testBit 1 then s.each (List.range 512) Dump.chan else s
      let s := s.modFl (fun f => { f with dumpRun := none, dumpSeq := f.dumpSeq + 1 })
      -- the fault procedure's own sections stay while it runs
      let old := if s.vig.dump.isSome then (s.byte (Dump.bay + 2)).toNat % 4 else 0
      let s := s.store none (Dump.bay + 2) [old + 4 * (cmd % 4)]
      let s := (s.store none (Dump.bay + 4) (leBytes 4 s.fl.dumpSeq)).store none (Dump.bay + 8) (leBytes 8 t)
      let s := s.store none Dump.bay [0x42, 0x44]
      .next ((s.put d Dump.DUMP_STAT_BUSY 0).raise 0x093 0)

end Sys2Proof.Machine
end

