-- ==== Sys2Proof/Machine/JtagTest.lean ====
section
/-! DEFINITION. The test access port and its debug access register, test mode, and the checkers of the TEST page (spec/20 R454 to
R460). -/

namespace Sys2Proof.Machine

/-- Instruction codes that enter test mode (R455). -/
def Jtag.testing (ir : Nat) : Bool := ir == 0x00 || ir == 0x03 || ir == 0x04

/-- Update-IR: test mode is entered, kept, or left with a warm reset (R457). -/
def Jtag.load (s : State) (ir : Nat) : State :=
  let s := { s with jtag := { s.jtag with ir := ir } }
  if Jtag.testing ir then
    if s.jtag.test then s
    else
      let s := Reset.hold s Island.tested
      { s with jtag := { s.jtag with test := true } }
  else if s.jtag.test then Boot.warm s
  else s

/-- The TAP has power. -/
def Jtag.powered (s : State) : Bool := !s.pwr.asleep

/-- EXTEST: the boundary cells drive the pads. -/
def execExtest (cells : BitVec 129) (s : State) : Out :=
  if !Jtag.powered s then .next s
  else
    let s := Jtag.load s 0x00
    .next { s with jtag := { s.jtag with bsr := cells } }

/-- SAMPLE/PRELOAD. -/
def execSamplePreload (cells : BitVec 129) (s : State) : Out :=
  if !Jtag.powered s then .next s
  else
    let s := Jtag.load s 0x01
    .next { s with jtag := { s.jtag with bsr := cells } }

/-- IDCODE. -/
def execIdcode (s : State) : Out := .next (if Jtag.powered s then Jtag.load s 0x02 else s)

/-- CLAMP. -/
def execClamp (s : State) : Out := .next (if Jtag.powered s then Jtag.load s 0x03 else s)

/-- HIGHZ. -/
def execHighz (s : State) : Out := .next (if Jtag.powered s then Jtag.load s 0x04 else s)

/-- BYPASS, or a code without an instruction. -/
def execBypass (code : BitVec 5) (s : State) : Out :=
  let c := code.toNat
  .next (if Jtag.powered s ∧ !Jtag.testing c ∧ c ≠ 0x01 ∧ c ≠ 0x02 ∧ c ≠ 0x08 then Jtag.load s c else s)

/-- TEST_MODE_EXIT through Test-Logic-Reset, which selects BYPASS. -/
def execTestModeExit (s : State) : Out := .next (if s.jtag.test then Jtag.load s 0x1F else s)

/-- RESULT of the debug access register: 0 OK, 1 bus error, 2 denied, 3 overrun (R458). -/
def Jtag.result (s : State) (res : Nat) : State := { s with jtag := { s.jtag with res := res } }

/-- A word access that ends in a bus error: a read gives 0 (spec/01 R25). -/
def Jtag.bad (s : State) (v : Nat) (write : Bool) : State := { s with jtag := { s.jtag with res := 1, data := if write then v else 0 } }

/-- The word access of DBGACC with GO (R458) (DEDUCED, log entry 93). -/
def Jtag.access (s : State) (a v : Nat) (write : Bool) : State :=
  if s.held.any (fun h => h.req == 10) then Jtag.result s 3
  else if a % 4 ≠ 0 ∨ s.isReset .fabric then Jtag.bad s v write
  else
    let reg := rangeFor a 4 == .regs
    if !(s.get 0 Sys.DBG_STAT_SCOPE).testBit 0 ∧ !(reg && (a - Bus.base) / 0x1000 == 0) then Jtag.result s 2
    else if reg then
      match (if write then Bus.write s 10 a v else Bus.read s 10 a) with
      | (.ok r, s) => { s with jtag := { s.jtag with res := 0, data := if write then v else r } }
      | (.err, s) => Jtag.bad s v write
      | (.held, s) => Bus.hold s 10 a write v 4
    else if !s.running .fabric ∨ s.flashWaits a then Bus.hold s 10 a write v 4
    else if write then
      match s.blockWrite a (leBytes 4 v) with
      | (s, ok) => { s with jtag := { s.jtag with res := b2n (!ok), data := v } }
    else
      match s.devRead a 4 with
      | (s, some l) => { s with jtag := { s.jtag with res := 0, data := leNat l } }
      | (s, none) => { s with jtag := { s.jtag with res := 1, data := 0 } }

/-- DBGACC: the debug access register is selected and updated with GO. -/
def execDbgacc (addr data : BitVec 32) (write : Bool) (s : State) : Out :=
  if !Jtag.powered s then .next s
  else .next (Cpu.settle 8 (Jtag.access (Jtag.load s 0x08) addr.toNat data.toNat write))

/-- What Capture-IR loads: 1, with bit 2 set while SCOPE bit 0 of DBG_STAT is 1 (R454). -/
def Jtag.captureIr (s : State) : BitVec 5 := if (s.get 0 Sys.DBG_STAT_SCOPE).testBit 0 then 0x05 else 0x01

/-- What Capture-DR loads into the debug access register: DATA, BUSY and RESULT (R458). -/
def Jtag.captureDbg (s : State) : BitVec 72 :=
  BitVec.ofNat 72 (s.jtag.data % 2 ^ 32 + 2 ^ 65 * b2n (s.held.any (fun h => h.req == 10)) + 2 ^ 66 * (s.jtag.res % 4))

/-- The identification value (R454). -/
def Jtag.id : BitVec 32 := 0x1A5C6144

/-! ### The boundary register (R456) -/

/-- The cells of a pad. -/
inductive Bscan.Kind where
  | input | output | openDrain | bidir | bidirOd
  deriving DecidableEq, Repr

/-- Cells of a pad: input, output, control. -/
def Bscan.width : Bscan.Kind → Nat
  | .input => 1
  | .output | .openDrain => 2
  | .bidir | .bidirOd => 3

/-- The pads of the boundary register by number, an LVDS pair under its P pad (R444, R456). -/
def Bscan.pads : List (Nat × Bscan.Kind) :=
  [(32, .output), (33, .output), (34, .output), (51, .output), (53, .input), (55, .output), (57, .input), (59, .output)] ++
  (List.range 8).map (fun i => (74 + i, .output)) ++ (List.range 8).map (fun i => (83 + i, .input)) ++
  [(92, .input), (93, .output), (94, .openDrain), (95, .openDrain), (96, .input), (97, .input), (98, .input), (99, .output),
    (102, .output), (103, .input), (104, .output), (105, .input), (106, .bidirOd), (107, .bidirOd), (109, .output), (110, .input),
    (111, .output), (112, .input), (113, .output), (114, .input), (115, .output), (116, .input), (118, .input), (119, .input), (120, .input),
    (121, .output), (122, .openDrain)] ++ (List.range 16).map (fun i => (123 + i, .bidir))

/-- The first cell of a pad. -/
def Bscan.cell (pad : Nat) : Nat := ((Bscan.pads.takeWhile (fun x => x.1 != pad)).map (fun x => Bscan.width x.2)).sum

/-- What the cells make of a pad: a level, or high impedance (R456). -/
def Bscan.drive (cells : BitVec 129) (pad : Nat) : Option Bool :=
  let k := Bscan.cell pad
  let out (i : Nat) (od : Bool) : Option Bool :=
    let level := cells.getLsbD i
    if cells.getLsbD (i + 1) && !(od && level) then some level else none
  match Bscan.pads.find? (fun x => x.1 == pad) with
  | some (_, .output) => out k false
  | some (_, .openDrain) => out k true
  | some (_, .bidir) => out (k + 1) false
  | some (_, .bidirOd) => out (k + 1) true
  | _ => none

/-- What the module drives on TP pad `p` (0 to 3) or CYC pad `p - 4`: in test mode what the cells, CLAMP's among them, make of it, and under
HIGHZ nothing; else its edges (R457, spec/08 R202). -/
def Jtag.timePad (s : State) (p : Nat) : Option Bool :=
  if s.pwr.asleep then none
  else if s.jtag.test then (if s.jtag.ir = 0x04 then none else Bscan.drive s.jtag.bsr (74 + p))
  else some ((Pad.stat s []).testBit p)

/-! ### Link pattern checkers (R460): 0 CDL_SYNC_IN, 1 DRX0, 2 DRX1 -/

/-- LOCK bit of a checker. -/
def Test.lock (k : Nat) : Fld := if k = 0 then Test.TEST_STAT_LOCK_SYNC else if k = 1 then Test.TEST_STAT_LOCK_DRX0 else Test.TEST_STAT_LOCK_DRX1

/-- Error counter of a checker. -/
def Test.errs (k : Nat) : Fld := if k = 0 then Test.SYNC_ERR_SYNC else if k = 1 then Test.PRBS_ERR_DRX0 else Test.PRBS_ERR_DRX1

/-- Do the patterns run? -/
def Test.on (s : State) : Bool := s.flag (pg 0x0F0) Test.TEST_STAT_PRBS_ON && s.running .fabric

/-- PRBS_CHECKER_LOCK. -/
def execPrbsCheckerLock (checker : Fin 3) (s : State) : Out :=
  .next (if Test.on s then s.put (pg 0x0F0) (Test.lock checker.val) 1 else s)

/-- PRBS_UNLOCK: at least 16 errors within 1,024 words; they count while the checker is locked, and PRBS_ERR is raised when the
counter leaves 0 (DEDUCED, log entry 94). -/
def execPrbsUnlock (checker : Fin 3) (errors : BitVec 16) (s : State) : Out :=
  let b := pg 0x0F0
  let k := checker.val
  if !Test.on s ∨ !s.flag b (Test.lock k) ∨ errors.toNat < 16 then .next s
  else
    let n := s.get b (Test.errs k)
    let s := (s.put b (Test.errs k) (min (n + errors.toNat) 65535)).put b (Test.lock k) 0
    .next ((s.raiseIf (n == 0) 0x0F0 0).raise 0x0F0 1)

end Sys2Proof.Machine
end

