-- ==== Sys2Proof/Machine/RegCmds.lean ====
section
/-! DEFINITION. The commands that are accesses to a register: each is the write or read the spec names, made by a requester; and
the common header's own events: soft reset and freeze complete, hand-over, a register access that times out. -/

namespace Sys2Proof.Machine

/-- A word write at a window offset by a requester; steps it commands are carried out (DEDUCED, log entry 25). -/
def Cmd.write (s : State) (req : Req) (a v : Nat) : Out := .next (Cpu.settle 8 (Bus.command s req.code a v))

/-- A word write that sets the `w` bits from `lo` of a register and keeps its other bits; the pulse bits `pul` read 0 (R9). -/
def Cmd.bits (s : State) (req : Req) (a pul lo w v : Nat) : Out :=
  Cmd.write s req a (putBits (s.regN a &&& (2 ^ 32 - 1 - pul)) lo w v)

/-- A word read at a window offset. -/
def Cmd.read (s : State) (req : Req) (a : Nat) : Out := .next (Bus.fetch s req.code a)

/-- A command register written with what the outside brings in at that moment (samples); otherwise as any write of the register. -/
def Cmd.direct (s : State) (req : Req) (p a v : Nat) (f : State → State) : Out :=
  let s := Bus.ready s req.code (Bus.base + a)
  match (if Bus.behind s.held (Bus.base + a) then Way.held else Bus.way s req.code (Bus.base + a)) with
  | .reg _ _ _ _ => if s.locked p then Cmd.write s req a v else .next ((f s).answer req.code [] false)
  | _ => Cmd.write s req a v

/-! ### Any register, and the common header (spec/02) -/

/-- REGISTER_WRITE (R9, R33): `size` bytes at an address of the window. -/
def execRegisterWrite (req : Req) (size : Sz) (addr : BitVec 32) (value : BitVec 64) (s : State) : Out :=
  .next (Cpu.settle 8 (Bus.commandN s req.code addr.toNat size.bytes (value.toNat % 2 ^ (8 * size.bytes))))

/-- REGISTER_ACCESS_TIMEOUT (R28): an access that waits ends with a bus error; a core takes BUS_LOAD or BUS_STORE, a DMA set ends
with BAD. -/
def execRegisterAccessTimeout (req : Req) (addr : BitVec 32) (write : Bool) (s : State) : Out :=
  let mine (h : Held) : Bool :=
    h.addr == addr.toNat && decide (Bus.base ≤ h.addr) && h.write == write && (h.req == req.code || h.req == Bus.who req.code)
  match s.held.find? mine with
  | none => .next s
  | some h => .next (Bus.abort s h)

/-- COMMIT register of a target (R38, R42) (DEDUCED, log entry 29). -/
def Cmd.commitAt : Target → Nat
  | .page p => pg p.val + 0x02C
  | .chan c => Ch.b c.val + 0x014
  | .entry e => Cal.key e.val
  | .dma n => Dma.cb n.val + 0x048

/-- COMMIT_HAND_OVER (R38, R42): the hand-over instant of a target whose chapter gives the instant no command of its own: a calendar
entry not armed, an idle DMA channel, a channel's start, the RADIO, CLK3 and SWITCH pages.  The hand-overs of the other pages are
part of their instants' own commands. -/
def execCommitHandOver (target : Target) (s : State) : Out :=
  match target with
  | .entry e => .next (Cal.handOver s e.val)
  | .dma n => .next (Dma.handOver s n.val)
  | .chan c => execChannelStart c s
  | .page p =>
    let n := p.val
    if !s.running (pageIsland n) then .next s
    else if n = 0x070 then .next (Rad.handOver s)
    else if n = 0x00B then .next (Clk.handOver s)
    else if n = 0x062 then .next (s.takePage n).1
    else .next s

/-- Where the interrupt events of a target are cleared (R35); a calendar entry's lie in the CAL page. -/
def Cmd.irqClrAt : Target → Nat
  | .page p => pg p.val + 0x020
  | .chan c => Ch.b c.val + 0x010
  | .entry _ => pg 0x051 + 0x020
  | .dma n => Dma.cb n.val + 0x078

/-- SOFT_RESET_DONE (R45): the reset completes; held accesses go on. -/
def execSoftResetDone (page : Fin 288) (s : State) : Out :=
  if s.flag (pg page.val) H.BUSY then .next (Cpu.settle 8 (Bus.release (s.put (pg page.val) H.BUSY 0))) else .next s

/-- FREEZE_DONE (R44): the block has stopped; `feed` holds the samples of the tracking channels up to then (R131). -/
def execFreezeDone (page : Fin 288) (feed : List (Nat × List Smp)) (s : State) : Out :=
  let p := page.val
  if s.flag (pg p) H.FREEZE ∧ !s.frozen p ∧ Page.freezable p ∧ ownerPage p = p ∧ s.running (pageIsland p) then
    .next (Page.onFreeze (s.put (pg p) H.FROZEN 1) p feed)
  else .next s

/-- COMMIT_WRITE (R38 to R41). -/
def execCommitWrite (req : Req) (target : Target) (gen : BitVec 16) (s : State) : Out := Cmd.write s req (Cmd.commitAt target) (gen.toNat)

/-- IRQ_CLR (R35). -/
def execIrqClr (req : Req) (target : Target) (mask : BitVec 32) (s : State) : Out := Cmd.write s req (Cmd.irqClrAt target) (mask.toNat)

/-- PAGE_LOCK (R36). -/
def execPageLock (req : Req) (page : Fin 288) (s : State) : Out := Cmd.write s req (pg page.val + 0x034) (0x4C4B0001)

/-- PAGE_LOCK_STICKY (R36). -/
def execPageLockSticky (req : Req) (page : Fin 288) (s : State) : Out := Cmd.write s req (pg page.val + 0x034) (0x4C4B0002)

/-- PAGE_UNLOCK (R36). -/
def execPageUnlock (req : Req) (page : Fin 288) (s : State) : Out := Cmd.write s req (pg page.val + 0x034) (0x4C4B0000)

/-- ERR_CLEAR (R37). -/
def execErrClear (req : Req) (page : Fin 288) (s : State) : Out := Cmd.write s req (pg page.val + 0x024) (2 ^ 31)

/-- PAGE_ENABLE (R34). -/
def execPageEnable (req : Req) (page : Fin 288) (en : Bool) (s : State) : Out := Cmd.bits s req (pg page.val + 0x00C) 2 0 1 (b2n en)

/-- SOFT_RESET (R45): SRST with the EN and FREEZE bits of the same write. -/
def execSoftReset (req : Req) (page : Fin 288) (en freeze : Bool) (s : State) : Out := Cmd.write s req (pg page.val + 0x00C) (b2n en + 2 + 4 * b2n freeze)

/-- FREEZE (R44). -/
def execFreeze (req : Req) (page : Fin 288) (s : State) : Out := Cmd.bits s req (pg page.val + 0x00C) 2 2 1 (1)

/-- UNFREEZE (R44). -/
def execUnfreeze (req : Req) (page : Fin 288) (s : State) : Out := Cmd.bits s req (pg page.val + 0x00C) 2 2 1 (0)

/-- SWI_SET (R47). -/
def execSwiSet (req : Req) (mask : BitVec 8) (s : State) : Out := Cmd.write s req (pg 0x001 + 0x080) (mask.toNat)

/-- SWI_CLR (R47). -/
def execSwiClr (req : Req) (mask : BitVec 8) (s : State) : Out := Cmd.write s req (pg 0x001 + 0x084) (mask.toNat)

/-! ### Receive chains (spec/03) -/

/-- CAL_DC (R57). -/
def execCalDc (req : Req) (chain : Fin 4) (s : State) : Out := Cmd.write s req (Rfe.b chain.val + 0x0E0) (2 ^ 0)

/-- CAL_FILTER (R57). -/
def execCalFilter (req : Req) (chain : Fin 4) (s : State) : Out := Cmd.write s req (Rfe.b chain.val + 0x0E0) (2 ^ 1)

/-- CAL_IMAGE (R57). -/
def execCalImage (req : Req) (chain : Fin 4) (s : State) : Out := Cmd.write s req (Rfe.b chain.val + 0x0E0) (2 ^ 2)

/-- CAL_OSC (R57). -/
def execCalOsc (req : Req) (chain : Fin 4) (s : State) : Out := Cmd.write s req (Rfe.b chain.val + 0x0E0) (2 ^ 3)

/-- CAL_ALL (R57). -/
def execCalAll (req : Req) (chain : Fin 4) (s : State) : Out := Cmd.write s req (Rfe.b chain.val + 0x0E0) (2 ^ 4)

/-- CAL_RESULT_WRITE (R60): DC_RES, FILT_RES, IMG_RES. -/
def execCalResultWrite (req : Req) (chain : Fin 4) (which : Fin 3) (value : BitVec 32) (s : State) : Out := Cmd.write s req (Rfe.b chain.val + 0x0F0 + 4 * which.val) (value.toNat)

/-- CHAIN_ENABLE (R63). -/
def execChainEnable (req : Req) (chain : Fin 4) (s : State) : Out := Cmd.bits s req (Rfe.b chain.val + 0x00C) 2 0 1 (1)

/-! ### Snapshot, engines (spec/04) -/

/-- SNAP_START (R85). -/
def execSnapStart (req : Req) (s : State) : Out := Cmd.write s req (Acq.b 0 + 0x048) (1)

/-- SNAP_STOP (R88). -/
def execSnapStop (req : Req) (s : State) : Out := Cmd.write s req (Acq.b 0 + 0x048) (2)

/-- Q_TAIL_WRITE (R95). -/
def execQTailWrite (req : Req) (engine : Fin 2) (tail : BitVec 32) (s : State) : Out := Cmd.write s req (Acq.b engine.val + 0x064) (tail.toNat)

/-- JOB_ABORT (R97). -/
def execJobAbort (req : Req) (engine : Fin 2) (s : State) : Out := Cmd.write s req (Acq.b engine.val + 0x06C) (1)

/-- JOB_FLUSH (R97). -/
def execJobFlush (req : Req) (engine : Fin 2) (s : State) : Out := Cmd.write s req (Acq.b engine.val + 0x06C) (2)

/-! ### Tracking, measurement, alignment link (spec/05 to 07) -/

/-- CHANNEL_RUN (R111). -/
def execChannelRun (req : Req) (chan : Fin 512) (s : State) : Out := Cmd.bits s req (Ch.b chan.val) 0 0 1 (1)

/-- CHANNEL_STOP (R112). -/
def execChannelStop (req : Req) (chan : Fin 512) (s : State) : Out := Cmd.bits s req (Ch.b chan.val) 0 0 1 (0)

/-- OVF_CLR (R135). -/
def execOvfClr (req : Req) (s : State) : Out := Cmd.bits s req (pg 0x030 + 0x040) 2 1 1 (1)

/-- GROUP_COMMIT (R125): GRP_CMD, with the samples up to the commit sample. -/
def execGroupCommit (req : Req) (mask : BitVec 16) (feed : List (Nat × List Smp)) (s : State) : Out := 
  Cmd.direct s req 0x030 (pg 0x030 + 0x060) mask.toNat (fun s => Trkg.grpCmd s mask.toNat feed)

/-- GRP_ARM (R126). -/
def execGrpArm (req : Req) (group : Fin 16) (gen : BitVec 16) (s : State) : Out := Cmd.write s req (pg 0x030 + 0x064) (gen.toNat + 2 ^ 16 * group.val)

/-- READBACK_CAPTURE (R129): a read of RB_T. -/
def execReadbackCapture (req : Req) (chan : Fin 512) (s : State) : Out := Cmd.read s req (Ch.b chan.val + 0x080)

/-- TRKG_ENABLE (R134). -/
def execTrkgEnable (req : Req) (en : Bool) (s : State) : Out := Cmd.bits s req (pg 0x030 + 0x00C) 2 0 1 (b2n en)

/-- CS_DATA_WRITE (R136). -/
def execCsDataWrite (req : Req) (value : BitVec 32) (s : State) : Out := Cmd.write s req (pg 0x028 + 0x044) (value.toNat)

/-- CS_DATA_READ (R136). -/
def execCsDataRead (req : Req) (s : State) : Out := Cmd.read s req (pg 0x028 + 0x044)

/-- CRC_START (R136). -/
def execCrcStart (req : Req) (s : State) : Out := Cmd.write s req (pg 0x028 + 0x048) (1)

/-- MANUAL_LATCH (R137): MEAS_CMD.LATCH, with CNT_CLR in the same write or not. -/
def execManualLatch (req : Req) (clr : Bool) (s : State) : Out := Cmd.write s req (Meas.b + 0x044) (1 + 2 * b2n clr)

/-- MEAS_CNT_CLR (R155). -/
def execMeasCntClr (req : Req) (s : State) : Out := Cmd.write s req (Meas.b + 0x044) (2)

/-- CDL_ENABLE (R175). -/
def execCdlEnable (req : Req) (en : Bool) (s : State) : Out := Cmd.bits s req (Cdl.b + 0x00C) 2 0 1 (b2n en)

/-- ALIGN (R177). -/
def execAlign (req : Req) (s : State) : Out := Cmd.write s req (Cdl.b + 0x060) (2 ^ 0)

/-- CDL_LEAVE (R175). -/
def execCdlLeave (req : Req) (s : State) : Out := Cmd.write s req (Cdl.b + 0x060) (2 ^ 1)

/-- MSG_SEND (R177). -/
def execMsgSend (req : Req) (s : State) : Out := Cmd.write s req (Cdl.b + 0x060) (2 ^ 2)

/-- CDL_CNT_CLR (R177). -/
def execCdlCntClr (req : Req) (s : State) : Out := Cmd.write s req (Cdl.b + 0x060) (2 ^ 3)

/-! ### Time, calendar, events (spec/08) -/

/-- TCAP (R186). -/
def execTcap (req : Req) (s : State) : Out := Cmd.write s req (Time.b + 0x054) (1)

/-- LEASE_RENEW (R187). -/
def execLeaseRenew (req : Req) (mask : BitVec 4) (s : State) : Out := Cmd.write s req (Time.b + 0x058) (mask.toNat)

/-- LEASE_LEN_WRITE (R187). -/
def execLeaseLenWrite (req : Req) (ts : Fin 4) (len : BitVec 32) (s : State) : Out := Cmd.write s req (Ts.b ts.val + 0x01C) (len.toNat)

/-- PAD_CTL_WRITE (R202). -/
def execPadCtlWrite (req : Req) (pad : Fin 8) (value : BitVec 32) (s : State) : Out := Cmd.write s req (Time.b + 0x080 + 8 * pad.val) (value.toNat)

/-- CANCEL (R201). -/
def execCancel (req : Req) (entry : Fin 256) (s : State) : Out := Cmd.write s req (Cal.b + 0x040) (entry.val + 2 ^ 8)

/-- CLEAR_ALL (R201). -/
def execClearAll (req : Req) (s : State) : Out := Cmd.write s req (Cal.b + 0x040) (2 ^ 9)

/-- CAL_ENABLE (R200). -/
def execCalEnable (req : Req) (s : State) : Out := Cmd.bits s req (Cal.b + 0x00C) 2 0 1 (1)

/-- EVT_FLUSH (R208). -/
def execEvtFlush (req : Req) (s : State) : Out := Cmd.bits s req (Evt.b + 0x040) 2 1 1 (1)

/-! ### Network, precision time, radio (spec/09, 10) -/

/-- ACCEPT (R224). -/
def execAccept (req : Req) (slot : Fin 4) (s : State) : Out := Cmd.write s req (Ptp.d slot.val + 0x024) (1)

/-- RESEED (R222). -/
def execReseed (req : Req) (slot : Fin 4) (s : State) : Out := Cmd.write s req (Ptp.d slot.val + 0x024) (2)

/-- HTX_WP_WRITE (R213). -/
def execHtxWpWrite (req : Req) (wp : BitVec 32) (s : State) : Out := Cmd.write s req (Sw.b + 0x0B8) (wp.toNat)

/-- RADIO_ENABLE (R235). -/
def execRadioEnable (req : Req) (en : Bool) (s : State) : Out := Cmd.bits s req (Rad.b + 0x00C) 2 0 1 (b2n en)

/-- RADIO_SLEEP (R239). -/
def execRadioSleep (req : Req) (s : State) : Out := Cmd.write s req (Rad.b + 0x060) (2 ^ 0)

/-- RADIO_IDLE (R239). -/
def execRadioIdle (req : Req) (s : State) : Out := Cmd.write s req (Rad.b + 0x060) (2 ^ 1)

/-- RADIO_RX (R239). -/
def execRadioRx (req : Req) (s : State) : Out := Cmd.write s req (Rad.b + 0x060) (2 ^ 2)

/-- RADIO_TX_CMD (R245): CMD.TX with DESC. -/
def execRadioTxCmd (req : Req) (desc : Fin 16) (s : State) : Out := Cmd.write s req (Rad.b + 0x060) (2 ^ 3 + 2 ^ 8 * desc.val)

/-- RADIO_OFF (R235). -/
def execRadioOff (req : Req) (s : State) : Out := Cmd.write s req (Rad.b + 0x060) (2 ^ 4)

/-- RADIO_ABORT (R239). -/
def execRadioAbort (req : Req) (s : State) : Out := Cmd.write s req (Rad.b + 0x060) (2 ^ 5)

/-- RADIO_CAL_DC (R249). -/
def execRadioCalDc (req : Req) (s : State) : Out := Cmd.write s req (Rad.b + 0x054) (2 ^ 0)

/-- RADIO_CAL_FILTER (R249). -/
def execRadioCalFilter (req : Req) (s : State) : Out := Cmd.write s req (Rad.b + 0x054) (2 ^ 1)

/-- RADIO_CAL_IMAGE (R249). -/
def execRadioCalImage (req : Req) (s : State) : Out := Cmd.write s req (Rad.b + 0x054) (2 ^ 2)

/-- RADIO_CAL_OSC (R249). -/
def execRadioCalOsc (req : Req) (s : State) : Out := Cmd.write s req (Rad.b + 0x054) (2 ^ 3)

/-- RADIO_CAL_ALL (R249). -/
def execRadioCalAll (req : Req) (s : State) : Out := Cmd.write s req (Rad.b + 0x054) (2 ^ 4)

/-- HOP_WRITE (R250). -/
def execHopWrite (req : Req) (hop : Fin 64) (freq : BitVec 32) (s : State) : Out := Cmd.write s req (pg 0x071 + 8 * hop.val) (freq.toNat)

/-! ### Cores, DMA, flash, Annal, dump (spec/11 to 14) -/

/-- CORE_START (R293). -/
def execCoreStart (req : Req) (core : Fin 6) (s : State) : Out := Cmd.bits s req (Cpu.b core.val + 0x040) 15 0 1 (1)

/-- CORE_HALT (R293). -/
def execCoreHalt (req : Req) (core : Fin 6) (s : State) : Out := Cmd.bits s req (Cpu.b core.val + 0x040) 15 1 1 (1)

/-- CORE_RESUME (R293). -/
def execCoreResume (req : Req) (core : Fin 6) (s : State) : Out := Cmd.bits s req (Cpu.b core.val + 0x040) 15 2 1 (1)

/-- CORE_STEP (R293). -/
def execCoreStep (req : Req) (core : Fin 6) (s : State) : Out := Cmd.bits s req (Cpu.b core.val + 0x040) 15 3 1 (1)

/-- PERF_CLR (R295). -/
def execPerfClr (req : Req) (core : Fin 6) (s : State) : Out := Cmd.write s req (Cpu.b core.val + 0x0BC) (1)

/-- DBG_DATA_READ (R296): the low word captures the element; the answer holds all three words. -/
def execDbgDataRead (req : Req) (core : Fin 6) (s : State) : Out :=
  let a := Bus.base + Cpu.b core.val + 0x054
  match Bus.read (Bus.ready s req.code a) req.code a with
  | (.ok v0, s) =>
    let (_, s1) := Bus.read s req.code (a + 4)
    let (_, s2) := Bus.read s1 req.code (a + 8)
    let word (r : Res) : Word := match r with
      | .ok v => BitVec.ofNat 32 v
      | _ => 0
    .next (s2.answer req.code [BitVec.ofNat 32 v0, word (Bus.read s req.code (a + 4)).1, word (Bus.read s1 req.code (a + 8)).1] false)
  | _ => Cmd.read s req (Cpu.b core.val + 0x054)

/-- DBG_DATA_WRITE (R296): an accumulator takes all three words, any other element the low one. -/
def execDbgDataWrite (req : Req) (core : Fin 6) (value : BitVec 80) (s : State) : Out :=
  let a := Cpu.b core.val + 0x054
  let i := s.get (Cpu.b core.val) CoreP.DBG_SEL_INDEX
  let v := value.toNat
  if i = 0x19 ∨ i = 0x1A then
    let s := Bus.command (Bus.command s req.code a (v % 2 ^ 32)) req.code (a + 4) (v / 2 ^ 32 % 2 ^ 32)
    Cmd.write s req (a + 8) (v / 2 ^ 64)
  else Cmd.write s req a (v % 2 ^ 32)

/-- DMA_START_CMD (R317). -/
def execDmaStartCmd (req : Req) (chan : Fin 64) (s : State) : Out := Cmd.write s req (Dma.cb chan.val + 0x040) (1)

/-- DMA_ABORT (R326). -/
def execDmaAbort (req : Req) (chan : Fin 64) (s : State) : Out := Cmd.write s req (Dma.cb chan.val + 0x040) (2)

/-- ABORT_ALL (R326). -/
def execAbortAll (req : Req) (s : State) : Out := Cmd.write s req (Dma.b + 0x040) (1)

/-- PROGRAM (R337). -/
def execProgram (req : Req) (s : State) : Out := Cmd.write s req (Flash.b + 0x04C) (2 ^ 0)

/-- ERASE_SEC (R337). -/
def execEraseSec (req : Req) (s : State) : Out := Cmd.write s req (Flash.b + 0x04C) (2 ^ 1)

/-- ERASE_BLK (R337). -/
def execEraseBlk (req : Req) (s : State) : Out := Cmd.write s req (Flash.b + 0x04C) (2 ^ 2)

/-- APPEND_GO (R341). -/
def execAppendGo (req : Req) (s : State) : Out := Cmd.write s req (Annal.b + 0x060) (2 ^ 0)

/-- LASTGASP (R344). -/
def execLastgasp (req : Req) (s : State) : Out := Cmd.write s req (Annal.b + 0x060) (2 ^ 1)

/-- DISARM (R344). -/
def execDisarm (req : Req) (s : State) : Out := Cmd.write s req (Annal.b + 0x060) (2 ^ 2)

/-- HARVEST (R342). -/
def execHarvest (req : Req) (s : State) : Out := Cmd.bits s req (Annal.b + 0x040) 1 0 1 (1)

/-- DUMP_SNAP (R347). -/
def execDumpSnap (req : Req) (s : State) : Out := Cmd.write s req (pg 0x093 + 0x044) (1)

/-- DUMP_CHAN (R347). -/
def execDumpChan (req : Req) (s : State) : Out := Cmd.write s req (pg 0x093 + 0x044) (2)

/-! ### Clocks, supervision, power, boot (spec/15 to 17) -/

/-- PLL_RESEARCH (R364). -/
def execPllResearch (req : Req) (pll : Fin 9) (s : State) : Out := Cmd.bits s req (Pll.b pll.val) 1 0 1 (1)

/-- VIG_DUMP (R382). -/
def execVigDump (req : Req) (vigil : Fin 2) (s : State) : Out := Cmd.write s req (Vig.b vigil.val + 0x04C) (2 ^ 0)

/-- VIGIL_SWAP (R384). -/
def execVigilSwap (req : Req) (vigil : Fin 2) (s : State) : Out := Cmd.write s req (Vig.b vigil.val + 0x04C) (2 ^ 1)

/-- RESTART_OTHER (R384). -/
def execRestartOther (req : Req) (vigil : Fin 2) (s : State) : Out := Cmd.write s req (Vig.b vigil.val + 0x04C) (2 ^ 2)

/-- SOFTWARE_FULL_RESET (R403). -/
def execSoftwareFullReset (req : Req) (s : State) : Out := Cmd.write s req (0x04C) (0x52530046)

/-- WARM_RESET (R403). -/
def execWarmReset (req : Req) (s : State) : Out := Cmd.write s req (0x04C) (0x52530057)

/-- WDOG_KICK (R403). -/
def execWdogKick (req : Req) (s : State) : Out := Cmd.write s req (0x054) (1)

/-- BOOT_OK (R397). -/
def execBootOk (req : Req) (s : State) : Out := Cmd.write s req (0x060) (1)

/-- HOST_IMG_WRITE (R399). -/
def execHostImgWrite (req : Req) (addr : BitVec 32) (s : State) : Out := Cmd.write s req (0x064) (addr.toNat)

/-- SUBMIT (R401). -/
def execSubmit (req : Req) (s : State) : Out := Cmd.write s req (0x184) (1)

/-- RELOCK (R401). -/
def execRelock (req : Req) (s : State) : Out := Cmd.write s req (0x184) (2)

/-- HASH_SHA (R403). -/
def execHashSha (req : Req) (s : State) : Out := Cmd.write s req (0x0C8) (1)

/-- HASH_VERIFY (R403). -/
def execHashVerify (req : Req) (s : State) : Out := Cmd.write s req (0x0C8) (2)

/-! ### Field interfaces, test (spec/18, 20) -/

/-- DB_SET (R413). -/
def execDbSet (req : Req) (mask : BitVec 16) (s : State) : Out := Cmd.write s req (Spi.b + 0x050) (mask.toNat)

/-- FIFO_POP (R407): a read of a receive FIFO register at an address. -/
def execFifoPop (req : Req) (addr : BitVec 32) (s : State) : Out :=
  if addr.toNat < Bus.base then .next (s.answer req.code [0] true) else Cmd.read s req (addr.toNat - Bus.base)

/-- FIFO_PUSH (R407): a write of a transmit FIFO register at an address. -/
def execFifoPush (req : Req) (addr value : BitVec 32) (s : State) : Out :=
  .next (Cpu.settle 8 (Bus.commandN s req.code addr.toNat 4 value.toNat))

/-- FIFO control register of an interface, and its RX_FLUSH bit: 0 SPI, 1 to 3 UART, 4 I2C. -/
def Field.flushAt (i : Nat) : Nat × Nat :=
  if i = 0 then (Spi.b + 0x068, 0) else if i ≤ 3 then (Uart.b (i - 1) + 0x05C, 0) else (I2c.b + 0x04C, 2)

/-- RX_FLUSH (R415). -/
def execRxFlush (req : Req) (iface : Fin 5) (s : State) : Out := Cmd.bits s req ((Field.flushAt iface.val).1) 15 (Field.flushAt iface.val).2 1 (1)

/-- TX_FLUSH (R415). -/
def execTxFlush (req : Req) (iface : Fin 5) (s : State) : Out := Cmd.bits s req ((Field.flushAt iface.val).1) 15 ((Field.flushAt iface.val).2 + 1) 1 (1)

/-- CAN_ENABLE (R417). -/
def execCanEnable (req : Req) (can : Fin 2) (s : State) : Out := Cmd.bits s req (Can.b can.val + 0x00C) 2 0 1 (1)

/-- CAN_RECOVER (R420). -/
def execCanRecover (req : Req) (can : Fin 2) (s : State) : Out := Cmd.write s req (Can.b can.val + 0x054) (1)

/-- CAN_CANCEL (R418). -/
def execCanCancel (req : Req) (can : Fin 2) (s : State) : Out := Cmd.write s req (Can.b can.val + 0x054) (2)

/-- CNT_CLR (R424). -/
def execCntClr (req : Req) (uart : Fin 3) (s : State) : Out := Cmd.bits s req (Uart.b uart.val + 0x05C) 7 2 1 (1)

/-- I2C_CMD (R426). -/
def execI2cCmd (req : Req) (value : BitVec 32) (s : State) : Out := Cmd.write s req (I2c.b + 0x048) (value.toNat)

/-- I2C_ABORT (R426). -/
def execI2cAbort (req : Req) (s : State) : Out := Cmd.bits s req (I2c.b + 0x04C) 15 0 1 (1)

/-- I2C_RECOVER (R426). -/
def execI2cRecover (req : Req) (s : State) : Out := Cmd.bits s req (I2c.b + 0x04C) 15 1 1 (1)

/-- GPIO_SET (R428). -/
def execGpioSet (req : Req) (mask : BitVec 16) (s : State) : Out := Cmd.write s req (Gpio.b + 0x048) (mask.toNat)

/-- GPIO_CLR (R428). -/
def execGpioClr (req : Req) (mask : BitVec 16) (s : State) : Out := Cmd.write s req (Gpio.b + 0x04C) (mask.toNat)

/-- GPIO_TGL (R428). -/
def execGpioTgl (req : Req) (mask : BitVec 16) (s : State) : Out := Cmd.write s req (Gpio.b + 0x050) (mask.toNat)

/-- PRBS_ENABLE (R460). -/
def execPrbsEnable (req : Req) (en : Bool) (s : State) : Out := Cmd.bits s req (pg 0x0F0 + 0x044) 2 0 1 (b2n en)

/-- PRBS_CNT_CLR (R460). -/
def execPrbsCntClr (req : Req) (s : State) : Out := Cmd.bits s req (pg 0x0F0 + 0x044) 2 1 1 (1)

end Sys2Proof.Machine
end

