-- ==== Sys2Proof/Machine/SpiFrame.lean ====
section
/-! DEFINITION. The host SPI target's frames (spec/18 R408 to R414).  `mosi` holds the bytes the host drove from byte 0; `reach` says
where SPI_CS_N rose in a frame that answers data: 0 before START, 1 before the last data byte, 2 after it. -/

namespace Sys2Proof.Machine

/-- CRC-16 over bytes, most significant bit first, initial value 0xFFFF (R408). -/
def spiCrc (l : List Nat) : Nat := crc16 (l.flatMap (fun x => (List.range 8).map (fun i => x.testBit (7 - i)))) 0xFFFF

/-- The two CRC bytes, most significant first. -/
def crcBytes (l : List Nat) : List Nat := let c := spiCrc l; [c / 256, c % 256]

/-- RESULT codes (R412). -/
def Spi.OK : Nat := 0x00
def Spi.BUS : Nat := 0x01
def Spi.DENIED : Nat := 0x02
def Spi.CRC : Nat := 0x03
def Spi.LENGTH : Nat := 0x04
def Spi.ALIGN : Nat := 0x05
def Spi.OP : Nat := 0x06
def Spi.BUSY : Nat := 0x07
def Spi.FULL : Nat := 0x08
def Spi.ABANDONED : Nat := 0x09
def Spi.RANGE : Nat := 0x0A

/-- The STAT byte (R408). -/
def Spi.stat (s : State) : Nat :=
  0x50 + 8 * b2n ((s.get 0 Sys.DBG_STAT_SCOPE).testBit 1) + 4 * b2n (Spi.hostIrq s) +
    2 * b2n (s.get Spi.b Spi.HOST_STAT_RESULT != 0) + b2n s.spi.exec.isSome

/-- A frame's end is recorded: RESULT, words done, the first failing access. -/
def Spi.record (s : State) (result done fail : Nat) : State :=
  let s := (s.put Spi.b Spi.HOST_STAT_RESULT result).put Spi.b Spi.HOST_FAIL_ADDR fail
  let s := s.modSpi (fun x => { x with done := done })
  s.raiseIf (result != Spi.OK) Spi.p 1

/-- A complete frame: counted, FRAME_DONE, and guard 21's qualifying event (R414). -/
def Spi.complete (s : State) (result done fail : Nat) : State :=
  Guard.restart ((Spi.record (s.countWrap Spi.b Spi.HOST_STAT_FRAMES) result done fail).raise Spi.p 0) 21

/-- What MISO sent, without wait bytes. -/
def Spi.sent (s : State) (l : List Nat) : State := s.modSpi (fun x => { x with miso := l })

/-! ### Accesses of the target (R410) -/

/-- What an access meets: a value, a failure, or a page that does not answer now. -/
inductive SpiAcc where
  | ok (v : Nat) | fail (result : Nat) | wait
  deriving DecidableEq, Repr

/-- The failure of a register access: DENIED outside the grant. -/
def Spi.refusal (s : State) (a : Nat) : Nat :=
  if Bus.denied s 7 ((a - Bus.base) / 0x1000) then Spi.DENIED else Spi.BUS

/-- Read a word: what a gated-off island has not acknowledged within 100 µs ends with a bus error (spec/01 R27, R28). -/
def Spi.readWord (s : State) (a : Nat) : SpiAcc × State :=
  if rangeFor a 4 = .regs then
    match Bus.read s 7 a with
    | (.ok v, s) => (.ok v, s)
    | (.err, s) => (.fail (Spi.refusal s a), s)
    | (.held, s) => if Bus.island a ∈ s.stalled then (.fail Spi.BUS, s.runTo (s.now + 64000)) else (.wait, s)
  else if s.flashWaits a then (.wait, s)
  else
    match s.devRead a 4 with
    | (s, some l) => (.ok (leNat l), s)
    | (s, none) => (.fail Spi.BUS, s)

/-- Write a word. -/
def Spi.writeWord (s : State) (a v : Nat) : SpiAcc × State :=
  if rangeFor a 4 = .regs then
    match Bus.write s 7 a v with
    | (.ok _, s) => (.ok 0, s)
    | (.err, s) => (.fail (Spi.refusal s a), s)
    | (.held, s) => (.wait, s)
  else
    match s.devWrite a (leBytes 4 v) with
    | (s, true) => (.ok 0, s)
    | (s, false) => (.fail Spi.BUS, s)

/-- `n` words read: their values (0 for a failing one), the first failure, and the state; `none` when a page does not answer. -/
def Spi.readAll (fixed : Bool) : Nat → Nat → State → Option (List Nat × Option (Nat × Nat) × State)
  | 0, _, s => some ([], none, s)
  | n + 1, a, s =>
    match Spi.readWord s a with
    | (.wait, _) => none
    | (r, s) =>
      match Spi.readAll fixed n (if fixed then a else (a + 4) % 2 ^ 32) s with
      | none => none
      | some (l, e, s) =>
        match r with
        | .ok v => some (v :: l, e, s)
        | .fail c => some (0 :: l, some (c, a), s)
        | .wait => none

/-- How a WRITE goes on: it is over, with the words written and the first failure, or it waits at a word. -/
inductive SpiEnd where
  | over (k : Nat) (e : Option (Nat × Nat)) | waits (k a v : Nat) (rest : List Nat)
  deriving DecidableEq, Repr

/-- Words written in order, `k` of them before. -/
def Spi.writeAll (fixed : Bool) : List Nat → Nat → Nat → State → SpiEnd × State
  | [], _, k, s => (.over k none, s)
  | v :: t, a, k, s =>
    match Spi.writeWord s a v with
    | (.wait, s) => (.waits k a v (v :: t), s)
    | (.fail c, s) => (.over k (some (c, a)), s)
    | (.ok _, s) => Spi.writeAll fixed t (if fixed then a else (a + 4) % 2 ^ 32) (k + 1) s

/-! ### Frames (R409, R411, R412) -/

/-- Fields of a frame's header. -/
structure SpiHead where
  op    : Nat
  fixed : Bool
  addr  : Nat
  count : Nat
  deriving DecidableEq, Repr

/-- The header of a frame of at least 7 bytes. -/
def Spi.head (l : List Nat) : SpiHead :=
  let c := l.headD 0
  ⟨c / 16, c.testBit 3, leNat ((l.drop 1).take 4), leNat ((l.drop 5).take 2)⟩

/-- Is CRC_EN set? -/
def Spi.crcOn (s : State) : Bool := s.flag Spi.b Spi.HOST_CFG_CRC_EN

/-- Words of a list of bytes. -/
def Spi.wordsOf (l : List Nat) : Nat → List Nat
  | 0 => []
  | n + 1 => leNat (l.take 4) :: Spi.wordsOf (l.drop 4) n

/-- A WRITE or PUSH frame: discarded, or it executes (SPI_WRITE_DONE ends it). -/
def Spi.writeFrame (s : State) (l : List Nat) (h : SpiHead) (push : Bool) : State :=
  let crc := Spi.crcOn s
  let n := 7 + 4 * h.count + 2 * b2n crc
  let s := Spi.sent s (Spi.stat s :: List.replicate 6 0)
  if l.length < 7 then Spi.record s Spi.LENGTH 0 0
  else if h.count = 0 ∨ (if push then 256 else 1024) < h.count then Spi.record s Spi.RANGE 0 0
  else if l.length ≠ n then Spi.record s Spi.LENGTH 0 0
  else if crc && l.drop (n - 2) != crcBytes (l.take (n - 2)) then Spi.complete s Spi.CRC 0 0
  else if !push ∧ h.addr % 4 ≠ 0 then Spi.complete s Spi.ALIGN 0 h.addr
  else if s.spi.exec.isSome then Spi.complete s Spi.BUSY 0 0
  else
    let words := Spi.wordsOf (l.drop 7) h.count
    (s.modSpi (fun x => { x with exec := some (push, h.fixed, h.addr, words), wrote := 0 })).put Spi.b Spi.HOST_STAT_BUSY 1

/-- START, data and, with CRC_EN, their CRC. -/
def Spi.dataBytes (s : State) (l : List Nat) : List Nat := 0xA5 :: (l ++ if Spi.crcOn s then crcBytes l else [])

/-- Header errors of a READ or PULL. -/
def Spi.headError (s : State) (l : List Nat) (h : SpiHead) (pull : Bool) : Option Nat :=
  if h.count = 0 ∨ (if pull then 256 else 1024) < h.count then some Spi.RANGE
  else if Spi.crcOn s && (l.drop 7).take 2 != crcBytes (l.take 7) then some Spi.CRC
  else if !pull && h.addr % 4 != 0 then some Spi.ALIGN
  else none

/-- Bytes of a READ or PULL before its data: STAT and zeros. -/
def Spi.lead (s : State) : List Nat := Spi.stat s :: List.replicate (if Spi.crcOn s then 8 else 6) 0

/-- A READ frame (R411): all accesses are made before START; abandoned before it, those already issued (a free number) stand. -/
def Spi.readFrame (s : State) (l : List Nat) (h : SpiHead) (reach : Nat) : State :=
  if l.length < (if Spi.crcOn s then 9 else 7) then (if reach = 0 then Spi.record s Spi.ABANDONED 0 0 else s)
  else
    match Spi.headError s l h false with
    | some e => Spi.record s e 0 0
    | none =>
      if reach = 0 then
        if s.spi.exec.isSome then Spi.record s Spi.ABANDONED 0 0
        else
          let (k, s) := s.draw (h.count + 1)
          match Spi.readAll h.fixed k h.addr s with
          | none => Spi.record s Spi.ABANDONED 0 0
          | some (_, _, t) => Spi.record t Spi.ABANDONED k 0
      else if s.spi.exec.isSome then s
      else
        match Spi.readAll h.fixed h.count h.addr s with
        | none => s
        | some (v, e, t) =>
          let out := Spi.lead s ++ Spi.dataBytes s (v.flatMap (leBytes 4))
          let t := Spi.sent t out
          if reach = 2 then
            let (c, a) := e.getD (Spi.OK, 0)
            Spi.complete t c h.count a
          else t

/-- A PULL frame: words leave the transmit FIFO once it holds COUNT of them. -/
def Spi.pullFrame (s : State) (l : List Nat) (h : SpiHead) (reach : Nat) : State :=
  if l.length < (if Spi.crcOn s then 9 else 7) then (if reach = 0 then Spi.record s Spi.ABANDONED 0 0 else s)
  else
    match Spi.headError s l h true with
    | some e => Spi.record s e 0 0
    | none =>
      if reach = 0 then Spi.record s Spi.ABANDONED 0 0
      else if s.spi.exec.isSome ∨ s.spi.txf.length < h.count then s
      else
        let v := s.spi.txf.take h.count
        let t := Spi.sent s (Spi.lead s ++ Spi.dataBytes s (v.flatMap (leBytes 4)))
        let before := Spi.txReq s
        let (k, t) := if reach = 2 then (h.count, t) else t.draw (h.count + 1)
        let t := Spi.levels (t.modSpi (fun x => { x with txf := x.txf.drop k }))
        let t := t.raiseIf (!before && Spi.txReq t) Spi.p 4
        if reach = 2 then Spi.complete t Spi.OK h.count 0 else t

/-- A STATUS frame; one that ends within its header is not complete (R409). -/
def Spi.statusFrame (s : State) (l : List Nat) : State :=
  if l.length < 7 then s else
  let w0 := s.get Spi.b Spi.HOST_STAT_RESULT + 2 ^ 16 * s.spi.done
  let w1 := s.get Spi.b Spi.HOST_FAIL_ADDR
  let out := Spi.stat s :: List.replicate 6 0 ++ [0xA5] ++ leBytes 4 w0 ++ leBytes 4 w1
  Spi.complete (Spi.sent s out) Spi.OK 0 0

/-- A DOORBELL frame (R413). -/
def Spi.bellFrame (s : State) (l : List Nat) (h : SpiHead) (reach : Nat) : State :=
  if l.length < 7 then s
  else
    let db := s.get Spi.b Spi.HOST_DB_DB
    let set := h.addr % 2 ^ 16
    let t := Spi.sent s (Spi.stat s :: List.replicate 6 0 ++ [0xA5] ++ leBytes 4 db)
    let t := t.put Spi.b Spi.FW_DB_DB (t.get Spi.b Spi.FW_DB_DB ||| set)
    let t := t.raiseIf (set != 0) Spi.p 2
    if reach = 2 then Spi.complete (t.put Spi.b Spi.HOST_DB_DB 0) Spi.OK 0 0 else t

/-- A frame, by the OP its first byte holds (DEDUCED, log entry 92). -/
def Spi.frame (s : State) (mosi : List (BitVec 8)) (reach : Nat) : State :=
  let l := mosi.map (·.toNat)
  let h := Spi.head l
  if !s.en Spi.p ∨ !s.running .fabric ∨ l = [] then s
  else if s.flag (pg Spi.p) H.BUSY then s
  else if s.spi.deaf then s.modSpi (fun x => { x with deaf := false })
  else if h.op = 1 then Spi.writeFrame s l h false
  else if h.op = 2 then Spi.readFrame s l h reach
  else if h.op = 3 then Spi.statusFrame s l
  else if h.op = 4 then Spi.bellFrame s l h reach
  else if h.op = 5 then Spi.writeFrame s l h true
  else if h.op = 6 then Spi.pullFrame s l h reach
  else Spi.record s Spi.OP 0 0

/-- SPI_WRITE. -/
def execSpiWrite (mosi : List (BitVec 8)) (s : State) : Out := .next (Spi.frame s mosi 2)

/-- SPI_READ. -/
def execSpiRead (mosi : List (BitVec 8)) (reach : Fin 3) (s : State) : Out := .next (Spi.frame s mosi reach.val)

/-- SPI_STATUS. -/
def execSpiStatus (mosi : List (BitVec 8)) (s : State) : Out := .next (Spi.frame s mosi 2)

/-- DOORBELL. -/
def execDoorbell (mosi : List (BitVec 8)) (reach : Fin 3) (s : State) : Out := .next (Spi.frame s mosi reach.val)

/-- PUSH. -/
def execPush (mosi : List (BitVec 8)) (s : State) : Out := .next (Spi.frame s mosi 2)

/-- PULL. -/
def execPull (mosi : List (BitVec 8)) (reach : Fin 3) (s : State) : Out := .next (Spi.frame s mosi reach.val)

/-- A PUSH execution: every word, or FULL. -/
def Spi.pushDone (s : State) (words : List Nat) : State :=
  if 256 < s.spi.rxf.length + words.length then Spi.complete s Spi.FULL 0 0
  else
    let before := Spi.rxReq s
    let t := Spi.levels (s.modSpi (fun x => { x with rxf := x.rxf ++ words }))
    Spi.complete (t.raiseIf (!before && Spi.rxReq t) Spi.p 3) Spi.OK words.length 0

/-- SPI_WRITE_DONE (R412): the WRITE or PUSH that executes ends; a WRITE waits at a word whose page does not answer, until it does or the
fabric ends the access with a bus error (spec/01 R27, R28). -/
def execSpiWriteDone (s : State) : Out :=
  match s.spi.exec with
  | none => .next s
  | some (push, fixed, a, words) =>
    if !s.running .fabric then .next s
    else
      let done := s.spi.wrote
      let idle (t : State) : State :=
        ({ t with held := t.held.filter (fun h => decide (h.req ≠ 12)) }.modSpi (fun x =>
          { x with exec := none, wrote := 0 })).put Spi.b Spi.HOST_STAT_BUSY 0
      if push then .next (Spi.pushDone (idle s) words)
      else if s.held.any (fun h => h.req == 12 && h.n == 0) then .next (Spi.complete (idle s) Spi.BUS done a)
      else
        match Spi.writeAll fixed words a done s with
        | (.waits k a v rest, t) =>
          .next ((t.modSpi (fun x => { x with exec := some (push, fixed, a, rest), wrote := k })).wait ⟨12, a, true, v, 4⟩)
        | (.over k e, t) =>
          let (c, f) := e.getD (Spi.OK, 0)
          .next (Cpu.settle 8 (Spi.complete (idle t) c k f))

end Sys2Proof.Machine
end

