-- ==== Sys2Proof/Machine/Dispatch.lean ====
section
/-! DEFINITION. The dispatch: one arm per command, each a direct call of its meaning. -/

namespace Sys2Proof.Machine

/-- The effect of a command on everything but the queue. -/
def exec (i : Instr) (s : State) : Host.Outcome State Fault Refusal :=
  match i with
  | .registerWrite req size addr value => Sys2Proof.Machine.execRegisterWrite req size addr value s
  | .registerAccessTimeout req addr write => Sys2Proof.Machine.execRegisterAccessTimeout req addr write s
  | .commitWrite req target gen => Sys2Proof.Machine.execCommitWrite req target gen s
  | .commitHandOver target => Sys2Proof.Machine.execCommitHandOver target s
  | .pageLock req page => Sys2Proof.Machine.execPageLock req page s
  | .pageLockSticky req page => Sys2Proof.Machine.execPageLockSticky req page s
  | .pageUnlock req page => Sys2Proof.Machine.execPageUnlock req page s
  | .irqClr req target mask => Sys2Proof.Machine.execIrqClr req target mask s
  | .errClear req page => Sys2Proof.Machine.execErrClear req page s
  | .pageEnable req page en => Sys2Proof.Machine.execPageEnable req page en s
  | .softReset req page en freeze => Sys2Proof.Machine.execSoftReset req page en freeze s
  | .softResetDone page => Sys2Proof.Machine.execSoftResetDone page s
  | .freeze req page => Sys2Proof.Machine.execFreeze req page s
  | .freezeDone page feed => Sys2Proof.Machine.execFreezeDone page feed s
  | .unfreeze req page => Sys2Proof.Machine.execUnfreeze req page s
  | .swiSet req mask => Sys2Proof.Machine.execSwiSet req mask s
  | .swiClr req mask => Sys2Proof.Machine.execSwiClr req mask s
  | .interruptEntry core => Sys2Proof.Machine.execInterruptEntry core s
  | .updateTick c0 c1 c2 c3 => Sys2Proof.Machine.execUpdateTick c0 c1 c2 c3 s
  | .calDc req chain => Sys2Proof.Machine.execCalDc req chain s
  | .calFilter req chain => Sys2Proof.Machine.execCalFilter req chain s
  | .calImage req chain => Sys2Proof.Machine.execCalImage req chain s
  | .calOsc req chain => Sys2Proof.Machine.execCalOsc req chain s
  | .calAll req chain => Sys2Proof.Machine.execCalAll req chain s
  | .calResultWrite req chain which value => Sys2Proof.Machine.execCalResultWrite req chain which value s
  | .chainEnable req chain => Sys2Proof.Machine.execChainEnable req chain s
  | .spectrumRecord chain done pre post => Sys2Proof.Machine.execSpectrumRecord chain done pre post s
  | .biasFoldback antenna => Sys2Proof.Machine.execBiasFoldback antenna s
  | .biasRetry antenna => Sys2Proof.Machine.execBiasRetry antenna s
  | .snapStart req => Sys2Proof.Machine.execSnapStart req s
  | .snapCapture fire late => Sys2Proof.Machine.execSnapCapture fire late s
  | .snapStop req => Sys2Proof.Machine.execSnapStop req s
  | .capDone feed => Sys2Proof.Machine.execCapDone feed s
  | .capOverrun held => Sys2Proof.Machine.execCapOverrun held s
  | .qTailWrite req engine tail => Sys2Proof.Machine.execQTailWrite req engine tail s
  | .jobStart engine => Sys2Proof.Machine.execJobStart engine s
  | .jobDone engine waits => Sys2Proof.Machine.execJobDone engine waits s
  | .jobAbort req engine => Sys2Proof.Machine.execJobAbort req engine s
  | .jobFlush req engine => Sys2Proof.Machine.execJobFlush req engine s
  | .channelRun req chan => Sys2Proof.Machine.execChannelRun req chan s
  | .channelStop req chan => Sys2Proof.Machine.execChannelStop req chan s
  | .channelStart chan => Sys2Proof.Machine.execChannelStart chan s
  | .intervalEnd chan feed => Sys2Proof.Machine.execIntervalEnd chan feed s
  | .dumpRecordWrite => Sys2Proof.Machine.execDumpRecordWrite s
  | .ovfClr req => Sys2Proof.Machine.execOvfClr req s
  | .groupCommit req mask feed => Sys2Proof.Machine.execGroupCommit req mask feed s
  | .groupCommitAction group fire feed => Sys2Proof.Machine.execGroupCommitAction group fire feed s
  | .grpArm req group gen => Sys2Proof.Machine.execGrpArm req group gen s
  | .readbackCapture req chan => Sys2Proof.Machine.execReadbackCapture req chan s
  | .trkgEnable req en => Sys2Proof.Machine.execTrkgEnable req en s
  | .csDataWrite req value => Sys2Proof.Machine.execCsDataWrite req value s
  | .csDataRead req => Sys2Proof.Machine.execCsDataRead req s
  | .crcStart req => Sys2Proof.Machine.execCrcStart req s
  | .crcDone => Sys2Proof.Machine.execCrcDone s
  | .manualLatch req clr => Sys2Proof.Machine.execManualLatch req clr s
  | .measLatch own fire late => Sys2Proof.Machine.execMeasLatch own fire late s
  | .blockDone => Sys2Proof.Machine.execBlockDone s
  | .measCntClr req => Sys2Proof.Machine.execMeasCntClr req s
  | .cdlEnable req en => Sys2Proof.Machine.execCdlEnable req en s
  | .dllLock => Sys2Proof.Machine.execDllLock s
  | .lanesUp lock => Sys2Proof.Machine.execLanesUp lock s
  | .idleFrame f => Sys2Proof.Machine.execIdleFrame f s
  | .epoch f => Sys2Proof.Machine.execEpoch f s
  | .setGsc f => Sys2Proof.Machine.execSetGsc f s
  | .ping f turn => Sys2Proof.Machine.execPing f turn s
  | .dllSet f => Sys2Proof.Machine.execDllSet f s
  | .msgFrame f block => Sys2Proof.Machine.execMsgFrame f block s
  | .leave f => Sys2Proof.Machine.execLeave f s
  | .pong h seq turn elapsed => Sys2Proof.Machine.execPong h seq turn elapsed s
  | .statusBlock h state iso sends valid => Sys2Proof.Machine.execStatusBlock h state iso sends valid s
  | .sampleFrame h gsc data => Sys2Proof.Machine.execSampleFrame h gsc data s
  | .statusSend due => Sys2Proof.Machine.execStatusSend due s
  | .dllTrack step => Sys2Proof.Machine.execDllTrack step s
  | .dllLost => Sys2Proof.Machine.execDllLost s
  | .clkInLoss => Sys2Proof.Machine.execClkInLoss s
  | .syncTimeout => Sys2Proof.Machine.execSyncTimeout s
  | .memberLost pos => Sys2Proof.Machine.execMemberLost pos s
  | .align req => Sys2Proof.Machine.execAlign req s
  | .cdlLeave req => Sys2Proof.Machine.execCdlLeave req s
  | .msgSend req => Sys2Proof.Machine.execMsgSend req s
  | .msgTxDone => Sys2Proof.Machine.execMsgTxDone s
  | .cdlCntClr req => Sys2Proof.Machine.execCdlCntClr req s
  | .epochAnnounce instant => Sys2Proof.Machine.execEpochAnnounce instant s
  | .covWindowEnd win => Sys2Proof.Machine.execCovWindowEnd win s
  | .coastEnter lost second => Sys2Proof.Machine.execCoastEnter lost second s
  | .coastExit => Sys2Proof.Machine.execCoastExit s
  | .timeUpdateTick => Sys2Proof.Machine.execTimeUpdateTick s
  | .secondTick => Sys2Proof.Machine.execSecondTick s
  | .tcap req => Sys2Proof.Machine.execTcap req s
  | .leaseRenew req mask => Sys2Proof.Machine.execLeaseRenew req mask s
  | .leaseLenWrite req ts len => Sys2Proof.Machine.execLeaseLenWrite req ts len s
  | .leaseExpiry ts => Sys2Proof.Machine.execLeaseExpiry ts s
  | .holdBoundUpdate ts => Sys2Proof.Machine.execHoldBoundUpdate ts s
  | .stepPermit entry => Sys2Proof.Machine.execStepPermit entry s
  | .leapEvent entry => Sys2Proof.Machine.execLeapEvent entry s
  | .occurrenceConvert entry => Sys2Proof.Machine.execOccurrenceConvert entry s
  | .actionDispatch entry => Sys2Proof.Machine.execActionDispatch entry s
  | .occurrenceFire entry => Sys2Proof.Machine.execOccurrenceFire entry s
  | .calTimer entry => Sys2Proof.Machine.execCalTimer entry s
  | .tpPulse entry => Sys2Proof.Machine.execTpPulse entry s
  | .cycPulse entry => Sys2Proof.Machine.execCycPulse entry s
  | .pulseEnd pad => Sys2Proof.Machine.execPulseEnd pad s
  | .padCtlWrite req pad value => Sys2Proof.Machine.execPadCtlWrite req pad value s
  | .cancel req entry => Sys2Proof.Machine.execCancel req entry s
  | .clearAll req => Sys2Proof.Machine.execClearAll req s
  | .calEnable req => Sys2Proof.Machine.execCalEnable req s
  | .eventCapture input t fine rising => Sys2Proof.Machine.execEventCapture input t fine rising s
  | .evtWindow entry => Sys2Proof.Machine.execEvtWindow entry s
  | .windowClose input => Sys2Proof.Machine.execWindowClose input s
  | .evtRecordWrite => Sys2Proof.Machine.execEvtRecordWrite s
  | .evtFlush req => Sys2Proof.Machine.execEvtFlush req s
  | .frameReceive rx => Sys2Proof.Machine.execFrameReceive rx s
  | .sync rx => Sys2Proof.Machine.execSync rx s
  | .followUp rx => Sys2Proof.Machine.execFollowUp rx s
  | .delayReq rx => Sys2Proof.Machine.execDelayReq rx s
  | .delayResp rx => Sys2Proof.Machine.execDelayResp rx s
  | .pdelayReq rx => Sys2Proof.Machine.execPdelayReq rx s
  | .pdelayResp rx => Sys2Proof.Machine.execPdelayResp rx s
  | .announce rx => Sys2Proof.Machine.execAnnounce rx s
  | .accept req slot => Sys2Proof.Machine.execAccept req slot s
  | .reseed req slot => Sys2Proof.Machine.execReseed req slot s
  | .tcEntryExpire => Sys2Proof.Machine.execTcEntryExpire s
  | .htxWpWrite req wp => Sys2Proof.Machine.execHtxWpWrite req wp s
  | .hostFrameSend launch => Sys2Proof.Machine.execHostFrameSend launch s
  | .hostTxDone t fine => Sys2Proof.Machine.execHostTxDone t fine s
  | .linkUp port speed full master => Sys2Proof.Machine.execLinkUp port speed full master s
  | .linkDown port => Sys2Proof.Machine.execLinkDown port s
  | .addressAge mac => Sys2Proof.Machine.execAddressAge mac s
  | .radioEnable req en => Sys2Proof.Machine.execRadioEnable req en s
  | .radioSleep req => Sys2Proof.Machine.execRadioSleep req s
  | .radioIdle req => Sys2Proof.Machine.execRadioIdle req s
  | .radioRx req => Sys2Proof.Machine.execRadioRx req s
  | .radioTxCmd req desc => Sys2Proof.Machine.execRadioTxCmd req desc s
  | .radioOff req => Sys2Proof.Machine.execRadioOff req s
  | .radioAbort req => Sys2Proof.Machine.execRadioAbort req s
  | .radioTx fire arg => Sys2Proof.Machine.execRadioTx fire arg s
  | .receiveSlot fire arg => Sys2Proof.Machine.execReceiveSlot fire arg s
  | .synthReady locked band => Sys2Proof.Machine.execSynthReady locked band s
  | .txEnd => Sys2Proof.Machine.execTxEnd s
  | .txUnderrun t => Sys2Proof.Machine.execTxUnderrun t s
  | .radioCalDc req => Sys2Proof.Machine.execRadioCalDc req s
  | .radioCalFilter req => Sys2Proof.Machine.execRadioCalFilter req s
  | .radioCalImage req => Sys2Proof.Machine.execRadioCalImage req s
  | .radioCalOsc req => Sys2Proof.Machine.execRadioCalOsc req s
  | .radioCalAll req => Sys2Proof.Machine.execRadioCalAll req s
  | .radioCalStart => Sys2Proof.Machine.execRadioCalStart s
  | .radioCalDone res bands => Sys2Proof.Machine.execRadioCalDone res bands s
  | .hopWrite req hop freq => Sys2Proof.Machine.execHopWrite req hop freq s
  | .preambleDetect t rssi1 rssi2 => Sys2Proof.Machine.execPreambleDetect t rssi1 rssi2 s
  | .sfdDetect t => Sys2Proof.Machine.execSfdDetect t s
  | .rxFrame ms fcs2 whiten psdu rssi freqErr overrun => Sys2Proof.Machine.execRxFrame ms fcs2 whiten psdu rssi freqErr overrun s
  | .slotWindowOpen => Sys2Proof.Machine.execSlotWindowOpen s
  | .slotWindowClose => Sys2Proof.Machine.execSlotWindowClose s
  | .nop core => Sys2Proof.Machine.execNop core s
  | .mov core f d x t => Sys2Proof.Machine.execMov core f d x t s
  | .movsx core f d x t => Sys2Proof.Machine.execMovsx core f d x t s
  | .movzx core f d x t => Sys2Proof.Machine.execMovzx core f d x t s
  | .lea core f d x t => Sys2Proof.Machine.execLea core f d x t s
  | .swap core f d x t => Sys2Proof.Machine.execSwap core f d x t s
  | .cas core f d x t => Sys2Proof.Machine.execCas core f d x t s
  | .add core f d x t => Sys2Proof.Machine.execAdd core f d x t s
  | .sub core f d x t => Sys2Proof.Machine.execSub core f d x t s
  | .adc core f d x t => Sys2Proof.Machine.execAdc core f d x t s
  | .sbc core f d x t => Sys2Proof.Machine.execSbc core f d x t s
  | .neg core f d x t => Sys2Proof.Machine.execNeg core f d x t s
  | .abs core f d x t => Sys2Proof.Machine.execAbs core f d x t s
  | .cmp core f d x t => Sys2Proof.Machine.execCmp core f d x t s
  | .min core f d x t => Sys2Proof.Machine.execMin core f d x t s
  | .max core f d x t => Sys2Proof.Machine.execMax core f d x t s
  | .minu core f d x t => Sys2Proof.Machine.execMinu core f d x t s
  | .maxu core f d x t => Sys2Proof.Machine.execMaxu core f d x t s
  | .mul core f d x t => Sys2Proof.Machine.execMul core f d x t s
  | .mulh core f d x t => Sys2Proof.Machine.execMulh core f d x t s
  | .mulhu core f d x t => Sys2Proof.Machine.execMulhu core f d x t s
  | .div core f d x t => Sys2Proof.Machine.execDiv core f d x t s
  | .rem core f d x t => Sys2Proof.Machine.execRem core f d x t s
  | .divu core f d x t => Sys2Proof.Machine.execDivu core f d x t s
  | .remu core f d x t => Sys2Proof.Machine.execRemu core f d x t s
  | .and core f d x t => Sys2Proof.Machine.execAnd core f d x t s
  | .or core f d x t => Sys2Proof.Machine.execOr core f d x t s
  | .xor core f d x t => Sys2Proof.Machine.execXor core f d x t s
  | .not core f d x t => Sys2Proof.Machine.execNot core f d x t s
  | .tst core f d x t => Sys2Proof.Machine.execTst core f d x t s
  | .btst core f d x t => Sys2Proof.Machine.execBtst core f d x t s
  | .bset core f d x t => Sys2Proof.Machine.execBset core f d x t s
  | .bclr core f d x t => Sys2Proof.Machine.execBclr core f d x t s
  | .binv core f d x t => Sys2Proof.Machine.execBinv core f d x t s
  | .clz core f d x t => Sys2Proof.Machine.execClz core f d x t s
  | .popc core f d x t => Sys2Proof.Machine.execPopc core f d x t s
  | .shl core f d x t => Sys2Proof.Machine.execShl core f d x t s
  | .shr core f d x t => Sys2Proof.Machine.execShr core f d x t s
  | .sar core f d x t => Sys2Proof.Machine.execSar core f d x t s
  | .rol core f d x t => Sys2Proof.Machine.execRol core f d x t s
  | .ror core f d x t => Sys2Proof.Machine.execRor core f d x t s
  | .fadd core f d x t => Sys2Proof.Machine.execFadd core f d x t s
  | .fsub core f d x t => Sys2Proof.Machine.execFsub core f d x t s
  | .fmul core f d x t => Sys2Proof.Machine.execFmul core f d x t s
  | .fdiv core f d x t => Sys2Proof.Machine.execFdiv core f d x t s
  | .fsqrt core f d x t => Sys2Proof.Machine.execFsqrt core f d x t s
  | .fma core f d x t => Sys2Proof.Machine.execFma core f d x t s
  | .fcmp core f d x t => Sys2Proof.Machine.execFcmp core f d x t s
  | .fmin core f d x t => Sys2Proof.Machine.execFmin core f d x t s
  | .fmax core f d x t => Sys2Proof.Machine.execFmax core f d x t s
  | .fabs core f d x t => Sys2Proof.Machine.execFabs core f d x t s
  | .fneg core f d x t => Sys2Proof.Machine.execFneg core f d x t s
  | .cvt core f d x t => Sys2Proof.Machine.execCvt core f d x t s
  | .cvtu core f d x t => Sys2Proof.Machine.execCvtu core f d x t s
  | .mac core f d x => Sys2Proof.Machine.execMac core f d x s
  | .msu core f d x => Sys2Proof.Machine.execMsu core f d x s
  | .macu core f d x => Sys2Proof.Machine.execMacu core f d x s
  | .cmac core f d x => Sys2Proof.Machine.execCmac core f d x s
  | .cmacj core f d x => Sys2Proof.Machine.execCmacj core f d x s
  | .dot4 core f d x => Sys2Proof.Machine.execDot4 core f d x s
  | .aclr core f => Sys2Proof.Machine.execAclr core f s
  | .ald core f x => Sys2Proof.Machine.execAld core f x s
  | .aext core f d x => Sys2Proof.Machine.execAext core f d x s
  | .asave core f x => Sys2Proof.Machine.execAsave core f x s
  | .arstr core f x => Sys2Proof.Machine.execArstr core f x s
  | .bcc core cond d => Sys2Proof.Machine.execBcc core cond d s
  | .bccl core cond d => Sys2Proof.Machine.execBccl core cond d s
  | .call core d => Sys2Proof.Machine.execCall core d s
  | .jmp core x => Sys2Proof.Machine.execJmp core x s
  | .jsr core x => Sys2Proof.Machine.execJsr core x s
  | .ret core => Sys2Proof.Machine.execRet core s
  | .rte core => Sys2Proof.Machine.execRte core s
  | .sys core imm => Sys2Proof.Machine.execSys core imm s
  | .bkpt core => Sys2Proof.Machine.execBkpt core s
  | .wait core => Sys2Proof.Machine.execWait core s
  | .waitEnd core => Sys2Proof.Machine.execWaitEnd core s
  | .fence core => Sys2Proof.Machine.execFence core s
  | .ifence core => Sys2Proof.Machine.execIfence core s
  | .rep core x => Sys2Proof.Machine.execRep core x s
  | .mfc core cr d => Sys2Proof.Machine.execMfc core cr d s
  | .mtc core cr x => Sys2Proof.Machine.execMtc core cr x s
  | .feat core ix d => Sys2Proof.Machine.execFeat core ix d s
  | .djnz core r d => Sys2Proof.Machine.execDjnz core r d s
  | .writeBufferDrain core entry => Sys2Proof.Machine.execWriteBufferDrain core entry s
  | .coreStart req core => Sys2Proof.Machine.execCoreStart req core s
  | .coreHalt req core => Sys2Proof.Machine.execCoreHalt req core s
  | .coreResume req core => Sys2Proof.Machine.execCoreResume req core s
  | .coreStep req core => Sys2Proof.Machine.execCoreStep req core s
  | .dbgDataRead req core => Sys2Proof.Machine.execDbgDataRead req core s
  | .dbgDataWrite req core value => Sys2Proof.Machine.execDbgDataWrite req core value s
  | .perfClr req core => Sys2Proof.Machine.execPerfClr req core s
  | .dmaStartCmd req chan => Sys2Proof.Machine.execDmaStartCmd req chan s
  | .dmaStart fire chan => Sys2Proof.Machine.execDmaStart fire chan s
  | .dmaRequest chan => Sys2Proof.Machine.execDmaRequest chan s
  | .dmaBurstDone => Sys2Proof.Machine.execDmaBurstDone s
  | .setComplete chan => Sys2Proof.Machine.execSetComplete chan s
  | .feedFetch chan => Sys2Proof.Machine.execFeedFetch chan s
  | .dmaAbort req chan => Sys2Proof.Machine.execDmaAbort req chan s
  | .abortAll req => Sys2Proof.Machine.execAbortAll req s
  | .scrubStep => Sys2Proof.Machine.execScrubStep s
  | .program req => Sys2Proof.Machine.execProgram req s
  | .eraseSec req => Sys2Proof.Machine.execEraseSec req s
  | .eraseBlk req => Sys2Proof.Machine.execEraseBlk req s
  | .flashOpDone => Sys2Proof.Machine.execFlashOpDone s
  | .eraseSuspend => Sys2Proof.Machine.execEraseSuspend s
  | .eraseResume => Sys2Proof.Machine.execEraseResume s
  | .appendGo req => Sys2Proof.Machine.execAppendGo req s
  | .lastgasp req => Sys2Proof.Machine.execLastgasp req s
  | .disarm req => Sys2Proof.Machine.execDisarm req s
  | .appendDone => Sys2Proof.Machine.execAppendDone s
  | .harvest req => Sys2Proof.Machine.execHarvest req s
  | .harvestDone => Sys2Proof.Machine.execHarvestDone s
  | .recoveryScan => Sys2Proof.Machine.execRecoveryScan s
  | .recovered => Sys2Proof.Machine.execRecovered s
  | .dumpSnap req => Sys2Proof.Machine.execDumpSnap req s
  | .dumpChan req => Sys2Proof.Machine.execDumpChan req s
  | .captureDone => Sys2Proof.Machine.execCaptureDone s
  | .refWindow fofs => Sys2Proof.Machine.execRefWindow fofs s
  | .refLoss => Sys2Proof.Machine.execRefLoss s
  | .pllWindow pll count noBand band phErr skew => Sys2Proof.Machine.execPllWindow pll count noBand band phErr skew s
  | .fastTrip pll => Sys2Proof.Machine.execFastTrip pll s
  | .pllResearch req pll => Sys2Proof.Machine.execPllResearch req pll s
  | .heartbeat vigil => Sys2Proof.Machine.execHeartbeat vigil s
  | .heartbeatMissed vigil => Sys2Proof.Machine.execHeartbeatMissed vigil s
  | .vigOscCal vigil khz => Sys2Proof.Machine.execVigOscCal vigil khz s
  | .selfCheck vigil ok => Sys2Proof.Machine.execSelfCheck vigil ok s
  | .recipeStepDone cls => Sys2Proof.Machine.execRecipeStepDone cls s
  | .hang island page => Sys2Proof.Machine.execHang island page s
  | .lastResort => Sys2Proof.Machine.execLastResort s
  | .faultNRelease => Sys2Proof.Machine.execFaultNRelease s
  | .vigDump req vigil => Sys2Proof.Machine.execVigDump req vigil s
  | .dumpDone => Sys2Proof.Machine.execDumpDone s
  | .vigilSwap req vigil => Sys2Proof.Machine.execVigilSwap req vigil s
  | .restartOther req vigil => Sys2Proof.Machine.execRestartOther req vigil s
  | .guardSample guard value => Sys2Proof.Machine.execGuardSample guard value s
  | .guardTimeout guard => Sys2Proof.Machine.execGuardTimeout guard s
  | .powerOn boot full granted => Sys2Proof.Machine.execPowerOn boot full granted s
  | .holdupEnd vbak => Sys2Proof.Machine.execHoldupEnd vbak s
  | .poeReturn boot full granted => Sys2Proof.Machine.execPoeReturn boot full granted s
  | .resetN => Sys2Proof.Machine.execResetN s
  | .softwareFullReset req => Sys2Proof.Machine.execSoftwareFullReset req s
  | .warmReset req => Sys2Proof.Machine.execWarmReset req s
  | .watchdogExpiry => Sys2Proof.Machine.execWatchdogExpiry s
  | .wdogKick req => Sys2Proof.Machine.execWdogKick req s
  | .overcurrentTrip pa ma held => Sys2Proof.Machine.execOvercurrentTrip pa ma held s
  | .bootOk req => Sys2Proof.Machine.execBootOk req s
  | .hostImgWrite req addr => Sys2Proof.Machine.execHostImgWrite req addr s
  | .submit req => Sys2Proof.Machine.execSubmit req s
  | .relock req => Sys2Proof.Machine.execRelock req s
  | .hashSha req => Sys2Proof.Machine.execHashSha req s
  | .hashVerify req => Sys2Proof.Machine.execHashVerify req s
  | .hashDone => Sys2Proof.Machine.execHashDone s
  | .spiWrite mosi => Sys2Proof.Machine.execSpiWrite mosi s
  | .spiRead mosi reach => Sys2Proof.Machine.execSpiRead mosi reach s
  | .spiStatus mosi => Sys2Proof.Machine.execSpiStatus mosi s
  | .doorbell mosi reach => Sys2Proof.Machine.execDoorbell mosi reach s
  | .push mosi => Sys2Proof.Machine.execPush mosi s
  | .pull mosi reach => Sys2Proof.Machine.execPull mosi reach s
  | .spiWriteDone => Sys2Proof.Machine.execSpiWriteDone s
  | .dbSet req mask => Sys2Proof.Machine.execDbSet req mask s
  | .fifoPop req addr => Sys2Proof.Machine.execFifoPop req addr s
  | .fifoPush req addr value => Sys2Proof.Machine.execFifoPush req addr value s
  | .rxFlush req iface => Sys2Proof.Machine.execRxFlush req iface s
  | .txFlush req iface => Sys2Proof.Machine.execTxFlush req iface s
  | .canEnable req can => Sys2Proof.Machine.execCanEnable req can s
  | .canTxComplete can status sof => Sys2Proof.Machine.execCanTxComplete can status sof s
  | .canFrameRx can f => Sys2Proof.Machine.execCanFrameRx can f s
  | .canBusError can lec tx by8 => Sys2Proof.Machine.execCanBusError can lec tx by8 s
  | .canRecover req can => Sys2Proof.Machine.execCanRecover req can s
  | .canCancel req can => Sys2Proof.Machine.execCanCancel req can s
  | .busOffRecovered can => Sys2Proof.Machine.execBusOffRecovered can s
  | .uartRxChar uart data parErr stop => Sys2Proof.Machine.execUartRxChar uart data parErr stop s
  | .uartTxChar uart => Sys2Proof.Machine.execUartTxChar uart s
  | .rxIdle uart => Sys2Proof.Machine.execRxIdle uart s
  | .cntClr req uart => Sys2Proof.Machine.execCntClr req uart s
  | .i2cCmd req value => Sys2Proof.Machine.execI2cCmd req value s
  | .i2cCmdDone status n data => Sys2Proof.Machine.execI2cCmdDone status n data s
  | .i2cStretchTimeout => Sys2Proof.Machine.execI2cStretchTimeout s
  | .i2cAbort req => Sys2Proof.Machine.execI2cAbort req s
  | .i2cRecover req => Sys2Proof.Machine.execI2cRecover req s
  | .gpioInputChange pin high => Sys2Proof.Machine.execGpioInputChange pin high s
  | .gpioSet req mask => Sys2Proof.Machine.execGpioSet req mask s
  | .gpioClr req mask => Sys2Proof.Machine.execGpioClr req mask s
  | .gpioTgl req mask => Sys2Proof.Machine.execGpioTgl req mask s
  | .extest cells => Sys2Proof.Machine.execExtest cells s
  | .samplePreload cells => Sys2Proof.Machine.execSamplePreload cells s
  | .idcode => Sys2Proof.Machine.execIdcode s
  | .clamp => Sys2Proof.Machine.execClamp s
  | .highz => Sys2Proof.Machine.execHighz s
  | .bypass code => Sys2Proof.Machine.execBypass code s
  | .dbgacc addr data write => Sys2Proof.Machine.execDbgacc addr data write s
  | .testModeExit => Sys2Proof.Machine.execTestModeExit s
  | .prbsEnable req en => Sys2Proof.Machine.execPrbsEnable req en s
  | .prbsCntClr req => Sys2Proof.Machine.execPrbsCntClr req s
  | .prbsUnlock checker errors => Sys2Proof.Machine.execPrbsUnlock checker errors s
  | .sharedEpochLatch gsc => Sys2Proof.Machine.execSharedEpochLatch gsc s
  | .dbgResult => Sys2Proof.Machine.execDbgResult s
  | .tcxoFailure => Sys2Proof.Machine.execTcxoFailure s
  | .ctsNChange uart high => Sys2Proof.Machine.execCtsNChange uart high s
  | .prbsCheckerLock checker => Sys2Proof.Machine.execPrbsCheckerLock checker s
  | .sampleFrameSend rows => Sys2Proof.Machine.execSampleFrameSend rows s
  | .transitionComplete => Sys2Proof.Machine.execTransitionComplete s

end Sys2Proof.Machine
end

