-- ==== Sys2Proof/Machine/Idle.lean ====
section
/-! DEFINITION. What a step does on an empty queue (DESIGN CHOICE, log entry 2): one tick passes, the Ethernet ports serve their
queues (spec/09 R211), accesses that were held are tried again, a single step that waits is carried out, and the production test
refreshes its error count (spec/20 R459, R460). -/

namespace Sys2Proof.Machine

/-- Does the boot ROM run the link patterns of production test mode? -/
def Test.production (s : State) : Bool :=
  s.pwr.waitHost && s.flag (pg 0x0F0) Test.TEST_STAT_PT_MODE && s.flag (pg 0x0F0) Test.TEST_STAT_PRBS_ON && s.running .fabric

/-- The boot ROM copies PRBS_ERR into CDL_ERR of the test result, once a second. -/
def Test.refresh (s : State) : State :=
  if Test.production s ∧ s.now % 640000000 = 0 then s.store none 0x1000000C (leBytes 4 (s.regN (pg 0x0F0 + 0x048))) else s

/-- One tick without a command. -/
def State.idle (s : State) : State :=
  let s := if s.isReset .time then s else s.ticks 1
  Cpu.settle 8 (Bus.release (Test.refresh (if s.running .net then Net.serve s else s)))

end Sys2Proof.Machine
end

