-- ==== Sys2Proof/WellFormed.lean ====
section
/-! DEFINITION. Well-formed commands: the operands that the outside can bring.  A Thithigor instruction is one that parcels spell;
samples, elements, frames and records have the ranges and lengths their chapters give.  No meaning asks for this: a statement
may. -/

namespace Sys2Proof

/-- A complex sample: −128 to 127 in I and Q (spec/03 R51). -/
def IQ.wf (x : Int × Int) : Bool := decide (-128 ≤ x.1 ∧ x.1 ≤ 127 ∧ -128 ≤ x.2 ∧ x.2 ≤ 127)

/-- The converter's samples of a chain within 8 bits (spec/03 R49). -/
def ChainIn.wf (x : ChainIn) : Bool := x.adc.all IQ.wf

/-- The samples of a source within R51. -/
def Smp.wf (x : Smp) : Bool := IQ.wf (x.i, x.q) && IQ.wf (x.i2, x.q2)

/-- The samples of channels. -/
def Feed.wf (l : List (Nat × List Smp)) : Bool := l.all (fun x => decide (x.1 < 512) && x.2.all Smp.wf)

/-- A received Ethernet frame holds at least its header: two addresses and a type. -/
def Rx.wf (x : Rx) : Bool := decide (14 ≤ x.octets.length)

/-- Data bytes of a CAN frame of a DLC (spec/18 R418; ISO 11898-1, PRESUMED, log entry 24). -/
def CanRx.len (fdf : Bool) (dlc : Nat) : Nat :=
  if dlc ≤ 8 then dlc
  else if !fdf then 8
  else if dlc ≤ 12 then 4 * (dlc - 6)
  else if dlc = 13 then 32 else if dlc = 14 then 48 else 64

/-- A CAN frame: a standard identifier in the upper 11 bits, BRS and ESI only with FDF, RTR only without, data as long as DLC says (R418). -/
def CanRx.wf (f : CanRx) : Bool :=
  (f.ide || f.ident.toNat % 2 ^ 18 == 0) && (f.fdf || (!f.brs && !f.esi)) && !(f.fdf && f.rtr) &&
    f.data.length == if f.rtr then 0 else CanRx.len f.fdf f.dlc.toNat

/-- Is the command well-formed? -/
def Instr.wf (i : Instr) : Bool :=
  match i with
  | .registerWrite _ _ _ _ => true
  | .registerAccessTimeout _ _ _ => true
  | .commitWrite _ _ _ => true
  | .commitHandOver _ => true
  | .pageLock _ _ => true
  | .pageLockSticky _ _ => true
  | .pageUnlock _ _ => true
  | .irqClr _ _ _ => true
  | .errClear _ _ => true
  | .pageEnable _ _ _ => true
  | .softReset _ _ _ _ => true
  | .softResetDone _ => true
  | .freeze _ _ => true
  | .freezeDone _ feed => Feed.wf feed
  | .unfreeze _ _ => true
  | .swiSet _ _ => true
  | .swiClr _ _ => true
  | .interruptEntry _ => true
  | .updateTick a b c d => [a, b, c, d].all ChainIn.wf
  | .calDc _ _ => true
  | .calFilter _ _ => true
  | .calImage _ _ => true
  | .calOsc _ _ => true
  | .calAll _ _ => true
  | .calResultWrite _ _ _ _ => true
  | .chainEnable _ _ => true
  | .spectrumRecord _ _ pre post => (pre ++ post).all (fun l => l.length == 4096 && l.all IQ.wf)
  | .biasFoldback _ => true
  | .biasRetry _ => true
  | .snapStart _ => true
  | .snapCapture _ _ => true
  | .snapStop _ => true
  | .capDone feed => feed.all (fun l => l.all IQ.wf)
  | .capOverrun _ => true
  | .qTailWrite _ _ _ => true
  | .jobStart _ => true
  | .jobDone _ _ => true
  | .jobAbort _ _ => true
  | .jobFlush _ _ => true
  | .channelRun _ _ => true
  | .channelStop _ _ => true
  | .channelStart _ => true
  | .intervalEnd _ feed => feed.all Smp.wf
  | .dumpRecordWrite => true
  | .ovfClr _ => true
  | .groupCommit _ _ feed => Feed.wf feed
  | .groupCommitAction _ _ feed => Feed.wf feed
  | .grpArm _ _ _ => true
  | .readbackCapture _ _ => true
  | .trkgEnable _ _ => true
  | .csDataWrite _ _ => true
  | .csDataRead _ => true
  | .crcStart _ => true
  | .crcDone => true
  | .manualLatch _ _ => true
  | .measLatch _ _ _ => true
  | .blockDone => true
  | .measCntClr _ => true
  | .cdlEnable _ _ => true
  | .dllLock => true
  | .lanesUp _ => true
  | .idleFrame _ => true
  | .epoch _ => true
  | .setGsc f => Feed.wf f.feed
  | .ping _ _ => true
  | .dllSet _ => true
  | .msgFrame _ _ => true
  | .leave _ => true
  | .pong _ _ _ _ => true
  | .statusBlock _ _ _ _ _ => true
  | .sampleFrame _ _ data => data.length == 256
  | .statusSend _ => true
  | .dllTrack step => decide (-1 ≤ step ∧ step ≤ 1)
  | .dllLost => true
  | .clkInLoss => true
  | .syncTimeout => true
  | .memberLost _ => true
  | .align _ => true
  | .cdlLeave _ => true
  | .msgSend _ => true
  | .msgTxDone => true
  | .cdlCntClr _ => true
  | .epochAnnounce _ => true
  | .covWindowEnd win => win.all (fun r => r.length == 4 && r.all IQ.wf)
  | .coastEnter _ _ => true
  | .coastExit => true
  | .timeUpdateTick => true
  | .secondTick => true
  | .tcap _ => true
  | .leaseRenew _ _ => true
  | .leaseLenWrite _ _ _ => true
  | .leaseExpiry _ => true
  | .holdBoundUpdate _ => true
  | .stepPermit _ => true
  | .leapEvent _ => true
  | .occurrenceConvert _ => true
  | .actionDispatch _ => true
  | .occurrenceFire _ => true
  | .calTimer _ => true
  | .tpPulse _ => true
  | .cycPulse _ => true
  | .pulseEnd _ => true
  | .padCtlWrite _ _ _ => true
  | .cancel _ _ => true
  | .clearAll _ => true
  | .calEnable _ => true
  | .eventCapture _ _ _ _ => true
  | .evtWindow _ => true
  | .windowClose _ => true
  | .evtRecordWrite => true
  | .evtFlush _ => true
  | .frameReceive rx => rx.wf
  | .sync rx => rx.wf
  | .followUp rx => rx.wf
  | .delayReq rx => rx.wf
  | .delayResp rx => rx.wf
  | .pdelayReq rx => rx.wf
  | .pdelayResp rx => rx.wf
  | .announce rx => rx.wf
  | .accept _ _ => true
  | .reseed _ _ => true
  | .tcEntryExpire => true
  | .htxWpWrite _ _ => true
  | .hostFrameSend _ => true
  | .hostTxDone _ _ => true
  | .linkUp _ speed full _ => full || speed.val != 0
  | .linkDown _ => true
  | .addressAge _ => true
  | .radioEnable _ _ => true
  | .radioSleep _ => true
  | .radioIdle _ => true
  | .radioRx _ => true
  | .radioTxCmd _ _ => true
  | .radioOff _ => true
  | .radioAbort _ => true
  | .radioTx _ _ => true
  | .receiveSlot _ _ => true
  | .synthReady _ _ => true
  | .txEnd => true
  | .txUnderrun _ => true
  | .radioCalDc _ => true
  | .radioCalFilter _ => true
  | .radioCalImage _ => true
  | .radioCalOsc _ => true
  | .radioCalAll _ => true
  | .radioCalStart => true
  | .radioCalDone _ _ => true
  | .hopWrite _ _ _ => true
  | .preambleDetect _ _ _ => true
  | .sfdDetect _ => true
  | .rxFrame _ _ _ psdu _ _ _ => decide (psdu.length < 2048)
  | .slotWindowOpen => true
  | .slotWindowClose => true
  | .nop _ => (Op.alu 0x00 ⟨0, false, 0⟩ false []).wf
  | .mov _ f d s t => (Op.alu 0x01 f t.isSome (d :: s :: t.toList)).wf
  | .movsx _ f d s t => (Op.alu 0x02 f t.isSome (d :: s :: t.toList)).wf
  | .movzx _ f d s t => (Op.alu 0x03 f t.isSome (d :: s :: t.toList)).wf
  | .lea _ f d s t => (Op.alu 0x04 f t.isSome (d :: s :: t.toList)).wf
  | .swap _ f d s t => (Op.alu 0x05 f t.isSome (d :: s :: t.toList)).wf
  | .cas _ f d s t => (Op.alu 0x06 f t.isSome (d :: s :: t.toList)).wf
  | .add _ f d s t => (Op.alu 0x08 f t.isSome (d :: s :: t.toList)).wf
  | .sub _ f d s t => (Op.alu 0x09 f t.isSome (d :: s :: t.toList)).wf
  | .adc _ f d s t => (Op.alu 0x0A f t.isSome (d :: s :: t.toList)).wf
  | .sbc _ f d s t => (Op.alu 0x0B f t.isSome (d :: s :: t.toList)).wf
  | .neg _ f d s t => (Op.alu 0x0C f t.isSome (d :: s :: t.toList)).wf
  | .abs _ f d s t => (Op.alu 0x0D f t.isSome (d :: s :: t.toList)).wf
  | .cmp _ f d s t => (Op.alu 0x0E f t.isSome (d :: s :: t.toList)).wf
  | .min _ f d s t => (Op.alu 0x0F f t.isSome (d :: s :: t.toList)).wf
  | .max _ f d s t => (Op.alu 0x10 f t.isSome (d :: s :: t.toList)).wf
  | .minu _ f d s t => (Op.alu 0x11 f t.isSome (d :: s :: t.toList)).wf
  | .maxu _ f d s t => (Op.alu 0x12 f t.isSome (d :: s :: t.toList)).wf
  | .mul _ f d s t => (Op.alu 0x14 f t.isSome (d :: s :: t.toList)).wf
  | .mulh _ f d s t => (Op.alu 0x15 f t.isSome (d :: s :: t.toList)).wf
  | .mulhu _ f d s t => (Op.alu 0x16 f t.isSome (d :: s :: t.toList)).wf
  | .div _ f d s t => (Op.alu 0x17 f t.isSome (d :: s :: t.toList)).wf
  | .rem _ f d s t => (Op.alu 0x19 f t.isSome (d :: s :: t.toList)).wf
  | .divu _ f d s t => (Op.alu 0x18 f t.isSome (d :: s :: t.toList)).wf
  | .remu _ f d s t => (Op.alu 0x1A f t.isSome (d :: s :: t.toList)).wf
  | .and _ f d s t => (Op.alu 0x20 f t.isSome (d :: s :: t.toList)).wf
  | .or _ f d s t => (Op.alu 0x21 f t.isSome (d :: s :: t.toList)).wf
  | .xor _ f d s t => (Op.alu 0x22 f t.isSome (d :: s :: t.toList)).wf
  | .not _ f d s t => (Op.alu 0x23 f t.isSome (d :: s :: t.toList)).wf
  | .tst _ f d s t => (Op.alu 0x24 f t.isSome (d :: s :: t.toList)).wf
  | .btst _ f d s t => (Op.alu 0x25 f t.isSome (d :: s :: t.toList)).wf
  | .bset _ f d s t => (Op.alu 0x26 f t.isSome (d :: s :: t.toList)).wf
  | .bclr _ f d s t => (Op.alu 0x27 f t.isSome (d :: s :: t.toList)).wf
  | .binv _ f d s t => (Op.alu 0x28 f t.isSome (d :: s :: t.toList)).wf
  | .clz _ f d s t => (Op.alu 0x29 f t.isSome (d :: s :: t.toList)).wf
  | .popc _ f d s t => (Op.alu 0x2A f t.isSome (d :: s :: t.toList)).wf
  | .shl _ f d s t => (Op.alu 0x30 f t.isSome (d :: s :: t.toList)).wf
  | .shr _ f d s t => (Op.alu 0x31 f t.isSome (d :: s :: t.toList)).wf
  | .sar _ f d s t => (Op.alu 0x32 f t.isSome (d :: s :: t.toList)).wf
  | .rol _ f d s t => (Op.alu 0x33 f t.isSome (d :: s :: t.toList)).wf
  | .ror _ f d s t => (Op.alu 0x34 f t.isSome (d :: s :: t.toList)).wf
  | .fadd _ f d s t => (Op.alu 0x38 f t.isSome (d :: s :: t.toList)).wf
  | .fsub _ f d s t => (Op.alu 0x39 f t.isSome (d :: s :: t.toList)).wf
  | .fmul _ f d s t => (Op.alu 0x3A f t.isSome (d :: s :: t.toList)).wf
  | .fdiv _ f d s t => (Op.alu 0x3B f t.isSome (d :: s :: t.toList)).wf
  | .fsqrt _ f d s t => (Op.alu 0x3C f t.isSome (d :: s :: t.toList)).wf
  | .fma _ f d s t => (Op.alu 0x3D f t.isSome (d :: s :: t.toList)).wf
  | .fcmp _ f d s t => (Op.alu 0x3E f t.isSome (d :: s :: t.toList)).wf
  | .fmin _ f d s t => (Op.alu 0x3F f t.isSome (d :: s :: t.toList)).wf
  | .fmax _ f d s t => (Op.alu 0x40 f t.isSome (d :: s :: t.toList)).wf
  | .fabs _ f d s t => (Op.alu 0x41 f t.isSome (d :: s :: t.toList)).wf
  | .fneg _ f d s t => (Op.alu 0x42 f t.isSome (d :: s :: t.toList)).wf
  | .cvt _ f d s t => (Op.alu 0x43 f t.isSome (d :: s :: t.toList)).wf
  | .cvtu _ f d s t => (Op.alu 0x44 f t.isSome (d :: s :: t.toList)).wf
  | .mac _ f d s => (Op.alu 0x48 f false [d, s]).wf
  | .msu _ f d s => (Op.alu 0x49 f false [d, s]).wf
  | .macu _ f d s => (Op.alu 0x4A f false [d, s]).wf
  | .cmac _ f d s => (Op.alu 0x4B f false [d, s]).wf
  | .cmacj _ f d s => (Op.alu 0x4C f false [d, s]).wf
  | .dot4 _ f d s => (Op.alu 0x4D f false [d, s]).wf
  | .aclr _ f => (Op.alu 0x4E f false []).wf
  | .ald _ f s => (Op.alu 0x4F f false [s]).wf
  | .aext _ f d s => (Op.alu 0x50 f false [d, s]).wf
  | .asave _ f s => (Op.alu 0x51 f false [s]).wf
  | .arstr _ f s => (Op.alu 0x52 f false [s]).wf
  | .bcc _ cond d => (Op.ctl 0x80 (16 * cond.toNat) [] d.toNat).wf
  | .bccl _ cond d => (Op.ctl 0x81 (16 * cond.toNat) [] d.toNat).wf
  | .call _ d => (Op.ctl 0x82 0 [] d.toNat).wf
  | .jmp _ x => (Op.ctl 0x83 0 [x] 0).wf
  | .jsr _ x => (Op.ctl 0x84 0 [x] 0).wf
  | .ret _ => (Op.ctl 0x85 0 [] 0).wf
  | .rte _ => (Op.ctl 0x86 0 [] 0).wf
  | .sys _ imm => (Op.ctl 0x87 imm.toNat [] 0).wf
  | .bkpt _ => (Op.ctl 0x88 0 [] 0).wf
  | .wait _ => (Op.ctl 0x89 0 [] 0).wf
  | .waitEnd _ => true
  | .fence _ => (Op.ctl 0x8A 0 [] 0).wf
  | .ifence _ => (Op.ctl 0x8B 0 [] 0).wf
  | .rep _ x => (Op.ctl 0x8C 0 [x] 0).wf
  | .mfc _ i x => (Op.ctl 0x8D i.toNat [x] 0).wf
  | .mtc _ i x => (Op.ctl 0x8E i.toNat [x] 0).wf
  | .feat _ i x => (Op.ctl 0x8F i.toNat [x] 0).wf
  | .djnz _ r d => (Op.ctl 0x90 r.toNat [] d.toNat).wf
  | .writeBufferDrain _ _ => true
  | .coreStart _ _ => true
  | .coreHalt _ _ => true
  | .coreResume _ _ => true
  | .coreStep _ _ => true
  | .dbgDataRead _ _ => true
  | .dbgDataWrite _ _ _ => true
  | .perfClr _ _ => true
  | .dmaStartCmd _ _ => true
  | .dmaStart _ _ => true
  | .dmaRequest _ => true
  | .dmaBurstDone => true
  | .setComplete _ => true
  | .feedFetch _ => true
  | .dmaAbort _ _ => true
  | .abortAll _ => true
  | .scrubStep => true
  | .program _ => true
  | .eraseSec _ => true
  | .eraseBlk _ => true
  | .flashOpDone => true
  | .eraseSuspend => true
  | .eraseResume => true
  | .appendGo _ => true
  | .lastgasp _ => true
  | .disarm _ => true
  | .appendDone => true
  | .harvest _ => true
  | .harvestDone => true
  | .recoveryScan => true
  | .recovered => true
  | .dumpSnap _ => true
  | .dumpChan _ => true
  | .captureDone => true
  | .refWindow _ => true
  | .refLoss => true
  | .pllWindow _ _ _ _ _ _ => true
  | .fastTrip _ => true
  | .pllResearch _ _ => true
  | .heartbeat _ => true
  | .heartbeatMissed _ => true
  | .vigOscCal _ _ => true
  | .selfCheck _ _ => true
  | .recipeStepDone _ => true
  | .hang _ _ => true
  | .lastResort => true
  | .faultNRelease => true
  | .vigDump _ _ => true
  | .dumpDone => true
  | .vigilSwap _ _ => true
  | .restartOther _ _ => true
  | .guardSample _ _ => true
  | .guardTimeout _ => true
  | .powerOn _ _ _ => true
  | .holdupEnd _ => true
  | .poeReturn _ _ _ => true
  | .resetN => true
  | .softwareFullReset _ => true
  | .warmReset _ => true
  | .watchdogExpiry => true
  | .wdogKick _ => true
  | .overcurrentTrip _ _ _ => true
  | .bootOk _ => true
  | .hostImgWrite _ _ => true
  | .submit _ => true
  | .relock _ => true
  | .hashSha _ => true
  | .hashVerify _ => true
  | .hashDone => true
  | .spiWrite mosi => mosi != []
  | .spiRead mosi _ => mosi != []
  | .spiStatus mosi => mosi != []
  | .doorbell mosi _ => mosi != []
  | .push mosi => mosi != []
  | .pull mosi _ => mosi != []
  | .spiWriteDone => true
  | .dbSet _ _ => true
  | .fifoPop _ _ => true
  | .fifoPush _ _ _ => true
  | .rxFlush _ _ => true
  | .txFlush _ _ => true
  | .canEnable _ _ => true
  | .canTxComplete _ _ _ => true
  | .canFrameRx _ f => f.wf
  | .canBusError _ _ _ _ => true
  | .canRecover _ _ => true
  | .canCancel _ _ => true
  | .busOffRecovered _ => true
  | .uartRxChar _ _ _ _ => true
  | .uartTxChar _ => true
  | .rxIdle _ => true
  | .cntClr _ _ => true
  | .i2cCmd _ _ => true
  | .i2cCmdDone _ _ _ => true
  | .i2cStretchTimeout => true
  | .i2cAbort _ => true
  | .i2cRecover _ => true
  | .gpioInputChange _ _ => true
  | .gpioSet _ _ => true
  | .gpioClr _ _ => true
  | .gpioTgl _ _ => true
  | .extest _ => true
  | .samplePreload _ => true
  | .idcode => true
  | .clamp => true
  | .highz => true
  | .bypass code => !([0, 1, 2, 3, 4, 8].contains code.toNat)
  | .dbgacc _ _ _ => true
  | .testModeExit => true
  | .prbsEnable _ _ => true
  | .prbsCntClr _ => true
  | .prbsUnlock _ _ => true
  | .sharedEpochLatch _ => true
  | .dbgResult => true
  | .tcxoFailure => true
  | .ctsNChange _ _ => true
  | .prbsCheckerLock _ => true
  | .sampleFrameSend rows => rows.all (fun r => r.length == 4 && r.all IQ.wf)
  | .transitionComplete => true

end Sys2Proof
end

