-- ==== Sys2Proof/Safety.lean ====
section
/-! DEFINITION. The conditions that statements about the block are made under, and the state after an instruction that changes
registers of its core only. -/

namespace Sys2Proof

open Machine

/-- Bits of a lane: 8 for .Q, else the whole operand (R298, R279). -/
def Form.lw (f : Form) : Nat := if f.sz = 6 then 8 else 8 * Isa.bytes f.sz.toNat

/-- Lanes: four for .Q, else one. -/
def Form.lanes (f : Form) : Nat := if f.sz = 6 then 4 else 1

/-- Lane `i` of a value. -/
def Form.lane (f : Form) (v i : Nat) : BitVec f.lw := BitVec.ofNat f.lw (v / 2 ^ (f.lw * i))

/-- The least value of a lane. -/
def Form.least (f : Form) : Int := -(2 ^ (f.lw - 1))

/-- One more than the greatest value of a lane. -/
def Form.top (f : Form) : Int := 2 ^ (f.lw - 1)

/-- The answer `r` holds `g` in every lane, sets Z and N from it, V to `o` and C to `cy`; with four lanes C and N are 0 (R276,
R279). -/
def Form.Lanewise (f : Form) (r : Alu) (g : Nat → BitVec f.lw) (o : Bool) (cy : Option Bool) : Prop :=
  r.v < 2 ^ (f.lw * f.lanes) ∧ (∀ i < f.lanes, f.lane r.v i = g i) ∧ r.z = some (r.v == 0) ∧
    r.n = some (f.lanes == 1 && r.v.testBit (f.lw - 1)) ∧ r.o = some o ∧ r.c = (if f.lanes = 4 then some false else cy) ∧
    r.dz = false ∧ r.ff = 0

/-- The answer `r` holds in every lane the integer `e`, wrapped, or saturated by sign with .S; V tells that some lane does not
fit (R277, R279). -/
def Form.Exact (f : Form) (r : Alu) (e : Nat → Int) (cy : Option Bool) : Prop :=
  f.Lanewise r (fun i => BitVec.ofInt f.lw (if f.sat then max f.least (min (f.top - 1) (e i)) else e i))
    ((List.range f.lanes).any (fun i => decide (e i < f.least ∨ f.top ≤ e i))) cy

end Sys2Proof

namespace Sys2Proof.Machine

/-- Memory, the registers and the working copies are in canonical form: equal contents are equal data. -/
abbrev State.Canon (s : State) : Prop :=
  Memory.wf s.mem = true ∧ Tab.wf resetWord s.regs = true ∧ Tab.wf resetWord s.work = true

/-- A requester's access reaches page `p`: listed, its island out of reset with its clock, no reset in progress, granted, no older
access on its way to the island, and of a core the write buffer empty (spec/02 R32, R45, R462, spec/01 R17, R27, spec/11 R267, spec/17
R400). -/
abbrev State.Reaches (s : State) (req : Req) (p : Nat) : Prop :=
  (pageInfo p).isSome = true ∧ s.isReset (pageIsland p) = false ∧ Bus.denied s req.code p = false ∧
    s.flag (pg (ownerPage p)) H.BUSY = false ∧ pageIsland p ∉ s.stalled ∧ Bus.behind s.held (Bus.base + pg p) = false ∧
    (req.code < 6 → s.wb req.code = [])

/-- It reaches the page and no lock is in the way (R36). -/
abbrev State.Writable (s : State) (req : Req) (p : Nat) : Prop := s.Reaches req p ∧ s.locked (ownerPage p) = false

/-- No core's single step waits. -/
abbrev State.Quiet (s : State) : Prop := ∀ c : Fin 6, (s.core c.val).step = false

/-- The state a register access of `req` answers with the words `l`. -/
def State.answered (s : State) (req : Req) (l : List Word) : State := s.answer req.code l false

/-- `t` differs from `s` at most in the answer and in the register words at the window offsets `ws`. -/
def State.RegsOnly (s t : State) (ws : List Nat) : Prop :=
  t = { s with regs := t.regs, resp := t.resp } ∧ ∀ a ∉ ws, t.reg a = s.reg a

/-- Command `i` completes from `s`: the next state has `post`, and differs from `s` at most in the answer and in the register words
`ws`. -/
def Cmd.Sets (i : Instr) (s : State) (ws : List Nat) (post : State → Prop) : Prop :=
  ∃ t, exec i s = .next t ∧ post t ∧ s.RegsOnly t ws

/-- No word of shared SRAM holds an ECC error and every write buffer is empty: reads and writes of memory by devices have no effect
beside their own. -/
abbrev State.Clean (s : State) : Prop := s.eccBad = [] ∧ ∀ c : Fin 6, s.wb c.val = []

/-- A capture trigger starts a capture (spec/04 R85 to R87): ACQ 0 enabled, not frozen, no capture in progress, nothing pending to
take over, no job running, at least one chain, and the capture inside its area. -/
abbrev Acq.Free (s : State) : Prop :=
  s.en 0x020 = true ∧ s.frozen 0x020 = false ∧ s.snap = none ∧ s.armedAt (pg 0x020 + 0x02C) = none ∧ s.job 0 = none ∧ s.job 1 = none ∧
    s.wget (Acq.b 0) Acq.SNAP_CFG_CHAINS ≠ 0 ∧
    s.wget (Acq.b 0) Acq.SNAP_CFG_OFS * 0x10000 +
      (64 + chainCount (s.wget (Acq.b 0) Acq.SNAP_CFG_CHAINS) * s.wget (Acq.b 0) Acq.SNAP_CFG_LEN * 2048) ≤ 192 * 0x10000

/-- A latch would be taken at once (spec/06 R138, R141, R144): MEAS enabled, no block being written, room in a ring that lies in clean
SRAM, nothing pending to take over. -/
abbrev Meas.Free (s : State) : Prop :=
  s.Clean ∧ s.en Meas.p = true ∧ s.running .corr = true ∧ s.latch = none ∧ Meas.full s = false ∧ s.get Meas.b Meas.MEAS_BASE_BASE ≠ 0 ∧
    s.armedAt (pg Meas.p + 0x02C) = none ∧
    inSramArea (64 * s.get Meas.b Meas.MEAS_BASE_BASE + Meas.slot * s.get Meas.b Meas.MEAS_WP_WP) 0x6040 = true

/-- A follower that holds SYNC_LOCK and takes part in its group (spec/07 R164, R175). -/
abbrev Cdl.Member (s : State) : Prop :=
  Cdl.linked s = true ∧ Cdl.role s = 2 ∧ s.cdl.isolated = false ∧ s.cdl.synced = true ∧ s.cdl.dllRef = true ∧ Cdl.state s ≠ 0 ∧
    Cdl.state s ≠ 6

/-- A Herald whose downstream lanes are locked (R157, R165). -/
abbrev Cdl.Leads (s : State) : Prop :=
  Cdl.linked s = true ∧ Cdl.role s = 1 ∧ Cdl.state s ≠ 6 ∧ s.get Cdl.b Cdl.CDL_STAT_LANE_LOCK = 3

/-- The frames on their way on CDL_SYNC_OUT after one of `type` has arrived at position `pos`: one that is not for that position goes on
with one hop more (R162, R163). -/
def Cdl.forwarded (s : State) (type pos : Nat) (f : CdlFrame) : List (Nat × BitVec 128) :=
  if (f.dest.toNat ≤ 7 ∨ f.dest.toNat = 15) ∧ f.dest.toNat ≠ pos ∧ pos < 7 ∧ type < 7 ∧ s.cdl.clkOut = true then
    (Cdl.send s type f.dest.toNat f.src.toNat (f.hops.toNat + 1) f.payload.toNat).cdl.sent
  else s.cdl.sent

/-- Entry `e` waits for its occurrence `o`, and will fire (spec/08 R196, R200): the calendar enabled and awake, no COMMIT armed. -/
abbrev Cal.Due (s : State) (e : Fin 256) (o : Occ) : Prop :=
  Cal.state s e.val = 1 ∧ (s.ent e.val).occ = some o ∧ s.en Cal.p = true ∧ s.pwr.asleep = false ∧ s.armedAt (Cal.key e.val) = none

/-- What every firing of entry `e` at the instant `u` leaves (spec/08 R196, R198, R201): time has run to the tick, the firing is
recorded, a one-shot is DONE, a Rota DONE or waiting for its next occurrence, FIRED shown where IRQ asks for it. -/
def Cal.Fired (s t : State) (e : Fin 256) (u : Int) : Prop :=
  t.base = (s.runTo (tickUp u)).base ∧ (t.ent e.val).last = some u.toNat ∧
    (s.wflag (Cal.eb e.val) CalE.E_CTL_ROTA = false → Cal.state t e.val = 2 ∧ (t.ent e.val).occ = none ∧
      (t.ent e.val).used = (s.ent e.val).used + 1 ∧ t.get (Cal.eb e.val) CalE.E_STAT_REMAIN = 0) ∧
    (s.wflag (Cal.eb e.val) CalE.E_CTL_ROTA = true → Cal.state t e.val = 2 ∧ (t.ent e.val).occ = none ∨
      Cal.state t e.val = 1 ∧ (t.ent e.val).occ.isSome = true)

/-- The network island's lists have the shape the spec gives them: two ports with four queues, four slots, eight successors each
(spec/09). -/
abbrev Net.Shaped (s : State) : Prop :=
  s.net.wire.length = 2 ∧ s.net.queues.length = 2 ∧ s.net.pdReq.length = 2 ∧ s.net.slots.length = 4 ∧ ∀ x ∈ s.net.slots, x.ports.length = 2 ∧ x.ann.length = 8

/-- A good frame arrives on a port that is up and belongs to VLAN `vid` there, with nothing pending to take over (spec/09 R209, R211,
R228). -/
abbrev Net.Taken (s : State) (rx : Rx) (vid member untag : Nat) : Prop :=
  Eth.up s rx.port.val = true ∧ rx.fcsOk = true ∧ rx.octets.length ≤ 1518 ∧ s.en 0x062 = true ∧ s.armedAt (pg 0x063 + 0x02C) = none ∧
    Sw.classify s rx.port.val (Frame.of (rx.octets.map (·.toNat))) = some (vid, member, untag)

/-- The frame holds a PTP message of domain slot `d` at octet `o`, and the engine runs (spec/09 R215, R229). -/
abbrev Net.InSlot (s : State) (rx : Rx) (o tr d : Nat) : Prop :=
  (Frame.of (rx.octets.map (·.toNat))).ptp = some (o, tr) ∧ s.en 0x063 = true ∧ s.frozen 0x063 = false ∧
    Ptp.find s tr ((rx.octets.map (·.toNat)).drop o) = some d

/-- A message of the active master on a slave port of slot `d` (spec/09 R221, R226). -/
abbrev Ptp.FromMaster (s : State) (d p : Nat) (m : List Nat) : Prop :=
  Ptp.role s d p = 2 ∧ Msg.clockId m = Ptp.master s d ∧ Ptp.master s d ≠ 0

/-- The radio rests in SLEEP, IDLE or RX with nothing under way (spec/10 R235, R238). -/
abbrev Rad.Rests (s : State) : Prop :=
  Rad.live s = true ∧ (Rad.st s = 1 ∨ Rad.st s = 2 ∨ Rad.st s = 4) ∧ s.rad.move = none ∧ s.rad.tx = none ∧ s.rad.rx = none ∧
    s.rad.cal = [] ∧ s.rad.calQ = [] ∧ s.rad.win = none ∧ s.rad.endTo = none

/-- Descriptor `d` can be sent (spec/10 R244, R240): a length, a payload in clean memory, a hop entry in use, and power if the class
needs it. -/
abbrev Rad.Sendable (s : State) (d : Nat) : Prop :=
  let t := Rad.tb + 16 * d
  s.Clean ∧ s.get t RadT.TXD1_LEN ≠ 0 ∧ s.get t RadT.TXD1_LEN + (if s.flag t RadT.TXD2_FCS2 then 2 else 4) ≤ 2047 ∧
    inSram (s.get t RadT.TXD0_ADDR) (s.get t RadT.TXD1_LEN) = true ∧ s.get (Rad.tb + 8 * s.get t RadT.TXD1_HOP) RadT.HOP_FREQ ≠ 0 ∧
    (Rad.full s = true → s.paOn = true)

/-- A transmission of descriptor `d` accepted at the tick `t0` from state `s` (spec/10 R244 to R246): the radio in SYNTH on the
descriptor's hop entry, due in TX after its transition, the payload taken. -/
def Rad.Accepted (s t : State) (d t0 : Nat) (sched : Bool) : Prop :=
  let b := Rad.tb + 16 * d
  let hop := s.get b RadT.TXD1_HOP
  let dur := usTicks (if Rad.stored s hop then (Rad.time (Rad.st s) 5).1 else (Rad.time (Rad.st s) 5).2)
  ∃ x, t.rad.tx = some x ∧ x.d = d ∧ x.sched = sched ∧ x.hop = hop ∧ x.first = t0 + dur ∧ x.late = false ∧ x.bad = false ∧
    x.data = s.bytesAt (s.get b RadT.TXD0_ADDR) (s.get b RadT.TXD1_LEN) ∧ t.rad.move = some (5, t0 + dur - usTicks 12) ∧
    Rad.st t = 3 ∧ t.get Rad.b RadP.RAD_STATE_HOP = hop ∧ t.mem = s.mem

/-- Core `c` runs and will complete the instruction `op` at its PC: enabled, RUN, in its own TLM, no breakpoint armed there, no repeat
under way, no access waited for. -/
abbrev Cpu.Ready (s : State) (c : Fin 6) (op : Op) : Prop :=
  Cpu.alive s c.val = true ∧ Cpu.state s c.val = 1 ∧ s.Quiet ∧ (s.core c.val).pc.toNat + 2 * op.len ≤ 0x40000 ∧
    Cpu.breakAt s c.val (s.core c.val).pc.toNat = false ∧ (s.core c.val).rep = false

/-- The state after an instruction of core `c` that leaves the core as `k` and changes nothing else: RETIRED counts it, PC_SAMPLE
shows its address, no access of the core waits (spec/11 R286, R295). -/
def Cpu.retired (s : State) (c : Fin 6) (k : CoreSt) : State :=
  ((((Cpu.unhold s c.val).countWrap (Cpu.b c.val) CoreP.RETIRED_COUNT).put (Cpu.b c.val) CoreP.PC_SAMPLE_PC
    (s.core c.val).pc.toNat)).setCore c.val k

/-- The core with PC after the instruction. -/
def CoreSt.after (k : CoreSt) (n : Nat) : CoreSt := { k with pc := BitVec.ofNat 32 (k.pc.toNat + n) }

/-! ### Instructions of the cores (spec/12 R303) -/

/-- The places of an instruction's operands. -/
def Cpu.args (s : State) (c : Fin 6) (op : Op) : List Arg :=
  ((s.core c.val).places op.l (Isa.args op.opc.toNat op.low.toNat)).1

/-- The core after the register updates of the operands' addressing modes (R300 to R303). -/
def Cpu.updated (s : State) (c : Fin 6) (op : Op) : CoreSt :=
  ((s.core c.val).places op.l (Isa.args op.opc.toNat op.low.toNat)).2.1

/-- Bytes that an operand takes in memory: two .D words for ASAVE and ARSTR. -/
def Arg.size (x : Arg) : Nat := if x.role = .save ∨ x.role = .restore then 16 else Isa.bytes x.z

/-- An operand that no check stops: a register, an immediate, the address of LEA, or aligned memory of the core's own TLM under no
watchpoint. -/
abbrev Arg.Local (s : State) (c : Fin 6) (x : Arg) : Prop :=
  (match x.loc with
  | .mem a => x.role == .addr ||
      (a % Isa.bytes x.z == 0 && decide (a + x.size ≤ 0x40000) && !Cpu.watched s c.val a x.size true true)
  | _ => true) = true

/-- What an operand reads as: nothing where it is written only, the address for LEA, 80 bits for ARSTR. -/
def Arg.value (s : State) (c : Fin 6) (x : Arg) : Nat :=
  match x.loc with
  | .val v => v
  | .a _ v => v
  | .buf _ v => v
  | .mem a =>
    match x.role with
    | .dst | .save => 0
    | .addr => a
    | .restore => s.numAt (Cpu.home c.val a) 8 + 2 ^ 64 * (s.numAt (Cpu.home c.val (a + 8)) 8 % 2 ^ 16)
    | _ => s.numAt (Cpu.home c.val a) (Isa.bytes x.z)

/-- The operand values in operand order. -/
def Cpu.vals (s : State) (c : Fin 6) (op : Op) : List Nat := (Cpu.args s c op).map (Arg.value s c)

/-- Operand value number `i`. -/
def Cpu.val (s : State) (c : Fin 6) (op : Op) (i : Nat) : Nat := (Cpu.vals s c op)[i]?.getD 0

/-- The state after a value is written to a register, a buffer register or own TLM; ASAVE stores two words. -/
def Arg.put (s : State) (c : Fin 6) (x : Arg) (v : Nat) : State :=
  match x.loc with
  | .val _ => s
  | .a r _ => s.modCore c.val (fun k => k.setA r v)
  | .buf r _ => s.modCore c.val (fun k => k.setBuf r v)
  | .mem a =>
    if x.role = .save then
      (s.store (some c.val) (Cpu.home c.val a) (leBytes 8 (v % 2 ^ 64))).store (some c.val) (Cpu.home c.val (a + 8))
        (leBytes 8 (ofSigned 64 (toSigned 16 (v / 2 ^ 64))))
    else s.store (some c.val) (Cpu.home c.val a) (leBytes (Isa.bytes x.z) (v % 2 ^ (8 * Isa.bytes x.z)))

/-- Core `c` will perform the defined and accepted instruction `op` at its PC: it is ready, its write buffer is empty, the stack
check is off, and every operand is local. -/
abbrev Cpu.Performs (s : State) (c : Fin 6) (op : Op) : Prop :=
  Cpu.Ready s c op ∧ (s.core c.val).pc.toNat % 2 = 0 ∧ op.defined = true ∧ op.accepted = true ∧ s.wb c.val = [] ∧
    (s.core c.val).crN 7 = 0 ∧ ∀ x ∈ Cpu.args s c op, Arg.Local s c x

/-- PC after an instruction that transfers no control. -/
def Cpu.next (s : State) (c : Fin 6) (op : Op) : Nat := (s.core c.val).pc.toNat + 2 * op.len

/-- The state after a value is written to the first operand; a compare writes nothing. -/
def Cpu.wrote (s : State) (c : Fin 6) (op : Op) (v : Nat) : State :=
  match Cpu.args s c op with
  | [] => s.setCore c.val (Cpu.updated s c op)
  | x :: _ => if x.role = .cmp then s.setCore c.val (Cpu.updated s c op)
      else Arg.put (s.setCore c.val (Cpu.updated s c op)) c x v

/-- The state after an instruction that leaves memory and registers as `t` has them, and goes on behind itself. -/
def Cpu.past (s t : State) (c : Fin 6) (op : Op) : State :=
  Cpu.retired t c { t.core c.val with pc := BitVec.ofNat 32 (Cpu.next s c op) }

/-- The state after an ALU instruction with the answer `r`: the addressing updates, the result in the first operand, SR with the
flags that the instruction sets (R276), and nothing else. -/
def Cpu.done (s : State) (c : Fin 6) (op : Op) (r : Alu) : State :=
  let t := Cpu.wrote s c op r.v
  Cpu.past s (t.modCore c.val (fun k => k.setCr 0 (r.flags ((s.core c.val).crN 0)))) c op

/-- Command `i` is the instruction `op` of core `c`, and wherever the core performs it, it completes with an answer that `P`
describes. -/
def Cpu.Gives (i : Instr) (c : Fin 6) (op : Op) (P : State → Alu → Prop) : Prop :=
  ∀ s : State, Cpu.Performs s c op → ∃ r : Alu, P s r ∧ exec i s = .next (Cpu.done s c op r)

/-- The first source of a binary operation: d, or s1 of the three-operand form (R304). -/
def Cpu.lhs (s : State) (c : Fin 6) (op : Op) : Nat := Cpu.val s c op (if op.l.length = 3 then 1 else 0)

/-- The last source. -/
def Cpu.rhs (s : State) (c : Fin 6) (op : Op) : Nat := Cpu.val s c op (if op.l.length = 3 then 2 else 1)

/-- Command `i` is the binary operation `opc` with these operands, and its answer is as `P` tells of the two sources (R304). -/
def Cpu.Binary (i : Instr) (c : Fin 6) (opc : Nat) (f : Form) (d x : Opd) (t : Option Opd) (P : Nat → Nat → Alu → Prop) : Prop :=
  let op := Op.alu opc f t.isSome (d :: x :: t.toList)
  Cpu.Gives i c op (fun s r => P (Cpu.lhs s c op) (Cpu.rhs s c op) r)

/-- Command `i` is the unary operation `opc`, and its answer is as `P` tells of the source. -/
def Cpu.Unary (i : Instr) (c : Fin 6) (opc : Nat) (f : Form) (d x : Opd) (P : Nat → Alu → Prop) : Prop :=
  let op := Op.alu opc f false [d, x]
  Cpu.Gives i c op (fun s r => P (Cpu.val s c op 1) r)

/-- The state after an exception of a core outside a handler, with the sticky bits it sets in SR: nothing else is changed (R276,
R283, R284). -/
def Cpu.trapped (s : State) (c : Fin 6) (e : Exc) (sticky : Nat) : State :=
  let k := s.core c.val
  (Cpu.unhold s c.val).setCore c.val ((k.setCr 0 (k.crN 0 ||| sticky)).enter e k.pc.toNat 0 false)

end Sys2Proof.Machine
end

