-- ==== Sys2Proof/Certificates/Slice0/Obligations.lean ====
section
/-! DEFINITION. The statements about the block.  Each cites the rules of spec/ it formalises; what it assumes of the state is in its
hypotheses, and Sys2Proof/Tests/Slice0.lean shows a state that meets them. -/

open Sys2Proof Sys2Proof.Machine

/-- Step takes the command at the front (DESIGN CHOICE, log entry 2).
The model's choices it rests on: log entries 2 DESIGN CHOICE. -/
def Obligations.StepRunsFrontCommand : Prop :=
  ∀ (c : Instr) (s : State), step { s with pending := c :: s.pending } = exec c s

/-- No command stops the block (DESIGN CHOICE, log entry 3).
The model's choices it rests on: log entries 3 DESIGN CHOICE. -/
def Obligations.EveryCommandCompletes : Prop := ∀ (c : Instr) (s : State), ∃ t, exec c s = .next t

/-- R180, R183; that an idle step is one tick is DESIGN CHOICE, log entry 2. -/
def Obligations.IdleStepCountsOneTick : Prop :=
  ∀ s : State, s.pending = [] → s.held = [] → s.Quiet → s.isReset .time = false → s.pwr.waitHost = false →
    (∀ p : Fin 2, (Eth.egress s p.val).size = 0) →
    ∃ t, step s = .next t ∧ t.base = s.base + 1 ∧
      (∀ n : Fin 4, t.tsv n.val = TsVal.ofTotal ((s.tsv n.val).total + s.incNow n.val)) ∧
      t = { s with base := t.base, ts := t.ts }

/-- R34, R263, R333; engine state without a stated reset value is DESIGN CHOICE, log entry 8.
The model's choices it rests on: log entries 7 DESIGN CHOICE, 8 DESIGN CHOICE. -/
def Obligations.ResetState : Prop :=
  State.reset.pending = [] ∧ State.reset.byte 0x20000000 = 0xFF ∧ State.reset.byte 0x10000000 = 0 ∧
    (∀ c : Fin 6, (State.reset.core c.val).pc = 0x04000000 ∧ ∀ r : Fin 16, (State.reset.core c.val).aN r.val = 0) ∧
    State.reset.en 0x080 = true ∧ State.reset.en 0x030 = false ∧ State.reset.en 0x0C0 = true ∧ State.reset.Quiet ∧
    State.reset.Canon ∧ Net.Shaped State.reset

/-- The form is the model's (DESIGN CHOICE, log entry 7); the lengths are those of spec/09. -/
def Obligations.StepKeepsCanonicalForms : Prop :=
  ∀ s t : State, s.Canon → Net.Shaped s → step s = .next t → t.Canon ∧ Net.Shaped t

/-- R34. -/
def Obligations.PagesEnabledAtReset : Prop :=
  ∀ p : Fin 288, hasHead p.val = true →
    (State.reset.en p.val = true ↔
      p.val ≤ 0x004 ∨ (0x008 ≤ p.val ∧ p.val ≤ 0x00B) ∨ (0x050 ≤ p.val ∧ p.val ≤ 0x054) ∨ p.val = 0x080 ∨
        (0x090 ≤ p.val ∧ p.val ≤ 0x093) ∨ p.val = 0x0A0 ∨ p.val = 0x0B0 ∨ (0x0C0 ≤ p.val ∧ p.val ≤ 0x0C5))

/-- R32. -/
def Obligations.UnlistedPageIsBusError : Prop :=
  ∀ (req : Req) (size : Sz) (addr : BitVec 32) (value : BitVec 64) (s : State), s.Quiet → (req.code < 6 → s.wb req.code = []) →
    0x40000000 ≤ addr.toNat → addr.toNat < 0x40120000 → pageInfo ((addr.toNat - 0x40000000) / 0x1000) = none →
      exec (.registerWrite req size addr value) s = .next (s.answer req.code [] true) ∧
      (addr.toNat % 4 = 0 → Bus.fetch s req.code (addr.toNat - 0x40000000) = s.answer req.code [0] true) ∧
      (Bus.readN s req.code addr.toNat size.bytes).2 = s ∧ (Bus.readN s req.code addr.toNat size.bytes).1 = .err

/-- R40, with R38's arming. -/
def Obligations.CommitReplacesPending : Prop :=
  ∀ (req : Req) (p : Fin 288) (gen : BitVec 16) (s : State), s.Quiet → s.Writable req p.val → hasHead p.val = true →
    (Page.feat p.val).testBit 0 = true → gen ≠ 0 →
      ∃ t, exec (.commitWrite req (.page p) gen) s = .next t ∧
        t.armed.filter (fun x => x.key == pg p.val + 0x02C) = [⟨pg p.val + 0x02C, gen.toNat, req.code, s.now⟩] ∧
        t.armed.filter (fun x => x.key != pg p.val + 0x02C) = s.armed.filter (fun x => x.key != pg p.val + 0x02C) ∧
        t.flag (pg p.val) H.COMMIT_PEND = true ∧
        t = { s with regs := t.regs, resp := t.resp, armed := t.armed } ∧
        (∀ a, a ≠ pg p.val + 0x02C → a ≠ pg p.val + 0x010 → t.reg a = s.reg a) ∧
        (t.frozen p.val = false → ((t.takePage p.val).1).get (pg p.val) H.TAKEN = gen.toNat)

/-- R38.
The model's choices it rests on: log entries 29 DEDUCED. -/
def Obligations.HandOverTakesTheShadow : Prop :=
  (∀ (c : Armed) (s : State), s.running .net = true → s.armedAt (pg 0x062 + 0x02C) = some c → c.gen < 2 ^ 16 →
    s.frozen 0x062 = false →
      ∃ t, exec (.commitHandOver (.page ⟨0x062, by decide⟩)) s = .next t ∧
        (∀ a, 0x62040 ≤ a → a < 0x63000 → t.wreg a = s.reg a) ∧ (∀ a, ¬ (0x62040 ≤ a ∧ a < 0x63000) → t.wreg a = s.wreg a) ∧
        t.get (pg 0x062) H.TAKEN = c.gen ∧ t.flag (pg 0x062) H.COMMIT_PEND = false ∧
        (t.get (pg 0x062) H.IRQ_RAW).testBit 30 = true ∧ t.armedAt (pg 0x062 + 0x02C) = none ∧
        t = { s with regs := t.regs, work := t.work, armed := t.armed }) ∧
  (∀ (e : Fin 256) (s : State), s.armedAt (Cal.key e.val) = none → exec (.commitHandOver (.entry e)) s = .next s) ∧
  (∀ (n : Fin 64) (s : State), s.armedAt (Dma.cb n.val + 0x048) = none → exec (.commitHandOver (.dma n)) s = .next s)

/-- R36.
The model's choices it rests on: log entries 25 DEDUCED. -/
def Obligations.LockCommands : Prop :=
  ∀ (req : Req) (p : Fin 288) (s : State), s.Quiet → s.Reaches req p.val → hasHead p.val = true →
    Cmd.Sets (.pageLock req p) s [pg p.val + 0x034]
      (fun t => t.locked p.val = true ∧ t.get (pg p.val) H.STICKY = s.get (pg p.val) H.STICKY) ∧
    Cmd.Sets (.pageLockSticky req p) s [pg p.val + 0x034] (fun t => t.locked p.val = true ∧ t.flag (pg p.val) H.STICKY = true) ∧
    (s.flag (pg p.val) H.STICKY = false →
      Cmd.Sets (.pageUnlock req p) s [pg p.val + 0x034] (fun t => t.locked p.val = false)) ∧
    (s.flag (pg p.val) H.STICKY = true → Cmd.Sets (.pageUnlock req p) s [] (fun t => t.locked p.val = s.locked p.val))

/-- R35, R37, R41, R47.
The model's choices it rests on: log entries 25 DEDUCED. -/
def Obligations.EventAndErrorClears : Prop :=
  (∀ (req : Req) (p : Fin 288) (mask : BitVec 32) (s : State), s.Quiet → s.Reaches req p.val → hasHead p.val = true →
    Cmd.Sets (.irqClr req (.page p) mask) s [pg p.val + 0x014] (fun t =>
      ∀ n < 32, (t.get (pg p.val) H.IRQ_RAW).testBit n = ((s.get (pg p.val) H.IRQ_RAW).testBit n && !mask.getLsbD n ||
        (decide (p.val = Gpio.p ∧ n < 16) && (s.get (Gpio.b + 4 * n) Gpio.PIN_CFG_IRQ_MODE == 4 && Gpio.level s n ||
          s.get (Gpio.b + 4 * n) Gpio.PIN_CFG_IRQ_MODE == 5 && !Gpio.level s n)))) ∧
    Cmd.Sets (.errClear req p) s [pg p.val + 0x024, pg p.val + 0x028] (fun t =>
      t.get (pg p.val) H.CODE = 0 ∧ t.get (pg p.val) H.COUNT = 0 ∧ t.get (pg p.val) H.ERR_ADDR = 0) ∧
    (s.locked p.val = false → (Page.feat p.val).testBit 0 = true →
      Cmd.Sets (.commitWrite req (.page p) 0) s [pg p.val + 0x014, pg p.val + 0x024, pg p.val + 0x028] (fun t =>
        t.get (pg p.val) H.COUNT = min (s.get (pg p.val) H.COUNT + 1) 255 ∧
        t.get (pg p.val) H.CODE = if s.get (pg p.val) H.CODE = 0 then 0x06 else s.get (pg p.val) H.CODE))) ∧
  (∀ (req : Req) (mask : BitVec 8) (s : State), s.Quiet → s.Writable req 0x001 →
    exec (.swiSet req mask) s = .next ({ s with swi := s.swi ||| mask }.answered req []) ∧
    exec (.swiClr req mask) s = .next ({ s with swi := s.swi &&& ~~~mask }.answered req []))

/-- R34, R43, R44.
The model's choices it rests on: log entries 5 DESIGN CHOICE, 25 DEDUCED. -/
def Obligations.EnableFreezeCommands : Prop :=
  (∀ (req : Req) (p : Fin 288) (b : Blk) (i : Nat) (en : Bool) (s : State), s.Quiet → s.Writable req p.val →
    pageInfo p.val = some (b, i) → b ∈ [.sys, .irq, .vig, .guard, .clk, .code, .evt, .sw, .ptp, .dma, .mem, .flash, .annal,
      .dump, .power, .i2c, .gpio] → (Page.feat p.val).testBit 2 = true ∨ s.flag (pg p.val) H.FREEZE = false →
      Cmd.Sets (.pageEnable req p en) s [pg p.val + 0x00C, pg p.val + 0x010] (fun t =>
        t.en p.val = en ∧ t.flag (pg p.val) H.ENABLED = en)) ∧
  (∀ (req : Req) (p : Fin 288) (s : State), s.Quiet → s.Writable req p.val → (Page.feat p.val).testBit 2 = true →
      Cmd.Sets (.freeze req p) s [pg p.val + 0x00C, pg p.val + 0x010] (fun t =>
        t.flag (pg p.val) H.FREEZE = true ∧ t.en p.val = s.en p.val)) ∧
  (∀ (p : Fin 288) (b : Blk) (i : Nat) (feed : List (Nat × List Smp)) (s : State), pageInfo p.val = some (b, i) → b ∈ [.arr, .code, .ptp, .dma] →
    s.running (pageIsland p.val) = true → s.flag (pg p.val) H.FREEZE = true → s.frozen p.val = false →
      Cmd.Sets (.freezeDone p feed) s [pg p.val + 0x010] (fun t => t.frozen p.val = true)) ∧
  (∀ (req : Req) (p : Fin 288) (b : Blk) (i : Nat) (s : State), s.Quiet → s.Writable req p.val →
    pageInfo p.val = some (b, i) → b ∈ [.acq, .code, .meas, .ptp, .radio] ∨ b = .dma ∧ s.dmaClear = false ∧ (∀ n : Fin 64, Dma.st s n.val ≠ 4) →
      Cmd.Sets (.unfreeze req p) s [pg p.val + 0x00C, pg p.val + 0x010] (fun t =>
        t.flag (pg p.val) H.FREEZE = false ∧ t.frozen p.val = false ∧ t.en p.val = s.en p.val)) ∧
  (∀ (req : Req) (p : Fin 288) (i : Fin 4) (s : State), s.Quiet → s.Writable req p.val → p.val = Rfe.page i.val →
      ∃ t, exec (.unfreeze req p) s = .next t ∧ t.flag (pg p.val) H.FREEZE = false ∧ t.frozen p.val = false ∧
        t.en p.val = s.en p.val ∧ t.ch i.val = { s.ch i.val with mon := (t.ch i.val).mon } ∧
        (∀ k : Fin 4, k ≠ i → t.ch k.val = s.ch k.val) ∧ t = { s with regs := t.regs, resp := t.resp, chains := t.chains } ∧
        ∀ a, a ≠ pg p.val + 0x00C → a ≠ pg p.val + 0x010 → a ≠ pg p.val + Rfe.CAL_STAT_STEP.off → t.reg a = s.reg a)

/-- R45.
The model's choices it rests on: log entries 77 DEDUCED. -/
def Obligations.SoftResetCommands : Prop :=
  (∀ (req : Req) (p : Fin 288) (b : Blk) (i : Nat) (en fr : Bool) (s : State), s.Quiet → s.Writable req p.val →
    pageInfo p.val = some (b, i) → b ∈ [.code, .sw, .ptp] →
      ∃ t, exec (.softReset req p en fr) s = .next t ∧ t.flag (pg p.val) H.BUSY = true ∧ t.en p.val = en ∧
        t.flag (pg p.val) H.ENABLED = en ∧ t.armedAt (pg p.val + 0x02C) = none ∧
        (∀ a, pg p.val ≤ a → a < pg p.val + 0x1000 → a ≠ pg p.val + 0x00C → a ≠ pg p.val + 0x010 → t.reg a = resetWord a) ∧
        (∀ a, a < pg p.val ∨ pg p.val + 0x1000 ≤ a → t.reg a = s.reg a) ∧ t.mem = s.mem) ∧
  (∀ (p : Fin 288) (s : State), s.Quiet → s.held = [] → s.flag (pg p.val) H.BUSY = true →
      Cmd.Sets (.softResetDone p) s [pg p.val + 0x010] (fun t => t.flag (pg p.val) H.BUSY = false))

/-- R9, R28, R33, R36, R37.
The model's choices it rests on: log entries 31 DEDUCED. -/
def Obligations.RegisterWriteCommand : Prop :=
  (∀ (req : Req) (p off : Nat) (b : Blk) (i : Nat) (f : FieldAt) (addr : BitVec 32) (value : BitVec 64) (s : State), s.Quiet →
    s.Reaches req p → pageInfo p = some (b, i) → off < 0x1000 → off % 4 = 0 → addr.toNat = 0x40000000 + pg p + off →
    (hasHeader b && decide (off < 0x040)) = false →
      (s.locked (ownerPage p) = false → b = .calE ∨ b = .mem → Bus.fields b i off = [f] → f.acc = .fr ∨ f.acc = .sh →
        f.chk = .any →
        Cmd.Sets (.registerWrite req .w addr value) s [pg p + off] (fun t =>
          t.regN (pg p + off) = putBits (s.regN (pg p + off)) f.lo f.w (bitsOf value.toNat f.lo f.w) % 2 ^ 32)) ∧
      (Bus.fields b i off = [] →
        exec (.registerWrite req .w addr value) s =
          .next ((s.logErr (ownerPage p) 0x01 (pg p + off) req.code).answered req [])) ∧
      (Bus.fields b i off ≠ [] → (∀ f ∈ Bus.fields b i off, f.acc = .rd) →
        exec (.registerWrite req .w addr value) s =
          .next ((s.logErr (ownerPage p) 0x02 (pg p + off) req.code).answered req [])) ∧
      (s.locked (ownerPage p) = true → Bus.irqClr b off = false → Bus.fields b i off = [f] → f.acc = .fr ∨ f.acc = .sh →
        exec (.registerWrite req .w addr value) s =
          .next ((s.logErr (ownerPage p) 0x04 (pg p + off) req.code).answered req [])) ∧
      exec (.registerWrite req .h addr value) s =
        .next ((s.logErr (ownerPage p) 0x09 (pg p + off) req.code).answered req []) ∧
      exec (.registerWrite req .b addr value) s =
        .next ((s.logErr (ownerPage p) 0x09 (pg p + off) req.code).answered req [])) ∧
  (∀ (req : Req) (addr : BitVec 32) (w : Bool) (h : Held) (s : State), h ∈ s.held → h.req = req.code →
    h.req ≠ 10 → h.addr = addr.toNat → 0x40000000 ≤ addr.toNat → h.write = w → (∀ g ∈ s.held, g.addr = addr.toNat → g.write = w →
      g.req = req.code ∨ g.req = Bus.who req.code → g = h) →
      exec (.registerAccessTimeout req addr w) s =
        .next ({ s with held := s.held.filter (fun g => decide (g ≠ h)) }.answer req.code (if w then [] else [0]) true))

/-- R57, R59, R60, R63.
The model's choices it rests on: log entries 25 DEDUCED, 32 DEDUCED. -/
def Obligations.ReceiveChainCommands : Prop :=
  ∀ (req : Req) (i : Fin 4) (s : State), s.Quiet → s.Writable req (Rfe.page i.val) →
    (s.en (Rfe.page i.val) = true → s.frozen (Rfe.page i.val) = false → s.flag (pg (Rfe.page i.val)) H.FREEZE = false →
      Rfe.busy s i.val = false →
      exec (.calDc req i) s = .next ((s.modCh i.val (fun c => { c with calQ := [.dc] })).answered req []) ∧
      exec (.calFilter req i) s = .next ((s.modCh i.val (fun c => { c with calQ := [.filter] })).answered req []) ∧
      exec (.calImage req i) s = .next ((s.modCh i.val (fun c => { c with calQ := [.image] })).answered req []) ∧
      exec (.calAll req i) s =
        .next ((s.modCh i.val (fun c => { c with calQ := [.dc, .filter, .image] })).answered req []) ∧
      (Rfe.oscPending s (i.val % 2) = false →
        exec (.calOsc req i) s = .next ((s.setOsc (i.val % 2) (some
          ⟨[i.val], false, none⟩)).answered req []))) ∧
    (∀ (w : Fin 3) (value : BitVec 32), Rfe.busy s i.val = false →
      Cmd.Sets (.calResultWrite req i w value) s [Rfe.b i.val + 0x0F0 + 4 * w.val] (fun t =>
        ∀ f ∈ Bus.fields .rfe i.val (0x0F0 + 4 * w.val),
          bitsOf (t.regN (Rfe.b i.val + 0x0F0 + 4 * w.val)) f.lo f.w = bitsOf value.toNat f.lo f.w)) ∧
    (s.en (Rfe.page i.val) = false →
      ∃ t, exec (.chainEnable req i) s = .next t ∧ t.en (Rfe.page i.val) = true ∧
        t.ch i.val = { s.ch i.val with wait := some 2, waitHeld := false, valid := false, back := false, lostLo := false } ∧
        (∀ k : Fin 4, k ≠ i → t.ch k.val = s.ch k.val) ∧
        t = { s with regs := t.regs, resp := t.resp, chains := t.chains, validLog := t.validLog } ∧
        ∀ a, a ≠ Rfe.b i.val + 0x00C → a ≠ Rfe.b i.val + 0x010 → a ≠ Rfe.b i.val + Rfe.CAL_STAT_STEP.off → t.reg a = s.reg a)

/-- R52, R55, R71.
The model's choices it rests on: log entries 4 DESIGN CHOICE, 34 DESIGN CHOICE. -/
def Obligations.SpectrumAndUpdateTick : Prop :=
  (∀ (i : Fin 4) (done : BitVec 64) (pre post : List (List (Int × Int))) (s : State),
    let b := Rfe.b i.val
    let dst := s.wget b Rfe.MON_DST_ADDR + (if (s.ch i.val).mon.toB then 0x2040 else 0)
    s.en (Rfe.page i.val) = true → s.wflag b Rfe.MON_CFG_MON_EN = true → s.frozen (Rfe.page i.val) = false →
    s.running .rf = true → s.Clean → (∀ k : Fin 4, s.wflag (b + 0x060 + 0x10 * k.val) ⟨0, 12, 1⟩ = false) →
    (∀ n, (s.ch i.val).mon.at_ ≤ n → Rfe.goodBlock s i.val n = true) →
    0x10000000 ≤ dst → dst + 0x2040 ≤ 0x11FC0000 →
      ∃ t, exec (.spectrumRecord i done pre post) s = .next t ∧ done.toNat ≤ t.now ∧ t.byte dst = 0x50 ∧ t.byte (dst + 1) = 0x53 ∧
        t.get b Rfe.MON_STAT_LAST = b2n (s.ch i.val).mon.toB ∧ t.flag b Rfe.MON_STAT_VALID = true ∧
        t.get b Rfe.MON_STAT_SEQ = ((s.ch i.val).mon.seq + 1) % 2 ^ 16 ∧ (t.get b H.IRQ_RAW).testBit 6 = true ∧
        (t.ch i.val).mon.toB = !(s.ch i.val).mon.toB ∧
        (∀ a, a < dst ∨ dst + 0x2040 ≤ a → t.byte a = s.byte a)) ∧
  (∀ (c0 c1 c2 c3 : ChainIn) (s : State), s.running .rf = true →
      ∃ t, exec (.updateTick c0 c1 c2 c3) s = .next t ∧ t.rfLast = s.rfLast + 64000 ∧ t.mem = s.mem ∧
        t.base = (s.runTo (s.rfLast + 64000)).base ∧
        ∀ i : Fin 4,
          let n := (([c0, c1, c2, c3][i]).adc.filter (fun v => v.1 == 127 || v.1 == -128 || v.2 == 127 || v.2 == -128)).length
          (s.en (Rfe.page i.val) = true → t.get (Rfe.b i.val) Rfe.GAIN_STAT_CLIP_CNT = min n 65535 ∧
            (81 < n → (t.get (Rfe.b i.val) H.IRQ_RAW).testBit 2 = true)) ∧
          (s.en (Rfe.page i.val) = false → t.get (Rfe.b i.val) Rfe.GAIN_STAT_CLIP_CNT = s.get (Rfe.b i.val) Rfe.GAIN_STAT_CLIP_CNT))

/-- R76.
The model's choices it rests on: log entries 3 DESIGN CHOICE, 104 DESIGN CHOICE. -/
def Obligations.AntennaBias : Prop :=
  ∀ (n : Fin 2) (s : State),
    ((s.ch (2 * n.val)).biasOn = true →
      ∃ t, exec (.biasFoldback n) s = .next t ∧ (t.ch (2 * n.val)).biasOn = false ∧
        t.flag (Rfe.b (2 * n.val)) Rfe.BIAS_STAT_FOLDBACK = true ∧
        t = { s with regs := t.regs, chains := t.chains } ∧
        (∀ a, a ≠ Rfe.b (2 * n.val) + 0x114 → t.reg a = s.reg a) ∧ (∀ k : Fin 4, k.val ≠ 2 * n.val → t.ch k.val = s.ch k.val)) ∧
    (∀ t0, s.flag (Rfe.b (2 * n.val)) Rfe.BIAS_CTL_BIAS_EN = true → s.flag (Rfe.b (2 * n.val)) Rfe.BIAS_CTL_AUTO_RETRY = true →
      s.get (Rfe.b (2 * n.val)) Rfe.BIAS_STAT_STATE = 3 → (s.ch (2 * n.val)).shortAt = some t0 →
      let u := s.runTo (t0 + s.get (Rfe.b (2 * n.val)) Rfe.BIAS_CTL_RETRY * 64000000)
      ∃ t, exec (.biasRetry n) s = .next t ∧ (t.ch (2 * n.val)).biasOn = true ∧ (t.ch (2 * n.val)).shortAt = none ∧
        t.get (Rfe.b (2 * n.val)) Rfe.BIAS_STAT_RETRIES = min (s.get (Rfe.b (2 * n.val)) Rfe.BIAS_STAT_RETRIES + 1) 65535 ∧
        t = { u with regs := t.regs, chains := t.chains } ∧
        (∀ a, a ≠ Rfe.b (2 * n.val) + 0x114 → t.reg a = s.reg a) ∧ (∀ k : Fin 4, k.val ≠ 2 * n.val → t.ch k.val = s.ch k.val))

/-- R85 to R88.
The model's choices it rests on: log entries 4 DESIGN CHOICE, 35 DEDUCED. -/
def Obligations.SnapshotTriggers : Prop :=
  (∀ (req : Req) (s : State), s.Quiet → s.Clean → s.Writable req 0x020 → Acq.Free s →
    let q := s.get (Acq.b 0) Acq.SNAP_STAT_SEQ
    let ring := s.wflag (Acq.b 0) Acq.SNAP_CFG_RING
    ∃ t c, exec (.snapStart req) s = .next t ∧ t.snap = some c ∧ c.seq = (if q = 65535 then 1 else q + 1) ∧
      c.chains = s.wget (Acq.b 0) Acq.SNAP_CFG_CHAINS ∧ c.len = s.wget (Acq.b 0) Acq.SNAP_CFG_LEN ∧ c.ring = ring ∧
      c.first = s.sampleAt s.now ∧ c.stop = none ∧ c.late = false ∧ t.get (Acq.b 0) Acq.SNAP_STAT_SEQ = c.seq ∧
      t.get (Acq.b 0) Acq.SNAP_STAT_STATE = (if ring then 2 else 1) ∧
      t.tag (s.wget (Acq.b 0) Acq.SNAP_CFG_OFS) = ⟨c.seq, true, c.len⟩ ∧ t.base = s.base) ∧
  (∀ (x : Action) (fire : BitVec 64) (late : Bool) (s : State), s.running .acq = true → s.acts.find? (fun y => y.act == 5) = some x →
    (x.fire ≠ fire.toNat ∨ x.late ≠ late → exec (.snapCapture fire late) s = .next s) ∧
    (s.Clean → Acq.Free s → x.fire = fire.toNat → x.late = late →
    let q := s.get (Acq.b 0) Acq.SNAP_STAT_SEQ
    ∃ t c, exec (.snapCapture fire late) s = .next t ∧ t.snap = some c ∧ c.seq = (if q = 65535 then 1 else q + 1) ∧
      c.chains = s.wget (Acq.b 0) Acq.SNAP_CFG_CHAINS ∧ c.late = x.late ∧ c.stop = none ∧
      c.first = s.sampleAt x.fire ∧ t.base = (s.runTo x.fire).base ∧ t.acts = s.acts.erase x ∧ t.get (Acq.b 0) Acq.SNAP_STAT_SEQ = c.seq)) ∧
  (∀ (req : Req) (c : Snap) (s : State), s.Quiet → s.Writable req 0x020 → s.snap = some c → c.stop = none →
    (c.ring = false →
      exec (.snapStop req) s = .next (State.answered
        { s with snap := some { c with stop := some (min (Snap.taken s c) (c.len * 1024)), trunc := true } } req [])) ∧
    (c.ring = true → c.len * 1024 ≤ Snap.taken s c →
      ∃ t, exec (.snapStop req) s = .next t ∧ t.snap = some { c with stop := some (Snap.taken s c + c.len * 512) } ∧
        t.get (Acq.b 0) Acq.SNAP_STAT_STATE = 3 ∧ t = { s with snap := t.snap, regs := t.regs, resp := t.resp } ∧
        ∀ a, a ≠ Acq.b 0 + 0x04C → t.reg a = s.reg a))

/-- R82, R87, R89.
The model's choices it rests on: log entries 4 DESIGN CHOICE, 35 DEDUCED. -/
def Obligations.SnapshotEnds : Prop :=
  (∀ (feed : List (List (Int × Int))) (c : Snap) (n : Nat) (s : State),
    let hdr := c.base + c.ofs * 0x10000
    s.Clean → s.running .acq = true → s.snap = some c → c.stop = some n ∨ c.stop = none ∧ c.ring = false ∧ n = c.len * 1024 →
    0x10000000 ≤ hdr → hdr + 64 + 4 * (c.len * 2048) ≤ 0x11FC0000 →
      ∃ t, exec (.capDone feed) s = .next t ∧ t.snap = none ∧ t.get (Acq.b 0) Acq.SNAP_STAT_STATE = 0 ∧
        t.byte hdr = 0x4E ∧ t.byte (hdr + 1) = 0x53 ∧ t.numAt (hdr + 2) 1 = c.chains % 256 ∧ t.numAt (hdr + 4) 2 = c.seq % 2 ^ 16 ∧
        t.numAt (hdr + 8) 4 = min n (c.len * 1024) % 2 ^ 32 ∧ t.base = (s.runToSample (c.first + n)).base ∧
        (c.trunc = true → (t.get (pg 0x020) H.IRQ_RAW).testBit 4 = true) ∧ t.tag c.ofs = ⟨c.seq, false, c.len⟩ ∧
        (t.get (pg 0x020) H.IRQ_RAW).testBit 3 = true ∧
        ∀ a, a < hdr ∨ hdr + 64 + 4 * (c.len * 2048) ≤ a → t.byte a = s.byte a) ∧
  (∀ (held : Nat) (c : Snap) (s : State), s.running .acq = true → s.snap = some c →
      ∃ t, exec (.capOverrun held) s = .next t ∧
        t.snap = some { c with
          stop := some (min held (match c.stop with | some n => n | none => if c.ring then held else c.len * 1024)), ovr := true } ∧
        t.flag (Acq.b 0) Acq.SNAP_STAT_OVERRUN = true ∧ (t.get (pg 0x020) H.IRQ_RAW).testBit 4 = true ∧
        t = { s with snap := t.snap, regs := t.regs } ∧ ∀ a, a ≠ Acq.b 0 + 0x04C → a ≠ Acq.b 0 + 0x014 → t.reg a = s.reg a)

/-- R93, R95 to R97.
The model's choices it rests on: log entries 36 DEDUCED, 37 DEDUCED. -/
def Obligations.AcquisitionJobs : Prop :=
  (∀ (req : Req) (e : Fin 2) (tail : BitVec 32) (s : State), s.Quiet → s.Writable req (Acq.p e.val) →
    (tail.toNat % 128 + 128 - s.get (Acq.b e.val) Acq.Q_HEAD_HEAD) % 128 ≤ 64 →
      Cmd.Sets (.qTailWrite req e tail) s [Acq.b e.val + 0x064, Acq.b e.val + 0x014] (fun t =>
        t.get (Acq.b e.val) Acq.Q_TAIL_TAIL = tail.toNat % 128)) ∧
  (∀ (e : Fin 2) (s : State),
    let slot := s.get (Acq.b e.val) Acq.Q_HEAD_HEAD
    let bytes := s.bytesAt (Acq.slotAddr s e.val slot) 64
    let d := Desc.of bytes
    let ha := Acq.snapBase s + d.capBlk * 0x10000
    let hdr := s.bytesAt ha 64
    let s1 := ((s.setJob e.val (some ⟨slot, Acq.slotAddr s e.val slot, bytes, hdr, false, false, false⟩)).put (Acq.b e.val) Acq.ENG_STAT_RUNNING 1).put
      (Acq.b e.val) Acq.ENG_STAT_TAG d.tag
    s.Clean → s.en (Acq.p e.val) = true → s.frozen (Acq.p e.val) = false → s.running .acq = true →
    s.flag (Acq.b e.val) Acq.ENG_STAT_HALTED = false → s.job e.val = none → Acq.queued s e.val ≠ 0 →
    rangeFor (Acq.slotAddr s e.val slot) 64 = .sram → rangeFor ha 64 = .sram → d.check s1 (some hdr) = 0 →
      ∃ t, exec (.jobStart e) s = .next t ∧ t.job e.val = some ⟨slot, Acq.slotAddr s e.val slot, bytes, hdr, false, false, false⟩ ∧
        t.flag (Acq.b e.val) Acq.ENG_STAT_RUNNING = true ∧ t.get (Acq.b e.val) Acq.ENG_STAT_TAG = d.tag % 2 ^ 16 ∧ t.mem = s.mem) ∧
  (∀ (e : Fin 2) (waits : Nat) (j : Job) (s : State), s.Clean → s.running .acq = true → s.frozen (Acq.p e.val) = false →
    s.job e.val = some j → j.abort = false → j.flushed = false →
      ∃ t, exec (.jobDone e waits) s = .next t ∧ t.job e.val = none ∧ t.flag (Acq.b e.val) Acq.ENG_STAT_RUNNING = false ∧
        t.get (Acq.b e.val) Acq.Q_HEAD_HEAD = (s.get (Acq.b e.val) Acq.Q_HEAD_HEAD + 1) % 128) ∧
  (∀ (req : Req) (e : Fin 2) (j : Job) (s : State), s.Quiet → s.Clean → s.Writable req (Acq.p e.val) →
    s.frozen (Acq.p e.val) = false → s.job e.val = some j → j.flushed = false →
      ∃ t, exec (.jobAbort req e) s = .next t ∧ t.job e.val = none ∧ t.flag (Acq.b e.val) Acq.ENG_STAT_RUNNING = false ∧
        t.get (Acq.b e.val) Acq.Q_HEAD_HEAD = (s.get (Acq.b e.val) Acq.Q_HEAD_HEAD + 1) % 128) ∧
  (∀ (req : Req) (e : Fin 2) (s : State), s.Quiet → s.Clean → s.Writable req (Acq.p e.val) → s.job e.val = none →
      ∃ t, exec (.jobFlush req e) s = .next t ∧ t.job e.val = none ∧
        t.get (Acq.b e.val) Acq.Q_HEAD_HEAD = s.get (Acq.b e.val) Acq.Q_TAIL_TAIL)

/-- R110 to R112, R122, R123.
The model's choices it rests on: log entries 4 DESIGN CHOICE, 25 DEDUCED, 39 DEDUCED. -/
def Obligations.ChannelRunAndStart : Prop :=
  (∀ (req : Req) (n : Fin 512) (s : State), s.Quiet → s.Writable req (0x100 + n.val / 16) →
    ∃ t, exec (.channelRun req n) s = .next t ∧ t = { s with regs := t.regs, resp := t.resp, chan := t.chan } ∧
      (∀ a, a ≠ Ch.b n.val → a ≠ Ch.b n.val + 4 → t.reg a = s.reg a) ∧
      (∀ k, t.chn k = { s.chn k with moved := (t.chn k).moved }) ∧
      t.flag (Ch.b n.val) Ch.CH_CTL_RUN = true ∧ t.get (Ch.b n.val) Ch.CH_CTL_GROUP = s.get (Ch.b n.val) Ch.CH_CTL_GROUP ∧
      t.get (Ch.b n.val) Ch.CH_CTL_PATH = s.get (Ch.b n.val) Ch.CH_CTL_PATH ∧
      t.chState n.val = if s.en 0x030 ∧ s.flag (Ch.b n.val) Ch.CH_CTL_RUN = false then 1 else s.chState n.val) ∧
  (∀ (req : Req) (n : Fin 512) (s : State), s.Quiet → s.Writable req (0x100 + n.val / 16) →
    ∃ t, exec (.channelStop req n) s = .next t ∧ t.flag (Ch.b n.val) Ch.CH_CTL_RUN = false ∧ t.chState n.val = 0 ∧
      (∀ k, k ≠ n.val → t.chn k = s.chn k) ∧ t = { s with regs := t.regs, resp := t.resp, chan := t.chan } ∧
      ∀ a, a ≠ Ch.b n.val → a ≠ Ch.b n.val + 4 → t.reg a = s.reg a) ∧
  (∀ (n : Fin 512) (cm : Armed) (s : State),
    let b := Ch.b n.val
    let m0 := max (if s.get b Ch.START_T < cm.at_ then s.sampleAfter cm.at_ else s.sampleAt (s.get b Ch.START_T)) (max (Ch.afterMove s n.val) s.curSample)
    let m := if s.flag b Ch.SIG_CFG_NB then m0 + (4 - s.gsc m0 % 4) % 4 else m0
    s.chState n.val = 1 ∨ s.chState n.val = 3 → s.flag b Ch.CH_CTL_PATH = false → s.armedAt (b + 0x014) = some cm → s.en 0x030 = true →
    s.frozen 0x030 = false → s.running .corr = true → Ch.reason (s.copyShadow (b + 0x020) (b + 0x080)) n.val = 0 →
      ∃ t, exec (.channelStart n) s = .next t ∧ t.chState n.val = 2 ∧ t.get b Ch.CH_STAT_REASON = s.get b Ch.CH_STAT_REASON ∧
        t.get b Ch.COMMIT_TAKEN_GEN = cm.gen % 2 ^ 16 ∧ t.armedAt (b + 0x014) = none ∧ (t.chn n.val).pos = m ∧
        (t.chn n.val).acc = List.replicate 9 (0, 0) ∧ (t.chn n.val).nsamp = 0 ∧
        (∀ a, b + 0x020 ≤ a → a < b + 0x080 → t.wreg a = s.reg a) ∧
        (s.get b Ch.APPLY_GEN_STEP_GEN ≠ cm.gen →
          (t.chn n.val).chip = s.get b Ch.CODE_INIT_CHIP % max (Ch.len t n.val) 1 ∧
          (t.chn n.val).frac = s.get b Ch.CODE_INIT_FRAC * 2 ^ 8 ∧
          (t.chn n.val).period.toNat = s.get b Ch.PERIOD_INIT_PERIOD ∧
          (t.chn n.val).carr.toNat = s.get b Ch.CARR_INIT_PHASE * 2 ^ 8) ∧
        t.mem = s.mem ∧ (∀ k, k ≠ n.val → t.chn k = s.chn k) ∧
        (∀ a, ¬ (b ≤ a ∧ a < b + 0x01C) → t.reg a = s.reg a))

/-- R118, R121, R122, R125, R126, R129.
The model's choices it rests on: log entries 4 DESIGN CHOICE, 40 DEDUCED, 42 DEDUCED. -/
def Obligations.IntervalEndRestartsIntegration : Prop :=
  (∀ (n : Fin 512) (feed : List Smp) (s : State), s.chState n.val = 2 → s.en 0x030 = true → s.frozen 0x030 = false →
    s.running .corr = true → Ch.pathAt s n.val ((s.chn n.val).pos + Ch.toBoundary s n.val (s.chn n.val)) = true →
      ∃ t, exec (.intervalEnd n feed) s = .next t ∧ (t.chn n.val).acc = List.replicate 9 (0, 0) ∧ (t.chn n.val).nsamp = 0 ∧
        (t.chn n.val).first = (s.chn n.val).pos + Ch.toBoundary s n.val (s.chn n.val) ∧
        (t.chn n.val).pos = (t.chn n.val).first) ∧
  (∀ (g : Fin 16) (s : State), s.en 0x030 = true → s.frozen 0x030 = false → s.running .corr = true →
      let done (m : Nat) (t : State) : Prop :=
        let l := Trkg.membersAt s g.val m
        t.get (pg 0x030 + 4 * g.val) Trkg.GRP_STAT_TAKEN = (s.get (pg 0x030 + 4 * g.val) Trkg.GRP_STAT_TAKEN + 1) % 2 ^ 16 ∧
        t.get (pg 0x030 + 4 * g.val) Trkg.GRP_STAT_MISS = (l.filter (fun n => (s.armedAt (Ch.b n + 0x014)).isNone)).length ∧
        (t.get (pg 0x030) H.IRQ_RAW).testBit g.val = true ∧ t.base = (s.runToSample m).base ∧ t.mem = s.mem ∧
        (∀ n ∈ l, ∀ cm, s.armedAt (Ch.b n + 0x014) = some cm → s.chState n ≠ 0 →
          t.armedAt (Ch.b n + 0x014) = none ∧ t.get (Ch.b n) Ch.COMMIT_TAKEN_GEN = cm.gen % 2 ^ 16) ∧
        (∀ n : Fin 512, n.val ∉ l → t.chn n.val = s.chn n.val ∧ t.armedAt (Ch.b n.val + 0x014) = s.armedAt (Ch.b n.val + 0x014))
      (∀ (req : Req) (mask : BitVec 16) (feed : List (Nat × List Smp)), s.Writable req 0x030 → mask.toNat = 2 ^ g.val →
        (s.grpAt[g.val]?).join ≠ some s.nextSample →
        ∃ t, exec (.groupCommit req mask feed) s = .next t ∧ done s.nextSample t) ∧
      (∀ (x : Action) (fire : BitVec 64) (feed : List (Nat × List Smp)), s.acts.find? (fun y => y.act == 3) = some x →
        (x.arg % 16 ≠ g.val ∨ x.fire ≠ fire.toNat → exec (.groupCommitAction g fire feed) s = .next s) ∧
        (x.arg % 16 = g.val → x.fire = fire.toNat → (s.grpAt[g.val]?).join ≠ some (s.edgeFor x.fire) →
        ∃ t, exec (.groupCommitAction g fire feed) s = .next t ∧ t.acts = s.acts.erase x ∧ done (s.edgeFor x.fire) t))) ∧
  (∀ (req : Req) (g : Fin 16) (gen : BitVec 16) (s : State), s.Quiet → s.Writable req 0x030 → gen ≠ 0 →
      ∃ t, exec (.grpArm req g gen) s = .next t ∧
        (∀ n ∈ Trkg.members s g.val, t.armedAt (Ch.b n + 0x014) = some ⟨Ch.b n + 0x014, gen.toNat, req.code, s.now⟩ ∧
          t.get (Ch.b n) Ch.CH_STAT_COMMIT_PEND = 1 ∧ t.chState n = s.chState n) ∧
        (∀ n, n ∉ Trkg.members s g.val → t.armedAt (Ch.b n + 0x014) = s.armedAt (Ch.b n + 0x014)) ∧
        t = { s with regs := t.regs, resp := t.resp, armed := t.armed, grpArmed := t.grpArmed }) ∧
  (∀ (req : Req) (n : Fin 512) (s : State), s.Reaches req (0x100 + n.val / 16) →
    let b := Ch.b n.val
    let c0 := s.chn n.val
    let c := if s.chState n.val = 2 ∧ s.frozen 0x030 = false then Ch.at_ s n.val c0 s.nextSample else c0
      ∃ t, exec (.readbackCapture req n) s = .next t ∧ t.get b Ch.RB_INFO_STATE = s.chState n.val ∧
        t.get b Ch.RB_INFO_GEN = (Ch.setAt s n.val c0 s.nextSample).2.2 % 2 ^ 16 ∧ t.get b Ch.RB_PERIOD_PERIOD = c.period.toNat ∧
        t.get b Ch.RB_CODE_CHIP = c.chip % 2 ^ 16 ∧ t.get b Ch.RB_CODE_FRAC = c.frac / 2 ^ 8 % 2 ^ 32 ∧
        t.get b Ch.RB_CARR_PHASE = c.carr.toNat / 2 ^ 8 ∧ t.chan = s.chan ∧ t.base = (s.runToSample s.nextSample).base ∧
        t.resp = ⟨req.code, [BitVec.ofNat 32 (t.get b Ch.RB_T_T)], false⟩)

/-- R127, R128, R134, R135.
The model's choices it rests on: log entries 25 DEDUCED. -/
def Obligations.DumpPathAndTrackingEnable : Prop :=
  (∀ (k n : Nat) (r : List Nat) (l : List (Nat × Nat × List Nat)) (s : State),
    let wp := s.get (pg 0x030) Trkg.DUMP_WP_WP
    let size := s.get (pg 0x030) Trkg.DUMP_SIZE_SIZE
    let dst := s.get (pg 0x030) Trkg.DUMP_BASE_BASE * 0x1000 + 96 * wp
    s.Clean → s.dumpFifo = (k, n, r) :: l → r.length = 96 → s.running .fabric = true → size ≠ 0 →
    s.get (pg 0x030) Trkg.DUMP_BASE_BASE ≠ 0 → (wp + 1) % size ≠ s.get (pg 0x030) Trkg.DUMP_RP_RP → inSramArea dst 96 = true →
      ∃ t, exec .dumpRecordWrite s = .next t ∧ t.dumpFifo = l ∧ t.get (pg 0x030) Trkg.DUMP_WP_WP = (wp + 1) % size ∧
        (∀ i (_ : i < 96), t.byte (dst + i) = BitVec.ofNat 8 (r.getD i 0)) ∧
        (∀ a, a < dst ∨ dst + 96 ≤ a → t.byte a = s.byte a) ∧ t.chan = s.chan ∧
        ∀ a, a ≠ 0x3004C → a ≠ 0x30014 → t.reg a = s.reg a) ∧
  (∀ (req : Req) (s : State), s.Quiet → s.Writable req 0x030 →
    Cmd.Sets (.ovfClr req) s [0x30040, 0x30058] (fun t => t.get (pg 0x030) Trkg.DUMP_OVF_COUNT = 0 ∧
      t.get (pg 0x030) Trkg.DUMP_CTL_DUMP_EN = s.get (pg 0x030) Trkg.DUMP_CTL_DUMP_EN)) ∧
  (∀ (req : Req) (s : State), s.Quiet → s.Writable req 0x030 → s.frozen 0x030 = false →
    (s.en 0x030 = true → ∃ t, exec (.trkgEnable req false) s = .next t ∧ t.en 0x030 = false ∧ ∀ n : Fin 512, t.chState n.val = 0) ∧
    (s.en 0x030 = false → ∃ t, exec (.trkgEnable req true) s = .next t ∧ t.en 0x030 = true ∧ t.chan = s.chan ∧
      ∀ n : Fin 512, t.chState n.val =
        if s.flag (Ch.b n.val) Ch.CH_CTL_RUN = true ∧ s.chState n.val = 0 then 1 else s.chState n.val))

/-- R108, R109, R136.
The model's choices it rests on: log entries 41 PRESUMED. -/
def Obligations.CodeStoreCommands : Prop :=
  (∀ (req : Req) (value : BitVec 32) (s : State), s.Quiet → s.Writable req 0x028 → s.crcRun = none →
    let w := s.get (pg 0x028) Code.CS_ADDR_WADDR
      ∃ t, exec (.csDataWrite req value) s = .next t ∧ t.codeWord w = value.toNat ∧ w ∉ t.codeBad ∧
        (∀ k, k ≠ w → t.codeWord k = s.codeWord k ∧ (k ∈ t.codeBad ↔ k ∈ s.codeBad)) ∧
        t.get (pg 0x028) Code.CS_ADDR_WADDR = (w + 1) % 2 ^ 18 ∧
        t = { s with regs := t.regs, resp := t.resp, code := t.code, codeBad := t.codeBad, codeLog := t.codeLog } ∧ ∀ a, a ≠ 0x28040 → t.reg a = s.reg a) ∧
  (∀ (req : Req) (s : State), s.Reaches req 0x028 →
    let w := s.get (pg 0x028) Code.CS_ADDR_WADDR
      ∃ t, exec (.csDataRead req) s = .next t ∧ t.resp = ⟨req.code, [BitVec.ofNat 32 (s.codeWord w)], false⟩ ∧
        t.get (pg 0x028) Code.CS_ADDR_WADDR = (w + 1) % 2 ^ 18 ∧
        (w ∉ s.codeBad → s.RegsOnly t [0x28040]) ∧
        (w ∈ s.codeBad → s.RegsOnly t [0x28040, 0x28050, 0x28014] ∧ t.flag (pg 0x028) Code.CS_ERR_PERR = true ∧
          (s.flag (pg 0x028) Code.CS_ERR_PERR = false → t.get (pg 0x028) Code.CS_ERR_ADDR = w) ∧
          (t.get (pg 0x028) H.IRQ_RAW).testBit 1 = true)) ∧
  (∀ (req : Req) (s : State), s.Quiet → s.Writable req 0x028 →
    exec (.crcStart req) s = .next (State.answered { s with crcRun := some 0, crcAcc := 0xFFFFFFFF } req [])) ∧
  (∀ (s : State), s.crcRun = some 0 → s.crcAcc = 0xFFFFFFFF → s.frozen 0x028 = false →
      ∃ t, exec .crcDone s = .next t ∧ t.crcRun = none ∧ (t.get (pg 0x028) H.IRQ_RAW).testBit 0 = true ∧
        t.get (pg 0x028) Code.CS_CRC_CRC = crc32c ((List.range (2 ^ 18)).flatMap (fun w => leBytes 4 (s.codeWord w))) ∧
        t = { s with regs := t.regs, crcRun := none } ∧ ∀ a, a ≠ 0x2804C → a ≠ 0x28014 → t.reg a = s.reg a)

/-- R137, R138, R140 to R143, R167, R168.
The model's choices it rests on: log entries 1 DESIGN CHOICE, 4 DESIGN CHOICE, 43 DEDUCED. -/
def Obligations.MeasurementLatch : Prop :=
  let opens (s t : State) (m : Nat) (treq : Option Nat) (late manual : Bool) : Prop :=
    let slot := 64 * s.get Meas.b Meas.MEAS_BASE_BASE + Meas.slot * s.get Meas.b Meas.MEAS_WP_WP
    ∃ l, t.latch = some l ∧ l.m = m ∧ l.late = late ∧ l.manual = manual ∧ (∀ q, treq = some q → l.treq = q) ∧
      l.ents.map (·.1) = Meas.reported (s.runToSample m) m ∧ (∀ e ∈ l.ents, e.2.length = 48) ∧
      t.base = (s.runToSample m).base ∧ t.measMissed = 0 ∧ t.regs = s.regs ∧
      t.byte slot = 0 ∧ t.byte (slot + 1) = 0 ∧ ∀ a, a ≠ slot → a ≠ slot + 1 → t.byte a = s.byte a
  (∀ (req : Req) (s : State), Meas.Free s → s.Quiet → s.Writable req Meas.p → s.frozen Meas.p = false →
    (∃ t, exec (.manualLatch req false) s = .next t ∧ opens s t s.nextSample (some (replica 1 s.now)) false true) ∧
    ∃ t l, exec (.manualLatch req true) s = .next t ∧ t.latch = some l ∧ l.m = s.nextSample ∧ l.manual = true ∧
      t.get Meas.b Meas.MEAS_MISS_COUNT = 0 ∧ t.get Meas.b Meas.MEAS_OVR_COUNT = 0) ∧
  (∀ (x : Action) (own fire : BitVec 64) (late : Bool) (s : State), s.acts.find? (fun y => y.act == 4) = some x →
    (x.own ≠ own.toNat ∨ x.fire ≠ fire.toNat ∨ x.late ≠ late → exec (.measLatch own fire late) s = .next s) ∧
    (Meas.Free s → s.frozen Meas.p = false → s.cdl.epochs = [] → x.own = own.toNat → x.fire = fire.toNat → x.late = late →
    ∃ t, exec (.measLatch own fire late) s = .next t ∧ t.acts = s.acts.erase x ∧ opens s t (s.edgeFor x.fire) (some x.own) x.late false)) ∧
  (∀ (g : Nat) (gsc : BitVec 48) (treq : Option Nat) (l : List (Nat × Option Nat)) (s : State), s.cdl.epochs = (g, treq) :: l →
    (g ≠ gsc.toNat → exec (.sharedEpochLatch gsc) s = .next s) ∧
    (g = gsc.toNat → s.flag Cdl.b Cdl.CDL_CFG_EPOCH_SHARE = true → s.cdl.isolated = false → Cdl.on s = true →
    (Cdl.passed s g = true → ∃ t, exec (.sharedEpochLatch gsc) s = .next t ∧ t.cdl.epochs = l ∧ t.latch = s.latch ∧
      t.get Cdl.b Cdl.EPOCH_LATE_COUNT = min (s.get Cdl.b Cdl.EPOCH_LATE_COUNT + 1) (2 ^ 32 - 1) ∧
      (t.get Cdl.b H.IRQ_RAW).testBit 6 = true) ∧
    (Cdl.passed s g = false → Meas.Free s → s.frozen Meas.p = false → ∃ t, exec (.sharedEpochLatch gsc) s = .next t ∧
      t.cdl.epochs = l ∧ opens s t (s.curSample + (g + 2 ^ 48 - s.gsc s.curSample) % 2 ^ 48) treq false false))) ∧
  (∀ (req : Req) (s : State), s.Quiet → s.Writable req Meas.p →
    Cmd.Sets (.measCntClr req) s [Meas.b + Meas.MEAS_MISS_COUNT.off, Meas.b + Meas.MEAS_OVR_COUNT.off] (fun t =>
      t.get Meas.b Meas.MEAS_MISS_COUNT = 0 ∧ t.get Meas.b Meas.MEAS_OVR_COUNT = 0))

/-- R144, R145.
The model's choices it rests on: log entries 4 DESIGN CHOICE, 43 DEDUCED. -/
def Obligations.MeasurementBlockDone : Prop :=
  ∀ (l : Latch) (s : State),
    let wp := s.get Meas.b Meas.MEAS_WP_WP
    let slot := 64 * s.get Meas.b Meas.MEAS_BASE_BASE + Meas.slot * wp
    let seq := if s.measSeq = 2 ^ 32 - 1 then 1 else s.measSeq + 1
    let ents := l.ents.flatMap (·.2)
    s.Clean → s.latch = some l → s.running .corr = true → s.running .fabric = true → inSramArea slot 0x6040 = true →
    s.get Meas.b Meas.MEAS_SLOTS_SLOTS ≠ 0 → l.before.length = 14 → l.after.length = 24 → ents.length ≤ 0x6000 → s.measSeq < 2 ^ 32 →
      ∃ t, exec .blockDone s = .next t ∧ t.latch = none ∧ t.byte slot = 0x45 ∧ t.byte (slot + 1) = 0x4D ∧
        t.numAt (slot + 4) 4 = seq ∧ t.numAt (slot + 38) 2 = l.ents.length % 2 ^ 16 ∧
        t.measSeq = seq ∧ t.get Meas.b Meas.MEAS_SEQ_SEQ = seq ∧ t.get Meas.b Meas.LAST_T_T = l.u / 64 % 2 ^ 64 ∧
        t.get Meas.b Meas.MEAS_WP_WP = (wp + 1) % s.get Meas.b Meas.MEAS_SLOTS_SLOTS ∧
        (t.get Meas.b H.IRQ_RAW).testBit 0 = true ∧
        (∀ i (_ : i < ents.length), t.byte (slot + 64 + i) = BitVec.ofNat 8 (ents.getD i 0)) ∧
        (∀ a, a < slot ∨ slot + 0x6040 ≤ a → t.byte a = s.byte a)

/-- R160, R162 to R164, R168, R177.
The model's choices it rests on: log entries 3 DESIGN CHOICE, 44 DEDUCED. -/
def Obligations.LinkFramesReceived : Prop :=
  (∀ (f : CdlFrame) (s : State), Cdl.Member s → f.ok = true → f.src.toNat + f.hops.toNat < 7 →
    let pos := f.src.toNat + f.hops.toNat + 1
    (∀ r : Option (Fin 9), ∃ t, exec (.idleFrame ⟨f, r⟩) s = .next t ∧ Cdl.pos t = pos ∧
      t.flag Cdl.b Cdl.CDL_STAT_ARRAY_IGNORED = (s.flag Cdl.b Cdl.CDL_CFG_ARRAY && decide (4 ≤ pos)) ∧ Cdl.state t = Cdl.state s ∧
      t = { s with regs := t.regs, cdl := t.cdl, guards := t.guards } ∧
      t.cdl = { s.cdl with good := if f.gap = 128 then s.cdl.good + 1 else 1, crcHist := (false :: s.cdl.crcHist).take 1024,
                           sent := Cdl.forwarded s (match r with | none => 0 | some k => 7 + k.val) pos f } ∧
      ∀ a, a ≠ Cdl.b + 0x044 → a ≠ pg 0x004 + 0x100 + 0x20 * 13 + GuardG.GD_STAT_STATE.off → t.reg a = s.reg a) ∧
    (f.dest.toNat = 15 ∨ f.dest.toNat = pos →
      (s.flag Cdl.b Cdl.CDL_CFG_EPOCH_SHARE = true →
        (Cdl.passed s (f.payload.toNat % 2 ^ 48) = false → ∃ t, exec (.epoch f) s = .next t ∧
          t.cdl.epochs = s.cdl.epochs ++ [(f.payload.toNat % 2 ^ 48, none)] ∧
          t.get Cdl.b Cdl.EPOCH_CNT_COUNT = (s.get Cdl.b Cdl.EPOCH_CNT_COUNT + 1) % 2 ^ 32 ∧
          t.cdl.sent = Cdl.forwarded s 1 pos f) ∧
        (Cdl.passed s (f.payload.toNat % 2 ^ 48) = true → ∃ t, exec (.epoch f) s = .next t ∧ t.cdl.epochs = s.cdl.epochs ∧
          t.get Cdl.b Cdl.EPOCH_LATE_COUNT = min (s.get Cdl.b Cdl.EPOCH_LATE_COUNT + 1) (2 ^ 32 - 1) ∧
          (t.get Cdl.b H.IRQ_RAW).testBit 6 = true)) ∧
      (∀ feed : List (Nat × List Smp), ∃ t, exec (.setGsc ⟨f, feed⟩) s = .next t ∧ t.gsc s.nextSample = f.payload.toNat % 2 ^ 48 ∧
        t.cdl.loaded = true ∧ t.base = (s.runToSample s.nextSample).base) ∧
      (∀ turn : BitVec 24, ∃ t, exec (.ping f turn) s = .next t ∧ t.cdl.sent = Cdl.forwarded s 3 pos f ∧
        t.cdl.blockOut = [0xA4 + 2 ^ 8 * pos + 2 ^ 16 * (f.payload.toNat % 256) + 2 ^ 24 * turn.toNat]) ∧
      (∃ t, exec (.dllSet f) s = .next t ∧
        t.get Cdl.b Cdl.CDL_DLL_CODE =
          (clampI 0 8191 (s.get (pg 0x009) Clk1.DLL_STAT_CODE + toSigned 16 (f.payload.toNat % 2 ^ 16))).toNat ∧
        t.get (pg 0x009) Clk1.DLL_STAT_CODE = t.get Cdl.b Cdl.CDL_DLL_CODE ∧
        t.get Cdl.b Cdl.CDL_SKEW_SKEW = bitsOf f.payload.toNat 32 16 ∧ Cdl.state t = (if Cdl.state s = 3 then 4 else Cdl.state s)) ∧
      (∃ t, exec (.msgFrame f false) s = .next t ∧ t.get Cdl.b Cdl.MSG_RX_DATA = f.payload.toNat ∧
        t.get Cdl.b Cdl.MSG_RX_INFO_SRC = f.src.toNat ∧ t.cdl.msgNew = true ∧ (t.get Cdl.b H.IRQ_RAW).testBit 4 = true ∧
        (s.cdl.msgNew = true → t.flag Cdl.b Cdl.MSG_RX_INFO_OVR = true)) ∧
      (∃ t, exec (.leave f) s = .next t ∧ Cdl.state t = 6 ∧ t.cdl.isolated = true ∧ t.cdl.epochs = [] ∧
        (t.get Cdl.b H.IRQ_RAW).testBit 8 = true))) ∧
  (∀ (f : CdlFrame) (r : Option (Fin 9)) (turn : BitVec 24) (feed : List (Nat × List Smp)) (i : Instr) (s : State), Cdl.Member s →
    f.ok = false →
    i ∈ [.idleFrame ⟨f, r⟩, .epoch f, .setGsc ⟨f, feed⟩, .ping f turn, .dllSet f, .msgFrame f false, .leave f] →
      ∃ t, exec i s = .next t ∧ t.get Cdl.b Cdl.CRC_ERR_COUNT = min (s.get Cdl.b Cdl.CRC_ERR_COUNT + 1) (2 ^ 32 - 1) ∧
        t.cdl = { s.cdl with good := 0, crcHist := (true :: s.cdl.crcHist).take 1024 } ∧ t = { s with regs := t.regs, cdl := t.cdl } ∧
        ∀ a, a ≠ Cdl.b + Cdl.CRC_ERR_COUNT.off → t.reg a = s.reg a)

/-- R158, R159, R164 to R166, R175, R361.
The model's choices it rests on: log entries 44 DEDUCED. -/
def Obligations.FollowerLink : Prop :=
  (∀ (s : State), Cdl.linked s = true → Cdl.role s = 2 →
    (Cdl.state s = 0 → s.cdl.dllRef = false → ∃ t, exec .dllLock s = .next t ∧ Cdl.state t = 0 ∧ t.cdl.dllRef = true ∧
      t.flag Cdl.b Cdl.CDL_STAT_DLL_LOCKED = true ∧
      t.flag (pg 0x009) Clk1.DLL_STAT_DLL_LOCKED = true ∧ t.flag (Pll.b 2) Pll.PLL_STAT_GATED = true ∧
      t.flag (Pll.b 3) Pll.PLL_STAT_GATED = true ∧ (t.get (pg 0x009) H.IRQ_RAW).testBit 10 = true) ∧
    (s.flag (pg 0x009) Clk1.DLL_STAT_INPUT = true → ∃ t, exec .dllLost s = .next t ∧
      t.flag Cdl.b Cdl.CDL_STAT_DLL_LOCKED = false ∧ (t.get (pg 0x009) H.IRQ_RAW).testBit 11 = true ∧ t.cdl.dllRef = false ∧
      (s.cdl.dllRef = true → t.pllState 2 = 4 ∧ t.pllState 3 = 4)) ∧
    (Cdl.state s ≠ 6 → ∃ t, exec .clkInLoss s = .next t ∧ Cdl.state t = 6 ∧ t.cdl.isolated = true ∧ t.cdl.synced = false ∧
      t.cdl.epochs = [] ∧ t.cdl.heralds = s.flag Cdl.b Cdl.CDL_CFG_SUCCEED ∧ t.cdl.dllRef = false ∧
      (s.cdl.dllRef = true → t.pllState 2 = 4 ∧ t.pllState 3 = 4) ∧ (t.get Cdl.b H.IRQ_RAW).testBit 8 = true) ∧
    (Cdl.state s ≠ 6 → Guard.timed s 13 = true → Guard.action s 13 = 2 → ∃ t, exec .syncTimeout s = .next t ∧ Cdl.state t = 6 ∧
      t.cdl.isolated = true ∧ Guard.state t 13 = 3 ∧ t.base = (s.runTo ((Guard.st s 13).qual + Guard.span s 13)).base ∧
      (t.get Cdl.b H.IRQ_RAW).testBit 7 = true) ∧
    (∀ req : Req, Cdl.state s ≠ 6 → s.Quiet → s.Writable req Cdl.p → ∃ t, exec (.cdlLeave req) s = .next t ∧ Cdl.state t = 6 ∧
      t.cdl.isolated = true ∧ (t.get Cdl.b H.IRQ_RAW).testBit 8 = true) ∧
    (Cdl.state s = 2 → ∃ t, exec (.lanesUp .up) s = .next t ∧ Cdl.state t = 3 ∧
      s.RegsOnly t [Cdl.b + 0x044, Cdl.b + 0x014]) ∧
    (∀ step : Int, Cdl.state s = 4 ∨ Cdl.state s = 5 → s.cdl.tracks = false → ∃ t, exec (.dllTrack step) s = .next t ∧
      t.get Cdl.b Cdl.CDL_DLL_CODE = (clampI 0 8191 (s.get (pg 0x009) Clk1.DLL_STAT_CODE + clampI (-1) 1 step)).toNat ∧
      s.RegsOnly t [Cdl.b + 0x054, pg 0x009 + Clk1.DLL_STAT_CODE.off, pg 0x009 + 0x014]) ∧
    (∀ due : BitVec 64, Cdl.state s = 5 → let r := s.runTo due.toNat
      exec (.statusSend due) s = .next (r.modCdl (fun c => { c with blockOut := [0xA3 + 2 ^ 8 * (Cdl.pos s + 8 * 5 + 64 * b2n s.cdl.isolated + 128 * b2n (Cdl.sends r) + 256 * Cdl.ownValid r)] }))) ∧
    (∀ rows : List (List (Int × Int)), Cdl.sends s = true → s.cdl.smpNext = none →
      let n := s.nextSample + (64 - s.gsc s.nextSample % 64) % 64
      ∃ t h, exec (.sampleFrameSend rows) s = .next t ∧ t.base = (s.runToSample (n + 63)).base ∧ t.regs = s.regs ∧ t.mem = s.mem ∧
        t.cdl.blockOut.head? = some h ∧ h = 0xA2 + 2 ^ 8 * (Cdl.pos s + 8 * s.gsc n) ∧ t.cdl.blockOut.length = 33 ∧
        t.cdl.smpNext = some (n + 64))) ∧
  (∀ (pos : Fin 8) (seq : BitVec 8) (turn : BitVec 24) (elapsed : Nat) (st : BitVec 3) (iso sends : Bool) (valid : BitVec 4)
    (gsc : BitVec 48) (data : List (BitVec 8)) (s : State), Cdl.lanes s = true →
    (Cdl.isHerald s = false →
      exec (.statusBlock ⟨pos, true⟩ st iso sends valid) s = .next (s.modCdl (fun c => { c with blockOut := [0xA3 + 2 ^ 8 * (pos.val + 8 * st.toNat + 64 * b2n iso + 128 * b2n sends + 256 * valid.toNat)] })) ∧
      (pos.val ≠ Cdl.pos s + 1 → exec (.pong ⟨pos, true⟩ seq turn elapsed) s = .next (s.modCdl (fun c => { c with blockOut := [0xA4 + 2 ^ 8 * (pos.val + 2 ^ 8 * seq.toNat + 2 ^ 16 * turn.toNat)] }))) ∧
      ∃ t, exec (.sampleFrame ⟨pos, true⟩ gsc data) s = .next t ∧ t.cdl.blockOut.length = 33 ∧
        t.cdl.blockOut.head? = some (0xA2 + 2 ^ 8 * (pos.val + 8 * gsc.toNat)) ∧ t = { s with cdl := t.cdl }) ∧
    ∀ i ∈ [Instr.statusBlock ⟨pos, false⟩ st iso sends valid, .pong ⟨pos, false⟩ seq turn elapsed, .sampleFrame ⟨pos, false⟩ gsc data],
      exec i s = .next (s.count Cdl.b Cdl.BLK_ERR_COUNT))

/-- R157, R159, R165, R167, R169, R175, R177, R178.
The model's choices it rests on: log entries 44 DEDUCED, 45 DEDUCED. -/
def Obligations.HeraldLink : Prop :=
  (∀ (s : State), Cdl.Leads s →
    (∀ (seq : BitVec 8) (turn : BitVec 24) (elapsed : Nat),
      seq.toNat = (s.cdl.pingSeq + 255) % 256 → s.cdl.tracks = false →
      (s.cdl.rttCnt + 1 ≠ 256 → ∃ t, exec (.pong ⟨1, true⟩ seq turn elapsed) s = .next t ∧
        t = s.modCdl (fun c => { c with rttSum := c.rttSum + ((elapsed : Int) - turn.toNat), rttCnt := c.rttCnt + 1,
                                        pingSeq := (c.pingSeq + 1) % 2 ^ 16,
                                        sent := (Cdl.send s 3 1 0 0 s.cdl.pingSeq).cdl.sent })) ∧
      (s.cdl.rttCnt + 1 = 256 → ∃ t x y, exec (.pong ⟨1, true⟩ seq turn elapsed) s = .next t ∧ t.cdl.rttCnt = 0 ∧ t.cdl.tracks = true ∧
        t.get Cdl.b Cdl.CDL_RTT_RTT =
          (roundDiv ((s.cdl.rttSum + ((elapsed : Int) - turn.toNat)) * 3125) (256 * 128)).toNat % 2 ^ 24 ∧
        t.cdl.sent = s.cdl.sent.filter (fun f => decide (s.curSample < f.1 + 128)) ++ [x, y] ∧ x.1 + 128 ≤ y.1 ∧
        (t.get Cdl.b H.IRQ_RAW).testBit 3 = true)) ∧
    (∀ (pos : Fin 8) (st : BitVec 3) (iso sends : Bool) (valid : BitVec 4), st ≠ 0 →
      ∃ t, exec (.statusBlock ⟨pos, true⟩ st iso sends valid) s = .next t ∧
        t.cdl = { s.cdl with members := s.cdl.members.set pos.val ⟨st.toNat, iso, sends, valid.toNat⟩ } ∧
        (st ≠ 5 → t.regs = s.regs) ∧ (st = 5 → (t.get Cdl.b Cdl.CDL_STAT_MEMBERS).testBit pos.val = true) ∧
        s.RegsOnly { t with cdl := s.cdl, arr := s.arr } [Cdl.b + 0x044, Cdl.b + 0x014]) ∧
    (∀ (pos : Fin 8) (gsc : BitVec 48) (data : List (BitVec 8)),
      let due := (gsc.toNat + s.wget Arr.b Arr.ALIGN_DELAY_DELAY) % 2 ^ 48
      (Cdl.passed s due = false → ∃ t, exec (.sampleFrame ⟨pos, true⟩ gsc data) s = .next t ∧
        t.arr.frames.getLast? = some (pos.val, gsc.toNat, (data.map (fun b => b.toNat)).take 256) ∧ t = { s with arr := t.arr }) ∧
      (Cdl.passed s due = true → ∃ t, exec (.sampleFrame ⟨pos, true⟩ gsc data) s = .next t ∧ t.arr = s.arr ∧
        t.get Arr.b Arr.ELEM_LATE_COUNT = min (s.get Arr.b Arr.ELEM_LATE_COUNT + 1) (2 ^ Arr.ELEM_LATE_COUNT.w - 1) ∧
        (t.get Arr.b H.IRQ_RAW).testBit 2 = true)) ∧
    (∀ pos : Fin 8, pos.val ≠ 0 → ∃ t, exec (.memberLost pos) s = .next t ∧
      t.get Cdl.b Cdl.CDL_STAT_MEMBERS = s.get Cdl.b Cdl.CDL_STAT_MEMBERS % 2 ^ pos.val ∧
      t.get Arr.b Arr.ELEM_STAT_PRESENT = s.get Arr.b Arr.ELEM_STAT_PRESENT % 2 ^ (2 * pos.val) ∧
      (t.get Cdl.b H.IRQ_RAW).testBit 2 = true ∧ t.mem = s.mem) ∧
    (∀ at_ : BitVec 64, s.flag Cdl.b Cdl.CDL_CFG_EPOCH_SHARE = true →
      let g := s.gsc (s.sampleAt (at_.toNat + 1))
      (s.now + 20480 ≤ at_.toNat → ∃ t, exec (.epochAnnounce at_) s = .next t ∧ t.cdl.epochs = s.cdl.epochs ++ [(g, some at_.toNat)] ∧
        t.cdl.sent = (Cdl.send s 1 15 0 0 (g + 2 ^ 48 * (s.cdl.epochSeq % 2 ^ 16))).cdl.sent ∧
        s.RegsOnly { t with cdl := s.cdl } [Cdl.b + Cdl.EPOCH_CNT_COUNT.off]) ∧
      (at_.toNat < s.now + 20480 → Cmd.Sets (.epochAnnounce at_) s [Cdl.b + Cdl.EPOCH_LATE_COUNT.off] (fun t =>
        t.get Cdl.b Cdl.EPOCH_LATE_COUNT = min (s.get Cdl.b Cdl.EPOCH_LATE_COUNT + 1) (2 ^ 32 - 1)))) ∧
    (∀ req : Req, s.Quiet → s.Writable req Cdl.p → ∃ t, exec (.align req) s = .next t ∧
      t.get Cdl.b Cdl.CDL_STAT_MEMBERS = 1 ∧ t.cdl.rttCnt = 0 ∧ t.cdl.rttSum = 0 ∧ t.cdl.tracks = false ∧
      t.cdl.sent = (Cdl.send s 3 1 0 0 s.cdl.pingSeq).cdl.sent)) ∧
  (∀ (lanes : BitVec 2) (s : State), Cdl.linked s = true → Cdl.isHerald s = true →
    let old := s.get Cdl.b Cdl.CDL_STAT_LANE_LOCK
    ∃ t, exec (.lanesUp (.down lanes)) s = .next t ∧ t.get Cdl.b Cdl.CDL_STAT_LANE_LOCK = old ||| lanes.toNat ∧
      (old ≠ 3 → old ||| lanes.toNat = 3 → s.cdl.clkOut = true → t.cdl.rttSum = 0 ∧ t.cdl.rttCnt = 0 ∧ t.cdl.tracks = false ∧
        t.cdl.sent = (Cdl.send s 3 1 0 0 s.cdl.pingSeq).cdl.sent) ∧
      t = { s with regs := t.regs, cdl := t.cdl } ∧ ∀ a, a ≠ Cdl.b + 0x044 → t.reg a = s.reg a)

/-- R158, R163, R173, R175, R177.
The model's choices it rests on: log entries 4 DESIGN CHOICE, 44 DEDUCED, 45 DEDUCED. -/
def Obligations.LinkCommandsAndCovariance : Prop :=
  (∀ (req : Req) (s : State), s.Quiet → s.Writable req Cdl.p →
    (s.en Cdl.p = false →
      (Cdl.role s = 1 → ∃ t, exec (.cdlEnable req true) s = .next t ∧ t.en Cdl.p = true ∧ Cdl.state t = 5 ∧
        t.get Cdl.b Cdl.CDL_STAT_MEMBERS = 1 ∧ t.cdl.clkOut = true ∧ t.cdl.isolated = false) ∧
      (Cdl.role s = 2 → ∃ t, exec (.cdlEnable req true) s = .next t ∧ t.en Cdl.p = true ∧ t.get Cdl.b Cdl.CDL_STAT_MEMBERS = 0 ∧
        Cdl.state t = 0)) ∧
    (s.en Cdl.p = true → ∃ t, exec (.cdlEnable req false) s = .next t ∧ t.en Cdl.p = false ∧ Cdl.state t = 0 ∧
      t.get Cdl.b Cdl.CDL_STAT_MEMBERS = 0 ∧ t.cdl.clkOut = s.cdl.clkOut) ∧
    (Cdl.on s = true → s.flag Cdl.b Cdl.MSG_CTL_TX_BUSY = false → Cmd.Sets (.msgSend req) s [Cdl.b + 0x064] (fun t =>
      t.flag Cdl.b Cdl.MSG_CTL_TX_BUSY = true ∧ t.get Cdl.b Cdl.MSG_CTL_DEST = s.get Cdl.b Cdl.MSG_CTL_DEST)) ∧
    Cmd.Sets (.cdlCntClr req) s [Cdl.b + 0x07C, Cdl.b + 0x080, Cdl.b + 0x084, Cdl.b + 0x088] (fun t =>
      t.get Cdl.b Cdl.EPOCH_CNT_COUNT = 0 ∧ t.get Cdl.b Cdl.EPOCH_LATE_COUNT = 0 ∧ t.get Cdl.b Cdl.CRC_ERR_COUNT = 0 ∧
      t.get Cdl.b Cdl.BLK_ERR_COUNT = 0)) ∧
  (∀ (s : State), s.running .arr = true → s.flag Cdl.b Cdl.MSG_CTL_TX_BUSY = true →
    ∃ t, exec .msgTxDone s = .next t ∧ t.flag Cdl.b Cdl.MSG_CTL_TX_BUSY = false ∧ (t.get Cdl.b H.IRQ_RAW).testBit 5 = true ∧
      (Cdl.isHerald s = true → t.cdl = { s.cdl with sent := (Cdl.send s 5 (s.get Cdl.b Cdl.MSG_CTL_DEST) 0 0 (s.get Cdl.b Cdl.MSG_TX_DATA)).cdl.sent }) ∧
      (Cdl.isHerald s = false → t.cdl = { s.cdl with blockOut := [0xA5 + 2 ^ 8 * Cdl.pos s, s.get Cdl.b Cdl.MSG_TX_DATA] }) ∧
      t = { s with regs := t.regs, cdl := t.cdl } ∧ ∀ a, a ≠ Cdl.b + 0x064 → a ≠ Cdl.b + 0x014 → t.reg a = s.reg a) ∧
  (∀ (win : List (List (Int × Int))) (s : State),
    let last := if s.flag Arr.b Arr.COV_STAT_VALID then 1 - s.get Arr.b Arr.COV_STAT_LAST else 0
    let dst := 64 * s.wget Arr.b Arr.COV_DST_ADDR + 0x2C0 * last
    s.Clean → s.wflag Arr.b Arr.COV_CFG_COV_EN = true → s.en Arr.p = true → s.frozen Arr.p = false → Arr.forms s = true →
    inSramArea dst 704 = true →
      ∃ t, exec (.covWindowEnd win) s = .next t ∧ t.byte dst = 0x56 ∧ t.byte (dst + 1) = 0x43 ∧ t.byte (dst + 2) = 0 ∧
        t.byte (dst + 352) = 0x56 ∧ t.byte (dst + 354) = 1 ∧ (∀ a, a < dst ∨ dst + 704 ≤ a → t.byte a = s.byte a) ∧
        t.flag Arr.b Arr.COV_STAT_VALID = true ∧ t.get Arr.b Arr.COV_STAT_LAST = last ∧ t.arr.covSeq = s.arr.covSeq + 1 ∧
        t.arr.covFrom = (s.arr.covFrom + Arr.window s) % 2 ^ 48 ∧ (t.get Arr.b H.IRQ_RAW).testBit 0 = true)

/-- R181, R184 to R188.
The model's choices it rests on: log entries 4 DESIGN CHOICE, 46 DEDUCED, 51 DEDUCED. -/
def Obligations.TimescalesAndLeases : Prop :=
  (∀ (req : Req) (mask : BitVec 4) (s : State), s.Quiet → s.Writable req Time.p →
    ∃ t, exec (.leaseRenew req mask) s = .next t ∧ t.base = s.base ∧ t.ts = s.ts ∧
      (∀ n : Fin 4, mask.getLsbD n.val = true → t.tsState n.val = 1 ∧ (t.tst n.val).renewAt = s.now ∧
        t.get (Ts.b n.val) TsR.PUB_BOUND_BOUND = s.get (Ts.b n.val) TsR.ERR_BOUND_BOUND) ∧
      (∀ n : Fin 4, mask.getLsbD n.val = false → t.tsState n.val = s.tsState n.val ∧ t.tst n.val = s.tst n.val)) ∧
  (∀ (ts : Fin 4) (s : State), s.tsState ts.val = 1 → ∃ t, exec (.leaseExpiry ts) s = .next t ∧ t.tsState ts.val = 2 ∧
    t.base = (s.runTo (Time.expiresAt s ts.val)).base ∧ (t.tst ts.val).holdAt = t.now ∧ (t.tst ts.val).holdMs = 0 ∧
    t.get (Ts.b ts.val) TsR.PUB_BOUND_BOUND = s.get (Ts.b ts.val) TsR.ERR_BOUND_BOUND ∧
    (t.get Time.b H.IRQ_RAW).testBit (8 + ts.val) = true ∧
    ∀ a, a ≠ Ts.b ts.val + 0x038 → a ≠ Ts.b ts.val + 0x03C → a ≠ Time.b + 0x014 → t.reg a = s.reg a) ∧
  (∀ (req : Req) (ts : Fin 4) (len : BitVec 32) (s : State), s.Quiet → s.Writable req Time.p → 10 ≤ len.toNat % 2 ^ 16 →
    len.toNat % 2 ^ 16 ≤ 60000 → ∃ t, exec (.leaseLenWrite req ts len) s = .next t ∧
      t.get (Ts.b ts.val) TsR.LEASE_LEN_LEN = len.toNat % 2 ^ 16 ∧ t.base = s.base ∧
      t.tsState ts.val = if s.tsState ts.val = 1 ∧ (s.tst ts.val).renewAt + len.toNat % 2 ^ 16 * 640000 ≤ s.now then 2
        else s.tsState ts.val) ∧
  (∀ (ts : Fin 4) (s : State), s.tsState ts.val = 2 →
    let due := (s.tst ts.val).holdAt + 640000 * ((s.tst ts.val).holdMs + 1)
    s.now ≤ due → due < 2 ^ 64 → ∃ t, exec (.holdBoundUpdate ts) s = .next t ∧ t.now = due ∧
      (t.tst ts.val).holdMs = (s.tst ts.val).holdMs + 1 ∧
      t.get (Ts.b ts.val) TsR.PUB_BOUND_BOUND = min ((s.tst ts.val).holdBnd +
        s.get (Ts.b ts.val) TsR.HOLD_RATE_RATE * ((s.tst ts.val).holdMs + 1) / 1000000) (2 ^ 32 - 1) ∧
      ∀ a, a ≠ Ts.b ts.val + 0x03C → t.reg a = s.reg a) ∧
  (∀ s : State, ∃ t, exec .secondTick s = .next t ∧ t.secLast = s.secLast + 640000000 ∧
    t.base = (s.runTo (s.secLast + 640000000)).base ∧
    ∀ n : Fin 4, t.get (Ts.b n.val) TsR.INC_ANCHOR_INC = s.get (Ts.b n.val) TsR.INC_NOW_INC) ∧
  (∀ s : State, s.armedAt (pg Time.p + 0x02C) = none → s.armedAt (pg 0x063 + 0x02C) = none → s.updLast + 65536 < s.secLast + 640000000 →
    ∃ t, exec .timeUpdateTick s = .next t ∧ t.updLast = s.updLast + 65536 ∧ t.base = (s.runTo (s.updLast + 65536)).base ∧
      ∀ n : Fin 4, let a := s.get (Ts.b n.val) TsR.INC_ANCHOR_INC
        t.get (Ts.b n.val) TsR.INC_NOW_INC =
          clampN (a - Time.slew s n.val) (a + Time.slew s n.val) (s.tst n.val).target % 2 ^ 64) ∧
  (∀ (req : Req) (s : State), s.Quiet → s.Writable req Time.p → ∃ t, exec (.tcap req) s = .next t ∧
    t.base = s.base + 1 ∧ t.get Time.b TimeP.TCAP_T_T = t.now ∧ t.ts = (s.ticks 1).ts ∧
    ∀ n : Fin 4, let p := (s.ticks 1).present n.val (64 * t.now)
      t.get (Ts.b n.val) TsR.CAP_SEC_SEC = p.1 ∧ t.get (Ts.b n.val) TsR.CAP_NS_NS = p.2.1 ∧ t.get (Ts.b n.val) TsR.CAP_SUBNS_SUBNS = p.2.2) ∧
  (∀ (lost : BitVec 64) (second : Bool) (s : State), s.coast = false → (∀ e : Fin 256, (s.ent e.val).occ = none) →
    ∃ t, exec (.coastEnter lost second) s = .next t ∧ t.coast = true ∧ t.get Time.b TimeP.TIME_STAT_COAST_CAUSE = 1 ∧
      t.get Time.b TimeP.TIME_STAT_COAST_CNT = min (s.get Time.b TimeP.TIME_STAT_COAST_CNT + 1) 65535 ∧
      (t.get Time.b H.IRQ_RAW).testBit 0 = true ∧ t.base = (s.runTo ((lost.toNat / 64 + 1 + b2n second) * 64)).base ∧ t.ents = s.ents) ∧
  (∀ s : State, s.coast = true → s.pwr.asleep = false → s.pllState 0 = 3 → ∃ t, exec .coastExit s = .next t ∧ t.coast = false ∧
    t.get Time.b TimeP.TIME_STAT_COAST_CAUSE = 0 ∧ (t.get Time.b H.IRQ_RAW).testBit 1 = true ∧
    t.base = (s.runTo ((s.now + 63) / 64 * 64)).base ∧ ∀ a, a ≠ Time.b + 0x050 → a ≠ Time.b + 0x014 → t.reg a = s.reg a)

/-- R189, R190, R192, R196, R198, R201, R202, R205.
The model's choices it rests on: log entries 4 DESIGN CHOICE, 49 DEDUCED, 50 DEDUCED, 100 DEDUCED. -/
def Obligations.CalendarFires : Prop :=
  ∀ (e : Fin 256) (o : Occ) (s : State), Cal.Due s e o →
    let u := Cal.occInst s e.val o
    let arg := s.wget (Cal.eb e.val) CalE.E_ARG_ARG
    let pulse (t : State) (p : Nat) : Prop :=
      let st0 := ((u.toNat : Int) + s.getI (Time.b + 8 * p) TimeP.PAD_CTL_DELAY).toNat
      let st := if s.coast then (st0 + 63) / 64 * 64 else st0
      let en := st + 64 * s.get (Time.b + 8 * p) TimeP.PAD_WIDTH_WIDTH
      (64 * t.now < st → ⟨p, st, en⟩ ∈ t.spanQ) ∧
        (st ≤ 64 * t.now → s.padLog = [] → Pad.allowed s p = true → ∃ y ∈ t.spans, y.pad = p ∧ y.from_ ≤ st ∧ en ≤ y.to_)
    (Cal.action s e.val ≠ 1 → Cal.action s e.val ≠ 2 → Cal.action s e.val ≠ 8 → Cal.action s e.val ≠ 9 → Cal.action s e.val ≠ 10 →
      s.isReset (Cal.island (Cal.action s e.val)) = false →
      ∃ t, exec (.occurrenceFire e) s = .next t ∧ Cal.Fired s t e u ∧ (∀ k : Nat, k ≠ e.val → t.ent k = s.ent k) ∧ t.mem = s.mem ∧
        t.spans = s.spans ∧ t.spanQ = s.spanQ ∧ (s.wflag (Cal.eb e.val) CalE.E_CTL_IRQ = true → o.drop = false → (t.get Cal.b H.IRQ_RAW).testBit 0 = true)) ∧
    (Cal.action s e.val = 0 → ∃ t, exec (.calTimer e) s = .next t ∧ Cal.Fired s t e u ∧ (∀ k : Nat, k ≠ e.val → t.ent k = s.ent k)) ∧
    (Cal.action s e.val = 1 → ∃ t, exec (.tpPulse e) s = .next t ∧ Cal.Fired s t e u ∧ pulse t (arg % 4)) ∧
    (Cal.action s e.val = 2 → ∃ t, exec (.cycPulse e) s = .next t ∧ Cal.Fired s t e u ∧ pulse t (4 + arg % 4)) ∧
    (Cal.action s e.val = 8 → s.wflag (Cal.eb e.val) CalE.E_CTL_ROTA = false →
      let m := arg % 4
      let v : Int := (((s.runTo (tickUp u)).tsv m).total : Int) + toSigned 64 (s.tst m).stVal * 2 ^ 32
      (s.flag (Ts.b m) TsR.TS_STAT_STEP_ARMED = true → (s.tst m).stMode = 1 → 0 ≤ v → v < 2 ^ 96 * 1000000000 →
        ∃ t, exec (.stepPermit e) s = .next t ∧ Cal.Fired s t e u ∧ t.tsv m = TsVal.ofTotal v.toNat ∧
          t.flag (Ts.b m) TsR.TS_STAT_STEP_ARMED = false ∧ (t.tst m).stepAt = some t.now ∧
          t.get (Ts.b m) TsR.STEPS_COUNT = min (s.get (Ts.b m) TsR.STEPS_COUNT + 1) (2 ^ 32 - 1) ∧
          (t.get Time.b H.IRQ_RAW).testBit 2 = true) ∧
      (s.flag (Ts.b m) TsR.TS_STAT_STEP_ARMED = false →
        ∃ t, exec (.stepPermit e) s = .next t ∧ Cal.Fired s t e u ∧ t.flag (Cal.eb e.val) CalE.E_STAT_NOOP = true ∧
          (t.get Cal.b H.IRQ_RAW).testBit 4 = true ∧ t.ts = (s.runTo (tickUp u)).ts)) ∧
    (Cal.action s e.val = 9 → s.flag Time.b TimeP.LEAP_CTL_LEAP61 = true → ∃ t, exec (.leapEvent e) s = .next t ∧ Cal.Fired s t e u ∧
      t.get Time.b TimeP.UTC_OFS_OFS = (s.get Time.b TimeP.UTC_OFS_OFS + 1) % 2 ^ 16 ∧
      t.flag Time.b TimeP.LEAP_CTL_LEAP61 = false ∧ (t.get Time.b H.IRQ_RAW).testBit 3 = true) ∧
    (Cal.action s e.val = 10 → inWindow (s.evt (arg % 8)).cur u.toNat = false → ∃ t, exec (.evtWindow e) s = .next t ∧
      Cal.Fired s t e u ∧ (t.evt (arg % 8)).cur = some (u.toNat, u.toNat + 64 * 64 * (arg / 256)) ∧
      (t.evt (arg % 8)).prev = (s.evt (arg % 8)).cur ∧ t.flag (Evt.ib (arg % 8)) EvtI.WIN_STAT_OPEN = true)

/-- R194, R196, R200, R201, R437.
The model's choices it rests on: log entries 4 DESIGN CHOICE, 49 DEDUCED. -/
def Obligations.CalendarCommands : Prop :=
  (∀ (e : Fin 256) (o : Occ) (s : State), (s.ent e.val).occ = some o → o.conv = false →
    let r := s.runTo (tickUp (Cal.instOf s e.val o.k) - 20480)
    let u := Cal.instOf r e.val o.k
    exec (.occurrenceConvert e) s = .next (r.setEnt e.val { s.ent e.val with
      occ := some { o with b := tickUp u, f := ((64 * tickUp u : Nat) - u).toNat, own := tickUp u, conv := true } })) ∧
  (∀ (e : Fin 256) (o : Occ) (s : State), Cal.Due s e o → Cal.other (Cal.action s e.val) = true → o.disp = false →
    let r := s.runTo (tickUp (Cal.occInst s e.val o) - Cal.guard s e.val)
    let gone := s.isReset (Cal.island (Cal.action s e.val))
    ∃ t, exec (.actionDispatch e) s = .next t ∧ t.base = r.base ∧ (t.ent e.val).occ = some { o with disp := true, drop := gone } ∧
      (∀ k, k ≠ e.val → t.ent k = s.ent k) ∧
      (gone = false → t.regs = s.regs ∧
        let fire := tickUp (Cal.occInst r e.val o)
        t.acts = Action.insert ⟨e.val, Cal.action s e.val, s.wget (Cal.eb e.val) CalE.E_ARG_ARG, if o.late then o.own else fire, fire, o.late⟩ s.acts) ∧
      (gone = true → t.flag (Cal.eb e.val) CalE.E_STAT_DROPPED = true ∧ (t.get Cal.b H.IRQ_RAW).testBit 2 = true)) ∧
  (∀ (req : Req) (e : Fin 256) (s : State), s.Quiet → s.Writable req Cal.p → s.armedAt (Cal.key e.val) = none →
    ∃ t, exec (.cancel req e) s = .next t ∧ Cal.state t e.val = 0 ∧ t.get (Cal.eb e.val) CalE.E_STAT_REMAIN = 0 ∧
      (t.ent e.val).occ = none ∧ (∀ k, k ≠ e.val → t.ent k = s.ent k) ∧ t = { s with regs := t.regs, ents := t.ents, resp := t.resp } ∧
      ∀ a, a ≠ Cal.b + 0x040 → a ≠ Cal.eb e.val + 0x01C → t.reg a = s.reg a) ∧
  (∀ (req : Req) (s : State), s.Quiet → s.Writable req Cal.p → ∃ t, exec (.clearAll req) s = .next t ∧
    (∀ e : Fin 256, Cal.state t e.val = 0 ∧ t.armedAt (Cal.key e.val) = none ∧
      (Cal.state s e.val ≠ 0 → (t.ent e.val).occ = none)) ∧ t.mem = s.mem ∧ t.work = s.work) ∧
  (∀ (req : Req) (s : State), s.Quiet → s.Writable req Cal.p → s.flag (pg Cal.p) H.FREEZE = false →
    (∀ (e : Fin 256) (o : Occ), (s.ent e.val).occ = some o →
      64 * ((s.now + Cal.guard s e.val : Nat) : Int) ≤ Cal.occInst s e.val o) →
      Cmd.Sets (.calEnable req) s [pg Cal.p + 0x00C, pg Cal.p + 0x010] (fun t => t.en Cal.p = true ∧
        t.flag (pg Cal.p) H.ENABLED = true))

/-- R202 to R205, R208.
The model's choices it rests on: log entries 4 DESIGN CHOICE, 47 DEDUCED, 48 DEDUCED. -/
def Obligations.PadsAndEvents : Prop :=
  (∀ (pad : Fin 8) (x : Span) (s : State), s.spanQ = [] → x ∈ s.spans → x.pad = pad.val → (∀ y ∈ s.spans, y.pad = pad.val → y = x) →
    64 * s.now < x.to_ → x.to_ + 63 < 2 ^ 70 →
      ∃ t, exec (.pulseEnd pad) s = .next t ∧ t.base = (s.runTo ((x.to_ + 63) / 64)).base ∧ Pad.asserted t pad.val = false ∧ t.regs = s.regs) ∧
  (∀ (req : Req) (pad : Fin 8) (value : BitVec 32) (s : State),
    let f (o w : Nat) : Nat := bitsOf value.toNat o w
    s.Quiet → s.Writable req Time.p → s.spanQ = [] → f 16 12 ≠ 2048 → ∃ t, exec (.padCtlWrite req pad value) s = .next t ∧
      t.get (Time.b + 8 * pad.val) TimeP.PAD_CTL_DRIVE = f 0 1 ∧ t.get (Time.b + 8 * pad.val) TimeP.PAD_CTL_POL = f 1 1 ∧
      t.get (Time.b + 8 * pad.val) TimeP.PAD_CTL_DELAY = f 16 12 ∧ t.base = s.base ∧
      (f 0 1 = 0 → ∀ x ∈ t.spans, x.pad = pad.val → x.to_ ≤ 64 * s.now) ∧
      (∀ x ∈ s.spans, Pad.allowed t x.pad = true → x ∈ t.spans) ∧ ∀ a, a ≠ Time.b + 0x080 + 8 * pad.val → t.reg a = s.reg a) ∧
  (∀ (i : Fin 8) (at_ : BitVec 64) (fine : BitVec 6) (rising : Bool) (s : State),
    let b := Evt.ib i.val
    let w := (((64 * at_.toNat + (if s.coast then 0 else fine.toNat) : Nat) : Int) - s.getI b EvtI.EVT_CFG_DELAY).toNat
    let u := if s.coast then w / 64 * 64 else w
    s.en Evt.p = true → s.flag b EvtI.EVT_CFG_EN = true → (s.get b EvtI.EVT_CFG_EDGE).testBit (if rising then 0 else 1) = true →
    s.pwr.asleep = false →
      (∀ v, (s.evt i.val).last = some v → u < v + 64 * 64 → ∃ t, exec (.eventCapture i at_ fine rising) s = .next t ∧
        t.get b EvtI.LOST_COUNT = min (s.get b EvtI.LOST_COUNT + 1) (2 ^ 32 - 1) ∧ (t.get Evt.b H.IRQ_RAW).testBit 10 = true ∧
        t.evtIn = s.evtIn ∧ t.evtFifo = s.evtFifo ∧ t.evtSeq = s.evtSeq) ∧
      ((s.evt i.val).last = none → s.get b EvtI.EVT_CFG_GATE ≠ 1 → s.evtFifo.length < 64 →
        ∃ t r, exec (.eventCapture i at_ fine rising) s = .next t ∧ (t.evt i.val).last = some u ∧
          t.get b EvtI.LAST_T_T = u / 64 % 2 ^ 64 ∧ t.get b EvtI.LAST_FINE_FINE = u % 64 ∧
          t.get b EvtI.EVT_CNT_CAPTURED = min (s.get b EvtI.EVT_CNT_CAPTURED + 1) (2 ^ 32 - 1) ∧
          (t.get Evt.b H.IRQ_RAW).testBit i.val = true ∧ t.evtFifo = s.evtFifo ++ [r] ∧ r.length = 32 ∧ t.evtSeq = s.evtSeq + 1 ∧
          t.base = (s.runTo (at_.toNat + s.get b EvtI.EVT_CFG_FILTER)).base)) ∧
  (∀ (i : Fin 8) (o c : Nat) (s : State), (s.evt i.val).cur = some (o, c) → s.flag (Evt.ib i.val) EvtI.WIN_STAT_OPEN = true →
    ∃ t, exec (.windowClose i) s = .next t ∧ t.base = (s.runTo ((c + 63) / 64)).base ∧ t.evtIn = s.evtIn ∧
      t.flag (Evt.ib i.val) EvtI.WIN_STAT_OPEN = false ∧ ∀ a, a ≠ Evt.ib i.val + 0x014 → t.reg a = s.reg a) ∧
  (∀ (r : List Nat) (l : List (List Nat)) (s : State),
    let wp := s.get Evt.b EvtP.EVT_WP_WP
    let dst := 64 * s.get Evt.b EvtP.EVT_BASE_BASE + 32 * wp
    s.Clean → s.evtFifo = r :: l → r.length = 32 → s.flag Evt.b EvtP.EVT_CTL_RING_EN = true → s.get Evt.b EvtP.EVT_BASE_BASE ≠ 0 →
    Evt.full s = false → s.running .fabric = true → inSramArea dst 32 = true → s.get Evt.b EvtP.EVT_SLOTS_SLOTS ≠ 0 →
      ∃ t, exec .evtRecordWrite s = .next t ∧ t.evtFifo = l ∧
        t.get Evt.b EvtP.EVT_WP_WP = (wp + 1) % s.get Evt.b EvtP.EVT_SLOTS_SLOTS ∧
        (∀ i (_ : i < 32), t.byte (dst + i) = BitVec.ofNat 8 (r.getD i 0)) ∧
        (∀ a, a < dst ∨ dst + 32 ≤ a → t.byte a = s.byte a) ∧ ∀ a, a ≠ Evt.b + 0x04C → a ≠ Evt.b + 0x014 → t.reg a = s.reg a) ∧
  (∀ (req : Req) (s : State), s.Quiet → s.Writable req Evt.p → ∃ t, exec (.evtFlush req) s = .next t ∧ t.evtFifo = [] ∧
    t.get Evt.b EvtP.EVT_WP_WP = s.get Evt.b EvtP.EVT_RP_RP ∧ t.get Evt.b EvtP.RING_DROP_COUNT = 0 ∧
    (∀ i : Fin 8, t.get (Evt.ib i.val) EvtI.EVT_CNT_CAPTURED = 0 ∧ t.get (Evt.ib i.val) EvtI.LOST_COUNT = 0 ∧
      t.get (Evt.ib i.val) EvtI.OUTSIDE_COUNT = 0) ∧
    t.evtLost = (s.evtLost || s.evtFifo.any (fun r => (r.getD 9 0).testBit 6)) ∧
    t = { s with regs := t.regs, evtFifo := [], evtLost := t.evtLost, resp := t.resp })

/-- R215, R219 to R222, R226.
The model's choices it rests on: log entries 16 PRESUMED, 55 DEDUCED, 57 DEDUCED. -/
def Obligations.PtpMessagesReceived : Prop :=
  ∀ (rx : Rx) (vid member untag o tr d : Nat) (s : State), s.Clean → Net.Shaped s → Net.Taken s rx vid member untag → Net.InSlot s rx o tr d →
    let p := rx.port.val
    let m := (rx.octets.map (·.toNat)).drop o
    let r := s.runTo rx.t.toNat
    let u := Eth.ingress s p rx.t.toNat rx.fine.toNat
    let now := r.tsNs (Ptp.ts s d) u
    let ok : Prop := (if s.net.respSec = r.now / 640000000 then s.net.respCnt else 0) < s.wget Ptp.b PtpP.RESP_MAX_RATE
    let counted (t : State) : Prop := t.base = r.base ∧
      t.get (Eth.b p) Eth.RX_FRAMES_COUNT = min (s.get (Eth.b p) Eth.RX_FRAMES_COUNT + 1) (2 ^ 32 - 1)
    -- the wire is free and no frame waits; the frame that left holds the octets `w` and comes from the port's address
    let idle : Prop := (Eth.egress s p).free ≤ r.now ∧ (Eth.egress s p).next = none
    let sent (t : State) (w : List Nat) : Prop := ∃ h z, t.net.wire[p]? = some (h ++ w ++ z) ∧ z.length ≤ 2 ∧ 14 ≤ h.length ∧
      beAt h 6 6 = s.get (Eth.b p) Eth.MAC_ADDR_MAC
    (Msg.type m = 0 → Ptp.FromMaster s d p m → ∃ t, exec (.sync rx) s = .next t ∧ counted t ∧
      (Msg.twoStep m = true → (Ptp.port t d p).wait = some (Msg.seq m, u, Ptp.stamps r u, Msg.corr m)) ∧
      (Msg.twoStep m = false → (Ptp.port t d p).sync = some (Msg.stamp m + Msg.corr m, now) ∧ (Ptp.port t d p).wait = none)) ∧
    (∀ u0 at_ c, Msg.type m = 8 → Ptp.FromMaster s d p m → (Ptp.port s d p).wait = some (Msg.seq m, u0, at_, c) →
      ∃ t, exec (.followUp rx) s = .next t ∧ counted t ∧ (Ptp.port t d p).wait = none ∧
        (Ptp.port t d p).sync = some (Msg.stamp m + c + Msg.corr m, at_.getD (Ptp.ts s d) 0)) ∧
    (Msg.type m = 1 → Ptp.takes s d p m = true → ok → ∃ t w, exec (.delayReq rx) s = .next t ∧ counted t ∧
      (idle → sent t w) ∧ w.length = 54 ∧ Msg.type w = 9 ∧ Msg.seq w = Msg.seq m ∧ beAt w 44 10 = Msg.portId m ∧
      beAt w 34 6 = (r.present (Ptp.ts s d) u).1 ∧ beAt w 40 4 = (r.present (Ptp.ts s d) u).2.1) ∧
    (Msg.type m = 2 → Ptp.takes s d p m = true → ok → ∃ t w l, exec (.pdelayReq rx) s = .next t ∧ counted t ∧
      (idle → sent t w) ∧ w.length = 54 ∧ Msg.type w = 3 ∧ Msg.reqKey w = Msg.key m ∧
      t.net.pdReq[p]? = some ((Msg.portId m, Msg.seq m, Ptp.stamps r u) :: l)) ∧
    (∀ t1c t2 t3, Msg.type m = 9 → Ptp.FromMaster s d p m → Ptp.p2p s d p = false → (Ptp.port s d p).sync = some (t1c, t2) →
      (Ptp.port s d p).t3 = some (Msg.reqKey m, t3) → s.flag (Ptp.d d) PtpD.PM_STAT_SEEDED = false → (Ptp.slot s d).accept = false →
      ∃ t, exec (.delayResp rx) s = .next t ∧ counted t ∧ (Ptp.port t d p).t3 = none ∧ (Ptp.slot t d).seedN = (Ptp.slot s d).seedN + 1 ∧
        (Ptp.slot t d).seedSum =
          (Ptp.slot s d).seedSum + floorDiv ((t2 - t1c) + (Msg.stamp m - Msg.corr m - t3)) 512) ∧
    (∀ t1, Msg.type m = 3 → Ptp.role s d p ≠ 0 → Ptp.p2p s d p = true → Msg.twoStep m = false → (Ptp.port s d p).pd1 = some (Msg.reqKey m, t1) →
      ∃ t, exec (.pdelayResp rx) s = .next t ∧ counted t ∧ (Ptp.port t d p).pd1 = none ∧
        t.get (Ptp.d d + 4 * p) PtpD.LINK_DELAY_DELAY = ofSigned 32 (floorDiv (now - t1 - Msg.corr m) 512)) ∧
    (∀ k : Fin 8, Msg.type m = 11 → Ptp.role s d p = 2 → Msg.clockId m ≠ 0 → Ptp.succ s d k.val = Msg.clockId m →
      (∀ j < k.val, Ptp.succ s d j ≠ Msg.clockId m) → ∃ t run, exec (.announce rx) s = .next t ∧ counted t ∧
        (Ptp.slot t d).ann[k.val]? = some (some (t.now, run)) ∧ (run = 1 ∨ run = 2))

/-- R209, R211, R213, R214.
The model's choices it rests on: log entries 53 DEDUCED. -/
def Obligations.FramesReceived : Prop :=
  (∀ (rx : Rx) (vid member untag : Nat) (s : State),
    let f := rx.octets.map (·.toNat)
    let g := Sw.egress f (Frame.of f) vid untag 2
    let wp := s.get Sw.b Sw.HRX_WP_WP
    let slot := 64 * s.get Sw.b Sw.HRX_BASE_BASE + 2048 * wp
    s.Clean → Net.Taken s rx vid member untag → (Frame.of f).ptp = none → member.testBit 2 = true → beAt f 0 6 = s.get Sw.b Sw.MAC2_MAC →
    (beAt f 0 6 / 2 ^ 40) % 2 = 0 → s.flag Sw.b Sw.HOST_CTL_HOST_EN = true → Sw.hrxFull s = false → s.get Sw.b Sw.HRX_BASE_BASE ≠ 0 →
    s.get Sw.b Sw.HRX_SLOTS_SLOTS ≠ 0 → inSramArea slot 2048 = true → 0 < g.length → g.length ≤ 2016 →
      ∃ t, exec (.frameReceive rx) s = .next t ∧ t.base = (s.runTo rx.t.toNat).base ∧ t.numAt slot 2 = g.length ∧
        (∀ i (_ : i < g.length), t.byte (slot + 32 + i) = BitVec.ofNat 8 (g.getD i 0)) ∧
        (∀ a, a < slot ∨ slot + 2048 ≤ a → t.byte a = s.byte a) ∧
        t.get Sw.b Sw.HRX_WP_WP = (wp + 1) % s.get Sw.b Sw.HRX_SLOTS_SLOTS ∧ (t.get Sw.b H.IRQ_RAW).testBit 0 = true ∧
        t.net.wire = s.net.wire) ∧
  (∀ (rx : Rx) (i : Instr) (l : List Nat) (s : State), Eth.up s rx.port.val = true → rx.fcsOk = false → rx.octets.length ≤ 1518 →
    (i, l) ∈ [(.frameReceive rx, [4, 5, 6, 7, 12, 13, 14, 15, 16]), (.sync rx, [0]), (.followUp rx, [8]), (.delayReq rx, [1]),
      (.delayResp rx, [9]), (.pdelayReq rx, [2]), (.pdelayResp rx, [3, 10]), (.announce rx, [11])] → Net.typeOf rx ∈ l →
      ∃ t, exec i s = .next t ∧ t.net = s.net ∧ t.mem = s.mem ∧ t.base = (s.runTo rx.t.toNat).base ∧
        t.get (Eth.b rx.port.val) Eth.RX_ERR_COUNT = min (s.get (Eth.b rx.port.val) Eth.RX_ERR_COUNT + 1) (2 ^ 32 - 1) ∧
        (t.get (Eth.b rx.port.val) H.IRQ_RAW).testBit 2 = true ∧
        ∀ a, a ≠ Eth.b rx.port.val + 0x074 → a ≠ Eth.b rx.port.val + 0x014 → t.reg a = s.reg a)

/-- R209, R211, R213, R217, R219, R222, R224.
The model's choices it rests on: log entries 53 DEDUCED, 54 DEDUCED, 56 DEDUCED, 106 DESIGN CHOICE. -/
def Obligations.NetworkCommands : Prop :=
  (∀ (port : Fin 2) (speed : Fin 3) (full master : Bool) (s : State), s.en (0x060 + port.val) = true → s.running .net = true →
    ∃ t, exec (.linkUp port speed full master) s = .next t ∧ t.flag (Eth.b port.val) Eth.ETH_STAT_LINK = true ∧
      t.get (Eth.b port.val) Eth.ETH_STAT_SPEED = (Eth.resolve s port.val speed.val full).1 ∧
      t.flag (Eth.b port.val) Eth.ETH_STAT_FULL = (Eth.resolve s port.val speed.val full).2 ∧
      t.flag (Eth.b port.val) Eth.ETH_STAT_MS = (master && (Eth.resolve s port.val speed.val full).1 == 0) ∧ (t.get (Eth.b port.val) H.IRQ_RAW).testBit 0 = true ∧
      s.RegsOnly t [Eth.b port.val + 0x044, Eth.b port.val + 0x014]) ∧
  (∀ (port : Fin 2) (s : State), Net.Shaped s → s.flag (Eth.b port.val) Eth.ETH_STAT_LINK = true → ∃ t, exec (.linkDown port) s = .next t ∧
      t.flag (Eth.b port.val) Eth.ETH_STAT_LINK = false ∧ (t.get (Eth.b port.val) H.IRQ_RAW).testBit 1 = true ∧
      t.get (Eth.b port.val) Eth.ETH_STAT_DOWNS = min (s.get (Eth.b port.val) Eth.ETH_STAT_DOWNS + 1) 65535 ∧
      Eth.egress t port.val = EgressQ.init ∧ (∀ q : Fin 2, q ≠ port → Eth.egress t q.val = Eth.egress s q.val) ∧
      s.RegsOnly { t with net := s.net } [Eth.b port.val + 0x044, Eth.b port.val + 0x014]) ∧
  (∀ (mac : BitVec 48) (x : Nat × Nat × Nat) (s : State), s.net.learned.find? (fun y => y.1 == mac.toNat) = some x →
    ∃ t, exec (.addressAge mac) s = .next t ∧ t.base = (s.runTo (x.2.2 + 640000000 * s.wget Sw.b Sw.SW_CFG_AGE)).base ∧
      (∀ y, y ∈ t.net.learned ↔ y ∈ s.net.learned ∧ y.1 ≠ mac.toNat) ∧ t.regs = s.regs) ∧
  (∀ (x : Nat × Nat × Int × Nat) (l : List (Nat × Nat × Int × Nat)) (s : State), s.net.tcTab = l ++ [x] →
    ∃ t, exec .tcEntryExpire s = .next t ∧ t.net.tcTab = l ∧ t.base = (s.runTo (x.2.2.2 + 640000000)).base ∧ t.regs = s.regs) ∧
  (∀ (req : Req) (d : Fin 4) (s : State), Net.Shaped s → s.Quiet → s.Writable req 0x063 →
    (s.flag (Ptp.d d.val) PtpD.PM_STAT_FROZEN = true → ∃ t, exec (.accept req d) s = .next t ∧ (Ptp.slot t d.val).accept = true ∧
      (Ptp.slot t d.val).reseed = (Ptp.slot s d.val).reseed ∧ (∀ k : Fin 4, k ≠ d → Ptp.slot t k.val = Ptp.slot s k.val) ∧
      s.RegsOnly { t with net := s.net } [Ptp.d d.val + 0x024]) ∧
    (s.flag (Ptp.d d.val) PtpD.PM_STAT_SEEDED = true → ∃ t, exec (.reseed req d) s = .next t ∧ (Ptp.slot t d.val).reseed = true ∧
      (Ptp.slot t d.val).accept = (Ptp.slot s d.val).accept ∧ (∀ k : Fin 4, k ≠ d → Ptp.slot t k.val = Ptp.slot s k.val) ∧
      s.RegsOnly { t with net := s.net } [Ptp.d d.val + 0x024])) ∧
  (∀ (req : Req) (wp : BitVec 32) (s : State), s.Quiet → s.Writable req 0x062 → wp.toNat % 2 ^ 13 < s.get Sw.b Sw.HTX_SLOTS_SLOTS →
    s.get Sw.b Sw.HTX_BASE_BASE ≠ 0 → Cmd.Sets (.htxWpWrite req wp) s [Sw.b + 0x0B8] (fun t =>
      t.get Sw.b Sw.HTX_WP_WP = wp.toNat % 2 ^ 13)) ∧
  (∀ (launch : BitVec 64) (p : Fin 2) (vid member untag : Nat) (s : State),
    let rp := s.get Sw.b Sw.HTX_RP_RP
    let slot := 64 * s.get Sw.b Sw.HTX_BASE_BASE + 2048 * rp
    let f := s.bytesAt (slot + 32) (s.numAt slot 2)
    s.Clean → Net.Shaped s → s.en 0x062 = true → s.flag Sw.b Sw.HOST_CTL_HOST_EN = true → s.get Sw.b Sw.HTX_BASE_BASE ≠ 0 →
    rp ≠ s.get Sw.b Sw.HTX_WP_WP → s.net.tx = none → inSramArea slot 2048 = true → 14 ≤ s.numAt slot 2 → s.numAt slot 2 ≤ 1518 →
    (s.byte (slot + 2)).toNat = 2 ^ p.val → (s.byte (slot + 3)).toNat = 0 → (Frame.of f).ptp = none → Eth.up s p.val = true →
    Sw.classify s 2 (Frame.of f) = some (vid, member, untag) → member.testBit p.val = true →
      ∃ t, exec (.hostFrameSend launch) s = .next t ∧ t.base = (s.runTo launch.toNat).base ∧
        t.net.tx = some ⟨slot, 1, 0, 0, [p.val], none, []⟩ ∧ t.net.wire = s.net.wire.set p.val (Sw.egress f (Frame.of f) vid untag p.val) ∧
        t.get (Eth.b p.val) Eth.TX_FRAMES_COUNT = min (s.get (Eth.b p.val) Eth.TX_FRAMES_COUNT + 1) (2 ^ 32 - 1) ∧ t.mem = s.mem) ∧
  (∀ (t0 : BitVec 64) (fine : BitVec 6) (x : TxSt) (s : State), s.Clean → s.net.tx = some x → x.egress = none → x.msg = [] →
    inSramArea x.addr 2048 = true → s.get Sw.b Sw.HTX_SLOTS_SLOTS ≠ 0 →
      ∃ t, exec (.hostTxDone t0 fine) s = .next t ∧ t.base = (s.runTo t0.toNat).base ∧ t.net.tx = none ∧
        (t.byte (x.addr + 5)).toNat = x.status % 256 ∧
        t.get Sw.b Sw.HTX_RP_RP = (s.get Sw.b Sw.HTX_RP_RP + 1) % s.get Sw.b Sw.HTX_SLOTS_SLOTS ∧ (t.get Sw.b H.IRQ_RAW).testBit 1 = true ∧
        (∀ p, x.ports.head? = some p → x.flags % 4 ≠ 0 →
          t.numAt (x.addr + 8) 8 = Eth.egressAt s p t0.toNat fine.toNat / 64 % 2 ^ 64 ∧
          (t.byte (x.addr + 16)).toNat = Eth.egressAt s p t0.toNat fine.toNat % 64) ∧
        (∀ a, a ≠ x.addr + 5 → ¬ (x.addr + 8 ≤ a ∧ a ≤ x.addr + 16) → t.byte a = s.byte a))

/-- R235, R236, R238, R239, R249, R250.
The model's choices it rests on: log entries 59 DEDUCED, 60 DEDUCED. -/
def Obligations.RadioCommands : Prop :=
  ∀ (req : Req) (s : State), s.Quiet → s.Writable req Rad.p →
    (s.en Rad.p = false → s.frozen Rad.p = false → Rad.st s = 0 → ∃ t, exec (.radioEnable req true) s = .next t ∧ t.en Rad.p = true ∧
      t.rad.move = some (1, s.now + usTicks 200)) ∧
    (s.en Rad.p = true → s.frozen Rad.p = false → ∃ t, exec (.radioEnable req false) s = .next t ∧ t.en Rad.p = false ∧ Rad.st t = 0 ∧
      t.rad.tx = none ∧ t.rad.rx = none ∧ t.rad.move = none ∧ t.rad.cal = [] ∧ t.rad.win = none) ∧
    (Rad.Rests s →
      let hop := s.wget Rad.b RadP.RX_CFG_RX_HOP
      let us (n : Nat) : Nat := s.now + usTicks n
      (∃ t, exec (.radioSleep req) s = .next t ∧ Rad.st t = Rad.st s ∧
        t.rad.move = if Rad.st s = 1 then none else some (1, us (if Rad.st s = 4 then 15 else 5))) ∧
      (∃ t, exec (.radioIdle req) s = .next t ∧ Rad.st t = Rad.st s ∧
        t.rad.move = if Rad.st s = 2 then none else some (2, us (if Rad.st s = 4 then 10 else 50))) ∧
      (Rad.st s ≠ 4 → ∃ t, exec (.radioRx req) s = .next t ∧ Rad.st t = 3 ∧ t.get Rad.b RadP.RAD_STATE_HOP = hop ∧
        t.rad.search = !Rad.stored s hop ∧
        t.rad.move = some (4, us ((if Rad.st s = 1 then 140 else 90) + (if Rad.stored s hop then 0 else 150)))) ∧
      (∃ t, exec (.radioOff req) s = .next t ∧ t.rad.move = some (0, us 5) ∧ t.rad.tx = none ∧ t.rad.win = none) ∧
      (∃ t, exec (.radioAbort req) s = .next t ∧
        t.rad.move = if Rad.st s = 2 then none else some (2, us (if Rad.st s = 4 then 10 else 50)))) ∧
    (Rad.live s = true → s.rad.cal = [] → s.rad.calQ = [] →
      (Rad.st s = 2 → s.rad.move = none →
        (∃ t, exec (.radioCalDc req) s = .next t ∧ Rad.st t = 6 ∧ t.rad.cal = [(1, s.now + usTicks 40)]) ∧
        (∃ t, exec (.radioCalFilter req) s = .next t ∧ Rad.st t = 6 ∧ t.rad.cal = [(2, s.now + usTicks 100)]) ∧
        (∃ t, exec (.radioCalImage req) s = .next t ∧ Rad.st t = 6 ∧ t.rad.cal = [(3, s.now + usTicks 400)]) ∧
        (∃ t, exec (.radioCalOsc req) s = .next t ∧ Rad.st t = 6 ∧
          t.rad.cal = [(4, s.now + usTicks (150 * (Rad.hops s).length))]) ∧
        (∃ t, exec (.radioCalAll req) s = .next t ∧ Rad.st t = 6 ∧ t.flag Rad.b RadP.CAL_STAT_RUNNING = true ∧
          t.rad.cal = [(1, s.now + usTicks 40), (2, s.now + usTicks 140), (3, s.now + usTicks 540)])) ∧
      (Rad.st s ≠ 2 → ∃ t, exec (.radioCalAll req) s = .next t ∧ Rad.st t = Rad.st s ∧ t.rad.calQ = [1, 2, 3] ∧
        t.flag Rad.b RadP.CAL_STAT_PENDING = true)) ∧
    (∀ (hop : Fin 64) (f : BitVec 32), s.Writable req 0x071 → 863000 ≤ f.toNat → f.toNat ≤ 876000 ∨ 902000 ≤ f.toNat → f.toNat ≤ 928000 →
      Cmd.Sets (.hopWrite req hop f) s [Rad.tb + 8 * hop.val, Rad.tb + 8 * hop.val + 4] (fun t =>
        t.get (Rad.tb + 8 * hop.val) RadT.HOP_FREQ = f.toNat ∧ t.flag (Rad.tb + 8 * hop.val) RadT.HOP_B_BAND_VALID = false))

/-- R236, R237, R241, R243 to R248, R256.
The model's choices it rests on: log entries 4 DESIGN CHOICE, 17 PRESUMED, 58 DEDUCED. -/
def Obligations.RadioTransmits : Prop :=
  (∀ (req : Req) (d : Fin 16) (s : State), s.Quiet → s.Writable req Rad.p →
    (Rad.Rests s → Rad.Sendable s d.val → ∃ t, exec (.radioTxCmd req d) s = .next t ∧ Rad.Accepted s t d.val s.now false) ∧
    (s.frozen Rad.p = false → Rad.st s = 0 → ∃ t, exec (.radioTxCmd req d) s = .next t ∧ t.get Rad.b RadP.TX_STAT_STATUS = 0x19 ∧
      t.get Rad.b RadP.TX_STAT_DESC = d.val ∧ t.rad = s.rad ∧ (t.get Rad.b H.IRQ_RAW).testBit 1 = true ∧
      (t.get Rad.b H.IRQ_RAW).testBit 12 = true)) ∧
  (∀ (x : Action) (fire : BitVec 64) (arg : BitVec 7) (s : State), s.running .radio = true → s.frozen Rad.p = false →
    ((x.fire ≠ fire.toNat ∨ x.arg % 128 ≠ arg.toNat) →
      (s.acts.find? (fun y => y.act == 6 && !y.arg.testBit 7) = some x → exec (.radioTx fire arg) s = .next s) ∧
      (s.acts.find? (fun y => y.act == 6 && y.arg.testBit 7) = some x → exec (.receiveSlot fire arg) s = .next s)) ∧
    (x.fire = fire.toNat → x.arg % 128 = arg.toNat → x.arg % 128 < 16 →
    let r := s.runTo x.fire
    let n := x.arg % 128
    (s.acts.find? (fun y => y.act == 6 && !y.arg.testBit 7) = some x → Rad.Rests s → Rad.Sendable s n →
      s.wflag Rad.b RadP.TX_POL_HOLD_POL = false → ∃ t, exec (.radioTx fire arg) s = .next t ∧ Rad.Accepted s t n r.now true ∧ t.base = r.base ∧
        t.acts = s.acts.erase x) ∧
    (s.acts.find? (fun y => y.act == 6 && y.arg.testBit 7) = some x → Rad.st s ≠ 0 → ∃ t w, exec (.receiveSlot fire arg) s = .next t ∧
      (if Rad.winOpen s then t.rad.winNext = some w ∧ t.rad.win = s.rad.win else t.rad.win = some w) ∧ w.slot = n ∧ w.opened = false ∧
      w.hop = s.get (Rad.tb + 16 * n) RadT.RSD0_HOP ∧
      w.open_ = r.now + usTicks (s.get (Rad.tb + 16 * n) RadT.RSD1_W_OPEN) ∧
      w.close = w.open_ + usTicks (s.get (Rad.tb + 16 * n) RadT.RSD2_W_LEN) ∧ t.regs = s.regs ∧ t.base = r.base ∧
      t.acts = s.acts.erase x))) ∧
  (∀ (locked : Bool) (band : BitVec 6) (to_ due : Nat) (s : State), Rad.live s = true → s.rad.move = some (to_, due) →
    let h := Rad.tb + 8 * s.get Rad.b RadP.RAD_STATE_HOP
    (to_ = 4 ∨ to_ = 5 → locked = true ∨ s.rad.search = true → ∃ t, exec (.synthReady locked band) s = .next t ∧ Rad.st t = to_ ∧
      t.rad.move = none ∧ t.base = (s.runTo (if to_ = 5 then due + usTicks 12 else due)).base ∧
      (s.rad.search = true → t.get h RadT.HOP_B_VCO_BAND = band.toNat ∧ t.flag h RadT.HOP_B_BAND_VALID = true)) ∧
    (to_ = 4 → locked = false → s.rad.search = false → s.rad.tx = none → ∃ t, exec (.synthReady locked band) s = .next t ∧
      t.rad = { s.rad with search := true, move := some (4, due + usTicks 240) } ∧ t.base = (s.runTo due).base)) ∧
  (∀ (x : RadTx) (s : State), Rad.live s = true → s.rad.tx = some x → Rad.st s = 5 → s.rad.win = none → s.rad.endTo = none →
    s.rad.calQ = [] →
    let n := if x.bad then 0 else x.data.length + (if x.fcs2 then 2 else 4)
    let oct := s.wget Rad.b RadP.RAD_CFG_PREAMBLE + 4 + n
    let te := x.first + Rad.bits s (8 * oct)
    (∃ t, exec .txEnd s = .next t ∧ t.rad.tx = none ∧ t.rad.air = (Rad.octets s x).take oct ∧ t.base = (s.runTo (te + usTicks 10)).base ∧
      (x.ret = 2 → t.rad.move = some (2, te + usTicks 10)) ∧ (x.ret = 1 → t.rad.move = some (1, te + usTicks 15)) ∧
      t.get Rad.b RadP.TX_STAT_STATUS = (if x.bad then 0x16 else if x.late then 2 else 1) ∧ t.get Rad.b RadP.TX_STAT_DESC = x.d % 16 ∧
      t.get Rad.b RadP.TX_STAT_COUNT = (s.get Rad.b RadP.TX_STAT_COUNT + 1) % 2 ^ 16 ∧ (t.get Rad.b H.IRQ_RAW).testBit 1 = true ∧
      t.mem = s.mem) ∧
    (∀ t0 : BitVec 64, ∃ t, exec (.txUnderrun t0) s = .next t ∧ t.rad.tx = none ∧ t.get Rad.b RadP.TX_STAT_STATUS = 0x16 ∧
      t.base = (s.runTo t0.toNat).base ∧ (t.get Rad.b H.IRQ_RAW).testBit 1 = true)) ∧
  (∀ (to_ due : Nat) (s : State), s.rad.move = some (to_, due) → to_ ≤ 2 → s.frozen Rad.p = false → s.running .radio = true →
    s.rad.calQ = [] → ∃ t, exec .transitionComplete s = .next t ∧ Rad.st t = to_ ∧ t.rad.move = none ∧ t.base = (s.runTo due).base ∧
      (Rad.st s ≠ to_ → (t.get Rad.b H.IRQ_RAW).testBit 8 = true))

/-- R249, R251, R253, R255 to R257.
The model's choices it rests on: log entries 4 DESIGN CHOICE, 17 PRESUMED, 60 DEDUCED. -/
def Obligations.RadioReceivesAndCalibrates : Prop :=
  (∀ (t0 : BitVec 64) (rssi1 rssi2 : BitVec 16) (s : State), Rad.live s = true → Rad.st s = 4 → s.rad.rx = none →
    s.wflag Rad.b RadP.RAD_CFG_DIV_EN = false →
      ∃ t x, exec (.preambleDetect t0 rssi1 rssi2) s = .next t ∧ t.rad.rx = some x ∧ x.t = none ∧ x.until_ = t.now + Rad.bits s 32 ∧
        t.base = (s.runTo t0.toNat).base ∧ t.get Rad.b RadP.RAD_STATE_AER = 0 ∧ t.get Rad.b RadP.RSSI = rssi1.toNat ∧ t.mem = s.mem) ∧
  (∀ (t0 : BitVec 64) (x : RadRx) (s : State), Rad.live s = true → Rad.st s = 4 → s.rad.rx = some x → x.t = none →
    (s.runTo t0.toNat).now ≤ x.until_ →
      let ts := replica 6 t0.toNat - latTicks (s.get (Rad.b + 4 * s.wget Rad.b RadP.RAD_CFG_RATE) RadP.RX_LAT_NS)
      exec (.sfdDetect t0) s = .next ((s.runTo t0.toNat).modRad (fun r => { r with
        rx := some { x with slot := Rad.slotOf s x ts, t := some ts } }))) ∧
  (∀ (ms fcs2 whiten : Bool) (psdu : List (BitVec 8)) (rssi err : BitVec 16) (ov : Bool) (x : RadRx) (t0 : Nat) (s : State),
    let raw := (psdu.take (psdu.length % 2048)).map (·.toNat)
    let oct := if whiten then Fsk.whiten 0x1FF raw else raw
    let k := if fcs2 then 2 else 4
    let n := psdu.length % 2048
    let wp := s.get Rad.b RadP.RXR_WP_WP
    let a := 64 * s.get Rad.b RadP.RXR_BASE_BASE + 2112 * wp
    let ended (t : State) : Prop := exec (.rxFrame ms fcs2 whiten psdu rssi err ov) s = .next t ∧ t.rad.rx = none ∧
      t.rad.seq = (s.rad.seq + 1) % 2 ^ 16 ∧ t.base = (s.runTo (t0 + Rad.bits s (8 * (2 + n)))).base
    Rad.live s = true → Rad.st s = 4 → s.rad.rx = some x → x.t = some t0 → ms = false → k ≤ n →
      (Fsk.fcs fcs2 (oct.take (n - k)) = oct.drop (n - k) → s.Clean → ov = false → s.wget Rad.b RadP.RX_CFG_RX_GATE ≠ 1 →
        s.flag Rad.b RadP.RX_CTL_RING_EN = true → s.get Rad.b RadP.RXR_BASE_BASE ≠ 0 → s.get Rad.b RadP.RXR_SLOTS_SLOTS ≠ 0 →
        (wp + 1) % s.get Rad.b RadP.RXR_SLOTS_SLOTS ≠ s.get Rad.b RadP.RXR_RP_RP → inSramArea a 2112 = true →
          ∃ t, ended t ∧ t.get Rad.b RadP.RXR_WP_WP = (wp + 1) % s.get Rad.b RadP.RXR_SLOTS_SLOTS ∧ t.numAt a 2 = n ∧
            (∀ i (_ : i < n), t.byte (a + 0x40 + i) = BitVec.ofNat 8 (oct.getD i 0)) ∧
            (∀ y, y < a ∨ a + 0x40 + n ≤ y → t.byte y = s.byte y) ∧ (t.get Rad.b H.IRQ_RAW).testBit 0 = true) ∧
      (Fsk.fcs fcs2 (oct.take (n - k)) ≠ oct.drop (n - k) → s.wflag Rad.b RadP.RX_CFG_KEEP_BAD = false →
        ∃ t, ended t ∧ t.mem = s.mem ∧ t.get Rad.b RadP.RXR_WP_WP = wp ∧
          t.get Rad.b RadP.counters_COUNT = min (s.get Rad.b RadP.counters_COUNT + 1) (2 ^ 32 - 1))) ∧
  (∀ (w : RadWin) (s : State), s.rad.win = some w → s.running .radio = true →
    (w.opened = false → ∃ t, exec .slotWindowOpen s = .next t ∧ t.rad.win = some { w with opened := true } ∧
      t.base = (s.runTo w.open_).base ∧ (Rad.st s = 6 → t.flag Rad.b RadP.RAD_STATE_WIN_LATE = true)) ∧
    (w.opened = true → ∀ n : RadWin, s.rad.winNext = some n → ∃ t, exec .slotWindowOpen s = .next t ∧
      t.rad.win = some { n with opened := true } ∧ t.rad.winNext = none ∧ t.base = (s.runTo n.open_).base) ∧
    (w.opened = true → ∃ t, exec .slotWindowClose s = .next t ∧ t.rad.win = s.rad.winNext ∧ t.base = (s.runTo w.close).base ∧
      (Rad.live s = true → Rad.st s ≠ 0 → Rad.st s ≠ 6 → s.rad.tx.isSome = true → t.rad.endTo = some w.end_))) ∧
  (∀ (k : Nat) (s : State), Rad.live s = true → Rad.st s = 2 → s.rad.move = none → s.rad.calQ = [k] → 1 ≤ k → k ≤ 4 →
      ∃ t, exec .radioCalStart s = .next t ∧ Rad.st t = 6 ∧ t.rad.calQ = [] ∧ t.rad.cal = [(k, s.now + usTicks (Rad.calTime s k))] ∧
        t.base = s.base) ∧
  (∀ (v : BitVec 16) (l : List (Option (BitVec 16))) (bands : List (Option (BitVec 6))) (e : Nat) (s : State), Rad.live s = true →
    Rad.st s = 6 → s.rad.cal = [(1, e)] → s.rad.calQ = [] → s.rad.tx = none → s.rad.win = none → s.rad.back = none →
      ∃ t, exec (.radioCalDone (some v :: l) bands) s = .next t ∧ Rad.st t = 2 ∧ t.rad.cal = [] ∧ t.base = (s.runTo e).base ∧
        t.rad.trims[0]? = some v.toNat ∧ t.flag Rad.b RadP.CAL_STAT_RUNNING = false ∧ (t.get Rad.b H.IRQ_RAW).testBit 9 = true ∧
        t.get Rad.b RadP.CAL_STAT_FAIL = s.get Rad.b RadP.CAL_STAT_FAIL)

/-- R297 to R300, R304, R306, R308.
The model's choices it rests on: log entries 23 DESIGN CHOICE. -/
def Obligations.EncodingRoundTrip : Prop :=
  ∀ (o : Op) (rest : List Nat), o.wf = true → Isa.decode (o.encode ++ rest) = .ok o rest

/-- R276, R277, R279, R303, R304.
The model's choices it rests on: log entries 23 DESIGN CHOICE, 85 DEDUCED. -/
def Obligations.SumsAndCompares : Prop :=
  ∀ (c : Fin 6) (f : Form) (d x : Opd) (t : Option Opd),
    Cpu.Binary (.add c f d x t) c 0x08 f d x t (fun a b r =>
      f.Exact r (fun i => (f.lane a i).toInt + (f.lane b i).toInt) (some (BitVec.uaddOverflow (f.lane a 0) (f.lane b 0)))) ∧
    Cpu.Binary (.sub c f d x t) c 0x09 f d x t (fun a b r =>
      f.Exact r (fun i => (f.lane a i).toInt - (f.lane b i).toInt) (some (BitVec.usubOverflow (f.lane a 0) (f.lane b 0)))) ∧
    Cpu.Gives (.adc c f d x t) c (Op.alu 0x0A f t.isSome (d :: x :: t.toList)) (fun s r =>
      let op := Op.alu 0x0A f t.isSome (d :: x :: t.toList)
      let cy := b2n ((s.core c.val).sr 0)
      f.Exact r (fun _ => (f.lane (Cpu.lhs s c op) 0).toInt + (f.lane (Cpu.rhs s c op) 0).toInt + cy)
        (some (decide (2 ^ f.lw ≤ Cpu.lhs s c op + Cpu.rhs s c op + cy)))) ∧
    Cpu.Gives (.sbc c f d x t) c (Op.alu 0x0B f t.isSome (d :: x :: t.toList)) (fun s r =>
      let op := Op.alu 0x0B f t.isSome (d :: x :: t.toList)
      let cy := b2n ((s.core c.val).sr 0)
      f.Exact r (fun _ => (f.lane (Cpu.lhs s c op) 0).toInt - (f.lane (Cpu.rhs s c op) 0).toInt - cy)
        (some (decide (Cpu.lhs s c op < Cpu.rhs s c op + cy)))) ∧
    Cpu.Unary (.neg c f d x none) c 0x0C f d x (fun a r => f.Exact r (fun i => -(f.lane a i).toInt) (some (a != 0))) ∧
    Cpu.Unary (.abs c f d x none) c 0x0D f d x (fun a r => f.Exact r (fun i => (f.lane a i).toInt.natAbs) none) ∧
    Cpu.Binary (.cmp c f d x none) c 0x0E f d x none (fun a b r =>
      f.Exact r (fun i => (f.lane a i).toInt - (f.lane b i).toInt) (some (BitVec.usubOverflow (f.lane a 0) (f.lane b 0)))) ∧
    Cpu.Binary (.min c f d x t) c 0x0F f d x t (fun a b r =>
      f.Lanewise r (fun i => if (f.lane a i).toInt ≤ (f.lane b i).toInt then f.lane a i else f.lane b i) false none) ∧
    Cpu.Binary (.max c f d x t) c 0x10 f d x t (fun a b r =>
      f.Lanewise r (fun i => if (f.lane a i).toInt ≤ (f.lane b i).toInt then f.lane b i else f.lane a i) false none) ∧
    Cpu.Binary (.minu c f d x t) c 0x11 f d x t (fun a b r =>
      f.Lanewise r (fun i => if (f.lane a i).toNat ≤ (f.lane b i).toNat then f.lane a i else f.lane b i) false none) ∧
    Cpu.Binary (.maxu c f d x t) c 0x12 f d x t (fun a b r =>
      f.Lanewise r (fun i => if (f.lane a i).toNat ≤ (f.lane b i).toNat then f.lane b i else f.lane a i) false none)

/-- R276, R277, R303, R304.
The model's choices it rests on: log entries 23 DESIGN CHOICE, 83 DEDUCED, 85 DEDUCED. -/
def Obligations.ProductsAndQuotients : Prop :=
  (∀ (c : Fin 6) (f : Form) (d x : Opd) (t : Option Opd),
    Cpu.Binary (.mul c f d x t) c 0x14 f d x t (fun a b r =>
      f.Exact r (fun _ => (f.lane a 0).toInt * (f.lane b 0).toInt) none) ∧
    Cpu.Binary (.mulh c f d x t) c 0x15 f d x t (fun a b r =>
      f.Lanewise r (fun _ => BitVec.ofInt f.lw ((f.lane a 0).toInt * (f.lane b 0).toInt / 2 ^ f.lw)) false none) ∧
    Cpu.Binary (.mulhu c f d x t) c 0x16 f d x t (fun a b r =>
      f.Lanewise r (fun _ => BitVec.ofNat f.lw (a * b / 2 ^ f.lw)) false none)) ∧
  (∀ (c : Fin 6) (f : Form) (d x : Opd) (t : Option Opd) (s : State),
    let op (n : Nat) := Op.alu n f t.isSome (d :: x :: t.toList)
    let gives (i : Instr) (n : Nat) (P : BitVec f.lw → BitVec f.lw → Alu → Prop) (q0 : Nat) : Prop :=
      Cpu.Performs s c (op n) →
      let a := Cpu.lhs s c (op n)
      let b := Cpu.rhs s c (op n)
      (b ≠ 0 → ∃ r, P (f.lane a 0) (f.lane b 0) r ∧ exec i s = .next (Cpu.done s c (op n) r)) ∧
      (b = 0 → (s.core c.val).sr 18 = false → exec i s = .next (Cpu.done s c (op n)
        { v := q0 * a, z := some (q0 * a == 0), n := some (signBit f.lw (q0 * a)), dz := true })) ∧
      (b = 0 → (s.core c.val).sr 18 = true → (s.core c.val).sr 9 = false →
        exec i s = .next (Cpu.trapped s c (Exc.plain 0x10 0) (2 ^ 5)))
    gives (.div c f d x t) 0x17 (fun a b r => f.Exact r (fun _ => a.toInt.tdiv b.toInt) none) 0 ∧
    gives (.divu c f d x t) 0x18 (fun a b r => f.Lanewise r (fun _ => a / b) false none) 0 ∧
    gives (.rem c f d x t) 0x19 (fun a b r =>
      f.Lanewise r (fun _ => BitVec.ofInt f.lw (a.toInt.tmod b.toInt)) (a.toInt == f.least && b.toInt == -1) none) 1 ∧
    gives (.remu c f d x t) 0x1A (fun a b r => f.Lanewise r (fun _ => a % b) false none) 1)

/-- R276, R278, R279, R303, R304; C of a rotate by 0 is free (DESIGN CHOICE, log entry 1).
The model's choices it rests on: log entries 1 DESIGN CHOICE, 23 DESIGN CHOICE, 84 (C of SHL.S) DEDUCED, 85 DEDUCED. -/
def Obligations.LogicBitsAndShifts : Prop :=
  (∀ (c : Fin 6) (f : Form) (d x : Opd) (t : Option Opd),
    Cpu.Binary (.and c f d x t) c 0x20 f d x t (fun a b r => f.Lanewise r (fun i => f.lane a i &&& f.lane b i) false none) ∧
    Cpu.Binary (.or c f d x t) c 0x21 f d x t (fun a b r => f.Lanewise r (fun i => f.lane a i ||| f.lane b i) false none) ∧
    Cpu.Binary (.xor c f d x t) c 0x22 f d x t (fun a b r => f.Lanewise r (fun i => f.lane a i ^^^ f.lane b i) false none) ∧
    Cpu.Unary (.not c f d x none) c 0x23 f d x (fun a r => f.Lanewise r (fun i => ~~~(f.lane a i)) false none) ∧
    Cpu.Binary (.tst c f d x none) c 0x24 f d x none (fun a b r =>
      f.Lanewise r (fun i => f.lane a i &&& f.lane b i) false none)) ∧
  (∀ (c : Fin 6) (f : Form) (d x : Opd) (t : Option Opd),
    let bit (a b : Nat) (r : Alu) (g : Bool → Bool) : Prop :=
      r = { v := r.v, z := some (!a.testBit (b % f.lw)) } ∧ r.v < 2 ^ f.lw ∧
        ∀ i < f.lw, r.v.testBit i = if i = b % f.lw then g (a.testBit i) else a.testBit i
    Cpu.Binary (.btst c f d x none) c 0x25 f d x none (fun a b r => bit a b r id) ∧
    Cpu.Binary (.bset c f d x t) c 0x26 f d x t (fun a b r => bit a b r (fun _ => true)) ∧
    Cpu.Binary (.bclr c f d x t) c 0x27 f d x t (fun a b r => bit a b r (fun _ => false)) ∧
    Cpu.Binary (.binv c f d x t) c 0x28 f d x t (fun a b r => bit a b r not) ∧
    Cpu.Unary (.clz c f d x none) c 0x29 f d x (fun a r =>
      r = { v := r.v, z := some (r.v == 0), n := some false, o := some false } ∧ r.v ≤ f.lw ∧ a < 2 ^ (f.lw - r.v) ∧
        (r.v < f.lw → 2 ^ (f.lw - r.v - 1) ≤ a)) ∧
    Cpu.Unary (.popc c f d x none) c 0x2A f d x (fun a r =>
      r = { v := r.v, z := some (r.v == 0), n := some false, o := some false } ∧
        r.v = ((List.range f.lw).filter (fun i => a.testBit i)).length)) ∧
  (∀ (c : Fin 6) (f : Form) (d x : Opd) (t : Option Opd),
    Cpu.Binary (.shl c f d x t) c 0x30 f d x t (fun a b r =>
      f.Exact r (fun i => (f.lane a i).toInt * 2 ^ (b % 256)) (some (b % 256 != 0 && decide (b % 256 ≤ f.lw) && a.testBit (f.lw - b % 256)))) ∧
    Cpu.Binary (.shr c f d x t) c 0x31 f d x t (fun a b r =>
      f.Lanewise r (fun i => f.lane a i >>> (b % 256)) false
        (some (b % 256 != 0 && decide (b % 256 ≤ f.lw) && a.testBit (b % 256 - 1)))) ∧
    Cpu.Binary (.sar c f d x t) c 0x32 f d x t (fun a b r =>
      f.Lanewise r (fun i => (f.lane a i).sshiftRight (b % 256)) false
        (some (b % 256 != 0 && a.testBit (min (b % 256 - 1) (f.lw - 1)))))) ∧
  (∀ (c : Fin 6) (f : Form) (d x : Opd) (t : Option Opd) (s : State),
    let rol := Op.alu 0x33 f t.isSome (d :: x :: t.toList)
    let ror := Op.alu 0x34 f t.isSome (d :: x :: t.toList)
    (Cpu.Performs s c rol → ∃ r cy, exec (.rol c f d x t) s = .next (Cpu.done (s.draw 2).2 c rol r) ∧
      f.Lanewise r (fun i => (f.lane (Cpu.lhs s c rol) i).rotateLeft (Cpu.rhs s c rol % 256)) false (some cy) ∧
      (Cpu.rhs s c rol % 256 ≠ 0 → cy = r.v.testBit 0)) ∧
    (Cpu.Performs s c ror → ∃ r cy, exec (.ror c f d x t) s = .next (Cpu.done (s.draw 2).2 c ror r) ∧
      f.Lanewise r (fun i => (f.lane (Cpu.lhs s c ror) i).rotateRight (Cpu.rhs s c ror % 256)) false (some cy) ∧
      (Cpu.rhs s c ror % 256 ≠ 0 → cy = r.v.testBit (f.lw - 1))))

/-- R281, R282, R303 to R305.
The model's choices it rests on: log entries 21 PRESUMED, 23 DESIGN CHOICE, 89 DEDUCED. -/
def Obligations.FloatingPoint : Prop :=
  (∀ (c : Fin 6) (f : Form) (d x : Opd) (t : Option Opd) (s : State),
    let k := s.core c.val
    let g := Fmt.of f.sz.toNat
    let rm := bitsOf (k.crN 0) 16 2
    let gives (i : Instr) (op : Op) (r : Alu) : Prop := Cpu.Performs s c op →
      (bitsOf (k.crN 0) 25 5 = 0 → exec i s = .next (Cpu.done s c op r)) ∧
      (r.ff &&& bitsOf (k.crN 0) 25 5 = 0 → exec i s = .next (Cpu.done s c op r)) ∧
      (r.ff &&& bitsOf (k.crN 0) 25 5 ≠ 0 → k.sr 9 = false →
        exec i s = .next (Cpu.trapped s c ⟨0x11, (r.ff &&& bitsOf (k.crN 0) 25 5) * 2 ^ 8, 0⟩ (r.ff * 2 ^ 20)))
    let bin (n : Nat) := Op.alu n f t.isSome (d :: x :: t.toList)
    let una (n : Nat) := Op.alu n f false [d, x]
    gives (.fadd c f d x t) (bin 0x38) (Fp.add g rm (Cpu.lhs s c (bin 0x38)) (Cpu.rhs s c (bin 0x38))).alu ∧
    gives (.fsub c f d x t) (bin 0x39) (Fp.sub g rm (Cpu.lhs s c (bin 0x39)) (Cpu.rhs s c (bin 0x39))).alu ∧
    gives (.fmul c f d x t) (bin 0x3A) (Fp.mul g rm (Cpu.lhs s c (bin 0x3A)) (Cpu.rhs s c (bin 0x3A))).alu ∧
    gives (.fdiv c f d x t) (bin 0x3B) (Fp.div g rm (Cpu.lhs s c (bin 0x3B)) (Cpu.rhs s c (bin 0x3B))).alu ∧
    gives (.fsqrt c f d x none) (una 0x3C) (Fp.sqrt g rm (Cpu.val s c (una 0x3C) 1)).alu ∧
    gives (.fma c f d x t) (bin 0x3D)
      (Fp.fma g rm (Cpu.val s c (bin 0x3D) 0) (Cpu.val s c (bin 0x3D) 1) (Cpu.val s c (bin 0x3D) 2)).alu ∧
    gives (.fcmp c f d x none) (una 0x3E) (Fp.cmp g (f.x == 1) (Cpu.val s c (una 0x3E) 0) (Cpu.val s c (una 0x3E) 1)) ∧
    gives (.fmin c f d x t) (bin 0x3F) (Fp.pick g true (Cpu.lhs s c (bin 0x3F)) (Cpu.rhs s c (bin 0x3F))).alu ∧
    gives (.fmax c f d x t) (bin 0x40) (Fp.pick g false (Cpu.lhs s c (bin 0x40)) (Cpu.rhs s c (bin 0x40))).alu ∧
    gives (.fabs c f d x none) (una 0x41) (Fp.sgn g false (Cpu.val s c (una 0x41) 1)).alu ∧
    gives (.fneg c f d x none) (una 0x42) (Fp.sgn g true (Cpu.val s c (una 0x42) 1)).alu ∧
    gives (.cvt c f d x none) (una 0x43) ((Cpu.input k (una 0x43) 0 (Cpu.vals s c (una 0x43))).cvt true) ∧
    gives (.cvtu c f d x none) (una 0x44) ((Cpu.input k (una 0x44) 0 (Cpu.vals s c (una 0x44))).cvt false)) ∧
  (∀ (z rm a b d : Nat), z = 4 ∨ z = 5 →
    let g := Fmt.of z
    let nan (v : Nat) := (g.unpack v).isNan
    let sig (l : List Nat) := if l.any (fun v => (g.unpack v).isSig) then 1 else 0
    (nan a = true → Fp.add g rm a b = ⟨a ||| 2 ^ (g.p - 2), sig [a, b]⟩ ∧ Fp.sub g rm a b = ⟨a ||| 2 ^ (g.p - 2), sig [a, b]⟩ ∧
      Fp.mul g rm a b = ⟨a ||| 2 ^ (g.p - 2), sig [a, b]⟩ ∧ Fp.div g rm a b = ⟨a ||| 2 ^ (g.p - 2), sig [a, b]⟩ ∧
      Fp.sqrt g rm a = ⟨a ||| 2 ^ (g.p - 2), sig [a]⟩ ∧ Fp.pick g true a b = ⟨a ||| 2 ^ (g.p - 2), sig [a, b]⟩ ∧
      ∀ w lo hi, Fp.toInt g rm w lo hi a = ⟨0, 1⟩) ∧
    (nan d = false → nan a = false → nan b = true → Fp.fma g rm d a b = ⟨b ||| 2 ^ (g.p - 2), sig [d, a, b]⟩) ∧
    (a < 2 ^ (g.p + g.e) → nan a = false → Fp.sgn g false a = ⟨a % 2 ^ (g.p + g.e - 1), 0⟩ ∧
      Fp.sgn g true a = ⟨(a + 2 ^ (g.p + g.e - 1)) % 2 ^ (g.p + g.e), 0⟩))

/-- R273, R300, R303, R304.
The model's choices it rests on: log entries 22 DEDUCED, 23 DESIGN CHOICE, 82 DEDUCED. -/
def Obligations.MovesAndExchanges : Prop :=
  (∀ (c : Fin 6) (f : Form) (d x : Opd),
    Cpu.Unary (.mov c f d x none) c 0x01 f d x (fun a r => r = { v := a }) ∧
    Cpu.Unary (.movsx c f d x none) c 0x02 f d x (fun a r => r = { v := ((f.lane a 0).signExtend 64).toNat }) ∧
    Cpu.Unary (.movzx c f d x none) c 0x03 f d x (fun a r => r = { v := a }) ∧
    Cpu.Unary (.lea c f d x none) c 0x04 f d x (fun a r => r = { v := a })) ∧
  (∀ (c : Fin 6) (s : State), Cpu.Performs s c (Op.alu 0x00 ⟨0, false, 0⟩ false []) →
    exec (.nop c) s = .next (Cpu.retired s c ((s.core c.val).after 2))) ∧
  (∀ (c : Fin 6) (f : Form) (d x : Opd) (s : State) (m : Nat) (y : Arg),
    let op := Op.alu 0x05 f false [d, x]
    let h := Cpu.home c.val m
    let n := Isa.bytes f.sz.toNat
    Cpu.Performs s c op → Cpu.args s c op = [⟨.atom, f.sz.toNat, .mem m⟩, y] →
      exec (.swap c f d x none) s = .next (Cpu.past s
        (Arg.put ((((s.setCore c.val (Cpu.updated s c op)).invalidate none h n).store none h (leBytes n (Cpu.val s c op 1)))) c y
          (s.numAt h n)) c op)) ∧
  (∀ (c : Fin 6) (f : Form) (d x t : Opd) (s : State) (m : Nat) (y z : Arg),
    let op := Op.alu 0x06 f true [d, x, t]
    let h := Cpu.home c.val m
    let n := Isa.bytes f.sz.toNat
    let u := (s.setCore c.val (Cpu.updated s c op)).invalidate none h n
    let flag (w : State) (b : Bool) := w.modCore c.val (fun k => k.setCr 0 (putBits (k.crN 0) 1 1 (b2n b)))
    Cpu.Performs s c op → Cpu.args s c op = [⟨.atom, f.sz.toNat, .mem m⟩, y, z] →
      (s.numAt h n = Cpu.val s c op 1 →
        exec (.cas c f d x (some t)) s = .next (Cpu.past s (flag (u.store none h (leBytes n (Cpu.val s c op 2))) true) c op)) ∧
      (s.numAt h n ≠ Cpu.val s c op 1 →
        exec (.cas c f d x (some t)) s = .next (Cpu.past s (flag (Arg.put u c y (s.numAt h n)) false) c op)))

/-- R283, R284, R300 to R303.
The model's choices it rests on: log entries 23 DESIGN CHOICE, 82 DEDUCED, 83 DEDUCED. -/
def Obligations.AddressingModes : Prop :=
  (∀ (c : Fin 6) (d r m : BitVec 4) (b : BitVec 3) (k : BitVec 2) (src : Opd) (s : State),
    let f : Form := ⟨2, false, 0⟩
    let op := Op.alu 0x01 f false [.reg d, src]
    let g := s.core c.val
    let A (i : BitVec 4) := g.aN i.toNat
    let lands (v : Nat) (k' : CoreSt) : Prop := Cpu.Performs s c op →
      exec (.mov c f (.reg d) src none) s = .next (Cpu.past s ((s.setCore c.val (k'.setA d.toNat v)).modCore c.val
        (fun k => k.setCr 0 (k.crN 0))) c op)
    let mem (a : Nat) := s.numAt (Cpu.home c.val a) 4
    (∀ v : BitVec 64, src = .imm v → lands (v.toNat % 2 ^ 32) g) ∧
    (∀ v : BitVec 12, src = .short v → lands (v.signExtend 32).toNat g) ∧
    (src = .reg r → lands (A r) g) ∧
    (src = .buf b → lands (g.bufN b.toNat) g) ∧
    (∀ a : BitVec 32, src = .abs a → lands (mem a.toNat) g) ∧
    (∀ x : BitVec 8, src = .disp r x → lands (mem (BitVec.ofInt 32 (A r + 4 * x.toInt)).toNat) g) ∧
    (∀ x : BitVec 32, src = .long r x → lands (mem (BitVec.ofInt 32 (A r + x.toInt)).toNat) g) ∧
    (∀ sc : BitVec 2, src = .idx r m sc → lands (mem (BitVec.ofNat 32 (A r + A m * 2 ^ sc.toNat)).toNat) g) ∧
    (∀ x : BitVec 8, src = .post r x → lands (mem (A r)) (g.setA r.toNat (BitVec.ofInt 32 (A r + 4 * x.toInt)).toNat)) ∧
    (src = .pre r → let v := (BitVec.ofInt 32 ((A r : Int) - 4)).toNat; lands (mem v) (g.setA r.toNat v)) ∧
    (∀ x : BitVec 6, src = .modulo r k x →
      let base := g.bufN k.toNat
      let l := g.bufN (4 + k.toNat)
      let st := 4 * x.toInt
      lands (mem (A r)) (g.setA r.toNat (if l = 0 then (BitVec.ofInt 32 (A r + st)).toNat else
        (BitVec.ofInt 32 (base + ((BitVec.ofInt 32 ((A r : Int) - base)).toNat + st) % (l : Int))).toNat))) ∧
    (∀ n : BitVec 5, src = .rev r k n → 1 ≤ n.toNat ∧ n.toNat ≤ 24 →
      let base := g.bufN k.toNat
      let o := (BitVec.ofInt 32 ((A r : Int) - base)).toNat / 4 % 2 ^ n.toNat
      let rev (v : Nat) := ((BitVec.ofNat n.toNat v).reverse).toNat
      lands (mem (A r)) (g.setA r.toNat (BitVec.ofNat 32 (base + rev ((rev o + 1) % 2 ^ n.toNat) * 4)).toNat))) ∧
  (∀ (c : Fin 6) (v : BitVec 64) (s : State),
    let f : Form := ⟨2, false, 0⟩
    let op := Op.alu 0x01 f false [.reg 15, .imm v]
    let k := s.core c.val
    Cpu.Ready s c op → v.toNat < k.crN 7 → v.toNat < 2 ^ 32 → k.sr 9 = false →
      exec (.mov c f (.reg 15) (.imm v) none) s = .next (Cpu.trapped s c (Exc.plain 0x12 v.toNat) 0))

/-- R280, R303, R308.
The model's choices it rests on: log entries 23 DESIGN CHOICE. -/
def Obligations.Accumulators : Prop :=
  (∀ (c : Fin 6) (f : Form) (x y : Opd) (s : State),
    let op (n : Nat) := Op.alu n f false [x, y]
    let gives (i : Instr) (n : Nat) (p : Nat → Nat → Int) : Prop := Cpu.Performs s c (op n) →
      let k := Cpu.updated s c (op n)
      let e := k.acc f.x.toNat + p (Cpu.val s c (op n) 0) (Cpu.val s c (op n) 1)
      let r : Alu := { v := 0, o := some (decide (e < -(2 ^ 79) ∨ 2 ^ 79 ≤ e)) }
      exec i s = .next (Cpu.past s (s.setCore c.val ((k.setAcc f.x.toNat e).setCr 0 (r.flags (k.crN 0)))) c (op n))
    let cplx (i : Instr) (n : Nat) (sg : Int) : Prop := Cpu.Performs s c (op n) →
      let k := Cpu.updated s c (op n)
      let h (j lo : Nat) : Int := (BitVec.ofNat 16 (Cpu.val s c (op n) j / 2 ^ lo)).toInt
      let e0 := k.acc0.toInt + h 0 0 * h 1 0 - sg * (h 0 16 * h 1 16)
      let e1 := k.acc1.toInt + sg * (h 0 0 * h 1 16) + h 0 16 * h 1 0
      let r : Alu := { v := 0, o := some (decide ((e0 < -(2 ^ 79) ∨ 2 ^ 79 ≤ e0) ∨ (e1 < -(2 ^ 79) ∨ 2 ^ 79 ≤ e1))) }
      exec i s = .next (Cpu.past s (s.setCore c.val (({ k with acc0 := BitVec.ofInt 80 e0, acc1 := BitVec.ofInt 80 e1 }).setCr 0
        (r.flags (k.crN 0)))) c (op n))
    gives (.mac c f x y) 0x48 (fun a b => (f.lane a 0).toInt * (f.lane b 0).toInt) ∧
    gives (.msu c f x y) 0x49 (fun a b => -((f.lane a 0).toInt * (f.lane b 0).toInt)) ∧
    gives (.macu c f x y) 0x4A (fun a b => (a * b : Nat)) ∧
    gives (.dot4 c f x y) 0x4D (fun a b => (f.lane a 0).toInt * (f.lane b 0).toInt + (f.lane a 1).toInt * (f.lane b 1).toInt +
      (f.lane a 2).toInt * (f.lane b 2).toInt + (f.lane a 3).toInt * (f.lane b 3).toInt) ∧
    cplx (.cmac c f x y) 0x4B 1 ∧ cplx (.cmacj c f x y) 0x4C (-1)) ∧
  (∀ (c : Fin 6) (f : Form) (x : Opd) (s : State),
    let op (n : Nat) (l : List Opd) := Op.alu n f false l
    let loads (i : Instr) (o : Op) (v : Int) : Prop := Cpu.Performs s c o →
      exec i s = .next (Cpu.past s (s.setCore c.val ((Cpu.updated s c o).setAcc f.x.toNat v)) c o)
    loads (.aclr c f) (op 0x4E []) 0 ∧
    loads (.ald c f x) (op 0x4F [x]) (f.lane (Cpu.val s c (op 0x4F [x]) 0) 0).toInt ∧
    loads (.arstr c f x) (op 0x52 [x]) (BitVec.ofNat 80 (Cpu.val s c (op 0x52 [x]) 0)).toInt ∧
    (Cpu.Performs s c (op 0x51 [x]) → exec (.asave c f x) s =
      .next (Cpu.past s (Cpu.wrote s c (op 0x51 [x]) ((s.core c.val).acc f.x.toNat % 2 ^ 80).toNat) c (op 0x51 [x])))) ∧
  (∀ (c : Fin 6) (f : Form) (d x : Opd),
    Cpu.Gives (.aext c f d x) c (Op.alu 0x50 f false [d, x]) (fun s r =>
      let sh := Cpu.val s c (Op.alu 0x50 f false [d, x]) 1 % 256
      let a := (s.core c.val).acc f.x.toNat
      let e : Int := if 80 ≤ sh then 0 else (2 * a + 2 ^ sh) / 2 ^ (sh + 1)
      f.Lanewise r (fun _ => BitVec.ofInt f.lw (max f.least (min (f.top - 1) e))) (decide (e < f.least ∨ f.top ≤ e)) none))

/-- R300, R303, R306, R307, R309, R310.
The model's choices it rests on: log entries 23 DESIGN CHOICE, 83 DEDUCED, 90 DEDUCED. -/
def Obligations.ControlTransfers : Prop :=
  (∀ (c : Fin 6) (cond : BitVec 4) (d : BitVec 16) (l : BitVec 32) (s : State),
    let k := s.core c.val
    let goes (op : Op) (i : Instr) (e : Int) : Prop := Cpu.Performs s c op →
      (condHolds cond.toNat (k.crN 0) = false → exec i s = .next (Cpu.retired s c (k.after (2 * op.len)))) ∧
      (condHolds cond.toNat (k.crN 0) = true → e % 2 = 0 →
        exec i s = .next (Cpu.retired s c { k with pc := BitVec.ofInt 32 (Cpu.next s c op + e) }))
    goes (Op.ctl 0x80 (16 * cond.toNat) [] d.toNat) (.bcc c cond d) (2 * d.toInt) ∧
    goes (Op.ctl 0x81 (16 * cond.toNat) [] l.toNat) (.bccl c cond l) l.toInt) ∧
  (∀ (sr : Nat), let C := sr.testBit 0; let Z := sr.testBit 1; let N := sr.testBit 2; let V := sr.testBit 3
    (List.range 16).map (fun n => condHolds n sr) =
      [Z, !Z, C, !C, N, !N, V, !V, !C && !Z, C || Z, N == V, N != V, !Z && N == V, Z || N != V, true, Z || N]) ∧
  (∀ (c : Fin 6) (l : BitVec 32) (x : Opd) (s : State),
    let pushes (i : Instr) (op : Op) (k : CoreSt) (target : Nat) : Prop :=
      let sp := (BitVec.ofInt 32 ((k.aN 15 : Int) - 4)).toNat
      Cpu.Performs s c op → target % 2 = 0 → sp % 4 = 0 → sp + 4 ≤ 0x40000 → Cpu.watched s c.val sp 4 true true = false →
        exec i s = .next (Cpu.retired (s.store (some c.val) (Cpu.home c.val sp) (leBytes 4 (Cpu.next s c op))) c
          { k.setA 15 sp with pc := BitVec.ofNat 32 target })
    let call := Op.ctl 0x82 0 [] l.toNat
    let jsr := Op.ctl 0x84 0 [x] 0
    let jmp := Op.ctl 0x83 0 [x] 0
    pushes (.call c l) call (s.core c.val) (BitVec.ofInt 32 (Cpu.next s c call + l.toInt)).toNat ∧
    pushes (.jsr c x) jsr (Cpu.updated s c jsr) (Cpu.val s c jsr 0) ∧
    (Cpu.Performs s c jmp → Cpu.val s c jmp 0 % 2 = 0 → exec (.jmp c x) s =
      .next (Cpu.retired s c { Cpu.updated s c jmp with pc := BitVec.ofNat 32 (Cpu.val s c jmp 0) }))) ∧
  (∀ (c : Fin 6) (s : State),
    let k := s.core c.val
    let sp := k.aN 15
    let t := s.numAt (Cpu.home c.val sp) 4
    Cpu.Performs s c (Op.ctl 0x85 0 [] 0) → sp % 4 = 0 → sp + 4 ≤ 0x40000 → Cpu.watched s c.val sp 4 true true = false → t % 2 = 0 →
      exec (.ret c) s = .next (Cpu.retired s c { k.setA 15 (sp + 4) with pc := BitVec.ofNat 32 t })) ∧
  (∀ (c : Fin 6) (r : BitVec 4) (d : BitVec 16) (s : State),
    let k := s.core c.val
    let op := Op.ctl 0x90 r.toNat [] d.toNat
    let v := (BitVec.ofInt 32 ((k.aN r.toNat : Int) - 1)).toNat
    Cpu.Performs s c op → exec (.djnz c r d) s = .next (Cpu.retired s c { k.setA r.toNat v with
      pc := if v = 0 then BitVec.ofNat 32 (Cpu.next s c op) else BitVec.ofInt 32 (Cpu.next s c op + 2 * d.toInt) })) ∧
  (∀ (c : Fin 6) (x : Opd) (target : Op) (s : State),
    let op := Op.ctl 0x8C 0 [x] 0
    let n := Cpu.val s c op 0
    let k := (Cpu.updated s c op).setCr 1 n
    Cpu.Performs s c op → Cpu.decodeAt c.val (Cpu.next s c op) 17 [] s = .ok (target, s) → target.noRepeat = false →
      target.accepted = true →
      exec (.rep c x) s = .next (Cpu.retired s c (if n = 0 then
          { k with rep := false, pc := BitVec.ofNat 32 (Cpu.next s c op + 2 * target.len) }
        else { k with rep := true, pc := BitVec.ofNat 32 (Cpu.next s c op) })))

/-- R283, R284, R287 to R289, R291, R306.
The model's choices it rests on: log entries 22 DEDUCED, 23 DESIGN CHOICE, 79 DEDUCED, 83 DEDUCED, 86 DEDUCED. -/
def Obligations.ExceptionsAndInterrupts : Prop :=
  (∀ (c : Fin 6) (imm : BitVec 8) (s : State),
    let k := s.core c.val
    let enters (i : Instr) (op : Op) (cause : Nat) : Prop := Cpu.Performs s c op →
      (k.sr 9 = false → ∃ t, exec i s = .next t ∧
        let g := t.core c.val
        g.crN 4 = cause ∧ g.crN 5 = 0 ∧ g.crN 2 = Cpu.next s c op ∧ g.crN 3 = putBits (k.crN 0) 6 1 0 &&& Cpu.crMask 0 ∧
        g.crN 0 = putBits (putBits (k.crN 0) 9 1 1) 6 1 0 &&& Cpu.crMask 0 ∧ g.pc = BitVec.ofNat 32 (k.crN 6) ∧
        g.a = k.a ∧ g.mb = k.mb ∧ g.ml = k.ml ∧ g.acc0 = k.acc0 ∧ g.acc1 = k.acc1 ∧ (∀ n ∈ [1, 6, 7, 8, 9], g.crN n = k.crN n) ∧
        t.mem = s.mem ∧ ∀ j, j ≠ c.val → t.core j = s.core j) ∧
      (k.sr 9 = true → ∃ t, exec i s = .next t ∧ Cpu.state t c.val = 5 ∧
        t.get (Cpu.b c.val) CoreP.CORE_STAT_HALT_CAUSE = 7 ∧ t.get (Cpu.b c.val) CoreP.CORE_FAULT_CAUSE = cause % 256 ∧
        t.get (Cpu.b c.val) CoreP.DBL_ADDR_ADDR = 0 ∧ t.get (Cpu.b c.val) CoreP.DBL_PC_PC = k.pc.toNat ∧
        (t.get (Cpu.b c.val) H.IRQ_RAW).testBit 1 = true)
    enters (.sys c imm) (Op.ctl 0x87 imm.toNat [] 0) (0x18 + 256 * imm.toNat) ∧ enters (.bkpt c) (Op.ctl 0x88 0 [] 0) 0x19) ∧
  (∀ (c : Fin 6) (s : State), let k := s.core c.val
    Cpu.Performs s c (Op.ctl 0x86 0 [] 0) → k.crN 2 % 2 = 0 →
      exec (.rte c) s = .next (Cpu.retired s c { k.setCr 0 (k.crN 3) with
        pc := BitVec.ofNat 32 (k.crN 2), rep := (k.crN 3).testBit 6 })) ∧
  (∀ (c : Fin 6) (s : State), Cpu.Performs s c (Op.ctl 0x89 0 [] 0) →
    (Irq.claim s c.val = none → ∃ t, exec (.wait c) s = .next t ∧ Cpu.state t c.val = 2 ∧
      t.core c.val = (s.core c.val).after 2 ∧ t.mem = s.mem) ∧
    ((Irq.claim s c.val).isSome = true → exec (.wait c) s = .next (Cpu.retired s c ((s.core c.val).after 2)))) ∧
  (∀ (c : Fin 6) (s : State), Cpu.alive s c.val = true → Cpu.state s c.val = 2 → (Irq.claim s c.val).isSome = true →
    exec (.waitEnd c) s = .next (s.put (Cpu.b c.val) CoreP.CORE_STAT_STATE 1)) ∧
  (∀ (c : Fin 6) (n : Nat) (s : State), let k := s.core c.val
    Irq.claim s c.val = some n →
    (Cpu.alive s c.val = true → Cpu.state s c.val = 1 → k.sr 8 = true → k.sr 9 = false →
      bitsOf (k.crN 0) 12 3 < Irq.prio s n → (∀ h ∈ s.held, h.req ≠ 16 + c.val) → n < 256 →
        ∃ g, exec (.interruptEntry c) s = .next (s.setCore c.val g) ∧ g.crN 4 = 0x20 + 256 * n ∧ g.crN 5 = 0 ∧
          g.crN 2 = k.pc.toNat ∧ g.crN 3 = putBits (k.crN 0) 6 1 (b2n k.rep) &&& Cpu.crMask 0 ∧
          g.pc = BitVec.ofNat 32 (k.crN 6 + 0x40) ∧ g.sr 9 = true ∧ g.sr 6 = false ∧ bitsOf (g.crN 0) 12 3 = Irq.prio s n % 8 ∧
          g.a = k.a ∧ g.acc0 = k.acc0 ∧ g.acc1 = k.acc1 ∧ g.rep = false) ∧
    (k.sr 8 = false ∨ k.sr 9 = true ∨ Irq.prio s n ≤ bitsOf (k.crN 0) 12 3 → exec (.interruptEntry c) s = .next s))

/-- R264, R267, R272, R275, R292, R306.
The model's choices it rests on: log entries 23 DESIGN CHOICE, 88 DEDUCED. -/
def Obligations.SystemRegistersAndFences : Prop :=
  (∀ (c : Fin 6) (i : BitVec 4) (x : Opd) (s : State),
    let mfc := Op.ctl 0x8D i.toNat [x] 0
    let mtc := Op.ctl 0x8E i.toNat [x] 0
    let feat := Op.ctl 0x8F i.toNat [x] 0
    (Cpu.Performs s c mfc →
      exec (.mfc c i x) s = .next (Cpu.past s (Cpu.wrote s c mfc ((s.core c.val).crN i.toNat)) c mfc)) ∧
    (Cpu.Performs s c mtc →
      exec (.mtc c i x) s = .next (Cpu.past s (s.setCore c.val ((Cpu.updated s c mtc).setCr i.toNat (Cpu.val s c mtc 0))) c mtc)) ∧
    (Cpu.Performs s c feat →
      exec (.feat c i x) s = .next (Cpu.past s (Cpu.wrote s c feat (s.regN (Cpu.b c.val + 0x0C0 + 4 * i.toNat))) c feat))) ∧
  (∀ (k : CoreSt) (n m v : Nat), n < 10 → m < 10 → v < 2 ^ 32 →
    (k.setCr n v).crN m = if m = n then (if n = 0 ∨ n = 3 then v &&& 0x3FF7737F else if n = 4 then v &&& 0x1FFFFF else
      if n = 6 then v &&& 0xFFFFFFC0 else v) else k.crN m) ∧
  (∀ (c : Fin 6) (s : State), Cpu.Ready s c (Op.ctl 0x8A 0 [] 0) →
    (∃ t, exec (.fence c) s = .next t ∧ t.wb c.val = [] ∧ t.icache = s.icache ∧ t.core c.val = (s.core c.val).after 2) ∧
    (∃ t, exec (.ifence c) s = .next t ∧ t.wb c.val = [] ∧ t.core c.val = (s.core c.val).after 2 ∧
      ∀ a, Cpu.icLines t c.val a = [])) ∧
  (∀ (c : Fin 6) (e : Fin 8) (l : WbLine) (s : State), (s.wb c.val)[e.val]? = some l → s.running .fabric = true →
    ∃ t, exec (.writeBufferDrain c e) s = .next t ∧ t.wb c.val = (s.wb c.val).filter (fun x => x.line ≠ l.line) ∧
      t.cores = s.cores)

/-- R293, R295, R296.
The model's choices it rests on: log entries 25 DEDUCED, 79 DEDUCED, 91 DEDUCED. -/
def Obligations.CoreCommands : Prop :=
  ∀ (req : Req) (c : Fin 6) (s : State), s.Quiet → s.Writable req (Cpu.p c.val) → s.frozen (Cpu.p c.val) = false →
    s.en (Cpu.p c.val) = true →
    let b := Cpu.b c.val
    let k := s.core c.val
    let irq (t : State) (i : Nat) : Prop := t.get b H.IRQ_RAW = s.get b H.IRQ_RAW ||| 2 ^ i
    let only (t : State) (ws : List Nat) : Prop :=
      t = { s with regs := t.regs, cores := t.cores, resp := t.resp } ∧ (∀ a ∉ ws, t.reg a = s.reg a) ∧
        ∀ j, j ≠ c.val → t.core j = s.core j
    (Cpu.state s c.val = 0 → ∃ t, exec (.coreStart req c) s = .next t ∧ Cpu.state t c.val = 1 ∧ irq t 3 ∧
      t.core c.val = { k with pc := BitVec.ofNat 32 (2 * s.get b CoreP.START_PC_PC) } ∧ only t [b + 0x014, b + 0x040, b + 0x044]) ∧
    (Cpu.state s c.val = 1 ∨ Cpu.state s c.val = 2 → ∃ t, exec (.coreHalt req c) s = .next t ∧ Cpu.state t c.val = 3 ∧
      t.get b CoreP.CORE_STAT_HALT_CAUSE = 1 ∧ irq t 0 ∧ t.core c.val = k ∧ only t [b + 0x014, b + 0x040, b + 0x044]) ∧
    (Cpu.state s c.val = 3 → ∃ t, exec (.coreResume req c) s = .next t ∧ Cpu.state t c.val = 1 ∧
      t.get b CoreP.CORE_STAT_HALT_CAUSE = 0 ∧ t.core c.val = k ∧ only t [b + 0x040, b + 0x044]) ∧
    (Cpu.state s c.val = 3 → s.running .core = true → ∃ u, only u [b + 0x040] ∧ u.core c.val = { k with step := true } ∧
      exec (.coreStep req c) s = .next (Cpu.settle 7 (Cpu.stepOne u c.val))) ∧
    (Cpu.state s c.val = 3 → s.running .core = true → k.pc.toNat + 2 ≤ 0x40000 → s.numAt (Cpu.home c.val k.pc.toNat) 2 = 0 →
      k.rep = false → Cpu.breakAt s c.val k.pc.toNat = false →
        ∃ t, exec (.coreStep req c) s = .next t ∧ Cpu.state t c.val = 3 ∧ t.get b CoreP.CORE_STAT_HALT_CAUSE = 2 ∧
          t.core c.val = k.after 2 ∧ (t.get b H.IRQ_RAW).testBit 2 = true ∧ t.mem = s.mem ∧ ∀ j, j ≠ c.val → t.core j = s.core j) ∧
    (Cpu.state s c.val = 3 → ∃ t, exec (.dbgDataRead req c) s = .next t ∧
      let v := k.dbgGet (s.get b CoreP.DBG_SEL_INDEX)
      t = { s.answered req [BitVec.ofNat 32 v, BitVec.ofNat 32 (v / 2 ^ 32), BitVec.ofNat 32 (v / 2 ^ 64)] with capt := t.capt }) ∧
    (∀ v : BitVec 80, Cpu.state s c.val = 3 →
      let i := s.get b CoreP.DBG_SEL_INDEX
      Cpu.dbgIndex i = true → (i = 0x18 → v.toNat % 2 = 0) →
        ∃ t, exec (.dbgDataWrite req c v) s = .next t ∧ only t [b + 0x054, b + 0x058, b + 0x05C] ∧
          (i < 0x10 → t.core c.val = k.setA i (v.toNat % 2 ^ 32)) ∧ (0x10 ≤ i → i < 0x18 → t.core c.val = k.setBuf (i - 0x10) (v.toNat % 2 ^ 32)) ∧
          (i = 0x18 → t.core c.val = { k with pc := BitVec.ofNat 32 v.toNat }) ∧ (i = 0x19 → t.core c.val = { k with acc0 := v }) ∧
          (i = 0x1A → t.core c.val = { k with acc1 := v }) ∧ (0x20 ≤ i → t.core c.val = k.setCr (i - 0x20) (v.toNat % 2 ^ 32))) ∧
    (∃ t, exec (.perfClr req c) s = .next t ∧ t.get b CoreP.CYCLES_COUNT = 0 ∧ t.get b CoreP.RETIRED_COUNT = 0 ∧
      t.get b CoreP.IC_MISS_COUNT = 0 ∧ t.get b CoreP.DC_MISS_COUNT = 0 ∧ t.get b CoreP.WB_STALL_COUNT = 0 ∧
      only t [b + 0x0A0, b + 0x0A4, b + 0x0A8, b + 0x0AC, b + 0x0B0, b + 0x0B4, b + 0x0B8, b + 0x0BC])

/-- R313, R314, R316, R317, R319, R321, R323, R324, R326, R335.
The model's choices it rests on: log entries 61 DEDUCED, 62 DEDUCED, 63 DEDUCED. -/
def Obligations.DmaChannels : Prop :=
  (∀ (req : Req) (n : Fin 64) (x : Action) (fire : BitVec 64) (s : State), s.Quiet → s.Writable req (0x081 + n.val / 32) → s.frozen Dma.p = false →
    s.en Dma.p = true →
    let b := Dma.cb n.val
    let runs := Dma.st s n.val = 1 ∧ Dma.kind s n.val = 1
    (runs → Cmd.Sets (.dmaStartCmd req n) s [b + 0x044] (fun t => Dma.st t n.val = 2)) ∧
    (¬ runs → Cmd.Sets (.dmaStartCmd req n) s [b + 0x06C, b + 0x070] (fun t => Dma.st t n.val = Dma.st s n.val ∧
      t.get b DmaC.MISSED_COUNT = min (s.get b DmaC.MISSED_COUNT + 1) (2 ^ 32 - 1) ∧
      (t.get b DmaC.CH_IRQ_RAW_EVT).testBit 3 = true)) ∧
    (s.acts.find? (fun y => y.act == 7) = some x → x.arg % 64 ≠ n.val ∨ x.fire ≠ fire.toNat → exec (.dmaStart fire n) s = .next s) ∧
    (runs → s.isReset .fabric = false → s.acts.find? (fun y => y.act == 7) = some x → x.arg % 64 = n.val → x.fire = fire.toNat →
      ∃ t, exec (.dmaStart fire n) s = .next t ∧ t = { (s.runTo x.fire).put b DmaC.CH_STAT_STATE 2 with acts := t.acts } ∧
        t.acts = (s.acts.erase x).filter (fun y => !(y.act == 7 && y.fire == x.fire && y.arg % 64 == x.arg % 64)))) ∧
  (∀ (n : Nat) (s : State), s.Clean → n < 64 → Dma.live s = true → s.Quiet → Dma.mode s n = 0 → bitsOf (Dma.ctl s n) 4 2 = 0 →
    Dma.valid s n = true → (Dma.ch s n).fin = none → (Dma.ch s n).mis = 0 → Dma.served s = some n →
    let pos := (Dma.ch s n).pos
    let src := Dma.srcAt s n pos
    let dst := Dma.dstAt s n pos
    let moved (t : State) (k : Nat) : Prop :=
      (∀ i < k, t.byte (dst + i) = s.byte (src + i)) ∧ (∀ a, a < dst ∨ dst + k ≤ a → t.byte a = s.byte a) ∧
        (Dma.ch t n).pos = pos + k ∧ (Dma.ch t n).fin = (if Dma.total s n ≤ pos + k then some (1, 0) else none)
    let fits (k : Nat) : Prop := inSram src k = true ∧ inSramArea dst k = true ∧ (src + k ≤ dst ∨ dst + k ≤ src)
    (Dma.kind s n ≠ 2 → Dma.st s n = 2 → fits (Dma.burstLen s n pos) →
      ∃ t, exec .dmaBurstDone s = .next t ∧ moved t (Dma.burstLen s n pos) ∧ t.dmaLast = n ∧ t.cores = s.cores) ∧
    (∀ c : Fin 64, c.val = n → Dma.kind s n = 2 → Dma.st s n = 1 ∨ Dma.st s n = 2 → Dma.waits s n = false →
      Dma.burst s n ≤ Dma.burstLen s n pos → fits (Dma.burst s n) →
        ∃ t, exec (.dmaRequest c) s = .next t ∧ moved t (Dma.burst s n) ∧ Dma.st t n = 2 ∧ t.cores = s.cores)) ∧
  (∀ (n : Fin 64) (status fault : Nat) (s : State), (Dma.ch s n.val).fin = some (status, fault) → Dma.st s n.val = 2 →
    Dma.live s = true → s.wget (Dma.cb n.val) DmaC.WB = 0 → s.wget (Dma.cb n.val) DmaC.FEED = 0 →
    s.armedAt (Dma.cb n.val + 0x048) = none → (∀ m < 64, Dma.kind s m ≠ 3) → status < 2 ^ 8 → fault < 2 ^ 32 →
    Dma.total s n.val ≤ 2 ^ 24 → status = 1 ∨ status = 2 →
      let b := Dma.cb n.val
      ∃ t, exec (.setComplete n) s = .next t ∧ Dma.st t n.val = 0 ∧ t.get b DmaC.CH_STAT_STATUS = status ∧
        t.get b DmaC.RESIDUE_BYTES = Dma.total s n.val - (Dma.ch s n.val).pos ∧ t.get b DmaC.FAULT_ADDR_ADDR = fault ∧
        t.get b DmaC.CH_STAT_SETS = (s.get b DmaC.CH_STAT_SETS + 1) % 2 ^ 16 ∧ (Dma.ch t n.val).fin = none ∧
        ((Dma.ctl s n.val).testBit 10 = true → (t.get b DmaC.CH_IRQ_RAW_EVT).testBit 0 = true) ∧ t.mem = s.mem ∧
        ∀ m < 64, m ≠ n.val → Dma.st t m = Dma.st s m) ∧
  (∀ (n : Fin 64) (s : State), s.Clean → Dma.st s n.val = 3 → Dma.live s = true →
    let f := s.wget (Dma.cb n.val) DmaC.FEED
    inSram f 64 = true → s.frozen Dma.p = false → ∃ t, exec (.feedFetch n) s = .next t ∧ t.mem = s.mem ∧
      (∀ i < 13, (t.reg (Dma.cb n.val + 4 * i)).toNat = s.numAt (f + 4 * i) 4) ∧
      (s.numAt (f + 0x30) 2 = 0 → Dma.st t n.val = 0 ∧ t.get (Dma.cb n.val) DmaC.CH_STAT_STATUS = 0x13 ∧
        (t.get (Dma.cb n.val) DmaC.CH_IRQ_RAW_EVT).testBit 1 = true) ∧
      (s.numAt (f + 0x30) 2 ≠ 0 → t.get (Dma.cb n.val) DmaC.COMMIT_TAKEN_GEN = s.numAt (f + 0x30) 2 ∧
        (t.get (Dma.cb n.val) DmaC.CH_IRQ_RAW_EVT).testBit 4 = true ∧
        (Dma.valid t n.val = true → (∀ i < 12, s.byte (f + 0x34 + i) = 0) →
          Dma.st t n.val = if Dma.kind t n.val = 0 then 2 else 1))) ∧
  (∀ (req : Req) (s : State), s.Quiet → s.Clean → s.frozen Dma.p = false → s.dmaClear = false →
    (∀ n < 64, Dma.st s n ≠ 4 ∧ Dma.waits s n = false) →
    (∀ n : Fin 64, s.Writable req (0x081 + n.val / 32) → Dma.st s n.val = 1 ∨ Dma.st s n.val = 2 →
      s.wget (Dma.cb n.val) DmaC.WB = 0 →
        ∃ t, exec (.dmaAbort req n) s = .next t ∧ Dma.st t n.val = 0 ∧ t.get (Dma.cb n.val) DmaC.CH_STAT_STATUS = 0x12 ∧
          (t.get (Dma.cb n.val) DmaC.CH_IRQ_RAW_EVT).testBit 2 = true ∧ t.armedAt (Dma.cb n.val + 0x048) = none ∧ t.mem = s.mem) ∧
    (s.Writable req Dma.p → ∃ t, exec (.abortAll req) s = .next t ∧ (∀ n < 64, Dma.st t n = 0) ∧
      (∀ n < 64, ∀ o < 13, t.reg (Dma.cb n + 4 * o) = 0) ∧ (t.get Dma.b H.IRQ_RAW).testBit 0 = true)) ∧
  (∀ (s : State), s.eccBad = [] → s.flag Mem.b Mem.SCRUB_CTL_SCRUB_EN = true → s.en 0x090 = true → s.running .fabric = true →
    let w := s.get Mem.b Mem.SCRUB_POS_WORD
    ∃ t, exec .scrubStep s = .next t ∧ t.get Mem.b Mem.SCRUB_POS_WORD = (w + 1) % 2 ^ 22 ∧ t.mem = s.mem ∧
      (w = 2 ^ 22 - 1 → (t.get Mem.b H.IRQ_RAW).testBit 2 = true)) ∧
  (∀ (double : Bool) (s : State), s.flag Mem.b Mem.SCRUB_CTL_SCRUB_EN = true → s.en 0x090 = true → s.running .fabric = true →
    let a := 0x10000000 + 8 * s.get Mem.b Mem.SCRUB_POS_WORD
    s.eccOf a = some double → ∃ t, exec .scrubStep s = .next t ∧ t.mem = s.mem ∧
      t.get Mem.b Mem.SCRUB_POS_WORD = (s.get Mem.b Mem.SCRUB_POS_WORD + 1) % 2 ^ 22 ∧
      (double = false → t.eccOf a = none ∧ (t.get Mem.b H.IRQ_RAW).testBit 0 = true ∧
        t.get Mem.b Mem.CE_CNT_COUNT = min (s.get Mem.b Mem.CE_CNT_COUNT + 1) (2 ^ Mem.CE_CNT_COUNT.w - 1)) ∧
      (double = true → t.eccOf a = some true ∧ (t.get Mem.b H.IRQ_RAW).testBit 1 = true ∧
        t.get Mem.b Mem.UE_CNT_COUNT = min (s.get Mem.b Mem.UE_CNT_COUNT + 1) (2 ^ Mem.UE_CNT_COUNT.w - 1)))

/-- R337 to R344, R347.
The model's choices it rests on: log entries 18 DESIGN CHOICE, 64 DEDUCED. -/
def Obligations.FlashAndAnnal : Prop :=
  (∀ (req : Req) (s : State), s.Quiet → s.Writable req 0x091 → s.en 0x091 = true → s.flag Flash.b Flash.FL_STAT_BUSY = false →
    let o := s.get Flash.b Flash.FL_ADDR_OFS
    let src := s.get Flash.b Flash.FL_SRC_ADDR
    let len := s.get Flash.b Flash.FL_LEN_BYTES
    let starts (t : State) (op : FlashOp) : Prop := t.fl = { s.fl with op := some op } ∧ t.flag Flash.b Flash.FL_STAT_BUSY = true ∧
      t = { s with regs := t.regs, fl := t.fl, resp := t.resp } ∧ ∀ a, a ≠ Flash.b + 0x050 → t.reg a = s.reg a
    let refused (t : State) (st : Nat) : Prop := t.fl = { s.fl with op := none } ∧ t.get Flash.b Flash.FL_STAT_STATUS = st ∧
      (t.get Flash.b H.IRQ_RAW).testBit 1 = true ∧ t.mem = s.mem
    (inSram src len = true → src % 4 = 0 → 1 ≤ len → len ≤ 65536 → o + len ≤ 0x4000000 → Flash.protected_ s o len = false →
      ∃ t, exec (.program req) s = .next t ∧ starts t ⟨0, o, src, len, false⟩) ∧
    (o % 0x1000 = 0 → Flash.protected_ s o 0x1000 = false → ∃ t, exec (.eraseSec req) s = .next t ∧ starts t ⟨1, o, src, 0x1000, false⟩) ∧
    (o % 0x1000 ≠ 0 → ∃ t, exec (.eraseSec req) s = .next t ∧ refused t 0x12) ∧
    (o % 0x10000 = 0 → Flash.protected_ s o 0x10000 = false →
      ∃ t, exec (.eraseBlk req) s = .next t ∧ starts t ⟨2, o, src, 0x10000, false⟩) ∧
    (o % 0x10000 = 0 → Flash.protected_ s o 0x10000 = true → ∃ t, exec (.eraseBlk req) s = .next t ∧ refused t 0x11)) ∧
  (∀ (op : FlashOp) (s : State), s.fl.op = some op → s.running .flash = true → s.en 0x091 = true →
    let w := Flash.win + op.ofs
    let ended (t : State) : Prop := t.fl = { s.fl with op := none } ∧ t.flag Flash.b Flash.FL_STAT_BUSY = false ∧
      t.get Flash.b Flash.FL_STAT_STATUS = 1 ∧ (t.get Flash.b H.IRQ_RAW).testBit 0 = true ∧
      t.get Flash.b Flash.FL_STAT_COUNT = (s.get Flash.b Flash.FL_STAT_COUNT + 1) % 2 ^ 16 ∧
      ∀ a, a < w ∨ w + op.len ≤ a → t.byte a = s.byte a
    (op.susp = false → op.kind ≠ 0 → w + op.len ≤ 0x24000000 → ∃ t, exec .flashOpDone s = .next t ∧ ended t ∧
      ∀ a, w ≤ a → a < w + op.len → t.byte a = 0xFF) ∧
    (op.susp = false → op.kind = 0 → s.Clean → inSram op.src op.len = true → 1 ≤ op.len → op.ofs % 256 + op.len ≤ 256 →
      op.ofs + op.len ≤ 0x4000000 → (∀ i < op.len, s.byte (w + i) = 0xFF) →
        ∃ t, exec .flashOpDone s = .next t ∧ ended t ∧ ∀ i < op.len, t.byte (w + i) = s.byte (op.src + i)) ∧
    exec .eraseSuspend s = .next { s with fl := { s.fl with op := some { op with susp := op.susp || op.kind != 0 } } } ∧
    exec .eraseResume s = .next { s with fl := { s.fl with op := some { op with susp := false } } }) ∧
  (∀ (req : Req) (s : State), s.Quiet → s.Writable req 0x092 →
    let b := Annal.b
    let r : AnnReq := ⟨s.get b Annal.APP_SRC_ADDR, s.get b Annal.APP_HDR_TYPE, s.get b Annal.APP_HDR_KEY, s.get b Annal.APP_HDR_LEN,
      s.get b Annal.APP_TAG_TAG⟩
    (s.en 0x092 = true → s.flag b Annal.ANN_STAT_READY = true → s.fl.queue.length < 16 → ∃ t, exec (.appendGo req) s = .next t ∧
      t.fl = { s.fl with queue := s.fl.queue ++ [r] } ∧ t.get b Annal.ANN_STAT_QDEPTH = s.fl.queue.length + 1 ∧
      t.get b Annal.COUNTS_POSTED = (s.get b Annal.COUNTS_POSTED + 1) % 2 ^ 16 ∧ t.mem = s.mem) ∧
    (∃ t, exec (.lastgasp req) s = .next t ∧ t.fl = { s.fl with gasp := some r } ∧ t.flag b Annal.ANN_STAT_GASP_ARMED = true) ∧
    (∃ t, exec (.disarm req) s = .next t ∧ t.fl = { s.fl with gasp := none } ∧ t.flag b Annal.ANN_STAT_GASP_ARMED = false) ∧
    (s.en 0x092 = true → s.flag b Annal.ANN_STAT_READY = true → s.flag b Annal.ANN_STAT_CROWDED = false →
      Cmd.Sets (.harvest req) s [b + 0x040, b + 0x044] (fun t => t.flag b Annal.ANN_STAT_HARVESTING = true))) ∧
  (∀ (r : AnnReq) (q : List AnnReq) (s : State), s.running .flash = true → s.en 0x092 = true → s.flag Annal.b Annal.ANN_STAT_READY = true →
    s.vig.queue = [] → s.fl.queue = r :: q →
    let b := Annal.b
    let p := s.fl.ptr
    let a := Annal.half (s.get b Annal.ANN_STAT_HALF) + p
    let seq := s.get b Annal.NEXT_SEQ_SEQ
    (r.typ = 0 ∨ 8 < r.typ ∨ 4096 < r.len ∨ r.src % 4 ≠ 0 → r.tag < 2 ^ 16 → ∃ t, exec .appendDone s = .next t ∧ t.fl.queue = q ∧
      t.get b Annal.RES_INFO_STATUS = 0x11 ∧ t.get b Annal.RES_INFO_TAG = r.tag ∧ (t.get b H.IRQ_RAW).testBit 1 = true ∧ t.mem = s.mem) ∧
    (s.Clean → 1 ≤ r.typ → r.typ ≤ 8 → 1 ≤ r.len → r.len ≤ 4096 → r.src % 4 = 0 → inSram r.src r.len = true → r.key < 256 →
      r.tag < 2 ^ 16 → p + Annal.size r.len ≤ 0x200000 → (∀ i < 16 + r.len, s.byte (a + i) = 0xFF) → seq + 1 < 2 ^ 32 →
        ∃ t, exec .appendDone s = .next t ∧ t.fl.queue = q ∧ t.fl.ptr = p + Annal.size r.len ∧
          t.get b Annal.RES_INFO_STATUS = 1 ∧ t.get b Annal.RES_SEQ_SEQ = seq ∧ t.get b Annal.RES_ADDR_ADDR = a ∧
          t.get b Annal.NEXT_SEQ_SEQ = seq + 1 ∧ (t.get b H.IRQ_RAW).testBit 0 = true ∧
          t.numAt a 2 = 0x414E ∧ t.numAt (a + 2) 1 = r.typ ∧ t.numAt (a + 3) 1 = r.key ∧ t.numAt (a + 4) 2 = r.len ∧
          t.numAt (a + 8) 4 = seq ∧ (∀ i < r.len, t.byte (a + 12 + i) = s.byte (r.src + i)) ∧ Annal.crcOk t a = true ∧
          ∀ x, x < a ∨ a + 16 + r.len ≤ x → t.byte x = s.byte x)) ∧
  (∀ (s : State), s.running .flash = true → s.en 0x092 = true →
    let b := Annal.b
    let h := s.get b Annal.ANN_STAT_HALF
    (s.flag b Annal.ANN_STAT_HARVESTING = true → ∃ t, exec .harvestDone s = .next t ∧ t.get b Annal.ANN_STAT_HALF = 1 - h ∧
      t.flag b Annal.ANN_STAT_HARVESTING = false ∧ (t.get b H.IRQ_RAW).testBit 2 = true ∧ 0x1000 ≤ t.fl.ptr ∧
      Annal.headOk t (1 - h) = true ∧ Annal.genOf t (1 - h) = (Annal.genOf s h + 1) % 2 ^ 32) ∧
    (∀ g < 2, s.flag b Annal.ANN_STAT_READY = false → s.fl.scan = none → Annal.headOk s 0 = true → Annal.headOk s 1 = true →
      Annal.genOf s (1 - g) < Annal.genOf s g → (∀ i < 16, s.byte (Annal.half g + 0x1000 + i) = 0xFF) →
        ∃ t, exec .recoveryScan s = .next t ∧ t.get b Annal.ANN_STAT_HALF = g ∧ t.get b Annal.ANN_GEN_GEN = Annal.genOf s g ∧
          t.fl.ptr = 0x1000 ∧ t.fl.scan = some (Annal.topOf s g) ∧ t.mem = s.mem) ∧
    (∀ top, s.fl.scan = some top → top + 1 < 2 ^ 32 → ∃ t, exec .recovered s = .next t ∧ t.flag b Annal.ANN_STAT_READY = true ∧
      t.get b Annal.NEXT_SEQ_SEQ = top + 1 ∧ (t.get b H.IRQ_RAW).testBit 5 = true ∧ t.fl = { s.fl with scan := none } ∧ t.mem = s.mem)) ∧
  (∀ (req : Req) (s : State), s.Quiet → s.Writable req 0x093 → s.flag (pg 0x093) Dump.DUMP_STAT_BUSY = false →
    (∃ t, exec (.dumpSnap req) s = .next t ∧ t.fl = { s.fl with dumpRun := some (1, s.now) } ∧
      t.flag (pg 0x093) Dump.DUMP_STAT_BUSY = true ∧ t.mem = s.mem) ∧
    (∃ t, exec (.dumpChan req) s = .next t ∧ t.fl = { s.fl with dumpRun := some (2, s.now) } ∧
      t.flag (pg 0x093) Dump.DUMP_STAT_BUSY = true ∧ t.mem = s.mem)) ∧
  (∀ (u : Nat) (s : State), s.fl.dumpRun = some (1, u) → s.running .fabric = true → s.Clean → s.vig.dump = none →
    (∀ k < 54, Dump.pageOn s k = true → Dump.waits s (Dump.page s k) = false) →
      ∃ t, exec .captureDone s = .next t ∧ t.fl.dumpRun = none ∧ t.fl.dumpSeq = s.fl.dumpSeq + 1 ∧
        t.numAt Dump.bay 2 = 0x4442 ∧ t.numAt (Dump.bay + 2) 1 = 4 ∧
        t.numAt (Dump.bay + 4) 4 = (s.fl.dumpSeq + 1) % 2 ^ 32 ∧ t.numAt (Dump.bay + 8) 8 = u % 2 ^ 64 ∧
        (∀ k < 54, if Dump.pageOn s k = true then ∃ ok : Bool, t.numAt (Dump.bay + 0x40 + 4 * k) 4 =
          Dump.page s k + 2 ^ (if ok then 16 else 17) else t.numAt (Dump.bay + 0x40 + 4 * k) 4 = 0) ∧
        t.flag (pg 0x093) Dump.DUMP_STAT_BUSY = false ∧ (t.get (pg 0x093) H.IRQ_RAW).testBit 0 = true ∧
        ∀ a, a < Dump.bay ∨ Dump.bay + 0xA000 + 0x1000 * 54 ≤ a → t.byte a = s.byte a)

/-- R350, R351, R354 to R359, R363.
The model's choices it rests on: log entries 12 DESIGN CHOICE, 52 DEDUCED, 99 DEDUCED. -/
def Obligations.ClocksAndReference : Prop :=
  (∀ (f : Int) (s : State), let b := pg 0x008;
    -(2 ^ 31) ≤ f → f < 2 ^ 31 →
    let good := f.natAbs ≤ s.get b Clk0.REF_CFG_REF_TOL * 1000000
    let q := s.flag b Clk0.REF_STAT_EXT_QUAL
    (good → s.refGood < 15 ∨ q = true → ∃ t, exec (.refWindow f) s = .next t ∧ t.refGood = min (s.refGood + 1) 16 ∧
      t.getI b Clk0.REF_FOFS_FOFS = f ∧ t = { s with refGood := t.refGood, regs := t.regs } ∧ ∀ a, a ≠ b + Clk0.REF_FOFS_FOFS.off → t.reg a = s.reg a) ∧
    (good → s.refGood = 15 → q = false → ∃ t, exec (.refWindow f) s = .next t ∧ t.flag b Clk0.REF_STAT_EXT_QUAL = true ∧
      (t.get b H.IRQ_RAW).testBit 9 = true ∧
      (s.extActive = false → s.get b Clk0.REF_CFG_REF_SEL = 1 → s.refLost = false → t.extActive = true ∧ (t.get b H.IRQ_RAW).testBit 8 = true)) ∧
    (¬ good → q = true → ∃ t, exec (.refWindow f) s = .next t ∧ t.refGood = 0 ∧ t.flag b Clk0.REF_STAT_EXT_QUAL = false ∧
      (s.extActive = true → s.flag b Clk0.REF_STAT_TCXO_OK = true → t.extActive = false ∧ t.refLost = true))) ∧
  (∀ (s : State), let b := pg 0x008;
    (∃ t, exec .refLoss s = .next t ∧ t.refGood = 0 ∧ t.flag b Clk0.REF_STAT_EXT_QUAL = false ∧
      (s.flag b Clk0.REF_STAT_TCXO_OK = true → t.extActive = false)) ∧
    (∃ t, exec .tcxoFailure s = .next t ∧ t.flag b Clk0.REF_STAT_TCXO_OK = false ∧
      (s.extActive = false → s.flag b Clk0.REF_STAT_EXT_QUAL = false → s.flag b Clk0.REF_STAT_NONE = false →
        t.flag b Clk0.REF_STAT_NONE = true ∧ (t.get b H.IRQ_RAW).testBit 10 = true ∧
        ∀ k < 9, s.pllState k = 3 ∨ s.pllState k = 4 → t.pllState k = 5))) ∧
  (∀ (p : Fin 9) (count : Nat) (band : BitVec 6) (ph skew : Int) (s : State),
    let k := p.val
    let b := Pll.b k
    let st := s.pllState k
    let good := Pll.within (Pll.target s k) count 1 1000
    let run (nb : Bool) (t : State) : Prop := exec (.pllWindow p count nb band ph skew) s = .next t
    let lost (t : State) : Prop := t.pllState k = 1 ∧ t.flag b Pll.PLL_STAT_GATED = true ∧
      (t.get (pg (Pll.page k)) H.IRQ_RAW).testBit (2 * Pll.blk k) = true ∧ ∀ i ∈ Pll.feeds s k, i ∈ t.stalled
    let one : Prop := k = 1 ∨ k = 4 ∨ k = 5
    let stay := (s.pll k).keep
    count < 2 ^ 24 → (k = 4 ∨ k = 5 → s.oscRuns (k - 4) = false) →
    (one → st = 1 ∨ st = 2 → good = true → (s.pll k).good = 3 → ∃ t, run false t ∧ t.pllState k = 3 ∧ t.flag b Pll.PLL_STAT_GATED = false ∧
      t.get b Pll.PLL_STAT_BAND = (if stay then s.get b Pll.PLL_STAT_BAND else band.toNat) ∧ (t.pll k).stored = some (t.get b Pll.PLL_STAT_BAND) ∧
      (t.get (pg (Pll.page k)) H.IRQ_RAW).testBit (2 * Pll.blk k + 1) = true ∧ ∀ i ∈ Pll.feeds s k, i ∉ t.stalled) ∧
    (st = 1 ∨ st = 2 → good = true → (s.pll k).good < 3 → ∃ t, run false t ∧ t.pllState k = 2 ∧ (t.pll k).good = (s.pll k).good + 1 ∧
      t.get b Pll.PLL_COUNT_COUNT = count ∧ t.stalled = s.stalled) ∧
    (st = 1 ∨ st = 2 → stay = false → (s.pll k).fails < 2 → ∃ t, run true t ∧ t.pllState k = 1 ∧ (t.pll k).fails = (s.pll k).fails + 1) ∧
    (one → st = 1 ∨ st = 2 → stay = false → (s.pll k).fails = 2 → ∃ t, run true t ∧ t.pllState k = 6) ∧
    (st = 4 → good = true → (s.pll k).good = 3 → ∃ t, run false t ∧ t.pllState k = 3 ∧ t.stalled = s.stalled) ∧
    (st = 3 → Pll.within (Pll.target s k) count 5 1000 = true → ∃ t, run false t ∧ t.pllState k = 3 ∧ t.plls = s.plls ∧
      t.get b Pll.PLL_COUNT_COUNT = count) ∧
    (one → st = 3 → Pll.within (Pll.target s k) count 5 1000 = false → ∃ t, run false t ∧ lost t) ∧
    (one → st = 3 ∨ st = 4 ∨ st = 5 → ∃ t, exec (.fastTrip p) s = .next t ∧ lost t ∧ t.flag b Pll.PLL_STAT_FAST_TRIP = true)) ∧
  (∀ (req : Req) (p : Fin 9) (s : State), s.Quiet → p.val = 1 ∨ p.val = 4 ∨ p.val = 5 → s.Writable req (Pll.page p.val) →
    let b := Pll.b p.val
    ∃ t, exec (.pllResearch req p) s = .next t ∧ t.flag b Pll.PLL_STAT_GATED = true ∧ (t.pll p.val).good = 0 ∧
      t.pllState p.val = (if s.flag b Pll.PLL_CTL_USE_STORED = true ∧ (s.pll p.val).stored.isSome = true then 2 else 1) ∧
      ∀ i ∈ Pll.feeds s p.val, i ∈ t.stalled)

/-- R368, R369, R371, R373 to R379, R382, R384.
The model's choices it rests on: log entries 67 DEDUCED, 68 DEDUCED, 75 DEDUCED, 76 DEDUCED. -/
def Obligations.VigilsAndGuards : Prop :=
  (∀ (v : Fin 2) (s : State), Vig.runs s = true → (Vig.of s v.val).checked = true →
    let o := 1 - v.val
    let x := Vig.of s v.val
    (x.bad = false → Vig.state s v.val ≤ 1 → s.vig.move = false → ∃ t, exec (.heartbeat v) s = .next t ∧
      (Vig.of t v.val).seq = x.seq + 1 ∧ (Vig.of t o).heard = s.now ∧ (Vig.of t o).run = 0 ∧ t = { s with vig := t.vig }) ∧
    (Vig.state s v.val ≤ 1 → x.run ≠ 2 → ∃ t, exec (.heartbeatMissed v) s = .next t ∧ (Vig.of t v.val).run = x.run + 1 ∧
      t.base = (s.runTo (x.heard + 7680 * (x.run + 1))).base ∧ t.vig.active = s.vig.active ∧
      t.get (Vig.b v.val) Vig.VIG_STAT_MISSED = min (s.get (Vig.b v.val) Vig.VIG_STAT_MISSED + 1) (2 ^ Vig.VIG_STAT_MISSED.w - 1)) ∧
    (Vig.state s v.val = 1 → x.run = 2 → Vig.state s o = 0 → s.vig.active = some o → s.vig.waiting = [] →
      ∃ t, exec (.heartbeatMissed v) s = .next t ∧ t.vig.active = some v.val ∧ Vig.state t v.val = 0 ∧ Vig.state t o = 3 ∧
        (Vig.of t o).checked = false ∧ (t.get (Vig.b v.val) H.IRQ_RAW).testBit 3 = true)) ∧
  (∀ (v : Fin 2) (k : BitVec 16) (s : State), Vig.runs s = true → s.flag (pg 0x008) Clk0.REF_STAT_NONE = false →
    ∃ t, exec (.vigOscCal v k) s = .next t ∧ t.get (Vig.b v.val) Vig.VIG_OSC_KHZ = k.toNat ∧
      t.flag (Vig.b v.val) Vig.VIG_STAT_CAL_VALID = true ∧ t = { s with regs := t.regs }) ∧
  (∀ (v : Fin 2) (ok : Bool) (s : State), Vig.runs s = true → (Vig.of s v.val).checked = false → s.vig.waiting = [] →
    (ok = true → Vig.sound s v.val = true → s.vig.active = none → s.get (Vig.b 0) Vig.VIG_CFG_PREFER = v.val → ∃ t, exec (.selfCheck v ok) s = .next t ∧
      t.vig.active = some v.val ∧ Vig.state t v.val = 0 ∧ (Vig.of t v.val).checked = true) ∧
    (ok = true → Vig.sound s v.val = true → s.vig.active = some (1 - v.val) → ∃ t, exec (.selfCheck v ok) s = .next t ∧ t.vig.active = s.vig.active ∧
      Vig.state t v.val = 1) ∧
    (ok = false ∨ Vig.sound s v.val = false → s.vig.active = some (1 - v.val) → ∃ t, exec (.selfCheck v ok) s = .next t ∧ t.vig.active = s.vig.active ∧
      Vig.state t v.val = 2 ∧ (Vig.of t v.val).bad = true)) ∧
  (∀ (v : Fin 2) (r : Recipe) (s : State), Vig.runs s = true → s.vig.active = some v.val → (Vig.of s v.val).bad = false →
    s.vig.running = [r] → r.cls = 4 → r.detail = 0x008 + 4096 → r.source < 12 →
      (r.step = 1 → s.pllState 1 = 3 → ∃ t, exec (.recipeStepDone 4) s = .next t ∧ t.vig.running = [{ r with step := 2 }] ∧
        t = { s with vig := t.vig }) ∧
      (r.step = 2 → s.pllState 1 = 3 → ∃ t, exec (.recipeStepDone 4) s = .next t ∧ t.vig.running = [] ∧
        (Vig.of t v.val).log.head? = some (Vig.event v.val r 1 s.now) ∧ (t.get (Vig.b v.val) H.IRQ_RAW).testBit 1 = true)) ∧
  (∀ (v : Fin 2) (p : Fin 288) (s : State), Vig.runs s = true → s.vig.active = some v.val → (pageInfo p.val).isSome = true →
    pageIsland p.val = .time → s.running .time = true → Vig.enabled s v.val 0x0D = true → Vig.enabled s v.val 0x12 = true →
    s.flag (Vig.b v.val) Vig.VIG_CFG_AUTO_DUMP = false → s.vig.running = [] →
      ∃ t, exec (.hang ⟨4, by decide⟩ p) s = .next t ∧ t.vig.running = [] ∧ t.vig.faultN = true ∧ t.vig.faultAt = s.now ∧
        t.flag (Vig.b v.val) Vig.FAULT_SRC_FATAL = true ∧ (t.get (Vig.b v.val) H.IRQ_RAW).testBit 2 = true ∧ t.base = s.base ∧
        t.mem = s.mem) ∧
  (∀ (v : Fin 2) (p : Fin 288) (i : Fin 12) (s : State), Vig.runs s = true → s.vig.active = some v.val → (pageInfo p.val).isSome = true →
    i.val = 2 ∨ i.val = 3 ∨ i.val = 5 → pageIsland p.val = Island.nth i.val → s.running (Island.nth i.val) = true →
    Vig.enabled s v.val 0x0D = true → s.vig.running = [] → s.vig.hangs = [] →
      ∃ t, exec (.hang i p) s = .next t ∧ t.vig.running = [] ∧ t.base = s.base ∧ t.vig.hangs = [(i.val, s.now)] ∧
        ∀ q ∈ (Island.nth i.val).pages, hasHead q = true → t.flag (pg q) H.RESTARTED = true) ∧
  (∀ (s : State), Vig.runs s = true → s.vig.a.bad = true → s.vig.b.bad = true → ∃ t, exec .lastResort s = .next t ∧
    t.base = s.base ∧ t.flag (pg 0x093) Dump.DUMP_CTL_DUMP_VALID = true ∧ t.flag (Vig.b 0) Vig.FAULT_SRC_LAST_RESORT = true ∧
    t.vig.faultN = true ∧ t.vig.waiting = [⟨0x13, 10, 0, 0, s.now, 1, false⟩]) ∧
  (∀ (s : State), Vig.faultSrc s = false → s.vig.faultN = true → ∃ t, exec .faultNRelease s = .next t ∧ t.vig.faultN = false ∧
    t.base = (s.runTo (s.vig.faultAt + 6400000)).base ∧ t.flag (Vig.b 0) Vig.FAULT_SRC_PIN = false) ∧
  (∀ (req : Req) (v : Fin 2) (s : State), s.Quiet → s.Writable req (2 + v.val) →
    let o := 1 - v.val
    (Vig.standby s o = true → s.vig.waiting = [] → ∃ t, exec (.vigilSwap req v) s = .next t ∧ t.vig.active = some o ∧
      Vig.state t o = 0 ∧ Vig.state t v.val = 1) ∧
    ((Vig.of s o).checked = true → Vig.state s o = 2 → ∃ t, exec (.restartOther req v) s = .next t ∧ Vig.state t o = 3 ∧
      (Vig.of t o).checked = false ∧ t.vig.active = s.vig.active) ∧
    (s.vig.dump = none → s.eccBad = [] → (∀ p ∈ [0x093, 0x0C0, 0x0C1, 0x0C2, 0x0C3, 0x0C4, 0x0C5], s.locked p = false) →
      s.flag (pg 0x093) Dump.DUMP_STAT_BUSY = false → ∃ t, exec (.vigDump req v) s = .next t ∧
      t.vig.dump.isSome = true ∧ t.flag (pg 0x093) Dump.DUMP_CTL_DUMP_VALID = true ∧ t.flag (pg 0x093) Dump.DUMP_CTL_PROT = true ∧
      t.numAt Dump.bay 2 = 0 ∧ t.fl.dumpRun = some (3, s.now))) ∧
  (∀ (v : Fin 2) (d : VigDump) (s : State), Vig.runs s = true → s.vig.active = some v.val → s.vig.dump = some d → s.fl.dumpRun = none →
    s.get (Vig.b v.val) Vig.VIG_CFG_DUMP_THEN = 0 → ∃ t, exec .dumpDone s = .next t ∧ t.vig.dump = none ∧
      (t.get (Vig.b v.val) H.IRQ_RAW).testBit 5 = true ∧ t.mem = s.mem) ∧
  (∀ (g : Fin 23) (x : Int) (s : State), g.val < 8 ∨ g.val = 22 → Guard.sampled s g.val = true → Guard.filter s g.val = 1 →
    -(2 ^ 15) ≤ x → x < 2 ^ 15 →
    let b := Guard.b g.val
    let lo := s.getI b GuardG.GD_LO_LO
    let hi := s.getI b GuardG.GD_HI_HI
    Guard.state s g.val = 0 → Guard.action s g.val = 1 ∨ Guard.action s g.val = 2 →
      ∃ t, exec (.guardSample g x) s = .next t ∧ t.getI b GuardG.GD_VAL_VALUE = x ∧ t.mem = s.mem ∧
        ((lo ≠ -0x8000 ∧ x < lo) → Guard.state t g.val = 1 ∧ t.flag b GuardG.GD_STAT_VIOL = true ∧
          t.get b GuardG.GD_STAT_COUNT = min (s.get b GuardG.GD_STAT_COUNT + 1) (2 ^ GuardG.GD_STAT_COUNT.w - 1)) ∧
        (¬ (lo ≠ -0x8000 ∧ x < lo) → (hi ≠ 0x7FFF ∧ hi < x) → Guard.state t g.val = 2 ∧ t.flag b GuardG.GD_STAT_VIOL = true) ∧
        (¬ (lo ≠ -0x8000 ∧ x < lo) → ¬ (hi ≠ 0x7FFF ∧ hi < x) → Guard.state t g.val = 0 ∧
          t.get b GuardG.GD_STAT_COUNT = s.get b GuardG.GD_STAT_COUNT)) ∧
  (∀ (s : State), Guard.timed s 21 = true →
    let b := Guard.b 21
    ∃ t, exec (.guardTimeout ⟨21, by decide⟩) s = .next t ∧ Guard.state t 21 = 3 ∧
      t.base = (s.runTo ((Guard.st s 21).qual + s.get b GuardG.GD_TO_TO * 64000)).base ∧
      (Guard.action s 21 ≠ 0 → t.flag b GuardG.GD_STAT_VIOL = true))

/-- R386, R388 to R390, R393 to R395, R397, R399, R401, R403.
The model's choices it rests on: log entries 70 DEDUCED, 71 DEDUCED, 72 DEDUCED, 73 DEDUCED, 80 DEDUCED. -/
def Obligations.PowerResetsAndBoot : Prop :=
  let fresh (t : State) (kind mode : Nat) : Prop := t.get 0 Sys.RESET_CAUSE_KIND = kind ∧ t.inReset = [] ∧
    (∀ c : Fin 6, t.core c.val = if c.val = 0 then { CoreSt.init with pc := 0x04000000 } else CoreSt.init) ∧
    Cpu.state t 0 = (if mode = 2 then 2 else 1) ∧ (∀ c : Fin 6, c.val ≠ 0 → Cpu.state t c.val = 0) ∧
    (mode = 1 → t.pwr.waitHost = true ∧ t.get 0 Sys.BOOT_STAT_IMAGE = 2) ∧ (mode = 2 → t.get 0 Sys.BOOT_STAT_CODE = 7)
  let memory (s t : State) (keep : Nat → Prop) : Prop := ∀ a, (rangeOf a = .flash ∨ keep a → t.byte a = s.byte a) ∧
    (¬ (rangeOf a = .flash ∨ keep a) → t.byte a = memDefault a)
  let still (s : State) : Prop := s.fl.op = none ∧ s.fl.queue = [] ∧ s.vig.queue = [] ∧
    s.flag Annal.b Annal.ANN_STAT_HARVESTING = false
  let modes (s : State) (m : Nat) : Prop := still s ∧ s.get 0 Sys.STRAPS_BOOT = m ∧ (m = 1 ∨ m = 2) ∧ s.jtag.test = false ∧
    s.flag Power.b Power.PD_STAT_DENIED = false
  let warm (s t : State) (m : Nat) : Prop := fresh t 5 m ∧
    t.get 0 Sys.RESET_CAUSE_WARM_CNT = min (s.get 0 Sys.RESET_CAUSE_WARM_CNT + 1) 255 ∧
    memory s t (fun a => s.flag (pg 0x093) Dump.DUMP_CTL_DUMP_VALID = true ∧ inBay a = true)
  (∀ (m : Nat) (s : State), modes s m → s.pwr.asleep = false →
    (∃ t, exec .resetN s = .next t ∧ fresh t 2 m ∧ memory s t (fun _ => False) ∧ t.pending = s.pending) ∧
    (∀ req : Req, s.Quiet → s.Writable req 0 →
      (∃ t, exec (.softwareFullReset req) s = .next t ∧ fresh t 4 m ∧ memory s t (fun _ => False)) ∧
      (∃ t, exec (.warmReset req) s = .next t ∧ warm s t m ∧ t.base = s.base ∧ t.ts = s.ts)) ∧
    (s.get 0 Sys.WDOG_MS ≠ 0 → s.running .fabric = true →
      (s.flag 0 Sys.WDOG_WARM = false → ∃ t, exec .watchdogExpiry s = .next t ∧ fresh t 3 m ∧ memory s t (fun _ => False)) ∧
      (s.flag 0 Sys.WDOG_WARM = true → ∃ t, exec .watchdogExpiry s = .next t ∧ warm s t m ∧
        t.base = (s.runTo (s.pwr.kickAt + s.get 0 Sys.WDOG_MS * 640000)).base))) ∧
  (∀ (boot : BitVec 2) (full : Bool) (g : BitVec 4) (s : State), Power.onVbak s = false → s.jtag.test = false → still s →
    boot = 1 ∨ boot = 2 →
      (4 ≤ g.toNat → ∃ t, exec (.powerOn boot full g) s = .next t ∧ fresh t 0 boot.toNat ∧ memory s t (fun _ => False) ∧
        t.get 0 Sys.STRAPS_BOOT = boot.toNat ∧ Power.full t = (full && decide (6 ≤ g.toNat)) ∧
        (full = true → g.toNat < 6 → (t.get Power.b H.IRQ_RAW).testBit 0 = true)) ∧
      (g.toNat < 4 → ∃ t, exec (.powerOn boot full g) s = .next t ∧ t.flag Power.b Power.PD_STAT_DENIED = true ∧
        t.pwr.pwrGood = false ∧ ∀ i, i ≠ Island.power → i ≠ Island.time → i ∈ t.inReset) ∧
      (s.pwr.asleep = true → 4 ≤ g.toNat →
        ∃ t, exec (.poeReturn boot full g) s = .next t ∧ fresh t 0 boot.toNat ∧ t.pwr.asleep = false)) ∧
  (∀ (m t0 : Nat) (boot : BitVec 2) (full : Bool) (g : BitVec 4) (s : State), modes s m → s.pwr.asleep = false →
    Power.shedding s = true → s.pwr.back = some t0 → ∃ t, exec (.poeReturn boot full g) s = .next t ∧ warm s t m ∧
      t.base = (s.runTo (t0 + 64000000)).base ∧ Power.shedding t = false) ∧
  (∀ (vbak : Bool) (s : State), Power.shedding s = true → s.pwr.asleep = false →
    ∃ t, exec (.holdupEnd vbak) s = .next t ∧ (vbak = true → t.pwr.asleep = true ∧ t.base = s.base ∧
      ∀ i, i ≠ Island.time → i ∈ t.inReset) ∧ (vbak = false → ∀ i, i ∈ t.inReset)) ∧
  (∀ (pa : Bool) (ma : BitVec 16) (held : Bool) (s : State),
    let lim := if pa then 1800 else s.get Power.b Power.VAUX_ILIM_MA
    (if pa then s.paOn else s.vauxOn) = true →
      (held = true ∧ lim < ma.toNat ∨ 3 * lim < 2 * ma.toNat → ∃ t, exec (.overcurrentTrip pa ma held) s = .next t ∧
        (pa = true → t.paOn = false ∧ t.flag Power.b Power.RAIL_STAT_PA_TRIP = true ∧ (t.get Power.b H.IRQ_RAW).testBit 3 = true) ∧
        (pa = false → t.vauxOn = false ∧ t.flag Power.b Power.RAIL_STAT_VAUX_TRIP = true ∧ (t.get Power.b H.IRQ_RAW).testBit 2 = true)) ∧
      (¬ (held = true ∧ lim < ma.toNat ∨ 3 * lim < 2 * ma.toNat) → exec (.overcurrentTrip pa ma held) s = .next s)) ∧
  (∀ (req : Req) (a : BitVec 32) (s : State), s.Quiet → s.Writable req 0 →
    let w := s.pwr.hash.getD 0
    (∃ t, exec (.wdogKick req) s = .next t ∧ t = State.answered { s with pwr := { s.pwr with kickAt := s.now } } req []) ∧
    (s.pwr.running = some 0 → Cmd.Sets (.bootOk req) s [0x5C] (fun t => t.get 0 Sys.BOOT_TRY_TRY_A = 0 ∧
      t.get 0 Sys.BOOT_TRY_TRY_B = s.get 0 Sys.BOOT_TRY_TRY_B)) ∧
    (s.pwr.waitHost = false → Cmd.Sets (.hostImgWrite req a) s [0x64] (fun t => t.get 0 Sys.HOST_IMG_ADDR = a.toNat)) ∧
    (s.pwr.waitHost = true → Cpu.state s 0 = 1 → rangeOf a.toNat ≠ .sram → s.locked 0x0B0 = false →
      Cmd.Sets (.hostImgWrite req a) s [0x64, 0x58, Spi.b + 0x4C, Spi.b + 0x54] (fun t => t.get 0 Sys.BOOT_STAT_CODE_H = 1 ∧
        (t.get Spi.b Spi.HOST_DB_DB).testBit 15 = true ∧ (t.get Spi.b Spi.HOST_MASK_MASK).testBit 15 = true)) ∧
    (∃ t, exec (.submit req) s = .next t ∧ t.pwr.hash = some (w ||| 4) ∧ t.mem = s.mem) ∧
    Cmd.Sets (.relock req) s [0x180] (fun t => t.get 0 Sys.DBG_STAT_SCOPE = 0) ∧
    (∃ t, exec (.hashSha req) s = .next t ∧ t.pwr.hash = some (w ||| 1) ∧ t.flag 0 Sys.HASH_STAT_BUSY = true) ∧
    (∃ t, exec (.hashVerify req) s = .next t ∧ t.pwr.hash = some (w ||| 2) ∧ t.flag 0 Sys.HASH_STAT_BUSY = true)) ∧
  (∀ (s : State), s.running .fabric = true → s.Clean →
    let a := s.get 0 Sys.HASH_SRC_ADDR
    let n := s.get 0 Sys.HASH_LEN_BYTES
    let big (f : Fld) (k : Nat) : Nat := beNat (leBytes k (s.get 0 f))
    (s.pwr.hash = some 1 → inSram a n = true → ∃ t, exec .hashDone s = .next t ∧ t.pwr.hash = none ∧
      t.get 0 Sys.HASH_OUT_DIGEST = leNat (sha256 (s.bytesAt a n)) ∧ t.flag 0 Sys.HASH_STAT_BUSY = false ∧
      (t.get 0 H.IRQ_RAW).testBit 0 = true ∧ t.mem = s.mem) ∧
    (s.pwr.hash = some 2 → ∃ t, exec .hashDone s = .next t ∧ t.pwr.hash = none ∧ t.flag 0 Sys.HASH_STAT_SIG_OK =
      Config.signatureOk (big Sys.HASH_OUT_DIGEST 32) (big Sys.VER_KEY_KEY 64) (big Sys.VER_SIG_SIG 64)) ∧
    (s.pwr.hash = some 4 → Dbg.good s = true → ∃ t, exec .dbgResult s = .next t ∧ t.pwr.hash = none ∧
      t.get 0 Sys.DBG_STAT_SCOPE = leNat ((leBytes 132 (s.get 0 Sys.DBG_TOKEN_TOKEN)).drop 128) % 4 ∧
      t.flag 0 Sys.DBG_STAT_FAILED = false) ∧
    (s.pwr.hash = some 4 → Dbg.good s = false → ∃ t, exec .dbgResult s = .next t ∧ t.flag 0 Sys.DBG_STAT_FAILED = true ∧
      t.get 0 Sys.DBG_STAT_SCOPE = s.get 0 Sys.DBG_STAT_SCOPE ∧ (t.get 0 H.IRQ_RAW).testBit 1 = true))

/-- R404, R407 to R409, R411 to R413, R415, R424.
The model's choices it rests on: log entries 65 DEDUCED, 92 DEDUCED. -/
def Obligations.HostFramesFifosDoorbells : Prop :=
  let head (op : Nat) (fix : Bool) (a n : Nat) : List (BitVec 8) :=
    ([16 * op + 8 * b2n fix] ++ leBytes 4 a ++ leBytes 2 n).map (BitVec.ofNat 8)
  let body (l : List Word) : List (BitVec 8) := (l.flatMap (fun w => leBytes 4 w.toNat)).map (BitVec.ofNat 8)
  let ready (s : State) : Prop := s.en Spi.p = true ∧ s.running .fabric = true ∧ s.flag Spi.b H.BUSY = false ∧
    s.spi.deaf = false ∧ s.spi.exec = none ∧ s.flag Spi.b Spi.HOST_CFG_CRC_EN = false
  let ended (s t : State) (result done fail : Nat) : Prop :=
    t.get Spi.b Spi.HOST_STAT_RESULT = result ∧ t.spi.done = done ∧ t.get Spi.b Spi.HOST_FAIL_ADDR = fail ∧
      t.get Spi.b Spi.HOST_STAT_FRAMES = (s.get Spi.b Spi.HOST_STAT_FRAMES + 1) % 2 ^ 16 ∧
      (t.get Spi.b H.IRQ_RAW).testBit 0 = true ∧ (result ≠ 0 → (t.get Spi.b H.IRQ_RAW).testBit 1 = true)
  let lead (s : State) : List Nat := Spi.stat s :: List.replicate 6 0
  let answers (s t : State) (data : List Nat) : Prop := t.spi.miso = Spi.stat s :: ([0, 0, 0, 0, 0, 0, 0xA5] ++ data)
  (∀ (fix : Bool) (a : Nat) (l : List Word) (s : State), ready s → a < 2 ^ 32 → l ≠ [] →
    (l.length ≤ 1024 → a % 4 = 0 → exec (.spiWrite (head 1 fix a l.length ++ body l)) s =
      .next ({ s with spi := { s.spi with miso := lead s, exec := some (false, fix, a, l.map BitVec.toNat), wrote := 0 } }.put Spi.b Spi.HOST_STAT_BUSY 1)) ∧
    (l.length ≤ 256 → exec (.push (head 5 fix a l.length ++ body l)) s =
      .next ({ s with spi := { s.spi with miso := lead s, exec := some (true, fix, a, l.map BitVec.toNat), wrote := 0 } }.put Spi.b Spi.HOST_STAT_BUSY 1)) ∧
    (l.length ≤ 256 → l.length ≤ s.spi.txf.length → ∃ t, exec (.pull (head 6 fix a l.length) 2) s = .next t ∧
      answers s t ((s.spi.txf.take l.length).flatMap (leBytes 4)) ∧ t.spi.txf = s.spi.txf.drop l.length ∧
      t.spi.rxf = s.spi.rxf ∧ t.mem = s.mem ∧ ended s t 0 l.length 0)) ∧
  (∀ (a n : Nat) (s : State), ready s → s.Clean → 0 < n → n ≤ 1024 → a % 4 = 0 → inSram a (4 * n) = true →
    ∃ t, exec (.spiRead (head 2 false a n) 2) s = .next t ∧ answers s t (s.bytesAt a (4 * n)) ∧ t.mem = s.mem ∧ ended s t 0 n 0) ∧
  (∀ (fix : Bool) (a n : Nat) (s : State), ready s → a < 2 ^ 32 → n < 2 ^ 16 →
    (∃ t, exec (.spiStatus (head 3 fix a n)) s = .next t ∧ ended s t 0 0 0 ∧ t.mem = s.mem ∧
      answers s t (leBytes 4 (s.get Spi.b Spi.HOST_STAT_RESULT + 2 ^ 16 * s.spi.done) ++
        leBytes 4 (s.get Spi.b Spi.HOST_FAIL_ADDR))) ∧
    (∃ t, exec (.doorbell (head 4 fix a n) 2) s = .next t ∧ ended s t 0 0 0 ∧ t.mem = s.mem ∧
      answers s t (leBytes 4 (s.get Spi.b Spi.HOST_DB_DB)) ∧ t.get Spi.b Spi.HOST_DB_DB = 0 ∧
      t.get Spi.b Spi.FW_DB_DB = s.get Spi.b Spi.FW_DB_DB ||| a % 2 ^ 16 ∧
      (a % 2 ^ 16 ≠ 0 → (t.get Spi.b H.IRQ_RAW).testBit 2 = true))) ∧
  (∀ (fix : Bool) (a : Nat) (l : List Nat) (s : State), s.running .fabric = true → s.Quiet → (∀ w ∈ l, w < 2 ^ 32) → l ≠ [] →
    (s.spi.exec = some (false, fix, a, l) → s.Clean → (∀ h ∈ s.held, h.req ≠ 12) → a % 4 = 0 → inSramArea a (4 * l.length) = true →
      ∃ t, exec .spiWriteDone s = .next t ∧ t.spi.exec = none ∧ t.flag Spi.b Spi.HOST_STAT_BUSY = false ∧ ended s t 0 (s.spi.wrote + l.length) 0 ∧
        (fix = false → (∀ i < l.length, t.numAt (a + 4 * i) 4 = l[i]?.getD 0) ∧
          ∀ x, x < a ∨ a + 4 * l.length ≤ x → t.byte x = s.byte x) ∧
        (fix = true → t.numAt a 4 = l.getLast?.getD 0 ∧ ∀ x, x < a ∨ a + 4 ≤ x → t.byte x = s.byte x)) ∧
    (s.spi.exec = some (true, fix, a, l) →
      ∃ t, exec .spiWriteDone s = .next t ∧ t.spi.exec = none ∧ t.flag Spi.b Spi.HOST_STAT_BUSY = false ∧ t.mem = s.mem ∧
        (s.spi.rxf.length + l.length ≤ 256 → t.spi.rxf = s.spi.rxf ++ l ∧ ended s t 0 l.length 0) ∧
        (256 < s.spi.rxf.length + l.length → t.spi.rxf = s.spi.rxf ∧ ended s t 8 0 0))) ∧
  (∀ (req : Req) (m : BitVec 16) (v : Word) (s : State), s.Quiet → s.Writable req Spi.p →
    let at_ (o : Nat) : BitVec 32 := BitVec.ofNat 32 (Bus.base + Spi.b + o)
    let fails (t : State) (code : Nat) : Prop := t.spi = s.spi ∧
      (s.get Spi.b H.CODE = 0 → t.get Spi.b H.CODE = code ∧ t.get Spi.b H.ERR_ADDR % 2 ^ 24 = Spi.b + (if code = 0x41 then 0x5C else 0x60))
    Cmd.Sets (.dbSet req m) s [Spi.b + 0x4C] (fun t => t.get Spi.b Spi.HOST_DB_DB = s.get Spi.b Spi.HOST_DB_DB ||| m.toNat) ∧
    (∀ w l, s.spi.rxf = w :: l → ∃ t, exec (.fifoPop req (at_ 0x5C)) s = .next t ∧ t.spi.rxf = l ∧ t.spi.txf = s.spi.txf ∧
      t.get Spi.b Spi.FIFO_STAT_RX_LEVEL = l.length % 2 ^ 9 ∧ t.resp = ⟨req.code, [BitVec.ofNat 32 w], false⟩) ∧
    (s.spi.rxf = [] → ∃ t, exec (.fifoPop req (at_ 0x5C)) s = .next t ∧ fails t 0x41 ∧ t.resp = ⟨req.code, [0], false⟩) ∧
    (s.spi.txf.length < 256 → ∃ t, exec (.fifoPush req (at_ 0x60) v) s = .next t ∧ t.spi.txf = s.spi.txf ++ [v.toNat] ∧
      t.spi.rxf = s.spi.rxf ∧ t.resp = ⟨req.code, [], false⟩) ∧
    (256 ≤ s.spi.txf.length → ∃ t, exec (.fifoPush req (at_ 0x60) v) s = .next t ∧ fails t 0x42) ∧
    (∃ t, exec (.rxFlush req 0) s = .next t ∧ t.spi.rxf = [] ∧ t.spi.txf = s.spi.txf ∧ t.mem = s.mem) ∧
    (∃ t, exec (.txFlush req 0) s = .next t ∧ t.spi.txf = [] ∧ t.spi.rxf = s.spi.rxf ∧ t.mem = s.mem)) ∧
  (∀ (req : Req) (u : Fin 3) (i : Fin 5) (s : State), s.Quiet → s.Writable req (Uart.p u.val) →
    Cmd.Sets (.cntClr req u) s [Uart.b u.val + 0x40, Uart.b u.val + 0x58, Uart.b u.val + 0x5C, Uart.b u.val + 0x60] (fun t => t.reg (Uart.b u.val + 0x60) = 0) ∧
    (i.val = u.val + 1 → (∃ t, exec (.rxFlush req i) s = .next t ∧ Uart.st t u.val = { Uart.st s u.val with rx := [] }) ∧
      (∃ t, exec (.txFlush req i) s = .next t ∧ Uart.st t u.val = { Uart.st s u.val with tx := [] }))) ∧
  (∀ (req : Req) (s : State), s.Quiet → s.Writable req I2c.p →
    (∃ t, exec (.rxFlush req 4) s = .next t ∧ t.i2c = { s.i2c with rx := [] }) ∧
    (∃ t, exec (.txFlush req 4) s = .next t ∧ t.i2c = { s.i2c with tx := [] }))

/-- R417 to R420, R422 to R424, R426, R428, R429.
The model's choices it rests on: log entries 24 PRESUMED, 65 DEDUCED, 66 DESIGN CHOICE. -/
def Obligations.CanUartI2cGpio : Prop :=
  (∀ (req : Req) (can : Fin 2) (s : State), s.Quiet → s.Writable req (Can.p can.val) →
    let n := can.val
    let b := Can.b n
    let c := Can.st s n
    (s.en (Can.p n) = false → Can.state s n = 0 → ∃ t, exec (.canEnable req can) s = .next t ∧ t.en (Can.p n) = true ∧
      (Can.timingOk s n = true → Can.state t n = 1 ∧ t.get b Can.CAN_STAT_TEC = 0 ∧ t.get b Can.CAN_STAT_REC = 0 ∧
        (t.get b H.IRQ_RAW).testBit 2 = true ∧ t.get b H.CODE = s.get b H.CODE) ∧
      (Can.timingOk s n = false → Can.state t n = 0 ∧ (s.get b H.CODE = 0 → t.get b H.CODE = 0x42))) ∧
    (Can.state s n = 3 → s.en (Can.p n) = true → s.running .fabric = true → ∃ t, exec (.canRecover req can) s = .next t ∧
      Can.st t n = { c with recov := true } ∧ Can.state t n = 3 ∧
      ∃ v, exec (.busOffRecovered can) t = .next v ∧ Can.state v n = 1 ∧ v.get b Can.CAN_STAT_TEC = 0 ∧
        v.get b Can.CAN_STAT_REC = 0 ∧ (v.get b H.IRQ_RAW).testBit 2 = true) ∧
    (∃ t, exec (.canCancel req can) s = .next t ∧ (Can.st t n).rxf = c.rxf ∧
      let all := (Can.st t n).txq = [] ∧
        (∀ r, c.txq = [r] → c.txe.length ≤ 60 → ∃ lo hi, (Can.st t n).txe = c.txe ++ [Can.tag r + 2 ^ 16 * 4, 0, lo, hi])
      (Can.live s n = false ∨ s.flag b Can.CAN_CFG_LISTEN = true → all) ∧
        (all ∨ ∃ k, Can.best c s.now = some k ∧ (Can.st t n).txq = (c.txq.drop k).take 1))) ∧
  (∀ (can : Fin 2) (f : CanRx) (sof : BitVec 64) (r : List Nat) (u : Nat) (s : State), Can.live s can.val = true →
    let n := can.val
    let b := Can.b n
    let c := Can.st s n
    let tec := s.get b Can.CAN_STAT_TEC
    let event (status : Nat) : List Nat := 
      [Can.tag r + 2 ^ 16 * status, 0, replica 8 sof.toNat % 2 ^ 32, replica 8 sof.toNat / 2 ^ 32]
    (c.txq = [r] → c.txAt = [u] → u ≤ sof.toNat → s.flag b Can.CAN_CFG_LISTEN = false → s.flag b Can.CAN_CFG_LOOPBACK = false → c.txe.length ≤ 60 → tec < 256 →
      (∃ t, exec (.canTxComplete can 0 sof) s = .next t ∧ (Can.st t n).txq = [] ∧ (Can.st t n).txe = c.txe ++ event 1 ∧
        (Can.st t n).rxf = c.rxf ∧ t.get b Can.CAN_STAT_TEC = tec - 1 ∧ t.get b Can.CAN_STAT_LEC = 0 ∧
        ((Can.flags r).testBit 0 = true → (t.get b H.IRQ_RAW).testBit 1 = true)) ∧
      (∀ status : Fin 3, status.val ≠ 0 →
        ((Can.flags r).testBit 1 = false → ∃ t, exec (.canTxComplete can status sof) s = .next t ∧ t.can = s.can) ∧
        ((Can.flags r).testBit 1 = true → ∃ t, exec (.canTxComplete can status sof) s = .next t ∧ (Can.st t n).txq = [] ∧
          (Can.st t n).txe = c.txe ++ event (status.val + 1) ∧ t.get b Can.CAN_STAT_TEC = tec))) ∧
    (s.flag b Can.CAN_CFG_LOOPBACK = false → (f.fdf = true → s.flag b Can.CAN_CFG_FD_EN = true) →
      (∀ i < 16, s.flag (b + 8 * i) Can.FILT_ID_EN = false) → c.rxf.length ≤ 620 → f.data.length ≤ 64 → tec < 256 →
        ∃ t, exec (.canFrameRx can f) s = .next t ∧ (t.get b H.IRQ_RAW).testBit 0 = true ∧ (Can.st t n).txq = c.txq ∧
          (Can.st t n).rxf = c.rxf ++ ([f.ident.toNat + 2 ^ 29 * b2n f.ide + 2 ^ 30 * b2n f.rtr,
            f.dlc.toNat + 16 * b2n f.fdf + 32 * b2n f.brs + 64 * b2n f.esi + 2 ^ 8 * b2n c.lost + 2 ^ 16 * 0xFF,
            replica 8 f.sof.toNat % 2 ^ 32, replica 8 f.sof.toNat / 2 ^ 32] ++
              (List.range 16).map (fun i => leNat ((List.range 4).map (fun j => (f.data[4 * i + j]?.getD 0).toNat)))) ∧
          (s.get b Can.CAN_STAT_REC ≤ 127 → t.get b Can.CAN_STAT_REC = s.get b Can.CAN_STAT_REC - 1)) ∧
    (∀ (lec : Fin 7) (by8 : Bool),
      (lec.val = 3 → Can.state s n = 2 → by8 = false → tec < 256 → s.get b Can.CAN_STAT_REC < 256 →
        ∃ t, exec (.canBusError can lec true by8) s = .next t ∧ t.get b Can.CAN_STAT_LEC = 3 ∧
          (t.get b H.IRQ_RAW).testBit 4 = true ∧ t.get b Can.CAN_STAT_TEC = tec ∧ t.can = s.can) ∧
      (¬ (lec.val = 3 ∧ Can.state s n = 2 ∧ by8 = false) →
        ∃ t, exec (.canBusError can lec true by8) s = .next t ∧ t.get b Can.CAN_STAT_LEC = lec.val ∧
        (t.get b H.IRQ_RAW).testBit 4 = true ∧ t.get b Can.CAN_STAT_TEC = min (tec + 8) 511 ∧
        (tec + 8 < 256 → t.can = s.can ∧ (128 ≤ tec + 8 → Can.state t n = 2)) ∧
        (256 ≤ tec + 8 → Can.state t n = 3 ∧ (Can.st t n).txq = [] ∧ (t.get b H.IRQ_RAW).testBit 2 = true)) ∧
      (tec < 128 → ∃ t, exec (.canBusError can lec false by8) s = .next t ∧ t.can = s.can ∧ t.get b Can.CAN_STAT_LEC = lec.val ∧
        t.get b Can.CAN_STAT_REC = min (s.get b Can.CAN_STAT_REC + if by8 then 8 else 1) 255 ∧
        Can.state t n = if 128 ≤ s.get b Can.CAN_STAT_REC + (if by8 then 8 else 1) then 2 else 1))) ∧
  (∀ (u : Fin 3) (data : BitVec 8) (high : Bool) (s : State), s.en (Uart.p u.val) = true → s.running .fabric = true →
    let n := u.val
    let b := Uart.b n
    let x := Uart.st s n
    (s.flag b Uart.UART_CFG_LOOP = false →
      (∀ pe stop : Bool, x.rx.length < 64 → (pe = true → s.get b Uart.UART_CFG_PARITY ≠ 0) → s.flag b Uart.UART_CFG_BITS7 = false →
        ∃ t, exec (.uartRxChar u data pe stop) s = .next t ∧ Uart.st t n = { x with rx := x.rx ++
            [(data.toNat, b2n pe + 2 * b2n (!stop) + 4 * b2n (!stop && data == 0))] } ∧
          (pe = true ∨ stop = false → (t.get b H.IRQ_RAW).testBit 3 = true)) ∧
      (64 ≤ x.rx.length → ∃ t, exec (.uartRxChar u data false true) s = .next t ∧ Uart.st t n = x ∧
        t.get b Uart.ERR_CNTS_OVERRUN = min (s.get b Uart.ERR_CNTS_OVERRUN + 1) 255 ∧ (t.get b H.IRQ_RAW).testBit 4 = true) ∧
      (∀ c, x.cur = some c →
        (x.tx = [] → ∃ t, exec (.uartTxChar u) s = .next t ∧ Uart.st t n = { x with cur := none, last := c } ∧
          (t.get b H.IRQ_RAW).testBit 5 = true ∧ t.flag b Uart.UART_STAT_TX_IDLE = true) ∧
        (∀ d l, x.tx = d :: l → Uart.heldBack s n = false → ∃ t, exec (.uartTxChar u) s = .next t ∧
          Uart.st t n = { x with cur := some d, tx := l, last := c }) ∧
        (∀ d l, x.tx = d :: l → Uart.heldBack s n = true → ∃ t, exec (.uartTxChar u) s = .next t ∧
          Uart.st t n = { x with cur := none, last := c }))) ∧
    exec (.rxIdle u) s = .next (if x.rx = [] then s else s.raise (Uart.p n) 2) ∧
    (∃ t, exec (.ctsNChange u high) s = .next t ∧ t.flag b Uart.UART_STAT_CTS = (!high) ∧
      (∀ d l, x.cur = none → x.tx = d :: l →
        (high = false → Uart.st t n = { x with cur := some d, tx := l }) ∧ (high = true → Uart.flow s n true = true → Uart.st t n = x)) ∧
      (x.cur ≠ none → Uart.st t n = x))) ∧
  (∀ (req : Req) (v : Word) (s : State), s.Quiet → s.Writable req I2c.p →
    (s.i2c.cmds.length < 8 → ∃ t, exec (.i2cCmd req v) s = .next t ∧ t.i2c = { s.i2c with cmds := s.i2c.cmds ++ [v.toNat] }) ∧
    (8 ≤ s.i2c.cmds.length → ∃ t, exec (.i2cCmd req v) s = .next t ∧ t.i2c = s.i2c ∧
      (s.get I2c.b H.CODE = 0 → t.get I2c.b H.CODE = 0x41)) ∧
    (s.i2c.cmds = [v.toNat] → ∃ t, exec (.i2cAbort req) s = .next t ∧ t.i2c = { s.i2c with cmds := [], done := 0 } ∧
      t.get I2c.b I2c.I2C_STAT_LAST = 7 ∧ (t.get I2c.b H.IRQ_RAW).testBit 1 = true ∧ t.flag I2c.b I2c.I2C_STAT_BUS_BUSY = false) ∧
    (∃ t, exec (.i2cRecover req) s = .next t ∧ t.i2c = s.i2c ∧ t.flag I2c.b I2c.I2C_STAT_BUS_BUSY = false)) ∧
  (∀ (c : Nat) (l : List Nat) (data : List (BitVec 8)) (n : BitVec 8) (s : State), s.en I2c.p = true → s.running .fabric = true →
    s.i2c.cmds = c :: l → s.i2c.done ≤ 255 →
    let x := s.i2c
    let left := bitsOf c 12 8 - x.done
    let b := I2c.b
    let last (t : State) (status : Nat) : Prop := t.get b I2c.I2C_STAT_LAST = (if l = [] ∨ status = 1 then status else 6) ∧
      (2 ≤ status → (t.get b H.IRQ_RAW).testBit 1 = true) ∧ (c.testBit 21 = true → (t.get b H.IRQ_RAW).testBit 0 = true) ∧
      t.i2c.cmds = (if status = 1 then l else []) ∧ t.i2c.done = 0
    (c.testBit 11 = false → n.toNat = left → left ≤ x.tx.length → ∃ t, exec (.i2cCmdDone 1 n data) s = .next t ∧ last t 1 ∧
      t.get b I2c.XFER_BYTES = x.done + left ∧ t.i2c.tx = x.tx.drop left ∧ t.i2c.rx = x.rx) ∧
    (c.testBit 11 = true → data.length = left → x.rx.length + left ≤ 16 → ∃ t, exec (.i2cCmdDone 1 n data) s = .next t ∧ last t 1 ∧
      t.get b I2c.XFER_BYTES = x.done + left ∧ t.i2c.rx = x.rx ++ data.map (·.toNat) ∧ t.i2c.tx = x.tx) ∧
    (∀ status : Fin 5, 2 ≤ status.val → c.testBit 11 = false → n = 0 → ∃ t, exec (.i2cCmdDone status n data) s = .next t ∧
      last t status.val ∧ t.flag b I2c.I2C_STAT_BUS_BUSY = false ∧ t.i2c.tx = x.tx ∧ t.i2c.rx = x.rx) ∧
    (∃ t, exec .i2cStretchTimeout s = .next t ∧ last t 5 ∧ t.i2c.tx = x.tx ∧ t.i2c.rx = x.rx)) ∧
  (∀ (pin : Fin 16) (high : Bool) (s : State), s.running .fabric = true →
    let g (t : State) : Nat := t.get Gpio.b Gpio.GPIO_IN_IN
    let m := s.get (Gpio.b + 4 * pin.val) Gpio.PIN_CFG_IRQ_MODE
    (Gpio.level s pin.val = high → exec (.gpioInputChange pin high) s = .next s) ∧
    (Gpio.level s pin.val ≠ high → ∃ t, exec (.gpioInputChange pin high) s = .next t ∧ t = { s with regs := t.regs } ∧
      (∀ i < 16, (g t).testBit i = if i = pin.val then high else (g s).testBit i) ∧
      (∀ a, a ≠ Gpio.b + 0x40 → a ≠ Gpio.b + 0x14 → t.reg a = s.reg a) ∧
      (m = 3 ∨ (m = 1 ∨ m = 4) ∧ high = true ∨ (m = 2 ∨ m = 5) ∧ high = false → (t.get Gpio.b H.IRQ_RAW).testBit pin.val = true) ∧
      (m = 0 → (t.get Gpio.b H.IRQ_RAW).testBit pin.val = (s.get Gpio.b H.IRQ_RAW).testBit pin.val))) ∧
  (∀ (req : Req) (m : BitVec 16) (s : State), s.Quiet → s.Writable req Gpio.p →
    let o := s.get Gpio.b Gpio.GPIO_OUT_OUT
    let out (i : Instr) (v : Nat) : Prop := Cmd.Sets i s [Gpio.b + 0x14, Gpio.b + 0x44] (fun t => t.get Gpio.b Gpio.GPIO_OUT_OUT = v)
    out (.gpioSet req m) (o ||| m.toNat) ∧ out (.gpioClr req m) (o - (o &&& m.toNat)) ∧ out (.gpioTgl req m) (o ^^^ m.toNat))

/-- R393, R454, R455, R457, R458, R460.
The model's choices it rests on: log entries 1 DESIGN CHOICE, 93 DEDUCED, 94 DEDUCED. -/
def Obligations.TestAccessAndPatterns : Prop :=
  let ir (s : State) (code : Nat) (cells : BitVec 129) : State := { s with jtag := { s.jtag with ir := code, bsr := cells } }
  (∀ (cells : BitVec 129) (code : BitVec 5) (s : State), s.pwr.asleep = false → s.jtag.test = false → (∀ h ∈ s.held, h.req ≠ 10) →
    let tested (t : State) (code : Nat) (c : BitVec 129) : Prop := t.jtag = { s.jtag with ir := code, bsr := c, test := true } ∧
      t.base = s.base ∧ t.vauxOn = s.vauxOn ∧ ∀ i, i ∈ t.inReset ↔ (i ≠ .power ∧ i ≠ .time ∧ i ≠ .superv ∨ i ∈ s.inReset)
    (∃ t, exec (.extest cells) s = .next t ∧ tested t 0x00 cells) ∧ (∃ t, exec .clamp s = .next t ∧ tested t 0x03 s.jtag.bsr) ∧
    (∃ t, exec .highz s = .next t ∧ tested t 0x04 s.jtag.bsr) ∧
    exec (.samplePreload cells) s = .next (ir s 0x01 cells) ∧ exec .idcode s = .next (ir s 0x02 s.jtag.bsr) ∧
    exec .testModeExit s = .next s ∧
    (code.toNat ≠ 0 → code.toNat ≠ 1 → code.toNat ≠ 2 → code.toNat ≠ 3 → code.toNat ≠ 4 → code.toNat ≠ 8 →
      exec (.bypass code) s = .next (ir s code.toNat s.jtag.bsr))) ∧
  (∀ (cells : BitVec 129) (s : State), s.pwr.asleep = false → s.jtag.test = true →
    let stays (t : State) (code : Nat) (c : BitVec 129) : Prop := t = ir s code c
    let leaves (i : Instr) (code : Nat) : Prop := s.get 0 Sys.STRAPS_BOOT = 1 → s.flag Power.b Power.PD_STAT_DENIED = false →
      ∃ t, exec i s = .next t ∧ t.jtag.test = false ∧ t.jtag.ir = code ∧ t.inReset = [] ∧ t.get 0 Sys.RESET_CAUSE_KIND = 5 ∧
        t.base = s.base ∧ t.ts = s.ts
    (∃ t, exec (.extest cells) s = .next t ∧ stays t 0x00 cells) ∧ (∃ t, exec .clamp s = .next t ∧ stays t 0x03 s.jtag.bsr) ∧
    (∃ t, exec .highz s = .next t ∧ stays t 0x04 s.jtag.bsr) ∧
    leaves (.samplePreload cells) 0x01 ∧ leaves .idcode 0x02 ∧ leaves (.bypass 0x1F) 0x1F ∧ leaves .testModeExit 0x1F) ∧
  (∀ (a v : Word) (write : Bool) (s : State), s.Quiet → s.pwr.asleep = false → s.jtag.test = false → s.held = [] →
    let loaded (res : Nat) (d : Nat) : State := { s with jtag := { s.jtag with ir := 0x08, res := res, data := d } }
    (a.toNat % 4 ≠ 0 → exec (.dbgacc a v write) s = .next (loaded 1 (if write then v.toNat else 0))) ∧
    (a.toNat % 4 = 0 → s.isReset .fabric = false → (s.get 0 Sys.DBG_STAT_SCOPE).testBit 0 = false →
      a.toNat / 0x1000 ≠ 0x40000 → exec (.dbgacc a v write) s = .next (loaded 2 s.jtag.data)) ∧
    (a.toNat % 4 = 0 → s.running .fabric = true → (s.get 0 Sys.DBG_STAT_SCOPE).testBit 0 = true → s.Clean →
      inSramArea a.toNat 4 = true →
        (write = false → exec (.dbgacc a v write) s = .next (loaded 0 (s.numAt a.toNat 4))) ∧
        (write = true → ∃ t, exec (.dbgacc a v write) s = .next t ∧ t.jtag = (loaded 0 v.toNat).jtag ∧ t.numAt a.toNat 4 = v.toNat ∧
          ∀ x, x < a.toNat ∨ a.toNat + 4 ≤ x → t.byte x = s.byte x))) ∧
  (∀ (req : Req) (s : State), s.Quiet → s.Writable req 0x0F0 →
    let b := pg 0x0F0
    (s.en 0x0F0 = true → s.en 0x048 = false → s.flag b Test.PRBS_CTL_PRBS_EN = false →
      Cmd.Sets (.prbsEnable req true) s [b + 0x40, b + 0x44] (fun t => t.flag b Test.TEST_STAT_PRBS_ON = true ∧
        t.flag b Test.PRBS_CTL_PRBS_EN = true)) ∧
    (s.flag b Test.PRBS_CTL_PRBS_EN = true → Cmd.Sets (.prbsEnable req false) s [b + 0x40, b + 0x44] (fun t =>
      t.flag b Test.TEST_STAT_PRBS_ON = false ∧ t.flag b Test.TEST_STAT_LOCK_SYNC = false ∧
      t.flag b Test.TEST_STAT_LOCK_DRX0 = false ∧ t.flag b Test.TEST_STAT_LOCK_DRX1 = false)) ∧
    (s.en 0x0F0 = true → s.en 0x048 = true → s.get b H.CODE = 0 → ∃ t, exec (.prbsEnable req true) s = .next t ∧
      t.get b H.CODE = 0x41 ∧ t.flag b Test.TEST_STAT_PRBS_ON = s.flag b Test.TEST_STAT_PRBS_ON) ∧
    (∃ t, exec (.prbsCntClr req) s = .next t ∧ t.get b Test.SYNC_ERR_SYNC = 0 ∧ t.get b Test.PRBS_ERR_DRX0 = 0 ∧
      t.get b Test.PRBS_ERR_DRX1 = 0 ∧ t.mem = s.mem)) ∧
  (∀ (k : Fin 3) (n : BitVec 16) (s : State), Test.on s = true →
    let b := pg 0x0F0
    let e := s.get b (Test.errs k.val)
    exec (.prbsCheckerLock k) s = .next (s.put b (Test.lock k.val) 1) ∧
    (s.flag b (Test.lock k.val) = true → 16 ≤ n.toNat → ∃ t, exec (.prbsUnlock k n) s = .next t ∧
      t.get b (Test.errs k.val) = min (e + n.toNat) 65535 ∧ t.flag b (Test.lock k.val) = false ∧
      (t.get b H.IRQ_RAW).testBit 1 = true ∧ (e = 0 → (t.get b H.IRQ_RAW).testBit 0 = true) ∧ t = { s with regs := t.regs }) ∧
    (s.flag b (Test.lock k.val) = false → exec (.prbsUnlock k n) s = .next s))
end

