-- ==== Sys2Proof/Laws/Bits.lean ====
section
/-! SUPPORT. Bit fields: reading a field after storing it, or another field. -/

namespace Sys2Proof.Machine

theorem putBits_testBit (v lo w x i : Nat) :
    (putBits v lo w x).testBit i =
      if i < lo then v.testBit i else if i < lo + w then x.testBit (i - lo) else v.testBit i := by
  have e : putBits v lo w x = 2 ^ lo * (2 ^ w * (v >>> (lo + w)) + x % 2 ^ w) + v % 2 ^ lo := by
    unfold putBits
    ring
  rw [e, Nat.testBit_two_pow_mul_add _ (Nat.mod_lt _ (Nat.two_pow_pos _)),
    Nat.testBit_two_pow_mul_add _ (Nat.mod_lt _ (Nat.two_pow_pos _))]
  simp only [Nat.testBit_mod_two_pow, Nat.testBit_shiftRight]
  by_cases h1 : i < lo
  · simp [h1]
  · by_cases h2 : i < lo + w
    · have : i - lo < w := by omega
      simp [h1, h2, this]
    · have : ¬ i - lo < w := by omega
      have e2 : lo + w + (i - lo - w) = i := by omega
      simp [h1, h2, this, e2]

theorem bitsOf_testBit (v lo w i : Nat) : (bitsOf v lo w).testBit i = (decide (i < w) && v.testBit (lo + i)) := by
  simp [bitsOf, Nat.testBit_mod_two_pow, Nat.testBit_shiftRight]

/-- The field just stored. -/
@[simp] theorem bitsOf_putBits (v lo w x : Nat) : bitsOf (putBits v lo w x) lo w = x % 2 ^ w := by
  apply Nat.eq_of_testBit_eq
  intro i
  rw [bitsOf_testBit, putBits_testBit, Nat.testBit_mod_two_pow]
  by_cases h : i < w
  · have h1 : ¬ lo + i < lo := by omega
    have h2 : lo + i < lo + w := by omega
    simp [h]
  · simp [h]

/-- A field elsewhere in the word. -/
theorem bitsOf_putBits_ne (v lo w x lo' w' : Nat) (h : lo' + w' ≤ lo ∨ lo + w ≤ lo') :
    bitsOf (putBits v lo w x) lo' w' = bitsOf v lo' w' := by
  apply Nat.eq_of_testBit_eq
  intro i
  rw [bitsOf_testBit, bitsOf_testBit, putBits_testBit]
  by_cases hi : i < w'
  · rcases h with h | h
    · have h1 : lo' + i < lo := by omega
      simp [h1]
    · have h1 : ¬ lo' + i < lo := by omega
      have h2 : ¬ lo' + i < lo + w := by omega
      simp [h1, h2]
  · simp [hi]

theorem bitsOf_lt (v lo w : Nat) : bitsOf v lo w < 2 ^ w := Nat.mod_lt _ (Nat.two_pow_pos _)

/-- A stored number stays inside its words. -/
theorem putBits_lt {v lo w x n : Nat} (h : lo + w ≤ n) (hv : v < 2 ^ n) : putBits v lo w x < 2 ^ n := by
  apply Nat.lt_pow_two_of_testBit
  intro i hi
  rw [putBits_testBit]
  have h1 : ¬ i < lo := by omega
  have h2 : ¬ i < lo + w := by omega
  simp only [h1, h2, if_false]
  exact Nat.testBit_lt_two_pow (lt_of_lt_of_le hv (Nat.pow_le_pow_right (by norm_num) hi))

/-- A field read only depends on the bits below its end. -/
theorem bitsOf_mod {v lo w n : Nat} (h : lo + w ≤ n) : bitsOf (v % 2 ^ n) lo w = bitsOf v lo w := by
  apply Nat.eq_of_testBit_eq
  intro i
  rw [bitsOf_testBit, bitsOf_testBit, Nat.testBit_mod_two_pow]
  by_cases hi : i < w
  · have : lo + i < n := by omega
    simp [hi, this]
  · simp [hi]

end Sys2Proof.Machine
end

