-- ==== Sys2Proof/Laws/Tab.lean ====
section
/-! SUPPORT. Sparse tables: reading after writing, and the canonical form is kept by every table operation. -/

namespace Sys2Proof.Machine

variable {α : Type}

/-- The canonical form as a proposition about the head and the rest: what the inductions below use. -/
theorem Tab.sorted_cons (a : Nat) (v : α) (t : List (Nat × α)) :
    Tab.sorted ((a, v) :: t) = true ↔ (∀ e ∈ t, a < e.1) ∧ Tab.sorted t = true := by
  induction t generalizing a v with
  | nil => simp [Tab.sorted]
  | cons e t ih =>
    obtain ⟨b, y⟩ := e
    simp only [Tab.sorted, Bool.and_eq_true, decide_eq_true_eq, List.mem_cons, forall_eq_or_imp]
    rw [ih b y]
    constructor
    · rintro ⟨h, h1, h2⟩
      exact ⟨⟨h, fun e he => lt_trans h (h1 e he)⟩, h1, h2⟩
    · rintro ⟨⟨h, _⟩, h1, h2⟩
      exact ⟨h, h1, h2⟩

/-- A removed key leaves a subset. -/
theorem Tab.mem_del {t : List (Nat × α)} {k : Nat} {e : Nat × α} (h : e ∈ Tab.del t k) : e ∈ t := by
  induction t with
  | nil => simp [Tab.del] at h
  | cons x t ih =>
    obtain ⟨a, v⟩ := x
    unfold Tab.del at h
    split at h
    · exact List.mem_cons_of_mem _ (ih h)
    · rcases List.mem_cons.1 h with h | h
      · exact h ▸ List.mem_cons_self
      · exact List.mem_cons_of_mem _ (ih h)

/-- What an insertion holds: the new pair and old ones. -/
theorem Tab.mem_ins {t : List (Nat × α)} {k : Nat} {v : α} {e : Nat × α} (h : e ∈ Tab.ins t k v) : e = (k, v) ∨ e ∈ t := by
  induction t with
  | nil => simp_all [Tab.ins]
  | cons x t ih =>
    obtain ⟨a, w⟩ := x
    unfold Tab.ins at h
    split at h
    · simpa using h
    · split at h
      · rcases List.mem_cons.1 h with h | h
        · exact .inl h
        · exact .inr (List.mem_cons_of_mem _ h)
      · rcases List.mem_cons.1 h with h | h
        · exact .inr (h ▸ List.mem_cons_self)
        · exact (ih h).imp id (List.mem_cons_of_mem _)

theorem Tab.sorted_del {t : List (Nat × α)} (h : Tab.sorted t = true) (k : Nat) : Tab.sorted (Tab.del t k) = true := by
  induction t with
  | nil => simp [Tab.del, Tab.sorted]
  | cons x t ih =>
    obtain ⟨a, v⟩ := x
    rw [Tab.sorted_cons] at h
    unfold Tab.del
    split
    · exact ih h.2
    · rw [Tab.sorted_cons]
      exact ⟨fun e he => h.1 e (Tab.mem_del he), ih h.2⟩

theorem Tab.sorted_ins {t : List (Nat × α)} (h : Tab.sorted t = true) (k : Nat) (v : α) :
    Tab.sorted (Tab.ins t k v) = true := by
  induction t with
  | nil => simp [Tab.ins, Tab.sorted]
  | cons x t ih =>
    obtain ⟨a, w⟩ := x
    have h' := h
    rw [Tab.sorted_cons] at h
    unfold Tab.ins
    split
    · rename_i hk
      rw [Tab.sorted_cons]
      refine ⟨?_, h'⟩
      intro e he
      rcases List.mem_cons.1 he with he | he
      · exact he ▸ hk
      · exact lt_trans hk (h.1 e he)
    · split
      · rename_i hk
        rw [Tab.sorted_cons]
        exact ⟨fun e he => hk ▸ h.1 e he, h.2⟩
      · rw [Tab.sorted_cons]
        refine ⟨?_, ih h.2⟩
        intro e he
        rcases Tab.mem_ins he with he | he
        · subst he; simp only; omega
        · exact h.1 e he

variable [DecidableEq α]

theorem Tab.wf_iff (d : Nat → α) (t : List (Nat × α)) :
    Tab.wf d t = true ↔ Tab.sorted t = true ∧ ∀ e ∈ t, e.2 ≠ d e.1 := by
  simp [Tab.wf]

theorem Tab.wf_nil (d : Nat → α) : Tab.wf d [] = true := rfl

/-- Writing a key keeps the canonical form. -/
theorem Tab.wf_set {d : Nat → α} {t : List (Nat × α)} (h : Tab.wf d t = true) (k : Nat) (v : α) :
    Tab.wf d (Tab.set d t k v) = true := by
  rw [Tab.wf_iff] at h ⊢
  unfold Tab.set
  split
  · exact ⟨Tab.sorted_del h.1 k, fun e he => h.2 e (Tab.mem_del he)⟩
  · rename_i hv
    refine ⟨Tab.sorted_ins h.1 k v, fun e he => ?_⟩
    rcases Tab.mem_ins he with he | he
    · subst he; exact hv
    · exact h.2 e he

/-- A table cut down by a condition on its entries stays canonical. -/
theorem Tab.wf_filter {d : Nat → α} {t : List (Nat × α)} (h : Tab.wf d t = true) (p : Nat × α → Bool) :
    Tab.wf d (t.filter p) = true := by
  rw [Tab.wf_iff] at h ⊢
  refine ⟨?_, fun e he => h.2 e (List.mem_of_mem_filter he)⟩
  have hs := h.1
  clear h
  induction t with
  | nil => rfl
  | cons x t ih =>
    obtain ⟨a, v⟩ := x
    rw [Tab.sorted_cons] at hs
    simp only [List.filter_cons]
    split
    · rw [Tab.sorted_cons]
      exact ⟨fun e he => hs.1 e (List.mem_of_mem_filter he), ih hs.2⟩
    · exact ih hs.2

/-- Clearing a range of keys keeps the canonical form. -/
theorem Tab.wf_clearRange {d : Nat → α} {t : List (Nat × α)} (h : Tab.wf d t = true) (lo hi : Nat) :
    Tab.wf d (Tab.clearRange lo hi t) = true := Tab.wf_filter h _

omit [DecidableEq α] in
/-- Tables whose keys lie in rising ranges join to a sorted one. -/
theorem Tab.sorted_append {t u : List (Nat × α)} (ht : Tab.sorted t = true) (hu : Tab.sorted u = true)
    (h : ∀ e ∈ t, ∀ f ∈ u, e.1 < f.1) : Tab.sorted (t ++ u) = true := by
  induction t with
  | nil => exact hu
  | cons x t ih =>
    obtain ⟨a, v⟩ := x
    rw [Tab.sorted_cons] at ht
    rw [List.cons_append, Tab.sorted_cons]
    refine ⟨fun e he => ?_, ih ht.2 (fun e he => h e (List.mem_cons_of_mem _ he))⟩
    rcases List.mem_append.1 he with he | he
    · exact ht.1 e he
    · exact h (a, v) List.mem_cons_self e he

/-- Copying a range of keys keeps the canonical form. -/
theorem Tab.wf_copyRange {d : Nat → α} {src dst : List (Nat × α)} (hs : Tab.wf d src = true) (hd : Tab.wf d dst = true)
    (lo hi : Nat) : Tab.wf d (Tab.copyRange lo hi src dst) = true := by
  have h1 := Tab.wf_filter hd (fun e => decide (e.1 < lo))
  have h2 := Tab.wf_filter hs (fun e => decide (lo ≤ e.1 ∧ e.1 < hi))
  have h3 := Tab.wf_filter hd (fun e => decide (lo ≤ e.1 ∧ hi ≤ e.1))
  rw [Tab.wf_iff] at h1 h2 h3 ⊢
  unfold Tab.copyRange
  refine ⟨Tab.sorted_append (Tab.sorted_append h1.1 h2.1 ?_) h3.1 ?_, ?_⟩
  · intro e he f hf
    simp at he hf
    omega
  · intro e he f hf
    simp at he hf
    rcases he with he | he <;> omega
  · intro e he
    rcases List.mem_append.1 he with he | he
    · rcases List.mem_append.1 he with he | he
      · exact h1.2 e he
      · exact h2.2 e he
    · exact h3.2 e he

omit [DecidableEq α] in
theorem Tab.get_ins_same (d : Nat → α) (t : List (Nat × α)) (k : Nat) (v : α) : Tab.get d (Tab.ins t k v) k = v := by
  induction t with
  | nil => simp [Tab.ins, Tab.get]
  | cons x t ih =>
    obtain ⟨a, w⟩ := x
    unfold Tab.ins
    split
    · simp [Tab.get]
    · split
      · simp [Tab.get]
      · rename_i h
        simp [Tab.get, h, ih]

omit [DecidableEq α] in
theorem Tab.get_ins_ne (d : Nat → α) (t : List (Nat × α)) {k j : Nat} (v : α) (h : j ≠ k) :
    Tab.get d (Tab.ins t k v) j = Tab.get d t j := by
  induction t with
  | nil => simp [Tab.ins, Tab.get, Ne.symm h]
  | cons x t ih =>
    obtain ⟨a, w⟩ := x
    unfold Tab.ins
    split
    · simp [Tab.get, Ne.symm h]
    · split
      · rename_i ha
        simp [Tab.get, Ne.symm h, ha]
      · simp [Tab.get, ih]

omit [DecidableEq α] in
theorem Tab.get_del_ne (d : Nat → α) (t : List (Nat × α)) {k j : Nat} (h : j ≠ k) :
    Tab.get d (Tab.del t k) j = Tab.get d t j := by
  induction t with
  | nil => rfl
  | cons x t ih =>
    obtain ⟨a, w⟩ := x
    unfold Tab.del
    split
    · rename_i ha
      simp [Tab.get, ha, Ne.symm h, ih]
    · simp [Tab.get, ih]

omit [DecidableEq α] in
theorem Tab.get_del_same (d : Nat → α) (t : List (Nat × α)) (k : Nat) : Tab.get d (Tab.del t k) k = d k := by
  induction t with
  | nil => rfl
  | cons x t ih =>
    obtain ⟨a, w⟩ := x
    unfold Tab.del
    split
    · exact ih
    · rename_i ha
      simp [Tab.get, ha, ih]

/-- Reading another key. -/
theorem Tab.get_set_ne (d : Nat → α) (t : List (Nat × α)) {k j : Nat} (v : α) (h : j ≠ k) :
    Tab.get d (Tab.set d t k v) j = Tab.get d t j := by
  unfold Tab.set
  split
  · exact Tab.get_del_ne d t h
  · exact Tab.get_ins_ne d t v h

/-- Reading the key just written. -/
@[simp] theorem Tab.get_set_same (d : Nat → α) (t : List (Nat × α)) (k : Nat) (v : α) :
    Tab.get d (Tab.set d t k v) k = v := by
  unfold Tab.set
  split
  · rename_i h
    rw [Tab.get_del_same, h]
  · exact Tab.get_ins_same d t k v

/-- Reading any key after a write. -/
theorem Tab.get_set (d : Nat → α) (t : List (Nat × α)) (k j : Nat) (v : α) :
    Tab.get d (Tab.set d t k v) j = if j = k then v else Tab.get d t j := by
  split
  · rename_i h
    rw [h, Tab.get_set_same]
  · rename_i h
    exact Tab.get_set_ne d t v h

/-- A canonical table is sorted. -/
theorem Tab.sorted_of_wf {d : Nat → α} {t : List (Nat × α)} (h : Tab.wf d t = true) : Tab.sorted t = true :=
  ((Tab.wf_iff d t).1 h).1

end Sys2Proof.Machine
end

