-- ==== Sys2Proof/Laws/Reg.lean ====
section
/-! SUPPORT. Registers: what a store of a word or field leaves in every word and field, and that it changes nothing else. -/

namespace Sys2Proof.Machine

theorem State.reg_setReg (s : State) (a v x : Nat) :
    (s.setReg a v).reg x = if x = a then BitVec.ofNat 32 v else s.reg x := Tab.get_set _ _ _ _ _

theorem State.wreg_setWreg (s : State) (a v x : Nat) :
    (s.setWreg a v).wreg x = if x = a then BitVec.ofNat 32 v else s.wreg x := Tab.get_set _ _ _ _ _

@[simp] theorem State.reg_setReg_same (s : State) (a v : Nat) : (s.setReg a v).reg a = BitVec.ofNat 32 v := by
  simp [State.reg_setReg]

theorem State.reg_setReg_ne (s : State) {a x : Nat} (v : Nat) (h : x ≠ a) : (s.setReg a v).reg x = s.reg x := by
  simp [State.reg_setReg, h]

/-- Every word after a store of `n` words. -/
theorem State.reg_setWords (s : State) (a v n x : Nat) :
    (s.setWords a v n).reg x =
      if a ≤ x ∧ x < a + 4 * n ∧ (x - a) % 4 = 0 then BitVec.ofNat 32 (v / 2 ^ (32 * ((x - a) / 4))) else s.reg x := by
  induction n generalizing s a v with
  | zero => simp [State.setWords]; omega
  | succ n ih =>
    rw [State.setWords, ih]
    by_cases h : a + 4 ≤ x ∧ x < a + 4 + 4 * n ∧ (x - (a + 4)) % 4 = 0
    · rw [if_pos h, if_pos (by omega)]
      have e : (x - a) / 4 = (x - (a + 4)) / 4 + 1 := by omega
      rw [e, Nat.mul_add, Nat.pow_add, Nat.div_div_eq_div_mul, mul_comm (2 ^ (32 * _))]
    · rw [if_neg h]
      by_cases hx : x = a
      · subst hx
        rw [if_pos (by omega)]
        simp only [Nat.sub_self, Nat.zero_div, Nat.mul_zero, Nat.pow_zero, Nat.div_one]
        rw [State.reg_setReg_same]
        apply BitVec.eq_of_toNat_eq
        simp
      · rw [State.reg_setReg_ne _ _ hx, if_neg]
        intro h'
        apply h
        omega

/-- Words read from a place only depend on those words. -/
theorem State.wordsAt_congr {s t : State} {a n : Nat} (h : ∀ i < n, s.reg (a + 4 * i) = t.reg (a + 4 * i)) :
    s.wordsAt a n = t.wordsAt a n := by
  induction n generalizing a with
  | zero => rfl
  | succ n ih =>
    have h0 := h 0 (Nat.succ_pos n)
    simp only [Nat.mul_zero, Nat.add_zero] at h0
    unfold State.wordsAt State.regN
    rw [h0, ih (fun i hi => by have := h (i + 1) (by omega); rw [show a + 4 + 4 * i = a + 4 * (i + 1) by ring]; exact this)]

theorem State.wordsAt_lt (s : State) (a n : Nat) : s.wordsAt a n < 2 ^ (32 * n) := by
  induction n generalizing a with
  | zero => simp [State.wordsAt]
  | succ n ih =>
    unfold State.wordsAt State.regN
    have h1 := (s.reg a).isLt
    have h2 := ih (a + 4)
    rw [Nat.mul_add, Nat.pow_add]
    have : 2 ^ (32 * n) * 2 ^ (32 * 1) = 2 ^ 32 * 2 ^ (32 * n) := by ring
    rw [this]
    generalize 2 ^ (32 * n) = k at *
    nlinarith

/-- The words just stored. -/
theorem State.wordsAt_setWords (s : State) (a v n : Nat) : (s.setWords a v n).wordsAt a n = v % 2 ^ (32 * n) := by
  have key : ∀ (k : Nat) (b : Nat) (t : State) (u : Nat),
      (∀ i < k, t.reg (b + 4 * i) = BitVec.ofNat 32 (u / 2 ^ (32 * i))) → t.wordsAt b k = u % 2 ^ (32 * k) := by
    intro k
    induction k with
    | zero => intro b t u _; simp [State.wordsAt, Nat.mod_one]
    | succ k ih =>
      intro b t u h
      have h0 := h 0 (Nat.succ_pos k)
      simp only [Nat.mul_zero, Nat.add_zero, Nat.pow_zero, Nat.div_one] at h0
      have h1 := ih (b + 4) t (u / 2 ^ 32) (fun i hi => by
        have := h (i + 1) (by omega)
        rw [show b + 4 + 4 * i = b + 4 * (i + 1) by ring, this, Nat.mul_add, Nat.pow_add, Nat.div_div_eq_div_mul,
          mul_comm (2 ^ (32 * i))])
      unfold State.wordsAt State.regN
      rw [h0, h1, BitVec.toNat_ofNat]
      have e : 2 ^ (32 * (k + 1)) = 2 ^ 32 * 2 ^ (32 * k) := by rw [Nat.mul_add, Nat.pow_add]; ring
      rw [e, Nat.mod_mul]
  apply key
  intro i hi
  rw [State.reg_setWords, if_pos (by omega)]
  congr 3
  omega

/-- Storing a field changes the registers only. -/
theorem State.setWords_only (s : State) (a v n : Nat) : s.setWords a v n = { s with regs := (s.setWords a v n).regs } := by
  induction n generalizing s a v with
  | zero => rfl
  | succ n ih =>
    rw [State.setWords, ih]
    rfl

theorem State.put_only (s : State) (b : Nat) (f : Fld) (v : Nat) : s.put b f v = { s with regs := (s.put b f v).regs } :=
  State.setWords_only _ _ _ _

/-- Words that a field occupies. -/
def Fld.words (f : Fld) : Nat := (f.lo + f.w + 31) / 32

theorem State.put_eq (s : State) (b : Nat) (f : Fld) (v : Nat) :
    s.put b f v = s.setWords (b + f.off) (putBits (s.wordsAt (b + f.off) f.words) f.lo f.w v) f.words := rfl

theorem State.get_eq (s : State) (b : Nat) (f : Fld) :
    s.get b f = bitsOf (s.wordsAt (b + f.off) f.words) f.lo f.w := rfl

/-- The field just stored, cut to its width. -/
@[simp] theorem State.get_put_same (s : State) (b : Nat) (f : Fld) (v : Nat) : (s.put b f v).get b f = v % 2 ^ f.w := by
  rw [State.put_eq, State.get_eq, State.wordsAt_setWords, bitsOf_mod, bitsOf_putBits]
  unfold Fld.words
  omega

/-- A word outside the words of the stored field. -/
theorem State.reg_put_ne (s : State) (b : Nat) (f : Fld) (v x : Nat) (h : x < b + f.off ∨ b + f.off + 4 * f.words ≤ x) :
    (s.put b f v).reg x = s.reg x := by
  rw [State.put_eq, State.reg_setWords, if_neg]
  omega

/-- A field in other words. -/
theorem State.get_put_ne (s : State) (b c : Nat) (f g : Fld) (v : Nat)
    (h : c + g.off + 4 * g.words ≤ b + f.off ∨ b + f.off + 4 * f.words ≤ c + g.off) :
    (s.put b f v).get c g = s.get c g := by
  rw [State.get_eq, State.get_eq, State.wordsAt_congr]
  intro i hi
  apply State.reg_put_ne
  omega

/-- A field in other bits of the same word. -/
theorem State.get_put_bits (s : State) (b c : Nat) (f g : Fld) (v : Nat) (ha : b + f.off = c + g.off)
    (hf : f.lo + f.w ≤ 32) (hg : g.lo + g.w ≤ 32) (hf0 : 0 < f.lo + f.w) (hg0 : 0 < g.lo + g.w)
    (h : g.lo + g.w ≤ f.lo ∨ f.lo + f.w ≤ g.lo) : (s.put b f v).get c g = s.get c g := by
  have wf : f.words = 1 := by unfold Fld.words; omega
  have wg : g.words = 1 := by unfold Fld.words; omega
  rw [State.get_eq, State.get_eq, State.put_eq, wf, wg, ← ha, State.wordsAt_setWords, bitsOf_mod (by omega),
    bitsOf_putBits_ne _ _ _ _ _ _ h]

/-- A field read is below 2^width. -/
theorem State.get_lt (s : State) (b : Nat) (f : Fld) : s.get b f < 2 ^ f.w := bitsOf_lt _ _ _

@[simp] theorem State.flag_put_same (s : State) (b : Nat) (f : Fld) (v : Nat) : (s.put b f v).flag b f = (v % 2 ^ f.w != 0) := by
  simp [State.flag]

@[simp] theorem State.flag_putB_same (s : State) (b o lo : Nat) (v : Bool) :
    (s.putB b ⟨o, lo, 1⟩ v).flag b ⟨o, lo, 1⟩ = v := by
  cases v <;> simp [State.putB, b2n]

/-- Raising an event sets its bit and keeps the others. -/
theorem State.get_raise (s : State) (p n : Nat) :
    (s.raise p n).get (pg p) H.IRQ_RAW = (s.get (pg p) H.IRQ_RAW ||| 2 ^ n) % 2 ^ 32 := State.get_put_same _ _ _ _

/-- Reads of the registers only depend on the registers. -/
theorem State.get_congr {s t : State} (h : s.regs = t.regs) (b : Nat) (f : Fld) : s.get b f = t.get b f := by
  unfold State.get
  rw [State.wordsAt_congr]
  intro i _
  unfold State.reg
  rw [h]

end Sys2Proof.Machine
end

