-- ==== Sys2Proof/Laws/State.lean ====
section
/-! SUPPORT. What the named updates of State leave as it was: one lemma per field and update, so that no proof unfolds a record
update. -/

namespace Sys2Proof.Machine

/-- An event changes the registers only. -/
theorem State.raise_only (s : State) (p n : Nat) : s.raise p n = { s with regs := (s.raise p n).regs } := State.put_only _ _ _ _

/-- An error log changes the registers only. -/
theorem State.logErr_only (s : State) (p code a req : Nat) :
    s.logErr p code a req = { s with regs := (s.logErr p code a req).regs } := by
  unfold State.logErr
  dsimp only
  split
  · rw [State.raise_only, State.put_only, State.put_only, State.put_only s]
  · exact State.put_only _ _ _ _

/-! ### setReg -/

@[simp] theorem State.setReg_pending (s : State) (a v : Nat) : (s.setReg a v).pending = s.pending := rfl
@[simp] theorem State.setReg_fresh (s : State) (a v : Nat) : (s.setReg a v).fresh = s.fresh := rfl
@[simp] theorem State.setReg_resp (s : State) (a v : Nat) : (s.setReg a v).resp = s.resp := rfl
@[simp] theorem State.setReg_work (s : State) (a v : Nat) : (s.setReg a v).work = s.work := rfl
@[simp] theorem State.setReg_capt (s : State) (a v : Nat) : (s.setReg a v).capt = s.capt := rfl
@[simp] theorem State.setReg_once (s : State) (a v : Nat) : (s.setReg a v).once = s.once := rfl
@[simp] theorem State.setReg_armed (s : State) (a v : Nat) : (s.setReg a v).armed = s.armed := rfl
@[simp] theorem State.setReg_held (s : State) (a v : Nat) : (s.setReg a v).held = s.held := rfl
@[simp] theorem State.setReg_swi (s : State) (a v : Nat) : (s.setReg a v).swi = s.swi := rfl
@[simp] theorem State.setReg_inReset (s : State) (a v : Nat) : (s.setReg a v).inReset = s.inReset := rfl
@[simp] theorem State.setReg_stalled (s : State) (a v : Nat) : (s.setReg a v).stalled = s.stalled := rfl
@[simp] theorem State.setReg_onBackup (s : State) (a v : Nat) : (s.setReg a v).onBackup = s.onBackup := rfl
@[simp] theorem State.setReg_mem (s : State) (a v : Nat) : (s.setReg a v).mem = s.mem := rfl
@[simp] theorem State.setReg_eccBad (s : State) (a v : Nat) : (s.setReg a v).eccBad = s.eccBad := rfl
@[simp] theorem State.setReg_base (s : State) (a v : Nat) : (s.setReg a v).base = s.base := rfl
@[simp] theorem State.setReg_rfLast (s : State) (a v : Nat) : (s.setReg a v).rfLast = s.rfLast := rfl
@[simp] theorem State.setReg_chains (s : State) (a v : Nat) : (s.setReg a v).chains = s.chains := rfl
@[simp] theorem State.setReg_osc (s : State) (a v : Nat) : (s.setReg a v).osc = s.osc := rfl
@[simp] theorem State.setReg_validLog (s : State) (a v : Nat) : (s.setReg a v).validLog = s.validLog := rfl
@[simp] theorem State.setReg_snap (s : State) (a v : Nat) : (s.setReg a v).snap = s.snap := rfl
@[simp] theorem State.setReg_tags (s : State) (a v : Nat) : (s.setReg a v).tags = s.tags := rfl
@[simp] theorem State.setReg_jobs (s : State) (a v : Nat) : (s.setReg a v).jobs = s.jobs := rfl
@[simp] theorem State.setReg_smpZ (s : State) (a v : Nat) : (s.setReg a v).smpZ = s.smpZ := rfl
@[simp] theorem State.setReg_chan (s : State) (a v : Nat) : (s.setReg a v).chan = s.chan := rfl
@[simp] theorem State.setReg_dumpFifo (s : State) (a v : Nat) : (s.setReg a v).dumpFifo = s.dumpFifo := rfl
@[simp] theorem State.setReg_grpAt (s : State) (a v : Nat) : (s.setReg a v).grpAt = s.grpAt := rfl
@[simp] theorem State.setReg_grpArmed (s : State) (a v : Nat) : (s.setReg a v).grpArmed = s.grpArmed := rfl
@[simp] theorem State.setReg_codeLog (s : State) (a v : Nat) : (s.setReg a v).codeLog = s.codeLog := rfl
@[simp] theorem State.setReg_code (s : State) (a v : Nat) : (s.setReg a v).code = s.code := rfl
@[simp] theorem State.setReg_codeBad (s : State) (a v : Nat) : (s.setReg a v).codeBad = s.codeBad := rfl
@[simp] theorem State.setReg_crcRun (s : State) (a v : Nat) : (s.setReg a v).crcRun = s.crcRun := rfl
@[simp] theorem State.setReg_crcAcc (s : State) (a v : Nat) : (s.setReg a v).crcAcc = s.crcAcc := rfl
@[simp] theorem State.setReg_latch (s : State) (a v : Nat) : (s.setReg a v).latch = s.latch := rfl
@[simp] theorem State.setReg_measPrev (s : State) (a v : Nat) : (s.setReg a v).measPrev = s.measPrev := rfl
@[simp] theorem State.setReg_measSeq (s : State) (a v : Nat) : (s.setReg a v).measSeq = s.measSeq := rfl
@[simp] theorem State.setReg_measMissed (s : State) (a v : Nat) : (s.setReg a v).measMissed = s.measMissed := rfl
@[simp] theorem State.setReg_cdl (s : State) (a v : Nat) : (s.setReg a v).cdl = s.cdl := rfl
@[simp] theorem State.setReg_arr (s : State) (a v : Nat) : (s.setReg a v).arr = s.arr := rfl
@[simp] theorem State.setReg_ts (s : State) (a v : Nat) : (s.setReg a v).ts = s.ts := rfl
@[simp] theorem State.setReg_tsSt (s : State) (a v : Nat) : (s.setReg a v).tsSt = s.tsSt := rfl
@[simp] theorem State.setReg_updLast (s : State) (a v : Nat) : (s.setReg a v).updLast = s.updLast := rfl
@[simp] theorem State.setReg_secLast (s : State) (a v : Nat) : (s.setReg a v).secLast = s.secLast := rfl
@[simp] theorem State.setReg_ents (s : State) (a v : Nat) : (s.setReg a v).ents = s.ents := rfl
@[simp] theorem State.setReg_acts (s : State) (a v : Nat) : (s.setReg a v).acts = s.acts := rfl
@[simp] theorem State.setReg_spanQ (s : State) (a v : Nat) : (s.setReg a v).spanQ = s.spanQ := rfl
@[simp] theorem State.setReg_padLog (s : State) (a v : Nat) : (s.setReg a v).padLog = s.padLog := rfl
@[simp] theorem State.setReg_spans (s : State) (a v : Nat) : (s.setReg a v).spans = s.spans := rfl
@[simp] theorem State.setReg_evtIn (s : State) (a v : Nat) : (s.setReg a v).evtIn = s.evtIn := rfl
@[simp] theorem State.setReg_evtFifo (s : State) (a v : Nat) : (s.setReg a v).evtFifo = s.evtFifo := rfl
@[simp] theorem State.setReg_evtSeq (s : State) (a v : Nat) : (s.setReg a v).evtSeq = s.evtSeq := rfl
@[simp] theorem State.setReg_evtLost (s : State) (a v : Nat) : (s.setReg a v).evtLost = s.evtLost := rfl
@[simp] theorem State.setReg_net (s : State) (a v : Nat) : (s.setReg a v).net = s.net := rfl
@[simp] theorem State.setReg_rad (s : State) (a v : Nat) : (s.setReg a v).rad = s.rad := rfl
@[simp] theorem State.setReg_wbuf (s : State) (a v : Nat) : (s.setReg a v).wbuf = s.wbuf := rfl
@[simp] theorem State.setReg_dcache (s : State) (a v : Nat) : (s.setReg a v).dcache = s.dcache := rfl
@[simp] theorem State.setReg_cores (s : State) (a v : Nat) : (s.setReg a v).cores = s.cores := rfl
@[simp] theorem State.setReg_icache (s : State) (a v : Nat) : (s.setReg a v).icache = s.icache := rfl
@[simp] theorem State.setReg_dma (s : State) (a v : Nat) : (s.setReg a v).dma = s.dma := rfl
@[simp] theorem State.setReg_dmaLast (s : State) (a v : Nat) : (s.setReg a v).dmaLast = s.dmaLast := rfl
@[simp] theorem State.setReg_dmaClear (s : State) (a v : Nat) : (s.setReg a v).dmaClear = s.dmaClear := rfl
@[simp] theorem State.setReg_fl (s : State) (a v : Nat) : (s.setReg a v).fl = s.fl := rfl
@[simp] theorem State.setReg_plls (s : State) (a v : Nat) : (s.setReg a v).plls = s.plls := rfl
@[simp] theorem State.setReg_refGood (s : State) (a v : Nat) : (s.setReg a v).refGood = s.refGood := rfl
@[simp] theorem State.setReg_refLost (s : State) (a v : Nat) : (s.setReg a v).refLost = s.refLost := rfl
@[simp] theorem State.setReg_synAt (s : State) (a v : Nat) : (s.setReg a v).synAt = s.synAt := rfl
@[simp] theorem State.setReg_loGateAt (s : State) (a v : Nat) : (s.setReg a v).loGateAt = s.loGateAt := rfl
@[simp] theorem State.setReg_vig (s : State) (a v : Nat) : (s.setReg a v).vig = s.vig := rfl
@[simp] theorem State.setReg_guards (s : State) (a v : Nat) : (s.setReg a v).guards = s.guards := rfl
@[simp] theorem State.setReg_pwr (s : State) (a v : Nat) : (s.setReg a v).pwr = s.pwr := rfl
@[simp] theorem State.setReg_spi (s : State) (a v : Nat) : (s.setReg a v).spi = s.spi := rfl
@[simp] theorem State.setReg_can (s : State) (a v : Nat) : (s.setReg a v).can = s.can := rfl
@[simp] theorem State.setReg_uart (s : State) (a v : Nat) : (s.setReg a v).uart = s.uart := rfl
@[simp] theorem State.setReg_i2c (s : State) (a v : Nat) : (s.setReg a v).i2c = s.i2c := rfl
@[simp] theorem State.setReg_jtag (s : State) (a v : Nat) : (s.setReg a v).jtag = s.jtag := rfl

/-! ### setWreg -/

@[simp] theorem State.setWreg_pending (s : State) (a v : Nat) : (s.setWreg a v).pending = s.pending := rfl
@[simp] theorem State.setWreg_fresh (s : State) (a v : Nat) : (s.setWreg a v).fresh = s.fresh := rfl
@[simp] theorem State.setWreg_resp (s : State) (a v : Nat) : (s.setWreg a v).resp = s.resp := rfl
@[simp] theorem State.setWreg_regs (s : State) (a v : Nat) : (s.setWreg a v).regs = s.regs := rfl
@[simp] theorem State.setWreg_capt (s : State) (a v : Nat) : (s.setWreg a v).capt = s.capt := rfl
@[simp] theorem State.setWreg_once (s : State) (a v : Nat) : (s.setWreg a v).once = s.once := rfl
@[simp] theorem State.setWreg_armed (s : State) (a v : Nat) : (s.setWreg a v).armed = s.armed := rfl
@[simp] theorem State.setWreg_held (s : State) (a v : Nat) : (s.setWreg a v).held = s.held := rfl
@[simp] theorem State.setWreg_swi (s : State) (a v : Nat) : (s.setWreg a v).swi = s.swi := rfl
@[simp] theorem State.setWreg_inReset (s : State) (a v : Nat) : (s.setWreg a v).inReset = s.inReset := rfl
@[simp] theorem State.setWreg_stalled (s : State) (a v : Nat) : (s.setWreg a v).stalled = s.stalled := rfl
@[simp] theorem State.setWreg_onBackup (s : State) (a v : Nat) : (s.setWreg a v).onBackup = s.onBackup := rfl
@[simp] theorem State.setWreg_mem (s : State) (a v : Nat) : (s.setWreg a v).mem = s.mem := rfl
@[simp] theorem State.setWreg_eccBad (s : State) (a v : Nat) : (s.setWreg a v).eccBad = s.eccBad := rfl
@[simp] theorem State.setWreg_base (s : State) (a v : Nat) : (s.setWreg a v).base = s.base := rfl
@[simp] theorem State.setWreg_rfLast (s : State) (a v : Nat) : (s.setWreg a v).rfLast = s.rfLast := rfl
@[simp] theorem State.setWreg_chains (s : State) (a v : Nat) : (s.setWreg a v).chains = s.chains := rfl
@[simp] theorem State.setWreg_osc (s : State) (a v : Nat) : (s.setWreg a v).osc = s.osc := rfl
@[simp] theorem State.setWreg_validLog (s : State) (a v : Nat) : (s.setWreg a v).validLog = s.validLog := rfl
@[simp] theorem State.setWreg_snap (s : State) (a v : Nat) : (s.setWreg a v).snap = s.snap := rfl
@[simp] theorem State.setWreg_tags (s : State) (a v : Nat) : (s.setWreg a v).tags = s.tags := rfl
@[simp] theorem State.setWreg_jobs (s : State) (a v : Nat) : (s.setWreg a v).jobs = s.jobs := rfl
@[simp] theorem State.setWreg_smpZ (s : State) (a v : Nat) : (s.setWreg a v).smpZ = s.smpZ := rfl
@[simp] theorem State.setWreg_chan (s : State) (a v : Nat) : (s.setWreg a v).chan = s.chan := rfl
@[simp] theorem State.setWreg_dumpFifo (s : State) (a v : Nat) : (s.setWreg a v).dumpFifo = s.dumpFifo := rfl
@[simp] theorem State.setWreg_grpAt (s : State) (a v : Nat) : (s.setWreg a v).grpAt = s.grpAt := rfl
@[simp] theorem State.setWreg_grpArmed (s : State) (a v : Nat) : (s.setWreg a v).grpArmed = s.grpArmed := rfl
@[simp] theorem State.setWreg_codeLog (s : State) (a v : Nat) : (s.setWreg a v).codeLog = s.codeLog := rfl
@[simp] theorem State.setWreg_code (s : State) (a v : Nat) : (s.setWreg a v).code = s.code := rfl
@[simp] theorem State.setWreg_codeBad (s : State) (a v : Nat) : (s.setWreg a v).codeBad = s.codeBad := rfl
@[simp] theorem State.setWreg_crcRun (s : State) (a v : Nat) : (s.setWreg a v).crcRun = s.crcRun := rfl
@[simp] theorem State.setWreg_crcAcc (s : State) (a v : Nat) : (s.setWreg a v).crcAcc = s.crcAcc := rfl
@[simp] theorem State.setWreg_latch (s : State) (a v : Nat) : (s.setWreg a v).latch = s.latch := rfl
@[simp] theorem State.setWreg_measPrev (s : State) (a v : Nat) : (s.setWreg a v).measPrev = s.measPrev := rfl
@[simp] theorem State.setWreg_measSeq (s : State) (a v : Nat) : (s.setWreg a v).measSeq = s.measSeq := rfl
@[simp] theorem State.setWreg_measMissed (s : State) (a v : Nat) : (s.setWreg a v).measMissed = s.measMissed := rfl
@[simp] theorem State.setWreg_cdl (s : State) (a v : Nat) : (s.setWreg a v).cdl = s.cdl := rfl
@[simp] theorem State.setWreg_arr (s : State) (a v : Nat) : (s.setWreg a v).arr = s.arr := rfl
@[simp] theorem State.setWreg_ts (s : State) (a v : Nat) : (s.setWreg a v).ts = s.ts := rfl
@[simp] theorem State.setWreg_tsSt (s : State) (a v : Nat) : (s.setWreg a v).tsSt = s.tsSt := rfl
@[simp] theorem State.setWreg_updLast (s : State) (a v : Nat) : (s.setWreg a v).updLast = s.updLast := rfl
@[simp] theorem State.setWreg_secLast (s : State) (a v : Nat) : (s.setWreg a v).secLast = s.secLast := rfl
@[simp] theorem State.setWreg_ents (s : State) (a v : Nat) : (s.setWreg a v).ents = s.ents := rfl
@[simp] theorem State.setWreg_acts (s : State) (a v : Nat) : (s.setWreg a v).acts = s.acts := rfl
@[simp] theorem State.setWreg_spanQ (s : State) (a v : Nat) : (s.setWreg a v).spanQ = s.spanQ := rfl
@[simp] theorem State.setWreg_padLog (s : State) (a v : Nat) : (s.setWreg a v).padLog = s.padLog := rfl
@[simp] theorem State.setWreg_spans (s : State) (a v : Nat) : (s.setWreg a v).spans = s.spans := rfl
@[simp] theorem State.setWreg_evtIn (s : State) (a v : Nat) : (s.setWreg a v).evtIn = s.evtIn := rfl
@[simp] theorem State.setWreg_evtFifo (s : State) (a v : Nat) : (s.setWreg a v).evtFifo = s.evtFifo := rfl
@[simp] theorem State.setWreg_evtSeq (s : State) (a v : Nat) : (s.setWreg a v).evtSeq = s.evtSeq := rfl
@[simp] theorem State.setWreg_evtLost (s : State) (a v : Nat) : (s.setWreg a v).evtLost = s.evtLost := rfl
@[simp] theorem State.setWreg_net (s : State) (a v : Nat) : (s.setWreg a v).net = s.net := rfl
@[simp] theorem State.setWreg_rad (s : State) (a v : Nat) : (s.setWreg a v).rad = s.rad := rfl
@[simp] theorem State.setWreg_wbuf (s : State) (a v : Nat) : (s.setWreg a v).wbuf = s.wbuf := rfl
@[simp] theorem State.setWreg_dcache (s : State) (a v : Nat) : (s.setWreg a v).dcache = s.dcache := rfl
@[simp] theorem State.setWreg_cores (s : State) (a v : Nat) : (s.setWreg a v).cores = s.cores := rfl
@[simp] theorem State.setWreg_icache (s : State) (a v : Nat) : (s.setWreg a v).icache = s.icache := rfl
@[simp] theorem State.setWreg_dma (s : State) (a v : Nat) : (s.setWreg a v).dma = s.dma := rfl
@[simp] theorem State.setWreg_dmaLast (s : State) (a v : Nat) : (s.setWreg a v).dmaLast = s.dmaLast := rfl
@[simp] theorem State.setWreg_dmaClear (s : State) (a v : Nat) : (s.setWreg a v).dmaClear = s.dmaClear := rfl
@[simp] theorem State.setWreg_fl (s : State) (a v : Nat) : (s.setWreg a v).fl = s.fl := rfl
@[simp] theorem State.setWreg_plls (s : State) (a v : Nat) : (s.setWreg a v).plls = s.plls := rfl
@[simp] theorem State.setWreg_refGood (s : State) (a v : Nat) : (s.setWreg a v).refGood = s.refGood := rfl
@[simp] theorem State.setWreg_refLost (s : State) (a v : Nat) : (s.setWreg a v).refLost = s.refLost := rfl
@[simp] theorem State.setWreg_synAt (s : State) (a v : Nat) : (s.setWreg a v).synAt = s.synAt := rfl
@[simp] theorem State.setWreg_loGateAt (s : State) (a v : Nat) : (s.setWreg a v).loGateAt = s.loGateAt := rfl
@[simp] theorem State.setWreg_vig (s : State) (a v : Nat) : (s.setWreg a v).vig = s.vig := rfl
@[simp] theorem State.setWreg_guards (s : State) (a v : Nat) : (s.setWreg a v).guards = s.guards := rfl
@[simp] theorem State.setWreg_pwr (s : State) (a v : Nat) : (s.setWreg a v).pwr = s.pwr := rfl
@[simp] theorem State.setWreg_spi (s : State) (a v : Nat) : (s.setWreg a v).spi = s.spi := rfl
@[simp] theorem State.setWreg_can (s : State) (a v : Nat) : (s.setWreg a v).can = s.can := rfl
@[simp] theorem State.setWreg_uart (s : State) (a v : Nat) : (s.setWreg a v).uart = s.uart := rfl
@[simp] theorem State.setWreg_i2c (s : State) (a v : Nat) : (s.setWreg a v).i2c = s.i2c := rfl
@[simp] theorem State.setWreg_jtag (s : State) (a v : Nat) : (s.setWreg a v).jtag = s.jtag := rfl

/-! ### setByte -/

@[simp] theorem State.setByte_pending (s : State) (a : Nat) (v : Byte) : (s.setByte a v).pending = s.pending := rfl
@[simp] theorem State.setByte_fresh (s : State) (a : Nat) (v : Byte) : (s.setByte a v).fresh = s.fresh := rfl
@[simp] theorem State.setByte_resp (s : State) (a : Nat) (v : Byte) : (s.setByte a v).resp = s.resp := rfl
@[simp] theorem State.setByte_regs (s : State) (a : Nat) (v : Byte) : (s.setByte a v).regs = s.regs := rfl
@[simp] theorem State.setByte_work (s : State) (a : Nat) (v : Byte) : (s.setByte a v).work = s.work := rfl
@[simp] theorem State.setByte_capt (s : State) (a : Nat) (v : Byte) : (s.setByte a v).capt = s.capt := rfl
@[simp] theorem State.setByte_once (s : State) (a : Nat) (v : Byte) : (s.setByte a v).once = s.once := rfl
@[simp] theorem State.setByte_armed (s : State) (a : Nat) (v : Byte) : (s.setByte a v).armed = s.armed := rfl
@[simp] theorem State.setByte_held (s : State) (a : Nat) (v : Byte) : (s.setByte a v).held = s.held := rfl
@[simp] theorem State.setByte_swi (s : State) (a : Nat) (v : Byte) : (s.setByte a v).swi = s.swi := rfl
@[simp] theorem State.setByte_inReset (s : State) (a : Nat) (v : Byte) : (s.setByte a v).inReset = s.inReset := rfl
@[simp] theorem State.setByte_stalled (s : State) (a : Nat) (v : Byte) : (s.setByte a v).stalled = s.stalled := rfl
@[simp] theorem State.setByte_onBackup (s : State) (a : Nat) (v : Byte) : (s.setByte a v).onBackup = s.onBackup := rfl
@[simp] theorem State.setByte_eccBad (s : State) (a : Nat) (v : Byte) : (s.setByte a v).eccBad = s.eccBad := rfl
@[simp] theorem State.setByte_base (s : State) (a : Nat) (v : Byte) : (s.setByte a v).base = s.base := rfl
@[simp] theorem State.setByte_rfLast (s : State) (a : Nat) (v : Byte) : (s.setByte a v).rfLast = s.rfLast := rfl
@[simp] theorem State.setByte_chains (s : State) (a : Nat) (v : Byte) : (s.setByte a v).chains = s.chains := rfl
@[simp] theorem State.setByte_osc (s : State) (a : Nat) (v : Byte) : (s.setByte a v).osc = s.osc := rfl
@[simp] theorem State.setByte_validLog (s : State) (a : Nat) (v : Byte) : (s.setByte a v).validLog = s.validLog := rfl
@[simp] theorem State.setByte_snap (s : State) (a : Nat) (v : Byte) : (s.setByte a v).snap = s.snap := rfl
@[simp] theorem State.setByte_tags (s : State) (a : Nat) (v : Byte) : (s.setByte a v).tags = s.tags := rfl
@[simp] theorem State.setByte_jobs (s : State) (a : Nat) (v : Byte) : (s.setByte a v).jobs = s.jobs := rfl
@[simp] theorem State.setByte_smpZ (s : State) (a : Nat) (v : Byte) : (s.setByte a v).smpZ = s.smpZ := rfl
@[simp] theorem State.setByte_chan (s : State) (a : Nat) (v : Byte) : (s.setByte a v).chan = s.chan := rfl
@[simp] theorem State.setByte_dumpFifo (s : State) (a : Nat) (v : Byte) : (s.setByte a v).dumpFifo = s.dumpFifo := rfl
@[simp] theorem State.setByte_grpAt (s : State) (a : Nat) (v : Byte) : (s.setByte a v).grpAt = s.grpAt := rfl
@[simp] theorem State.setByte_grpArmed (s : State) (a : Nat) (v : Byte) : (s.setByte a v).grpArmed = s.grpArmed := rfl
@[simp] theorem State.setByte_codeLog (s : State) (a : Nat) (v : Byte) : (s.setByte a v).codeLog = s.codeLog := rfl
@[simp] theorem State.setByte_code (s : State) (a : Nat) (v : Byte) : (s.setByte a v).code = s.code := rfl
@[simp] theorem State.setByte_codeBad (s : State) (a : Nat) (v : Byte) : (s.setByte a v).codeBad = s.codeBad := rfl
@[simp] theorem State.setByte_crcRun (s : State) (a : Nat) (v : Byte) : (s.setByte a v).crcRun = s.crcRun := rfl
@[simp] theorem State.setByte_crcAcc (s : State) (a : Nat) (v : Byte) : (s.setByte a v).crcAcc = s.crcAcc := rfl
@[simp] theorem State.setByte_latch (s : State) (a : Nat) (v : Byte) : (s.setByte a v).latch = s.latch := rfl
@[simp] theorem State.setByte_measPrev (s : State) (a : Nat) (v : Byte) : (s.setByte a v).measPrev = s.measPrev := rfl
@[simp] theorem State.setByte_measSeq (s : State) (a : Nat) (v : Byte) : (s.setByte a v).measSeq = s.measSeq := rfl
@[simp] theorem State.setByte_measMissed (s : State) (a : Nat) (v : Byte) : (s.setByte a v).measMissed = s.measMissed := rfl
@[simp] theorem State.setByte_cdl (s : State) (a : Nat) (v : Byte) : (s.setByte a v).cdl = s.cdl := rfl
@[simp] theorem State.setByte_arr (s : State) (a : Nat) (v : Byte) : (s.setByte a v).arr = s.arr := rfl
@[simp] theorem State.setByte_ts (s : State) (a : Nat) (v : Byte) : (s.setByte a v).ts = s.ts := rfl
@[simp] theorem State.setByte_tsSt (s : State) (a : Nat) (v : Byte) : (s.setByte a v).tsSt = s.tsSt := rfl
@[simp] theorem State.setByte_updLast (s : State) (a : Nat) (v : Byte) : (s.setByte a v).updLast = s.updLast := rfl
@[simp] theorem State.setByte_secLast (s : State) (a : Nat) (v : Byte) : (s.setByte a v).secLast = s.secLast := rfl
@[simp] theorem State.setByte_ents (s : State) (a : Nat) (v : Byte) : (s.setByte a v).ents = s.ents := rfl
@[simp] theorem State.setByte_acts (s : State) (a : Nat) (v : Byte) : (s.setByte a v).acts = s.acts := rfl
@[simp] theorem State.setByte_spanQ (s : State) (a : Nat) (v : Byte) : (s.setByte a v).spanQ = s.spanQ := rfl
@[simp] theorem State.setByte_padLog (s : State) (a : Nat) (v : Byte) : (s.setByte a v).padLog = s.padLog := rfl
@[simp] theorem State.setByte_spans (s : State) (a : Nat) (v : Byte) : (s.setByte a v).spans = s.spans := rfl
@[simp] theorem State.setByte_evtIn (s : State) (a : Nat) (v : Byte) : (s.setByte a v).evtIn = s.evtIn := rfl
@[simp] theorem State.setByte_evtFifo (s : State) (a : Nat) (v : Byte) : (s.setByte a v).evtFifo = s.evtFifo := rfl
@[simp] theorem State.setByte_evtSeq (s : State) (a : Nat) (v : Byte) : (s.setByte a v).evtSeq = s.evtSeq := rfl
@[simp] theorem State.setByte_evtLost (s : State) (a : Nat) (v : Byte) : (s.setByte a v).evtLost = s.evtLost := rfl
@[simp] theorem State.setByte_net (s : State) (a : Nat) (v : Byte) : (s.setByte a v).net = s.net := rfl
@[simp] theorem State.setByte_rad (s : State) (a : Nat) (v : Byte) : (s.setByte a v).rad = s.rad := rfl
@[simp] theorem State.setByte_wbuf (s : State) (a : Nat) (v : Byte) : (s.setByte a v).wbuf = s.wbuf := rfl
@[simp] theorem State.setByte_dcache (s : State) (a : Nat) (v : Byte) : (s.setByte a v).dcache = s.dcache := rfl
@[simp] theorem State.setByte_cores (s : State) (a : Nat) (v : Byte) : (s.setByte a v).cores = s.cores := rfl
@[simp] theorem State.setByte_icache (s : State) (a : Nat) (v : Byte) : (s.setByte a v).icache = s.icache := rfl
@[simp] theorem State.setByte_dma (s : State) (a : Nat) (v : Byte) : (s.setByte a v).dma = s.dma := rfl
@[simp] theorem State.setByte_dmaLast (s : State) (a : Nat) (v : Byte) : (s.setByte a v).dmaLast = s.dmaLast := rfl
@[simp] theorem State.setByte_dmaClear (s : State) (a : Nat) (v : Byte) : (s.setByte a v).dmaClear = s.dmaClear := rfl
@[simp] theorem State.setByte_fl (s : State) (a : Nat) (v : Byte) : (s.setByte a v).fl = s.fl := rfl
@[simp] theorem State.setByte_plls (s : State) (a : Nat) (v : Byte) : (s.setByte a v).plls = s.plls := rfl
@[simp] theorem State.setByte_refGood (s : State) (a : Nat) (v : Byte) : (s.setByte a v).refGood = s.refGood := rfl
@[simp] theorem State.setByte_refLost (s : State) (a : Nat) (v : Byte) : (s.setByte a v).refLost = s.refLost := rfl
@[simp] theorem State.setByte_synAt (s : State) (a : Nat) (v : Byte) : (s.setByte a v).synAt = s.synAt := rfl
@[simp] theorem State.setByte_loGateAt (s : State) (a : Nat) (v : Byte) : (s.setByte a v).loGateAt = s.loGateAt := rfl
@[simp] theorem State.setByte_vig (s : State) (a : Nat) (v : Byte) : (s.setByte a v).vig = s.vig := rfl
@[simp] theorem State.setByte_guards (s : State) (a : Nat) (v : Byte) : (s.setByte a v).guards = s.guards := rfl
@[simp] theorem State.setByte_pwr (s : State) (a : Nat) (v : Byte) : (s.setByte a v).pwr = s.pwr := rfl
@[simp] theorem State.setByte_spi (s : State) (a : Nat) (v : Byte) : (s.setByte a v).spi = s.spi := rfl
@[simp] theorem State.setByte_can (s : State) (a : Nat) (v : Byte) : (s.setByte a v).can = s.can := rfl
@[simp] theorem State.setByte_uart (s : State) (a : Nat) (v : Byte) : (s.setByte a v).uart = s.uart := rfl
@[simp] theorem State.setByte_i2c (s : State) (a : Nat) (v : Byte) : (s.setByte a v).i2c = s.i2c := rfl
@[simp] theorem State.setByte_jtag (s : State) (a : Nat) (v : Byte) : (s.setByte a v).jtag = s.jtag := rfl

/-! ### answer -/

@[simp] theorem State.answer_pending (s : State) (req : Nat) (w : List Word) (e : Bool) : (s.answer req w e).pending = s.pending := rfl
@[simp] theorem State.answer_fresh (s : State) (req : Nat) (w : List Word) (e : Bool) : (s.answer req w e).fresh = s.fresh := rfl
@[simp] theorem State.answer_regs (s : State) (req : Nat) (w : List Word) (e : Bool) : (s.answer req w e).regs = s.regs := rfl
@[simp] theorem State.answer_work (s : State) (req : Nat) (w : List Word) (e : Bool) : (s.answer req w e).work = s.work := rfl
@[simp] theorem State.answer_capt (s : State) (req : Nat) (w : List Word) (e : Bool) : (s.answer req w e).capt = s.capt := rfl
@[simp] theorem State.answer_once (s : State) (req : Nat) (w : List Word) (e : Bool) : (s.answer req w e).once = s.once := rfl
@[simp] theorem State.answer_armed (s : State) (req : Nat) (w : List Word) (e : Bool) : (s.answer req w e).armed = s.armed := rfl
@[simp] theorem State.answer_held (s : State) (req : Nat) (w : List Word) (e : Bool) : (s.answer req w e).held = s.held := rfl
@[simp] theorem State.answer_swi (s : State) (req : Nat) (w : List Word) (e : Bool) : (s.answer req w e).swi = s.swi := rfl
@[simp] theorem State.answer_inReset (s : State) (req : Nat) (w : List Word) (e : Bool) : (s.answer req w e).inReset = s.inReset := rfl
@[simp] theorem State.answer_stalled (s : State) (req : Nat) (w : List Word) (e : Bool) : (s.answer req w e).stalled = s.stalled := rfl
@[simp] theorem State.answer_onBackup (s : State) (req : Nat) (w : List Word) (e : Bool) : (s.answer req w e).onBackup = s.onBackup := rfl
@[simp] theorem State.answer_mem (s : State) (req : Nat) (w : List Word) (e : Bool) : (s.answer req w e).mem = s.mem := rfl
@[simp] theorem State.answer_eccBad (s : State) (req : Nat) (w : List Word) (e : Bool) : (s.answer req w e).eccBad = s.eccBad := rfl
@[simp] theorem State.answer_base (s : State) (req : Nat) (w : List Word) (e : Bool) : (s.answer req w e).base = s.base := rfl
@[simp] theorem State.answer_rfLast (s : State) (req : Nat) (w : List Word) (e : Bool) : (s.answer req w e).rfLast = s.rfLast := rfl
@[simp] theorem State.answer_chains (s : State) (req : Nat) (w : List Word) (e : Bool) : (s.answer req w e).chains = s.chains := rfl
@[simp] theorem State.answer_osc (s : State) (req : Nat) (w : List Word) (e : Bool) : (s.answer req w e).osc = s.osc := rfl
@[simp] theorem State.answer_validLog (s : State) (req : Nat) (w : List Word) (e : Bool) : (s.answer req w e).validLog = s.validLog := rfl
@[simp] theorem State.answer_snap (s : State) (req : Nat) (w : List Word) (e : Bool) : (s.answer req w e).snap = s.snap := rfl
@[simp] theorem State.answer_tags (s : State) (req : Nat) (w : List Word) (e : Bool) : (s.answer req w e).tags = s.tags := rfl
@[simp] theorem State.answer_jobs (s : State) (req : Nat) (w : List Word) (e : Bool) : (s.answer req w e).jobs = s.jobs := rfl
@[simp] theorem State.answer_smpZ (s : State) (req : Nat) (w : List Word) (e : Bool) : (s.answer req w e).smpZ = s.smpZ := rfl
@[simp] theorem State.answer_chan (s : State) (req : Nat) (w : List Word) (e : Bool) : (s.answer req w e).chan = s.chan := rfl
@[simp] theorem State.answer_dumpFifo (s : State) (req : Nat) (w : List Word) (e : Bool) : (s.answer req w e).dumpFifo = s.dumpFifo := rfl
@[simp] theorem State.answer_grpAt (s : State) (req : Nat) (w : List Word) (e : Bool) : (s.answer req w e).grpAt = s.grpAt := rfl
@[simp] theorem State.answer_grpArmed (s : State) (req : Nat) (w : List Word) (e : Bool) : (s.answer req w e).grpArmed = s.grpArmed := rfl
@[simp] theorem State.answer_codeLog (s : State) (req : Nat) (w : List Word) (e : Bool) : (s.answer req w e).codeLog = s.codeLog := rfl
@[simp] theorem State.answer_code (s : State) (req : Nat) (w : List Word) (e : Bool) : (s.answer req w e).code = s.code := rfl
@[simp] theorem State.answer_codeBad (s : State) (req : Nat) (w : List Word) (e : Bool) : (s.answer req w e).codeBad = s.codeBad := rfl
@[simp] theorem State.answer_crcRun (s : State) (req : Nat) (w : List Word) (e : Bool) : (s.answer req w e).crcRun = s.crcRun := rfl
@[simp] theorem State.answer_crcAcc (s : State) (req : Nat) (w : List Word) (e : Bool) : (s.answer req w e).crcAcc = s.crcAcc := rfl
@[simp] theorem State.answer_latch (s : State) (req : Nat) (w : List Word) (e : Bool) : (s.answer req w e).latch = s.latch := rfl
@[simp] theorem State.answer_measPrev (s : State) (req : Nat) (w : List Word) (e : Bool) : (s.answer req w e).measPrev = s.measPrev := rfl
@[simp] theorem State.answer_measSeq (s : State) (req : Nat) (w : List Word) (e : Bool) : (s.answer req w e).measSeq = s.measSeq := rfl
@[simp] theorem State.answer_measMissed (s : State) (req : Nat) (w : List Word) (e : Bool) : (s.answer req w e).measMissed = s.measMissed := rfl
@[simp] theorem State.answer_cdl (s : State) (req : Nat) (w : List Word) (e : Bool) : (s.answer req w e).cdl = s.cdl := rfl
@[simp] theorem State.answer_arr (s : State) (req : Nat) (w : List Word) (e : Bool) : (s.answer req w e).arr = s.arr := rfl
@[simp] theorem State.answer_ts (s : State) (req : Nat) (w : List Word) (e : Bool) : (s.answer req w e).ts = s.ts := rfl
@[simp] theorem State.answer_tsSt (s : State) (req : Nat) (w : List Word) (e : Bool) : (s.answer req w e).tsSt = s.tsSt := rfl
@[simp] theorem State.answer_updLast (s : State) (req : Nat) (w : List Word) (e : Bool) : (s.answer req w e).updLast = s.updLast := rfl
@[simp] theorem State.answer_secLast (s : State) (req : Nat) (w : List Word) (e : Bool) : (s.answer req w e).secLast = s.secLast := rfl
@[simp] theorem State.answer_ents (s : State) (req : Nat) (w : List Word) (e : Bool) : (s.answer req w e).ents = s.ents := rfl
@[simp] theorem State.answer_acts (s : State) (req : Nat) (w : List Word) (e : Bool) : (s.answer req w e).acts = s.acts := rfl
@[simp] theorem State.answer_spanQ (s : State) (req : Nat) (w : List Word) (e : Bool) : (s.answer req w e).spanQ = s.spanQ := rfl
@[simp] theorem State.answer_padLog (s : State) (req : Nat) (w : List Word) (e : Bool) : (s.answer req w e).padLog = s.padLog := rfl
@[simp] theorem State.answer_spans (s : State) (req : Nat) (w : List Word) (e : Bool) : (s.answer req w e).spans = s.spans := rfl
@[simp] theorem State.answer_evtIn (s : State) (req : Nat) (w : List Word) (e : Bool) : (s.answer req w e).evtIn = s.evtIn := rfl
@[simp] theorem State.answer_evtFifo (s : State) (req : Nat) (w : List Word) (e : Bool) : (s.answer req w e).evtFifo = s.evtFifo := rfl
@[simp] theorem State.answer_evtSeq (s : State) (req : Nat) (w : List Word) (e : Bool) : (s.answer req w e).evtSeq = s.evtSeq := rfl
@[simp] theorem State.answer_evtLost (s : State) (req : Nat) (w : List Word) (e : Bool) : (s.answer req w e).evtLost = s.evtLost := rfl
@[simp] theorem State.answer_net (s : State) (req : Nat) (w : List Word) (e : Bool) : (s.answer req w e).net = s.net := rfl
@[simp] theorem State.answer_rad (s : State) (req : Nat) (w : List Word) (e : Bool) : (s.answer req w e).rad = s.rad := rfl
@[simp] theorem State.answer_wbuf (s : State) (req : Nat) (w : List Word) (e : Bool) : (s.answer req w e).wbuf = s.wbuf := rfl
@[simp] theorem State.answer_dcache (s : State) (req : Nat) (w : List Word) (e : Bool) : (s.answer req w e).dcache = s.dcache := rfl
@[simp] theorem State.answer_cores (s : State) (req : Nat) (w : List Word) (e : Bool) : (s.answer req w e).cores = s.cores := rfl
@[simp] theorem State.answer_icache (s : State) (req : Nat) (w : List Word) (e : Bool) : (s.answer req w e).icache = s.icache := rfl
@[simp] theorem State.answer_dma (s : State) (req : Nat) (w : List Word) (e : Bool) : (s.answer req w e).dma = s.dma := rfl
@[simp] theorem State.answer_dmaLast (s : State) (req : Nat) (w : List Word) (e : Bool) : (s.answer req w e).dmaLast = s.dmaLast := rfl
@[simp] theorem State.answer_dmaClear (s : State) (req : Nat) (w : List Word) (e : Bool) : (s.answer req w e).dmaClear = s.dmaClear := rfl
@[simp] theorem State.answer_fl (s : State) (req : Nat) (w : List Word) (e : Bool) : (s.answer req w e).fl = s.fl := rfl
@[simp] theorem State.answer_plls (s : State) (req : Nat) (w : List Word) (e : Bool) : (s.answer req w e).plls = s.plls := rfl
@[simp] theorem State.answer_refGood (s : State) (req : Nat) (w : List Word) (e : Bool) : (s.answer req w e).refGood = s.refGood := rfl
@[simp] theorem State.answer_refLost (s : State) (req : Nat) (w : List Word) (e : Bool) : (s.answer req w e).refLost = s.refLost := rfl
@[simp] theorem State.answer_synAt (s : State) (req : Nat) (w : List Word) (e : Bool) : (s.answer req w e).synAt = s.synAt := rfl
@[simp] theorem State.answer_loGateAt (s : State) (req : Nat) (w : List Word) (e : Bool) : (s.answer req w e).loGateAt = s.loGateAt := rfl
@[simp] theorem State.answer_vig (s : State) (req : Nat) (w : List Word) (e : Bool) : (s.answer req w e).vig = s.vig := rfl
@[simp] theorem State.answer_guards (s : State) (req : Nat) (w : List Word) (e : Bool) : (s.answer req w e).guards = s.guards := rfl
@[simp] theorem State.answer_pwr (s : State) (req : Nat) (w : List Word) (e : Bool) : (s.answer req w e).pwr = s.pwr := rfl
@[simp] theorem State.answer_spi (s : State) (req : Nat) (w : List Word) (e : Bool) : (s.answer req w e).spi = s.spi := rfl
@[simp] theorem State.answer_can (s : State) (req : Nat) (w : List Word) (e : Bool) : (s.answer req w e).can = s.can := rfl
@[simp] theorem State.answer_uart (s : State) (req : Nat) (w : List Word) (e : Bool) : (s.answer req w e).uart = s.uart := rfl
@[simp] theorem State.answer_i2c (s : State) (req : Nat) (w : List Word) (e : Bool) : (s.answer req w e).i2c = s.i2c := rfl
@[simp] theorem State.answer_jtag (s : State) (req : Nat) (w : List Word) (e : Bool) : (s.answer req w e).jtag = s.jtag := rfl

/-! ### put -/

@[simp] theorem State.put_pending (s : State) (b : Nat) (f : Fld) (v : Nat) : (s.put b f v).pending = s.pending := by rw [State.put_only]
@[simp] theorem State.put_fresh (s : State) (b : Nat) (f : Fld) (v : Nat) : (s.put b f v).fresh = s.fresh := by rw [State.put_only]
@[simp] theorem State.put_resp (s : State) (b : Nat) (f : Fld) (v : Nat) : (s.put b f v).resp = s.resp := by rw [State.put_only]
@[simp] theorem State.put_work (s : State) (b : Nat) (f : Fld) (v : Nat) : (s.put b f v).work = s.work := by rw [State.put_only]
@[simp] theorem State.put_capt (s : State) (b : Nat) (f : Fld) (v : Nat) : (s.put b f v).capt = s.capt := by rw [State.put_only]
@[simp] theorem State.put_once (s : State) (b : Nat) (f : Fld) (v : Nat) : (s.put b f v).once = s.once := by rw [State.put_only]
@[simp] theorem State.put_armed (s : State) (b : Nat) (f : Fld) (v : Nat) : (s.put b f v).armed = s.armed := by rw [State.put_only]
@[simp] theorem State.put_held (s : State) (b : Nat) (f : Fld) (v : Nat) : (s.put b f v).held = s.held := by rw [State.put_only]
@[simp] theorem State.put_swi (s : State) (b : Nat) (f : Fld) (v : Nat) : (s.put b f v).swi = s.swi := by rw [State.put_only]
@[simp] theorem State.put_inReset (s : State) (b : Nat) (f : Fld) (v : Nat) : (s.put b f v).inReset = s.inReset := by rw [State.put_only]
@[simp] theorem State.put_stalled (s : State) (b : Nat) (f : Fld) (v : Nat) : (s.put b f v).stalled = s.stalled := by rw [State.put_only]
@[simp] theorem State.put_onBackup (s : State) (b : Nat) (f : Fld) (v : Nat) : (s.put b f v).onBackup = s.onBackup := by rw [State.put_only]
@[simp] theorem State.put_mem (s : State) (b : Nat) (f : Fld) (v : Nat) : (s.put b f v).mem = s.mem := by rw [State.put_only]
@[simp] theorem State.put_eccBad (s : State) (b : Nat) (f : Fld) (v : Nat) : (s.put b f v).eccBad = s.eccBad := by rw [State.put_only]
@[simp] theorem State.put_base (s : State) (b : Nat) (f : Fld) (v : Nat) : (s.put b f v).base = s.base := by rw [State.put_only]
@[simp] theorem State.put_rfLast (s : State) (b : Nat) (f : Fld) (v : Nat) : (s.put b f v).rfLast = s.rfLast := by rw [State.put_only]
@[simp] theorem State.put_chains (s : State) (b : Nat) (f : Fld) (v : Nat) : (s.put b f v).chains = s.chains := by rw [State.put_only]
@[simp] theorem State.put_osc (s : State) (b : Nat) (f : Fld) (v : Nat) : (s.put b f v).osc = s.osc := by rw [State.put_only]
@[simp] theorem State.put_validLog (s : State) (b : Nat) (f : Fld) (v : Nat) : (s.put b f v).validLog = s.validLog := by rw [State.put_only]
@[simp] theorem State.put_snap (s : State) (b : Nat) (f : Fld) (v : Nat) : (s.put b f v).snap = s.snap := by rw [State.put_only]
@[simp] theorem State.put_tags (s : State) (b : Nat) (f : Fld) (v : Nat) : (s.put b f v).tags = s.tags := by rw [State.put_only]
@[simp] theorem State.put_jobs (s : State) (b : Nat) (f : Fld) (v : Nat) : (s.put b f v).jobs = s.jobs := by rw [State.put_only]
@[simp] theorem State.put_smpZ (s : State) (b : Nat) (f : Fld) (v : Nat) : (s.put b f v).smpZ = s.smpZ := by rw [State.put_only]
@[simp] theorem State.put_chan (s : State) (b : Nat) (f : Fld) (v : Nat) : (s.put b f v).chan = s.chan := by rw [State.put_only]
@[simp] theorem State.put_dumpFifo (s : State) (b : Nat) (f : Fld) (v : Nat) : (s.put b f v).dumpFifo = s.dumpFifo := by rw [State.put_only]
@[simp] theorem State.put_grpAt (s : State) (b : Nat) (f : Fld) (v : Nat) : (s.put b f v).grpAt = s.grpAt := by rw [State.put_only]
@[simp] theorem State.put_grpArmed (s : State) (b : Nat) (f : Fld) (v : Nat) : (s.put b f v).grpArmed = s.grpArmed := by rw [State.put_only]
@[simp] theorem State.put_codeLog (s : State) (b : Nat) (f : Fld) (v : Nat) : (s.put b f v).codeLog = s.codeLog := by rw [State.put_only]
@[simp] theorem State.put_code (s : State) (b : Nat) (f : Fld) (v : Nat) : (s.put b f v).code = s.code := by rw [State.put_only]
@[simp] theorem State.put_codeBad (s : State) (b : Nat) (f : Fld) (v : Nat) : (s.put b f v).codeBad = s.codeBad := by rw [State.put_only]
@[simp] theorem State.put_crcRun (s : State) (b : Nat) (f : Fld) (v : Nat) : (s.put b f v).crcRun = s.crcRun := by rw [State.put_only]
@[simp] theorem State.put_crcAcc (s : State) (b : Nat) (f : Fld) (v : Nat) : (s.put b f v).crcAcc = s.crcAcc := by rw [State.put_only]
@[simp] theorem State.put_latch (s : State) (b : Nat) (f : Fld) (v : Nat) : (s.put b f v).latch = s.latch := by rw [State.put_only]
@[simp] theorem State.put_measPrev (s : State) (b : Nat) (f : Fld) (v : Nat) : (s.put b f v).measPrev = s.measPrev := by rw [State.put_only]
@[simp] theorem State.put_measSeq (s : State) (b : Nat) (f : Fld) (v : Nat) : (s.put b f v).measSeq = s.measSeq := by rw [State.put_only]
@[simp] theorem State.put_measMissed (s : State) (b : Nat) (f : Fld) (v : Nat) : (s.put b f v).measMissed = s.measMissed := by rw [State.put_only]
@[simp] theorem State.put_cdl (s : State) (b : Nat) (f : Fld) (v : Nat) : (s.put b f v).cdl = s.cdl := by rw [State.put_only]
@[simp] theorem State.put_arr (s : State) (b : Nat) (f : Fld) (v : Nat) : (s.put b f v).arr = s.arr := by rw [State.put_only]
@[simp] theorem State.put_ts (s : State) (b : Nat) (f : Fld) (v : Nat) : (s.put b f v).ts = s.ts := by rw [State.put_only]
@[simp] theorem State.put_tsSt (s : State) (b : Nat) (f : Fld) (v : Nat) : (s.put b f v).tsSt = s.tsSt := by rw [State.put_only]
@[simp] theorem State.put_updLast (s : State) (b : Nat) (f : Fld) (v : Nat) : (s.put b f v).updLast = s.updLast := by rw [State.put_only]
@[simp] theorem State.put_secLast (s : State) (b : Nat) (f : Fld) (v : Nat) : (s.put b f v).secLast = s.secLast := by rw [State.put_only]
@[simp] theorem State.put_ents (s : State) (b : Nat) (f : Fld) (v : Nat) : (s.put b f v).ents = s.ents := by rw [State.put_only]
@[simp] theorem State.put_acts (s : State) (b : Nat) (f : Fld) (v : Nat) : (s.put b f v).acts = s.acts := by rw [State.put_only]
@[simp] theorem State.put_spanQ (s : State) (b : Nat) (f : Fld) (v : Nat) : (s.put b f v).spanQ = s.spanQ := by rw [State.put_only]
@[simp] theorem State.put_padLog (s : State) (b : Nat) (f : Fld) (v : Nat) : (s.put b f v).padLog = s.padLog := by rw [State.put_only]
@[simp] theorem State.put_spans (s : State) (b : Nat) (f : Fld) (v : Nat) : (s.put b f v).spans = s.spans := by rw [State.put_only]
@[simp] theorem State.put_evtIn (s : State) (b : Nat) (f : Fld) (v : Nat) : (s.put b f v).evtIn = s.evtIn := by rw [State.put_only]
@[simp] theorem State.put_evtFifo (s : State) (b : Nat) (f : Fld) (v : Nat) : (s.put b f v).evtFifo = s.evtFifo := by rw [State.put_only]
@[simp] theorem State.put_evtSeq (s : State) (b : Nat) (f : Fld) (v : Nat) : (s.put b f v).evtSeq = s.evtSeq := by rw [State.put_only]
@[simp] theorem State.put_evtLost (s : State) (b : Nat) (f : Fld) (v : Nat) : (s.put b f v).evtLost = s.evtLost := by rw [State.put_only]
@[simp] theorem State.put_net (s : State) (b : Nat) (f : Fld) (v : Nat) : (s.put b f v).net = s.net := by rw [State.put_only]
@[simp] theorem State.put_rad (s : State) (b : Nat) (f : Fld) (v : Nat) : (s.put b f v).rad = s.rad := by rw [State.put_only]
@[simp] theorem State.put_wbuf (s : State) (b : Nat) (f : Fld) (v : Nat) : (s.put b f v).wbuf = s.wbuf := by rw [State.put_only]
@[simp] theorem State.put_dcache (s : State) (b : Nat) (f : Fld) (v : Nat) : (s.put b f v).dcache = s.dcache := by rw [State.put_only]
@[simp] theorem State.put_cores (s : State) (b : Nat) (f : Fld) (v : Nat) : (s.put b f v).cores = s.cores := by rw [State.put_only]
@[simp] theorem State.put_icache (s : State) (b : Nat) (f : Fld) (v : Nat) : (s.put b f v).icache = s.icache := by rw [State.put_only]
@[simp] theorem State.put_dma (s : State) (b : Nat) (f : Fld) (v : Nat) : (s.put b f v).dma = s.dma := by rw [State.put_only]
@[simp] theorem State.put_dmaLast (s : State) (b : Nat) (f : Fld) (v : Nat) : (s.put b f v).dmaLast = s.dmaLast := by rw [State.put_only]
@[simp] theorem State.put_dmaClear (s : State) (b : Nat) (f : Fld) (v : Nat) : (s.put b f v).dmaClear = s.dmaClear := by rw [State.put_only]
@[simp] theorem State.put_fl (s : State) (b : Nat) (f : Fld) (v : Nat) : (s.put b f v).fl = s.fl := by rw [State.put_only]
@[simp] theorem State.put_plls (s : State) (b : Nat) (f : Fld) (v : Nat) : (s.put b f v).plls = s.plls := by rw [State.put_only]
@[simp] theorem State.put_refGood (s : State) (b : Nat) (f : Fld) (v : Nat) : (s.put b f v).refGood = s.refGood := by rw [State.put_only]
@[simp] theorem State.put_refLost (s : State) (b : Nat) (f : Fld) (v : Nat) : (s.put b f v).refLost = s.refLost := by rw [State.put_only]
@[simp] theorem State.put_synAt (s : State) (b : Nat) (f : Fld) (v : Nat) : (s.put b f v).synAt = s.synAt := by rw [State.put_only]
@[simp] theorem State.put_loGateAt (s : State) (b : Nat) (f : Fld) (v : Nat) : (s.put b f v).loGateAt = s.loGateAt := by rw [State.put_only]
@[simp] theorem State.put_vig (s : State) (b : Nat) (f : Fld) (v : Nat) : (s.put b f v).vig = s.vig := by rw [State.put_only]
@[simp] theorem State.put_guards (s : State) (b : Nat) (f : Fld) (v : Nat) : (s.put b f v).guards = s.guards := by rw [State.put_only]
@[simp] theorem State.put_pwr (s : State) (b : Nat) (f : Fld) (v : Nat) : (s.put b f v).pwr = s.pwr := by rw [State.put_only]
@[simp] theorem State.put_spi (s : State) (b : Nat) (f : Fld) (v : Nat) : (s.put b f v).spi = s.spi := by rw [State.put_only]
@[simp] theorem State.put_can (s : State) (b : Nat) (f : Fld) (v : Nat) : (s.put b f v).can = s.can := by rw [State.put_only]
@[simp] theorem State.put_uart (s : State) (b : Nat) (f : Fld) (v : Nat) : (s.put b f v).uart = s.uart := by rw [State.put_only]
@[simp] theorem State.put_i2c (s : State) (b : Nat) (f : Fld) (v : Nat) : (s.put b f v).i2c = s.i2c := by rw [State.put_only]
@[simp] theorem State.put_jtag (s : State) (b : Nat) (f : Fld) (v : Nat) : (s.put b f v).jtag = s.jtag := by rw [State.put_only]

/-! ### raise -/

@[simp] theorem State.raise_pending (s : State) (p n : Nat) : (s.raise p n).pending = s.pending := by rw [State.raise_only]
@[simp] theorem State.raise_fresh (s : State) (p n : Nat) : (s.raise p n).fresh = s.fresh := by rw [State.raise_only]
@[simp] theorem State.raise_resp (s : State) (p n : Nat) : (s.raise p n).resp = s.resp := by rw [State.raise_only]
@[simp] theorem State.raise_work (s : State) (p n : Nat) : (s.raise p n).work = s.work := by rw [State.raise_only]
@[simp] theorem State.raise_capt (s : State) (p n : Nat) : (s.raise p n).capt = s.capt := by rw [State.raise_only]
@[simp] theorem State.raise_once (s : State) (p n : Nat) : (s.raise p n).once = s.once := by rw [State.raise_only]
@[simp] theorem State.raise_armed (s : State) (p n : Nat) : (s.raise p n).armed = s.armed := by rw [State.raise_only]
@[simp] theorem State.raise_held (s : State) (p n : Nat) : (s.raise p n).held = s.held := by rw [State.raise_only]
@[simp] theorem State.raise_swi (s : State) (p n : Nat) : (s.raise p n).swi = s.swi := by rw [State.raise_only]
@[simp] theorem State.raise_inReset (s : State) (p n : Nat) : (s.raise p n).inReset = s.inReset := by rw [State.raise_only]
@[simp] theorem State.raise_stalled (s : State) (p n : Nat) : (s.raise p n).stalled = s.stalled := by rw [State.raise_only]
@[simp] theorem State.raise_onBackup (s : State) (p n : Nat) : (s.raise p n).onBackup = s.onBackup := by rw [State.raise_only]
@[simp] theorem State.raise_mem (s : State) (p n : Nat) : (s.raise p n).mem = s.mem := by rw [State.raise_only]
@[simp] theorem State.raise_eccBad (s : State) (p n : Nat) : (s.raise p n).eccBad = s.eccBad := by rw [State.raise_only]
@[simp] theorem State.raise_base (s : State) (p n : Nat) : (s.raise p n).base = s.base := by rw [State.raise_only]
@[simp] theorem State.raise_rfLast (s : State) (p n : Nat) : (s.raise p n).rfLast = s.rfLast := by rw [State.raise_only]
@[simp] theorem State.raise_chains (s : State) (p n : Nat) : (s.raise p n).chains = s.chains := by rw [State.raise_only]
@[simp] theorem State.raise_osc (s : State) (p n : Nat) : (s.raise p n).osc = s.osc := by rw [State.raise_only]
@[simp] theorem State.raise_validLog (s : State) (p n : Nat) : (s.raise p n).validLog = s.validLog := by rw [State.raise_only]
@[simp] theorem State.raise_snap (s : State) (p n : Nat) : (s.raise p n).snap = s.snap := by rw [State.raise_only]
@[simp] theorem State.raise_tags (s : State) (p n : Nat) : (s.raise p n).tags = s.tags := by rw [State.raise_only]
@[simp] theorem State.raise_jobs (s : State) (p n : Nat) : (s.raise p n).jobs = s.jobs := by rw [State.raise_only]
@[simp] theorem State.raise_smpZ (s : State) (p n : Nat) : (s.raise p n).smpZ = s.smpZ := by rw [State.raise_only]
@[simp] theorem State.raise_chan (s : State) (p n : Nat) : (s.raise p n).chan = s.chan := by rw [State.raise_only]
@[simp] theorem State.raise_dumpFifo (s : State) (p n : Nat) : (s.raise p n).dumpFifo = s.dumpFifo := by rw [State.raise_only]
@[simp] theorem State.raise_grpAt (s : State) (p n : Nat) : (s.raise p n).grpAt = s.grpAt := by rw [State.raise_only]
@[simp] theorem State.raise_grpArmed (s : State) (p n : Nat) : (s.raise p n).grpArmed = s.grpArmed := by rw [State.raise_only]
@[simp] theorem State.raise_codeLog (s : State) (p n : Nat) : (s.raise p n).codeLog = s.codeLog := by rw [State.raise_only]
@[simp] theorem State.raise_code (s : State) (p n : Nat) : (s.raise p n).code = s.code := by rw [State.raise_only]
@[simp] theorem State.raise_codeBad (s : State) (p n : Nat) : (s.raise p n).codeBad = s.codeBad := by rw [State.raise_only]
@[simp] theorem State.raise_crcRun (s : State) (p n : Nat) : (s.raise p n).crcRun = s.crcRun := by rw [State.raise_only]
@[simp] theorem State.raise_crcAcc (s : State) (p n : Nat) : (s.raise p n).crcAcc = s.crcAcc := by rw [State.raise_only]
@[simp] theorem State.raise_latch (s : State) (p n : Nat) : (s.raise p n).latch = s.latch := by rw [State.raise_only]
@[simp] theorem State.raise_measPrev (s : State) (p n : Nat) : (s.raise p n).measPrev = s.measPrev := by rw [State.raise_only]
@[simp] theorem State.raise_measSeq (s : State) (p n : Nat) : (s.raise p n).measSeq = s.measSeq := by rw [State.raise_only]
@[simp] theorem State.raise_measMissed (s : State) (p n : Nat) : (s.raise p n).measMissed = s.measMissed := by rw [State.raise_only]
@[simp] theorem State.raise_cdl (s : State) (p n : Nat) : (s.raise p n).cdl = s.cdl := by rw [State.raise_only]
@[simp] theorem State.raise_arr (s : State) (p n : Nat) : (s.raise p n).arr = s.arr := by rw [State.raise_only]
@[simp] theorem State.raise_ts (s : State) (p n : Nat) : (s.raise p n).ts = s.ts := by rw [State.raise_only]
@[simp] theorem State.raise_tsSt (s : State) (p n : Nat) : (s.raise p n).tsSt = s.tsSt := by rw [State.raise_only]
@[simp] theorem State.raise_updLast (s : State) (p n : Nat) : (s.raise p n).updLast = s.updLast := by rw [State.raise_only]
@[simp] theorem State.raise_secLast (s : State) (p n : Nat) : (s.raise p n).secLast = s.secLast := by rw [State.raise_only]
@[simp] theorem State.raise_ents (s : State) (p n : Nat) : (s.raise p n).ents = s.ents := by rw [State.raise_only]
@[simp] theorem State.raise_acts (s : State) (p n : Nat) : (s.raise p n).acts = s.acts := by rw [State.raise_only]
@[simp] theorem State.raise_spanQ (s : State) (p n : Nat) : (s.raise p n).spanQ = s.spanQ := by rw [State.raise_only]
@[simp] theorem State.raise_padLog (s : State) (p n : Nat) : (s.raise p n).padLog = s.padLog := by rw [State.raise_only]
@[simp] theorem State.raise_spans (s : State) (p n : Nat) : (s.raise p n).spans = s.spans := by rw [State.raise_only]
@[simp] theorem State.raise_evtIn (s : State) (p n : Nat) : (s.raise p n).evtIn = s.evtIn := by rw [State.raise_only]
@[simp] theorem State.raise_evtFifo (s : State) (p n : Nat) : (s.raise p n).evtFifo = s.evtFifo := by rw [State.raise_only]
@[simp] theorem State.raise_evtSeq (s : State) (p n : Nat) : (s.raise p n).evtSeq = s.evtSeq := by rw [State.raise_only]
@[simp] theorem State.raise_evtLost (s : State) (p n : Nat) : (s.raise p n).evtLost = s.evtLost := by rw [State.raise_only]
@[simp] theorem State.raise_net (s : State) (p n : Nat) : (s.raise p n).net = s.net := by rw [State.raise_only]
@[simp] theorem State.raise_rad (s : State) (p n : Nat) : (s.raise p n).rad = s.rad := by rw [State.raise_only]
@[simp] theorem State.raise_wbuf (s : State) (p n : Nat) : (s.raise p n).wbuf = s.wbuf := by rw [State.raise_only]
@[simp] theorem State.raise_dcache (s : State) (p n : Nat) : (s.raise p n).dcache = s.dcache := by rw [State.raise_only]
@[simp] theorem State.raise_cores (s : State) (p n : Nat) : (s.raise p n).cores = s.cores := by rw [State.raise_only]
@[simp] theorem State.raise_icache (s : State) (p n : Nat) : (s.raise p n).icache = s.icache := by rw [State.raise_only]
@[simp] theorem State.raise_dma (s : State) (p n : Nat) : (s.raise p n).dma = s.dma := by rw [State.raise_only]
@[simp] theorem State.raise_dmaLast (s : State) (p n : Nat) : (s.raise p n).dmaLast = s.dmaLast := by rw [State.raise_only]
@[simp] theorem State.raise_dmaClear (s : State) (p n : Nat) : (s.raise p n).dmaClear = s.dmaClear := by rw [State.raise_only]
@[simp] theorem State.raise_fl (s : State) (p n : Nat) : (s.raise p n).fl = s.fl := by rw [State.raise_only]
@[simp] theorem State.raise_plls (s : State) (p n : Nat) : (s.raise p n).plls = s.plls := by rw [State.raise_only]
@[simp] theorem State.raise_refGood (s : State) (p n : Nat) : (s.raise p n).refGood = s.refGood := by rw [State.raise_only]
@[simp] theorem State.raise_refLost (s : State) (p n : Nat) : (s.raise p n).refLost = s.refLost := by rw [State.raise_only]
@[simp] theorem State.raise_synAt (s : State) (p n : Nat) : (s.raise p n).synAt = s.synAt := by rw [State.raise_only]
@[simp] theorem State.raise_loGateAt (s : State) (p n : Nat) : (s.raise p n).loGateAt = s.loGateAt := by rw [State.raise_only]
@[simp] theorem State.raise_vig (s : State) (p n : Nat) : (s.raise p n).vig = s.vig := by rw [State.raise_only]
@[simp] theorem State.raise_guards (s : State) (p n : Nat) : (s.raise p n).guards = s.guards := by rw [State.raise_only]
@[simp] theorem State.raise_pwr (s : State) (p n : Nat) : (s.raise p n).pwr = s.pwr := by rw [State.raise_only]
@[simp] theorem State.raise_spi (s : State) (p n : Nat) : (s.raise p n).spi = s.spi := by rw [State.raise_only]
@[simp] theorem State.raise_can (s : State) (p n : Nat) : (s.raise p n).can = s.can := by rw [State.raise_only]
@[simp] theorem State.raise_uart (s : State) (p n : Nat) : (s.raise p n).uart = s.uart := by rw [State.raise_only]
@[simp] theorem State.raise_i2c (s : State) (p n : Nat) : (s.raise p n).i2c = s.i2c := by rw [State.raise_only]
@[simp] theorem State.raise_jtag (s : State) (p n : Nat) : (s.raise p n).jtag = s.jtag := by rw [State.raise_only]

/-! ### logErr -/

@[simp] theorem State.logErr_pending (s : State) (p code a req : Nat) : (s.logErr p code a req).pending = s.pending := by rw [State.logErr_only]
@[simp] theorem State.logErr_fresh (s : State) (p code a req : Nat) : (s.logErr p code a req).fresh = s.fresh := by rw [State.logErr_only]
@[simp] theorem State.logErr_resp (s : State) (p code a req : Nat) : (s.logErr p code a req).resp = s.resp := by rw [State.logErr_only]
@[simp] theorem State.logErr_work (s : State) (p code a req : Nat) : (s.logErr p code a req).work = s.work := by rw [State.logErr_only]
@[simp] theorem State.logErr_capt (s : State) (p code a req : Nat) : (s.logErr p code a req).capt = s.capt := by rw [State.logErr_only]
@[simp] theorem State.logErr_once (s : State) (p code a req : Nat) : (s.logErr p code a req).once = s.once := by rw [State.logErr_only]
@[simp] theorem State.logErr_armed (s : State) (p code a req : Nat) : (s.logErr p code a req).armed = s.armed := by rw [State.logErr_only]
@[simp] theorem State.logErr_held (s : State) (p code a req : Nat) : (s.logErr p code a req).held = s.held := by rw [State.logErr_only]
@[simp] theorem State.logErr_swi (s : State) (p code a req : Nat) : (s.logErr p code a req).swi = s.swi := by rw [State.logErr_only]
@[simp] theorem State.logErr_inReset (s : State) (p code a req : Nat) : (s.logErr p code a req).inReset = s.inReset := by rw [State.logErr_only]
@[simp] theorem State.logErr_stalled (s : State) (p code a req : Nat) : (s.logErr p code a req).stalled = s.stalled := by rw [State.logErr_only]
@[simp] theorem State.logErr_onBackup (s : State) (p code a req : Nat) : (s.logErr p code a req).onBackup = s.onBackup := by rw [State.logErr_only]
@[simp] theorem State.logErr_mem (s : State) (p code a req : Nat) : (s.logErr p code a req).mem = s.mem := by rw [State.logErr_only]
@[simp] theorem State.logErr_eccBad (s : State) (p code a req : Nat) : (s.logErr p code a req).eccBad = s.eccBad := by rw [State.logErr_only]
@[simp] theorem State.logErr_base (s : State) (p code a req : Nat) : (s.logErr p code a req).base = s.base := by rw [State.logErr_only]
@[simp] theorem State.logErr_rfLast (s : State) (p code a req : Nat) : (s.logErr p code a req).rfLast = s.rfLast := by rw [State.logErr_only]
@[simp] theorem State.logErr_chains (s : State) (p code a req : Nat) : (s.logErr p code a req).chains = s.chains := by rw [State.logErr_only]
@[simp] theorem State.logErr_osc (s : State) (p code a req : Nat) : (s.logErr p code a req).osc = s.osc := by rw [State.logErr_only]
@[simp] theorem State.logErr_validLog (s : State) (p code a req : Nat) : (s.logErr p code a req).validLog = s.validLog := by rw [State.logErr_only]
@[simp] theorem State.logErr_snap (s : State) (p code a req : Nat) : (s.logErr p code a req).snap = s.snap := by rw [State.logErr_only]
@[simp] theorem State.logErr_tags (s : State) (p code a req : Nat) : (s.logErr p code a req).tags = s.tags := by rw [State.logErr_only]
@[simp] theorem State.logErr_jobs (s : State) (p code a req : Nat) : (s.logErr p code a req).jobs = s.jobs := by rw [State.logErr_only]
@[simp] theorem State.logErr_smpZ (s : State) (p code a req : Nat) : (s.logErr p code a req).smpZ = s.smpZ := by rw [State.logErr_only]
@[simp] theorem State.logErr_chan (s : State) (p code a req : Nat) : (s.logErr p code a req).chan = s.chan := by rw [State.logErr_only]
@[simp] theorem State.logErr_dumpFifo (s : State) (p code a req : Nat) : (s.logErr p code a req).dumpFifo = s.dumpFifo := by rw [State.logErr_only]
@[simp] theorem State.logErr_grpAt (s : State) (p code a req : Nat) : (s.logErr p code a req).grpAt = s.grpAt := by rw [State.logErr_only]
@[simp] theorem State.logErr_grpArmed (s : State) (p code a req : Nat) : (s.logErr p code a req).grpArmed = s.grpArmed := by rw [State.logErr_only]
@[simp] theorem State.logErr_codeLog (s : State) (p code a req : Nat) : (s.logErr p code a req).codeLog = s.codeLog := by rw [State.logErr_only]
@[simp] theorem State.logErr_code (s : State) (p code a req : Nat) : (s.logErr p code a req).code = s.code := by rw [State.logErr_only]
@[simp] theorem State.logErr_codeBad (s : State) (p code a req : Nat) : (s.logErr p code a req).codeBad = s.codeBad := by rw [State.logErr_only]
@[simp] theorem State.logErr_crcRun (s : State) (p code a req : Nat) : (s.logErr p code a req).crcRun = s.crcRun := by rw [State.logErr_only]
@[simp] theorem State.logErr_crcAcc (s : State) (p code a req : Nat) : (s.logErr p code a req).crcAcc = s.crcAcc := by rw [State.logErr_only]
@[simp] theorem State.logErr_latch (s : State) (p code a req : Nat) : (s.logErr p code a req).latch = s.latch := by rw [State.logErr_only]
@[simp] theorem State.logErr_measPrev (s : State) (p code a req : Nat) : (s.logErr p code a req).measPrev = s.measPrev := by rw [State.logErr_only]
@[simp] theorem State.logErr_measSeq (s : State) (p code a req : Nat) : (s.logErr p code a req).measSeq = s.measSeq := by rw [State.logErr_only]
@[simp] theorem State.logErr_measMissed (s : State) (p code a req : Nat) : (s.logErr p code a req).measMissed = s.measMissed := by rw [State.logErr_only]
@[simp] theorem State.logErr_cdl (s : State) (p code a req : Nat) : (s.logErr p code a req).cdl = s.cdl := by rw [State.logErr_only]
@[simp] theorem State.logErr_arr (s : State) (p code a req : Nat) : (s.logErr p code a req).arr = s.arr := by rw [State.logErr_only]
@[simp] theorem State.logErr_ts (s : State) (p code a req : Nat) : (s.logErr p code a req).ts = s.ts := by rw [State.logErr_only]
@[simp] theorem State.logErr_tsSt (s : State) (p code a req : Nat) : (s.logErr p code a req).tsSt = s.tsSt := by rw [State.logErr_only]
@[simp] theorem State.logErr_updLast (s : State) (p code a req : Nat) : (s.logErr p code a req).updLast = s.updLast := by rw [State.logErr_only]
@[simp] theorem State.logErr_secLast (s : State) (p code a req : Nat) : (s.logErr p code a req).secLast = s.secLast := by rw [State.logErr_only]
@[simp] theorem State.logErr_ents (s : State) (p code a req : Nat) : (s.logErr p code a req).ents = s.ents := by rw [State.logErr_only]
@[simp] theorem State.logErr_acts (s : State) (p code a req : Nat) : (s.logErr p code a req).acts = s.acts := by rw [State.logErr_only]
@[simp] theorem State.logErr_spanQ (s : State) (p code a req : Nat) : (s.logErr p code a req).spanQ = s.spanQ := by rw [State.logErr_only]
@[simp] theorem State.logErr_padLog (s : State) (p code a req : Nat) : (s.logErr p code a req).padLog = s.padLog := by rw [State.logErr_only]
@[simp] theorem State.logErr_spans (s : State) (p code a req : Nat) : (s.logErr p code a req).spans = s.spans := by rw [State.logErr_only]
@[simp] theorem State.logErr_evtIn (s : State) (p code a req : Nat) : (s.logErr p code a req).evtIn = s.evtIn := by rw [State.logErr_only]
@[simp] theorem State.logErr_evtFifo (s : State) (p code a req : Nat) : (s.logErr p code a req).evtFifo = s.evtFifo := by rw [State.logErr_only]
@[simp] theorem State.logErr_evtSeq (s : State) (p code a req : Nat) : (s.logErr p code a req).evtSeq = s.evtSeq := by rw [State.logErr_only]
@[simp] theorem State.logErr_evtLost (s : State) (p code a req : Nat) : (s.logErr p code a req).evtLost = s.evtLost := by rw [State.logErr_only]
@[simp] theorem State.logErr_net (s : State) (p code a req : Nat) : (s.logErr p code a req).net = s.net := by rw [State.logErr_only]
@[simp] theorem State.logErr_rad (s : State) (p code a req : Nat) : (s.logErr p code a req).rad = s.rad := by rw [State.logErr_only]
@[simp] theorem State.logErr_wbuf (s : State) (p code a req : Nat) : (s.logErr p code a req).wbuf = s.wbuf := by rw [State.logErr_only]
@[simp] theorem State.logErr_dcache (s : State) (p code a req : Nat) : (s.logErr p code a req).dcache = s.dcache := by rw [State.logErr_only]
@[simp] theorem State.logErr_cores (s : State) (p code a req : Nat) : (s.logErr p code a req).cores = s.cores := by rw [State.logErr_only]
@[simp] theorem State.logErr_icache (s : State) (p code a req : Nat) : (s.logErr p code a req).icache = s.icache := by rw [State.logErr_only]
@[simp] theorem State.logErr_dma (s : State) (p code a req : Nat) : (s.logErr p code a req).dma = s.dma := by rw [State.logErr_only]
@[simp] theorem State.logErr_dmaLast (s : State) (p code a req : Nat) : (s.logErr p code a req).dmaLast = s.dmaLast := by rw [State.logErr_only]
@[simp] theorem State.logErr_dmaClear (s : State) (p code a req : Nat) : (s.logErr p code a req).dmaClear = s.dmaClear := by rw [State.logErr_only]
@[simp] theorem State.logErr_fl (s : State) (p code a req : Nat) : (s.logErr p code a req).fl = s.fl := by rw [State.logErr_only]
@[simp] theorem State.logErr_plls (s : State) (p code a req : Nat) : (s.logErr p code a req).plls = s.plls := by rw [State.logErr_only]
@[simp] theorem State.logErr_refGood (s : State) (p code a req : Nat) : (s.logErr p code a req).refGood = s.refGood := by rw [State.logErr_only]
@[simp] theorem State.logErr_refLost (s : State) (p code a req : Nat) : (s.logErr p code a req).refLost = s.refLost := by rw [State.logErr_only]
@[simp] theorem State.logErr_synAt (s : State) (p code a req : Nat) : (s.logErr p code a req).synAt = s.synAt := by rw [State.logErr_only]
@[simp] theorem State.logErr_loGateAt (s : State) (p code a req : Nat) : (s.logErr p code a req).loGateAt = s.loGateAt := by rw [State.logErr_only]
@[simp] theorem State.logErr_vig (s : State) (p code a req : Nat) : (s.logErr p code a req).vig = s.vig := by rw [State.logErr_only]
@[simp] theorem State.logErr_guards (s : State) (p code a req : Nat) : (s.logErr p code a req).guards = s.guards := by rw [State.logErr_only]
@[simp] theorem State.logErr_pwr (s : State) (p code a req : Nat) : (s.logErr p code a req).pwr = s.pwr := by rw [State.logErr_only]
@[simp] theorem State.logErr_spi (s : State) (p code a req : Nat) : (s.logErr p code a req).spi = s.spi := by rw [State.logErr_only]
@[simp] theorem State.logErr_can (s : State) (p code a req : Nat) : (s.logErr p code a req).can = s.can := by rw [State.logErr_only]
@[simp] theorem State.logErr_uart (s : State) (p code a req : Nat) : (s.logErr p code a req).uart = s.uart := by rw [State.logErr_only]
@[simp] theorem State.logErr_i2c (s : State) (p code a req : Nat) : (s.logErr p code a req).i2c = s.i2c := by rw [State.logErr_only]
@[simp] theorem State.logErr_jtag (s : State) (p code a req : Nat) : (s.logErr p code a req).jtag = s.jtag := by rw [State.logErr_only]

end Sys2Proof.Machine
end

