-- ==== Sys2Proof/Laws/Cpu.lean ====
section
/-! SUPPORT. Thithigor cores: fetching from the core's own TLM, waiting single steps, and what a ready core's instruction does. -/

namespace Sys2Proof.Machine

/-- Parcels in the core's own TLM are fetched without effect. -/
theorem Cpu.fetchAll_own (s : State) (c : Nat) : ∀ (n a : Nat), a + 2 * n ≤ 0x40000 → Cpu.fetchAll s c a n = .ok s := by
  intro n
  induction n with
  | zero => intro a _; rfl
  | succ n ih =>
    intro a h
    have h1 : a % 2 ^ 32 = a := Nat.mod_eq_of_lt (by omega)
    have h2 : rangeOf a = .own := by unfold rangeOf; rw [if_pos (by omega)]
    unfold Cpu.fetchAll
    rw [h1]
    unfold Cpu.fetchParcel
    simp only [h2]
    exact ih (a + 2) (by omega)

/-- With no single step waiting, nothing is carried out. -/
theorem Cpu.settle_quiet {s : State} (h : s.Quiet) (n : Nat) : Cpu.settle n s = s := by
  cases n with
  | zero => rfl
  | succ n =>
    unfold Cpu.settle
    have e : (List.range 6).find? (fun c => (s.core c).step && Cpu.alive s c && Cpu.state s c == 3) = none := by
      rw [List.find?_eq_none]
      intro c hc
      have := h ⟨c, List.mem_range.1 hc⟩
      simp only at this
      simp [this]
    rw [e]

/-! ### Registers and cores do not depend on each other -/

theorem State.setWords_setCore (s : State) (c : Nat) (k : CoreSt) (n : Nat) (a v : Nat) :
    (s.setCore c k).setWords a v n = (s.setWords a v n).setCore c k := by
  induction n generalizing s a v with
  | zero => rfl
  | succ n ih =>
    rw [State.setWords, State.setWords, ← ih]
    rfl

theorem State.get_setCore (s : State) (c : Nat) (k : CoreSt) (b : Nat) (f : Fld) : (s.setCore c k).get b f = s.get b f :=
  State.get_congr (s := s.setCore c k) (t := s) rfl b f

theorem State.wordsAt_setCore (s : State) (c : Nat) (k : CoreSt) (a n : Nat) :
    (s.setCore c k).wordsAt a n = s.wordsAt a n := State.wordsAt_congr (fun _ _ => rfl)

theorem State.put_setCore (s : State) (c : Nat) (k : CoreSt) (b : Nat) (f : Fld) (v : Nat) :
    (s.setCore c k).put b f v = (s.put b f v).setCore c k := by
  rw [State.put_eq, State.put_eq, State.wordsAt_setCore, State.setWords_setCore]

theorem State.core_setCore_same (s : State) (c : Fin 6) (k : CoreSt) : (s.setCore c.val k).core c.val = k := by
  simp [State.core, State.setCore]

theorem State.core_setCore_ne (s : State) {c d : Nat} (k : CoreSt) (h : c ≠ d) : (s.setCore c k).core d = s.core d := by
  simp [State.core, State.setCore, Vector.getElem?_setIfInBounds_ne h]

theorem State.setCore_setCore (s : State) (c : Nat) (k l : CoreSt) : (s.setCore c k).setCore c l = s.setCore c l := by
  simp [State.setCore, Vector.setIfInBounds_setIfInBounds]

theorem State.core_put (s : State) (b : Nat) (f : Fld) (v c : Nat) : (s.put b f v).core c = s.core c := by
  simp [State.core]

theorem Cpu.state_setCore (s : State) (c d : Nat) (k : CoreSt) : Cpu.state (s.setCore d k) c = Cpu.state s c :=
  State.get_setCore _ _ _ _ _

theorem Cpu.core_unhold (s : State) (c d : Nat) : (Cpu.unhold s c).core d = s.core d := rfl

/-! ### A ready core -/

/-- A core that is ready runs the instruction through its stages and retires it. -/
theorem Cpu.row_done {s : State} {c : Fin 6} {op : Op} {act : Act} {d : Done} (hr : Cpu.Ready s c op)
    (ho : Cpu.oddTarget (s.core c.val) op ((s.core c.val).pc.toNat + 2 * op.len) = none) (hd : op.defined = true)
    (ha : op.accepted = true) (h : act s c.val op ((s.core c.val).pc.toNat + 2 * op.len) = .ok d) :
    Cpu.row s c op act =
      Cpu.settle 8 (Cpu.retire d false c.val (s.core c.val).pc.toNat ((s.core c.val).pc.toNat + 2 * op.len)) := by
  obtain ⟨h1, h2, h3, h4, h5, h6⟩ := hr
  have hm : ((s.core c.val).pc.toNat + 2 * op.len) % 2 ^ 32 = (s.core c.val).pc.toNat + 2 * op.len :=
    Nat.mod_eq_of_lt (by omega)
  unfold Cpu.row
  rw [h1, h2]
  simp only [beq_self_eq_true, Bool.and_self, if_true]
  unfold Cpu.run
  rw [Cpu.fetchAll_own _ _ _ _ h4]
  unfold Cpu.attempt
  dsimp only
  rw [hm, ho]
  simp only [h5, hd, ha, h6, Bool.not_true, Bool.false_and, if_false, Bool.false_eq_true]
  rw [h]

/-- An instruction that stops instead has the effect of its stop. -/
theorem Cpu.row_stop {s : State} {c : Fin 6} {op : Op} {act : Act} {x : Stop} (hr : Cpu.Ready s c op)
    (ho : Cpu.oddTarget (s.core c.val) op ((s.core c.val).pc.toNat + 2 * op.len) = none) (hd : op.defined = true)
    (ha : op.accepted = true) (h : act s c.val op ((s.core c.val).pc.toNat + 2 * op.len) = .error x) :
    Cpu.row s c op act = Cpu.settle 8 (Cpu.stop s c.val x) := by
  obtain ⟨h1, h2, h3, h4, h5, h6⟩ := hr
  have hm : ((s.core c.val).pc.toNat + 2 * op.len) % 2 ^ 32 = (s.core c.val).pc.toNat + 2 * op.len :=
    Nat.mod_eq_of_lt (by omega)
  unfold Cpu.row
  rw [h1, h2]
  simp only [beq_self_eq_true, Bool.and_self, if_true]
  unfold Cpu.run
  rw [Cpu.fetchAll_own _ _ _ _ h4]
  unfold Cpu.attempt
  dsimp only
  rw [hm, ho]
  simp only [h5, hd, ha, h6, Bool.not_true, Bool.false_and, if_false, Bool.false_eq_true]
  rw [h]

/-- Retirement of an instruction that has changed registers of its core only. -/
theorem Cpu.retire_regs (s : State) (c : Fin 6) (k : CoreSt) (t : Option Nat) (n : Nat) (h2 : Cpu.state s c.val ≠ 0)
    (hk : k.pc = (s.core c.val).pc) :
    Cpu.retire { s := s.setCore c.val k, pc := t } false c.val (s.core c.val).pc.toNat n =
      Cpu.retired s c { k with pc := BitVec.ofNat 32 (t.getD n) } := by
  have hs : ¬ (Cpu.state (s.setCore c.val k) c.val = 0 ∨ ((s.setCore c.val k).core c.val).pc.toNat ≠ (s.core c.val).pc.toNat) := by
    rw [Cpu.state_setCore, State.core_setCore_same, hk]
    simp [h2]
  unfold Cpu.retire
  dsimp only
  rw [if_neg hs]
  simp only [Bool.false_eq_true, if_false]
  have e : Cpu.unhold (s.setCore c.val k) c.val = (Cpu.unhold s c.val).setCore c.val k := rfl
  unfold Cpu.retired State.modCore State.countWrap
  rw [e, State.get_setCore, State.put_setCore, State.put_setCore, State.core_setCore_same, State.setCore_setCore]

/-- It leaves no single step waiting. -/
theorem Cpu.retired_quiet {s : State} (h : s.Quiet) (c : Fin 6) (k : CoreSt) (hk : k.step = false) :
    (Cpu.retired s c k).Quiet := by
  intro d
  unfold Cpu.retired
  by_cases e : d = c
  · subst e
    rw [State.core_setCore_same, hk]
  · rw [State.core_setCore_ne _ _ (fun x => e (Fin.ext x.symm))]
    unfold State.countWrap
    rw [State.core_put, State.core_put, Cpu.core_unhold]
    exact h d

/-- A register-only instruction of a ready core, in one line. -/
theorem Cpu.row_regs {s : State} {c : Fin 6} {op : Op} {act : Act} {k : CoreSt} {t : Option Nat} (hr : Cpu.Ready s c op)
    (ho : Cpu.oddTarget (s.core c.val) op ((s.core c.val).pc.toNat + 2 * op.len) = none) (hd : op.defined = true)
    (ha : op.accepted = true) (hk : k.pc = (s.core c.val).pc) (hq : k.step = false)
    (h : act s c.val op ((s.core c.val).pc.toNat + 2 * op.len) = .ok { s := s.setCore c.val k, pc := t }) :
    Cpu.row s c op act =
      Cpu.retired s c { k with pc := BitVec.ofNat 32 (t.getD ((s.core c.val).pc.toNat + 2 * op.len)) } := by
  rw [Cpu.row_done hr ho hd ha h, Cpu.retire_regs _ _ _ _ _ (by rw [hr.2.1]; decide) hk, Cpu.settle_quiet]
  exact Cpu.retired_quiet hr.2.2.1 _ _ hq

end Sys2Proof.Machine
end

