-- ==== Sys2Proof/Laws/Bus.lean ====
section
/-! SUPPORT. Accesses to the register window: where a word access to a page that answers goes, and what it leaves in COUNT. -/

namespace Sys2Proof.Machine

/-- Two offsets of a page are of one island: the same accesses are ahead of them. -/
theorem Bus.behind_page {l : List Held} {p off : Nat} (ho : off < 0x1000) :
    Bus.behind l (Bus.base + (pg p + off)) = Bus.behind l (Bus.base + pg p) := by
  have e1 : (Bus.base + (pg p + off) - Bus.base) / 0x1000 = p := by unfold pg; omega
  have e2 : (Bus.base + pg p - Bus.base) / 0x1000 = p := by unfold pg; omega
  have e3 : Bus.base ≤ Bus.base + (pg p + off) := by omega
  have e4 : Bus.base ≤ Bus.base + pg p := by omega
  unfold Bus.behind Bus.island
  simp only [e1, e2, decide_eq_true e3, decide_eq_true e4]

/-- Where no access of a list is ahead, none of its first ones is. -/
theorem Bus.behind_takeWhile {l : List Held} (f : Held → Bool) {a : Nat} (h : Bus.behind l a = false) :
    Bus.behind (l.takeWhile f) a = false := by
  unfold Bus.behind at *
  rw [Bool.and_eq_false_iff] at *
  refine h.imp_right fun h => ?_
  rw [List.any_eq_false] at *
  exact fun x hx => h x (List.takeWhile_subset _ hx)

/-- Nothing comes before an access that reaches its page. -/
theorem Bus.ready_reg {s : State} {req : Req} {p off : Nat} (h : s.Reaches req p) (ho : off < 0x1000) :
    Bus.ready s req.code (Bus.base + (pg p + off)) = s ∧ Bus.behind s.held (Bus.base + (pg p + off)) = false := by
  obtain ⟨_, _, _, _, _, h5, h6⟩ := h
  have h7 : Bus.behind s.held (Bus.base + (pg p + off)) = false := by rw [Bus.behind_page ho]; exact h5
  have h8 : (if req.code < 6 then s.drainAll req.code else s) = s := by
    split
    · rename_i hc
      unfold State.drainAll
      rw [h6 hc]
      rfl
    · rfl
  refine ⟨?_, h7⟩
  unfold Bus.ready
  dsimp only
  rw [h8, h7]
  rfl

/-- The route of a word access to a page that answers. -/
theorem Bus.way_reg {s : State} {req : Req} {p off : Nat} {b : Blk} {i : Nat} (h : s.Reaches req p)
    (hp : pageInfo p = some (b, i)) (ho : off < 0x1000) :
    Bus.way s req.code (Bus.base + (pg p + off)) = .reg p b i off := by
  obtain ⟨_, h1, h2, h3, h4, h5, _⟩ := h
  have e1 : Bus.base + (pg p + off) - Bus.base = pg p + off := by omega
  have e2 : (pg p + off) / 0x1000 = p := by unfold pg; omega
  have e3 : (pg p + off) % 0x1000 = off := by unfold pg; omega
  have e4 : ¬ (Bus.base + (pg p + off) < Bus.base) := by omega
  unfold Bus.way
  have h6 := Bus.behind_takeWhile (l := s.held) (fun h => h.req != Bus.who req.code && h.req != req.code)
    (a := Bus.base + (pg p + off)) (by rw [Bus.behind_page ho]; exact h5)
  simp only [e1, e2, e3, e4, if_false, hp, h1, h2, h3, Bool.or_self, Bool.false_eq_true, false_or, h6, or_false]
  rw [if_neg h4]

/-- A word write command at a page that answers. -/
theorem Bus.command_reg {s : State} {req : Req} {p off : Nat} {b : Blk} {i : Nat} (v : Nat) (h : s.Reaches req p)
    (hp : pageInfo p = some (b, i)) (ho : off < 0x1000) (h4 : off % 4 = 0) :
    Bus.command s req.code (pg p + off) v = (Bus.put s req.code p b i off (v % 2 ^ 32)).answered req [] := by
  unfold Bus.command Bus.commandN Bus.writeN
  obtain ⟨h5, h6⟩ := Bus.ready_reg h ho
  simp only [h5, h6, show (4 : Nat) ≠ 8 by decide, if_false, if_true, Bool.false_eq_true]
  unfold Bus.write
  have e : ¬ ((Bus.base + (pg p + off)) % 4 ≠ 0) := by unfold Bus.base pg; omega
  rw [if_neg e, Bus.way_reg h hp ho]
  rfl

/-- A word read command at a page that answers. -/
theorem Bus.fetch_reg {s : State} {req : Req} {p off : Nat} {b : Blk} {i : Nat} (h : s.Reaches req p)
    (hp : pageInfo p = some (b, i)) (ho : off < 0x1000) (h4 : off % 4 = 0) :
    Bus.fetch s req.code (pg p + off) =
      (Bus.get s req.code p b i off).2.answered req [BitVec.ofNat 32 (Bus.get s req.code p b i off).1] := by
  unfold Bus.fetch Bus.read
  obtain ⟨h5, h6⟩ := Bus.ready_reg h ho
  simp only [h5, h6, if_false, Bool.false_eq_true]
  have e : ¬ ((Bus.base + (pg p + off)) % 4 ≠ 0) := by unfold Bus.base pg; omega
  rw [if_neg e, Bus.way_reg h hp ho]
  rfl

/-- Answering changes the answer only. -/
theorem State.answered_core (s : State) (req : Req) (l : List Word) (c : Nat) : (s.answered req l).core c = s.core c := rfl

/-- A write command of a page that answers, with no single step waiting after it. -/
theorem Cmd.write_reg {s : State} {req : Req} {p off : Nat} {b : Blk} {i : Nat} {v : Nat} (h : s.Reaches req p)
    (hp : pageInfo p = some (b, i)) (ho : off < 0x1000) (h4 : off % 4 = 0)
    (hq : (Bus.put s req.code p b i off (v % 2 ^ 32)).Quiet) :
    Cmd.write s req (pg p + off) v = .next ((Bus.put s req.code p b i off (v % 2 ^ 32)).answered req []) := by
  unfold Cmd.write
  rw [Bus.command_reg v h hp ho h4, Cpu.settle_quiet]
  exact fun c => hq c

/-- A word write that logs nothing counts nothing. -/
theorem Bus.put_eq (s : State) (req p : Nat) (b : Blk) (i off v : Nat)
    (h : (if hasHeader b && off < 0x040 then Bus.putHeader s req p off v else Bus.putBlock s req p b i off v).get
      (pg (ownerPage p)) H.COUNT ≤ s.get (pg (ownerPage p)) H.COUNT) :
    Bus.put s req p b i off v =
      if hasHeader b && off < 0x040 then Bus.putHeader s req p off v else Bus.putBlock s req p b i off v := by
  unfold Bus.put
  dsimp only
  rw [if_neg]
  have h1 := State.get_lt s (pg (ownerPage p)) H.COUNT
  change _ < 2 ^ 8 at h1
  unfold satInc
  omega

/-- Registers written leave the cores as they are. -/
theorem State.quiet_put {s : State} (h : s.Quiet) (b : Nat) (f : Fld) (v : Nat) : (s.put b f v).Quiet := by
  intro c
  rw [State.core_put]
  exact h c

end Sys2Proof.Machine
end

