-- ==== Sys2Proof/Laws/Frame.lean ====
section
/-! SUPPORT. Frames: which register words an update may change, composed update by update. -/

namespace Sys2Proof.Machine

theorem State.RegsOnly.refl (s : State) (ws : List Nat) : s.RegsOnly s ws := ⟨rfl, fun _ _ => rfl⟩

theorem State.RegsOnly.trans {s t u : State} {ws : List Nat} (h1 : s.RegsOnly t ws) (h2 : t.RegsOnly u ws) : s.RegsOnly u ws := by
  refine ⟨?_, fun a ha => (h2.2 a ha).trans (h1.2 a ha)⟩
  rw [h2.1, h1.1]

theorem State.RegsOnly.mono {s t : State} {ws vs : List Nat} (h : s.RegsOnly t ws) (hs : ∀ a ∈ ws, a ∈ vs) : s.RegsOnly t vs :=
  ⟨h.1, fun a ha => h.2 a (fun x => ha (hs a x))⟩

theorem State.RegsOnly.setReg (s : State) (a v : Nat) : s.RegsOnly (s.setReg a v) [a] :=
  ⟨rfl, fun x hx => State.reg_setReg_ne _ _ (by simpa using hx)⟩

theorem State.RegsOnly.answered (s : State) (req : Req) (l : List Word) : s.RegsOnly (s.answered req l) [] :=
  ⟨rfl, fun _ _ => rfl⟩

/-- A field of one word. -/
theorem State.RegsOnly.put (s : State) (b : Nat) (f : Fld) (v : Nat) (hf : f.words = 1) : s.RegsOnly (s.put b f v) [b + f.off] := by
  refine ⟨?_, fun x hx => ?_⟩
  · rw [State.put_only]
  · rw [State.put_eq, hf]
    exact State.reg_setReg_ne _ _ (by simpa using hx)

theorem State.RegsOnly.raise (s : State) (p n : Nat) : s.RegsOnly (s.raise p n) [pg p + 0x014] := State.RegsOnly.put _ _ _ _ rfl

theorem State.RegsOnly.raiseIf (s : State) (c : Bool) (p n : Nat) : s.RegsOnly (s.raiseIf c p n) [pg p + 0x014] := by
  unfold State.raiseIf
  split
  · exact State.RegsOnly.raise _ _ _
  · exact State.RegsOnly.refl _ _

theorem State.RegsOnly.each {α : Type} (l : List α) (f : State → α → State) (ws : List Nat)
    (h : ∀ s x, State.RegsOnly s (f s x) ws) (s : State) : s.RegsOnly (s.each l f) ws := by
  unfold State.each
  induction l generalizing s with
  | nil => exact State.RegsOnly.refl _ _
  | cons x t ih => exact (h s x).trans (ih (f s x))

/-- Registers elsewhere, cores, queues and memory do not move. -/
theorem State.RegsOnly.quiet {s t : State} {ws : List Nat} (h : s.RegsOnly t ws) (hq : s.Quiet) : t.Quiet := by
  rw [h.1]
  exact hq

/-- A field whose words are not among those that may change. -/
theorem State.RegsOnly.get {s t : State} {ws : List Nat} (h : s.RegsOnly t ws) (b : Nat) (f : Fld)
    (hn : ∀ i < f.words, b + f.off + 4 * i ∉ ws) : t.get b f = s.get b f := by
  rw [State.get_eq, State.get_eq, State.wordsAt_congr (fun i hi => h.2 _ (hn i hi))]

theorem State.get_answered (s : State) (req : Nat) (l : List Word) (e : Bool) (b : Nat) (f : Fld) :
    (s.answer req l e).get b f = s.get b f := State.get_congr (s := s.answer req l e) (t := s) rfl b f

/-! ### Register commands -/

/-- A write to a block's own register, unlocked and not read-only, reaches the block's hook. -/
theorem Bus.putBlock_hook {s : State} {req p : Nat} {b : Blk} {i off v : Nat} (hl : s.locked (ownerPage p) = false)
    (h1 : Bus.fields b i off ≠ []) (h2 : (Bus.fields b i off).all (fun f => f.acc == .rd) = false) :
    Bus.putBlock s req p b i off v =
      Bus.hook s req p b i off v (Bus.store req (ownerPage p) (pg p + off) (Bus.fields b i off) v) := by
  unfold Bus.putBlock
  simp only [h1, h2, hl, if_false, Bool.false_and, Bool.false_eq_true]

/-- A register command whose hook ends in `t`, having changed the words `ws` only and logged no error. -/
theorem Cmd.sets_of {i : Instr} {s t : State} {req : Req} {p off v ii : Nat} {b : Blk} {ws : List Nat} {post : State → Prop}
    (hi : exec i s = Cmd.write s req (pg p + off) v) (hq : s.Quiet) (hw : s.Writable req p)
    (hp : pageInfo p = some (b, ii)) (ho : off < 0x1000) (h4 : off % 4 = 0)
    (hh : (hasHeader b && decide (off < 0x040)) = false) (h1 : Bus.fields b ii off ≠ [])
    (h2 : (Bus.fields b ii off).all (fun f => f.acc == .rd) = false)
    (hs : Bus.hook s req.code p b ii off (v % 2 ^ 32)
      (Bus.store req.code (ownerPage p) (pg p + off) (Bus.fields b ii off) (v % 2 ^ 32)) = t)
    (hws : s.RegsOnly t ws) (hc : t.get (pg (ownerPage p)) H.COUNT ≤ s.get (pg (ownerPage p)) H.COUNT)
    (hpost : post (t.answered req [])) : Cmd.Sets i s ws post := by
  have e : Bus.put s req.code p b ii off (v % 2 ^ 32) = t := by
    rw [Bus.put_eq]
    · rw [hh, Bus.putBlock_hook hw.2 h1 h2, hs]; rfl
    · rw [hh, Bus.putBlock_hook hw.2 h1 h2, hs]; exact hc
  refine ⟨t.answered req [], ?_, hpost, hws.trans ((State.RegsOnly.answered _ _ _).mono (by simp))⟩
  rw [hi, Cmd.write_reg hw.1 hp ho h4, e]
  rw [e]
  exact hws.quiet hq

/-- A register command of a common header that ends in `t`, having changed the words `ws` only and logged no error. -/
theorem Cmd.sets_header {i : Instr} {s t : State} {req : Req} {p off v ii : Nat} {b : Blk} {ws : List Nat} {post : State → Prop}
    (hi : exec i s = Cmd.write s req (pg p + off) v) (hq : s.Quiet) (hw : s.Reaches req p)
    (hp : pageInfo p = some (b, ii)) (hb : hasHeader b = true) (ho : off < 0x040) (h4 : off % 4 = 0)
    (hs : Bus.putHeader s req.code p off (v % 2 ^ 32) = t)
    (hws : s.RegsOnly t ws) (hc : t.get (pg (ownerPage p)) H.COUNT ≤ s.get (pg (ownerPage p)) H.COUNT)
    (hpost : post (t.answered req [])) : Cmd.Sets i s ws post := by
  have hh : (hasHeader b && decide (off < 0x040)) = true := by simp [hb, ho]
  have e : Bus.put s req.code p b ii off (v % 2 ^ 32) = t := by
    rw [Bus.put_eq]
    · rw [hh]; exact hs
    · rw [hh]; simp only [if_true]; rw [hs]; exact hc
  refine ⟨t.answered req [], ?_, hpost, hws.trans ((State.RegsOnly.answered _ _ _).mono (by simp))⟩
  rw [hi, Cmd.write_reg hw hp (by omega) h4, e]
  rw [e]
  exact hws.quiet hq

end Sys2Proof.Machine
end

