-- ==== Sys2Proof/Laws/Mem.lean ====
section
/-! SUPPORT. Memory: what each operation leaves in every byte, that the canonical form is kept, and that memory without an ECC error
is written without side effect. -/

namespace Sys2Proof.Machine

/-! ### Recording faults does not touch memory -/

@[simp] theorem State.modVigs_mem (s : State) (f : VigAll → VigAll) : (s.modVigs f).mem = s.mem := rfl
@[simp] theorem State.modVig_mem (s : State) (v : Nat) (f : VigSt → VigSt) : (s.modVig v f).mem = s.mem := rfl
@[simp] theorem State.count_mem (s : State) (b : Nat) (f : Fld) : (s.count b f).mem = s.mem := State.put_mem _ _ _ _
@[simp] theorem State.raiseIf_mem (s : State) (c : Bool) (p n : Nat) : (s.raiseIf c p n).mem = s.mem := by
  unfold State.raiseIf
  split <;> simp

/-- What each application of an effect keeps, its iteration keeps. -/
theorem State.each_keeps {α β : Type} (g : State → β) (l : List α) (f : State → α → State) (h : ∀ s x, g (f s x) = g s)
    (s : State) : g (s.each l f) = g s := by
  unfold State.each
  induction l generalizing s with
  | nil => rfl
  | cons x t ih => rw [List.foldl_cons, ih, h]

/-- What holds and each application keeps, holds after its iteration. -/
theorem State.each_inv {α : Type} (P : State → Prop) (l : List α) (f : State → α → State) (h : ∀ s x, P s → P (f s x))
    (s : State) (hs : P s) : P (s.each l f) := by
  unfold State.each
  induction l generalizing s with
  | nil => exact hs
  | cons x t ih => exact ih _ (h s x hs)

@[simp] theorem Vig.post_mem (s : State) (v typ : Nat) (l : List Nat) : (Vig.post s v typ l).mem = s.mem := by
  unfold Vig.post
  split <;> simp

@[simp] theorem Vig.recordWith_mem (s : State) (v : Nat) (r : Recipe) (o t : Nat) (l : List Nat) :
    (Vig.recordWith s v r o t l).mem = s.mem := by
  simp [Vig.recordWith]

@[simp] theorem Vig.record_mem (s : State) (v : Nat) (r : Recipe) (o t : Nat) : (Vig.record s v r o t).mem = s.mem := by
  simp [Vig.record]

@[simp] theorem Vig.island_mem (s : State) (i : Nat) (a b : Bool) : (Vig.island s i a b).mem = s.mem := by
  unfold Vig.island
  split
  · rfl
  · exact State.each_keeps State.mem _ _ (fun s x => by simp) s

@[simp] theorem Vig.take_mem (s : State) (v : Nat) (r : Recipe) : (Vig.take s v r).mem = s.mem := by
  unfold Vig.take
  split
  · simp
  · simp only [State.modVigs_mem]
    split <;> simp

@[simp] theorem Vig.finishWith_mem (s : State) (r : Recipe) (o : Nat) (l : List Nat) : (Vig.finishWith s r o l).mem = s.mem := by
  unfold Vig.finishWith
  dsimp only
  split
  · rfl
  · simp only [State.raiseIf_mem]
    split <;> simp

@[simp] theorem Vig.finish_mem (s : State) (r : Recipe) (o : Nat) : (Vig.finish s r o).mem = s.mem := Vig.finishWith_mem s r o []

@[simp] theorem State.fault_mem (s : State) (a b c d : Nat) : (s.fault a b c d).mem = s.mem := by
  unfold State.fault
  dsimp only
  split <;> simp

@[simp] theorem State.faultFixed_mem (s : State) (a b c : Nat) : (s.faultFixed a b c).mem = s.mem := by
  unfold State.faultFixed
  dsimp only
  split <;> simp

@[simp] theorem State.faultNoted_mem (s : State) (a b c d : Nat) : (s.faultNoted a b c d).mem = s.mem := by
  unfold State.faultNoted
  dsimp only
  split <;> simp

/-! ### ECC, caches and write buffers -/

@[simp] theorem State.dropLine_mem (s : State) (c l : Nat) : (s.dropLine c l).mem = s.mem := rfl

@[simp] theorem State.invalidate_mem (s : State) (w : Option Nat) (a n : Nat) : (s.invalidate w a n).mem = s.mem :=
  State.each_keeps State.mem _ (fun s c => s.each (linesOf a n) (fun s l => s.dropLine c l))
    (fun s c => State.each_keeps State.mem _ (fun s l => s.dropLine c l) (fun _ _ => rfl) s) s

@[simp] theorem State.eccClear_mem (s : State) (w : Nat) : (s.eccClear w).mem = s.mem := by
  unfold State.eccClear
  rfl

@[simp] theorem State.eccCorrect_mem (s : State) (w : Nat) : (s.eccCorrect w).mem = s.mem := by
  unfold State.eccCorrect
  dsimp only
  split <;> simp

@[simp] theorem State.eccFatal_mem (s : State) (w : Nat) : (s.eccFatal w).mem = s.mem := by
  unfold State.eccFatal
  dsimp only
  split <;> simp

@[simp] theorem State.eccWord_mem (s : State) (w : Nat) (full : Bool) : (s.eccWord w full).mem = s.mem := by
  unfold State.eccWord
  split
  · simp
  · split <;> simp

@[simp] theorem State.eccWrite_mem (s : State) (a n : Nat) : (s.eccWrite a n).mem = s.mem :=
  State.each_keeps State.mem _ _ (fun _ _ => State.eccWord_mem _ _ _) s

@[simp] theorem State.eccRead_mem (s : State) (a n : Nat) : (s.eccRead a n).1.mem = s.mem := by
  unfold State.eccRead
  have : ∀ (l : List Nat) (x : State × Bool), (l.foldl (fun (s, ok) w =>
      match s.eccOf w with
      | none => (s, ok)
      | some false => (s.eccCorrect w, ok)
      | some true => (s.eccFatal w, false)) x).1.mem = x.1.mem := by
    intro l
    induction l with
    | nil => intro x; rfl
    | cons w t ih =>
      intro x
      rw [List.foldl_cons, ih]
      obtain ⟨s, ok⟩ := x
      dsimp only
      split <;> simp
  exact this _ (s, true)

/-! ### Bytes -/

theorem State.byte_setByte (s : State) (a : Nat) (v : Byte) (x : Nat) :
    (s.setByte a v).byte x = if x = a then v else s.byte x := Tab.get_set _ _ _ _ _

/-- Memory decides what a byte reads as. -/
theorem State.byte_congr {s t : State} (h : s.mem = t.mem) (x : Nat) : s.byte x = t.byte x := by
  unfold State.byte
  rw [h]

/-- Every byte after storing bytes without any check. -/
theorem State.byte_poke (s : State) (a : Nat) (l : List Nat) (x : Nat) :
    (s.poke a l).byte x = if a ≤ x ∧ x < a + l.length then BitVec.ofNat 8 (l[x - a]?.getD 0) else s.byte x := by
  induction l generalizing s a with
  | nil =>
    rw [if_neg (by simp only [List.length_nil]; omega)]
    rfl
  | cons b t ih =>
    rw [State.poke, ih, State.byte_setByte]
    simp only [List.length_cons]
    by_cases h1 : x = a
    · subst h1
      rw [if_neg (by omega), if_pos rfl, if_pos (by omega)]
      simp
    · by_cases h2 : a + 1 ≤ x ∧ x < a + 1 + t.length
      · rw [if_pos h2, if_pos (by omega)]
        have e : x - a = (x - (a + 1)) + 1 := by omega
        rw [e, List.getElem?_cons_succ]
      · rw [if_neg h2, if_neg h1, if_neg (by omega)]

/-- Every byte after a store that reaches memory. -/
theorem State.byte_store (s : State) (who : Option Nat) (a : Nat) (l : List Nat) (x : Nat) :
    (s.store who a l).byte x = if a ≤ x ∧ x < a + l.length then BitVec.ofNat 8 (l[x - a]?.getD 0) else s.byte x := by
  unfold State.store
  dsimp only
  rw [State.byte_congr (State.invalidate_mem _ _ _ _), State.byte_poke]
  split
  · rfl
  · split
    · exact State.byte_congr (State.eccWrite_mem _ _ _) x
    · rfl

/-! ### The canonical form -/

theorem State.wf_setByte {s : State} (h : Memory.wf s.mem = true) (a : Nat) (v : Byte) : Memory.wf (s.setByte a v).mem = true :=
  Tab.wf_set h a v

theorem State.wf_poke {s : State} (h : Memory.wf s.mem = true) (a : Nat) (l : List Nat) : Memory.wf (s.poke a l).mem = true := by
  induction l generalizing s a with
  | nil => exact h
  | cons b t ih => exact ih (State.wf_setByte h a _) (a + 1)

theorem State.wf_store {s : State} (h : Memory.wf s.mem = true) (who : Option Nat) (a : Nat) (l : List Nat) :
    Memory.wf (s.store who a l).mem = true := by
  unfold State.store
  dsimp only
  rw [State.invalidate_mem]
  apply State.wf_poke
  split
  · rw [State.eccWrite_mem]; exact h
  · exact h

theorem State.wf_storeEntry {s : State} (h : Memory.wf s.mem = true) (c : Nat) (e : WbLine) :
    Memory.wf (s.storeEntry c e).mem = true := by
  unfold State.storeEntry
  dsimp only
  rw [State.invalidate_mem]
  refine State.each_inv (fun t => Memory.wf t.mem = true) _ _ (fun t k ht => ?_) s h
  refine State.each_inv (fun t => Memory.wf t.mem = true) _ _ (fun u i hu => State.wf_setByte hu _ _) _ ?_
  split
  · rw [State.eccWord_mem]; exact ht
  · exact ht

theorem State.wf_drainLine {s : State} (h : Memory.wf s.mem = true) (c l : Nat) : Memory.wf (s.drainLine c l).mem = true := by
  unfold State.drainLine
  split
  · exact h
  · exact State.wf_storeEntry (s := s.setWb c _) h c _

theorem State.wf_drainAll {s : State} (h : Memory.wf s.mem = true) (c : Nat) : Memory.wf (s.drainAll c).mem = true :=
  State.each_inv (fun t => Memory.wf t.mem = true) _ _ (fun _ _ ht => State.wf_drainLine ht _ _) s h

theorem State.wf_probe {s : State} (h : Memory.wf s.mem = true) (a n : Nat) : Memory.wf (s.probe a n).mem = true :=
  State.each_inv (fun t => Memory.wf t.mem = true) _ _
    (fun t _ ht => State.each_inv (fun t => Memory.wf t.mem = true) _ _ (fun _ _ hu => State.wf_drainLine hu _ _) t ht) s h

theorem State.wf_devRead {s : State} (h : Memory.wf s.mem = true) (a n : Nat) : Memory.wf (s.devRead a n).1.mem = true := by
  unfold State.devRead
  split
  · dsimp only
    rw [State.eccRead_mem]
    exact State.wf_probe h a n
  · exact h
  · exact h
  · exact h
  · exact h

theorem State.wf_blockWrite {s : State} (h : Memory.wf s.mem = true) (a : Nat) (l : List Nat) :
    Memory.wf (s.blockWrite a l).1.mem = true := by
  unfold State.blockWrite
  split
  · exact State.wf_store h _ _ _
  · exact State.wf_store h _ _ _
  · exact h

theorem State.wf_devWrite {s : State} (h : Memory.wf s.mem = true) (a : Nat) (l : List Nat) :
    Memory.wf (s.devWrite a l).1.mem = true := by
  unfold State.devWrite
  split
  · split
    · exact h
    · exact State.wf_store h _ _ _
  · exact State.wf_store h _ _ _
  · exact h

/-! ### Memory without an ECC error -/

theorem State.eccWord_clean {s : State} (h : s.eccBad = []) (w : Nat) (full : Bool) : s.eccWord w full = s := by
  unfold State.eccWord State.eccClear
  split
  · rw [h, List.filter_nil, ← h]
  · have : s.eccOf w = none := by simp [State.eccOf, h]
    rw [this]

theorem State.eccWrite_clean {s : State} (h : s.eccBad = []) (a n : Nat) : s.eccWrite a n = s := by
  unfold State.eccWrite State.each
  generalize ecwOf a n = l
  induction l with
  | nil => rfl
  | cons w t ih => rw [List.foldl_cons, State.eccWord_clean h]; exact ih

theorem State.poke_only (s : State) (a : Nat) (l : List Nat) : s.poke a l = { s with mem := (s.poke a l).mem } := by
  induction l generalizing s a with
  | nil => rfl
  | cons b t ih =>
    rw [State.poke, ih]
    rfl

theorem State.invalidate_only (s : State) (w : Option Nat) (a n : Nat) :
    s.invalidate w a n = { s with dcache := (s.invalidate w a n).dcache } := by
  have one : ∀ (c : Nat) (l : List Nat) (t : State), (t.each l (fun s x => s.dropLine c x)) =
      { t with dcache := (t.each l (fun s x => s.dropLine c x)).dcache } := by
    intro c l
    induction l with
    | nil => intro t; rfl
    | cons x u ih =>
      intro t
      have := ih (t.dropLine c x)
      unfold State.each at this ⊢
      rw [List.foldl_cons, this]
      rfl
  unfold State.invalidate
  generalize (List.range 6).filter (fun c => w ≠ some c) = cs
  induction cs generalizing s with
  | nil => rfl
  | cons c u ih =>
    have h1 := ih (s.each (linesOf a n) (fun s l => s.dropLine c l))
    have h2 := one c (linesOf a n) s
    unfold State.each at h1 h2 ⊢
    rw [List.foldl_cons, h1, h2]

/-- A store where no word holds an ECC error changes bytes and drops cache lines, nothing else. -/
theorem State.store_only {s : State} (h : s.eccBad = []) (who : Option Nat) (a : Nat) (l : List Nat) :
    s.store who a l = { s with mem := (s.store who a l).mem, dcache := (s.store who a l).dcache } := by
  unfold State.store
  dsimp only
  rw [State.eccWrite_clean h, ite_self, State.invalidate_only, State.poke_only]

theorem State.put8_only {s : State} (h : s.eccBad = []) (a : Nat) (l : List Nat) :
    s.put8 a l = { s with mem := (s.put8 a l).mem, dcache := (s.put8 a l).dcache } := by
  unfold State.put8 State.blockWrite
  split
  · exact State.store_only h _ _ _
  · exact State.store_only h _ _ _
  · rfl

end Sys2Proof.Machine
end

