-- ==== Sys2Proof/Tests/Slice0.lean ====
section
/-! SUPPORT. Tests: ill-formed commands that WellFormed refuses; words written out from the encodings of spec/12; worked values of the
spec; and for every statement with hypotheses a state and operands that meet them (witness_ theorems). -/

namespace Sys2Proof.Machine

set_option Elab.async false

/-! ### Ill-formed commands -/

/-- Samples stay within −128 to 127, of a channel, of the second antenna of a beam and of the converters. -/
theorem test_wf_samples : Smp.wf ⟨127, -128, 0, 0⟩ = true ∧ Smp.wf ⟨128, 0, 0, 0⟩ = false ∧ Smp.wf ⟨0, 0, 0, -129⟩ = false ∧
    IQ.wf (-128, 127) = true ∧ IQ.wf (0, 128) = false ∧ ChainIn.wf ⟨[(0, -129)], [], false, 0, 0, 0, false, false, 0⟩ = false := by decide +kernel

/-- Samples arrive for channels 0 to 511; a covariance window holds four chains at a time. -/
theorem test_wf_feeds : Instr.wf (.groupCommitAction 0 0 [(512, [])]) = false ∧ Instr.wf (.groupCommitAction 0 0 [(0, [⟨0, 200, 0, 0⟩])]) = false ∧
    Instr.wf (.capDone [[(-129, 0)]]) = false ∧ Instr.wf (.intervalEnd 0 [⟨0, 128, 0, 0⟩]) = false ∧
    Instr.wf (.covWindowEnd [[(0, 0)]]) = false ∧ Instr.wf (.sampleFrameSend [[(0, 0)]]) = false := by decide +kernel

/-- Records, frames and steps have their lengths and ranges. -/
theorem test_wf_lengths : Instr.wf (.spectrumRecord 0 0 [] [[]]) = false ∧ Instr.wf (.dllTrack 2) = false ∧
    Instr.wf (.sync ⟨0, 0, 0, [1, 2, 3], true, 0, 0⟩) = false ∧ Instr.wf (.spiWrite []) = false ∧ Instr.wf (.spiRead [] 2) = false ∧
    Instr.wf (.bypass 0x00) = false ∧ Instr.wf (.bypass 0x1F) = true := by decide +kernel

/-- A classic CAN frame has no BRS, a standard identifier its low bits 0, RTR no FDF, and data as long as its DLC says. -/
theorem test_wf_can : CanRx.wf ⟨0x123 <<< 18, false, false, 2, false, false, false, [1, 2], 0⟩ = true ∧
    CanRx.wf ⟨1, false, false, 0, false, false, false, [], 0⟩ = false ∧ CanRx.wf ⟨0, true, false, 0, false, true, false, [], 0⟩ = false ∧
    CanRx.wf ⟨0, true, true, 0, true, false, false, [], 0⟩ = false ∧ CanRx.wf ⟨0, true, false, 9, true, false, false, [1], 0⟩ = false ∧
    Instr.wf (.canFrameRx 0 ⟨1, false, false, 0, false, false, false, [], 0⟩) = false := by decide +kernel

/-- An instruction is one that parcels spell: a three-operand flag only with three operands, SZ and X in their ranges. -/
theorem test_wf_op : Instr.wf (.add 0 ⟨2, false, 0⟩ (.reg 1) (.reg 2) none) = true ∧
    Instr.wf (.jmp 0 (.reg 1)) = true ∧ Op.wf ⟨0x08, 0x00, [.reg 1], 0⟩ = false ∧ Op.wf ⟨0x85, 0x00, [.reg 1], 0⟩ = false := by
  decide +kernel

/-! ### Words of spec/12, bit by bit from R298, R300, R304, R306, R308 -/

/-- add.w (a1)+, (a1)+ (R303's own example). -/
theorem test_decode_add : Isa.decode [0x0840, 0x7101, 0x7101] = .ok ⟨0x08, 0x40, [.post 1 1, .post 1 1], 0⟩ [] := by decide +kernel

/-- mov.w mb0, #0x4000: OPC 0x01, SZ 2; MODE 0xB REG 0; MODE 0, two extension parcels. -/
theorem test_decode_mov : Isa.decode [0x0140, 0xB000, 0x0000, 0x4000, 0x0000] = .ok ⟨0x01, 0x40, [.buf 0, .imm 0x4000], 0⟩ [] := by
  decide +kernel

/-- rep #1024: MODE 1 with a 12-bit value. -/
theorem test_decode_rep : Isa.decode [0x8C00, 0x1400] = .ok ⟨0x8C, 0x00, [.short 0x400], 0⟩ [] := by decide +kernel

/-- mov.d (a3)+rev(0,10), (a2)+. -/
theorem test_decode_bit_reversed : Isa.decode [0x0160, 0xA30A, 0x7201, 0xFFFF] = .ok ⟨0x01, 0x60, [.rev 3 0 10, .post 2 1], 0⟩ [0xFFFF] := by
  decide +kernel

/-- fma.g (0,a2), (4,a2), (2,a2): SZ 5, F3 1. -/
theorem test_decode_fma : Isa.decode [0x3DA8, 0x4200, 0x4204, 0x4202] =
    .ok ⟨0x3D, 0xA8, [.disp 2 0, .disp 2 4, .disp 2 2], 0⟩ [] := by decide +kernel

/-- cvt.w.g (6,a2), (5,a2): X holds the size of s. -/
theorem test_decode_cvt : Isa.decode [0x4345, 0x4206, 0x4205] = .ok ⟨0x43, 0x45, [.disp 2 6, .disp 2 5], 0⟩ [] := by decide +kernel

/-- shl.b (a4)+mod(1,-1), #0x81 with .S: SAT 1, ARG [7:6] 1 and [5:0] −1; a .B immediate is one parcel. -/
theorem test_decode_shift : Isa.decode [0x3010, 0x947F, 0x0000, 0x0081] = .ok ⟨0x30, 0x10, [.modulo 4 1 0x3F, .imm 0x81], 0⟩ [] := by
  decide +kernel

/-- xor.h @0x12345678, -(a5) and or.w (a1,a2*4), (0x12345,a3). -/
theorem test_decode_logic : Isa.decode [0x2220, 0x2000, 0x5678, 0x1234, 0x8500] = .ok ⟨0x22, 0x20, [.abs 0x12345678, .pre 5], 0⟩ [] ∧
    Isa.decode [0x2140, 0x6128, 0x5300, 0x2345, 0x0001] = .ok ⟨0x21, 0x40, [.idx 1 2 2, .long 3 0x12345], 0⟩ [] := by decide +kernel

/-- mac.h a1, a2 into ACC1; aclr; dot4.q. -/
theorem test_decode_accumulator : Isa.decode [0x4821, 0x7101, 0x4200] = .ok ⟨0x48, 0x21, [.post 1 1, .disp 2 0], 0⟩ [] ∧
    Isa.decode [0x4E01] = .ok ⟨0x4E, 0x01, [], 0⟩ [] ∧ Isa.decode [0x4DC0, 0x4100, 0x4200] =
      .ok ⟨0x4D, 0xC0, [.disp 1 0, .disp 2 0], 0⟩ [] := by decide +kernel

/-- bne −2; bccl; call; djnz a3; mfc epc; sys 7; wait. -/
theorem test_decode_control : Isa.decode [0x8010, 0xFFFE] = .ok ⟨0x80, 0x10, [], 0xFFFE⟩ [] ∧
    Isa.decode [0x81E0, 0x5678, 0x1234] = .ok ⟨0x81, 0xE0, [], 0x12345678⟩ [] ∧
    Isa.decode [0x8200, 0x0010, 0x0000] = .ok ⟨0x82, 0x00, [], 0x10⟩ [] ∧ Isa.decode [0x9003, 0xFFFF] = .ok ⟨0x90, 0x03, [], 0xFFFF⟩ [] ∧
    Isa.decode [0x8D02, 0x3700] = .ok ⟨0x8D, 0x02, [.reg 7], 0⟩ [] ∧ Isa.decode [0x8707] = .ok ⟨0x87, 0x07, [], 0⟩ [] ∧
    Isa.decode [0x8900] = .ok ⟨0x89, 0x00, [], 0⟩ [] := by decide +kernel

/-- R299: undefined OPC, SZ 7, SAT without a .S variant, F3 without a three-operand form, a non-zero bit defined as 0, mode 0xC. -/
theorem test_decode_refuses : Isa.decode [0x0700, 0, 0] = .bad ∧ Isa.decode [0x08E0, 0x3100, 0x3200] = .bad ∧
    Isa.decode [0x2050, 0x3100, 0x3200] = .bad ∧ Isa.decode [0x0148, 0x3100, 0x3200] = .bad ∧ Isa.decode [0x8501] = .bad ∧
    Isa.decode [0x0840, 0xC100, 0x3200] = .bad ∧ Isa.decode [0x0840, 0x7101] = .more := by decide +kernel

/-- The table gives no bits, so no word spells a command. -/
theorem test_decode_table : decodeTableWord 16 0x0840 = none := by decide +kernel

/-! ### Worked values of the spec -/

/-- A core with a pointer and a buffer pair. -/
def tBuf (a mb ml : Word) (r k : Nat) : CoreSt :=
  { CoreSt.init with a := CoreSt.init.a.setIfInBounds r a, mb := CoreSt.init.mb.setIfInBounds k mb, ml := CoreSt.init.ml.setIfInBounds k ml }

/-- The pointer that a MOV.W from an operand leaves. -/
def tAfter (k : CoreSt) (x : Opd) (r : Nat) : Nat := ((k.places [.reg 0, x] (Isa.args 0x01 0x40)).2.1).aN r

/-- R301's table. -/
theorem test_modulo : tAfter (tBuf 0x2024 0x2000 40 4 1) (.modulo 4 1 1) 4 = 0x2000 ∧
    tAfter (tBuf 0x2000 0x2000 40 4 1) (.modulo 4 1 0x3F) 4 = 0x2024 ∧ tAfter (tBuf 0x2100 0x2000 40 4 1) (.modulo 4 1 1) 4 = 0x2014 := by
  decide +kernel

/-- R302's walk. -/
theorem test_bit_reversed : [0x3000, 0x3010, 0x3008, 0x3018, 0x3004, 0x3014, 0x300C, 0x301C].map
    (fun a => tAfter (tBuf a 0x3000 0 3 2) (.rev 3 2 3) 3) = [0x3010, 0x3008, 0x3018, 0x3004, 0x3014, 0x300C, 0x301C, 0x3000] := by
  decide +kernel

/-! ### States and operands that meet the hypotheses of the statements: steps and the common header -/

/-- Core 0 as requester. -/
def rq : Req := .core 0

/-- A write by it can reach page `p`. -/
abbrev tReady (s : State) (p : Nat) : Prop := s.Quiet ∧ s.Writable rq p

/-- Pages enabled by their EN bits. -/
def tOn (l : List Nat) : State := State.reset.each l (fun s p => s.put (pg p) H.EN 1)

theorem witness_IdleStepCountsOneTick : State.reset.pending = [] ∧ State.reset.held = [] ∧ State.reset.Quiet ∧
    State.reset.isReset .time = false ∧ State.reset.pwr.waitHost = false ∧ (∀ p : Fin 2, (Eth.egress State.reset p.val).size = 0) := by decide +kernel

/-- Pages with EN 1 and with EN 0. -/
theorem witness_PagesEnabledAtReset : hasHead 0x0B0 = true ∧ hasHead 0x0B1 = true := by decide +kernel

/-- The first unlisted word, and the last half-word before a listed page. -/
theorem witness_UnlistedPageIsBusError : State.reset.Quiet ∧ (rq.code < 6 → State.reset.wb rq.code = []) ∧ pageInfo ((0x40005000 - 0x40000000) / 0x1000) = none ∧
    pageInfo ((0x4000FFFE - 0x40000000) / 0x1000) = none ∧ 0x40005000 % 4 = 0 := by decide +kernel

/-- Page 0x010 has a shadow; a COMMIT of it is pending already. -/
theorem witness_CommitReplacesPending : let s := { State.reset with armed := [⟨0x1002C, 3, 1, 0⟩] }
    tReady s 0x010 ∧ hasHead 0x010 = true ∧ (Page.feat 0x010).testBit 0 = true ∧ (1 : BitVec 16) ≠ 0 ∧ s.frozen 0x010 = false := by
  decide +kernel

/-- Net page with a COMMIT of generation 0xFFFF pending; entry 255 and DMA channel 63 without one. -/
theorem witness_HandOverTakesTheShadow : let c : Armed := ⟨0x6202C, 0xFFFF, 0, 0⟩
    let s := { State.reset with armed := [c] }
    s.running .net = true ∧ s.armedAt (pg 0x062 + 0x02C) = some c ∧ c.gen < 2 ^ 16 ∧ s.frozen 0x062 = false ∧
      s.armedAt (Cal.key 255) = none ∧ s.armedAt (Dma.cb 63 + 0x048) = none := by decide +kernel

/-- A page without and with STICKY. -/
theorem witness_LockCommands : let s := State.reset.put (pg 0x010) H.STICKY 1
    s.Quiet ∧ s.Reaches rq 0x010 ∧ s.Reaches rq 0x011 ∧ hasHead 0x010 = true ∧ s.flag (pg 0x011) H.STICKY = false ∧
      s.flag (pg 0x010) H.STICKY = true := by decide +kernel

theorem witness_EventAndErrorClears : let s := State.reset.raise 0x062 31
    s.Quiet ∧ s.Reaches rq 0x062 ∧ hasHead 0x062 = true ∧ s.locked 0x062 = false ∧ (Page.feat 0x062).testBit 0 = true := by
  decide +kernel

/-- Flash page (not freezable), code store (freezable), and a page being frozen. -/
theorem witness_EnableFreezeCommands : let s := State.reset.put (pg 0x028) H.FREEZE 1
    tReady s 0x091 ∧ pageInfo 0x091 = some (.flash, 0) ∧ s.flag (pg 0x091) H.FREEZE = false ∧ tReady s 0x028 ∧
      (Page.feat 0x028).testBit 2 = true ∧ pageInfo 0x028 = some (.code, 0) ∧ s.running (pageIsland 0x028) = true ∧
      s.flag (pg 0x028) H.FREEZE = true ∧ s.frozen 0x028 = false ∧ tReady s 0x013 ∧ pageInfo 0x013 = some (.rfe, 3) := by decide +kernel

/-- The DMA page without an abort under way; the chain of page 0x013. -/
theorem witness_EnableFreezeCommands_dma : 0x013 = Rfe.page 3 ∧ tReady State.reset Dma.p ∧ pageInfo Dma.p = some (.dma, 0) ∧
    State.reset.dmaClear = false ∧ (∀ n : Fin 64, Dma.st State.reset n.val ≠ 4) := by decide +kernel

theorem witness_SoftResetCommands : let s := State.reset.put (pg 0x062) H.BUSY 1
    tReady s 0x028 ∧ pageInfo 0x028 = some (.code, 0) ∧ s.held = [] ∧ s.flag (pg 0x062) H.BUSY = true := by decide +kernel

/-- A free word of a calendar entry, a reserved and a read-only word of the memory page, a locked page, a held access. -/
theorem witness_RegisterWriteCommand : let s := State.reset.put (pg 0x051) ⟨0x034, 0, 1⟩ 1
    let h : Held := ⟨0, 0x40062040, true, 5, 4⟩
    let u := { State.reset with held := [h] }
    State.reset.Quiet ∧ State.reset.Reaches rq 0x052 ∧ pageInfo 0x052 = some (.calE, 0) ∧
      State.reset.locked (ownerPage 0x052) = false ∧ (∃ f, Bus.fields .calE 0 0x004 = [f] ∧ f.acc = .sh ∧ f.chk = .any) ∧
      State.reset.Reaches rq 0x090 ∧ pageInfo 0x090 = some (.mem, 0) ∧ Bus.fields .mem 0 0xFFC = [] ∧
      Bus.fields .mem 0 0x044 ≠ [] ∧ (∀ f ∈ Bus.fields .mem 0 0x044, f.acc = .rd) ∧
      (hasHeader .mem && decide (0x044 < 0x040)) = false ∧ s.Quiet ∧ s.Reaches rq 0x052 ∧ s.locked (ownerPage 0x052) = true ∧
      Bus.irqClr .calE 0x004 = false ∧ h ∈ u.held ∧ h.req = rq.code ∧ h.req ≠ 10 ∧ h.addr = 0x40062040 ∧ 0x40000000 ≤ h.addr ∧ h.write = true ∧
      (∀ g ∈ u.held, g.addr = 0x40062040 → g.write = true → g.req = rq.code ∨ g.req = Bus.who rq.code → g = h) := by
  refine ⟨by decide +kernel, by decide +kernel, by decide +kernel, by decide +kernel, ⟨_, rfl, by decide +kernel, by decide +kernel⟩, ?_⟩
  decide +kernel

theorem witness_EventAndErrorClears_levels : tReady State.reset 0x001 := by decide +kernel

theorem witness_StepKeepsCanonicalForms : State.reset.Canon ∧ Net.Shaped State.reset ∧ step State.reset = .next State.reset.idle := by
  refine ⟨by decide +kernel, by decide +kernel, ?_⟩
  rfl

/-! ### Receive chains, capture, acquisition, tracking -/

/-- Chain 0 enabled with its monitor on, chain 1 off, a bias on antenna 0, SHORT on antenna 1. -/
def tRfe : State :=
  let s := ((tOn [0x010]).wput (Rfe.b 0) Rfe.MON_CFG_MON_EN 1).wput (Rfe.b 0) Rfe.MON_DST_ADDR 0x10000000
  let s := { (s.modCh 0 (fun c => { c with biasOn := true })).modCh 2 (fun c => { c with shortAt := some 5 }) with validLog := [(0, 0, true)] }
  ((s.put (Rfe.b 2) Rfe.BIAS_CTL_BIAS_EN 1).put (Rfe.b 2) Rfe.BIAS_CTL_AUTO_RETRY 1).put (Rfe.b 2) Rfe.BIAS_STAT_STATE 3

theorem witness_ReceiveChainCommands : tReady tRfe (Rfe.page 0) ∧ tRfe.en (Rfe.page 0) = true ∧ tRfe.frozen (Rfe.page 0) = false ∧
    tRfe.flag (pg (Rfe.page 0)) H.FREEZE = false ∧ Rfe.busy tRfe 0 = false ∧ Rfe.oscPending tRfe (0 % 2) = false ∧
    tReady tRfe (Rfe.page 3) ∧ Rfe.busy tRfe 3 = false ∧ tRfe.en (Rfe.page 3) = false := by decide +kernel

/-- Every block of chain 0 counts. -/
theorem witness_SpectrumAndUpdateTick_blocks : ∀ n, (tRfe.ch 0).mon.at_ ≤ n → Rfe.goodBlock tRfe 0 n = true := by
  have hv : tRfe.validLog = [(0, 0, true)] := by decide +kernel
  have hs : (tRfe.ch 0).mon.skips = [] := by decide +kernel
  intro n _
  simp [Rfe.goodBlock, State.validSpan, State.validAt, hv, hs]

/-- The monitor's first record at the start of shared SRAM; a tick with chain 0 on and the others off. -/
theorem witness_SpectrumAndUpdateTick : let b := Rfe.b 0
    let dst := tRfe.wget b Rfe.MON_DST_ADDR + (if (tRfe.ch 0).mon.toB then 0x2040 else 0)
    tRfe.en (Rfe.page 0) = true ∧ tRfe.wflag b Rfe.MON_CFG_MON_EN = true ∧ tRfe.frozen (Rfe.page 0) = false ∧
      tRfe.running .rf = true ∧ tRfe.Clean ∧ (∀ k : Fin 4, tRfe.wflag (b + 0x060 + 0x10 * k.val) ⟨0, 12, 1⟩ = false) ∧
      dst = 0x10000000 ∧ dst + 0x2040 ≤ 0x11FC0000 ∧
      tRfe.en (Rfe.page 1) = false := by decide +kernel

theorem witness_AntennaBias : (tRfe.ch (2 * 0)).biasOn = true ∧ tRfe.flag (Rfe.b (2 * 1)) Rfe.BIAS_CTL_BIAS_EN = true ∧
    tRfe.flag (Rfe.b (2 * 1)) Rfe.BIAS_CTL_AUTO_RETRY = true ∧ tRfe.get (Rfe.b (2 * 1)) Rfe.BIAS_STAT_STATE = 3 ∧ (tRfe.ch (2 * 1)).shortAt = some 5 := by decide +kernel

/-- A capture of chain 0, 1,024 samples. -/
def tSnap : Snap := ⟨5, 1, 0, 1, false, 0x10000000, 0, none, false, false, false, 0, []⟩

/-- A descriptor of that capture: signal 0x01, number 1, one grid cell of 1,024 samples. -/
def tDesc : List Nat :=
  [7, 0, 1, 1, 0, 1, 10, 1, 0, 0, 5, 0] ++ leBytes 4 0 ++ leBytes 4 1024 ++ leBytes 4 0 ++ leBytes 4 0 ++ leBytes 4 500 ++
    [1, 0, 1, 0] ++ leBytes 4 0x11000000 ++ List.replicate 24 0

/-- Acquisition enabled, the capture ready, one job waiting. -/
def tAcq : State :=
  let s := ((tOn [0x020, 0x021]).wput (Acq.b 0) Acq.SNAP_CFG_CHAINS 1).wput (Acq.b 0) Acq.SNAP_CFG_LEN 1
  let s := ((s.put (Acq.b 0) Acq.SNAP_BASE_BASE 0x1000).put (Acq.b 0) Acq.Q_BASE_BASE 0x11000).put (Acq.b 0) Acq.Q_TAIL_TAIL 1
  let s := { s with tags := [(0, ⟨5, false, 1⟩)] }
  (s.poke 0x10000000 ([0x4E, 0x53, 1, 0, 5, 0, 0, 0] ++ leBytes 4 1024)).poke 0x11000000 tDesc

/-- A capture in progress, and one in ring mode that has wrapped. -/
def tCap (ring : Bool) : State := { tAcq with snap := some { tSnap with ring := ring }, base := 640000000 }

theorem witness_SnapshotTriggers : let x : Action := ⟨0, 5, 0, 700, 700, true⟩
    let v := { tAcq with acts := [x] }
    v.acts.find? (fun y => y.act == 5) = some x ∧ x.fire = (700 : BitVec 64).toNat ∧ x.fire ≠ (0 : BitVec 64).toNat ∧ v.Clean ∧ v.running .acq = true ∧ Acq.Free v ∧ tAcq.Quiet ∧ tAcq.Clean ∧ tAcq.Writable rq 0x020 ∧ Acq.Free tAcq ∧ tAcq.running .acq = true ∧
    tReady (tCap true) 0x020 ∧ (tCap false).snap = some tSnap ∧ tSnap.stop = none ∧
    tSnap.len * 1024 ≤ Snap.taken (tCap true) { tSnap with ring := true } := by decide +kernel

theorem witness_SnapshotEnds : (tCap false).Clean ∧ (tCap false).running .acq = true ∧ (tCap false).snap = some tSnap ∧
    tSnap.stop = none ∧ tSnap.ring = false ∧ tSnap.len * 1024 = 1024 ∧ (tCap true).snap = some { tSnap with ring := true } ∧ 0x10000000 ≤ tSnap.base + tSnap.ofs * 0x10000 ∧
    tSnap.base + tSnap.ofs * 0x10000 + 64 + 4 * (tSnap.len * 2048) ≤ 0x11FC0000 := by decide +kernel

/-- A job running on engine 0. -/
def tJob : Job := ⟨0, 0x11000000, tDesc, tAcq.bytesAt 0x10000000 64, false, false, false⟩

/-- The start's own clause: a job waiting whose descriptor passes every check. -/
theorem witness_AcquisitionJobs_start :
    let s1 := ((tAcq.setJob 0 (some tJob)).put (Acq.b 0) Acq.ENG_STAT_RUNNING 1).put (Acq.b 0) Acq.ENG_STAT_TAG 7
    tAcq.Clean ∧ tAcq.en (Acq.p 0) = true ∧ tAcq.frozen (Acq.p 0) = false ∧ tAcq.running .acq = true ∧
      tAcq.flag (Acq.b 0) Acq.ENG_STAT_HALTED = false ∧ tAcq.job 0 = none ∧ Acq.queued tAcq 0 ≠ 0 ∧
      tAcq.get (Acq.b 0) Acq.Q_HEAD_HEAD = 0 ∧ Acq.slotAddr tAcq 0 0 = 0x11000000 ∧ tAcq.bytesAt 0x11000000 64 = tDesc ∧
      rangeFor 0x11000000 64 = .sram ∧ Acq.snapBase tAcq + (Desc.of tDesc).capBlk * 0x10000 = 0x10000000 ∧
      rangeFor 0x10000000 64 = .sram ∧ (Desc.of tDesc).check s1 (some tJob.hdr) = 0 := by decide +kernel

/-- Tail writes of 0 and 64 waiting jobs; a job that ends or is aborted; an empty engine. -/
theorem witness_AcquisitionJobs : let s := tAcq.setJob 0 (some tJob)
    tReady tAcq (Acq.p 0) ∧ (64 % 128 + 128 - tAcq.get (Acq.b 0) Acq.Q_HEAD_HEAD) % 128 ≤ 64 ∧ s.Clean ∧ s.running .acq = true ∧
      s.frozen (Acq.p 0) = false ∧ s.job 0 = some tJob ∧ tJob.abort = false ∧ tJob.flushed = false ∧ tReady s (Acq.p 0) ∧
      tReady tAcq (Acq.p 1) ∧ tAcq.Clean ∧ tAcq.job 1 = none := by decide +kernel

/-- Tracking enabled; channel 0 of group 0 waits with a valid setting and a COMMIT; channel 511 takes the dump path. -/
def tTrk : State :=
  let s := tOn [0x030]
  let b := Ch.b 0
  let s := (((s.put b Ch.SIG_CFG_SIGNAL 1).put b Ch.SIG_CFG_CODE_NUM 1).put b Ch.INT_CFG_INT_LEN 1).put b Ch.CODE_RATE_RATE 1
  let s := { s.put b Ch.CH_STAT_STATE 1 with armed := [⟨b + 0x014, 5, 0, 0⟩] }
  (s.put (Ch.b 511) Ch.CH_CTL_PATH 1).put (Ch.b 511) Ch.CH_STAT_STATE 2

theorem witness_ChannelRunAndStart : let b := Ch.b 0
    tReady tTrk (0x100 + 511 / 16) ∧ tTrk.chState 0 = 1 ∧ tTrk.flag b Ch.CH_CTL_PATH = false ∧
      tTrk.armedAt (b + 0x014) = some ⟨b + 0x014, 5, 0, 0⟩ ∧ tTrk.en 0x030 = true ∧ tTrk.frozen 0x030 = false ∧
      tTrk.running .corr = true ∧ Ch.reason (tTrk.copyShadow (b + 0x020) (b + 0x080)) 0 = 0 ∧ tTrk.get b Ch.APPLY_GEN_STEP_GEN ≠ 5 := by
  decide +kernel

/-- A channel on the dump path; commits of group 15 by command and by the calendar; generation 1. -/
theorem witness_IntervalEndRestartsIntegration : let x : Action := ⟨0, 3, 15, 700, 700, false⟩
    let s := { State.reset.each [0x030] (fun s p => s.put (pg p) H.EN 1) with acts := [x] }
    tTrk.chState 511 = 2 ∧ tTrk.en 0x030 = true ∧ tTrk.frozen 0x030 = false ∧ tTrk.running .corr = true ∧
      Ch.pathAt tTrk 511 ((tTrk.chn 511).pos + Ch.toBoundary tTrk 511 (tTrk.chn 511)) = true ∧ (0x8000 : BitVec 16).toNat = 2 ^ 15 ∧ s.en 0x030 = true ∧ s.frozen 0x030 = false ∧
      s.running .corr = true ∧ s.acts.find? (fun y => y.act == 3) = some x ∧ x.arg % 16 = 15 ∧ x.fire = (700 : BitVec 64).toNat ∧
      (s.grpAt[15]?).join ≠ some (s.edgeFor x.fire) ∧ (s.grpAt[15]?).join ≠ some s.nextSample ∧ tReady s 0x030 ∧ s.Reaches rq (0x100 + 511 / 16) := by decide +kernel

/-- A record of channel 3 for an empty ring of two records. -/
def tDump : State :=
  let s := ((tOn [0x030]).put (pg 0x030) Trkg.DUMP_BASE_BASE 0x10000).put (pg 0x030) Trkg.DUMP_SIZE_SIZE 2
  { s with dumpFifo := [(3, 0, List.replicate 96 7)] }

theorem witness_DumpPathAndTrackingEnable : tDump.Clean ∧ tDump.dumpFifo = (3, 0, List.replicate 96 7) :: [] ∧
    (List.replicate 96 7).length = 96 ∧ tDump.running .fabric = true ∧ tDump.get (pg 0x030) Trkg.DUMP_SIZE_SIZE ≠ 0 ∧
    tDump.get (pg 0x030) Trkg.DUMP_BASE_BASE ≠ 0 ∧ (tDump.get (pg 0x030) Trkg.DUMP_WP_WP + 1) % 2 ≠ tDump.get (pg 0x030) Trkg.DUMP_RP_RP ∧
    inSramArea (tDump.get (pg 0x030) Trkg.DUMP_BASE_BASE * 0x1000) 96 = true ∧ tReady tDump 0x030 ∧ tDump.frozen 0x030 = false ∧
    tDump.en 0x030 = true ∧ tReady State.reset 0x030 ∧ State.reset.frozen 0x030 = false ∧ State.reset.en 0x030 = false := by decide +kernel

/-- A word with bad parity at the address, and a computation begun. -/
theorem witness_CodeStoreCommands : let s := { State.reset with codeBad := [0] }
    let u := { State.reset with crcRun := some 0, crcAcc := 0xFFFFFFFF }
    tReady State.reset 0x028 ∧ State.reset.crcRun = none ∧ s.Reaches rq 0x028 ∧ s.get (pg 0x028) Code.CS_ADDR_WADDR ∈ s.codeBad ∧
      State.reset.get (pg 0x028) Code.CS_ADDR_WADDR ∉ State.reset.codeBad ∧ s.flag (pg 0x028) Code.CS_ERR_PERR = false ∧
      u.crcRun = some 0 ∧ u.crcAcc = 0xFFFFFFFF ∧ u.frozen 0x028 = false := by decide +kernel

/-! ### Measurement and the alignment link -/

/-- Measurement enabled, ring of 4 at the start of shared SRAM, no test patterns. -/
def tMeas : State :=
  let s := (((tOn [Meas.p]).put Meas.b Meas.MEAS_BASE_BASE 0x400000).put Meas.b Meas.MEAS_SLOTS_SLOTS 4)
  { s with regs := s.regs ++ [(0xF0040, 0)] }

/-- A link of a role (1 Herald, 2 follower) in a state, sharing epochs; shared epoch `l` waiting. -/
def tCdl (role st : Nat) (l : List (Nat × Option Nat)) : State :=
  let s := (((tMeas.put (pg Cdl.p) H.EN 1).put Cdl.b Cdl.CDL_CFG_ROLE role).put Cdl.b Cdl.CDL_STAT_STATE st).put Cdl.b Cdl.CDL_CFG_EPOCH_SHARE 1
  { s with cdl := { s.cdl with synced := true, isolated := false, dllRef := role == 2, epochs := l } }

theorem witness_MeasurementLatch : Meas.Free tMeas ∧ tReady tMeas Meas.p ∧ tMeas.frozen Meas.p = false ∧ tMeas.cdl.epochs = [] ∧
    (let x : Action := ⟨0, 4, 0, 700, 700, true⟩
     let s := { tMeas with acts := [x] }
     Meas.Free s ∧ s.frozen Meas.p = false ∧ s.cdl.epochs = [] ∧ s.acts.find? (fun y => y.act == 4) = some x ∧ x.own = (700 : BitVec 64).toNat ∧ x.fire = (700 : BitVec 64).toNat) := by decide +kernel

/-- A shared epoch that waits, and one that has passed. -/
theorem witness_MeasurementLatch_epoch : (let s := tCdl 2 5 [(2 ^ 47, none), (7, some 9)]
     s.flag Cdl.b Cdl.CDL_CFG_EPOCH_SHARE = true ∧ s.cdl.isolated = false ∧ Cdl.on s = true ∧ Cdl.passed s (2 ^ 47) = false ∧ 2 ^ 47 = (0x800000000000 : BitVec 48).toNat ∧
      Meas.Free s ∧ s.frozen Meas.p = false) ∧
    (let s := { tCdl 2 5 [(0, none)] with base := 640000 }
     s.cdl.epochs = (0, none) :: [] ∧ s.flag Cdl.b Cdl.CDL_CFG_EPOCH_SHARE = true ∧ s.cdl.isolated = false ∧ Cdl.on s = true ∧
      Cdl.passed s 0 = true) := by decide +kernel

/-- A block with one channel's entry in slot 0. -/
def tLatch : Latch := ⟨100, 64 * 5, 0, false, false, 0, 0, List.replicate 14 0, List.replicate 24 0, [(3, List.replicate 48 3)], []⟩

theorem witness_MeasurementBlockDone : let s := { tMeas with latch := some tLatch }
    s.Clean ∧ s.latch = some tLatch ∧ s.running .corr = true ∧ s.running .fabric = true ∧
      inSramArea (64 * s.get Meas.b Meas.MEAS_BASE_BASE + Meas.slot * s.get Meas.b Meas.MEAS_WP_WP) 0x6040 = true ∧
      s.get Meas.b Meas.MEAS_SLOTS_SLOTS ≠ 0 ∧ tLatch.before.length = 14 ∧ tLatch.after.length = 24 ∧ (tLatch.ents.flatMap (·.2)).length ≤ 0x6000 ∧ s.measSeq < 2 ^ 32 := by
  decide +kernel

/-- Frames for this module, for all, with a good and a bad CRC; a Member in DLL and in PHASE. -/
theorem witness_LinkFramesReceived : let f : CdlFrame := ⟨15, 0, 6, 0x800000000000, true, 128⟩
    let g : CdlFrame := ⟨1, 0, 0, 0, false, 127⟩
    Cdl.Member (tCdl 2 3 []) ∧ Cdl.Member (tCdl 2 5 []) ∧ f.ok = true ∧ f.src.toNat + f.hops.toNat < 7 ∧ f.dest.toNat = 15 ∧
      (tCdl 2 3 []).flag Cdl.b Cdl.CDL_CFG_EPOCH_SHARE = true ∧
      Cdl.passed (tCdl 2 3 []) (f.payload.toNat % 2 ^ 48) = false ∧
      Cdl.passed { tCdl 2 3 [] with base := 640000 } (g.payload.toNat % 2 ^ 48) = true ∧ Cdl.Member { tCdl 2 3 [] with base := 640000 } ∧
      g.ok = false := by decide +kernel

/-- Followers waiting for the clock, with it, locking lanes, adjusting, streaming with the array. -/
theorem witness_FollowerLink : let f (st : Nat) : State := (tCdl 2 st []).put (pg 0x009) Clk1.DLL_STAT_INPUT 1
    let a := ((f 5).put Cdl.b Cdl.CDL_CFG_ARRAY 1).put Cdl.b Cdl.CDL_STAT_POSITION 3
    let d := (f 3).put Cdl.b Cdl.CDL_STAT_LANE_LOCK 3
    let w := { f 0 with cdl := { (f 0).cdl with dllRef := false } }
    let g := (f 5).put (Guard.b 13) GuardG.GD_TO_TO 16
    Cdl.linked w = true ∧ Cdl.role w = 2 ∧ Cdl.state w = 0 ∧ w.cdl.dllRef = false ∧ Guard.timed g 13 = true ∧ Guard.action g 13 = 2 ∧
      Cdl.linked g = true ∧ Cdl.role g = 2 ∧ Cdl.state g ≠ 6 ∧
      (f 4).cdl.tracks = false ∧ a.cdl.smpNext = none ∧ Cdl.linked a = true ∧ Cdl.role a = 2 ∧
    (∀ st : Fin 6, Cdl.linked (f st.val) = true ∧ Cdl.role (f st.val) = 2 ∧ Cdl.state (f st.val) = st.val ∧ tReady (f st.val) Cdl.p) ∧
      (f 1).flag (pg 0x009) Clk1.DLL_STAT_INPUT = true ∧ Cdl.sends a = true ∧
      Cdl.lanes d = true ∧ Cdl.isHerald d = false ∧ (0 : Fin 8).val ≠ Cdl.pos d + 1 := by
  decide +kernel

/-- A Herald with locked lanes. -/
def tHerald : State := (tCdl 1 5 []).put Cdl.b Cdl.CDL_STAT_LANE_LOCK 3

/-- The answer to its last PING, the 256th of a window, samples due and passed, epochs in time and late, the second lane's lock. -/
theorem witness_HeraldLink : let e := { tHerald with cdl := { tHerald.cdl with rttCnt := 255 } }
    let p := { tHerald with base := 640000 }
    let h := { tHerald.put Cdl.b Cdl.CDL_STAT_LANE_LOCK 1 with cdl := { tHerald.cdl with clkOut := true } }
    Cdl.linked h = true ∧ Cdl.isHerald h = true ∧ h.get Cdl.b Cdl.CDL_STAT_LANE_LOCK ||| (2 : BitVec 2).toNat = 3 ∧ h.cdl.clkOut = true ∧
      tHerald.cdl.tracks = false ∧ e.cdl.tracks = false ∧ Cdl.Leads tHerald ∧ Cdl.Leads e ∧ Cdl.Leads p ∧ (1 : Fin 8).val = Cdl.pos tHerald + 1 ∧
      (255 : BitVec 8).toNat = (tHerald.cdl.pingSeq + 255) % 256 ∧ tHerald.cdl.rttCnt + 1 ≠ 256 ∧ e.cdl.rttCnt + 1 = 256 ∧
      Cdl.passed tHerald (((1000000 : BitVec 48).toNat + tHerald.wget Arr.b Arr.ALIGN_DELAY_DELAY) % 2 ^ 48) = false ∧
      Cdl.passed p (((0 : BitVec 48).toNat + p.wget Arr.b Arr.ALIGN_DELAY_DELAY) % 2 ^ 48) = true ∧
      tHerald.flag Cdl.b Cdl.CDL_CFG_EPOCH_SHARE = true ∧ tHerald.now + 20480 ≤ (20480 : BitVec 64).toNat ∧
      (20479 : BitVec 64).toNat < tHerald.now + 20480 ∧ tReady tHerald Cdl.p := by decide +kernel

theorem witness_LinkCommandsAndCovariance : let o (r : Nat) : State := (tCdl r 0 []).put (pg Cdl.p) H.EN 0
    let b := tHerald.put Cdl.b Cdl.MSG_CTL_TX_BUSY 1
    let c := (((tOn [Arr.p]).wput Arr.b Arr.COV_CFG_COV_EN 1).wput Arr.b Arr.COV_DST_ADDR 0x400000)
    tReady (o 1) Cdl.p ∧ (o 1).en Cdl.p = false ∧ Cdl.role (o 1) = 1 ∧ tReady (o 2) Cdl.p ∧ (o 2).en Cdl.p = false ∧ Cdl.role (o 2) = 2 ∧
      tReady tHerald Cdl.p ∧ tHerald.en Cdl.p = true ∧ Cdl.on tHerald = true ∧ tHerald.flag Cdl.b Cdl.MSG_CTL_TX_BUSY = false ∧
      b.running .arr = true ∧ b.flag Cdl.b Cdl.MSG_CTL_TX_BUSY = true ∧ Cdl.isHerald b = true ∧
      Cdl.isHerald ((tCdl 2 5 []).put Cdl.b Cdl.MSG_CTL_TX_BUSY 1) = false ∧ c.Clean ∧ c.wflag Arr.b Arr.COV_CFG_COV_EN = true ∧
      c.en Arr.p = true ∧ c.frozen Arr.p = false ∧ Arr.forms c = true ∧
      inSramArea (64 * c.wget Arr.b Arr.COV_DST_ADDR + 0x2C0 * 0) 704 = true ∧ c.flag Arr.b Arr.COV_STAT_VALID = false := by decide +kernel

/-! ### Time, calendar, pads and events -/

/-- Timescale 0 current, 1 in holdover, step armed. -/
def tTime : State :=
  ((tOn [Time.p]).put (Ts.b 0) TsR.TS_STAT_STATE 1).put (Ts.b 1) TsR.TS_STAT_STATE 2

/-- Coast mode. -/
def tCoast : State := (tTime.put Time.b TimeP.TIME_STAT_COAST 1).put (Pll.b 0) Pll.PLL_STAT_STATE 3

theorem witness_TimescalesAndLeases : tReady tTime Time.p ∧ (5 : BitVec 4).getLsbD 0 = true ∧ (5 : BitVec 4).getLsbD 1 = false ∧
    tTime.tsState 0 = 1 ∧ 10 ≤ (10 : BitVec 32).toNat % 2 ^ 16 ∧ (60000 : BitVec 32).toNat % 2 ^ 16 ≤ 60000 ∧ tTime.tsState 1 = 2 ∧
    tTime.now ≤ (tTime.tst 1).holdAt + 640000 * ((tTime.tst 1).holdMs + 1) ∧
    (tTime.tst 1).holdAt + 640000 * ((tTime.tst 1).holdMs + 1) < 2 ^ 64 ∧ tTime.armedAt (pg Time.p + 0x02C) = none ∧
    tTime.armedAt (pg 0x063 + 0x02C) = none ∧ tTime.updLast + 65536 < tTime.secLast + 640000000 ∧ tTime.coast = false ∧
    (∀ e : Fin 256, (tTime.ent e.val).occ = none) ∧ tCoast.coast = true ∧ tCoast.pwr.asleep = false ∧ tCoast.pllState 0 = 3 := by
  decide +kernel

/-- An occurrence of a converted instant, tick 1000 less 7/64. -/
def tOcc (conv disp : Bool) : Occ := ⟨0, 1000, 7, 1000, conv, disp, false, false⟩

/-- Entry `e` waiting with an action and an argument. -/
def tCal (e act arg : Nat) (o : Occ) : State :=
  let s := (((tOn [Cal.p, Evt.p, Time.p]).wput (Cal.eb e) CalE.E_CTL_ACTION act).wput (Cal.eb e) CalE.E_ARG_ARG arg).wput (Cal.eb e) CalE.E_CTL_TSEL 4
  let s := (s.put (Cal.eb e) CalE.E_STAT_STATE 1).put (Time.b + 8 * arg) TimeP.PAD_CTL_DRIVE 1
  s.setEnt e ⟨some o, none, 0⟩

/-- Timer, TP0, CYC, an action elsewhere, step permit with and without an armed step, leap event, event window. -/
theorem witness_CalendarFires : let c (e a g : Nat) : State := tCal e a g (tOcc true false)
    let p := ((c 0 8 0).put (Ts.b 0) TsR.TS_STAT_STEP_ARMED 1)
    let p := { p with tsSt := p.tsSt.setIfInBounds 0 { p.tst 0 with stMode := 1, stVal := 5 } }
    let v : Int := (((p.runTo (tickUp (Cal.occInst p 0 (tOcc true false)))).tsv 0).total : Int) + toSigned 64 (p.tst 0).stVal * 2 ^ 32
    Cal.Due (c 255 0 0) 255 (tOcc true false) ∧ Cal.action (c 255 0 0) 255 = 0 ∧ Cal.Due (c 0 1 3) 0 (tOcc true false) ∧
      Cal.action (c 0 1 3) 0 = 1 ∧ (c 0 1 3).padLog = [] ∧ Pad.allowed (c 0 1 3) 3 = true ∧ Cal.action (c 0 2 0) 0 = 2 ∧ Cal.Due (c 0 2 0) 0 (tOcc true false) ∧
      Cal.action (c 0 7 0) 0 = 7 ∧ (c 0 7 0).isReset (Cal.island 7) = false ∧ Cal.Due (c 0 7 0) 0 (tOcc true false) ∧
      Cal.Due p 0 (tOcc true false) ∧ Cal.action p 0 = 8 ∧ p.wflag (Cal.eb 0) CalE.E_CTL_ROTA = false ∧ p.wget (Cal.eb 0) CalE.E_ARG_ARG % 4 = 0 ∧
      p.flag (Ts.b 0) TsR.TS_STAT_STEP_ARMED = true ∧ (p.tst 0).stMode = 1 ∧ 0 ≤ v ∧ v < 2 ^ 96 * 1000000000 ∧
      (c 0 8 3).flag (Ts.b 3) TsR.TS_STAT_STEP_ARMED = false ∧ Cal.action (c 0 9 0) 0 = 9 ∧
      ((c 0 9 0).put Time.b TimeP.LEAP_CTL_LEAP61 1).flag Time.b TimeP.LEAP_CTL_LEAP61 = true ∧
      Cal.Due ((c 0 9 0).put Time.b TimeP.LEAP_CTL_LEAP61 1) 0 (tOcc true false) ∧ Cal.action (c 0 10 7) 0 = 10 ∧
      inWindow ((c 0 10 7).evt 7).cur (64 * 1000 - 7) = false ∧ Cal.Due (c 0 10 7) 0 (tOcc true false) := by decide +kernel

theorem witness_CalendarCommands : let c := tCal 0 3 0 (tOcc true false)
    let u := tCal 255 0 0 (tOcc false false)
    (u.ent 255).occ = some (tOcc false false) ∧ (tOcc false false).conv = false ∧ Cal.Due c 0 (tOcc true false) ∧
      Cal.other (Cal.action c 0) = true ∧ (tOcc true false).disp = false ∧ c.isReset (Cal.island 3) = false ∧
      Cal.Due { c with inReset := [.corr] } 0 (tOcc true false) ∧ tReady c Cal.p ∧ c.armedAt (Cal.key 0) = none ∧
      c.flag (pg Cal.p) H.FREEZE = false ∧ (c.ent 0).occ = some (tOcc true false) ∧
      64 * ((c.now + Cal.guard c 0 : Nat) : Int) ≤ Cal.occInst c 0 (tOcc true false) ∧
      (∀ e : Fin 256, e.val ≠ 0 → (c.ent e.val).occ = none) := by decide +kernel

/-- A pulse driven on pad 7, an input with EN and both edges, an open window, a record and a ring of 2. -/
def tEvt : State :=
  let b := Evt.ib 7
  let s := (((tOn [Evt.p, Time.p]).put b EvtI.EVT_CFG_EN 1).put b EvtI.EVT_CFG_EDGE 3).put b EvtI.WIN_STAT_OPEN 1
  let s := ((s.put Evt.b EvtP.EVT_CTL_RING_EN 1).put Evt.b EvtP.EVT_BASE_BASE 0x400000).put Evt.b EvtP.EVT_SLOTS_SLOTS 2
  let s := { s with spans := [⟨7, 0, 6400⟩], evtFifo := [List.replicate 32 9], base := 50 }
  s.modEvt 7 (fun e => { e with cur := some (0, 6400) })

theorem witness_PadsAndEvents : let l := { tEvt with evtIn := tEvt.evtIn.setIfInBounds 7 ⟨some (64 * 1000), none, none⟩ }
    tEvt.spanQ = [] ∧ (⟨7, 0, 6400⟩ : Span) ∈ tEvt.spans ∧ (∀ y ∈ tEvt.spans, y.pad = 7 → y = ⟨7, 0, 6400⟩) ∧ 64 * tEvt.now < 6400 ∧
      6400 + 63 < 2 ^ 70 ∧ tReady tEvt Time.p ∧ bitsOf (0x07FF0003 : BitVec 32).toNat 16 12 ≠ 2048 ∧ tEvt.en Evt.p = true ∧
      tEvt.flag (Evt.ib 7) EvtI.EVT_CFG_EN = true ∧ (tEvt.get (Evt.ib 7) EvtI.EVT_CFG_EDGE).testBit 1 = true ∧
      tEvt.pwr.asleep = false ∧ (l.evt 7).last = some (64 * 1000) ∧
      (((64 * 1000 + 63 : Nat) : Int) - l.getI (Evt.ib 7) EvtI.EVT_CFG_DELAY).toNat < 64 * 1000 + 64 * 64 ∧ (tEvt.evt 7).last = none ∧
      tEvt.get (Evt.ib 7) EvtI.EVT_CFG_GATE ≠ 1 ∧ tEvt.evtFifo.length < 64 ∧ (tEvt.evt 7).cur = some (0, 6400) ∧
      tEvt.flag (Evt.ib 7) EvtI.WIN_STAT_OPEN = true ∧ tEvt.Clean ∧ tEvt.evtFifo = List.replicate 32 9 :: [] ∧
      tEvt.flag Evt.b EvtP.EVT_CTL_RING_EN = true ∧ tEvt.get Evt.b EvtP.EVT_BASE_BASE ≠ 0 ∧ Evt.full tEvt = false ∧
      tEvt.running .fabric = true ∧ inSramArea (64 * tEvt.get Evt.b EvtP.EVT_BASE_BASE + 32 * tEvt.get Evt.b EvtP.EVT_WP_WP) 32 = true ∧
      tEvt.get Evt.b EvtP.EVT_SLOTS_SLOTS ≠ 0 ∧ tReady tEvt Evt.p := by decide +kernel

/-! ### Network, precision time, radio -/

/-- A PTP message over Ethernet: type, flags, clock identity 7, port 1, sequence 9, a time stamp, and the requesting port. -/
def tPtp (type flags : Nat) : List (BitVec 8) :=
  ((List.replicate 12 1 ++ [0x88, 0xF7]) ++ ([type, 2, 0, 64, 0, 0, flags, 0] ++ List.replicate 8 0 ++ List.replicate 4 0 ++
    beBytes 7 8 ++ beBytes 1 2 ++ beBytes 9 2 ++ [0, 0] ++ beBytes 5 6 ++ beBytes 6 4 ++ beBytes 7 8 ++ beBytes 1 2 ++
    List.replicate 10 0)).map (BitVec.ofNat 8)

/-- It arrives on port 0. -/
def tRx (o : List (BitVec 8)) (ok : Bool) : Rx := ⟨0, 1000, 3, o, ok, 0, 0⟩

/-- Both ports up, domain slot 0 with port 0 in `role`, peer delay or not, its master 7. -/
def tNet (role p2p : Nat) : State :=
  let s := tOn [0x060, 0x061, 0x062, 0x063]
  let s := (s.put (Eth.b 0) Eth.ETH_STAT_LINK 1).put (Eth.b 1) Eth.ETH_STAT_LINK 1
  let s := (((s.wput (Ptp.d 0) PtpD.DOM_CFG_EN 1).wput (Ptp.d 0) PtpD.PORT_CFG_ROLE0 role).wput (Ptp.d 0) PtpD.PORT_CFG_P2P0 p2p)
  ((s.wput Ptp.b PtpP.SUCC_ID 7).wput Ptp.b PtpP.PTP_CTL_HW_RESP 1).wput Ptp.b PtpP.RESP_MAX_RATE 8

/-- Port 0 of slot 0 with a waiting Sync, a Sync, and the two requests under way. -/
def tPort (role p2p : Nat) : State := Ptp.modPort (tNet role p2p) 0 0 (fun _ =>
  ⟨some (5, 6), some (9, 64, [0, 0, 0, 0], 0), some (7 * 2 ^ 32 + 2 ^ 16 + 9, 8), some (7 * 2 ^ 32 + 2 ^ 16 + 9, 8), none⟩)

/-- One condition for the messages: a frame taken, of slot 0. -/
abbrev tTaken (s : State) (type flags : Nat) : Prop := s.Clean ∧ Net.Shaped s ∧ Net.Taken s (tRx (tPtp type flags) true) 1 7 7 ∧
  Net.InSlot s (tRx (tPtp type flags) true) 14 0 0

/-- The message alone. -/
def tMsg (type flags : Nat) : List Nat := ((tPtp type flags).map (·.toNat)).drop 14

/-- Sync, two-step and one-step. -/
theorem witness_PtpMessagesReceived_sync : tTaken (tNet 2 0) 0 2 ∧ Msg.type (tMsg 0 2) = 0 ∧ Ptp.FromMaster (tNet 2 0) 0 0 (tMsg 0 2) ∧
    Msg.twoStep (tMsg 0 2) = true ∧ tTaken (tNet 2 0) 0 0 ∧ Msg.twoStep (tMsg 0 0) = false := by decide +kernel

theorem witness_PtpMessagesReceived_followUp : tTaken (tPort 2 0) 8 0 ∧ Msg.type (tMsg 8 0) = 8 ∧
    Ptp.FromMaster (tPort 2 0) 0 0 (tMsg 8 0) ∧ (Ptp.port (tPort 2 0) 0 0).wait = some (Msg.seq (tMsg 8 0), 64, [0, 0, 0, 0], 0) := by decide +kernel

theorem witness_PtpMessagesReceived_requests : tTaken (tNet 1 0) 1 0 ∧ Msg.type (tMsg 1 0) = 1 ∧ Ptp.takes (tNet 1 0) 0 0 (tMsg 1 0) = true ∧
    (if (tNet 1 0).net.respSec = ((tNet 1 0).runTo 1000).now / 640000000 then (tNet 1 0).net.respCnt else 0) <
      (tNet 1 0).wget Ptp.b PtpP.RESP_MAX_RATE ∧ tTaken (tNet 2 1) 2 0 ∧ Msg.type (tMsg 2 0) = 2 ∧
    Ptp.takes (tNet 2 1) 0 0 (tMsg 2 0) = true := by decide +kernel

theorem witness_PtpMessagesReceived_responses : tTaken (tPort 2 0) 9 0 ∧ Msg.type (tMsg 9 0) = 9 ∧
    Ptp.FromMaster (tPort 2 0) 0 0 (tMsg 9 0) ∧ Ptp.p2p (tPort 2 0) 0 0 = false ∧ (Ptp.port (tPort 2 0) 0 0).sync = some (5, 6) ∧
    (Ptp.port (tPort 2 0) 0 0).t3 = some (Msg.reqKey (tMsg 9 0), 8) ∧ (tPort 2 0).flag (Ptp.d 0) PtpD.PM_STAT_SEEDED = false ∧
    (Ptp.slot (tPort 2 0) 0).accept = false := by decide +kernel

theorem witness_PtpMessagesReceived_peer : tTaken (tPort 2 1) 3 0 ∧ Msg.type (tMsg 3 0) = 3 ∧ Ptp.role (tPort 2 1) 0 0 ≠ 0 ∧
    Ptp.p2p (tPort 2 1) 0 0 = true ∧ Msg.twoStep (tMsg 3 0) = false ∧
    (Ptp.port (tPort 2 1) 0 0).pd1 = some (Msg.reqKey (tMsg 3 0), 8) := by decide +kernel

theorem witness_PtpMessagesReceived_announce : tTaken (tNet 2 0) 11 0 ∧ Msg.type (tMsg 11 0) = 11 ∧ Ptp.role (tNet 2 0) 0 0 = 2 ∧
    Msg.clockId (tMsg 11 0) ≠ 0 ∧ Ptp.succ (tNet 2 0) 0 0 = Msg.clockId (tMsg 11 0) := by decide +kernel

/-- A frame for the host's address, without PTP. -/
def tFrame : List (BitVec 8) := (beBytes 0x020000000005 6 ++ List.replicate 6 4 ++ [0x08, 0x06] ++ List.replicate 46 9).map (BitVec.ofNat 8)

/-- Memory that lists the bytes `l` at `a` in shared SRAM and nothing else. -/
def tMem (s : State) (a : Nat) (l : List Nat) : State :=
  { s with mem := ((List.range l.length).map (fun i => (a + i, BitVec.ofNat 8 (l.getD i 0)))).filter (fun x => x.2 != 0) }

/-- The host's address 02-00-00-00-00-05 (the factory's is left free) and its rings: receive of 2 slots, transmit of 2 slots with a frame of 60 octets for port 0. -/
def tHost : State :=
  let s := { tNet 0 0 with regs := Tab.ins (Tab.ins (tNet 0 0).regs (Sw.b + 0x0D0) 5) (Sw.b + 0x0D4) 0x200 }.put Sw.b Sw.HOST_CTL_HOST_EN 1
  let s := (s.put Sw.b Sw.HRX_BASE_BASE 0x400000).put Sw.b Sw.HRX_SLOTS_SLOTS 2
  let s := ((s.put Sw.b Sw.HTX_BASE_BASE 0x410000).put Sw.b Sw.HTX_SLOTS_SLOTS 2).put Sw.b Sw.HTX_WP_WP 1
  tMem s 0x10400000 ([60, 0, 1, 0] ++ List.replicate 28 0 ++ tFrame.map (·.toNat))

theorem witness_FramesReceived : let f := tFrame.map (·.toNat)
    let g := Sw.egress f (Frame.of f) 1 7 2
    tHost.Clean ∧ Net.Taken tHost (tRx tFrame true) 1 7 7 ∧ (Frame.of f).ptp = none ∧ (7 : Nat).testBit 2 = true ∧
      beAt f 0 6 = tHost.get Sw.b Sw.MAC2_MAC ∧ (beAt f 0 6 / 2 ^ 40) % 2 = 0 ∧ tHost.flag Sw.b Sw.HOST_CTL_HOST_EN = true ∧
      Sw.hrxFull tHost = false ∧ tHost.get Sw.b Sw.HRX_BASE_BASE ≠ 0 ∧ tHost.get Sw.b Sw.HRX_SLOTS_SLOTS ≠ 0 ∧
      inSramArea (64 * tHost.get Sw.b Sw.HRX_BASE_BASE + 2048 * tHost.get Sw.b Sw.HRX_WP_WP) 2048 = true ∧ 0 < g.length ∧ g.length ≤ 2016 := by
  decide +kernel

/-- A bad FCS on each row's type. -/
theorem witness_FramesReceived_bad : Eth.up tHost 0 = true ∧ (tRx tFrame false).fcsOk = false ∧ (tRx tFrame false).octets.length ≤ 1518 ∧ Net.typeOf (tRx tFrame false) = 16 ∧
    [0, 1, 2, 3, 8, 9, 11].map (fun n => Net.typeOf (tRx (tPtp n 0) false)) = [0, 1, 2, 3, 8, 9, 11] := by decide +kernel

/-- A link, a learned address, a transparent-clock entry, slots frozen and seeded, one free slot of the transmit ring. -/
theorem witness_NetworkCommands :
    let l := { tHost with net := { tHost.net with learned := [(5, 0, 100)], tcTab := [(1, 2, 3, 100)] } }
    let p := (tHost.put (Ptp.d 0) PtpD.PM_STAT_FROZEN 1).put (Ptp.d 3) PtpD.PM_STAT_SEEDED 1
    tHost.en 0x060 = true ∧ tHost.running .net = true ∧ tHost.flag (Eth.b 0) Eth.ETH_STAT_LINK = true ∧ Net.Shaped tHost ∧
      l.net.learned.find? (fun y => y.1 == (5 : BitVec 48).toNat) = some (5, 0, 100) ∧ l.net.tcTab = [] ++ [((1 : Nat), (2 : Nat), (3 : Int), (100 : Nat))] ∧
      Net.Shaped p ∧ tReady p 0x063 ∧ p.flag (Ptp.d 0) PtpD.PM_STAT_FROZEN = true ∧ p.flag (Ptp.d 3) PtpD.PM_STAT_SEEDED = true ∧
      tReady tHost 0x062 ∧ (0x2001 : BitVec 32).toNat % 2 ^ 13 < tHost.get Sw.b Sw.HTX_SLOTS_SLOTS ∧ tHost.get Sw.b Sw.HTX_BASE_BASE ≠ 0 := by
  decide +kernel

/-- The frame in the transmit ring. -/
theorem witness_NetworkCommands_send : let slot := 64 * tHost.get Sw.b Sw.HTX_BASE_BASE + 2048 * tHost.get Sw.b Sw.HTX_RP_RP
    let f := tHost.bytesAt (slot + 32) (tHost.numAt slot 2)
    tHost.Clean ∧ Net.Shaped tHost ∧ tHost.en 0x062 = true ∧ tHost.get Sw.b Sw.HTX_RP_RP ≠ tHost.get Sw.b Sw.HTX_WP_WP ∧
      tHost.flag Sw.b Sw.HOST_CTL_HOST_EN = true ∧ tHost.get Sw.b Sw.HTX_BASE_BASE ≠ 0 ∧ tHost.net.tx = none ∧ inSramArea slot 2048 = true ∧ 14 ≤ tHost.numAt slot 2 ∧ tHost.numAt slot 2 ≤ 1518 ∧
      (tHost.byte (slot + 2)).toNat = 2 ^ 0 ∧ (tHost.byte (slot + 3)).toNat = 0 ∧ (Frame.of f).ptp = none ∧ Eth.up tHost 0 = true ∧
      Sw.classify tHost 2 (Frame.of f) = some (1, 7, 7) ∧ (7 : Nat).testBit 0 = true := by decide +kernel

/-- A frame being sent, with a time stamp asked for. -/
theorem witness_NetworkCommands_done : let x : TxSt := ⟨0x10400000, 1, 1, 0, [0], none, []⟩
    let u := { tHost with net := { tHost.net with tx := some x } }
    u.Clean ∧ u.net.tx = some x ∧ x.egress = none ∧ x.msg = [] ∧ inSramArea x.addr 2048 = true ∧
      u.get Sw.b Sw.HTX_SLOTS_SLOTS ≠ 0 ∧ x.ports.head? = some 0 ∧ x.flags % 4 ≠ 0 := by decide +kernel

/-! ### Radio -/

/-- The radio in state `st` and standard class (the granted class at reset is left free), with pages `l` enabled. -/
def tRad0 (st : Nat) (l : List Nat) : State := { tOn l with regs := Tab.ins (tOn l).regs (Rad.b + 0x064) (BitVec.ofNat 32 st) }

/-- The radio in state `st`: hop entry 3 in use with its band, descriptor 2 with 20 octets in shared SRAM. -/
def tRad (st : Nat) : State :=
  let s := tRad0 st [0x070, 0x071]
  let s := (s.put (Rad.tb + 24) RadT.HOP_FREQ 868000).put (Rad.tb + 24) RadT.HOP_B_BAND_VALID 1
  let s := (s.put (Rad.tb + 32) RadT.TXD0_ADDR 0x10400000).put (Rad.tb + 32) RadT.TXD1_LEN 20
  tMem (s.put (Rad.tb + 32) RadT.TXD1_HOP 3) 0x10400000 [1, 2, 3]

/-- The radio's own state changed. -/
def tRadWith (st : Nat) (f : RadSt → RadSt) : State := (tRad st).modRad f

/-- Off and disabled; SLEEP, IDLE, RX at rest. -/
theorem witness_RadioCommands : let o := tRad0 0 []
    tReady o Rad.p ∧ o.en Rad.p = false ∧ o.frozen Rad.p = false ∧ Rad.st o = 0 ∧ tReady (tRad 2) Rad.p ∧ (tRad 2).en Rad.p = true ∧
      (tRad 2).frozen Rad.p = false ∧ (tRad 2).rad.calQ = [] := by decide +kernel

theorem witness_RadioCommands_rest : Rad.Rests (tRad 1) ∧ Rad.Rests (tRad 2) := by decide +kernel

theorem witness_RadioCommands_rx : Rad.Rests (tRad 4) := by decide +kernel

/-- Frequencies at the ends of each band (hop entries 0 and 63). -/
theorem witness_RadioCommands_hop : tReady (tRad 2) 0x071 ∧ [863000, 876000, 902000, 928000].all (fun f =>
    863000 ≤ f && (f ≤ 876000 || 902000 ≤ f) && f ≤ (928000 : Nat)) = true := by decide +kernel

/-- A sendable descriptor by command and on schedule; one at OFF; receive slots 0 and 15. -/
theorem witness_RadioTransmits : let x : Action := ⟨0, 6, 2, 700, 700, false⟩
    let y : Action := ⟨1, 6, 128 + 15, 700, 700, false⟩
    let b := { tRad 4 with acts := [x, y] }
    tReady (tRad 4) Rad.p ∧ Rad.Rests (tRad 4) ∧ Rad.Sendable (tRad 4) 2 ∧ Rad.st (tRad 0) = 0 ∧ tReady (tRad 0) Rad.p ∧
      (tRad 0).frozen Rad.p = false ∧ b.running .radio = true ∧ b.frozen Rad.p = false ∧ y.arg % 128 = (15 : BitVec 7).toNat ∧ y.fire = (700 : BitVec 64).toNat ∧
      b.acts.find? (fun y => y.act == 6 && y.arg.testBit 7) = some y ∧ Rad.st b ≠ 0 := by decide +kernel

/-- A transmission that the calendar has dispatched, in SLEEP. -/
theorem witness_RadioTransmits_scheduled : let x : Action := ⟨0, 6, 2, 700, 700, false⟩
    let a := { tRad 1 with acts := [x] }
    a.running .radio = true ∧ a.frozen Rad.p = false ∧ x.arg % 128 = (2 : BitVec 7).toNat ∧ x.fire = (700 : BitVec 64).toNat ∧ x.fire ≠ (1 : BitVec 64).toNat ∧
      a.acts.find? (fun y => y.act == 6 && !y.arg.testBit 7) = some x ∧ Rad.Rests a ∧ Rad.Sendable a 2 ∧
      a.wflag Rad.b RadP.TX_POL_HOLD_POL = false := by decide +kernel

/-- SYNTH on the way to TX, on the way to RX with a search, and on a stored band. -/
theorem witness_RadioTransmits_synth :
    let a := tRadWith 3 (fun r => { r with move := some (5, 90000) })
    let b := tRadWith 3 (fun r => { r with move := some (4, 90000), search := true })
    Rad.live a = true ∧ a.rad.move = some (5, 90000) ∧ b.rad.search = true ∧ Rad.live b = true ∧ b.rad.move = some (4, 90000) ∧
      a.rad.search = false ∧ a.rad.tx = none := by decide +kernel

/-- A transmission on the air. -/
theorem witness_RadioTransmits_end :
    let x : RadTx := ⟨2, false, false, 3, 0, 0, true, false, 2, [1, 2, 3], false, 90000, 90000, 0⟩
    let a := tRadWith 5 (fun r => { r with tx := some x })
    Rad.live a = true ∧ a.rad.tx = some x ∧ Rad.st a = 5 ∧ a.rad.win = none ∧ a.rad.endTo = none ∧ a.rad.calQ = [] := by decide +kernel

/-- Transitions to OFF, SLEEP and IDLE. -/
theorem witness_RadioTransmits_transition : [0, 1, 2].all (fun n =>
    let a := tRadWith 4 (fun r => { r with move := some (n, 90000) })
    a.rad.move == some (n, 90000) && !a.frozen Rad.p && a.running .radio && a.rad.calQ.isEmpty) = true := by decide +kernel

/-- No reception, one before the SFD, and one with its time stamp. -/
theorem witness_RadioReceivesAndCalibrates :
    let x : RadRx := ⟨90000, 0, none, none⟩
    let a := tRadWith 4 (fun r => { r with rx := some x })
    let d := (tRad 4).wput Rad.b RadP.RAD_CFG_DIV_EN 0
    d.rad.rx = none ∧ d.wflag Rad.b RadP.RAD_CFG_DIV_EN = false ∧ Rad.live d = true ∧ Rad.st d = 4 ∧ Rad.live a = true ∧ Rad.st a = 4 ∧ a.rad.rx = some x ∧
      x.t = none ∧ (a.runTo (80000 : BitVec 64).toNat).now ≤ x.until_ := by decide +kernel

/-- A frame with a right FCS, the receive ring of 2 slots in shared SRAM. -/
theorem witness_RadioReceivesAndCalibrates_good :
    let d : List Nat := [1, 2, 3, 4]
    let psdu : List (BitVec 8) := (d ++ Fsk.fcs true d).map (BitVec.ofNat 8)
    let x : RadRx := ⟨90000, 0, none, some 85000⟩
    let a := ((tRadWith 4 (fun r => { r with rx := some x })).put Rad.b RadP.RX_CTL_RING_EN 1).put Rad.b RadP.RXR_BASE_BASE 0x410000
    let a := a.put Rad.b RadP.RXR_SLOTS_SLOTS 2
    let oct := psdu.map (·.toNat)
    Rad.live a = true ∧ Rad.st a = 4 ∧ a.rad.rx = some x ∧ x.t = some 85000 ∧ 2 ≤ psdu.length % 2048 ∧
      Fsk.fcs true (oct.take (psdu.length % 2048 - 2)) = oct.drop (psdu.length % 2048 - 2) ∧ a.Clean ∧
      a.wget Rad.b RadP.RX_CFG_RX_GATE ≠ 1 ∧ a.flag Rad.b RadP.RX_CTL_RING_EN = true ∧ a.get Rad.b RadP.RXR_BASE_BASE ≠ 0 ∧
      a.get Rad.b RadP.RXR_SLOTS_SLOTS ≠ 0 ∧
      (a.get Rad.b RadP.RXR_WP_WP + 1) % a.get Rad.b RadP.RXR_SLOTS_SLOTS ≠ a.get Rad.b RadP.RXR_RP_RP ∧
      inSramArea (64 * a.get Rad.b RadP.RXR_BASE_BASE + 2112 * a.get Rad.b RadP.RXR_WP_WP) 2112 = true := by decide +kernel

/-- A frame with a wrong FCS. -/
theorem witness_RadioReceivesAndCalibrates_bad :
    let psdu : List (BitVec 8) := [1, 2, 3, 4, 5, 6]
    let x : RadRx := ⟨90000, 0, none, some 85000⟩
    let a := tRadWith 4 (fun r => { r with rx := some x })
    let oct := psdu.map (·.toNat)
    Rad.live a = true ∧ Rad.st a = 4 ∧ a.rad.rx = some x ∧ x.t = some 85000 ∧ 2 ≤ psdu.length % 2048 ∧
      Fsk.fcs true (oct.take (psdu.length % 2048 - 2)) ≠ oct.drop (psdu.length % 2048 - 2) ∧
      a.wflag Rad.b RadP.RX_CFG_KEEP_BAD = false := by decide +kernel

/-- A slot's window before and after it opens. -/
theorem witness_RadioReceivesAndCalibrates_slot :
    let w : RadWin := ⟨15, 3, 2, 90000, 100000, false⟩
    let a := tRadWith 6 (fun r => { r with win := some w })
    let v := { w with opened := true }
    let b := tRadWith 5 (fun r => { r with win := some v, tx := some ⟨2, false, false, 3, 0, 0, true, false, 2, [1], false, 90000, 90000, 0⟩ })
    let n := b.modRad (fun r => { r with winNext := some w })
    a.rad.win = some w ∧ a.running .radio = true ∧ w.opened = false ∧ Rad.st a = 6 ∧ n.rad.win = some v ∧ n.rad.winNext = some w ∧
      n.running .radio = true ∧ b.rad.win = some v ∧ v.opened = true ∧
      b.running .radio = true ∧ Rad.live b = true ∧ Rad.st b ≠ 0 ∧ Rad.st b ≠ 6 ∧ b.rad.tx.isSome = true := by decide +kernel

/-- A waiting calibration in IDLE, and DC under way. -/
theorem witness_RadioReceivesAndCalibrates_cal :
    let a := tRadWith 2 (fun r => { r with calQ := [4] })
    let b := tRadWith 6 (fun r => { r with cal := [(1, 90000)] })
    Rad.live a = true ∧ Rad.st a = 2 ∧ a.rad.move = none ∧ a.rad.calQ = [4] ∧ Rad.live b = true ∧ Rad.st b = 6 ∧
      b.rad.cal = [(1, 90000)] ∧ b.rad.calQ = [] ∧ b.rad.tx = none ∧ b.rad.win = none ∧ b.rad.back = none := by decide +kernel

/-! ### Instructions of the cores -/

/-- Core 1 running at 0x100, nothing else enabled; TLM words at 0x400 and 0x800. -/
def tCore : State :=
  let s := (State.reset.put (Cpu.b 1) CoreP.CORE_STAT_STATE 1).put (Cpu.b 1) H.EN 1
  let s := tMem s 0x30100400 [0x11, 0x22, 0x33, 0x84, 5, 6, 7, 8]
  let s := { s with mem := s.mem ++ [(0x30100801, 2)] }
  s.setCore 1 { CoreSt.init with
    pc := 0x100
    a := #v[0, 0x400, 7, 0xFFFFFFFF, 0, 0, 0, 0, 0, 0, 0, 0, 0, 0, 0, 0x800]
    mb := #v[0, 0x400, 0, 0], ml := #v[0, 40, 0, 0], cr := #v[0, 0, 0x200, 0, 0, 0, 0x1000, 0, 0, 0] }

/-- The same core with CR `n` holding `v`. -/
def tCr (n v : Nat) : State := tCore.modCore 1 (fun k => k.setCr n v)

/-- Sizes .W, .D and .Q, plain and saturating. -/
def tW : Form := ⟨2, false, 0⟩
def tD : Form := ⟨3, true, 0⟩
def tQ : Form := ⟨6, false, 0⟩

/-- The core performs each `opc` with two and with three operands: the destination in a register or, but for integers of one lane, in TLM. -/
abbrev tBin (l : List Nat) (f : Form) : Prop := l.all (fun n =>
  decide (Cpu.Performs tCore 1 (Op.alu n f false [if 4 ≤ f.sz.toNat then .disp 1 0 else .reg 2, .imm 5])) &&
    decide (Cpu.Performs tCore 1 (Op.alu n f true [.disp 1 0, .post 1 1, .imm 255]))) = true

/-- The core performs each of these. -/
abbrev tAll (l : List Op) : Prop := l.all (fun o => decide (Cpu.Performs tCore 1 o)) = true

/-- Every operand form, and the bounds of its fields. -/
theorem witness_EncodingRoundTrip : [Op.alu 0x08 tD true [.reg 15, .short 0x800, .buf 7], Op.alu 0x08 tW false [.modulo 15 3 0x20, .rev 1 3 24],
    Op.alu 0x01 tW false [.abs 0xFFFFFFFF, .long 15 0x80000000], Op.alu 0x01 tW false [.idx 15 15 3, .post 1 0x80],
    Op.alu 0x01 tW false [.pre 15, .disp 15 0xFF], Op.alu 0x08 tD false [.reg 0, .imm 0xFFFFFFFFFFFFFFFF], Op.ctl 0x80 0xF0 [] 0xFFFF,
    Op.ctl 0x81 0xF0 [] 0xFFFFFFFF, Op.ctl 0x87 255 [] 0].all (fun o => o.wf) = true := by decide +kernel

theorem witness_SumsAndCompares : tBin [0x08, 0x09] tQ ∧ tBin [0x08, 0x09, 0x0A, 0x0B] tW ∧ tAll [Op.alu 0x0C tQ false [.disp 1 0, .imm 7],
    Op.alu 0x0D tW false [.reg 2, .imm 0x80000000], Op.alu 0x0E tW false [.disp 1 0, .imm 5]] := by decide +kernel

theorem witness_SumsAndCompares_pick : tBin [0x0F, 0x10, 0x11, 0x12] tQ ∧ tBin [0x0F, 0x10, 0x11, 0x12] tW := by decide +kernel

theorem witness_ProductsAndQuotients : tBin [0x14, 0x15, 0x16] tW := by decide +kernel

/-- A divisor, a zero divisor, and a zero divisor under TRAP_DZ. -/
theorem witness_ProductsAndQuotients_divide : [0x17, 0x18, 0x19, 0x1A].all (fun n =>
    let o := Op.alu n tW false [.reg 3, .reg 2]
    let z := Op.alu n tW false [.reg 3, .imm 0]
    decide (Cpu.Performs tCore 1 o) && Cpu.rhs tCore 1 o != 0 && decide (Cpu.Performs tCore 1 z) && Cpu.rhs tCore 1 z == 0 &&
      !(tCore.core 1).sr 18 && decide (Cpu.Performs (tCr 0 (2 ^ 18)) 1 z) && ((tCr 0 (2 ^ 18)).core 1).sr 18 &&
      !((tCr 0 (2 ^ 18)).core 1).sr 9) = true := by decide +kernel

theorem witness_LogicBitsAndShifts : tBin [0x20, 0x21, 0x22, 0x26, 0x27, 0x28] tW ∧ tBin [0x20, 0x21, 0x22] tQ ∧
    tAll [Op.alu 0x23 tW false [.reg 2, .reg 3], Op.alu 0x24 tW false [.reg 2, .reg 3], Op.alu 0x25 tW false [.disp 1 0, .reg 3],
      Op.alu 0x29 tW false [.reg 2, .disp 1 0], Op.alu 0x2A tW false [.reg 2, .reg 3]] := by decide +kernel

/-- Shifts and rotates, by 5 and by 255. -/
theorem witness_LogicBitsAndShifts_shifts : tBin [0x30, 0x31, 0x32, 0x33, 0x34] tW ∧ tBin [0x30, 0x31, 0x32, 0x33, 0x34] tQ := by
  decide +kernel

/-- Single precision operands: 1 divided by 3 under a trap of NX; a signalling NaN. -/
theorem witness_FloatingPoint :
    let f : Form := ⟨4, false, 0⟩
    let t := tCr 0 (2 ^ 25)
    tBin [0x38, 0x39, 0x3A, 0x3B, 0x3F, 0x40] f ∧ tAll ([0x3C, 0x3E, 0x41, 0x42].map (fun n => Op.alu n f false [.disp 1 0, .imm 0x3F800000])) ∧
      tAll [Op.alu 0x3D f true [.disp 1 0, .imm 0x3F800000, .imm 0x40400000]] ∧
      Cpu.Performs t 1 (Op.alu 0x3B f true [.disp 1 0, .imm 0x3F800000, .imm 0x40400000]) ∧ (t.core 1).sr 9 = false ∧
      bitsOf ((tCore.core 1).crN 0) 25 5 = 0 := by decide +kernel

theorem witness_FloatingPoint_flags :
    let g := Fmt.of 4
    let t := bitsOf (((tCr 0 (31 * 2 ^ 25)).core 1).crN 0) 25 5
    (Fp.div g 0 0x3F800000 0x40400000).alu.ff &&& t ≠ 0 ∧ (Fp.add g 0 0x3F800000 0x3F800000).alu.ff &&& t = 0 ∧
      (g.unpack 0x7F800001).isNan = true ∧ (g.unpack 0x7F800001).isSig = true ∧ (g.unpack 0x3F800000).isNan = false ∧
      0x3F800000 < 2 ^ (g.p + g.e) := by decide +kernel

/-- CVT and CVTU from an integer and to one. -/
theorem witness_FloatingPoint_convert : tAll ([0x43, 0x44].flatMap (fun n =>
    [Op.alu n ⟨4, false, 2⟩ false [.disp 1 0, .reg 2], Op.alu n ⟨2, false, 4⟩ false [.reg 2, .disp 1 0]])) := by decide +kernel

theorem witness_MovesAndExchanges : tAll [Op.alu 0x01 ⟨3, false, 0⟩ false [.disp 1 0, .imm 5],
    Op.alu 0x02 ⟨0, false, 0⟩ false [.reg 2, .disp 1 3], Op.alu 0x03 ⟨0, false, 0⟩ false [.reg 2, .disp 1 3],
    Op.alu 0x04 tW false [.reg 2, .pre 1], Op.alu 0x00 ⟨0, false, 0⟩ false []] := by decide +kernel

/-- SWAP and CAS of the word at 0x400, equal and unequal. -/
theorem witness_MovesAndExchanges_atomic :
    let w := Op.alu 0x05 tW false [.disp 1 0, .reg 2]
    let e := Op.alu 0x06 tW true [.disp 1 0, .imm 0x84332211, .reg 3]
    let u := Op.alu 0x06 tW true [.disp 1 0, .reg 2, .reg 3]
    let n := Isa.bytes tW.sz.toNat
    (Cpu.Performs tCore 1 w ∧ Cpu.args tCore 1 w = [⟨.atom, 2, .mem 0x400⟩] ++ (Cpu.args tCore 1 w).drop 1 ∧
      (Cpu.args tCore 1 w).length = 2) ∧ Cpu.Performs tCore 1 e ∧ Cpu.Performs tCore 1 u ∧
      Cpu.args tCore 1 e = [⟨.atom, 2, .mem 0x400⟩] ++ (Cpu.args tCore 1 e).drop 1 ∧ (Cpu.args tCore 1 e).length = 3 ∧
      tCore.numAt (Cpu.home 1 0x400) n = Cpu.val tCore 1 e 1 ∧ tCore.numAt (Cpu.home 1 0x400) n ≠ Cpu.val tCore 1 u 1 := by decide +kernel

/-- Every mode of MOV.W's source, at the bounds of its fields. -/
theorem witness_AddressingModes : [Opd.imm 5, .short 0x800, .reg 15, .buf 7, .abs 0x400, .disp 15 0xFF, .long 1 0xFFFFFFFC,
    .idx 1 4 3].all (fun x => decide (Cpu.Performs tCore 1 (Op.alu 0x01 tW false [.reg 2, x]))) = true := by decide +kernel

theorem witness_AddressingModes_updates : [Opd.post 1 0x80, .pre 1, .modulo 1 1 0x20, .modulo 1 0 1, .rev 1 1 1, .rev 1 1 24].all
    (fun x => decide (Cpu.Performs tCore 1 (Op.alu 0x01 tW false [.reg 2, x]))) = true := by decide +kernel

/-- A15 below a stack limit. -/
theorem witness_AddressingModes_stack : let t := tCr 7 0x700
    Cpu.Ready t 1 (Op.alu 0x01 tW false [.reg 15, .imm 0x6FF]) ∧ (0x6FF : BitVec 64).toNat < (t.core 1).crN 7 ∧ (t.core 1).sr 9 = false := by
  decide +kernel

theorem witness_Accumulators : tAll ([0x48, 0x49, 0x4A, 0x4B, 0x4C].map (fun n => Op.alu n tW false [.reg 2, .reg 3]) ++
    [Op.alu 0x4D tQ false [.disp 1 0, .disp 1 0], Op.alu 0x4E ⟨0, false, 1⟩ false [], Op.alu 0x4F ⟨2, false, 1⟩ false [.reg 3],
      Op.alu 0x52 ⟨3, false, 1⟩ false [.disp 1 0], Op.alu 0x51 ⟨3, false, 1⟩ false [.disp 1 0],
      Op.alu 0x50 ⟨2, false, 1⟩ false [.reg 2, .imm 80]]) := by decide +kernel

/-- Conditions 14 (always) and 0 (C, clear). -/
theorem witness_ControlTransfers : [Op.ctl 0x80 0xE0 [] 0xFFFF, Op.ctl 0x81 0xE0 [] 4, Op.ctl 0x82 0 [] 0x20, Op.ctl 0x83 0 [.imm 0x200] 0,
    Op.ctl 0x84 0 [.imm 0x200] 0, Op.ctl 0x85 0 [] 0, Op.ctl 0x90 4 [] 0xFFF0].all (fun o => decide (Cpu.Performs tCore 1 o)) = true ∧
    condHolds 14 ((tCore.core 1).crN 0) = true ∧ condHolds 2 ((tCore.core 1).crN 0) = false := by decide +kernel

theorem witness_ControlTransfers_stack : let k := tCore.core 1
    let sp := (BitVec.ofInt 32 ((k.aN 15 : Int) - 4)).toNat
    sp % 4 = 0 ∧ sp + 4 ≤ 0x40000 ∧ Cpu.watched tCore 1 sp 4 true true = false ∧ k.aN 15 % 4 = 0 ∧
      Cpu.watched tCore 1 (k.aN 15) 4 true true = false ∧ tCore.numAt (Cpu.home 1 (k.aN 15)) 4 = 0x200 ∧
      (BitVec.ofInt 32 (Cpu.next tCore 1 (Op.ctl 0x82 0 [] 0x20) + (0x20 : BitVec 32).toInt)).toNat % 2 = 0 := by decide +kernel

/-- REP with counts 0 and 5 of the NOP behind it. -/
theorem witness_ControlTransfers_repeat : [Op.ctl 0x8C 0 [.imm 5] 0, Op.ctl 0x8C 0 [.short 0] 0].all (fun o =>
    decide (Cpu.Performs tCore 1 o) && (match Cpu.decodeAt 1 (Cpu.next tCore 1 o) 17 [] tCore with
      | .ok (x, u) => x == Op.alu 0x00 ⟨0, false, 0⟩ false [] && u == tCore
      | .error _ => false) && !(Op.alu 0x00 ⟨0, false, 0⟩ false []).noRepeat && (Op.alu 0x00 ⟨0, false, 0⟩ false []).accepted) = true := by
  decide +kernel

/-- Outside a handler and inside one. -/
theorem witness_ExceptionsAndInterrupts : [Op.ctl 0x87 255 [] 0, Op.ctl 0x88 0 [] 0, Op.ctl 0x86 0 [] 0, Op.ctl 0x89 0 [] 0].all (fun o =>
    decide (Cpu.Performs tCore 1 o) && decide (Cpu.Performs (tCr 0 (2 ^ 9)) 1 o)) = true ∧ (tCore.core 1).sr 9 = false ∧
    ((tCr 0 (2 ^ 9)).core 1).sr 9 = true ∧ (tCore.core 1).crN 2 % 2 = 0 ∧ Irq.claim tCore 1 = none := by decide +kernel

/-- Core 1 with interrupts enabled, the lowest source of core 0 routed to it at priority 5. -/
def tIrq (st : Nat) : State :=
  let s := (tCr 0 0x100).put (pg 1) H.EN 1
  let s := ((s.put (Irq.route 166) Irq.ROUTE_EN 1).put (Irq.route 166) Irq.ROUTE_CORE 1).put (Irq.route 166) Irq.ROUTE_PRIO 5
  ((s.put (Cpu.b 0) H.IRQ_RAW 1).put (Cpu.b 0) H.IRQ_EN 1).put (Cpu.b 1) CoreP.CORE_STAT_STATE st

theorem witness_ExceptionsAndInterrupts_claim : Irq.claim (tIrq 1) 1 = some 166 ∧ Cpu.alive (tIrq 1) 1 = true ∧ Cpu.state (tIrq 1) 1 = 1 ∧
    ((tIrq 1).core 1).sr 8 = true ∧ ((tIrq 1).core 1).sr 9 = false ∧ bitsOf (((tIrq 1).core 1).crN 0) 12 3 < Irq.prio (tIrq 1) 166 ∧
    (tIrq 1).held = [] := by decide +kernel

theorem witness_ExceptionsAndInterrupts_wait : Cpu.Performs (tIrq 1) 1 (Op.ctl 0x89 0 [] 0) ∧ (Irq.claim (tIrq 1) 1).isSome = true ∧
    Cpu.alive (tIrq 2) 1 = true ∧ Cpu.state (tIrq 2) 1 = 2 ∧ (Irq.claim (tIrq 2) 1).isSome = true := by decide +kernel

theorem witness_SystemRegistersAndFences : tAll [Op.ctl 0x8D 9 [.reg 15] 0, Op.ctl 0x8E 0 [.imm 0xFFFFFFFF] 0, Op.ctl 0x8F 3 [.disp 1 0] 0] ∧
    Cpu.Ready tCore 1 (Op.ctl 0x8A 0 [] 0) := by decide +kernel

/-- The last entry of a full write buffer. -/
theorem witness_SystemRegistersAndFences_drain :
    let l : WbLine := ⟨0x10000000, 1, 5⟩
    let s := { State.reset with wbuf := State.reset.wbuf.setIfInBounds 1 (List.replicate 8 l) }
    (s.wb 1)[7]? = some l ∧ s.running .fabric = true := by decide +kernel

/-- Core 1 in state `st`, with a NOP at its PC. -/
def tStat (st : Nat) : State := tCore.put (Cpu.b 1) CoreP.CORE_STAT_STATE st

theorem witness_CoreCommands : tReady (tStat 0) (Cpu.p 1) ∧ (tStat 0).frozen (Cpu.p 1) = false ∧ (tStat 0).en (Cpu.p 1) = true ∧
    [0, 1, 2, 3].all (fun n => Cpu.state (tStat n) 1 == n) = true := by decide +kernel

/-- A step, and every selectable state at the bounds of its class. -/
theorem witness_CoreCommands_halted : let t := tStat 3
    t.running .core = true ∧ (t.core 1).pc.toNat + 2 ≤ 0x40000 ∧ t.numAt (Cpu.home 1 (t.core 1).pc.toNat) 2 = 0 ∧ (t.core 1).rep = false ∧
      Cpu.breakAt t 1 (t.core 1).pc.toNat = false ∧ [0, 0x0F, 0x10, 0x17, 0x18, 0x19, 0x1A, 0x20, 0x29].all (fun i =>
        Cpu.dbgIndex i && (t.put (Cpu.b 1) CoreP.DBG_SEL_INDEX i).get (Cpu.b 1) CoreP.DBG_SEL_INDEX == i) = true := by decide +kernel

/-! ### DMA -/

/-- Channel 5 in state `st` with kind `k`: two rows of 64 bytes in shared SRAM, SUM on. -/
def tDma (st k : Nat) : State :=
  let s := (tOn [0x080]).put (Dma.cb 5) DmaC.CH_STAT_STATE st
  [(DmaC.SRC, 0x10000100), (DmaC.DST, 0x10000230), (DmaC.LEN, 0x40), (DmaC.ROWS, 2), (DmaC.SPITCH, 0x40), (DmaC.DPITCH, 0x40),
    (DmaC.CTL, 0x408), (DmaC.TRIG, k)].foldl (fun s x => (s.put (Dma.cb 5) x.1 x.2).wput (Dma.cb 5) x.1 x.2) s

theorem witness_DmaChannels : tReady (tDma 1 1) 0x081 ∧ (tDma 1 1).frozen Dma.p = false ∧ (tDma 1 1).en Dma.p = true ∧
    Dma.st (tDma 1 1) 5 = 1 ∧ Dma.kind (tDma 1 1) 5 = 1 ∧ Dma.st (tDma 2 1) 5 = 2 ∧ (tDma 1 1).isReset .fabric = false ∧
    (let x : Action := ⟨0, 7, 64 + 5, 700, 700, false⟩
     let s := { tDma 1 1 with acts := [x] }
     s.acts.find? (fun y => y.act == 7) = some x ∧ x.arg % 64 = 5 ∧ x.fire = (700 : BitVec 64).toNat ∧ x.fire ≠ (1 : BitVec 64).toNat ∧ Dma.st s 5 = 1 ∧ s.isReset .fabric = false) := by decide +kernel

/-- The condition of a burst that copies. -/
abbrev tCopy (s : State) : Prop := s.Clean ∧ Dma.live s = true ∧ s.Quiet ∧ Dma.mode s 5 = 0 ∧ bitsOf (Dma.ctl s 5) 4 2 = 0 ∧
  Dma.valid s 5 = true ∧ (Dma.ch s 5).fin = none ∧ (Dma.ch s 5).mis = 0 ∧ Dma.served s = some 5

theorem witness_DmaChannels_burst : let s := tDma 2 1
    tCopy s ∧ Dma.kind s 5 ≠ 2 ∧ Dma.st s 5 = 2 ∧ inSram (Dma.srcAt s 5 0) (Dma.burstLen s 5 0) = true ∧
      inSramArea (Dma.dstAt s 5 0) (Dma.burstLen s 5 0) = true ∧ Dma.srcAt s 5 0 + Dma.burstLen s 5 0 ≤ Dma.dstAt s 5 0 := by decide +kernel

/-- An ARMED channel of kind REQUEST on the transmit line of CAN 0, 16 bytes a request. -/
theorem witness_DmaChannels_request : let s := (tDma 1 (2 + 3 * 256 + 16 * 65536)).put (pg 0x0B1) H.EN 1
    tCopy s ∧ Dma.kind s 5 = 2 ∧ Dma.st s 5 = 1 ∧ Dma.waits s 5 = false ∧ Dma.burst s 5 = 16 ∧ 16 ≤ Dma.burstLen s 5 0 ∧
      inSram (Dma.srcAt s 5 0) 16 = true ∧ inSramArea (Dma.dstAt s 5 0) 16 = true ∧ Dma.srcAt s 5 0 + 16 ≤ Dma.dstAt s 5 0 := by decide +kernel

/-- A set that has moved all its bytes, with status 1 or 2. -/
theorem witness_DmaChannels_complete : [1, 2].all (fun f =>
    let s := Dma.set (tDma 2 1) 5 ⟨128, 0, none, some (f, 0x1234)⟩
    (Dma.ch s 5).fin == some (f, 0x1234) && Dma.st s 5 == 2 && Dma.live s && s.wget (Dma.cb 5) DmaC.WB == 0 &&
      s.wget (Dma.cb 5) DmaC.FEED == 0 && (s.armedAt (Dma.cb 5 + 0x048)).isNone && decide (Dma.total s 5 ≤ 2 ^ 24) &&
      (List.range 64).all (fun m => Dma.kind s m != 3)) = true := by decide +kernel

/-- A feed of 64 bytes in SRAM with tag `tag`: SRC, DST, LEN, ROWS. -/
def tFeed (tag : Nat) : State :=
  tMem ((tDma 3 1).wput (Dma.cb 5) DmaC.FEED 0x11000000) 0x11000000 ([0, 1, 0, 0x10, 0, 2, 0, 0x10, 16, 0, 0, 0, 1, 0, 0, 0] ++
    List.replicate 32 0 ++ [tag])

theorem witness_DmaChannels_feed : [0, 7].all (fun g => let s := tFeed g
    decide (s.Clean) && !s.frozen Dma.p && Dma.st s 5 == 3 && Dma.live s && s.wget (Dma.cb 5) DmaC.FEED == 0x11000000 && inSram 0x11000000 64 &&
      s.numAt (0x11000000 + 0x30) 2 == g && (List.range 12).all (fun i => s.byte (0x11000000 + 0x34 + i) == 0)) = true := by decide +kernel

/-- The set that the feed of tag 7 leaves is valid. -/
theorem witness_DmaChannels_fed : (match execFeedFetch 5 (tFeed 7) with
    | .next t => Dma.valid t 5
    | _ => false) = true := by decide +kernel

theorem witness_DmaChannels_abort : let s := tDma 2 1
    s.Quiet ∧ s.Clean ∧ s.frozen Dma.p = false ∧ s.dmaClear = false ∧ (∀ n < 64, Dma.st s n ≠ 4 ∧ Dma.waits s n = false) ∧ s.Writable rq (0x081 + 5 / 32) ∧ Dma.st s 5 = 2 ∧ s.wget (Dma.cb 5) DmaC.WB = 0 ∧
      s.Writable rq Dma.p := by decide +kernel

/-- A single and a double error in the word the scrubber reads. -/
theorem witness_DmaChannels_scrub_error : [true, false].all (fun d =>
    let s := { (tOn [0x090]).put Mem.b Mem.SCRUB_CTL_SCRUB_EN 1 with eccBad := [(0x10000000, d)] }
    s.flag Mem.b Mem.SCRUB_CTL_SCRUB_EN && s.en 0x090 && s.running .fabric &&
      s.eccOf (0x10000000 + 8 * s.get Mem.b Mem.SCRUB_POS_WORD) == some d) = true := by decide +kernel

theorem witness_DmaChannels_scrub : let s := ((tOn [0x090]).put Mem.b Mem.SCRUB_CTL_SCRUB_EN 1).put Mem.b Mem.SCRUB_POS_WORD (2 ^ 22 - 1)
    s.eccBad = [] ∧ s.flag Mem.b Mem.SCRUB_CTL_SCRUB_EN = true ∧ s.en 0x090 = true ∧ s.running .fabric = true ∧
      s.get Mem.b Mem.SCRUB_POS_WORD = 2 ^ 22 - 1 := by decide +kernel

/-! ### Flash, Annal, dump -/

/-- FLASH with the operation registers set: offset `o`, 100 bytes from 0x10000100, sector group `w` protected. -/
def tFl (o w : Nat) : State :=
  (((tOn []).put Flash.b Flash.FL_ADDR_OFS o).put Flash.b Flash.FL_SRC_ADDR 0x10000100).put Flash.b Flash.FL_LEN_BYTES 100 |>.put Flash.b Flash.WP_PROT w

theorem witness_FlashAndAnnal : let s := tFl 0x3BFFF9C 0
    tReady s 0x091 ∧ s.en 0x091 = true ∧ s.flag Flash.b Flash.FL_STAT_BUSY = false ∧ inSram 0x10000100 100 = true ∧ s.get Flash.b Flash.FL_SRC_ADDR = 0x10000100 ∧ 0x10000100 % 4 = 0 ∧
      s.get Flash.b Flash.FL_LEN_BYTES = 100 ∧ s.get Flash.b Flash.FL_ADDR_OFS + 100 ≤ 0x4000000 ∧ Flash.protected_ s 0x3BFFF9C 100 = false := by
  decide +kernel

/-- Erases on a boundary, off one, and of a protected block. -/
theorem witness_FlashAndAnnal_erase : (tFl 0x3BF0000 0).get Flash.b Flash.FL_ADDR_OFS % 0x10000 = 0 ∧
    Flash.protected_ (tFl 0x3BF0000 0) 0x3BF0000 0x10000 = false ∧ Flash.protected_ (tFl 0x3BF0000 0) 0x3BF0000 0x1000 = false ∧
    (tFl 0x12001 0).get Flash.b Flash.FL_ADDR_OFS % 0x1000 ≠ 0 ∧ (tFl 0x10000 1).get Flash.b Flash.FL_ADDR_OFS = 0x10000 ∧
    Flash.protected_ (tFl 0x10000 1) 0x10000 0x10000 = true := by decide +kernel

/-- A sector erase, and a program of the last bytes of a page. -/
theorem witness_FlashAndAnnal_done : let e : FlashOp := ⟨1, 0x3FFF000, 0, 0x1000, false⟩
    let p : FlashOp := ⟨0, 0x130F0, 0x10000100, 16, false⟩
    let s := { tMem State.reset 0x10000100 [1, 2, 3] with fl := { State.reset.fl with op := some p } }
    State.reset.running .flash = true ∧ State.reset.en 0x091 = true ∧ e.susp = false ∧ p.susp = false ∧ 1 ≤ p.len ∧ p.ofs + p.len ≤ 0x4000000 ∧ e.kind ≠ 0 ∧ Flash.win + e.ofs + e.len ≤ 0x24000000 ∧ s.fl.op = some p ∧ s.Clean ∧
      inSram p.src p.len = true ∧ p.ofs % 256 + p.len ≤ 256 ∧ (∀ i < p.len, s.byte (Flash.win + p.ofs + i) = 0xFF) := by decide +kernel

/-- The Annal ready, its write pointer behind the header, with an entry's data in SRAM. -/
def tAnn (l : List AnnReq) : State :=
  let s := (tOn []).put Annal.b Annal.ANN_STAT_READY 1
  let s := { s with fl := { s.fl with ptr := 0x1000, queue := l } }
  tMem s 0x10000100 [60, 61, 62, 63]

theorem witness_FlashAndAnnal_annal : let s := tAnn (List.replicate 15 ⟨0, 0, 0, 0, 0⟩)
    tReady s 0x092 ∧ s.en 0x092 = true ∧ s.flag Annal.b Annal.ANN_STAT_READY = true ∧ s.fl.queue.length < 16 ∧
      s.flag Annal.b Annal.ANN_STAT_CROWDED = false := by decide +kernel

/-- Requests with type 8 and 1 byte, type 1 and 4,096 bytes, and each reason for ARG. -/
theorem witness_FlashAndAnnal_append : [(⟨0x10000100, 8, 255, 1, 65535⟩ : AnnReq), ⟨0x10000100, 1, 0, 4096, 0⟩].all (fun r => let s := tAnn [r]
    decide (s.Clean) && s.running .flash && s.en 0x092 && s.flag Annal.b Annal.ANN_STAT_READY && s.vig.queue.isEmpty && (s.fl.queue == [r]) &&
      inSram r.src r.len && decide (s.fl.ptr + Annal.size r.len ≤ 0x200000) && decide (s.get Annal.b Annal.NEXT_SEQ_SEQ + 1 < 2 ^ 32)) = true ∧
    [(⟨0, 0, 0, 1, 0⟩ : AnnReq), ⟨0, 9, 0, 1, 0⟩, ⟨0, 1, 0, 4097, 0⟩, ⟨2, 1, 0, 1, 0⟩].all (fun r =>
      decide (r.typ = 0 ∨ 8 < r.typ ∨ 4096 < r.len ∨ r.src % 4 ≠ 0)) = true := by decide +kernel

/-- The flash behind the pointer is erased. -/
theorem witness_FlashAndAnnal_erased : let s := tAnn []
    let a := Annal.half (s.get Annal.b Annal.ANN_STAT_HALF) + 0x1000
    ∀ i < 17, s.byte (a + i) = 0xFF := by decide +kernel

/-- Both halves with a header, generations 4 and 5. -/
def tHeads : State :=
  let h (g : Nat) := let l := recBytes [(2, 0x4148), (2, 0), (4, g), (4, 77)]
    l ++ leBytes 4 (crc32c l)
  let put (a : Nat) (l : List Nat) := (List.range l.length).map (fun i => (a + i, BitVec.ofNat 8 (l.getD i 0)))
  { State.reset with mem := (put (Annal.half 0) (h 4) ++ put (Annal.half 1) (h 5)).filter (fun x => x.2 != 0xFF) }

theorem witness_FlashAndAnnal_scan : let s := tHeads
    s.running .flash = true ∧ s.en 0x092 = true ∧ s.flag Annal.b Annal.ANN_STAT_READY = false ∧ s.fl.scan = none ∧ Annal.headOk s 0 = true ∧
      Annal.headOk s 1 = true ∧ Annal.genOf s (1 - 1) < Annal.genOf s 1 ∧ (∀ i < 16, s.byte (Annal.half 1 + 0x1000 + i) = 0xFF) := by
  decide +kernel

theorem witness_FlashAndAnnal_ends : let s := State.reset.put Annal.b Annal.ANN_STAT_HARVESTING 1
    let t := { State.reset with fl := { State.reset.fl with scan := some (2 ^ 32 - 2) } }
    let u := { State.reset with fl := { State.reset.fl with dumpRun := some (1, 5) }, regs := Tab.ins State.reset.regs (pg 0x093 + 0x080) 0x8084 }
    s.flag Annal.b Annal.ANN_STAT_HARVESTING = true ∧ t.fl.scan = some (2 ^ 32 - 2) ∧ t.running .flash = true ∧
      tReady State.reset 0x093 ∧ State.reset.flag (pg 0x093) Dump.DUMP_STAT_BUSY = false ∧ u.fl.dumpRun = some (1, 5) ∧
      u.running .fabric = true ∧ u.Clean ∧ u.vig.dump = none ∧
      Dump.pageOn u 0 = true ∧ Dump.page u 0 = 0x084 ∧ (∀ k < 54, Dump.pageOn u k = true → Dump.waits u (Dump.page u k) = false) := by decide +kernel

/-! ### Clocks -/

/-- TCXO good, the external reference selected, a tolerance of 20; `n` good windows in a row. -/
def tRef (n : Nat) (q : Nat) : State :=
  let s := (State.reset.put (pg 0x008) Clk0.REF_CFG_REF_SEL 1).put (pg 0x008) Clk0.REF_CFG_REF_TOL 20
  { (s.put (pg 0x008) Clk0.REF_STAT_TCXO_OK 1).put (pg 0x008) Clk0.REF_STAT_EXT_QUAL q with refGood := n }

theorem witness_ClocksAndReference : ((-20000000 : Int).natAbs ≤ (tRef 14 0).get (pg 0x008) Clk0.REF_CFG_REF_TOL * 1000000) ∧
    (tRef 14 0).refGood < 15 ∧ (tRef 15 0).refGood = 15 ∧ (tRef 15 0).flag (pg 0x008) Clk0.REF_STAT_EXT_QUAL = false ∧
    (tRef 15 0).extActive = false ∧ (tRef 15 0).get (pg 0x008) Clk0.REF_CFG_REF_SEL = 1 ∧ (tRef 15 0).refLost = false ∧
    ¬ ((20000001 : Int).natAbs ≤ (tRef 16 1).get (pg 0x008) Clk0.REF_CFG_REF_TOL * 1000000) ∧
    (tRef 16 1).flag (pg 0x008) Clk0.REF_STAT_EXT_QUAL = true ∧ (tRef 16 1).flag (pg 0x008) Clk0.REF_STAT_TCXO_OK = true ∧
    ((tRef 16 1).put (pg 0x008) Clk0.REF_STAT_EXT_ACTIVE 1).extActive = true ∧ (tRef 15 0).flag (pg 0x008) Clk0.REF_STAT_NONE = false := by decide +kernel

/-- PLL 4 in state `st` with `g` good windows in a row and `f` failed searches. -/
def tPll (st g f : Nat) : State := (State.reset.put (Pll.b 4) Pll.PLL_STAT_STATE st).modPll 4 (fun x => { x with good := g, fails := f })

/-- Counts of 0.1 % and 0.5 % off the target, and beyond. -/
theorem witness_ClocksAndReference_windows : let s := tPll 1 3 0
    let n := Pll.target s 4 * 256 / 10000000
    Pll.within (Pll.target s 4) n 1 1000 = true ∧ n < 2 ^ 24 ∧ Pll.within (Pll.target s 4) (n + n / 250) 5 1000 = true ∧
      Pll.within (Pll.target s 4) (n + n / 250) 1 1000 = false ∧ Pll.within (Pll.target s 4) (n + n / 100) 5 1000 = false ∧
      [1, 2, 3, 4, 5].all (fun st => (tPll st 3 2).pllState 4 == st) = true ∧ (s.pll 4).good = 3 ∧ ((tPll 2 2 2).pll 4).fails = 2 ∧
      s.oscRuns (4 - 4) = false ∧ (s.pll 4).keep = false ∧ tReady s (Pll.page 4) := by decide +kernel

/-! ### Vigils and guards -/

/-- The state a command answers. -/
def tNext (o : Out) : State := match o with
  | .next t => t
  | _ => State.reset

/-- After the first self-checks: Vigil 0 ACTIVE, Vigil 1 standby. -/
def tVig : State := tNext (execSelfCheck 1 true (tNext (execSelfCheck 0 true State.reset)))

theorem witness_VigilsAndGuards : let s := tVig
    let m := s.modVigs (fun x => { x with b := { x.b with run := 2 } })
    Vig.runs s = true ∧ (Vig.of s 1).checked = true ∧ (Vig.of s 1).bad = false ∧ Vig.state s 1 = 1 ∧ s.vig.move = false ∧
      (Vig.of s 1).run ≠ 2 ∧ (Vig.of m 1).run = 2 ∧ Vig.state m 0 = 0 ∧ m.vig.active = some 0 ∧ m.vig.waiting = [] ∧
      s.flag (pg 0x008) Clk0.REF_STAT_NONE = false := by decide +kernel

theorem witness_VigilsAndGuards_checks : let s := State.reset
    let a := tNext (execSelfCheck 0 true s)
    let c := a.put (Vig.b 1) Vig.VIG_STAT_CAL_VALID 1
    Vig.runs s = true ∧ (Vig.of s 0).checked = false ∧ s.vig.waiting = [] ∧ s.vig.active = none ∧ s.get (Vig.b 0) Vig.VIG_CFG_PREFER = 0 ∧
      (Vig.of a 1).checked = false ∧ a.vig.active = some 0 ∧ a.vig.waiting = [] ∧ Vig.runs a = true ∧
      Vig.sound s 0 = true ∧ Vig.sound a 1 = true ∧ Vig.sound c 1 = false ∧ Vig.runs c = true ∧ (Vig.of c 1).checked = false ∧ c.vig.waiting = [] ∧
      c.vig.active = some 0 ∧ s.flag (pg 0x008) Clk0.REF_STAT_NONE = false := by decide +kernel

/-- Steps 1 and 2 of the recipe of CLOCK for PLL 1, settled. -/
theorem witness_VigilsAndGuards_recipe : [1, 2].all (fun n => let r : Recipe := ⟨4, 11, 0x1008, 0, 3, n, false⟩
    let s := (tVig.put (Pll.b 1) Pll.PLL_STAT_STATE 3).modVigs (fun x => { x with running := [r] })
    Vig.runs s && (s.vig.active == some 0) && !(Vig.of s 0).bad && (s.vig.running == [r]) && s.pllState 1 == 3 && decide (r.source < 12)) = true := by
  decide +kernel

/-- Pages of the array, acquisition and network islands, with no recipe and no earlier hang. -/
theorem witness_VigilsAndGuards_hang : let s := tVig.put (Vig.b 0) Vig.RECIPE_EN_EN 0xFFFFF
    Vig.runs s = true ∧ s.vig.active = some 0 ∧ Vig.enabled s 0 0x0D = true ∧ s.vig.running = [] ∧ s.vig.hangs = [] ∧
      [(2, 0x020), (3, 0x018), (5, 0x060)].all (fun x => (pageInfo x.2).isSome && pageIsland x.2 == Island.nth x.1 &&
        s.running (Island.nth x.1)) = true := by decide +kernel

/-- A page of the time island; both Vigils failed; FAULT_N low with no source. -/
theorem witness_VigilsAndGuards_fatal : let s := (tVig.put (Vig.b 0) Vig.VIG_CFG_AUTO_DUMP 0).put (Vig.b 0) Vig.RECIPE_EN_EN 0xFFFFF
    let f := tVig.modVigs (fun x => { x with a := { x.a with bad := true }, b := { x.b with bad := true } })
    let n := tVig.modVigs (fun x => { x with faultN := true })
    Vig.runs s = true ∧ s.vig.active = some 0 ∧ (pageInfo 0x050).isSome = true ∧ pageIsland 0x050 = .time ∧ s.running .time = true ∧
      Vig.enabled s 0 0x0D = true ∧ Vig.enabled s 0 0x12 = true ∧ s.flag (Vig.b 0) Vig.VIG_CFG_AUTO_DUMP = false ∧ s.vig.running = [] ∧
      Vig.runs f = true ∧ f.vig.a.bad = true ∧ f.vig.b.bad = true ∧ Vig.faultSrc n = false ∧ n.vig.faultN = true := by decide +kernel

theorem witness_VigilsAndGuards_commands : let f := Vig.setState tVig 1 2
    let d := tVig.modVigs (fun x => { x with dump := some ⟨none, 900, [0]⟩ })
    tReady tVig 2 ∧ Vig.standby tVig 1 = true ∧ tVig.vig.waiting = [] ∧ (Vig.of f 1).checked = true ∧ Vig.state f 1 = 2 ∧
      tVig.vig.dump = none ∧ tVig.eccBad = [] ∧ ([0x093, 0x0C0, 0x0C1, 0x0C2, 0x0C3, 0x0C4, 0x0C5].all (fun p => !tVig.locked p)) = true ∧ tVig.flag (pg 0x093) Dump.DUMP_STAT_BUSY = false ∧ d.vig.dump.isSome = true ∧
      d.fl.dumpRun = none ∧ d.get (Vig.b 0) Vig.VIG_CFG_DUMP_THEN = 0 ∧ Vig.runs d = true ∧ d.vig.active = some 0 := by decide +kernel

/-- Guards 0 and 22 with limits −5 and 7: samples on both limits and one beyond each; guard 21 with its timeout. -/
theorem witness_VigilsAndGuards_guards : [0, 22].all (fun g => let b := Guard.b g
    let s := ((tVig.put b GuardG.GD_CFG_ACTION 1).put b GuardG.GD_CFG_FILTER 1)
    let s := (s.putI b GuardG.GD_LO_LO (-5)).putI b GuardG.GD_HI_HI 7
    Guard.sampled s g && Guard.filter s g == 1 && s.getI b GuardG.GD_LO_LO == -5 && s.getI b GuardG.GD_HI_HI == 7 &&
      Guard.state s g == 0 && (Guard.action s g == 1 || Guard.action s g == 2)) = true ∧
    (let s := (tVig.put (Guard.b 21) GuardG.GD_CFG_ACTION 1).put (Guard.b 21) GuardG.GD_TO_TO 3
     Guard.timed s 21 = true ∧ Guard.action s 21 ≠ 0) := by decide +kernel

/-! ### Power, resets, boot -/

/-- The straps `st`, PD_STAT `pd` and a limit of 100 mA in their words (reset leaves them free). -/
def tPwr (st pd : Nat) : State :=
  let w := Tab.ins (Tab.ins State.reset.regs 0x044 (BitVec.ofNat 32 st)) (Power.b + 0x040) (BitVec.ofNat 32 pd)
  { State.reset with regs := Tab.ins w (Power.b + 0x048) 100, base := 12345 }

/-- Its power state changed. -/
def tPwrWith (pd : Nat) (f : PwrSt → PwrSt) : State := (tPwr 1 pd).modPwr f

/-- No flash operation, Annal request or harvest under way. -/
def tStill (s : State) : Bool := s.fl.op.isNone && s.fl.queue.isEmpty && s.vig.queue.isEmpty &&
  !s.flag Annal.b Annal.ANN_STAT_HARVESTING

/-- Boot modes 1 and 2; a running watchdog of each kind. -/
theorem witness_PowerResetsAndBoot : [1, 2].all (fun m => let s := tPwr m 0
    let w := s.put 0 Sys.WDOG_MS 3
    let u := w.put 0 Sys.WDOG_WARM 1
    tStill s && s.get 0 Sys.STRAPS_BOOT == m && !s.jtag.test && !s.flag Power.b Power.PD_STAT_DENIED && !s.pwr.asleep && decide (tReady s 0) &&
      w.get 0 Sys.WDOG_MS == 3 && w.running .fabric && !w.flag 0 Sys.WDOG_WARM && u.flag 0 Sys.WDOG_WARM &&
      u.get 0 Sys.STRAPS_BOOT == m) = true := by decide +kernel

/-- Power-on: not on VBAK, classes 3, 4 and 6; PoE back to a module asleep, and during load shed. -/
theorem witness_PowerResetsAndBoot_power : let v := tPwrWith 0 (fun p => { p with asleep := true })
    let v := { v with inReset := Island.all }
    let d := tPwrWith 16 (fun p => { p with back := some 777 })
    tStill State.reset = true ∧ tStill v = true ∧ tStill d = true ∧ Power.onVbak State.reset = false ∧ State.reset.jtag.test = false ∧ (3 : BitVec 4).toNat < 4 ∧ 4 ≤ (6 : BitVec 4).toNat ∧
      Power.onVbak v = false ∧ v.jtag.test = false ∧ v.pwr.asleep = true ∧ d.get 0 Sys.STRAPS_BOOT = 1 ∧ d.pwr.asleep = false ∧
      Power.shedding d = true ∧ d.pwr.back = some 777 ∧ d.flag Power.b Power.PD_STAT_DENIED = false := by decide +kernel

/-- VAUX12 on with a limit of 100 mA: 101 mA held, 151 at once, 150 not; the PA supply on in full class. -/
theorem witness_PowerResetsAndBoot_trip : let s := (tPwr 1 0).put Power.b Power.RAIL_CTL_VAUX_EN 1
    let p := (tPwr 1 3).put Power.b Power.RAIL_CTL_PA_SUP_EN 1
    s.vauxOn = true ∧ s.get Power.b Power.VAUX_ILIM_MA = 100 ∧ 3 * 100 < 2 * (151 : BitVec 16).toNat ∧ ¬ 3 * 100 < 2 * (150 : BitVec 16).toNat ∧
      p.paOn = true := by decide +kernel

theorem witness_PowerResetsAndBoot_boot : let r := tPwrWith 0 (fun p => { p with running := some 0 })
    let w := (tPwrWith 0 (fun p => { p with waitHost := true })).put (Cpu.b 0) CoreP.CORE_STAT_STATE 1
    tReady r 0 ∧ r.pwr.running = some 0 ∧ r.pwr.waitHost = false ∧ tReady w 0 ∧ w.pwr.waitHost = true ∧ Cpu.state w 0 = 1 ∧
      rangeOf (0x20000000 : BitVec 32).toNat ≠ .sram ∧ w.locked 0x0B0 = false := by decide +kernel

/-- A SHA-256 of 3 bytes, a verify and a SUBMIT under way. -/
theorem witness_PowerResetsAndBoot_hash : let h (n : Nat) := tPwrWith 0 (fun p => { p with hash := some n })
    let s := ((h 1).put 0 Sys.HASH_SRC_ADDR 0x10000000).put 0 Sys.HASH_LEN_BYTES 3
    s.running .fabric = true ∧ s.Clean ∧ s.pwr.hash = some 1 ∧ inSram (s.get 0 Sys.HASH_SRC_ADDR) (s.get 0 Sys.HASH_LEN_BYTES) = true ∧
      (h 2).pwr.hash = some 2 ∧ (h 4).pwr.hash = some 4 := by decide +kernel

/-- A token of zeros, and the eight words `l` of DBGHASH. -/
def tTok (l : List Nat) : State :=
  { State.reset with regs := ((List.range 8).foldl (fun r i => Tab.ins r (0x0A0 + 4 * i) (BitVec.ofNat 32 (l.getD i 0))) State.reset.regs) }

/-- A key whose hash is not DBGHASH: the token is bad. -/
theorem witness_PowerResetsAndBoot_bad : Dbg.good (tTok [1]) = false := by decide +kernel

/-- DBGHASH of that key. -/
def tKeyed : State := tTok ((List.range 8).map (fun i => leNat (((sha256 (List.replicate 64 0)).drop (4 * i)).take 4)))

theorem witness_PowerResetsAndBoot_key : (leNat (sha256 ((Dbg.token tKeyed).take 64)) ==
    (if tKeyed.get 0 Sys.DBGHASH_HASH = 0 then tKeyed.get 0 Sys.PKHASH_HASH else tKeyed.get 0 Sys.DBGHASH_HASH)) = true := by decide +kernel

/-- A key whose hash is DBGHASH: whether the token is good is the signature's answer, which no choice of the model fixes. -/
theorem witness_PowerResetsAndBoot_good : Dbg.good tKeyed = Config.signatureOk
    (beNat (sha256 (leBytes 16 (tKeyed.get 0 Sys.DBG_CHAL_CHAL) ++ leBytes 16 (tKeyed.get 0 Sys.UID) ++ (Dbg.token tKeyed).drop 128)))
    (beNat ((Dbg.token tKeyed).take 64)) (beNat (((Dbg.token tKeyed).drop 64).take 64)) := by
  have h := witness_PowerResetsAndBoot_key
  unfold Dbg.good
  simp only [h, Bool.true_and]

/-! ### Host SPI, field buses, test access -/

/-- The host target enabled and idle, with FIFO contents. -/
def tSpi (rxf txf : List Nat) : State := { tMem (tOn [0x0B0]) 0x10000100 [1, 2, 3] with spi := ⟨rxf, txf, none, 0, 0, [], false⟩ }

/-- An idle target; a full transmit FIFO and a receive FIFO with room for one word. -/
theorem witness_HostFramesFifosDoorbells : let s := tSpi (List.replicate 255 7) (List.replicate 256 1)
    s.en Spi.p = true ∧ s.running .fabric = true ∧ s.flag Spi.b H.BUSY = false ∧ s.spi.deaf = false ∧ s.spi.exec = none ∧
      s.flag Spi.b Spi.HOST_CFG_CRC_EN = false ∧ s.Clean ∧ inSram 0x10000100 4096 = true ∧ s.Quiet ∧ s.spi.txf.length = 256 ∧
      s.spi.rxf = 7 :: List.replicate 254 7 := by decide +kernel

/-- A WRITE and a PUSH executing. -/
theorem witness_HostFramesFifosDoorbells_done : let w := { tSpi [] [] with spi := ⟨[], [], some (false, true, 0x11FBFFF8, [2 ^ 32 - 1, 5]), 0, 0, [], false⟩ }
    let p := { tSpi [] [] with spi := ⟨[], [], some (true, false, 0, [1]), 0, 0, [], false⟩ }
    w.spi.exec = some (false, true, 0x11FBFFF8, [2 ^ 32 - 1, 5]) ∧ w.Clean ∧ inSramArea 0x11FBFFF8 8 = true ∧ w.held = [] ∧ 0x11FBFFF8 % 4 = 0 ∧ w.Quiet ∧
      w.running .fabric = true ∧ p.spi.exec = some (true, false, 0, [1]) ∧ (∀ x ∈ [2 ^ 32 - 1, 5], x < 2 ^ 32) := by decide +kernel

theorem witness_HostFramesFifosDoorbells_pages : let s := tSpi [] []
    s.Writable rq Spi.p ∧ s.spi.rxf = [] ∧ s.spi.txf.length < 256 ∧ s.get Spi.b H.CODE = 0 ∧ s.Writable rq (Uart.p 2) ∧
      s.Writable rq I2c.p := by decide +kernel

/-- CAN 0 ACTIVE with TEC 125 and one waiting record with the flags `f`. -/
def tCan (f : Nat) : State :=
  let r := [0x123 * 2 ^ 18, 0x77770008 + 256 * f, 0, 0] ++ List.replicate 16 9
  let s := ((tOn [0x0B1]).put (Can.b 0) Can.CAN_STAT_STATE 1).put (Can.b 0) Can.CAN_STAT_TEC 125
  { s with can := s.can.setIfInBounds 0 ⟨[1], [r], [7], [5, 6], [1, 2, 3, 4], true, false⟩ }

/-- Disabled, with a good and a bad timing; BUS_OFF. -/
theorem witness_CanUartI2cGpio : let s := tOn []
    let bad := s.setReg (Can.b 0 + 0x044) 0
    let off := (tOn [0x0B1]).put (Can.b 0) Can.CAN_STAT_STATE 3
    tReady s (Can.p 0) ∧ s.en (Can.p 0) = false ∧ Can.state s 0 = 0 ∧ Can.timingOk s 0 = true ∧ Can.timingOk bad 0 = false ∧
      bad.en (Can.p 0) = false ∧ bad.get (Can.b 0) H.CODE = 0 ∧ Can.state off 0 = 3 ∧ off.en (Can.p 0) = true ∧
      off.running .fabric = true := by decide +kernel

/-- A record with an event and repeated, and one sent once. -/
theorem witness_CanUartI2cGpio_can : let s := tCan 3
    Can.live s 0 = true ∧ (Can.st s 0).txq.length = 1 ∧ (Can.st s 0).txAt = [7] ∧ 7 ≤ (7 : BitVec 64).toNat ∧ (Can.st s 0).txe.length ≤ 60 ∧ s.flag (Can.b 0) Can.CAN_CFG_LISTEN = false ∧
      s.flag (Can.b 0) Can.CAN_CFG_LOOPBACK = false ∧ s.get (Can.b 0) Can.CAN_STAT_TEC < 256 ∧
      (Can.st (tCan 3) 0).txq.all (fun r => (Can.flags r).testBit 0 && (Can.flags r).testBit 1) = true ∧
      (Can.st (tCan 1) 0).txq.all (fun r => !(Can.flags r).testBit 1) = true ∧ s.get (Can.b 0) Can.CAN_STAT_TEC < 128 ∧
      (∀ i < 16, s.flag (Can.b 0 + 8 * i) Can.FILT_ID_EN = false) ∧ (Can.st s 0).rxf.length ≤ 620 := by decide +kernel

/-- Transmit error counters on each side of the passive and the bus-off limit. -/
theorem witness_CanUartI2cGpio_errors : [119, 120, 247, 248, 255].all (fun n =>
    let s := (tCan 3).put (Can.b 0) Can.CAN_STAT_TEC n
    Can.live s 0 && s.get (Can.b 0) Can.CAN_STAT_TEC == n) = true ∧
    (let s := (tCan 3).put (Can.b 0) Can.CAN_STAT_STATE 2
     Can.live s 0 = true ∧ Can.state s 0 = 2 ∧ s.get (Can.b 0) Can.CAN_STAT_TEC < 256 ∧ s.get (Can.b 0) Can.CAN_STAT_REC < 256) := by decide +kernel

/-- UART 0 with received and waiting characters. -/
def tUart (rx : List (Nat × Nat)) (tx : List Nat) (cur : Option Nat) : State :=
  { tOn [0x0B3] with uart := (tOn []).uart.setIfInBounds 0 ⟨rx, tx, cur, 6⟩ }

theorem witness_CanUartI2cGpio_uart : let s := tUart (List.replicate 63 (1, 0)) [7, 8] (some 9)
    let h := s.put (Uart.b 0) Uart.UART_CFG_FLOW 1
    s.en (Uart.p 0) = true ∧ s.running .fabric = true ∧ s.flag (Uart.b 0) Uart.UART_CFG_LOOP = false ∧ (Uart.st s 0).rx.length = 63 ∧
      s.flag (Uart.b 0) Uart.UART_CFG_BITS7 = false ∧ (Uart.st s 0).cur = some 9 ∧ (Uart.st s 0).tx = [7, 8] ∧
      Uart.heldBack s 0 = false ∧ Uart.heldBack h 0 = true ∧ Uart.flow h 0 true = true ∧
      (Uart.st (tUart (List.replicate 64 (1, 0)) [] (some 9)) 0).tx = [] := by decide +kernel

/-- I2C with one command, and with eight: a write and a read of 2 bytes with an interrupt. -/
theorem witness_CanUartI2cGpio_i2c : let c := 2 * 2 ^ 12 + 2 ^ 21
    let s := { tOn [0x0B6] with i2c := ⟨[c], [2], [3, 4], 0, 5⟩ }
    let r := { tOn [0x0B6] with i2c := ⟨[c + 2 ^ 11], List.replicate 14 2, [], 0, 5⟩ }
    let f := { tOn [0x0B6] with i2c := ⟨List.replicate 8 c, [], [], 0, 5⟩ }
    tReady s I2c.p ∧ s.en I2c.p = true ∧ s.running .fabric = true ∧ s.i2c.cmds = [(BitVec.ofNat 32 c).toNat] ∧ c.testBit 11 = false ∧
      bitsOf c 12 8 - s.i2c.done = 2 ∧ 2 ≤ s.i2c.tx.length ∧ (c + 2 ^ 11).testBit 11 = true ∧ r.i2c.rx.length + 2 ≤ 16 ∧ s.i2c.done ≤ 255 ∧
      8 ≤ f.i2c.cmds.length ∧ f.get I2c.b H.CODE = 0 := by decide +kernel

/-- Pins 0 and 15 with every mode, low, so that a rise is a change. -/
theorem witness_CanUartI2cGpio_gpio : [0, 15].all (fun p => [0, 1, 2, 3, 4, 5].all (fun m =>
    let s := (tOn []).put (Gpio.b + 4 * p) Gpio.PIN_CFG_IRQ_MODE m
    !Gpio.level s p && s.get (Gpio.b + 4 * p) Gpio.PIN_CFG_IRQ_MODE == m && s.running .fabric)) = true ∧ tReady (tOn []) Gpio.p := by
  decide +kernel

/-- Normal operation and test mode, with boot mode 1 strapped. -/
theorem witness_TestAccessAndPatterns : let s := tPwr 1 0
    let t := { s with jtag := { s.jtag with test := true } }
    s.pwr.asleep = false ∧ s.jtag.test = false ∧ s.held = [] ∧ t.pwr.asleep = false ∧ t.jtag.test = true ∧ t.get 0 Sys.STRAPS_BOOT = 1 ∧
      t.flag Power.b Power.PD_STAT_DENIED = false := by decide +kernel

/-- Debug access without and with a grant. -/
theorem witness_TestAccessAndPatterns_debug : let s := tPwr 1 0
    let g := s.put 0 Sys.DBG_STAT_SCOPE 1
    s.Quiet ∧ s.held = [] ∧ s.isReset .fabric = false ∧ (s.get 0 Sys.DBG_STAT_SCOPE).testBit 0 = false ∧
      (0x10000104 : Word).toNat / 0x1000 ≠ 0x40000 ∧ (0x10000102 : Word).toNat % 4 ≠ 0 ∧ g.running .fabric = true ∧
      (g.get 0 Sys.DBG_STAT_SCOPE).testBit 0 = true ∧ g.Clean ∧ inSramArea (0x10000104 : Word).toNat 4 = true ∧ g.pwr.asleep = false ∧
      g.jtag.test = false := by decide +kernel

/-- The pattern page enabled with the CDL page enabled or not, PRBS_CTL and TEST_STAT holding `c` and `v` (their reset is left free). -/
def tPrbs (cdl c v : Nat) : State :=
  let s := (tOn [0x0F0]).put (pg 0x048) H.EN cdl
  { s with regs := Tab.ins (Tab.ins s.regs (pg 0x0F0 + 0x040) (BitVec.ofNat 32 v)) (pg 0x0F0 + 0x044) (BitVec.ofNat 32 c) }

theorem witness_TestAccessAndPatterns_patterns : let s := tPrbs 0 0 0
    let o := tPrbs 0 1 2
    let l := tPrbs 0 1 18
    tReady s 0x0F0 ∧ s.en 0x0F0 = true ∧ s.en 0x048 = false ∧ s.flag (pg 0x0F0) Test.PRBS_CTL_PRBS_EN = false ∧
      o.flag (pg 0x0F0) Test.PRBS_CTL_PRBS_EN = true ∧ tReady o 0x0F0 ∧ (tPrbs 1 0 0).en 0x048 = true ∧
      (tPrbs 1 0 0).get (pg 0x0F0) H.CODE = 0 ∧ Test.on o = true ∧ l.flag (pg 0x0F0) (Test.lock 2) = true ∧ Test.on l = true ∧
      o.flag (pg 0x0F0) (Test.lock 2) = false := by decide +kernel

/-- R456: the cells of the boundary register make up its 129 bits. -/
theorem test_boundary_cells : (Bscan.pads.map (fun x => Bscan.width x.2)).sum = 129 := by decide +kernel

end Sys2Proof.Machine
end

section
/-! ## REGISTER_WRITE and REGISTER_ACCESS_TIMEOUT (O14; spec/00 R9, spec/01 R25, R28, spec/02 R33, R36, R37)

Facts about single accesses first: how an error log counts, which writes a block's own register ignores, what one field of any value
stores, and the routes of word and narrow writes.  The obligation is assembled from them. -/

namespace Sys2Proof.Machine

/-! ### Error logs -/

/-- An error log raises COUNT of its page by one, saturating (R37). -/
theorem State.get_count_logErr (s : State) (p code a req : Nat) :
    (s.logErr p code a req).get (pg p) H.COUNT = satInc 8 (s.get (pg p) H.COUNT) := by
  have hcount : (s.put (pg p) H.COUNT (satInc 8 (s.get (pg p) H.COUNT))).get (pg p) H.COUNT =
      satInc 8 (s.get (pg p) H.COUNT) := by
    rw [State.get_put_same]
    exact Nat.mod_eq_of_lt (lt_of_le_of_lt (Nat.min_le_right _ _) (by decide))
  unfold State.logErr
  dsimp only
  split
  · unfold State.raise
    rw [State.get_put_ne _ _ _ H.IRQ_RAW H.COUNT _ (by simp only [H.IRQ_RAW, H.COUNT, Fld.words]; omega),
      State.get_put_ne _ _ _ H.ERR_ADDR H.COUNT _ (by simp only [H.ERR_ADDR, H.COUNT, Fld.words]; omega),
      State.get_put_bits _ _ _ H.CODE H.COUNT _ rfl (by decide) (by decide) (by decide) (by decide) (by decide), hcount]
  · exact hcount

theorem State.quiet_logErr {s : State} (h : s.Quiet) (p code a req : Nat) : (s.logErr p code a req).Quiet := by
  rw [State.logErr_only]
  exact h

/-! ### Writes to a block's own register -/

/-- A write that only logs an error counts once, as R37 says. -/
theorem Bus.put_logErr {s : State} {req p off v i code a : Nat} {b : Blk} (hh : (hasHeader b && decide (off < 0x040)) = false)
    (h : Bus.putBlock s req p b i off v = s.logErr (ownerPage p) code a req) :
    Bus.put s req p b i off v = s.logErr (ownerPage p) code a req := by
  have hn : ¬ satInc 8 (s.get (pg (ownerPage p)) H.COUNT) <
      (s.logErr (ownerPage p) code a req).get (pg (ownerPage p)) H.COUNT := by
    rw [State.get_count_logErr]
    exact lt_irrefl _
  unfold Bus.put
  simp only [hh, h, hn, Bool.false_eq_true, if_false, false_and]

/-- An offset without fields (R37, RESERVED_WRITE). -/
theorem Bus.putBlock_reserved {s : State} {req p i off v : Nat} {b : Blk} (hf : Bus.fields b i off = []) :
    Bus.putBlock s req p b i off v = s.logErr (ownerPage p) E.RESERVED_WRITE (pg p + off) req := by
  unfold Bus.putBlock
  simp only [hf, if_true]

/-- A word of read fields (R37, READONLY_WRITE). -/
theorem Bus.putBlock_readonly {s : State} {req p i off v : Nat} {b : Blk} (hf : Bus.fields b i off ≠ [])
    (hr : ∀ f ∈ Bus.fields b i off, f.acc = .rd) :
    Bus.putBlock s req p b i off v = s.logErr (ownerPage p) E.READONLY_WRITE (pg p + off) req := by
  have hall : (Bus.fields b i off).all (fun f => f.acc == .rd) = true := by
    rw [List.all_eq_true]
    exact fun f hm => beq_iff_eq.2 (hr f hm)
  unfold Bus.putBlock
  simp only [hf, hall, if_true, if_false]

/-- A free or shadow field of a locked page (R36). -/
theorem Bus.putBlock_locked {s : State} {req p i off v : Nat} {b : Blk} {f : FieldAt} (hl : s.locked (ownerPage p) = true)
    (hc : Bus.irqClr b off = false) (hf : Bus.fields b i off = [f]) (ha : f.acc = .fr ∨ f.acc = .sh) :
    Bus.putBlock s req p b i off v = s.logErr (ownerPage p) E.LOCKED (pg p + off) req := by
  unfold Bus.putBlock
  rcases ha with ha | ha <;> simp [hf, hl, hc, ha, FieldAt.blocked]

/-- The only field of a word, free or shadow and of any value, takes the written bits; nothing is logged (R9, R37). -/
theorem Bus.store_any {s : State} {req p a v : Nat} {f : FieldAt} (ha : f.acc = .fr ∨ f.acc = .sh) (hc : f.chk = .any) :
    Bus.store req p a [f] v s = s.setReg a (putBits (s.regN a) f.lo f.w (bitsOf v f.lo f.w)) := by
  have hw : ∀ (old : Nat) (first : Bool), f.write old v first = (bitsOf v f.lo f.w, none) := by
    intro old first
    unfold FieldAt.write
    rcases ha with ha | ha <;> simp only [ha, hc]
  unfold Bus.store
  rcases ha with ha | ha <;> simp [hw, ha]

theorem State.regN_setReg_same (s : State) (a v : Nat) : (s.setReg a v).regN a = v % 2 ^ 32 := by
  unfold State.regN
  rw [State.reg_setReg_same, BitVec.toNat_ofNat]

/-- Bits beyond the word of a written value have no effect on the word. -/
theorem putBits_bitsOf_mod (v lo w x n : Nat) :
    putBits v lo w (bitsOf (x % 2 ^ n) lo w) % 2 ^ n = putBits v lo w (bitsOf x lo w) % 2 ^ n := by
  apply Nat.eq_of_testBit_eq
  intro j
  simp only [Nat.testBit_mod_two_pow, putBits_testBit, bitsOf_testBit]
  by_cases hj : j < n
  · by_cases hlo : j < lo
    · simp [hlo]
    · have e : lo + (j - lo) = j := by omega
      simp [e, hj]
  · simp [hj]

/-! ### Pages and words -/

/-- Pages end at 0x11F (R31, R32). -/
theorem pageInfo_eq_none {p : Nat} (h : 288 ≤ p) : pageInfo p = none := by
  unfold pageInfo
  repeat rw [if_neg (by omega)]

/-- A page without a header of its own has an owner elsewhere (R31). -/
theorem ownerPage_ne {p i : Nat} {b : Blk} (hp : pageInfo p = some (b, i)) (hb : hasHeader b = false) : ownerPage p ≠ p := by
  have hlisted : ∀ q : Fin 288, ∀ x ∈ pageInfo q.val, hasHeader x.1 = false → ownerPage q.val ≠ q.val := by decide +kernel
  have hlt : p < 288 := by
    by_contra hge
    simp [pageInfo_eq_none (Nat.le_of_not_lt hge)] at hp
  exact hlisted ⟨p, hlt⟩ (b, i) hp hb

/-- A block's own register is not its owner's ERR_CODE word. -/
theorem errCode_ne {p i off : Nat} {b : Blk} (hp : pageInfo p = some (b, i)) (ho : off < 0x1000)
    (hh : (hasHeader b && decide (off < 0x040)) = false) : pg (ownerPage p) + 0x024 ≠ pg p + off := by
  unfold pg
  cases hb : hasHeader b with
  | false =>
    have := ownerPage_ne hp hb
    omega
  | true =>
    have : ¬ off < 0x040 := by simpa [hb] using hh
    omega

/-! ### The commands -/

theorem exec_registerWrite (req : Req) (size : Sz) (addr : BitVec 32) (value : BitVec 64) (s : State) :
    exec (.registerWrite req size addr value) s =
      .next (Cpu.settle 8 (Bus.commandN s req.code addr.toNat size.bytes (value.toNat % 2 ^ (8 * size.bytes)))) := rfl

theorem exec_registerAccessTimeout (req : Req) (addr : BitVec 32) (write : Bool) (s : State) :
    exec (.registerAccessTimeout req addr write) s = execRegisterAccessTimeout req addr write s := rfl

/-- REGISTER_WRITE of a word is a word write command at the window offset. -/
theorem exec_registerWrite_word {req : Req} {addr : BitVec 32} {value : BitVec 64} {s : State} {a : Nat}
    (ha : addr.toNat = Bus.base + a) :
    exec (.registerWrite req .w addr value) s = Cmd.write s req a (value.toNat % 2 ^ 32) := by
  rw [exec_registerWrite, ha]
  rfl

/-- A word write that its block ignores with an error answers without a bus error, and the error is logged (R37). -/
theorem exec_registerWrite_ignored {req : Req} {p off i code : Nat} {b : Blk} {addr : BitVec 32} {value : BitVec 64} {s : State}
    (hq : s.Quiet) (hr : s.Reaches req p) (hp : pageInfo p = some (b, i)) (ho : off < 0x1000) (h4 : off % 4 = 0)
    (ha : addr.toNat = Bus.base + (pg p + off)) (hh : (hasHeader b && decide (off < 0x040)) = false)
    (h : ∀ v, Bus.putBlock s req.code p b i off v = s.logErr (ownerPage p) code (pg p + off) req.code) :
    exec (.registerWrite req .w addr value) s =
      .next ((s.logErr (ownerPage p) code (pg p + off) req.code).answered req []) := by
  have hput := Bus.put_logErr hh (h (value.toNat % 2 ^ 32 % 2 ^ 32))
  rw [exec_registerWrite_word ha, Cmd.write_reg hr hp ho h4, hput]
  rw [hput]
  exact State.quiet_logErr hq _ _ _ _

/-- A word write to the only field of a word, free or shadow and of any value, stores the written bits. -/
theorem exec_registerWrite_stores {req : Req} {p off i : Nat} {b : Blk} {f : FieldAt} {addr : BitVec 32} {value : BitVec 64}
    {s : State} (hq : s.Quiet) (hw : s.Writable req p) (hp : pageInfo p = some (b, i)) (ho : off < 0x1000) (h4 : off % 4 = 0)
    (ha : addr.toNat = Bus.base + (pg p + off)) (hh : (hasHeader b && decide (off < 0x040)) = false)
    (hb : b = .calE ∨ b = .mem) (hf : Bus.fields b i off = [f]) (hacc : f.acc = .fr ∨ f.acc = .sh) (hchk : f.chk = .any) :
    Cmd.Sets (.registerWrite req .w addr value) s [pg p + off] (fun t =>
      t.regN (pg p + off) = putBits (s.regN (pg p + off)) f.lo f.w (bitsOf value.toNat f.lo f.w) % 2 ^ 32) := by
  have hhook : Bus.hook s req.code p b i off (value.toNat % 2 ^ 32 % 2 ^ 32)
      (Bus.store req.code (ownerPage p) (pg p + off) (Bus.fields b i off) (value.toNat % 2 ^ 32 % 2 ^ 32)) =
      s.setReg (pg p + off) (putBits (s.regN (pg p + off)) f.lo f.w (bitsOf (value.toNat % 2 ^ 32) f.lo f.w)) := by
    rw [hf, Nat.mod_mod, ← Bus.store_any (req := req.code) (p := ownerPage p) hacc hchk]
    rcases hb with rfl | rfl <;> rfl
  have honly := State.RegsOnly.setReg s (pg p + off)
    (putBits (s.regN (pg p + off)) f.lo f.w (bitsOf (value.toNat % 2 ^ 32) f.lo f.w))
  have hcount := honly.get (pg (ownerPage p)) H.COUNT (fun n hn => by
    obtain rfl : n = 0 := Nat.lt_one_iff.1 hn
    simpa [H.COUNT] using errCode_ne hp ho hh)
  refine Cmd.sets_of (exec_registerWrite_word ha) hq hw hp ho h4 hh (by simp [hf])
    (by rcases hacc with e | e <;> simp [hf, e]) hhook honly hcount.le ?_
  exact (State.regN_setReg_same _ _ _).trans (putBits_bitsOf_mod _ _ _ _ _)

/-- A byte or half-word write is ignored and logged with SIZE (R33). -/
theorem exec_registerWrite_narrow {req : Req} {size : Sz} {p off i : Nat} {b : Blk} {addr : BitVec 32} {value : BitVec 64}
    {s : State} (hsz : size.bytes < 4) (hq : s.Quiet) (hr : s.Reaches req p) (hp : pageInfo p = some (b, i))
    (ho : off < 0x1000) (h4 : off % 4 = 0) (ha : addr.toNat = Bus.base + (pg p + off)) :
    exec (.registerWrite req size addr value) s =
      .next ((s.logErr (ownerPage p) E.SIZE (pg p + off) req.code).answered req []) := by
  obtain ⟨hready, hbehind⟩ := Bus.ready_reg hr ho
  have hmod : (Bus.base + (pg p + off)) % 4 = 0 := by unfold Bus.base pg; omega
  have halign : (Bus.base + (pg p + off)) / 4 * 4 = Bus.base + (pg p + off) := by omega
  have hwrite (v : Nat) : Bus.writeN s req.code (Bus.base + (pg p + off)) size.bytes v =
      (.ok 0, s.logErr (ownerPage p) E.SIZE (pg p + off) req.code) := by
    unfold Bus.writeN
    rw [if_neg (by omega), if_neg (by omega), if_neg (by omega), halign, Bus.way_reg hr hp ho]
    simp only [Nat.add_sub_cancel_left]
  rw [exec_registerWrite, ha]
  unfold Bus.commandN
  simp only [hready, hbehind, hwrite, Bool.false_eq_true, if_false]
  rw [Cpu.settle_quiet]
  · rfl
  · exact State.quiet_logErr hq _ _ _ _

theorem reqCode_le (req : Req) : req.code ≤ 11 := by
  cases req with
  | core c => exact le_trans c.isLt.le (by decide)
  | dma | spi | calendar | vigil | jtag | self => decide

/-- An access that a requester other than JTAG made by itself ends with a bus error: nothing is written, 0 is read (R28). -/
theorem Bus.abort_own {s : State} {h : Held} (h11 : h.req ≤ 11) (h10 : h.req ≠ 10) :
    Bus.abort s h = { s with held := s.held.filter (fun g => decide (g ≠ h)) }.answer h.req (if h.write then [] else [0]) true := by
  unfold Bus.abort
  rw [if_neg (by omega), if_neg (by omega), if_neg (by omega)]
  unfold Bus.fail Bus.finish Bus.drop
  simp only [h10, if_false]
  rfl

/-- REGISTER_ACCESS_TIMEOUT ends the waiting access that its operands name. -/
theorem exec_registerAccessTimeout_only {req : Req} {addr : BitVec 32} {w : Bool} {h : Held} {s : State} (hm : h ∈ s.held)
    (hreq : h.req = req.code) (ha : h.addr = addr.toNat) (hb : Bus.base ≤ addr.toNat) (hw : h.write = w)
    (hu : ∀ g ∈ s.held, g.addr = addr.toNat → g.write = w → g.req = req.code ∨ g.req = Bus.who req.code → g = h) :
    exec (.registerAccessTimeout req addr w) s = .next (Bus.abort s h) := by
  rw [exec_registerAccessTimeout]
  unfold execRegisterAccessTimeout
  dsimp only
  split
  · next hnone =>
    have hno := List.find?_eq_none.1 hnone h hm
    simp [ha, hb, hw, hreq] at hno
  · next g hsome =>
    have hg := List.find?_some hsome
    simp only [Bool.and_eq_true, Bool.or_eq_true, beq_iff_eq, decide_eq_true_eq] at hg
    obtain ⟨⟨⟨hga, -⟩, hgw⟩, hgr⟩ := hg
    rw [hu g (List.mem_of_find?_eq_some hsome) hga hgw hgr]

/-- Settles O14: each clause is the lemma above about that kind of write, or about the timeout. -/
theorem registerWriteCommand : Obligations.RegisterWriteCommand := by
  unfold Obligations.RegisterWriteCommand
  constructor
  · intro req p off b i f addr value s hq hr hp ho h4 haddr hh
    have ha : addr.toNat = Bus.base + (pg p + off) := by rw [haddr, Nat.add_assoc]; rfl
    refine ⟨fun hl hb hf hacc hchk => ?_, fun hf => ?_, fun hf hrd => ?_, fun hl hc hf hacc => ?_, ?_, ?_⟩
    · exact exec_registerWrite_stores hq ⟨hr, hl⟩ hp ho h4 ha hh hb hf hacc hchk
    · exact exec_registerWrite_ignored hq hr hp ho h4 ha hh (fun _ => Bus.putBlock_reserved hf)
    · exact exec_registerWrite_ignored hq hr hp ho h4 ha hh (fun _ => Bus.putBlock_readonly hf hrd)
    · exact exec_registerWrite_ignored hq hr hp ho h4 ha hh (fun _ => Bus.putBlock_locked hl hc hf hacc)
    · exact exec_registerWrite_narrow (size := .h) (by decide) hq hr hp ho h4 ha
    · exact exec_registerWrite_narrow (size := .b) (by decide) hq hr hp ho h4 ha
  · intro req addr w h s hm hreq h10 ha hb hw hu
    rw [exec_registerAccessTimeout_only hm hreq ha hb hw hu, Bus.abort_own (hreq ▸ reqCode_le req) h10, hreq, hw]

end Sys2Proof.Machine
end

section
/-! ## Header fields and tables (what O4 and O6 to O13 rest on; spec/02 R33 to R37)

Rules about one operation each: reading a field after another was stored, after an answer and after an error log; tables cut down to
some keys, and joined. -/

namespace Sys2Proof.Machine

/-! ### Fields that do not overlap -/

/-- Two fields of one register block share no bit: other words, or other bits of one word. -/
def Fld.apart (f g : Fld) : Bool :=
  decide (g.off + 4 * g.words ≤ f.off) || decide (f.off + 4 * f.words ≤ g.off) ||
    (decide (f.off = g.off ∧ 0 < f.lo + f.w ∧ f.lo + f.w ≤ 32 ∧ 0 < g.lo + g.w ∧ g.lo + g.w ≤ 32) &&
      decide (g.lo + g.w ≤ f.lo ∨ f.lo + f.w ≤ g.lo))

/-- A stored field leaves the fields apart from it as they were. -/
theorem State.get_put_apart (s : State) (b : Nat) {f g : Fld} (v : Nat) (h : f.apart g = true) :
    (s.put b f v).get b g = s.get b g := by
  simp only [Fld.apart, Bool.or_eq_true, Bool.and_eq_true, decide_eq_true_eq] at h
  rcases h with (h | h) | ⟨⟨hoff, hf0, hf, hg0, hg⟩, hbits⟩
  · exact State.get_put_ne s b b f g v (Or.inl (by omega))
  · exact State.get_put_ne s b b f g v (Or.inr (by omega))
  · exact State.get_put_bits s b b f g v (by omega) hf hg hf0 hg0 hbits

theorem State.flag_put_apart (s : State) (b : Nat) {f g : Fld} (v : Nat) (h : f.apart g = true) :
    (s.put b f v).flag b g = s.flag b g := by
  unfold State.flag
  rw [State.get_put_apart s b v h]

/-- A one-bit field, stored and read as a truth value. -/
theorem State.flag_putB (s : State) (b : Nat) {f : Fld} (v : Bool) (hf : f.w = 1) : (s.putB b f v).flag b f = v := by
  obtain ⟨o, lo, w⟩ := f
  obtain rfl : w = 1 := hf
  exact State.flag_putB_same s b o lo v

theorem State.flag_putB_apart (s : State) (b : Nat) {f g : Fld} (v : Bool) (h : f.apart g = true) :
    (s.putB b f v).flag b g = s.flag b g := State.flag_put_apart s b (b2n v) h

/-! ### What an answer and a store leave -/

@[simp] theorem State.get_answered_req (s : State) (req : Req) (l : List Word) (b : Nat) (f : Fld) :
    (s.answered req l).get b f = s.get b f := State.get_answered s req.code l false b f

@[simp] theorem State.flag_answered (s : State) (req : Req) (l : List Word) (b : Nat) (f : Fld) :
    (s.answered req l).flag b f = s.flag b f := by
  simp [State.flag]

@[simp] theorem State.en_answered (s : State) (req : Req) (l : List Word) (p : Nat) : (s.answered req l).en p = s.en p :=
  State.flag_answered s req l (pg p) H.EN

@[simp] theorem State.locked_answered (s : State) (req : Req) (l : List Word) (p : Nat) :
    (s.answered req l).locked p = s.locked p := State.flag_answered s req l (pg p) H.LOCKED

/-- A field of one word only depends on that word. -/
theorem State.get_of_reg {s t : State} {b : Nat} {f : Fld} (hf : f.words = 1) (h : t.reg (b + f.off) = s.reg (b + f.off)) :
    t.get b f = s.get b f := by
  rw [State.get_eq, State.get_eq, hf]
  simp [State.wordsAt, State.regN, h]

/-- A field of one word reads 0 where the word is 0. -/
theorem State.get_eq_zero {s : State} {b : Nat} {f : Fld} (hf : f.words = 1) (h : s.reg (b + f.off) = 0) : s.get b f = 0 := by
  rw [State.get_eq, hf]
  simp [State.wordsAt, State.regN, h, bitsOf]

/-- One more field stored within the words `ws`. -/
theorem State.RegsOnly.put_then {s t : State} {ws : List Nat} (h : s.RegsOnly t ws) (b : Nat) (f : Fld) (v : Nat)
    (hf : f.words = 1) (hw : b + f.off ∈ ws) : s.RegsOnly (t.put b f v) ws :=
  h.trans ((State.RegsOnly.put t b f v hf).mono (by simpa using hw))

/-- An error log changes IRQ_RAW, ERR_CODE and ERR_ADDR of its page. -/
theorem State.RegsOnly.logErr (s : State) (p code a req : Nat) :
    s.RegsOnly (s.logErr p code a req) [pg p + 0x014, pg p + 0x024, pg p + 0x028] := by
  have hcount := (State.RegsOnly.refl s [pg p + 0x014, pg p + 0x024, pg p + 0x028]).put_then (pg p) H.COUNT
    (satInc 8 (s.get (pg p) H.COUNT)) rfl (by simp [H.COUNT])
  unfold State.logErr
  dsimp only
  split
  · exact ((hcount.put_then _ H.CODE _ rfl (by simp [H.CODE])).put_then _ H.ERR_ADDR _ rfl (by simp [H.ERR_ADDR])).put_then
      _ H.IRQ_RAW _ rfl (by simp [H.IRQ_RAW])
  · exact hcount

/-- An error log stores its code where CODE was 0 (R37). -/
theorem State.get_code_logErr (s : State) (p code a req : Nat) (hc : code < 2 ^ 8) :
    (s.logErr p code a req).get (pg p) H.CODE = if s.get (pg p) H.CODE = 0 then code else s.get (pg p) H.CODE := by
  unfold State.logErr
  dsimp only
  split
  · unfold State.raise
    rw [State.get_put_apart _ _ _ (by decide), State.get_put_apart _ _ _ (by decide), State.get_put_same]
    exact Nat.mod_eq_of_lt hc
  · exact State.get_put_apart _ _ _ (by decide)

theorem State.get_count_le_satInc (s : State) (b : Nat) : s.get b H.COUNT ≤ satInc 8 (s.get b H.COUNT) := by
  have hlt : s.get b H.COUNT < 2 ^ 8 := State.get_lt s b H.COUNT
  unfold satInc
  omega

/-! ### Tables cut down to some keys, and joined -/

variable {α : Type}

theorem Tab.get_default_congr {d e : Nat → α} {k : Nat} (h : d k = e k) (t : List (Nat × α)) :
    Tab.get d t k = Tab.get e t k := by
  induction t with
  | nil => exact h
  | cons x t ih => simp only [Tab.get, ih]

/-- A joined table reads its second part where the first does not list the key. -/
theorem Tab.get_append (d : Nat → α) (t u : List (Nat × α)) (k : Nat) :
    Tab.get d (t ++ u) k = Tab.get (fun j => Tab.get d u j) t k := by
  induction t with
  | nil => rfl
  | cons x t ih => simp only [List.cons_append, Tab.get, ih]

/-- A table cut down to the keys of `q` has the default elsewhere. -/
theorem Tab.get_filter (d : Nat → α) (t : List (Nat × α)) (q : Nat → Bool) (k : Nat) :
    Tab.get d (t.filter (fun e => q e.1)) k = if q k then Tab.get d t k else d k := by
  induction t with
  | nil => simp [Tab.get]
  | cons x t ih =>
    obtain ⟨a, v⟩ := x
    cases hq : q a <;> by_cases ha : a = k
    · subst ha
      simp [hq, ih]
    · simp [Tab.get, hq, ha, ih]
    · subst ha
      simp [Tab.get, hq]
    · simp [Tab.get, hq, ha, ih]

/-- A copied range of keys reads as in the source, every other key as before (R38). -/
theorem Tab.get_copyRange (d : Nat → α) (lo hi : Nat) (src dst : List (Nat × α)) (k : Nat) :
    Tab.get d (Tab.copyRange lo hi src dst) k = if lo ≤ k ∧ k < hi then Tab.get d src k else Tab.get d dst k := by
  have hbelow := Tab.get_filter (α := α) (q := fun n => decide (n < lo)) (k := k) (t := dst)
  have hrange := Tab.get_filter (α := α) (q := fun n => decide (lo ≤ n ∧ n < hi)) (k := k) (t := src)
  have habove := Tab.get_filter (α := α) (q := fun n => decide (lo ≤ n ∧ hi ≤ n)) (k := k) (t := dst)
  unfold Tab.copyRange
  rw [Tab.get_append, Tab.get_append, hbelow]
  simp only [hrange, habove, decide_eq_true_eq]
  by_cases h1 : k < lo
  · rw [if_pos h1, if_neg (by omega)]
    refine Tab.get_default_congr ?_ dst
    rw [hrange, habove]
    simp [show ¬ lo ≤ k by omega]
  · by_cases h2 : k < hi
    · rw [if_neg h1, if_pos (by omega), if_pos (by omega)]
      refine Tab.get_default_congr ?_ src
      rw [habove]
      simp [show ¬ hi ≤ k by omega]
    · rw [if_neg h1, if_neg (by omega), if_pos (by omega), if_neg (by omega)]

end Sys2Proof.Machine
end

section
/-! ## Header accesses, the reset state and unlisted pages (O4, O6, O7; spec/02 R31, R32, R34, R37)

An access to a header word is followed once from the command to the header's effect; an access to an unlisted page, to its bus error. -/

namespace Sys2Proof.Machine

/-! ### Accesses to a header word -/

/-- A page with a header of its own is its own owner (R31). -/
theorem ownerPage_of_hasHead {p : Fin 288} (h : hasHead p.val = true) : ownerPage p.val = p.val := by
  have hlisted : ∀ q : Fin 288, hasHead q.val = true → ownerPage q.val = q.val := by decide +kernel
  exact hlisted p h

theorem hasHead_iff {p : Nat} : hasHead p = true ↔ ∃ b i, pageInfo p = some (b, i) ∧ hasHeader b = true := by
  unfold hasHead
  split
  · next b i h => simp [h]
  · next h => simp [h]

/-- A write of a header word that counts at most one error is the header's own effect (R37). -/
theorem Bus.put_header {s : State} {req p off v i : Nat} {b : Blk} (hb : hasHeader b = true) (ho : off < 0x040)
    (hc : (Bus.putHeader s req p off v).get (pg (ownerPage p)) H.COUNT ≤ satInc 8 (s.get (pg (ownerPage p)) H.COUNT)) :
    Bus.put s req p b i off v = Bus.putHeader s req p off v := by
  unfold Bus.put
  simp only [hb, ho, decide_true, Bool.and_self, if_true]
  rw [if_neg (fun h => absurd h.1 (Nat.not_lt.2 hc))]

/-- The write command of a header word, from the command to the header's effect `t`. -/
theorem Cmd.write_header {s t : State} {req : Req} {p : Fin 288} {off v : Nat} (hr : s.Reaches req p.val)
    (hh : hasHead p.val = true) (ho : off < 0x040) (h4 : off % 4 = 0) (ht : Bus.putHeader s req.code p.val off (v % 2 ^ 32) = t)
    (hq : t.Quiet) (hc : t.get (pg p.val) H.COUNT ≤ satInc 8 (s.get (pg p.val) H.COUNT)) :
    Cmd.write s req (pg p.val + off) v = .next (t.answered req []) := by
  obtain ⟨b, i, hp, hb⟩ := hasHead_iff.1 hh
  subst ht
  have hput : Bus.put s req.code p.val b i off (v % 2 ^ 32) = Bus.putHeader s req.code p.val off (v % 2 ^ 32) :=
    Bus.put_header hb ho (by rw [ownerPage_of_hasHead hh]; exact hc)
  rw [Cmd.write_reg hr hp (by omega) h4 (by rw [hput]; exact hq), hput]

/-- A command that writes a header word sets what the header's effect `t` has, where `t` changes the words `ws` only. -/
theorem Cmd.sets_headerWord {ins : Instr} {s t : State} {req : Req} {p : Fin 288} {off v : Nat} {ws : List Nat}
    {post : State → Prop} (hi : exec ins s = Cmd.write s req (pg p.val + off) v) (hq : s.Quiet) (hr : s.Reaches req p.val)
    (hh : hasHead p.val = true) (ho : off < 0x040) (h4 : off % 4 = 0) (ht : Bus.putHeader s req.code p.val off (v % 2 ^ 32) = t)
    (hws : s.RegsOnly t ws) (hc : t.get (pg p.val) H.COUNT ≤ satInc 8 (s.get (pg p.val) H.COUNT))
    (hpost : post (t.answered req [])) : Cmd.Sets ins s ws post :=
  ⟨t.answered req [], hi.trans (Cmd.write_header hr hh ho h4 ht (hws.quiet hq) hc), hpost,
    hws.trans ((State.RegsOnly.answered t req []).mono (by simp))⟩

/-- Where the word of COUNT is not among those that may change, no error is counted. -/
theorem State.RegsOnly.count_le {s t : State} {ws : List Nat} (h : s.RegsOnly t ws) {b : Nat} (hn : b + 0x024 ∉ ws) :
    t.get b H.COUNT ≤ satInc 8 (s.get b H.COUNT) := by
  rw [h.get b H.COUNT (fun i hi => by
    obtain rfl : i = 0 := Nat.lt_one_iff.1 hi
    exact hn)]
  exact State.get_count_le_satInc s b

/-! ### The state after reset (R34) -/

/-- Right after reset every register holds its reset word, but for the two that show core 0 as started. -/
theorem State.reg_reset {a : Nat} (h1 : a ≠ 0x0C0014) (h2 : a ≠ 0x0C0044) : State.reset.reg a = resetWord a := by
  simp [State.reg, State.reset, Tab.get, h1.symm, h2.symm]

/-- PAGE_CTL of a page with a header resets to its EN bit. -/
theorem resetWord_pageCtl {p : Nat} (h : hasHead p = true) : resetWord (pg p + 0x00C) = BitVec.ofNat 32 (b2n (enReset p)) := by
  obtain ⟨b, i, hp, hb⟩ := hasHead_iff.1 h
  have hpage : (pg p + 0x00C) / 0x1000 = p := by unfold pg; omega
  have hoff : (pg p + 0x00C) % 0x1000 = 0x00C := by unfold pg; omega
  simp [resetWord, resetNat, hpage, hoff, hp, hb, headerReset]

theorem State.en_reset {p : Nat} (h : hasHead p = true) : State.reset.en p = enReset p := by
  have hword : State.reset.wordsAt (pg p + 0x00C) 1 = b2n (enReset p) := by
    have h1 : pg p + 0x00C ≠ 0x0C0014 := by unfold pg; omega
    have h2 : pg p + 0x00C ≠ 0x0C0044 := by unfold pg; omega
    simp only [State.wordsAt, State.regN, State.reg_reset h1 h2, resetWord_pageCtl h]
    cases enReset p <;> rfl
  unfold State.en State.flag
  rw [State.get_eq]
  change (bitsOf (State.reset.wordsAt (pg p + 0x00C) 1) 0 1 != 0) = _
  rw [hword]
  cases enReset p <;> rfl

/-- Settles O6: PAGE_CTL resets to the EN bit of the page table, which is R34's list. -/
theorem pagesEnabledAtReset : Obligations.PagesEnabledAtReset := by
  unfold Obligations.PagesEnabledAtReset
  intro p h
  rw [State.en_reset h]
  simp [enReset, or_assoc]

/-- No core waits for a single step after reset. -/
theorem State.quiet_reset : State.reset.Quiet := by decide +kernel

/-- Settles O4: the queue, the tables and the lists of the reset state, read off; EN by R34's list. -/
theorem resetState : Obligations.ResetState := by
  unfold Obligations.ResetState
  refine ⟨rfl, by decide +kernel, by decide +kernel, by decide +kernel, ?_, ?_, ?_, State.quiet_reset, by decide +kernel,
    by decide +kernel⟩
  · exact State.en_reset (by decide)
  · exact State.en_reset (by decide)
  · exact State.en_reset (by decide)

/-! ### Unlisted pages (R32) -/

/-- An empty write buffer drains without effect. -/
theorem State.drainAll_empty {s : State} {c : Nat} (h : s.wb c = []) : s.drainAll c = s := by
  unfold State.drainAll
  rw [h]
  rfl

/-- An access to an unlisted page waits behind no other. -/
theorem Bus.behind_unlisted {a : Nat} (h : pageInfo ((a - Bus.base) / 0x1000) = none) (l : List Held) :
    Bus.behind l a = false := by
  simp [Bus.behind, h]

theorem Bus.ready_unlisted {s : State} {req a : Nat} (hw : req < 6 → s.wb req = [])
    (h : pageInfo ((a - Bus.base) / 0x1000) = none) : Bus.ready s req a = s := by
  unfold Bus.ready
  split
  · next hc => simp [State.drainAll_empty (hw hc), Bus.behind_unlisted h]
  · simp [Bus.behind_unlisted h]

/-- An access to an unlisted page is routed to a bus error. -/
theorem Bus.way_unlisted {a : Nat} (h : pageInfo ((a - Bus.base) / 0x1000) = none) (s : State) (req : Nat) :
    Bus.way s req a = .err := by
  unfold Bus.way
  simp [h]

theorem Bus.read_unlisted {a : Nat} (h : pageInfo ((a - Bus.base) / 0x1000) = none) (s : State) (req : Nat) :
    Bus.read s req a = (.err, s) := by
  unfold Bus.read
  simp [Bus.way_unlisted h]

theorem Bus.write_unlisted {a : Nat} (h : pageInfo ((a - Bus.base) / 0x1000) = none) (s : State) (req v : Nat) :
    Bus.write s req a v = (.err, s) := by
  unfold Bus.write
  simp [Bus.way_unlisted h]

/-- The word that holds an address lies in the page of the address. -/
theorem Bus.page_of_word {a : Nat} : (a / 4 * 4 - Bus.base) / 0x1000 = (a - Bus.base) / 0x1000 := by
  unfold Bus.base
  omega

/-- A write of any size to an unlisted page is a bus error, at its first word (R32). -/
theorem Bus.writeN_unlisted {a : Nat} (h : pageInfo ((a - Bus.base) / 0x1000) = none) (s : State) (req n v : Nat) :
    Bus.writeN s req a n v = (.err, s) := by
  have hword : Bus.way s req (a / 4 * 4) = .err := Bus.way_unlisted (by rw [Bus.page_of_word]; exact h) s req
  unfold Bus.writeN
  simp only [Bus.write_unlisted h, hword, ite_self]

/-- A read of any size from an unlisted page is a bus error, at its first word (R32). -/
theorem Bus.readN_unlisted {a : Nat} (h : pageInfo ((a - Bus.base) / 0x1000) = none) (s : State) (req n : Nat) :
    Bus.readN s req a n = (.err, s) := by
  have hword : Bus.read s req (a / 4 * 4) = (.err, s) := Bus.read_unlisted (by rw [Bus.page_of_word]; exact h) s req
  unfold Bus.readN
  simp only [Bus.read_unlisted h, hword, ite_self]

/-- Settles O7: neither a drain nor an older access comes first, and the route of the access is a bus error. -/
theorem unlistedPageIsBusError : Obligations.UnlistedPageIsBusError := by
  unfold Obligations.UnlistedPageIsBusError
  intro req size addr value s hq hw hlo _ hp
  have hbase : Bus.base + (addr.toNat - 0x40000000) = addr.toNat := by unfold Bus.base; omega
  refine ⟨?_, fun _ => ?_, ?_, ?_⟩
  · rw [exec_registerWrite]
    unfold Bus.commandN
    simp only [Bus.ready_unlisted hw hp, Bus.behind_unlisted hp, Bus.writeN_unlisted hp, Bool.false_eq_true, if_false]
    rw [Cpu.settle_quiet]
    exact hq
  · unfold Bus.fetch
    simp only [hbase, Bus.ready_unlisted hw hp, Bus.behind_unlisted hp, Bus.read_unlisted hp, Bool.false_eq_true, if_false]
  · rw [Bus.readN_unlisted hp]
  · rw [Bus.readN_unlisted hp]

end Sys2Proof.Machine
end

section
/-! ## Locks, events, the error log and the router's levels (O10, O11; spec/02 R35 to R37, R41, R47, spec/18 R428)

Each command writes one word: what that word's effect is comes first, then the obligation for every requester and page. -/

namespace Sys2Proof.Machine

/-! ### Locks (R36) -/

theorem Bus.putHeader_lockKey (s : State) (req p v : Nat) : Bus.putHeader s req p 0x034 v = Bus.lockKey s req p v := by
  simp [Bus.putHeader]

theorem Bus.lockKey_lock (s : State) (req p : Nat) : Bus.lockKey s req p 0x4C4B0001 = s.put (pg p) H.LOCKED 1 := by
  simp [Bus.lockKey]

theorem Bus.lockKey_sticky (s : State) (req p : Nat) :
    Bus.lockKey s req p 0x4C4B0002 = (s.put (pg p) H.LOCKED 1).put (pg p) H.STICKY 1 := by
  simp [Bus.lockKey]

theorem Bus.lockKey_unlock (s : State) (req p : Nat) :
    Bus.lockKey s req p 0x4C4B0000 = if s.flag (pg p) H.STICKY then s else s.put (pg p) H.LOCKED 0 := by
  simp [Bus.lockKey]

/-- A lock command changes words `ws` of LOCK alone, as the key it writes says. -/
theorem Cmd.sets_lockKey {ins : Instr} {s t : State} {req : Req} {p : Fin 288} {v : Nat} {ws : List Nat} {post : State → Prop}
    (hi : exec ins s = Cmd.write s req (pg p.val + 0x034) v) (hq : s.Quiet) (hr : s.Reaches req p.val)
    (hh : hasHead p.val = true) (ht : Bus.lockKey s req.code p.val (v % 2 ^ 32) = t) (hws : s.RegsOnly t ws)
    (hn : pg p.val + 0x024 ∉ ws) (hpost : post (t.answered req [])) : Cmd.Sets ins s ws post :=
  Cmd.sets_headerWord hi hq hr hh (by decide) (by decide) ((Bus.putHeader_lockKey _ _ _ _).trans ht) hws (hws.count_le hn) hpost

/-- Settles O10: each key's effect on LOCKED and STICKY, carried from the LOCK register to the command. -/
theorem lockCommands : Obligations.LockCommands := by
  unfold Obligations.LockCommands
  intro req p s hq hr hh
  have hn : pg p.val + 0x024 ∉ [pg p.val + 0x034] := by simp
  have hlock (v : Nat) : s.RegsOnly (s.put (pg p.val) H.LOCKED v) [pg p.val + 0x034] :=
    State.RegsOnly.put s (pg p.val) H.LOCKED v rfl
  refine ⟨?_, ?_, fun hs => ?_, fun hs => ?_⟩
  · refine Cmd.sets_lockKey rfl hq hr hh (Bus.lockKey_lock s _ _) (hlock 1) hn ⟨?_, ?_⟩
    · simp [State.locked, State.flag, H.LOCKED]
    · rw [State.get_answered_req, State.get_put_apart _ _ _ (by decide)]
  · refine Cmd.sets_lockKey rfl hq hr hh (Bus.lockKey_sticky s _ _) ((hlock 1).put_then _ _ 1 rfl (by simp [H.STICKY])) hn
      ⟨?_, ?_⟩
    · rw [State.locked_answered, State.locked, State.flag_put_apart _ _ _ (by decide)]
      simp [H.LOCKED]
    · simp [H.STICKY]
  · refine Cmd.sets_lockKey rfl hq hr hh ((Bus.lockKey_unlock s _ _).trans (by rw [hs]; rfl)) (hlock 0) hn ?_
    simp [State.locked, H.LOCKED]
  · refine Cmd.sets_lockKey rfl hq hr hh ((Bus.lockKey_unlock s _ _).trans (by rw [hs]; rfl)) (State.RegsOnly.refl s [])
      (by simp) ?_
    simp

/-! ### Events (R35, R428) -/

/-- The level interrupt of GPIO pin `n` asks for its bit (R428). -/
def Gpio.levelHolds (s : State) (n : Nat) : Bool :=
  s.get (Gpio.b + 4 * n) Gpio.PIN_CFG_IRQ_MODE == 4 && Gpio.level s n ||
    s.get (Gpio.b + 4 * n) Gpio.PIN_CFG_IRQ_MODE == 5 && !Gpio.level s n

/-- It rests on registers other than IRQ_RAW. -/
theorem Gpio.levelHolds_congr {s t : State} (h : s.RegsOnly t [pg Gpio.p + 0x014]) (n : Nat) :
    Gpio.levelHolds t n = Gpio.levelHolds s n := by
  have hmode : t.get (Gpio.b + 4 * n) Gpio.PIN_CFG_IRQ_MODE = s.get (Gpio.b + 4 * n) Gpio.PIN_CFG_IRQ_MODE :=
    h.get _ _ (fun i _ => by simp only [Gpio.b, Gpio.p, Gpio.PIN_CFG_IRQ_MODE, List.mem_singleton]; omega)
  have hin : t.get Gpio.b Gpio.GPIO_IN_IN = s.get Gpio.b Gpio.GPIO_IN_IN :=
    h.get _ _ (fun i _ => by simp only [Gpio.b, Gpio.p, Gpio.GPIO_IN_IN, List.mem_singleton]; omega)
  unfold Gpio.levelHolds Gpio.level
  rw [hmode, hin]

/-- Bits of IRQ_RAW after an event that may be raised. -/
theorem State.testBit_raiseIf (s : State) (c : Bool) (p k : Nat) {n : Nat} (hn : n < 32) :
    ((s.raiseIf c p k).get (pg p) H.IRQ_RAW).testBit n = ((s.get (pg p) H.IRQ_RAW).testBit n || c && decide (n = k)) := by
  cases c with
  | false => simp [State.raiseIf]
  | true =>
    simp only [State.raiseIf, if_true, State.get_raise, Nat.testBit_mod_two_pow, Nat.testBit_or, Nat.testBit_two_pow, hn]
    simp [eq_comm]

theorem Gpio.levels_regsOnly (s : State) : s.RegsOnly (Gpio.levels s) [pg Gpio.p + 0x014] :=
  State.RegsOnly.each _ _ _ (fun t _ => State.RegsOnly.raiseIf t _ _ _) s

/-- The level interrupts of the first `m` pins set their bits, the other bits stay. -/
theorem Gpio.testBit_levelsBelow (s : State) {n : Nat} (hn : n < 32) (m : Nat) :
    ((s.each (List.range m) (fun t k => t.raiseIf (Gpio.levelHolds t k) Gpio.p k)).get (pg Gpio.p) H.IRQ_RAW).testBit n =
      ((s.get (pg Gpio.p) H.IRQ_RAW).testBit n || decide (n < m) && Gpio.levelHolds s n) := by
  induction m with
  | zero => simp [State.each]
  | succ m ih =>
    have hframe := State.RegsOnly.each (List.range m) (fun t k => t.raiseIf (Gpio.levelHolds t k) Gpio.p k) _
      (fun t _ => State.RegsOnly.raiseIf t _ _ _) s
    have hlast : s.each (List.range (m + 1)) (fun t k => t.raiseIf (Gpio.levelHolds t k) Gpio.p k) =
        (s.each (List.range m) (fun t k => t.raiseIf (Gpio.levelHolds t k) Gpio.p k)).raiseIf (Gpio.levelHolds s m) Gpio.p m := by
      rw [← Gpio.levelHolds_congr hframe m]
      simp [State.each, List.range_succ]
    rw [hlast, State.testBit_raiseIf _ _ _ _ hn, ih]
    rcases Nat.lt_trichotomy n m with h | rfl | h
    · simp [h, Nat.lt_succ_of_lt h, h.ne]
    · simp
    · simp [h.ne', Nat.not_lt.2 h.le, Nat.not_lt.2 (Nat.succ_le_of_lt h)]

theorem Gpio.testBit_levels (s : State) {n : Nat} (hn : n < 32) :
    ((Gpio.levels s).get (pg Gpio.p) H.IRQ_RAW).testBit n =
      ((s.get (pg Gpio.p) H.IRQ_RAW).testBit n || decide (n < 16) && Gpio.levelHolds s n) :=
  Gpio.testBit_levelsBelow s hn 16

/-- A number with the bits of a mask cleared. -/
theorem testBit_clear {x v n : Nat} (hn : n < 32) :
    (x &&& (2 ^ 32 - 1 - v % 2 ^ 32)).testBit n = (x.testBit n && !v.testBit n) := by
  have h : (2 ^ 32 - 1 - v % 2 ^ 32).testBit n = !v.testBit n := by
    rw [Nat.sub_sub, Nat.add_comm 1, Nat.testBit_two_pow_sub_succ (Nat.mod_lt _ (by decide)), Nat.testBit_mod_two_pow]
    simp [hn]
  rw [Nat.testBit_and, h]

/-- What IRQ_CLR does to the header (R35). -/
theorem Bus.putHeader_irqClr (s : State) (req p v : Nat) :
    Bus.putHeader s req p 0x020 v =
      (if p = Gpio.p then Gpio.levels (s.put (pg p) H.IRQ_RAW (s.get (pg p) H.IRQ_RAW &&& (2 ^ 32 - 1 - v % 2 ^ 32)))
       else s.put (pg p) H.IRQ_RAW (s.get (pg p) H.IRQ_RAW &&& (2 ^ 32 - 1 - v % 2 ^ 32))) := by
  simp [Bus.putHeader]

theorem Bus.putHeader_irqClr_regsOnly (s : State) (req p v : Nat) :
    s.RegsOnly (Bus.putHeader s req p 0x020 v) [pg p + 0x014] := by
  have hclr := State.RegsOnly.put s (pg p) H.IRQ_RAW (s.get (pg p) H.IRQ_RAW &&& (2 ^ 32 - 1 - v % 2 ^ 32)) rfl
  rw [Bus.putHeader_irqClr]
  split
  · next h => exact hclr.trans (h ▸ Gpio.levels_regsOnly _)
  · exact hclr

/-- IRQ_CLR clears the bits of its mask; a level interrupt whose level holds sets its bit again (R35, R428). -/
theorem Bus.testBit_irqClr (s : State) (req p v : Nat) {n : Nat} (hn : n < 32) :
    ((Bus.putHeader s req p 0x020 v).get (pg p) H.IRQ_RAW).testBit n =
      ((s.get (pg p) H.IRQ_RAW).testBit n && !v.testBit n || decide (p = Gpio.p ∧ n < 16) && Gpio.levelHolds s n) := by
  have hbit (x : Nat) : ((s.put (pg p) H.IRQ_RAW x).get (pg p) H.IRQ_RAW).testBit n = x.testBit n := by
    rw [State.get_put_same, Nat.testBit_mod_two_pow]
    simp [H.IRQ_RAW, hn]
  rw [Bus.putHeader_irqClr]
  split
  · next h =>
    subst h
    rw [Gpio.testBit_levels _ hn, hbit, testBit_clear hn, Gpio.levelHolds_congr (State.RegsOnly.put s _ _ _ rfl)]
    simp
  · next h =>
    rw [hbit, testBit_clear hn]
    simp [h]

/-! ### The error log (R37, R41) -/

theorem Bus.putHeader_errClear (s : State) (req p : Nat) :
    Bus.putHeader s req p 0x024 (2 ^ 31) = (s.setReg (pg p + 0x024) 0).setReg (pg p + 0x028) 0 := by
  have hbit : Nat.testBit (2 ^ 31) 31 = true := by decide
  unfold Bus.putHeader
  simp only [hbit, if_true]
  rfl

theorem Bus.putHeader_errClear_regsOnly (s : State) (req p : Nat) :
    s.RegsOnly (Bus.putHeader s req p 0x024 (2 ^ 31)) [pg p + 0x024, pg p + 0x028] := by
  rw [Bus.putHeader_errClear]
  exact ((State.RegsOnly.setReg s _ _).mono (by simp)).trans ((State.RegsOnly.setReg _ _ _).mono (by simp))

/-- ERR_CLEAR leaves 0 in both words of the log (R37). -/
theorem Bus.reg_errClear (s : State) (req p : Nat) :
    (Bus.putHeader s req p 0x024 (2 ^ 31)).reg (pg p + 0x024) = 0 ∧
      (Bus.putHeader s req p 0x024 (2 ^ 31)).reg (pg p + 0x028) = 0 := by
  rw [Bus.putHeader_errClear]
  constructor
  · rw [State.reg_setReg_ne _ _ (by omega), State.reg_setReg_same]
    rfl
  · rw [State.reg_setReg_same]
    rfl

/-- A write of COMMIT at an unlocked page with a shadow arms the page (R38). -/
theorem Bus.putHeader_commit {s : State} {p : Nat} (hl : s.locked p = false) (hf : (Page.feat p).testBit 0 = true) (req v : Nat) :
    Bus.putHeader s req p 0x02C v = s.armPage req p v := by
  simp [Bus.putHeader, hl, hf]

/-- GEN 0 is rejected (R41). -/
theorem State.armPage_zero (s : State) (req p : Nat) :
    s.armPage req p 0 = s.logErr p E.RANGE_REJECTED (pg p + 0x02C) req := by
  simp [State.armPage, State.arm]

/-! ### The router's software levels (R47) -/

theorem exec_swiSet (req : Req) (mask : BitVec 8) (s : State) :
    exec (.swiSet req mask) s = Cmd.write s req (pg 0x001 + 0x080) mask.toNat := rfl

theorem exec_swiClr (req : Req) (mask : BitVec 8) (s : State) :
    exec (.swiClr req mask) s = Cmd.write s req (pg 0x001 + 0x084) mask.toNat := rfl

/-- A write of SWI_SET or SWI_CLR has the router's own effect `t`, which leaves the registers and the cores. -/
theorem Cmd.write_swi {s t : State} {req : Req} {off v : Nat} (hq : s.Quiet) (hw : s.Writable req 0x001)
    (ho : off = 0x080 ∨ off = 0x084) (ht : Irq.write s req.code off (v % 2 ^ 32) (Bus.store req.code 0x001 (pg 0x001 + off)
      (Bus.fields .irq 0 off) (v % 2 ^ 32)) = t) (hregs : t.regs = s.regs) (hcores : t.cores = s.cores) :
    Cmd.write s req (pg 0x001 + off) v = .next (t.answered req []) := by
  obtain ⟨hlt, h4, hh, h1, h2⟩ : off < 0x1000 ∧ off % 4 = 0 ∧ (hasHeader .irq && decide (off < 0x040)) = false ∧
      Bus.fields .irq 0 off ≠ [] ∧ (Bus.fields .irq 0 off).all (fun f => f.acc == .rd) = false := by
    rcases ho with rfl | rfl <;> decide
  have hhook : Bus.putBlock s req.code 0x001 .irq 0 off (v % 2 ^ 32) = t := by
    rw [Bus.putBlock_hook hw.2 h1 h2]
    exact ht
  have hput : Bus.put s req.code 0x001 .irq 0 off (v % 2 ^ 32) = t := by
    rw [Bus.put_eq]
    · rw [hh, hhook]; rfl
    · rw [hh, hhook]
      exact (State.get_congr hregs _ _).le
  rw [Cmd.write_reg hw.1 rfl hlt h4, hput]
  rw [hput]
  intro c
  unfold State.core
  rw [hcores]
  exact hq c

theorem swiMask_eq (mask : BitVec 8) : BitVec.ofNat 8 (mask.toNat % 2 ^ 32) = mask := by
  apply BitVec.eq_of_toNat_eq
  rw [BitVec.toNat_ofNat]
  have := mask.isLt
  omega

/-- Settles O11: the header's effects of IRQ_CLR, ERR_CLEAR and a rejected COMMIT, and the router's of SWI_SET and SWI_CLR. -/
theorem eventAndErrorClears : Obligations.EventAndErrorClears := by
  unfold Obligations.EventAndErrorClears
  constructor
  · intro req p mask s hq hr hh
    refine ⟨?_, ?_, fun hl hf => ?_⟩
    · have hframe := Bus.putHeader_irqClr_regsOnly s req.code p.val (mask.toNat % 2 ^ 32)
      refine Cmd.sets_headerWord rfl hq hr hh (by decide) (by decide) rfl hframe (hframe.count_le (by simp)) fun n hn => ?_
      rw [State.get_answered_req, Bus.testBit_irqClr _ _ _ _ hn, Nat.mod_eq_of_lt mask.isLt]
      rfl
    · obtain ⟨hcode, haddr⟩ := Bus.reg_errClear s req.code p.val
      have hcount : (Bus.putHeader s req.code p.val 0x024 (2 ^ 31)).get (pg p.val) H.COUNT = 0 := State.get_eq_zero rfl hcode
      refine Cmd.sets_headerWord (v := 2 ^ 31) rfl hq hr hh (by decide) (by decide) rfl (Bus.putHeader_errClear_regsOnly s _ _)
        (hcount.trans_le (Nat.zero_le _)) ?_
      simp only [State.get_answered_req]
      exact ⟨State.get_eq_zero rfl hcode, hcount, State.get_eq_zero rfl haddr⟩
    · have hlog : Bus.putHeader s req.code p.val 0x02C 0 = s.logErr p.val E.RANGE_REJECTED (pg p.val + 0x02C) req.code := by
        rw [Bus.putHeader_commit hl hf, State.armPage_zero]
      have hcount := State.get_count_logErr s p.val E.RANGE_REJECTED (pg p.val + 0x02C) req.code
      refine Cmd.sets_headerWord (p := p) (off := 0x02C) rfl hq hr hh (by decide) (by decide) hlog
        (State.RegsOnly.logErr s p.val _ _ _) hcount.le ?_
      simp only [State.get_answered_req]
      exact ⟨hcount, State.get_code_logErr s p.val E.RANGE_REJECTED _ _ (by decide)⟩
  · intro req mask s hq hw
    constructor
    · rw [exec_swiSet]
      refine Cmd.write_swi hq hw (Or.inl rfl) ?_ rfl rfl
      rw [Irq.write, if_pos rfl, swiMask_eq]
    · rw [exec_swiClr]
      refine Cmd.write_swi hq hw (Or.inr rfl) ?_ rfl rfl
      rw [Irq.write, if_neg (by decide), if_pos rfl, swiMask_eq]

end Sys2Proof.Machine
end

section
/-! ## COMMIT and hand-over (O8, O9; spec/02 R38 to R42)

Arming a page and handing its shadow over, each described field by field; the commands reach these two operations. -/

namespace Sys2Proof.Machine

/-! ### Arming a page's COMMIT (R38, R40) -/

/-- A list without a COMMIT of the register holds none for it. -/
theorem State.armedAt_eq_none {s : State} {key : Nat} (h : ∀ x ∈ s.armed, x.key ≠ key) : s.armedAt key = none := by
  unfold State.armedAt
  rw [List.find?_eq_none]
  exact fun x hx => by simpa using h x hx

/-- A nonzero generation takes the place of what was pending at the page (R40). -/
theorem State.armPage_nonzero {s : State} {req p gen : Nat} (h : gen % 2 ^ 16 ≠ 0) :
    s.armPage req p gen =
      { s.put (pg p + 0x02C) ⟨0, 0, 16⟩ gen with
        armed := ⟨pg p + 0x02C, gen % 2 ^ 16, req, s.now⟩ :: s.armed.filter (fun x => x.key != pg p + 0x02C) }.put
          (pg p) H.COMMIT_PEND 1 := by
  unfold State.armPage State.arm
  simp only [h, if_false, State.put_armed]
  rfl

theorem State.armPage_armed {s : State} {req p gen : Nat} (h : gen % 2 ^ 16 ≠ 0) :
    (s.armPage req p gen).armed =
      ⟨pg p + 0x02C, gen % 2 ^ 16, req, s.now⟩ :: s.armed.filter (fun x => x.key != pg p + 0x02C) := by
  rw [State.armPage_nonzero h, State.put_armed]

/-- Arming changes COMMIT and PAGE_STAT of the page, and the list of pending COMMITs. -/
theorem State.armPage_only {s : State} {req p gen : Nat} (h : gen % 2 ^ 16 ≠ 0) :
    s.armPage req p gen = { s with regs := (s.armPage req p gen).regs, armed := (s.armPage req p gen).armed } := by
  rw [State.armPage_nonzero h, State.put_only, State.put_only s]

theorem State.armPage_reg {s : State} {req p gen a : Nat} (h : gen % 2 ^ 16 ≠ 0) (h1 : a ≠ pg p + 0x02C)
    (h2 : a ≠ pg p + 0x010) : (s.armPage req p gen).reg a = s.reg a := by
  rw [State.armPage_nonzero h, (State.RegsOnly.put _ _ H.COMMIT_PEND 1 rfl).2 a (by simpa [H.COMMIT_PEND] using h2)]
  exact (State.RegsOnly.put s (pg p + 0x02C) ⟨0, 0, 16⟩ gen rfl).2 a (by simpa using h1)

theorem State.armPage_pend {s : State} {req p gen : Nat} (h : gen % 2 ^ 16 ≠ 0) :
    (s.armPage req p gen).flag (pg p) H.COMMIT_PEND = true := by
  rw [State.armPage_nonzero h, State.flag_put_same]
  rfl

theorem State.armPage_armedAt {s : State} {req p gen : Nat} (h : gen % 2 ^ 16 ≠ 0) :
    (s.armPage req p gen).armedAt (pg p + 0x02C) = some ⟨pg p + 0x02C, gen % 2 ^ 16, req, s.now⟩ := by
  unfold State.armedAt
  rw [State.armPage_armed h]
  simp

/-! ### The hand-over of a page (R38) -/

/-- The state that a page's hand-over of the COMMIT `c` leaves. -/
def State.handedOver (s : State) (p : Nat) (c : Armed) : State :=
  ((((s.copyShadow (pg p + 0x040) (pg p + 0x1000)).disarm (pg p + 0x02C)).put (pg p) H.TAKEN c.gen).put (pg p)
    H.COMMIT_PEND 0).raise p 30

theorem State.takePage_armed {s : State} {p : Nat} {c : Armed} (h : s.armedAt (pg p + 0x02C) = some c)
    (hf : s.frozen p = false) : s.takePage p = (s.handedOver p c, some c) := by
  unfold State.takePage
  rw [h]
  simp only [hf, Bool.false_eq_true, if_false]
  rfl

/-- COMMIT_TAKEN takes the generation handed over. -/
theorem State.handedOver_taken (s : State) (p : Nat) (c : Armed) (hc : c.gen < 2 ^ 16) :
    (s.handedOver p c).get (pg p) H.TAKEN = c.gen := by
  unfold State.handedOver State.raise
  rw [State.get_put_apart _ _ _ (by decide), State.get_put_apart _ _ _ (by decide), State.get_put_same]
  exact Nat.mod_eq_of_lt hc

theorem State.handedOver_pend (s : State) (p : Nat) (c : Armed) : (s.handedOver p c).flag (pg p) H.COMMIT_PEND = false := by
  unfold State.handedOver State.raise
  rw [State.flag_put_apart _ _ _ (by decide), State.flag_put_same]
  rfl

/-- COMMIT_DONE is bit 30. -/
theorem State.handedOver_done (s : State) (p : Nat) (c : Armed) :
    ((s.handedOver p c).get (pg p) H.IRQ_RAW).testBit 30 = true := by
  unfold State.handedOver
  rw [State.get_raise, Nat.testBit_mod_two_pow, Nat.testBit_or, Nat.testBit_two_pow_self]
  simp

/-- The hand-over changes registers, working words and the list of pending COMMITs. -/
theorem State.handedOver_only (s : State) (p : Nat) (c : Armed) :
    s.handedOver p c = { s with
      regs := (s.handedOver p c).regs
      work := Tab.copyRange (pg p + 0x040) (pg p + 0x1000) s.regs s.work
      armed := s.armed.filter (fun x => x.key != pg p + 0x02C) } := by
  unfold State.handedOver
  rw [State.raise_only, State.put_only, State.put_only (State.disarm _ _)]
  rfl

/-- Every working word of the page takes the visible word, the others stay. -/
theorem State.handedOver_wreg (s : State) (p : Nat) (c : Armed) (a : Nat) :
    (s.handedOver p c).wreg a = if pg p + 0x040 ≤ a ∧ a < pg p + 0x1000 then s.reg a else s.wreg a := by
  rw [State.handedOver_only]
  exact Tab.get_copyRange resetWord _ _ s.regs s.work a

theorem State.handedOver_armedAt (s : State) (p : Nat) (c : Armed) : (s.handedOver p c).armedAt (pg p + 0x02C) = none := by
  rw [State.handedOver_only]
  exact State.armedAt_eq_none fun x hx => by simpa using (List.mem_filter.1 hx).2

/-! ### The commands -/

theorem exec_commitWrite_page (req : Req) (p : Fin 288) (gen : BitVec 16) (s : State) :
    exec (.commitWrite req (.page p) gen) s = Cmd.write s req (pg p.val + 0x02C) gen.toNat := rfl

/-- COMMIT_WRITE at an unlocked page with a shadow arms the page with a nonzero generation (R38). -/
theorem exec_commitWrite_armPage {s : State} {req : Req} {p : Fin 288} {gen : BitVec 16} (hq : s.Quiet)
    (hw : s.Writable req p.val) (hh : hasHead p.val = true) (hf : (Page.feat p.val).testBit 0 = true)
    (hg : gen.toNat % 2 ^ 16 ≠ 0) :
    exec (.commitWrite req (.page p) gen) s = .next ((s.armPage req.code p.val gen.toNat).answered req []) := by
  have hl : s.locked p.val = false := by rw [← ownerPage_of_hasHead hh]; exact hw.2
  have hv : gen.toNat % 2 ^ 32 = gen.toNat := Nat.mod_eq_of_lt (lt_trans gen.isLt (by decide))
  rw [exec_commitWrite_page]
  refine Cmd.write_header hw.1 hh (by decide) (by decide) (by rw [hv, Bus.putHeader_commit hl hf]) ?_ ?_
  · rw [State.armPage_only hg]
    exact hq
  · have hsame : (s.armPage req.code p.val gen.toNat).get (pg p.val) H.COUNT = s.get (pg p.val) H.COUNT :=
      State.get_of_reg rfl (State.armPage_reg hg (by simp [H.COUNT]) (by simp [H.COUNT]))
    rw [hsame]
    exact State.get_count_le_satInc s _

/-- Settles O8: the new COMMIT is the one the page's list holds, and the one its hand-over takes. -/
theorem commitReplacesPending : Obligations.CommitReplacesPending := by
  unfold Obligations.CommitReplacesPending
  intro req p gen s hq hw hh hf hg
  have hmod : gen.toNat % 2 ^ 16 = gen.toNat := Nat.mod_eq_of_lt gen.isLt
  have hg' : gen.toNat % 2 ^ 16 ≠ 0 := by
    rw [hmod]
    exact fun h => hg (BitVec.eq_of_toNat_eq h)
  have harmed : ((s.armPage req.code p.val gen.toNat).answered req []).armed =
      ⟨pg p.val + 0x02C, gen.toNat, req.code, s.now⟩ :: s.armed.filter (fun x => x.key != pg p.val + 0x02C) :=
    (State.armPage_armed hg').trans (by rw [hmod])
  refine ⟨_, exec_commitWrite_armPage hq hw hh hf hg', ?_, ?_, ?_, ?_, fun a h1 h2 => State.armPage_reg hg' h1 h2,
    fun hfr => ?_⟩
  · rw [harmed]
    simp [List.filter_filter]
  · rw [harmed]
    simp [List.filter_filter]
  · rw [State.flag_answered, State.armPage_pend hg']
  · rw [State.armPage_only hg']
    rfl
  · rw [State.takePage_armed (s := (s.armPage req.code p.val gen.toNat).answered req []) (State.armPage_armedAt hg') hfr,
      State.handedOver_taken _ _ _ (Nat.mod_lt _ (by decide)), hmod]

/-- COMMIT_HAND_OVER of the switch page, its island running, is the page's hand-over. -/
theorem exec_commitHandOver_switch {s : State} (hr : s.running .net = true) :
    exec (.commitHandOver (.page ⟨0x062, by decide⟩)) s = .next (s.takePage 0x062).1 := by
  change execCommitHandOver (.page ⟨0x062, by decide⟩) s = _
  have hi : s.running (pageIsland 0x062) = true := hr
  simp [execCommitHandOver, hi]

theorem exec_commitHandOver_entry (e : Fin 256) (s : State) :
    exec (.commitHandOver (.entry e)) s = .next (Cal.handOver s e.val) := rfl

theorem exec_commitHandOver_dma (n : Fin 64) (s : State) :
    exec (.commitHandOver (.dma n)) s = .next (Dma.handOver s n.val) := rfl

/-- Settles O9: the hand-over of a page, field by field; an entry or a channel without a COMMIT hands nothing over. -/
theorem handOverTakesTheShadow : Obligations.HandOverTakesTheShadow := by
  unfold Obligations.HandOverTakesTheShadow
  refine ⟨fun c s hr hc hgen hf => ?_, fun e s h => ?_, fun n s h => ?_⟩
  · refine ⟨s.handedOver 0x062 c, ?_, fun a hlo hhi => ?_, fun a ha => ?_, State.handedOver_taken s _ c hgen,
      State.handedOver_pend s _ c, State.handedOver_done s _ c, State.handedOver_armedAt s _ c, ?_⟩
    · rw [exec_commitHandOver_switch hr, State.takePage_armed hc hf]
    · rw [State.handedOver_wreg]
      exact if_pos ⟨hlo, hhi⟩
    · rw [State.handedOver_wreg]
      exact if_neg ha
    · exact (State.handedOver_only s 0x062 c).trans (by rw [State.handedOver_only s 0x062 c])
  · rw [exec_commitHandOver_entry, Cal.handOver, h]
  · rw [exec_commitHandOver_dma, Dma.handOver, h]
    simp

end Sys2Proof.Machine
end

section
/-! ## FREEZE at the ARR page (O12; spec/02 R44, spec/07 R170) -/

namespace Sys2Proof.Machine

/-- Core 0's FREEZE of the ARR page, right after reset, notes what the beams rest on before the write: a view of the array, which is
neither a register nor an answer. -/
theorem freeze_arrPage_notesView :
    ∃ t, exec (.freeze (.core 0) ⟨0x018, by decide⟩) State.reset = .next t ∧ t.arr.views.length = 1 :=
  ⟨_, rfl, by decide +kernel⟩

/-- Refutes O12: FREEZE at the ARR page changes more than registers.  Every write of its PAGE_CTL goes through `Arr.changing`, which
notes a view of the array: from the reset state the list of views grows from none to one. -/
theorem not_enableFreezeCommands : ¬ Obligations.EnableFreezeCommands := by
  unfold Obligations.EnableFreezeCommands
  rintro ⟨-, hfreeze, -⟩
  obtain ⟨t, hexec, -, honly, -⟩ :=
    hfreeze (.core 0) ⟨0x018, by decide⟩ State.reset State.quiet_reset (by decide +kernel) (by decide)
  obtain ⟨u, hnotes, hviews⟩ := freeze_arrPage_notesView
  obtain rfl : u = t := Host.Outcome.next.inj (hnotes.symm.trans hexec)
  have hnone : u.arr.views.length = 0 := by rw [honly]; rfl
  omega

end Sys2Proof.Machine
end

section
/-! ## SOFT_RESET of the code-service, switch and precision-time pages (O13; spec/02 R45)

A write of PAGE_CTL with SRST acts in turn: EN and FREEZE of the same write (`Page.ctl_srst`), what the block holds beside its
registers (`Page.inner`), the page's tables (`Reset.pages`), then EN, ENABLED and BUSY (`Page.srst_soft`). -/

namespace Sys2Proof.Machine

/-- The pages of the code service, the switch and precision time. -/
abbrev Page.Soft (p : Nat) : Prop := p = 0x028 ∨ p = 0x062 ∨ p = 0x063

theorem Page.soft_of_info {p : Fin 288} {b : Blk} {i : Nat} (hp : pageInfo p.val = some (b, i)) (hb : b ∈ [Blk.code, .sw, .ptp]) :
    Page.Soft p.val := by
  have hlisted : ∀ q : Fin 288, ∀ x ∈ pageInfo q.val, x.1 ∈ [Blk.code, .sw, .ptp] → Page.Soft q.val := by decide +kernel
  exact hlisted p (b, i) hp hb

theorem Page.Soft.hasHead {p : Nat} (h : Page.Soft p) : hasHead p = true := by
  rcases h with rfl | rfl | rfl <;> rfl

/-- Their chapters give EN no effect of its own. -/
theorem Page.setEn_soft {p : Nat} (h : Page.Soft p) (s : State) (req : Nat) (on : Bool) :
    Page.setEn s req p on = (s.putB (pg p) H.EN on).putB (pg p) H.ENABLED on := by
  have hon (t : State) : Page.onEn t req p on = t := by
    rcases h with rfl | rfl | rfl <;> rfl
  have h1 : p ≠ 0x050 := by omega
  have h2 : ¬ (p = 0x018 ∨ p = 0x048) := by omega
  unfold Page.setEn
  simp only [h1, h2, if_false, hon, ite_self]

/-- They resume without an effect of their own. -/
theorem Page.setFreeze_soft {p : Nat} (h : Page.Soft p) (s : State) (on : Bool) :
    Page.setFreeze s p on = s.putB (pg p) H.FREEZE on ∨
      Page.setFreeze s p on = (s.putB (pg p) H.FREEZE on).put (pg p) H.FROZEN 0 := by
  have hres (t : State) : Page.onResume t p = t := by
    rcases h with rfl | rfl | rfl <;> rfl
  unfold Page.setFreeze
  dsimp only
  split
  · exact Or.inl rfl
  · exact Or.inr (hres _)

/-- The header words that a write of PAGE_CTL may change before the reset. -/
def Page.ctlWords (p : Nat) : List Nat := [pg p + 0x00C, pg p + 0x010, pg p + 0x014, pg p + 0x024, pg p + 0x028]

theorem Page.setEn_soft_frame {p : Nat} (h : Page.Soft p) (s : State) (req : Nat) (on : Bool) :
    s.RegsOnly (Page.setEn s req p on) (Page.ctlWords p) ∧ (Page.setEn s req p on).en p = on := by
  rw [Page.setEn_soft h]
  constructor
  · exact ((State.RegsOnly.refl s _).put_then _ H.EN _ rfl (by simp [Page.ctlWords, H.EN])).put_then _ H.ENABLED _ rfl
      (by simp [Page.ctlWords, H.ENABLED])
  · unfold State.en
    rw [State.flag_putB_apart _ _ _ (by decide), State.flag_putB _ _ _ rfl]

theorem Page.setFreeze_soft_frame {p : Nat} (h : Page.Soft p) (s : State) (on : Bool) :
    s.RegsOnly (Page.setFreeze s p on) (Page.ctlWords p) ∧ (Page.setFreeze s p on).en p = s.en p := by
  have hput : s.RegsOnly (s.putB (pg p) H.FREEZE on) (Page.ctlWords p) :=
    (State.RegsOnly.refl s _).put_then _ H.FREEZE _ rfl (by simp [Page.ctlWords, H.FREEZE])
  have hen : (s.putB (pg p) H.FREEZE on).en p = s.en p := State.flag_putB_apart _ _ _ (by decide)
  rcases Page.setFreeze_soft h s on with e | e <;> rw [e]
  · exact ⟨hput, hen⟩
  · refine ⟨hput.put_then _ H.FROZEN 0 rfl (by simp [Page.ctlWords, H.FROZEN]), ?_⟩
    rw [← hen]
    exact State.flag_put_apart _ _ _ (by decide)

/-- A write of PAGE_CTL with SRST resets the page from a state in which EN is as written. -/
theorem Page.ctl_srst {p v : Nat} (h : Page.Soft p) (hv : v.testBit 1 = true) (s : State) (req : Nat) :
    ∃ u, Page.ctl s req p v = Page.srst u req p ∧ s.RegsOnly u (Page.ctlWords p) ∧ u.en p = v.testBit 0 := by
  have hrs : Page.resettable p = true := by
    rcases h with rfl | rfl | rfl <;> decide
  have hlog (c : Bool) :
      s.RegsOnly (if c then s.logErr p E.CTL_DENIED (pg p + 0x00C) req else s) (Page.ctlWords p) := by
    cases c
    · exact State.RegsOnly.refl s _
    · exact (State.RegsOnly.logErr s p _ _ _).mono (by simp [Page.ctlWords])
  unfold Page.ctl
  simp only [hv, hrs, Bool.and_self, if_true]
  refine ⟨_, rfl, ?_⟩
  obtain ⟨hen, hon⟩ := Page.setEn_soft_frame h (if (true && !true || v.testBit 2 && !Page.freezable p) = true then
    s.logErr p E.CTL_DENIED (pg p + 0x00C) req else s) req (v.testBit 0)
  split
  · obtain ⟨hfr, hsame⟩ := Page.setFreeze_soft_frame h _ (v.testBit 2)
    exact ⟨((hlog _).trans hen).trans hfr, hsame.trans hon⟩
  · exact ⟨(hlog _).trans hen, hon⟩

/-- What these blocks hold beside their registers is neither memory nor a core's. -/
theorem Page.inner_soft {p : Nat} (h : Page.Soft p) (s : State) :
    (Page.inner s p).regs = s.regs ∧ (Page.inner s p).mem = s.mem ∧ (Page.inner s p).cores = s.cores := by
  rcases h with rfl | rfl | rfl <;> exact ⟨rfl, rfl, rfl⟩

/-- Pages reset whole: their words read as after reset, others as before. -/
theorem Reset.reg_pages (s : State) (ps : List Nat) (a : Nat) :
    (Reset.pages s ps [] []).reg a = if a / 0x1000 ∈ ps then resetWord a else s.reg a := by
  refine (Tab.get_filter resetWord s.regs (fun n => decide (n / 0x1000 ∉ ps ∨ n ∈ [])) a).trans ?_
  by_cases h : a / 0x1000 ∈ ps
  · simp [h]
  · simp [h, State.reg]

theorem Reset.armedAt_pages (s : State) (ps : List Nat) {key : Nat} (h : key / 0x1000 ∈ ps) :
    (Reset.pages s ps [] []).armedAt key = none := by
  refine State.armedAt_eq_none fun x hx => ?_
  have hout : decide (x.key / 0x1000 ∉ ps ∨ x.key ∈ []) = true := (List.mem_filter.1 hx).2
  rintro rfl
  simp [h] at hout

/-- The page after its tables are reset, with EN as it was. -/
theorem Page.srst_soft {p : Nat} (h : Page.Soft p) (s : State) (req : Nat) :
    Page.srst s req p = (((Reset.pages (Page.inner s p) [p] [] []).putB (pg p) H.EN (s.en p)).putB (pg p) H.ENABLED (s.en p)).put
      (pg p) H.BUSY 1 := by
  rcases h with rfl | rfl | rfl <;> rfl

theorem Page.srst_soft_frame {p : Nat} (h : Page.Soft p) (s : State) (req : Nat) :
    (Reset.pages (Page.inner s p) [p] [] []).RegsOnly (Page.srst s req p) [pg p + 0x00C, pg p + 0x010] := by
  rw [Page.srst_soft h]
  exact (((State.RegsOnly.refl _ _).put_then _ H.EN _ rfl (by simp [H.EN])).put_then _ H.ENABLED _ rfl
    (by simp [H.ENABLED])).put_then _ H.BUSY _ rfl (by simp [H.BUSY])

theorem Page.srst_soft_flags {p : Nat} (h : Page.Soft p) (s : State) (req : Nat) :
    (Page.srst s req p).flag (pg p) H.BUSY = true ∧ (Page.srst s req p).en p = s.en p ∧
      (Page.srst s req p).flag (pg p) H.ENABLED = s.en p := by
  rw [Page.srst_soft h]
  refine ⟨?_, ?_, ?_⟩
  · rw [State.flag_put_same]
    rfl
  · rw [State.en, State.flag_put_apart _ _ _ (by decide), State.flag_putB_apart _ _ _ (by decide), State.flag_putB _ _ _ rfl]
  · rw [State.flag_put_apart _ _ _ (by decide), State.flag_putB _ _ _ rfl]

/-- Words of the page but PAGE_CTL and PAGE_STAT read as after reset, words elsewhere as before. -/
theorem Page.srst_soft_reg {p a : Nat} (h : Page.Soft p) (s : State) (req : Nat) (h1 : a ≠ pg p + 0x00C)
    (h2 : a ≠ pg p + 0x010) :
    (Page.srst s req p).reg a = if a / 0x1000 = p then resetWord a else s.reg a := by
  obtain ⟨hregs, -, -⟩ := Page.inner_soft h s
  rw [(Page.srst_soft_frame h s req).2 a (by simp [h1, h2]), Reset.reg_pages]
  unfold State.reg
  rw [hregs]
  simp

/-- No COMMIT of the page is pending, and memory and cores stay. -/
theorem Page.srst_soft_keeps {p : Nat} (h : Page.Soft p) (s : State) (req : Nat) :
    (Page.srst s req p).armedAt (pg p + 0x02C) = none ∧ (Page.srst s req p).mem = s.mem ∧
      (Page.srst s req p).cores = s.cores := by
  obtain ⟨-, hmem, hcores⟩ := Page.inner_soft h s
  have harmed := Reset.armedAt_pages (Page.inner s p) [p] (key := pg p + 0x02C) (by unfold pg; simp; omega)
  rw [(Page.srst_soft_frame h s req).1]
  exact ⟨harmed, hmem, hcores⟩

/-! ### The commands -/

theorem Bus.putHeader_ctl {s : State} {p : Nat} (hl : s.locked p = false) (req v : Nat) :
    Bus.putHeader s req p 0x00C v = Page.ctl s req p v := by
  simp [Bus.putHeader, hl]

theorem exec_softReset (req : Req) (p : Fin 288) (en fr : Bool) (s : State) :
    exec (.softReset req p en fr) s = Cmd.write s req (pg p.val + 0x00C) (b2n en + 2 + 4 * b2n fr) := rfl

/-- The word that SOFT_RESET writes: SRST with the given EN. -/
theorem softReset_word (en fr : Bool) :
    ((b2n en + 2 + 4 * b2n fr) % 2 ^ 32).testBit 0 = en ∧ ((b2n en + 2 + 4 * b2n fr) % 2 ^ 32).testBit 1 = true := by
  cases en <;> cases fr <;> decide

/-- SOFT_RESET of one of these pages resets it from a state in which EN is as the command says. -/
theorem exec_softReset_srst {s : State} {req : Req} {p : Fin 288} (h : Page.Soft p.val) (en fr : Bool) (hq : s.Quiet)
    (hw : s.Writable req p.val) :
    ∃ u, exec (.softReset req p en fr) s = .next ((Page.srst u req.code p.val).answered req []) ∧
      s.RegsOnly u (Page.ctlWords p.val) ∧ u.en p.val = en := by
  have hl : s.locked p.val = false := by rw [← ownerPage_of_hasHead h.hasHead]; exact hw.2
  obtain ⟨h0, h1⟩ := softReset_word en fr
  obtain ⟨u, hctl, hframe, hen⟩ := Page.ctl_srst h h1 s req.code
  obtain ⟨-, -, hcores⟩ := Page.srst_soft_keeps h u req.code
  refine ⟨u, ?_, hframe, hen.trans h0⟩
  rw [exec_softReset]
  refine Cmd.write_header hw.1 h.hasHead (by decide) (by decide) ((Bus.putHeader_ctl hl _ _).trans hctl) (fun c => ?_) ?_
  · unfold State.core
    rw [hcores]
    exact hframe.quiet hq c
  · have hcount : (Page.srst u req.code p.val).reg (pg p.val + H.COUNT.off) = 0 := by
      rw [Page.srst_soft_reg h _ _ (by simp [H.COUNT]) (by simp [H.COUNT]),
        if_pos (by simp only [H.COUNT]; unfold pg; omega)]
      rcases h with h | h | h <;> rw [h] <;> decide
    rw [State.get_eq_zero rfl hcount]
    exact Nat.zero_le _

/-- SOFT_RESET_DONE with nothing held clears BUSY. -/
theorem exec_softResetDone {s : State} {p : Fin 288} (hq : s.Quiet) (hh : s.held = []) (hb : s.flag (pg p.val) H.BUSY = true) :
    exec (.softResetDone p) s = .next (s.put (pg p.val) H.BUSY 0) := by
  have hrel : Bus.release (s.put (pg p.val) H.BUSY 0) = s.put (pg p.val) H.BUSY 0 := by
    unfold Bus.release
    rw [State.put_held, hh]
    rfl
  change execSoftResetDone p s = _
  unfold execSoftResetDone
  rw [if_pos hb, hrel, Cpu.settle_quiet (State.quiet_put hq _ _ _)]

/-- Settles O13: SRST's effect on the page, word by word, and the end of the reset. -/
theorem softResetCommands : Obligations.SoftResetCommands := by
  unfold Obligations.SoftResetCommands
  constructor
  · intro req p b i en fr s hq hw hp hb
    have h : Page.Soft p.val := Page.soft_of_info hp hb
    obtain ⟨u, hexec, hframe, hen⟩ := exec_softReset_srst h en fr hq hw
    obtain ⟨hbusy, hon, henabled⟩ := Page.srst_soft_flags h u req.code
    obtain ⟨harmed, hmem, -⟩ := Page.srst_soft_keeps h u req.code
    refine ⟨_, hexec, ?_, ?_, ?_, harmed, fun a hlo hhi h1 h2 => ?_, fun a ha => ?_, ?_⟩
    · rw [State.flag_answered, hbusy]
    · rw [State.en_answered, hon, hen]
    · rw [State.flag_answered, henabled, hen]
    · exact (Page.srst_soft_reg h u _ h1 h2).trans (if_pos (by unfold pg at hlo hhi; omega))
    · have hpage : a / 0x1000 ≠ p.val := by unfold pg at ha; omega
      refine (Page.srst_soft_reg h u _ (by omega) (by omega)).trans ((if_neg hpage).trans (hframe.2 a ?_))
      simp only [Page.ctlWords, List.mem_cons, List.not_mem_nil, or_false]
      omega
    · refine hmem.trans ?_
      rw [hframe.1]
  · intro p s hq hh hb
    exact ⟨_, exec_softResetDone hq hh hb, (State.flag_put_same s _ _ 0).trans rfl, State.RegsOnly.put s (pg p.val) H.BUSY 0 rfl⟩

end Sys2Proof.Machine
end

section
/-! ## Chain records, time, and the bias of an antenna (O17; spec/03 R75, R76) -/

namespace Sys2Proof.Machine

/-! ### The record of a chain -/

theorem State.ch_setCh_same (s : State) {i : Nat} (hi : i < 4) (c : Chain) : (s.setCh i c).ch i = c := by
  simp [State.ch, State.setCh, hi]

theorem State.ch_setCh_ne (s : State) {i k : Nat} (h : k ≠ i) (c : Chain) : (s.setCh i c).ch k = s.ch k := by
  simp [State.ch, State.setCh, h.symm]

theorem State.ch_modCh_same (s : State) {i : Nat} (hi : i < 4) (f : Chain → Chain) : (s.modCh i f).ch i = f (s.ch i) :=
  State.ch_setCh_same s hi _

theorem State.ch_modCh_ne (s : State) {i k : Nat} (h : k ≠ i) (f : Chain → Chain) : (s.modCh i f).ch k = s.ch k :=
  State.ch_setCh_ne s h _

theorem State.get_modCh (s : State) (i : Nat) (f : Chain → Chain) (b : Nat) (g : Fld) : (s.modCh i f).get b g = s.get b g :=
  State.get_congr (s := s.modCh i f) (t := s) rfl b g

@[simp] theorem State.ch_put (s : State) (b : Nat) (f : Fld) (v i : Nat) : (s.put b f v).ch i = s.ch i := by
  simp [State.ch]

/-- Chain `i`'s record changed by `f`, then one field of one word stored: no other chain, word or part of the state moves. -/
theorem State.modCh_put_frame {s : State} {i : Nat} {f : Chain → Chain} {b : Nat} {g : Fld} {v : Nat} (hg : g.words = 1) :
    (s.modCh i f).put b g v = { s with regs := ((s.modCh i f).put b g v).regs, chains := ((s.modCh i f).put b g v).chains } ∧
      (∀ a, a ≠ b + g.off → ((s.modCh i f).put b g v).reg a = s.reg a) ∧
      (∀ k : Fin 4, k.val ≠ i → ((s.modCh i f).put b g v).ch k.val = s.ch k.val) := by
  refine ⟨?_, fun a ha => ?_, fun k hk => ?_⟩
  · rw [State.put_only]
    rfl
  · exact (State.RegsOnly.put (s.modCh i f) b g v hg).2 a (by simpa using ha)
  · rw [State.ch_put, State.ch_modCh_ne s hk]

/-! ### Time -/

/-- Running time on moves the base counter and the timescales only (R183). -/
theorem State.runTo_only (s : State) (t : Nat) : s.runTo t = { s with base := (s.runTo t).base, ts := (s.runTo t).ts } := by
  unfold State.runTo
  split <;> rfl

@[simp] theorem State.runTo_regs (s : State) (t : Nat) : (s.runTo t).regs = s.regs := by rw [State.runTo_only]
@[simp] theorem State.runTo_work (s : State) (t : Nat) : (s.runTo t).work = s.work := by rw [State.runTo_only]
@[simp] theorem State.runTo_mem (s : State) (t : Nat) : (s.runTo t).mem = s.mem := by rw [State.runTo_only]
@[simp] theorem State.runTo_chains (s : State) (t : Nat) : (s.runTo t).chains = s.chains := by rw [State.runTo_only]

theorem State.get_runTo (s : State) (t b : Nat) (f : Fld) : (s.runTo t).get b f = s.get b f :=
  State.get_congr (State.runTo_regs s t) b f

theorem State.reg_runTo (s : State) (t a : Nat) : (s.runTo t).reg a = s.reg a := by
  simp [State.reg]

theorem State.ch_runTo (s : State) (t i : Nat) : (s.runTo t).ch i = s.ch i := by
  simp [State.ch]

/-! ### The commands -/

theorem exec_biasFoldback_on {n : Fin 2} {s : State} (h : (s.ch (2 * n.val)).biasOn = true) :
    exec (.biasFoldback n) s = .next ((s.modCh (2 * n.val) (fun c => { c with biasOn := false, biasRun := 0 })).put
      (Rfe.b (2 * n.val)) Rfe.BIAS_STAT_FOLDBACK 1) := by
  change execBiasFoldback n s = _
  simp [execBiasFoldback, Rfe.biasChain, h]

theorem exec_biasRetry_short {n : Fin 2} {s : State} {t0 : Nat} (hen : s.flag (Rfe.b (2 * n.val)) Rfe.BIAS_CTL_BIAS_EN = true)
    (hauto : s.flag (Rfe.b (2 * n.val)) Rfe.BIAS_CTL_AUTO_RETRY = true)
    (hshort : s.get (Rfe.b (2 * n.val)) Rfe.BIAS_STAT_STATE = 3) (hat : (s.ch (2 * n.val)).shortAt = some t0) :
    exec (.biasRetry n) s = .next
      (((s.runTo (t0 + s.get (Rfe.b (2 * n.val)) Rfe.BIAS_CTL_RETRY * 64000000)).modCh (2 * n.val)
        (fun c => { c with biasOn := true, biasRun := 0, shortAt := none })).put (Rfe.b (2 * n.val)) Rfe.BIAS_STAT_RETRIES
          (satInc 16 (s.get (Rfe.b (2 * n.val)) Rfe.BIAS_STAT_RETRIES))) := by
  change execBiasRetry n s = _
  simp [execBiasRetry, Rfe.biasChain, hen, hauto, hshort, hat, State.count, State.get_modCh, State.get_runTo,
    Rfe.BIAS_STAT_RETRIES]

/-- Settles O17: each command changes the bias record of its chain and one field of BIAS_STAT, the retry after time has run on. -/
theorem antennaBias : Obligations.AntennaBias := by
  unfold Obligations.AntennaBias
  intro n s
  have hi : 2 * n.val < 4 := by omega
  refine ⟨fun hon => ?_, fun t0 hen hauto hshort hat => ?_⟩
  · obtain ⟨honly, hreg, hch⟩ := State.modCh_put_frame (g := Rfe.BIAS_STAT_FOLDBACK) rfl
    refine ⟨_, exec_biasFoldback_on hon, ?_, ?_, honly, hreg, hch⟩
    · rw [State.ch_put, State.ch_modCh_same s hi]
    · rw [State.flag_put_same]
      rfl
  · obtain ⟨honly, hreg, hch⟩ := State.modCh_put_frame (g := Rfe.BIAS_STAT_RETRIES) rfl
    refine ⟨_, exec_biasRetry_short hen hauto hshort hat, ?_, ?_, ?_, honly,
      fun a ha => (hreg a ha).trans (State.reg_runTo s _ a), fun k hk => (hch k hk).trans (State.ch_runTo s _ k.val)⟩
    · rw [State.ch_put, State.ch_modCh_same _ hi]
    · rw [State.ch_put, State.ch_modCh_same _ hi]
    · rw [State.get_put_same]
      exact Nat.mod_eq_of_lt (lt_of_le_of_lt (Nat.min_le_right _ _) (by decide))

end Sys2Proof.Machine
end

section
/-! ## CHAIN_ENABLE at a chain that shows FROZEN (O15; spec/02 R44, spec/03 R63, R78)

CHAIN_ENABLE writes PAGE_CTL with FREEZE as it stands.  Where that is 0, the write also resumes a chain whose FROZEN reads 1. -/

namespace Sys2Proof.Machine

/-- Chain 0 as reset leaves it, disabled and with FREEZE 0, but for FROZEN reading 1 and a spectral average that has noted a clip. -/
def Rfe.frozenAlone : State :=
  (State.reset.put (Rfe.b 0) H.FROZEN 1).modCh 0 (fun c => { c with mon := { c.mon with clip := true } })

theorem Rfe.frozenAlone_writable : Rfe.frozenAlone.Quiet ∧ Rfe.frozenAlone.Writable (.core 0) (Rfe.page 0) ∧
    Rfe.frozenAlone.en (Rfe.page 0) = false ∧ (Rfe.frozenAlone.ch 0).mon.clip = true := by decide +kernel

/-- The resumed chain restarts its average (R78): the clip noted is forgotten. -/
theorem chainEnable_frozenAlone_restartsAverage :
    ∃ t, exec (.chainEnable (.core 0) 0) Rfe.frozenAlone = .next t ∧ (t.ch 0).mon.clip = false :=
  ⟨_, rfl, by decide +kernel⟩

/-- Refutes O15: its last clause says that CHAIN_ENABLE changes the chain's wait and validity only, and does not ask that the chain is
not frozen.  With FREEZE 0 and FROZEN 1 the write of PAGE_CTL resumes the chain as well, which restarts its spectral average. -/
theorem not_receiveChainCommands : ¬ Obligations.ReceiveChainCommands := by
  unfold Obligations.ReceiveChainCommands
  intro h
  obtain ⟨hquiet, hwritable, hoff, hclip⟩ := Rfe.frozenAlone_writable
  obtain ⟨-, -, henable⟩ := h (.core 0) 0 Rfe.frozenAlone hquiet hwritable
  obtain ⟨t, hexec, -, hchain, -⟩ := henable hoff
  obtain ⟨u, hrestart, hforgotten⟩ := chainEnable_frozenAlone_restartsAverage
  obtain rfl : u = t := Host.Outcome.next.inj (hrestart.symm.trans hexec)
  have hkept : (u.ch 0).mon.clip = (Rfe.frozenAlone.ch 0).mon.clip := congrArg (fun c => c.mon.clip) hchain
  exact absurd (hforgotten.symm.trans (hkept.trans hclip)) (by decide)

end Sys2Proof.Machine
end

section
/-! ## SPECTRUM_RECORD (O16; spec/03 R69 to R72) -/

namespace Sys2Proof.Machine

/-! ### Records in shared SRAM -/

theorem length_leBytes (n v : Nat) : (leBytes n v).length = n := by
  induction n generalizing v with
  | zero => rfl
  | succ n ih => simp [leBytes, ih]

theorem length_recBytes (l : List (Nat × Nat)) : (recBytes l).length = (l.map Prod.fst).sum := by
  simp [recBytes, List.length_flatMap, length_leBytes]

/-- A record starts with its magic number, the low byte first. -/
theorem recBytes_magic (fields : List (Nat × Nat)) :
    (recBytes ((2, 0x5350) :: fields))[0]? = some 0x50 ∧ (recBytes ((2, 0x5350) :: fields))[1]? = some 0x53 := ⟨rfl, rfl⟩

theorem length_binBytes (values : List Nat) : (values.flatMap (fun v => leBytes 2 v)).length = 2 * values.length := by
  simp [List.length_flatMap, length_leBytes, Nat.mul_comm]

theorem rangeFor_sram {a n : Nat} (hlo : 0x10000000 ≤ a) (hn : 0 < n) (hhi : a + n ≤ 0x12000000) : rangeFor a n = .sram := by
  have hof (x : Nat) (h1 : 0x10000000 ≤ x) (h2 : x < 0x12000000) : rangeOf x = .sram := by
    unfold rangeOf
    rw [if_neg (by omega), if_neg (by omega), if_pos ⟨h1, h2⟩]
  unfold rangeFor
  rw [hof a hlo (by omega), hof (a + (n - 1)) (by omega) (by omega), if_pos rfl]

/-- Every byte after a block's write to shared SRAM. -/
theorem State.byte_put8_sram (s : State) {a : Nat} {l : List Nat} (hlo : 0x10000000 ≤ a) (hn : 0 < l.length)
    (hhi : a + l.length ≤ 0x12000000) (x : Nat) :
    (s.put8 a l).byte x = if a ≤ x ∧ x < a + l.length then BitVec.ofNat 8 (l[x - a]?.getD 0) else s.byte x := by
  unfold State.put8 State.blockWrite
  rw [rangeFor_sram hlo hn hhi]
  exact State.byte_store s none a l x

/-! ### Working words -/

theorem State.wget_congr {s t : State} (h : s.work = t.work) (b : Nat) (f : Fld) : s.wget b f = t.wget b f := by
  have hword (x : Nat) : s.wreg x = t.wreg x := by
    unfold State.wreg
    rw [h]
  have hwords (n a : Nat) : s.wwordsAt a n = t.wwordsAt a n := by
    induction n generalizing a with
    | zero => rfl
    | succ n ih => rw [State.wwordsAt, State.wwordsAt, hword, ih]
  unfold State.wget
  rw [hwords]

theorem State.wflag_congr {s t : State} (h : s.work = t.work) (b : Nat) (f : Fld) : s.wflag b f = t.wflag b f := by
  unfold State.wflag
  rw [State.wget_congr h]

/-! ### The blocks of an average, and seeding (R69, R70) -/

/-- Where every block from `n` on is good, as many are found as the average asks for. -/
theorem Rfe.length_blocksFrom {s : State} {i stride : Nat} (fuel : Nat) : ∀ {k n : Nat}, k ≤ fuel →
    (∀ m, n ≤ m → Rfe.goodBlock s i m = true) → (Rfe.blocksFrom s i stride fuel k n).length = k := by
  induction fuel with
  | zero =>
    intro k n hk _
    obtain rfl : k = 0 := Nat.le_zero.1 hk
    rfl
  | succ fuel ih =>
    intro k n hk hgood
    cases k with
    | zero => rfl
    | succ k =>
      rw [Rfe.blocksFrom, if_pos (hgood n le_rfl), List.length_cons,
        ih (Nat.le_of_succ_le_succ hk) (fun m hm => hgood m (by omega))]

/-- An effect that leaves the state at every element of a list leaves it after all of them. -/
theorem State.each_eq_self {α : Type} {s : State} {l : List α} {f : State → α → State} (h : ∀ x ∈ l, f s x = s) :
    s.each l f = s := by
  unfold State.each
  induction l with
  | nil => rfl
  | cons x t ih =>
    rw [List.foldl_cons, h x List.mem_cons_self]
    exact ih fun y hy => h y (List.mem_cons_of_mem _ hy)

/-- Without AUTO_SEED on any notch a record seeds none. -/
theorem Rfe.seed_off {s : State} {i : Nat} (h : ∀ k : Fin 4, s.wflag (Rfe.b i + 0x060 + 0x10 * k.val) ⟨0, 12, 1⟩ = false)
    (median : Nat) (bins : List Nat) : Rfe.seed s i median bins = s := by
  refine State.each_eq_self fun n hn => if_neg ?_
  rintro ⟨-, hauto, -⟩
  exact absurd (hauto.symm.trans (h ⟨n, List.mem_range.1 hn⟩)) (by decide)

/-! ### The record -/

/-- MON_STAT and MON_DONE after a record in buffer `last` (R71). -/
def Rfe.shown (s : State) (i : Nat) (last : Bool) (seq : Nat) : State :=
  (((s.put (Rfe.b i) Rfe.MON_STAT_LAST (b2n last)).put (Rfe.b i) Rfe.MON_STAT_VALID 1).put (Rfe.b i)
    Rfe.MON_STAT_SEQ seq).raise (Rfe.page i) 6

/-- The state that a record leaves: bins first, header last, then MON_STAT, MON_DONE and the monitor's next average (R71). -/
def Rfe.recorded (s : State) (i dst : Nat) (header bins : List Nat) (last : Bool) (seq : Nat) (next : Chain → Mon) : State :=
  (Rfe.shown ((s.put8 (dst + 0x40) bins).put8 dst header) i last seq).modCh i (fun c => { c with mon := next c })

/-- Time has run to `done` at least, and a free value may have been drawn; working words and memory stand. -/
structure State.Later (s t : State) (done : Nat) : Prop where
  now : done ≤ t.now
  work : t.work = s.work
  mem : t.mem = s.mem
  ecc : t.eccBad = s.eccBad

theorem State.le_now_runTo (s : State) {t : Nat} (ht : t < 2 ^ 64) : t ≤ (s.runTo t).now := by
  unfold State.runTo
  split
  · next h =>
    have hsum : (s.ticks (t - s.now)).now = t := by
      unfold State.now State.ticks at *
      rw [BitVec.toNat_add, BitVec.toNat_ofNat]
      omega
    exact hsum.ge
  · next h => exact Nat.not_lt.1 h

theorem State.later_run (s : State) (n : Nat) (done : BitVec 64) :
    s.Later ((s.runToSample n).runTo done.toNat) done.toNat := by
  have hecc (u : State) (t : Nat) : (u.runTo t).eccBad = u.eccBad := by rw [State.runTo_only]
  refine ⟨State.le_now_runTo _ done.isLt, ?_, ?_, ?_⟩ <;> simp [State.runToSample, hecc]

theorem State.Later.draw {s t : State} {done : Nat} (h : s.Later t done) (n : Nat) : s.Later (t.draw n).2 done :=
  ⟨h.now, h.work, h.mem, h.ecc⟩

/-- SPECTRUM_RECORD with the monitor on and every block good, before it seeds notches. -/
theorem exec_spectrumRecord {i : Fin 4} {s : State} (done : BitVec 64) (pre post : List (List (Int × Int)))
    (hen : s.en (Rfe.page i.val) = true) (hon : s.wflag (Rfe.b i.val) Rfe.MON_CFG_MON_EN = true)
    (hfrozen : s.frozen (Rfe.page i.val) = false) (hrun : s.running .rf = true)
    (hgood : ∀ n, (s.ch i.val).mon.at_ ≤ n → Rfe.goodBlock s i.val n = true) :
    ∃ (u : State) (header bins values : List Nat) (next : Chain → Mon) (median : Nat),
      exec (.spectrumRecord i done pre post) s = .next (Rfe.seed (Rfe.recorded u i.val
        (u.wget (Rfe.b i.val) Rfe.MON_DST_ADDR + (if (s.ch i.val).mon.toB then 0x2040 else 0)) header bins (s.ch i.val).mon.toB
        (((s.ch i.val).mon.seq + 1) % 2 ^ 32) next) i.val median values) ∧
      s.Later u done.toNat ∧ header.length = 64 ∧ header[0]? = some 0x50 ∧ header[1]? = some 0x53 ∧ bins.length = 0x2000 ∧
      ∀ c, (next c).toB = !(s.ch i.val).mon.toB := by
  change ∃ u header bins values next median, execSpectrumRecord i done pre post s = _ ∧ _
  unfold execSpectrumRecord
  extract_lets +onlyGivenNames i' p b
  rw [if_neg (by simp [i', p, b, hen, hfrozen, hrun]; exact hon)]
  extract_lets +onlyGivenNames mon stride navg starts
  have hstarts : starts.length = navg :=
    Rfe.length_blocksFrom _ ((Nat.le_add_left navg _).trans (Nat.le_succ _)) hgood
  rw [if_neg (by omega)]
  extract_lets +onlyGivenNames n0 n1 s1 blocks bins sorted m0 m1
  rcases hdraw : s1.draw (m1 - m0 + 1) with ⟨d, u⟩
  rcases peakOf bins with ⟨pk, pv⟩
  have hlater : s.Later u done.toNat := by
    have hu := (State.later_run s (n1 + 4096) done).draw (m1 - m0 + 1)
    rwa [show ((s.runToSample (n1 + 4096)).runTo done.toNat).draw (m1 - m0 + 1) = (d, u) from hdraw] at hu
  refine ⟨u, _, _, bins, _, m0 + d, rfl, hlater, ?_, ?_, ?_, ?_, fun c => rfl⟩
  · exact (length_recBytes _).trans rfl
  · exact (recBytes_magic _).1
  · exact (recBytes_magic _).2
  · rw [length_binBytes, List.length_map, List.length_range]

/-! ### What a record leaves -/

theorem Rfe.shown_mem (s : State) (i : Nat) (last : Bool) (seq : Nat) : (Rfe.shown s i last seq).mem = s.mem := by
  simp [Rfe.shown]

theorem Rfe.shown_work (s : State) (i : Nat) (last : Bool) (seq : Nat) : (Rfe.shown s i last seq).work = s.work := by
  simp [Rfe.shown]

theorem Rfe.shown_base (s : State) (i : Nat) (last : Bool) (seq : Nat) : (Rfe.shown s i last seq).base = s.base := by
  simp [Rfe.shown]

@[simp] theorem State.modCh_mem (s : State) (i : Nat) (f : Chain → Chain) : (s.modCh i f).mem = s.mem := rfl
@[simp] theorem State.modCh_work (s : State) (i : Nat) (f : Chain → Chain) : (s.modCh i f).work = s.work := rfl
@[simp] theorem State.modCh_base (s : State) (i : Nat) (f : Chain → Chain) : (s.modCh i f).base = s.base := rfl

/-- A block's write where no word holds an ECC error leaves the working words and time, and still no such word. -/
theorem State.put8_stands {s : State} (hecc : s.eccBad = []) (a : Nat) (l : List Nat) :
    (s.put8 a l).work = s.work ∧ (s.put8 a l).base = s.base ∧ (s.put8 a l).eccBad = [] := by
  rw [State.put8_only hecc]
  exact ⟨rfl, rfl, hecc⟩

/-- Working words, and with them the settings of the notches, and time stand. -/
theorem Rfe.recorded_stands {s : State} (hecc : s.eccBad = []) (i dst : Nat) (header bins : List Nat) (last : Bool) (seq : Nat)
    (next : Chain → Mon) : (Rfe.recorded s i dst header bins last seq next).work = s.work ∧
      (Rfe.recorded s i dst header bins last seq next).base = s.base := by
  obtain ⟨hwork, hbase, hecc'⟩ := State.put8_stands hecc (dst + 0x40) bins
  obtain ⟨hwork', hbase', -⟩ := State.put8_stands hecc' dst header
  constructor
  · rw [Rfe.recorded, State.modCh_work, Rfe.shown_work, hwork', hwork]
  · rw [Rfe.recorded, State.modCh_base, Rfe.shown_base, hbase', hbase]

theorem Rfe.recorded_mon (s : State) {i : Nat} (hi : i < 4) (dst : Nat) (header bins : List Nat) (last : Bool) (seq : Nat)
    (next : Chain → Mon) : ∃ c, ((Rfe.recorded s i dst header bins last seq next).ch i).mon = next c :=
  ⟨_, by rw [Rfe.recorded, State.ch_modCh_same _ hi]⟩

/-- Memory after a record holds the header and the bins at the buffer; every other byte is as it was. -/
theorem Rfe.byte_recorded (s : State) {i dst : Nat} {header bins : List Nat} (hheader : header.length = 64)
    (hbins : bins.length = 0x2000) (hlo : 0x10000000 ≤ dst) (hhi : dst + 0x2040 ≤ 0x11FC0000) (last : Bool) (seq : Nat)
    (next : Chain → Mon) (x : Nat) :
    (Rfe.recorded s i dst header bins last seq next).byte x =
      if dst ≤ x ∧ x < dst + 64 then BitVec.ofNat 8 (header[x - dst]?.getD 0)
      else if dst + 64 ≤ x ∧ x < dst + 64 + 0x2000 then BitVec.ofNat 8 (bins[x - (dst + 64)]?.getD 0) else s.byte x := by
  have hmem : (Rfe.recorded s i dst header bins last seq next).mem = ((s.put8 (dst + 0x40) bins).put8 dst header).mem := by
    rw [Rfe.recorded, State.modCh_mem, Rfe.shown_mem]
  rw [State.byte_congr hmem, State.byte_put8_sram _ hlo (by omega) (by omega), hheader,
    State.byte_put8_sram _ (by omega) (by omega) (by omega), hbins]

/-- An event's own bit reads 1 after it. -/
theorem State.testBit_raise_same (s : State) (p : Nat) {n : Nat} (hn : n < 32) :
    ((s.raise p n).get (pg p) H.IRQ_RAW).testBit n = true :=
  (State.testBit_raiseIf s true p n hn).trans (by simp)

/-- MON_STAT and MON_DONE as `shown` stores them. -/
theorem Rfe.get_shown (s : State) (i : Nat) (last : Bool) (seq : Nat) :
    (Rfe.shown s i last seq).get (Rfe.b i) Rfe.MON_STAT_LAST = b2n last ∧
      (Rfe.shown s i last seq).flag (Rfe.b i) Rfe.MON_STAT_VALID = true ∧
      (Rfe.shown s i last seq).get (Rfe.b i) Rfe.MON_STAT_SEQ = seq % 2 ^ 16 ∧
      ((Rfe.shown s i last seq).get (Rfe.b i) H.IRQ_RAW).testBit 6 = true := by
  have hraise {f : Fld} (t : State) (h : H.IRQ_RAW.apart f = true) :
      (t.raise (Rfe.page i) 6).get (Rfe.b i) f = t.get (Rfe.b i) f := State.get_put_apart t _ _ h
  refine ⟨?_, ?_, ?_, State.testBit_raise_same _ _ (by decide)⟩
  · rw [Rfe.shown, hraise _ (by decide), State.get_put_apart _ _ _ (by decide), State.get_put_apart _ _ _ (by decide),
      State.get_put_same]
    cases last <;> rfl
  · rw [State.flag, Rfe.shown, hraise _ (by decide), State.get_put_apart _ _ _ (by decide), State.get_put_same]
    rfl
  · rw [Rfe.shown, hraise _ (by decide), State.get_put_same]
    rfl

theorem Rfe.get_recorded (s : State) (i dst : Nat) (header bins : List Nat) (last : Bool) (seq : Nat) (next : Chain → Mon)
    (b : Nat) (f : Fld) : (Rfe.recorded s i dst header bins last seq next).get b f =
      (Rfe.shown ((s.put8 (dst + 0x40) bins).put8 dst header) i last seq).get b f := State.get_modCh _ _ _ _ _

/-- The monitor's record, from the command to each thing it leaves (R70 to R72). -/
theorem exec_spectrumRecord_leaves {i : Fin 4} {s : State} (done : BitVec 64) (pre post : List (List (Int × Int))) {dst : Nat}
    (hdst : dst = s.wget (Rfe.b i.val) Rfe.MON_DST_ADDR + (if (s.ch i.val).mon.toB then 0x2040 else 0))
    (hen : s.en (Rfe.page i.val) = true) (hon : s.wflag (Rfe.b i.val) Rfe.MON_CFG_MON_EN = true)
    (hfrozen : s.frozen (Rfe.page i.val) = false) (hrun : s.running .rf = true) (hecc : s.eccBad = [])
    (hseed : ∀ k : Fin 4, s.wflag (Rfe.b i.val + 0x060 + 0x10 * k.val) ⟨0, 12, 1⟩ = false)
    (hgood : ∀ n, (s.ch i.val).mon.at_ ≤ n → Rfe.goodBlock s i.val n = true)
    (hlo : 0x10000000 ≤ dst) (hhi : dst + 0x2040 ≤ 0x11FC0000) :
    ∃ t, exec (.spectrumRecord i done pre post) s = .next t ∧ done.toNat ≤ t.now ∧ t.byte dst = 0x50 ∧ t.byte (dst + 1) = 0x53 ∧
      t.get (Rfe.b i.val) Rfe.MON_STAT_LAST = b2n (s.ch i.val).mon.toB ∧ t.flag (Rfe.b i.val) Rfe.MON_STAT_VALID = true ∧
      t.get (Rfe.b i.val) Rfe.MON_STAT_SEQ = ((s.ch i.val).mon.seq + 1) % 2 ^ 16 ∧
      (t.get (Rfe.b i.val) H.IRQ_RAW).testBit 6 = true ∧ (t.ch i.val).mon.toB = !(s.ch i.val).mon.toB ∧
      (∀ a, a < dst ∨ dst + 0x2040 ≤ a → t.byte a = s.byte a) := by
  obtain ⟨u, header, bins, values, next, median, hexec, hlater, hheader, hfirst, hsecond, hbins, hnext⟩ :=
    exec_spectrumRecord done pre post hen hon hfrozen hrun hgood
  obtain ⟨hwork, hbase⟩ := Rfe.recorded_stands (hlater.ecc.trans hecc) i.val dst header bins (s.ch i.val).mon.toB
    (((s.ch i.val).mon.seq + 1) % 2 ^ 32) next
  rw [State.wget_congr hlater.work, ← hdst, Rfe.seed_off (fun k =>
    (State.wflag_congr (hwork.trans hlater.work) _ _).trans (hseed k))] at hexec
  have hbyte := Rfe.byte_recorded u (i := i.val) hheader hbins hlo hhi (s.ch i.val).mon.toB
    (((s.ch i.val).mon.seq + 1) % 2 ^ 32) next
  obtain ⟨hlast, hvalid, hseq, hirq⟩ := Rfe.get_shown ((u.put8 (dst + 0x40) bins).put8 dst header) i.val (s.ch i.val).mon.toB
    (((s.ch i.val).mon.seq + 1) % 2 ^ 32)
  obtain ⟨c, hmon⟩ := Rfe.recorded_mon u i.isLt dst header bins (s.ch i.val).mon.toB (((s.ch i.val).mon.seq + 1) % 2 ^ 32) next
  refine ⟨_, hexec, ?_, ?_, ?_, ?_, ?_, ?_, ?_, ?_, fun a ha => ?_⟩
  · rw [State.now, hbase]
    exact hlater.now
  · rw [hbyte, if_pos (by omega), Nat.sub_self, hfirst]
    rfl
  · rw [hbyte, if_pos (by omega), Nat.add_sub_cancel_left, hsecond]
    rfl
  · rw [Rfe.get_recorded, hlast]
  · rw [State.flag, Rfe.get_recorded]
    exact hvalid
  · rw [Rfe.get_recorded, hseq]
    omega
  · rw [Rfe.get_recorded, hirq]
  · rw [hmon, hnext]
  · rw [hbyte, if_neg (by omega), if_neg (by omega)]
    exact State.byte_congr hlater.mem a

end Sys2Proof.Machine
end

section
/-! ## What an update tick leaves of a chain's clip report (O16; spec/03 R52 to R68)

CLIP_CNT and CLIP of a chain are stored by `Rfe.clipTick` of that chain alone.  Every other part of UPDATE_TICK leaves them, memory and
time: one lemma per operation of the tick, in the order of their definitions. -/

namespace Sys2Proof.Machine

/-- From `s` to `t` memory and time stand, chain `k` is enabled as before, its CLIP_CNT stands, and CLIP stays raised where it was. -/
structure Rfe.ClipStands (k : Fin 4) (s t : State) : Prop where
  mem : t.mem = s.mem
  base : t.base = s.base
  rfLast : t.rfLast = s.rfLast
  en : t.en (Rfe.page k.val) = s.en (Rfe.page k.val)
  count : t.get (Rfe.b k.val) Rfe.GAIN_STAT_CLIP_CNT = s.get (Rfe.b k.val) Rfe.GAIN_STAT_CLIP_CNT
  clip : (s.get (Rfe.b k.val) H.IRQ_RAW).testBit 2 = true → (t.get (Rfe.b k.val) H.IRQ_RAW).testBit 2 = true

/-- A field apart from EN, IRQ_RAW and CLIP_CNT of a page. -/
def Rfe.clipApart (f : Fld) : Bool :=
  f.apart H.EN && f.apart H.IRQ_RAW && f.apart Rfe.GAIN_STAT_CLIP_CNT && decide (f.off + 4 * f.words ≤ 0x1000)

namespace Rfe.ClipStands

variable {k : Fin 4} {s t u : State}

theorem refl (k : Fin 4) (s : State) : Rfe.ClipStands k s s := ⟨rfl, rfl, rfl, rfl, rfl, id⟩

theorem trans (h : Rfe.ClipStands k s t) (h' : Rfe.ClipStands k t u) : Rfe.ClipStands k s u :=
  ⟨h'.mem.trans h.mem, h'.base.trans h.base, h'.rfLast.trans h.rfLast, h'.en.trans h.en, h'.count.trans h.count,
    fun hc => h'.clip (h.clip hc)⟩

/-- An update beside registers, memory and time. -/
theorem same (h : Rfe.ClipStands k s t) (hregs : u.regs = t.regs) (hmem : u.mem = t.mem) (hbase : u.base = t.base)
    (hlast : u.rfLast = t.rfLast) : Rfe.ClipStands k s u := by
  have hget (b : Nat) (f : Fld) : u.get b f = t.get b f := State.get_congr hregs b f
  refine h.trans ⟨hmem, hbase, hlast, ?_, hget _ _, fun hc => by rwa [hget]⟩
  rw [State.en, State.flag, hget]
  rfl

theorem ite (c : Prop) [Decidable c] (h : Rfe.ClipStands k s t) (h' : Rfe.ClipStands k s u) :
    Rfe.ClipStands k s (if c then t else u) := by
  split
  · exact h
  · exact h'

theorem each {α : Type} (h : Rfe.ClipStands k s t) {l : List α} {f : State → α → State}
    (hf : ∀ x ∈ l, ∀ u, Rfe.ClipStands k s u → Rfe.ClipStands k s (f u x)) : Rfe.ClipStands k s (t.each l f) := by
  unfold State.each
  induction l generalizing t with
  | nil => exact h
  | cons x l ih => exact ih (hf x List.mem_cons_self t h) fun y hy => hf y (List.mem_cons_of_mem x hy)

/-! ### Stores of a field, events and error logs -/

/-- A store that leaves the three fields. -/
theorem stored (h : Rfe.ClipStands k s t) {b v : Nat} {f : Fld}
    (hf : ∀ g ∈ [H.EN, H.IRQ_RAW, Rfe.GAIN_STAT_CLIP_CNT], (t.put b f v).get (Rfe.b k.val) g = t.get (Rfe.b k.val) g) :
    Rfe.ClipStands k s (t.put b f v) := by
  refine h.trans ⟨State.put_mem .., State.put_base .., State.put_rfLast .., ?_, hf _ (by simp), fun hc => ?_⟩
  · exact congrArg (· != 0) (hf H.EN (by simp))
  · rwa [hf H.IRQ_RAW (by simp)]

/-- A field outside the words from EN to CLIP_CNT. -/
theorem put_words (h : Rfe.ClipStands k s t) {b : Nat} {f : Fld} (v : Nat)
    (hw : Rfe.b k.val + 0x050 ≤ b + f.off ∨ b + f.off + 4 * f.words ≤ Rfe.b k.val + 0x00C) :
    Rfe.ClipStands k s (t.put b f v) := by
  refine h.stored fun g hg => State.get_put_ne _ _ _ f g v ?_
  have hin : 0x00C ≤ g.off ∧ g.off + 4 * g.words ≤ 0x050 := by
    simp only [List.mem_cons, List.not_mem_nil, or_false] at hg
    rcases hg with rfl | rfl | rfl <;> decide
  omega

/-- A field of a page, apart from the three. -/
theorem put (h : Rfe.ClipStands k s t) (p : Nat) {f : Fld} (v : Nat) (hf : Rfe.clipApart f = true) :
    Rfe.ClipStands k s (t.put (pg p) f v) := by
  simp only [Rfe.clipApart, Bool.and_eq_true, decide_eq_true_eq] at hf
  obtain ⟨⟨⟨hen, hirq⟩, hcnt⟩, hend⟩ := hf
  by_cases hp : p = Rfe.page k.val
  · subst hp
    refine h.stored fun g hg => State.get_put_apart t _ v ?_
    simp only [List.mem_cons, List.not_mem_nil, or_false] at hg
    rcases hg with rfl | rfl | rfl
    · exact hen
    · exact hirq
    · exact hcnt
  · refine h.put_words v ?_
    unfold Rfe.b pg
    omega

/-- A field of notch `n`'s registers. -/
theorem put_notch (h : Rfe.ClipStands k s t) (i : Nat) {n : Nat} (hn : n < 4) {f : Fld} (v : Nat)
    (hf : f.off + 4 * f.words ≤ 0x010) : Rfe.ClipStands k s (t.put (Rfe.b i + 0x060 + 0x10 * n) f v) := by
  refine h.put_words v ?_
  unfold Rfe.b pg
  omega

/-- A field below the pages of the chains. -/
theorem put_below (h : Rfe.ClipStands k s t) {b : Nat} {f : Fld} (v : Nat) (hb : b + f.off + 4 * f.words ≤ 0x10000) :
    Rfe.ClipStands k s (t.put b f v) := by
  refine h.put_words v (Or.inr ?_)
  unfold Rfe.b pg Rfe.page
  omega

theorem raise (h : Rfe.ClipStands k s t) (p n : Nat) : Rfe.ClipStands k s (t.raise p n) := by
  by_cases hp : p = Rfe.page k.val
  · subst hp
    have hother {g : Fld} (hg : H.IRQ_RAW.apart g = true) : (t.raise (Rfe.page k.val) n).get (Rfe.b k.val) g =
        t.get (Rfe.b k.val) g := State.get_put_apart t _ _ hg
    refine h.trans ⟨State.raise_mem .., State.raise_base .., State.raise_rfLast .., ?_, hother (by decide), fun hc => ?_⟩
    · exact congrArg (· != 0) (hother (g := H.EN) (by decide))
    · refine (State.testBit_raiseIf t true (Rfe.page k.val) n (by decide)).trans ?_
      rw [show pg (Rfe.page k.val) = Rfe.b k.val from rfl, hc]
      rfl
  · refine h.put_words _ ?_
    have hw : H.IRQ_RAW.off + 4 * H.IRQ_RAW.words ≤ 0x1000 := by decide
    unfold Rfe.b pg
    omega

theorem raiseIf (h : Rfe.ClipStands k s t) (c : Bool) (p n : Nat) : Rfe.ClipStands k s (t.raiseIf c p n) :=
  (h.raise p n).ite _ h

theorem logErr (h : Rfe.ClipStands k s t) (p code a req : Nat) : Rfe.ClipStands k s (t.logErr p code a req) := by
  have hcount : Rfe.ClipStands k s (t.put (pg p) H.COUNT (satInc 8 (t.get (pg p) H.COUNT))) := h.put p _ rfl
  exact (((hcount.put p code rfl).put p _ rfl).raise p 31).ite _ hcount

/-! ### Updates beside registers, memory and time -/

theorem modCh (h : Rfe.ClipStands k s t) (i : Nat) (f : Chain → Chain) : Rfe.ClipStands k s (t.modCh i f) :=
  h.same rfl rfl rfl rfl

theorem setOsc (h : Rfe.ClipStands k s t) (band : Nat) (o : Option OscCal) : Rfe.ClipStands k s (t.setOsc band o) :=
  h.same rfl rfl rfl rfl

theorem modPll (h : Rfe.ClipStands k s t) (n : Nat) (f : PllSt → PllSt) : Rfe.ClipStands k s (t.modPll n f) :=
  h.same rfl rfl rfl rfl

theorem wput (h : Rfe.ClipStands k s t) (b : Nat) (f : Fld) (v : Nat) : Rfe.ClipStands k s (t.wput b f v) :=
  h.same rfl rfl rfl rfl

theorem noteValid (h : Rfe.ClipStands k s t) : Rfe.ClipStands k s t.noteValid :=
  h.each fun _ _ _ hu => hu.ite _ (hu.same rfl rfl rfl rfl)

theorem showDb (h : Rfe.ClipStands k s t) (num den : Nat) : Rfe.ClipStands k s (t.showDb num den).2 := by
  unfold State.showDb
  dsimp only
  split
  · exact h.same rfl rfl rfl rfl
  · split
    · exact h
    · exact h.same rfl rfl rfl rfl

/-! ### The digital path (R49, R64 to R67, R74) -/

theorem notchRun (h : Rfe.ClipStands k s t) (i : Nat) {n : Nat} (hn : n < 4) (adapt : Bool) (tone : Nat) (xs : List (Int × Int)) :
    Rfe.ClipStands k s (Rfe.notchRun t i n adapt tone xs).1 := by
  unfold Rfe.notchRun
  dsimp only
  split
  · exact (((((h.modCh _ _).put_notch i hn _ (by decide)).showDb _ _).put_notch i hn _ (by decide)).put_notch i hn _ (by decide))
  · exact ((h.modCh _ _).put_notch i hn _ (by decide)).put_notch i hn _ (by decide)

theorem notchRuns (h : Rfe.ClipStands k s t) (i : Nat) (adapt : Bool) (tone : Nat → Nat) {l : List Nat} (hl : ∀ n ∈ l, n < 4)
    (xs : List (Int × Int)) : Rfe.ClipStands k s
      (l.foldl (fun (a : State × List (Int × Int)) n => Rfe.notchRun a.1 i n adapt (tone n) a.2) (t, xs)).1 := by
  induction l generalizing t xs with
  | nil => exact h
  | cons n l ih =>
    exact ih (h.notchRun i (hl n List.mem_cons_self) adapt (tone n) xs) (fun m hm => hl m (List.mem_cons_of_mem n hm)) _

theorem runPath (h : Rfe.ClipStands k s t) (i first : Nat) (x : ChainIn) (adapt : Bool) :
    Rfe.ClipStands k s (Rfe.runPath t i first x adapt).1 := by
  unfold Rfe.runPath
  dsimp only
  refine modCh ?_ _ _
  exact (h.modCh _ _).notchRuns i adapt _ (fun _ hn => List.mem_range.1 hn) _

theorem blankTick (h : Rfe.ClipStands k s t) (i n : Nat) : Rfe.ClipStands k s (Rfe.blankTick t i n) :=
  (((h.put _ _ rfl).put _ _ rfl).modCh _ _).raiseIf _ _ _

theorem monTick (h : Rfe.ClipStands k s t) (i first g : Nat) (skip : Bool) (clipped : Nat) :
    Rfe.ClipStands k s (Rfe.monTick t i first g skip clipped) :=
  h.ite _ ((h.modCh _ _).ite _ (h.modCh _ _))

theorem lantTick (h : Rfe.ClipStands k s t) (i first n : Nat) (skip : Bool) (seven : List (Int × Int)) :
    Rfe.ClipStands k s (Rfe.lantTick t i first n skip seven) :=
  ((((h.put _ _ rfl).put _ _ rfl).put _ _ rfl).raise _ _).ite _ h

/-- The clip report of another chain. -/
theorem clipTick_ne (h : Rfe.ClipStands k s t) {i : Nat} (hi : i ≠ k.val) (clipped : Nat) :
    Rfe.ClipStands k s (Rfe.clipTick t i clipped) := by
  refine (h.put_words _ ?_).raiseIf _ _ _
  have hw : Rfe.GAIN_STAT_CLIP_CNT.off + 4 * Rfe.GAIN_STAT_CLIP_CNT.words ≤ 0x050 := by decide
  unfold Rfe.b pg Rfe.page
  omega

end Rfe.ClipStands

/-! ### The period that ends (R49, R55) -/

/-- Samples of a period at full scale, of I or Q. -/
def Rfe.clippedOf (x : ChainIn) : Nat :=
  (x.adc.filter (fun v => v.1 == 127 || v.1 == -128 || v.2 == 127 || v.2 == -128)).length

/-- From `s` to `t` memory and time stand, chain `k` is enabled as before, and its clip report is that of `n` samples (R55). -/
structure Rfe.ClipReported (k : Fin 4) (n : Nat) (s t : State) : Prop where
  mem : t.mem = s.mem
  base : t.base = s.base
  rfLast : t.rfLast = s.rfLast
  en : t.en (Rfe.page k.val) = s.en (Rfe.page k.val)
  count : t.get (Rfe.b k.val) Rfe.GAIN_STAT_CLIP_CNT = min n 65535
  clip : 81 < n → (t.get (Rfe.b k.val) H.IRQ_RAW).testBit 2 = true

namespace Rfe.ClipReported

variable {k : Fin 4} {n : Nat} {s t u : State}

theorem stands (h : Rfe.ClipReported k n s t) (h' : Rfe.ClipStands k t u) : Rfe.ClipReported k n s u :=
  ⟨h'.mem.trans h.mem, h'.base.trans h.base, h'.rfLast.trans h.rfLast, h'.en.trans h.en, h'.count.trans h.count,
    fun hn => h'.clip (h.clip hn)⟩

theorem clipTick (h : Rfe.ClipStands k s t) (n : Nat) : Rfe.ClipReported k n s (Rfe.clipTick t k.val n) := by
  have hput := (Rfe.ClipStands.refl k (t.put (Rfe.b k.val) Rfe.GAIN_STAT_CLIP_CNT (min n 65535))).raiseIf (decide (81 < n))
    (Rfe.page k.val) 2
  refine ⟨(hput.mem.trans (State.put_mem ..)).trans h.mem, (hput.base.trans (State.put_base ..)).trans h.base,
    (hput.rfLast.trans (State.put_rfLast ..)).trans h.rfLast, ?_, ?_, fun hn => ?_⟩
  · refine (hput.en.trans ?_).trans h.en
    exact State.flag_put_apart t (Rfe.b k.val) _ (by decide)
  · refine (hput.count.trans (State.get_put_same ..)).trans (Nat.mod_eq_of_lt ?_)
    exact lt_of_le_of_lt (Nat.min_le_right _ _) (by decide)
  · rw [Rfe.clipTick, State.raiseIf, if_pos (decide_eq_true hn)]
    exact State.testBit_raise_same _ _ (by decide)

end Rfe.ClipReported

theorem Rfe.clipped_runPath (s : State) (i first : Nat) (x : ChainIn) (adapt : Bool) :
    (Rfe.runPath s i first x adapt).2.clipped = Rfe.clippedOf x := by
  simp [Rfe.runPath, Rfe.clippedOf, Bool.or_assoc]

/-- Where a chain is disabled the end of its period shows nothing. -/
theorem Rfe.ended_off {s : State} {i : Nat} (h : s.en (Rfe.page i) = false) (first t : Nat) (skip : Bool) (x : ChainIn) :
    (Rfe.ended s i first t skip x).1 = s := by
  simp [Rfe.ended, h]

/-- At the end of an enabled chain's period its path runs, its clip report is stored, then its monitor and Lantern follow. -/
theorem Rfe.ended_on {s : State} {i : Nat} (h : s.en (Rfe.page i) = true) (first t : Nat) (skip : Bool) (x : ChainIn) :
    ∃ (adapt : Bool) (blanked g : Nat) (seven : List (Int × Int)) (frozen : Bool),
      (Rfe.ended s i first t skip x).1 =
        if frozen then Rfe.clipTick (Rfe.blankTick (Rfe.runPath s i first x adapt).1 i blanked) i (Rfe.clippedOf x)
        else Rfe.lantTick (Rfe.monTick (Rfe.clipTick (Rfe.blankTick (Rfe.runPath s i first x adapt).1 i blanked) i
          (Rfe.clippedOf x)) i first g skip (Rfe.clippedOf x)) i first t skip seven := by
  unfold Rfe.ended
  rw [if_neg (by simp [h])]
  extract_lets +onlyGivenNames held g
  rcases hpath : Rfe.runPath s i first x (!held) with ⟨u, y⟩
  have hclipped : y.clipped = Rfe.clippedOf x := by
    rw [← Rfe.clipped_runPath s i first x (!held), hpath]
  dsimp only
  rw [hclipped]
  refine ⟨!held, y.blanked, g, y.seven, State.frozen (Rfe.clipTick (Rfe.blankTick u i y.blanked) i (Rfe.clippedOf x)) (Rfe.page i), ?_⟩
  rw [hpath]
  split <;> rfl

namespace Rfe.ClipStands

variable {k : Fin 4} {s t u : State}

theorem ended_ne (h : Rfe.ClipStands k s t) {i : Nat} (hi : i ≠ k.val) (first n : Nat) (skip : Bool) (x : ChainIn) :
    Rfe.ClipStands k s (Rfe.ended t i first n skip x).1 := by
  cases hen : t.en (Rfe.page i) with
  | false => rwa [Rfe.ended_off hen]
  | true =>
    obtain ⟨adapt, blanked, g, seven, frozen, hended⟩ := Rfe.ended_on hen first n skip x
    have hclip := ((h.runPath i first x adapt).blankTick i blanked).clipTick_ne hi (Rfe.clippedOf x)
    rw [hended]
    exact hclip.ite _ ((hclip.monTick i first g skip _).lantTick i first n skip seven)

end Rfe.ClipStands

theorem Rfe.ClipReported.ended {k : Fin 4} {s t : State} (h : Rfe.ClipStands k s t) (hen : s.en (Rfe.page k.val) = true)
    (first n : Nat) (skip : Bool) (x : ChainIn) :
    Rfe.ClipReported k (Rfe.clippedOf x) s (Rfe.ended t k.val first n skip x).1 := by
  obtain ⟨adapt, blanked, g, seven, frozen, hended⟩ := Rfe.ended_on (h.en.trans hen) first n skip x
  have hclip := Rfe.ClipReported.clipTick ((h.runPath k.val first x adapt).blankTick k.val blanked) (Rfe.clippedOf x)
  rw [hended]
  split
  · exact hclip
  · exact hclip.stands (((Rfe.ClipStands.refl k _).monTick _ _ _ _ _).lantTick _ _ _ _ _)

namespace Rfe.ClipStands

variable {k : Fin 4} {s t u : State}

/-! ### The hand-over (R53, R54, R67, R465) -/

theorem takePage (h : Rfe.ClipStands k s t) (p : Nat) : Rfe.ClipStands k s (t.takePage p).1 := by
  unfold State.takePage
  split
  · exact h
  · split
    · exact h
    · have hcopied : Rfe.ClipStands k s ((t.copyShadow (pg p + 0x040) (pg p + 0x1000)).disarm (pg p + 0x02C)) :=
        h.same rfl rfl rfl rfl
      exact ((hcopied.put p _ rfl).put p _ rfl).raise p 30

theorem logOnce (h : Rfe.ClipStands k s t) (v : State) (p : Nat) : Rfe.ClipStands k s (v.logOnce t p) :=
  (h.put p _ rfl).ite _ h

theorem clampWork (h : Rfe.ClipStands k s t) (i req b : Nat) (f : Fld) (lim : Int) :
    Rfe.ClipStands k s (Rfe.clampWork t i req b f lim) :=
  h.ite _ ((h.wput _ _ _).logErr _ _ _ _)

theorem relZero (h : Rfe.ClipStands k s t) (i n : Nat) : Rfe.ClipStands k s (Rfe.relZero t i n) := h.modCh _ _

theorem handOver (h : Rfe.ClipStands k s t) (i : Nat) : Rfe.ClipStands k s (Rfe.handOver t i).1 := by
  have htake := h.takePage (Rfe.page i)
  unfold Rfe.handOver
  extract_lets +onlyGivenNames p b monWas
  rcases ht : t.takePage (Rfe.page i) with ⟨v, _ | c⟩
  all_goals rw [ht] at htake
  · exact htake
  dsimp -zeta only
  extract_lets +onlyGivenNames s0 gmin gmax s1 half freq s2 s3 s4 s5 s6 wr fq s7
  have h1 : Rfe.ClipStands k s s1 := ((htake.wput _ _ _).logErr _ _ _ _).ite _ htake
  have h2 : Rfe.ClipStands k s s2 := by
    refine h1.each fun n hn w hw => ?_
    have hput {f : Fld} (hf : f.off + 4 * f.words ≤ 0x010) {w : State} (hw : Rfe.ClipStands k s w) (v : Nat) :
        Rfe.ClipStands k s (w.put (b + 0x060 + 0x10 * n) f v) := hw.put_notch i (List.mem_range.1 hn) v hf
    have hst {w : State} (hw : Rfe.ClipStands k s w) (v : Nat) := hput (f := ⟨8, 24, 2⟩) (by decide) hw v
    have hnow {w : State} (hw : Rfe.ClipStands k s w) (v : Nat) := hput (f := ⟨8, 0, 24⟩) (by decide) hw v
    extract_lets nb w' mode st fq
    have hw' : Rfe.ClipStands k s w' := hw.clampWork ..
    split
    · exact (hst hw' 0).relZero i n
    split
    · exact (hnow (hst hw' 3) _).relZero i n
    split
    · exact (hnow (hst hw' 2) _).relZero i n
    split
    · exact hw'.ite _ ((hnow hw' _).logErr _ _ _ _)
    · exact hst hw' 1
  have h3 : Rfe.ClipStands k s s3 := ((h2.wput _ _ _).logErr _ _ _ _).ite _ h2
  have h4 : Rfe.ClipStands k s s4 := (h3.clampWork ..).ite _ h3
  have h6 : Rfe.ClipStands k s s6 := (((h4.logOnce s0 p).modCh _ _).put p _ rfl).ite _ (h4.logOnce s0 p)
  have h7 : Rfe.ClipStands k s s7 := h6.modCh _ _
  split
  · exact h7.put p _ rfl
  · exact h7

/-! ### AGC and notch decisions (R54 to R56, R67, R68) -/

theorem putPower (h : Rfe.ClipStands k s t) (i n sum : Nat) : Rfe.ClipStands k s (Rfe.putPower t i n sum) := by
  have hn := h.put (Rfe.page i) (f := Rfe.AGC_POWER_N_MEAS) n rfl
  exact (hn.put _ 0 rfl).ite _ ((hn.showDb sum n).put _ _ rfl)

theorem gainLimit (h : Rfe.ClipStands k s t) (i : Nat) : Rfe.ClipStands k s (Rfe.gainLimit t i) :=
  ((((h.modCh _ _).put _ 1 rfl).raise _ 11).ite _ (h.modCh _ _)).ite _ ((h.put _ 0 rfl).modCh _ _)

theorem agcTick (h : Rfe.ClipStands k s t) (i : Nat) (x : Rfe.Seen) (keepGain : Bool) :
    Rfe.ClipStands k s (Rfe.agcTick t i x keepGain) :=
  (((h.ite _ (h.put _ _ rfl)).putPower i _ _).ite _ (h.putPower i 0 0)).gainLimit i

theorem notchRelease (h : Rfe.ClipStands k s t) (i : Nat) {n : Nat} (hn : n < 4) :
    Rfe.ClipStands k s (Rfe.notchRelease t i n) :=
  ((h.put_notch i hn 1 (by decide)).modCh _ _).raise _ 5

theorem notchTick (h : Rfe.ClipStands k s t) (i : Nat) {n : Nat} (hn : n < 4) (tone : Nat) :
    Rfe.ClipStands k s (Rfe.notchTick t i n tone) :=
  ((h.modCh _ _).notchRelease i hn).ite _ (h.modCh _ _)

theorem decide_ (h : Rfe.ClipStands k s t) (i : Nat) (x : ChainIn) (y : Rfe.Seen) : Rfe.ClipStands k s (Rfe.decide_ t i x y) := by
  unfold Rfe.decide_
  extract_lets +onlyGivenNames p t1 close was cal
  have h1 : Rfe.ClipStands k s t1 := (h.modCh _ _).ite _ h
  have hover := h1.handOver i
  rcases ht : Rfe.handOver t1 i with ⟨v, setG, fq⟩
  rw [ht] at hover
  have hagc := Rfe.ClipStands.agcTick hover i y (setG || cal)
  refine hover.ite _ (hagc.ite _ (hagc.each fun n hn w hw => ?_))
  have hn : n < 4 := List.mem_range.1 (List.mem_of_mem_filter (List.mem_of_mem_filter hn))
  exact (hw.notchRelease i hn).ite _ (hw.notchTick i hn _)

/-! ### Calibrations of a chain, and what a capture sees (R57 to R63, R88, R89) -/

theorem fail (h : Rfe.ClipStands k s t) (i step : Nat) : Rfe.ClipStands k s (Rfe.fail t i step) :=
  ((h.ite _ (h.put _ step rfl)).put _ 1 rfl).raise _ 1

theorem showCal (h : Rfe.ClipStands k s t) (i : Nat) : Rfe.ClipStands k s (Rfe.showCal t i) := (h.put _ _ rfl).put _ _ rfl

theorem unlockTick (h : Rfe.ClipStands k s t) (i : Nat) : Rfe.ClipStands k s (Rfe.unlockTick t i) :=
  ((h.modCh _ _).raise _ 9).ite _ h

theorem powerUpDone (h : Rfe.ClipStands k s t) (i : Nat) : Rfe.ClipStands k s (Rfe.powerUpDone t i) :=
  (h.modCh _ _).put _ _ rfl

theorem calEnd (h : Rfe.ClipStands k s t) (i : Nat) (c : CalKind) (x : ChainIn) : Rfe.ClipStands k s (Rfe.calEnd t i c x) := by
  have hdone := (h.modCh i (fun c => { c with calRun := none })).raise (Rfe.page i) 0
  unfold Rfe.calEnd
  refine Rfe.ClipStands.ite _ ?_ (hdone.fail i c.code)
  cases c with
  | dc => exact (hdone.put _ _ rfl).put _ _ rfl
  | filter => exact hdone.put _ _ rfl
  | image => exact (((hdone.put _ _ rfl).put _ _ rfl).put _ _ rfl).put _ _ rfl
  | osc => exact hdone

theorem calNext (h : Rfe.ClipStands k s t) (i : Nat) : Rfe.ClipStands k s (Rfe.calNext t i) := by
  unfold Rfe.calNext
  dsimp only
  split
  · exact (h.modCh _ _).setOsc _ _
  · exact h.same rfl rfl rfl rfl
  · exact h
  · exact h

theorem calTick (h : Rfe.ClipStands k s t) (i : Nat) (x : ChainIn) : Rfe.ClipStands k s (Rfe.calTick t i x) := by
  unfold Rfe.calTick
  extract_lets b c t0 t1 starting t2
  have h1 : Rfe.ClipStands k s t1 := by
    unfold t1
    split
    · exact h.modCh _ _
    · exact ((h.modCh _ _).modCh _ _).ite _ ((h.modCh _ _).powerUpDone i)
    · exact h.modCh _ _
    · exact h
  have h2 : Rfe.ClipStands k s t2 := by
    unfold t2
    split
    · exact h1.modCh _ _
    · exact ((h1.calEnd i _ x).powerUpDone i).ite _ (h1.calEnd i _ x)
    · exact h1
  exact (h2.calNext i).showCal i

theorem snapGain (h : Rfe.ClipStands k s t) (i g : Nat) : Rfe.ClipStands k s (Snap.gain t i g) := by
  unfold Snap.gain
  split
  · exact Rfe.ClipStands.ite _ (h.same rfl rfl rfl rfl) h
  · exact h

theorem snapStop (h : Rfe.ClipStands k s t) : Rfe.ClipStands k s (Snap.stopNow t) := by
  unfold Snap.stopNow
  split
  · exact h
  · have hstop (x : Snap) : Rfe.ClipStands k s { t with snap := some x } := h.same rfl rfl rfl rfl
    exact h.ite _ (((hstop _).put 0x020 3 rfl).ite _ (hstop _))

theorem snapClip (h : Rfe.ClipStands k s t) (i : Nat) : Rfe.ClipStands k s (Snap.clip t i) := by
  unfold Snap.clip
  split
  · exact h.snapStop.ite _ h
  · exact h

theorem settle (h : Rfe.ClipStands k s t) (i g0 : Nat) (x : ChainIn) (y : Rfe.Seen) :
    Rfe.ClipStands k s (Rfe.settle t i g0 x y) := by
  unfold Rfe.settle
  extract_lets p t1 t2 g t3 t4 n
  have h1 : Rfe.ClipStands k s t1 := h.modCh _ _
  have h2 : Rfe.ClipStands k s t2 := (h1.unlockTick i).calTick i x
  have h3 : Rfe.ClipStands k s t3 := h2.ite _ (h2.snapGain i g)
  have h4 : Rfe.ClipStands k s t4 := (h3.snapClip i).ite _ h3
  exact h1.ite _ ((h1.unlockTick i).ite _ (h4.modCh _ _))

/-! ### The band LO and its PLL (R59, R62; spec/15 R355) -/

/-- The register block of a PLL lies below the pages of the chains. -/
theorem pllBlock_below : ∀ n : Fin 9, Pll.b n.val + 0x018 ≤ 0x10000 := by decide

theorem put_pll (h : Rfe.ClipStands k s t) {n : Nat} (hn : n < 9) {f : Fld} (v : Nat) (hf : f.off + 4 * f.words ≤ 0x018) :
    Rfe.ClipStands k s (t.put (Pll.b n) f v) := by
  have hb := pllBlock_below ⟨n, hn⟩
  exact h.put_below v (by simp only at hb; omega)

theorem stall (h : Rfe.ClipStands k s t) (l : List Island) : Rfe.ClipStands k s (t.stall l) := h.same rfl rfl rfl rfl

theorem unstall (h : Rfe.ClipStands k s t) (l : List Island) : Rfe.ClipStands k s (t.unstall l) := h.same rfl rfl rfl rfl

theorem loLost (h : Rfe.ClipStands k s t) (n : Nat) : Rfe.ClipStands k s (t.loLost n) := by
  have hgate : Rfe.ClipStands k s { t with loGateAt := t.loGateAt.setIfInBounds (n - 4) (some t.nextSample) } :=
    h.same rfl rfl rfl rfl
  refine Rfe.ClipStands.ite _ (noteValid (hgate.ite _ (hgate.each fun i _ w hw => ?_))) h
  exact (hw.modCh _ _).ite _ hw

theorem gatedChange (h : Rfe.ClipStands k s t) {n : Nat} (hn : n < 7) : Rfe.ClipStands k s (t.gatedChange n) := by
  have h9 : n < 9 := by omega
  unfold State.gatedChange
  rw [if_neg (by omega)]
  exact (((((h.stall _).put_pll h9 1 (by decide)).put_pll h9 0 (by decide)).put_pll h9 _ (by decide)).modPll _ _).loLost n

theorem release (h : Rfe.ClipStands k s t) {n : Nat} (hn : n = 4 ∨ n = 5) (band : Nat) : Rfe.ClipStands k s (t.release n band) := by
  have h9 : n < 9 := by omega
  unfold State.release
  extract_lets +onlyGivenNames b t1 t2 t3 t4
  have h1 : Rfe.ClipStands k s t1 := (h.put_pll h9 3 (by decide)).put_pll h9 0 (by decide)
  have h2 : Rfe.ClipStands k s t2 := (h1.put_pll h9 band (by decide)).put_pll h9 1 (by decide)
  have h3 : Rfe.ClipStands k s t3 := h2.put_pll h9 _ (by decide)
  have h4 : Rfe.ClipStands k s t4 := (h3.raise _ _).modPll _ _
  rw [if_neg (by omega), if_neg (by omega)]
  exact ((h4.unstall _).put_pll h9 1 (by decide)).noteValid

theorem loBack (h : Rfe.ClipStands k s t) {band : Nat} (hb : band < 2) : Rfe.ClipStands k s (Rfe.loBack t band) := by
  have h9 : 4 + band < 9 := by omega
  have hlock := ((h.put_pll h9 (f := Pll.PLL_STAT_STATE) 3 (by decide)).put_pll h9 (f := Pll.PLL_STAT_GATED) 0 (by decide)).put_pll
    h9 (f := Pll.PLL_STAT_FEEDING) 1 (by decide)
  exact ((hlock.put_pll h9 _ (by decide)).raise _ _).noteValid

theorem oscTick (h : Rfe.ClipStands k s t) {band : Nat} (hb : band < 2) (x : ChainIn) :
    Rfe.ClipStands k s (Rfe.oscTick t band x) := by
  have hshow {v : State} (hv : Rfe.ClipStands k s v) (l : List Nat) :
      Rfe.ClipStands k s (v.each l (fun s i => Rfe.showCal s i)) := hv.each fun i _ _ hw => hw.showCal i
  unfold Rfe.oscTick
  split
  · exact h
  · extract_lets +onlyGivenNames pb parts finish
    have hfinish : Rfe.ClipStands k s (finish t) := by
      unfold finish
      extract_lets t1 t2
      have h1 : Rfe.ClipStands k s t1 := by
        refine h.each fun i _ w hw => ?_
        have hdone := hw.raise (Rfe.page i) 0
        exact ((((hdone.put _ _ rfl).put _ _ rfl).put _ 0 rfl).modCh _ _).ite _ (hdone.fail i 4)
      have h2 : Rfe.ClipStands k s t2 := (h1.release (by omega) x.band).ite _ (h1.loBack hb)
      exact hshow (h2.setOsc band none) parts
    split
    · exact hshow ((h.setOsc band _).gatedChange (by omega)) parts
    · exact hfinish.ite _ (h.setOsc band _)

/-! ### The array at the tick (R172, R178 of spec/07) -/

theorem setArr (h : Rfe.ClipStands k s t) (a : ArrSt) : Rfe.ClipStands k s { t with arr := a } := h.same rfl rfl rfl rfl

theorem arrSaturate (h : Rfe.ClipStands k s t) : Rfe.ClipStands k s (Arr.saturate t) := by
  unfold Arr.saturate
  extract_lets +onlyGivenNames cur from_ arr t1
  have h1 : Rfe.ClipStands k s t1 := h.setArr _
  exact h1.ite _ (h1.ite _ ((h1.put Arr.p _ rfl).raise Arr.p 3))

theorem arrRelease (h : Rfe.ClipStands k s t) (r : Nat) : Rfe.ClipStands k s (Arr.release t r) :=
  ((h.put Arr.p _ rfl).put Arr.p _ rfl).raiseIf _ Arr.p 1

theorem arrSettle (h : Rfe.ClipStands k s t) : Rfe.ClipStands k s (Arr.settle t) := by
  unfold Arr.settle
  refine Rfe.ClipStands.ite _ (h.setArr _) (setArr ?_ _)
  exact h.each fun r _ w hw => hw.arrRelease r

theorem arrHandOver (h : Rfe.ClipStands k s t) : Rfe.ClipStands k s (Arr.handOver t) := by
  have hview : Rfe.ClipStands k s (Arr.changing t) := h.ite _ (h.setArr _)
  have htake := hview.takePage Arr.p
  unfold Arr.handOver
  rcases ht : (Arr.changing t).takePage Arr.p with ⟨v, _ | c⟩
  · exact h
  · rw [ht] at htake
    dsimp -zeta only
    extract_lets +onlyGivenNames cfg old was t1 arr t2
    have h1 : Rfe.ClipStands k s t1 := ((htake.wput _ _ _).logErr _ _ _ _).ite _ htake
    have h2 : Rfe.ClipStands k s t2 := ((h1.setArr { arr with covSeq := 0 }).put Arr.p (f := Arr.COV_STAT_VALID) 0 rfl).ite _ h1
    exact h2.ite _ (h2.setArr _)

end Rfe.ClipStands

end Sys2Proof.Machine
end

section
/-! ## UPDATE_TICK and the obligation (O16; spec/03 R49, R52, R55) -/

namespace Sys2Proof.Machine

/-- The state of an update tick before any chain's period is evaluated: time has run to the tick (R52). -/
def Rfe.tickBegun (s : State) : State := { s.runTo (s.rfLast + 64000) with rfLast := s.rfLast + 64000 }

/-- The periods of chains 0 to `m` − 1 evaluated, chain by chain. -/
def Rfe.endedTo (s : State) (first n : Nat) (skip : Nat → Bool) (c : Nat → ChainIn) : Nat → State
  | 0 => s
  | m + 1 => (Rfe.ended (Rfe.endedTo s first n skip c m) m first n (skip m) (c m)).1

section

variable {k : Fin 4} {s : State} {first n : Nat} {skip : Nat → Bool} {c : Nat → ChainIn}

theorem Rfe.ClipStands.endedTo_before {m : Nat} (hm : m ≤ k.val) : Rfe.ClipStands k s (Rfe.endedTo s first n skip c m) := by
  induction m with
  | zero => exact Rfe.ClipStands.refl k s
  | succ m ih => exact (ih (by omega)).ended_ne (by omega) ..

/-- A disabled chain's clip report stands. -/
theorem Rfe.ClipStands.endedTo_off (hoff : s.en (Rfe.page k.val) = false) (m : Nat) :
    Rfe.ClipStands k s (Rfe.endedTo s first n skip c m) := by
  induction m with
  | zero => exact Rfe.ClipStands.refl k s
  | succ m ih =>
    by_cases hm : m = k.val
    · subst hm
      rwa [Rfe.endedTo, Rfe.ended_off (ih.en.trans hoff)]
    · exact ih.ended_ne hm ..

/-- An enabled chain's clip report is stored when its turn comes, and stands from there on. -/
theorem Rfe.ClipReported.endedTo (hon : s.en (Rfe.page k.val) = true) {m : Nat} (hm : k.val < m) :
    Rfe.ClipReported k (Rfe.clippedOf (c k.val)) s (Rfe.endedTo s first n skip c m) := by
  induction m with
  | zero => omega
  | succ m ih =>
    by_cases hk : m = k.val
    · subst hk
      exact Rfe.ClipReported.ended (Rfe.ClipStands.endedTo_before le_rfl) hon ..
    · exact (ih (by omega)).stands ((Rfe.ClipStands.refl k _).ended_ne hk ..)

end

/-- What follows the evaluation of the four periods leaves every chain's clip report. -/
theorem exec_updateTick {s : State} (hrun : s.running .rf = true) (c0 c1 c2 c3 : ChainIn) :
    ∃ (first n : Nat) (skip : Nat → Bool) (t : State), exec (.updateTick c0 c1 c2 c3) s = .next t ∧ ∀ k : Fin 4,
      Rfe.ClipStands k (Rfe.endedTo (Rfe.tickBegun s) first n skip (fun i => [c0, c1, c2, c3][i]?.getD c0) 4) t := by
  change ∃ first n skip t, execUpdateTick c0 c1 c2 c3 s = .next t ∧ _
  unfold execUpdateTick
  rw [if_neg (by simp [hrun])]
  extract_lets +onlyGivenNames n first t1 t2 g skip
  dsimp -zeta only
  extract_lets +onlyGivenNames decided settled released shown
  refine ⟨first, n, skip, _, rfl, fun k => ?_⟩
  have hdecided : Rfe.ClipStands k _ decided :=
    ((((Rfe.ClipStands.refl k _).decide_ 0 c0 _).decide_ 1 c1 _).decide_ 2 c2 _).decide_ 3 c3 _
  have hsettled : Rfe.ClipStands k _ settled := (((hdecided.settle 0 _ c0 _).settle 1 _ c1 _).settle 2 _ c2 _).settle 3 _ c3 _
  have hreleased : Rfe.ClipStands k _ released := ((hsettled.oscTick (by decide) c0).oscTick (by decide) c1).noteValid
  have hshown : Rfe.ClipStands k _ shown := hreleased.arrSaturate.arrSettle
  exact hshown.ite _ hshown.arrHandOver

/-- Settles O16: the record that SPECTRUM_RECORD leaves, and the clip reports that UPDATE_TICK stores. -/
theorem spectrumAndUpdateTick : Obligations.SpectrumAndUpdateTick := by
  unfold Obligations.SpectrumAndUpdateTick
  constructor
  · intro i done pre post s b dst hen hon hfrozen hrun hclean hseed hgood hlo hhi
    exact exec_spectrumRecord_leaves done pre post rfl hen hon hfrozen hrun hclean.1 hseed hgood hlo hhi
  · intro c0 c1 c2 c3 s hrun
    obtain ⟨first, n, skip, t, hexec, hstands⟩ := exec_updateTick hrun c0 c1 c2 c3
    have hbegun (b : Nat) (f : Fld) : (Rfe.tickBegun s).get b f = s.get b f :=
      State.get_congr (s := Rfe.tickBegun s) (t := s) (State.runTo_regs s _) b f
    have hen (k : Fin 4) : (Rfe.tickBegun s).en (Rfe.page k.val) = s.en (Rfe.page k.val) := congrArg (· != 0) (hbegun _ _)
    have hon (k : Fin 4) (h : s.en (Rfe.page k.val) = true) :
        Rfe.ClipReported k (Rfe.clippedOf [c0, c1, c2, c3][k]) (Rfe.tickBegun s) t := by
      have hinput : [c0, c1, c2, c3][k.val]?.getD c0 = [c0, c1, c2, c3][k] := by
        fin_cases k <;> rfl
      rw [← hinput]
      exact (Rfe.ClipReported.endedTo ((hen k).trans h) k.isLt).stands (hstands k)
    have hoff (k : Fin 4) (h : s.en (Rfe.page k.val) = false) : Rfe.ClipStands k (Rfe.tickBegun s) t :=
      (Rfe.ClipStands.endedTo_off ((hen k).trans h) 4).trans (hstands k)
    have hframe : t.rfLast = (Rfe.tickBegun s).rfLast ∧ t.mem = (Rfe.tickBegun s).mem ∧ t.base = (Rfe.tickBegun s).base := by
      cases h : s.en (Rfe.page (0 : Fin 4).val) with
      | false => exact ⟨(hoff 0 h).rfLast, (hoff 0 h).mem, (hoff 0 h).base⟩
      | true => exact ⟨(hon 0 h).rfLast, (hon 0 h).mem, (hon 0 h).base⟩
    obtain ⟨hlast, hmem, hbase⟩ := hframe
    refine ⟨t, hexec, hlast, hmem.trans (State.runTo_mem s _), hbase, fun k => ⟨fun h => ?_, fun h => ?_⟩⟩
    · exact ⟨(hon k h).count, (hon k h).clip⟩
    · exact (hoff k h).count.trans (hbegun _ _)

end Sys2Proof.Machine
end

section
/-! ## What the acquisition unit may leave (O18 to O20; spec/04)

A frame for captures and jobs, carried along update by update; device reads where memory is clean; the bytes of a record written; and
the route of a write to an ACQ register. -/

namespace Sys2Proof.Machine

/-- From `s` to `t` at most the register words `ws`, memory and the caches over it, the count of free values, and what the
acquisition unit holds have changed. -/
structure Acq.Only (s t : State) (ws : List Nat) : Prop where
  rest : t = { s with regs := t.regs, fresh := t.fresh, mem := t.mem, dcache := t.dcache, snap := t.snap, tags := t.tags, jobs := t.jobs }
  reg : ∀ a ∉ ws, t.reg a = s.reg a

/-- Replace the capture in progress. -/
def State.setSnap (s : State) (c : Option Snap) : State := { s with snap := c }

@[simp] theorem State.setSnap_snap (s : State) (c : Option Snap) : (s.setSnap c).snap = c := rfl
@[simp] theorem State.setSnap_tags (s : State) (c : Option Snap) : (s.setSnap c).tags = s.tags := rfl
@[simp] theorem State.setSnap_mem (s : State) (c : Option Snap) : (s.setSnap c).mem = s.mem := rfl

namespace Acq.Only

variable {s t u : State} {ws : List Nat}

theorem refl (s : State) (ws : List Nat) : Acq.Only s s ws := ⟨rfl, fun _ _ => rfl⟩

theorem trans (h : Acq.Only s t ws) (h' : Acq.Only t u ws) : Acq.Only s u ws :=
  ⟨by rw [h'.rest, h.rest], fun a ha => (h'.reg a ha).trans (h.reg a ha)⟩

theorem mono {vs : List Nat} (h : Acq.Only s t ws) (hs : ∀ a ∈ ws, a ∈ vs) : Acq.Only s t vs :=
  ⟨h.rest, fun a ha => h.reg a (fun hm => ha (hs a hm))⟩

/-! ### What stands -/

theorem cores (h : Acq.Only s t ws) : t.cores = s.cores := by rw [h.rest]
theorem eccBad (h : Acq.Only s t ws) : t.eccBad = s.eccBad := by rw [h.rest]
theorem base (h : Acq.Only s t ws) : t.base = s.base := by rw [h.rest]
theorem acts (h : Acq.Only s t ws) : t.acts = s.acts := by rw [h.rest]
theorem work (h : Acq.Only s t ws) : t.work = s.work := by rw [h.rest]

theorem quiet (h : Acq.Only s t ws) (hq : s.Quiet) : t.Quiet := fun c => by
  unfold State.core
  rw [h.cores]
  exact hq c

theorem clean (h : Acq.Only s t ws) (hc : s.Clean) : t.Clean := by
  rw [h.rest]
  exact hc

/-- A field of one word that is not among those that may change. -/
theorem get (h : Acq.Only s t ws) {b : Nat} {f : Fld} (hf : f.words = 1) (hn : b + f.off ∉ ws) : t.get b f = s.get b f :=
  State.get_of_reg hf (h.reg _ hn)

/-! ### One more update -/

theorem put (h : Acq.Only s t ws) (b : Nat) (f : Fld) (v : Nat) (hf : f.words = 1) (hw : b + f.off ∈ ws) :
    Acq.Only s (t.put b f v) ws := by
  refine h.trans ⟨?_, fun a ha => (State.RegsOnly.put t b f v hf).2 a ?_⟩
  · rw [State.put_only]
  · rw [List.mem_singleton]
    rintro rfl
    exact ha hw

theorem raise (h : Acq.Only s t ws) (p n : Nat) (hw : pg p + 0x014 ∈ ws) : Acq.Only s (t.raise p n) ws := h.put _ _ _ rfl hw

theorem raiseIf (h : Acq.Only s t ws) (c : Bool) (p n : Nat) (hw : pg p + 0x014 ∈ ws) : Acq.Only s (t.raiseIf c p n) ws := by
  cases c with
  | false => exact h
  | true => exact h.raise p n hw

theorem put8 (h : Acq.Only s t ws) (hecc : s.eccBad = []) (a : Nat) (l : List Nat) : Acq.Only s (t.put8 a l) ws := by
  refine h.trans ?_
  rw [State.put8_only (h.eccBad.trans hecc)]
  exact ⟨rfl, fun _ _ => rfl⟩

theorem draw (h : Acq.Only s t ws) (n : Nat) : Acq.Only s (t.draw n).2 ws := h.trans ⟨rfl, fun _ _ => rfl⟩

theorem setJob (h : Acq.Only s t ws) (e : Nat) (j : Option Job) : Acq.Only s (t.setJob e j) ws := h.trans ⟨rfl, fun _ _ => rfl⟩

theorem setTag (h : Acq.Only s t ws) (k : Nat) (x : Tag) : Acq.Only s (t.setTag k x) ws := h.trans ⟨rfl, fun _ _ => rfl⟩

theorem setSnap (h : Acq.Only s t ws) (c : Option Snap) : Acq.Only s (t.setSnap c) ws := h.trans ⟨rfl, fun _ _ => rfl⟩

theorem ite (h : Acq.Only s t ws) (c : Prop) [Decidable c] (h' : Acq.Only s u ws) : Acq.Only s (if c then t else u) ws := by
  split
  · exact h
  · exact h'

theorem each {α : Type} (h : Acq.Only s t ws) (l : List α) (f : State → α → State)
    (hf : ∀ u x, Acq.Only s u ws → Acq.Only s (f u x) ws) : Acq.Only s (t.each l f) ws :=
  State.each_inv (fun u => Acq.Only s u ws) l f hf t h

end Acq.Only

/-! ### Device reads of clean memory (R269, R334) -/

theorem State.drainLine_empty {s : State} {c : Nat} (h : s.wb c = []) (line : Nat) : s.drainLine c line = s := by
  simp [State.drainLine, h]

theorem State.probe_clean {s : State} (h : s.Clean) (a n : Nat) : s.probe a n = s :=
  State.each_eq_self fun c hc => State.each_eq_self fun l _ => State.drainLine_empty (h.2 ⟨c, List.mem_range.1 hc⟩) l

theorem State.eccRead_clean {s : State} (h : s.eccBad = []) (a n : Nat) : s.eccRead a n = (s, true) := by
  have hword (w : Nat) : s.eccOf w = none := by simp [State.eccOf, h]
  unfold State.eccRead
  generalize ecwOf a n = l
  induction l with
  | nil => rfl
  | cons w l ih => rw [List.foldl_cons]; simp only [hword]; exact ih

theorem State.devRead_clean_sram {s : State} (h : s.Clean) {a n : Nat} (hr : rangeFor a n = .sram) :
    s.devRead a n = (s, some (s.bytesAt a n)) := by
  unfold State.devRead
  rw [hr]
  simp only [State.probe_clean h, State.eccRead_clean h.1, if_true]

/-- A read of clean memory leaves the state, wherever it goes. -/
theorem State.devRead_clean {s : State} (h : s.Clean) (a n : Nat) : (s.devRead a n).1 = s := by
  unfold State.devRead
  split
  · simp only [State.probe_clean h, State.eccRead_clean h.1]
  all_goals rfl

/-! ### Records in memory -/

@[simp] theorem State.put8_tags {s : State} (h : s.eccBad = []) (a : Nat) (l : List Nat) : (s.put8 a l).tags = s.tags := by
  rw [State.put8_only h]

/-- A block's write leaves the bytes outside it. -/
theorem State.byte_put8_outside (s : State) {a : Nat} {l : List Nat} {x : Nat} (h : x < a ∨ a + l.length ≤ x) :
    (s.put8 a l).byte x = s.byte x := by
  have hstore : (s.store none a l).byte x = s.byte x := (State.byte_store s none a l x).trans (if_neg (by omega))
  unfold State.put8 State.blockWrite
  split
  · exact hstore
  · exact hstore
  · rfl

theorem leNat_map_mod (l : List Nat) : leNat (l.map (· % 256)) = leNat l := by
  induction l with
  | nil => rfl
  | cons b t ih => simp [leNat, ih]

theorem leNat_leBytes (n v : Nat) : leNat (leBytes n v) = v % 256 ^ n := by
  induction n generalizing v with
  | zero => simp [leBytes, leNat, Nat.mod_one]
  | succ n ih => rw [leBytes, leNat, ih, Nat.mod_mod, Nat.pow_succ', Nat.mod_mul]

/-- A number in the bytes that a block has just written to shared SRAM. -/
theorem State.numAt_put8 (s : State) {a : Nat} {l : List Nat} {o n : Nat} (hlo : 0x10000000 ≤ a) (hhi : a + l.length ≤ 0x12000000)
    (hn : 0 < n) (ho : o + n ≤ l.length) : (s.put8 a l).numAt (a + o) n = leNat ((l.drop o).take n) := by
  rw [← leNat_map_mod]
  unfold State.numAt State.bytesAt
  congr 1
  refine List.ext_getElem (by simp; omega) fun i h1 h2 => ?_
  have hi : i < n := by simpa using h1
  have hget : l[a + o + i - a]? = some l[o + i] := by
    rw [show a + o + i - a = o + i by omega]
    exact List.getElem?_eq_getElem (by omega)
  simp only [List.getElem_map, List.getElem_range, List.getElem_take, List.getElem_drop]
  rw [State.byte_put8_sram s hlo (by omega) hhi, if_pos (by omega), hget, BitVec.toNat_ofNat]
  rfl

/-- Elsewhere numbers read as before. -/
theorem State.numAt_put8_outside (s : State) {a : Nat} {l : List Nat} {x n : Nat} (h : x + n ≤ a ∨ a + l.length ≤ x) :
    (s.put8 a l).numAt x n = s.numAt x n := by
  unfold State.numAt State.bytesAt
  congr 1
  refine List.map_congr_left fun i hi => ?_
  have := List.mem_range.1 hi
  rw [State.byte_put8_outside s (by omega)]

theorem State.numAt_congr {s t : State} (h : s.mem = t.mem) (x n : Nat) : s.numAt x n = t.numAt x n := by
  unfold State.numAt State.bytesAt
  simp only [State.byte_congr h]

/-! ### Writes to an ACQ register -/

@[simp] theorem State.answered_snap (s : State) (req : Req) (l : List Word) : (s.answered req l).snap = s.snap := rfl
@[simp] theorem State.answered_base (s : State) (req : Req) (l : List Word) : (s.answered req l).base = s.base := rfl
@[simp] theorem State.answered_tag (s : State) (req : Req) (l : List Word) (k : Nat) : (s.answered req l).tag k = s.tag k := rfl
@[simp] theorem State.answered_job (s : State) (req : Req) (l : List Word) (e : Nat) : (s.answered req l).job e = s.job e := rfl

/-- The pages of the two engines are pages of their own. -/
theorem Acq.page_listed : ∀ e : Fin 2, pageInfo (Acq.p e.val) = some (.acq, e.val) ∧ ownerPage (Acq.p e.val) = Acq.p e.val := by
  decide

/-- A write of an ACQ register that the unit acts on, from the command to the unit's effect `t`. -/
theorem Cmd.write_acq {s t : State} {req : Req} {e : Fin 2} {off v : Nat} {ws : List Nat} (hq : s.Quiet)
    (hw : s.Writable req (Acq.p e.val)) (ho : 0x040 ≤ off ∧ off < 0x1000 ∧ off % 4 = 0)
    (hf : Bus.fields .acq e.val off ≠ [] ∧ (Bus.fields .acq e.val off).all (fun f => f.acc == .rd) = false)
    (ht : Acq.write s req.code e.val off (v % 2 ^ 32) (Bus.store req.code (Acq.p e.val) (Acq.b e.val + off)
      (Bus.fields .acq e.val off) (v % 2 ^ 32)) = t) (honly : Acq.Only s t ws) (hn : Acq.b e.val + 0x024 ∉ ws) :
    Cmd.write s req (Acq.b e.val + off) v = .next (t.answered req []) := by
  obtain ⟨hinfo, howner⟩ := Acq.page_listed e
  have hblock : Bus.putBlock s req.code (Acq.p e.val) .acq e.val off (v % 2 ^ 32) = t := by
    rw [Bus.putBlock_hook hw.2 hf.1 hf.2, howner]
    exact ht
  have hput : Bus.put s req.code (Acq.p e.val) .acq e.val off (v % 2 ^ 32) = t := by
    have hown : (hasHeader .acq && decide (off < 0x040)) = false := by simp; omega
    rw [Bus.put_eq] <;> rw [hown] <;> simp only [Bool.false_eq_true, if_false, hblock, howner]
    exact (honly.get (b := Acq.b e.val) (f := H.COUNT) rfl hn).le
  have hquiet : (Bus.put s req.code (Acq.p e.val) .acq e.val off (v % 2 ^ 32)).Quiet := by
    rw [hput]
    exact honly.quiet hq
  exact (Cmd.write_reg hw.1 hinfo ho.2.1 ho.2.2 hquiet).trans (by rw [hput])

end Sys2Proof.Machine
end

section
/-! ## Capture triggers and stops (O18; spec/04 R84 to R88) -/

namespace Sys2Proof.Machine

/-! ### Tags of blocks (R84) -/

theorem State.tag_setTag (s : State) (k : Nat) (x : Tag) (j : Nat) : (s.setTag k x).tag j = if j = k then x else s.tag j :=
  Tab.get_set _ _ _ _ _

theorem State.tag_congr {s t : State} (h : s.tags = t.tags) (k : Nat) : s.tag k = t.tag k := by
  unfold State.tag
  rw [h]

/-- The blocks that the capture `c` claims: those of its header and samples. -/
def Snap.blocks (c : Snap) : List Nat :=
  (List.range ((64 + chainCount c.chains * c.len * 2048 + 0xFFFF) / 0x10000)).map (c.ofs + ·)

/-- Every block of the capture `c` carries its tag. -/
def Snap.tagBlocks (s : State) (c : Snap) (writing : Bool) : State := s.each c.blocks (fun s k => s.setTag k ⟨c.seq, writing, c.len⟩)

theorem Snap.ofs_mem_blocks (c : Snap) : c.ofs ∈ c.blocks :=
  List.mem_map.2 ⟨0, List.mem_range.2 (by omega), rfl⟩

theorem State.tag_each_of_mem {l : List Nat} {x : Tag} {k : Nat} (s : State) (h : k ∈ l ∨ s.tag k = x) :
    (s.each l (fun s j => s.setTag j x)).tag k = x := by
  unfold State.each
  induction l generalizing s with
  | nil => exact h.resolve_left List.not_mem_nil
  | cons j l ih =>
    refine ih _ ?_
    by_cases hk : k = j
    · exact Or.inr (by rw [State.tag_setTag, if_pos hk])
    · rw [State.tag_setTag, if_neg hk]
      exact h.imp_left fun hm => (List.mem_cons.1 hm).resolve_left hk

theorem Snap.tag_tagBlocks (s : State) (c : Snap) (writing : Bool) :
    (Snap.tagBlocks s c writing).tag c.ofs = ⟨c.seq, writing, c.len⟩ :=
  State.tag_each_of_mem s (Or.inl c.ofs_mem_blocks)

theorem Acq.Only.tagBlocks {s t : State} {ws : List Nat} (h : Acq.Only s t ws) (c : Snap) (writing : Bool) :
    Acq.Only s (Snap.tagBlocks t c writing) ws := h.each _ _ (fun _ _ hu => hu.setTag _ _)

/-! ### A trigger that starts a capture (R85 to R87) -/

/-- The state in which the capture `c` has begun: its blocks claimed, MAGIC cleared, SNAP_STAT as it shows. -/
def Acq.begun (s : State) (c : Snap) : State :=
  ((((Snap.tagBlocks s c true).put8 (c.base + c.ofs * 0x10000) [0, 0]).setSnap (some c)).put (Acq.b 0)
    Acq.SNAP_STAT_SEQ c.seq).put (Acq.b 0) Acq.SNAP_STAT_STATE (if c.ring then 2 else 1)

theorem Acq.begun_only {s : State} (hecc : s.eccBad = []) (c : Snap) : Acq.Only s (Acq.begun s c) [Acq.b 0 + 0x04C] :=
  ((((((Acq.Only.refl s _).tagBlocks c true).put8 hecc _ _).setSnap (some c)).put _ Acq.SNAP_STAT_SEQ _ rfl
    (by simp [Acq.SNAP_STAT_SEQ])).put _ Acq.SNAP_STAT_STATE _ rfl (by simp [Acq.SNAP_STAT_STATE]))

theorem Acq.begun_snap (s : State) (c : Snap) : (Acq.begun s c).snap = some c := by
  simp [Acq.begun]

theorem Acq.begun_tag {s : State} (hecc : s.eccBad = []) (c : Snap) : (Acq.begun s c).tag c.ofs = ⟨c.seq, true, c.len⟩ := by
  have htagged : (Snap.tagBlocks s c true).eccBad = [] := ((Acq.Only.refl s []).tagBlocks c true).eccBad.trans hecc
  have htags : (Acq.begun s c).tags = (Snap.tagBlocks s c true).tags := by
    rw [Acq.begun, State.put_tags, State.put_tags, State.setSnap_tags, State.put8_tags htagged]
  rw [State.tag_congr htags, Snap.tag_tagBlocks]

/-- SNAP_STAT shows the capture's number and STATE. -/
theorem Acq.begun_stat (s : State) {c : Snap} (hseq : c.seq < 2 ^ 16) :
    (Acq.begun s c).get (Acq.b 0) Acq.SNAP_STAT_SEQ = c.seq ∧
      (Acq.begun s c).get (Acq.b 0) Acq.SNAP_STAT_STATE = (if c.ring then 2 else 1) := by
  constructor
  · rw [Acq.begun, State.get_put_apart _ _ _ (by decide), State.get_put_same]
    exact Nat.mod_eq_of_lt hseq
  · rw [Acq.begun, State.get_put_same]
    cases c.ring <;> rfl

/-- The capture `c` is the one that a trigger with first sample `first` starts in the state `s`: the next number, and the settings
in force. -/
structure Snap.Triggered (s : State) (first : Nat) (late : Bool) (c : Snap) : Prop where
  seq : c.seq = if s.get (Acq.b 0) Acq.SNAP_STAT_SEQ = 65535 then 1 else s.get (Acq.b 0) Acq.SNAP_STAT_SEQ + 1
  chains : c.chains = s.wget (Acq.b 0) Acq.SNAP_CFG_CHAINS
  ofs : c.ofs = s.wget (Acq.b 0) Acq.SNAP_CFG_OFS
  len : c.len = s.wget (Acq.b 0) Acq.SNAP_CFG_LEN
  ring : c.ring = s.wflag (Acq.b 0) Acq.SNAP_CFG_RING
  first : c.first = first
  stop : c.stop = none
  late : c.late = late

theorem Snap.Triggered.seq_lt {s : State} {first : Nat} {late : Bool} {c : Snap} (h : Snap.Triggered s first late c) :
    c.seq < 2 ^ 16 := by
  have hlt : s.get (Acq.b 0) Acq.SNAP_STAT_SEQ < 2 ^ 16 := State.get_lt _ _ _
  rw [h.seq]
  split <;> omega

/-- It is the same where registers and working words are. -/
theorem Snap.Triggered.congr {s t : State} {first : Nat} {late : Bool} {c : Snap} (h : Snap.Triggered s first late c)
    (hregs : s.regs = t.regs) (hwork : s.work = t.work) : Snap.Triggered t first late c where
  seq := by rw [h.seq, State.get_congr hregs]
  chains := by rw [h.chains, State.wget_congr hwork]
  ofs := by rw [h.ofs, State.wget_congr hwork]
  len := by rw [h.len, State.wget_congr hwork]
  ring := by rw [h.ring, State.wflag_congr hwork]
  first := h.first
  stop := h.stop
  late := h.late

theorem State.takePage_none {s : State} {p : Nat} (h : s.armedAt (pg p + 0x02C) = none) : s.takePage p = (s, none) := by
  unfold State.takePage
  rw [h]

/-- A trigger that is free to start a capture starts it. -/
theorem Acq.trigger_free {s : State} (h : Acq.Free s) (hecc : s.eccBad = []) (req first : Nat) (late : Bool) :
    ∃ c, Acq.trigger s req first late = Acq.begun s c ∧ Snap.Triggered s first late c := by
  obtain ⟨hen, hfrozen, hsnap, harmed, hjob0, hjob1, hchains, hroom⟩ := h
  have htake : (s.takePage (Acq.p 0)).1 = s := congrArg Prod.fst (State.takePage_none harmed)
  have hen' : s.en (Acq.p 0) = true := hen
  have hfrozen' : s.frozen (Acq.p 0) = false := hfrozen
  unfold Acq.trigger
  rw [if_neg (by simp [hfrozen']), if_neg (by simp [hen']), if_neg (by simp [hsnap]), htake]
  extract_lets +onlyGivenNames b s' chains len ofs bytes
  rw [if_neg (by simp only [not_or, not_lt]; exact ⟨hchains, hroom⟩)]
  extract_lets +onlyGivenNames q seq blocks hit
  rw [State.each_eq_self (l := [0, 1]) ?_]
  · extract_lets +onlyGivenNames s1 s2 base s3 gains ring c
    have hring : ring = s.wflag (Acq.b 0) Acq.SNAP_CFG_RING :=
      State.wflag_congr (((Acq.Only.refl s []).tagBlocks c true).put8 hecc _ _).work _ _
    have hset : { s3 with snap := some c } = s3.setSnap (some c) := rfl
    rw [hset]
    exact ⟨c, rfl, rfl, rfl, rfl, rfl, hring, rfl, rfl, rfl⟩
  · intro e he
    rcases List.mem_pair.1 he with rfl | rfl
    · simp [s', hjob0]
    · simp [s', hjob1]

/-- A new capture record, then one field of one word stored: no other word or part of the state moves. -/
theorem State.setSnap_put_frame (s : State) (c : Option Snap) {b : Nat} {f : Fld} {v : Nat} (hf : f.words = 1) :
    ((s.setSnap c).put b f v).snap = c ∧ ((s.setSnap c).put b f v).get b f = v % 2 ^ f.w ∧
      (s.setSnap c).put b f v = { s with snap := c, regs := ((s.setSnap c).put b f v).regs } ∧
      ∀ a, a ≠ b + f.off → ((s.setSnap c).put b f v).reg a = s.reg a := by
  refine ⟨?_, State.get_put_same _ _ _ _, ?_, fun a ha => ?_⟩
  · rw [State.put_snap, State.setSnap_snap]
  · rw [State.put_only]
    rfl
  · exact (State.RegsOnly.put (s.setSnap c) b f v hf).2 a (by simpa using ha)

/-! ### SNAP_START and SNAP_STOP -/

theorem exec_snapStart (req : Req) (s : State) : exec (.snapStart req) s = Cmd.write s req (Acq.b 0 + 0x048) 1 := rfl

theorem exec_snapStop (req : Req) (s : State) : exec (.snapStop req) s = Cmd.write s req (Acq.b 0 + 0x048) 2 := rfl

/-- SNAP_CMD's pulses START and STOP (R85, R88). -/
theorem Acq.write_snapCmd (s : State) (req e v : Nat) (store : State → State) :
    Acq.write s req e 0x048 v store =
      if v.testBit 1 then Snap.stopNow (if v.testBit 0 then Acq.start s req else s)
      else if v.testBit 0 then Acq.start s req else s := by
  simp [Acq.write]

/-- A write of SNAP_CMD to ACQ 0, from the command to its effect `t`. -/
theorem Cmd.write_snapCmd {s t : State} {req : Req} {v : Nat} (hq : s.Quiet) (hw : s.Writable req 0x020)
    (ht : (if (v % 2 ^ 32).testBit 1 then Snap.stopNow (if (v % 2 ^ 32).testBit 0 then Acq.start s req.code else s)
      else if (v % 2 ^ 32).testBit 0 then Acq.start s req.code else s) = t) (honly : Acq.Only s t [Acq.b 0 + 0x04C]) :
    Cmd.write s req (Acq.b 0 + 0x048) v = .next (t.answered req []) :=
  Cmd.write_acq (e := 0) hq hw (by decide) (by decide) ((Acq.write_snapCmd _ _ _ _ _).trans ht) honly (by simp)

theorem exec_snapStart_free {s : State} {req : Req} (hq : s.Quiet) (hc : s.Clean) (hw : s.Writable req 0x020) (hf : Acq.Free s) :
    ∃ c, exec (.snapStart req) s = .next ((Acq.begun s c).answered req []) ∧
      Snap.Triggered s (s.sampleAt s.now) false c := by
  obtain ⟨c, hbegun, htrig⟩ := Acq.trigger_free hf hc.1 req.code (s.sampleAt s.now) false
  exact ⟨c, (exec_snapStart req s).trans (Cmd.write_snapCmd hq hw hbegun (Acq.begun_only hc.1 c)), htrig⟩

/-- A stop ends a one-shot capture after the samples it has taken, TRUNCATED (R88). -/
theorem Snap.stopNow_oneShot {s : State} {c : Snap} (hs : s.snap = some c) (hstop : c.stop = none) (hring : c.ring = false) :
    Snap.stopNow s = s.setSnap (some { c with stop := some (min (Snap.taken s c) (c.len * 1024)), trunc := true }) := by
  simp [Snap.stopNow, hs, hstop, hring, State.setSnap]

/-- A stop lets a full ring take LEN × 512 samples more (R88). -/
theorem Snap.stopNow_fullRing {s : State} {c : Snap} (hs : s.snap = some c) (hstop : c.stop = none) (hring : c.ring = true)
    (hfull : c.len * 1024 ≤ Snap.taken s c) :
    Snap.stopNow s = (s.setSnap (some { c with stop := some (Snap.taken s c + c.len * 512) })).put (Acq.b 0)
      Acq.SNAP_STAT_STATE 3 := by
  simp [Snap.stopNow, hs, hstop, hring, hfull, State.setSnap, Acq.b, Acq.p]

/-! ### SNAP_CAPTURE -/

theorem exec_snapCapture (fire : BitVec 64) (late : Bool) (s : State) :
    exec (.snapCapture fire late) s = execSnapCapture fire late s := rfl

/-- SNAP_CAPTURE that names another action than the next one dispatched carries out nothing. -/
theorem exec_snapCapture_other {s : State} {x : Action} {fire : BitVec 64} {late : Bool}
    (hx : s.acts.find? (fun y => y.act == 5) = some x) (hn : x.fire ≠ fire.toNat ∨ x.late ≠ late) :
    exec (.snapCapture fire late) s = .next s := by
  have hnamed : (x.fire == fire.toNat && x.late == late) = false := by
    rcases hn with h | h <;> simp [h]
  rw [exec_snapCapture]
  unfold execSnapCapture State.takeAct
  simp only [hx, hnamed, Bool.false_eq_true, if_false, ite_self]

theorem State.runTo_base_acts (s : State) (acts : List Action) (t : Nat) :
    ({ s with acts := acts }.runTo t).base = (s.runTo t).base := by
  unfold State.runTo State.now
  split <;> rfl

/-- Neither a dispatched action taken nor time run on changes what makes a trigger free. -/
theorem Acq.Free.later {s : State} (h : Acq.Free s) (acts : List Action) (t : Nat) :
    Acq.Free ({ s with acts := acts }.runTo t) := by
  rw [State.runTo_only]
  exact h

/-- SNAP_CAPTURE that names the next action starts its capture at its instant (R85). -/
theorem exec_snapCapture_free {s : State} {x : Action} (hr : s.running .acq = true) (hc : s.Clean) (hf : Acq.Free s)
    {fire : BitVec 64} {late : Bool} (hx : s.acts.find? (fun y => y.act == 5) = some x) (hfire : x.fire = fire.toNat)
    (hlate : x.late = late) :
    ∃ c, exec (.snapCapture fire late) s = .next (Acq.begun ({ s with acts := s.acts.erase x }.runTo x.fire) c) ∧
      Snap.Triggered s (s.sampleAt x.fire) x.late c := by
  have hecc : ({ s with acts := s.acts.erase x }.runTo x.fire).eccBad = [] := by
    rw [State.runTo_only]
    exact hc.1
  obtain ⟨c, hbegun, htrig⟩ := Acq.trigger_free (hf.later (s.acts.erase x) x.fire) hecc 8 (s.sampleAt x.fire) x.late
  refine ⟨c, ?_, htrig.congr (State.runTo_regs _ _) (State.runTo_work _ _)⟩
  have hnamed : (x.fire == fire.toNat && x.late == late) = true := by simp [hfire, hlate]
  have hfrozen : { s with acts := s.acts.erase x }.frozen (Acq.p 0) = false := hf.2.1
  rw [exec_snapCapture, ← hbegun]
  unfold execSnapCapture State.takeAct Acq.action
  simp only [hr, hx, hnamed, hfrozen, Bool.not_true, Bool.false_eq_true, if_false, if_true]
  rfl

/-- Settles O18: the capture that each trigger begins, and the two ways in which SNAP_STOP ends one. -/
theorem snapshotTriggers : Obligations.SnapshotTriggers := by
  unfold Obligations.SnapshotTriggers
  refine ⟨fun req s hq hc hw hf => ?_, fun x fire late s hr hx => ⟨exec_snapCapture_other hx, fun hc hf hfire hlate => ?_⟩,
    fun req c s hq hw hs hstop => ⟨fun hring => ?_, fun hring hfull => ?_⟩⟩
  · obtain ⟨c, hexec, h⟩ := exec_snapStart_free hq hc hw hf
    obtain ⟨hseq, hstate⟩ := Acq.begun_stat s h.seq_lt
    refine ⟨_, c, hexec, ?_, h.seq, h.chains, h.len, h.ring, h.first, h.stop, h.late, ?_, ?_, ?_, ?_⟩
    · rw [State.answered_snap, Acq.begun_snap]
    · rw [State.get_answered_req, hseq]
    · rw [State.get_answered_req, hstate, h.ring]
    · rw [State.answered_tag, ← h.ofs, Acq.begun_tag hc.1]
    · rw [State.answered_base, (Acq.begun_only hc.1 c).base]
  · obtain ⟨c, hexec, h⟩ := exec_snapCapture_free hr hc hf hx hfire hlate
    have honly : Acq.Only ({ s with acts := s.acts.erase x }.runTo x.fire) (Acq.begun _ c) _ :=
      Acq.begun_only (by rw [State.runTo_only]; exact hc.1) c
    refine ⟨_, c, hexec, Acq.begun_snap _ c, h.seq, h.chains, h.late, h.stop, h.first, ?_, ?_, (Acq.begun_stat _ h.seq_lt).1⟩
    · rw [honly.base, State.runTo_base_acts]
    · rw [honly.acts, State.runTo_only]
  · have hstopped := Snap.stopNow_oneShot hs hstop hring
    exact (exec_snapStop req s).trans (Cmd.write_snapCmd hq hw hstopped ((Acq.Only.refl s _).setSnap _))
  · obtain ⟨hsnap, hstate, honly, hreg⟩ := State.setSnap_put_frame s
      (some { c with stop := some (Snap.taken s c + c.len * 512) }) (b := Acq.b 0) (f := Acq.SNAP_STAT_STATE) (v := 3) rfl
    have hstopped := Snap.stopNow_fullRing hs hstop hring hfull
    refine ⟨_, (exec_snapStop req s).trans (Cmd.write_snapCmd hq hw hstopped
      (((Acq.Only.refl s _).setSnap _).put _ Acq.SNAP_STAT_STATE _ rfl (by simp [Acq.SNAP_STAT_STATE]))), ?_, ?_, ?_, hreg⟩
    · rw [State.answered_snap, hsnap]
    · rw [State.get_answered_req, hstate]
      rfl
    · rw [honly]
      rfl

end Sys2Proof.Machine
end

section
/-! ## The end of a job, and a flush (O20; spec/04 R94 to R97)

`Acq.finish` draws free values and writes the result to memory first; what it then does to the registers and the record of the job is
told by `Acq.popped`, `Acq.idled` and `Acq.jobEvents`. -/

namespace Sys2Proof.Machine

/-! ### The record of a job -/

theorem State.job_setJob_same (s : State) {e : Nat} (he : e < 2) (j : Option Job) : (s.setJob e j).job e = j := by
  simp [State.job, State.setJob, he]

theorem State.job_setJob_none (s : State) (e : Nat) : (s.setJob e none).job e = none := by
  by_cases he : e < 2
  · exact State.job_setJob_same s he none
  · simp [State.job, State.setJob, he]

@[simp] theorem State.job_put (s : State) (b : Nat) (f : Fld) (v e : Nat) : (s.put b f v).job e = s.job e := by
  simp [State.job]

@[simp] theorem State.job_raiseIf (s : State) (c : Bool) (p n e : Nat) : (s.raiseIf c p n).job e = s.job e := by
  cases c with
  | false => rfl
  | true => exact State.job_put _ _ _ _ _

theorem State.get_setJob (s : State) (e : Nat) (j : Option Job) (b : Nat) (f : Fld) : (s.setJob e j).get b f = s.get b f :=
  State.get_congr (s := s.setJob e j) (t := s) rfl b f

/-! ### What the end of a job does to the registers -/

/-- Q_HEAD moves past a job that no FLUSH has passed (R95, R97). -/
def Acq.popped (s : State) (e : Nat) (flushed : Bool) : State :=
  if flushed then s else s.put (Acq.b e) Acq.Q_HEAD_HEAD (s.get (Acq.b e) Acq.Q_HEAD_HEAD + 1)

/-- The engine shows that no job runs, and the clocks of the last. -/
def Acq.idled (s : State) (e cyc : Nat) : State :=
  (((s.put (Acq.b e) Acq.ENG_STAT_RUNNING 0).put (Acq.b e) Acq.ENG_STAT_INTERRUPTED 0).put (Acq.b e) Acq.ENG_CYC_CYCLES cyc).setJob
    e none

/-- The events at the end of the job `j` (R96). -/
def Acq.jobEvents (s : State) (e : Nat) (j : Job) (status : Nat) : State :=
  let s := if 0x10 ≤ status then s.raise (Acq.p e) 1 else s.raiseIf ((Desc.of j.desc).opts.testBit 0) (Acq.p e) 0
  s.raiseIf (!j.flushed && Acq.queued s e == 0) (Acq.p e) 2

/-- The words that show the state of an engine's job and its events. -/
def Acq.jobWords (e : Nat) : List Nat := [Acq.b e + 0x070, Acq.b e + 0x074, Acq.b e + 0x014]

/-- The words that the end of a job may change. -/
def Acq.endWords (e : Nat) (flushed : Bool) : List Nat := if flushed then Acq.jobWords e else (Acq.b e + 0x068) :: Acq.jobWords e

theorem Acq.irq_mem_jobWords (e : Nat) : pg (Acq.p e) + 0x014 ∈ Acq.jobWords e := by
  simp [Acq.jobWords, Acq.b]

theorem Acq.jobWords_subset (e : Nat) (flushed : Bool) : ∀ a ∈ Acq.jobWords e, a ∈ Acq.endWords e flushed := by
  intro a ha
  cases flushed with
  | false => exact List.mem_cons_of_mem _ ha
  | true => exact ha

theorem Acq.popped_only (s : State) (e : Nat) (flushed : Bool) : Acq.Only s (Acq.popped s e flushed) (Acq.endWords e flushed) := by
  cases flushed with
  | false => exact (Acq.Only.refl s _).put _ Acq.Q_HEAD_HEAD _ rfl List.mem_cons_self
  | true => exact Acq.Only.refl s _

theorem Acq.idled_only (s : State) (e cyc : Nat) : Acq.Only s (Acq.idled s e cyc) (Acq.jobWords e) :=
  ((((Acq.Only.refl s _).put _ Acq.ENG_STAT_RUNNING _ rfl (by simp [Acq.jobWords, Acq.ENG_STAT_RUNNING])).put _
    Acq.ENG_STAT_INTERRUPTED _ rfl (by simp [Acq.jobWords, Acq.ENG_STAT_INTERRUPTED])).put _ Acq.ENG_CYC_CYCLES _ rfl
    (by simp [Acq.jobWords, Acq.ENG_CYC_CYCLES])).setJob e none

theorem Acq.idled_running (s : State) (e cyc : Nat) : (Acq.idled s e cyc).flag (Acq.b e) Acq.ENG_STAT_RUNNING = false := by
  rw [State.flag, Acq.idled, State.get_setJob, State.get_put_apart _ _ _ (by decide), State.get_put_apart _ _ _ (by decide),
    State.get_put_same]
  rfl

/-- The first of a job's events: an error, or the end that the job asks to be told. -/
theorem Acq.jobEvents_eq (s : State) (e : Nat) (j : Job) (status : Nat) :
    ∃ c n d, Acq.jobEvents s e j status = (s.raiseIf c (Acq.p e) n).raiseIf d (Acq.p e) 2 := by
  unfold Acq.jobEvents
  split
  · exact ⟨true, 1, _, rfl⟩
  · exact ⟨_, 0, _, rfl⟩

theorem Acq.jobEvents_only (s : State) (e : Nat) (j : Job) (status : Nat) :
    Acq.Only s (Acq.jobEvents s e j status) [pg (Acq.p e) + 0x014] := by
  obtain ⟨c, n, d, h⟩ := Acq.jobEvents_eq s e j status
  rw [h]
  exact ((Acq.Only.refl s _).raiseIf c _ n List.mem_cons_self).raiseIf d _ 2 List.mem_cons_self

theorem Acq.jobEvents_job (s : State) (e : Nat) (j : Job) (status : Nat) : (Acq.jobEvents s e j status).job e = s.job e := by
  obtain ⟨c, n, d, h⟩ := Acq.jobEvents_eq s e j status
  rw [h, State.job_raiseIf, State.job_raiseIf]

/-! ### `Acq.finish` -/

/-- Before its registers, the end of a job changes memory and the count of free values only. -/
theorem Acq.finish_eq {s : State} {e : Nat} {j : Job} (hj : s.job e = some j) (hecc : s.eccBad = []) (status cyc : Nat)
    (found : Option Found) : ∃ u st, Acq.Only s u [] ∧
      Acq.finish s e status cyc found = Acq.jobEvents (Acq.idled (Acq.popped u e j.flushed) e cyc) e j st := by
  unfold Acq.finish
  split
  case h_1 h => exact absurd (hj.symm.trans h) (by simp)
  case h_2 i h =>
  obtain rfl : j = i := Option.some.inj (hj.symm.trans h)
  extract_lets +onlyGivenNames b d
  split
  next _ hdr s1 hhdr =>
  split
  next _ noise s2 hnoise =>
  extract_lets +onlyGivenNames cands more hf flags head slots okAddr s3 s4 st
  have h1 : Acq.Only s s1 [] := by
    split at hhdr
    · cases hhdr
      exact Acq.Only.refl s []
    · cases hhdr
      exact (((Acq.Only.refl s []).draw (2 ^ 16)).draw (2 ^ 64)).draw 16
  have h2 : Acq.Only s s2 [] := by
    split at hnoise
    · cases hnoise
      exact h1
    · cases hnoise
      exact h1.draw (2 ^ 32)
  have h3 : Acq.Only s s3 [] := (h2.put8 hecc _ _).ite _ h2
  have h4 : Acq.Only s s4 [] := (h3.put8 hecc _ _).ite _ h2
  exact ⟨s4.put8 (j.at_ + 0x3C) [st], st, h4.put8 hecc _ _, rfl⟩

/-- What stands and what shows at engine `e` after its job has ended in the state `s` (R95 to R97). -/
structure Acq.Ended (s t : State) (e : Nat) (flushed : Bool) : Prop where
  only : Acq.Only s t (Acq.endWords e flushed)
  job : t.job e = none
  running : t.flag (Acq.b e) Acq.ENG_STAT_RUNNING = false
  head : flushed = false → t.get (Acq.b e) Acq.Q_HEAD_HEAD = (s.get (Acq.b e) Acq.Q_HEAD_HEAD + 1) % 128

/-- `Acq.finish` ends the running job, whatever its status. -/
theorem Acq.finish_ended {s : State} {e : Nat} {j : Job} (hj : s.job e = some j) (hecc : s.eccBad = []) (status cyc : Nat)
    (found : Option Found) : Acq.Ended s (Acq.finish s e status cyc found) e j.flushed := by
  obtain ⟨u, st, hu, hfin⟩ := Acq.finish_eq hj hecc status cyc found
  have hidled := Acq.idled_only (Acq.popped u e j.flushed) e cyc
  have hevents := Acq.jobEvents_only (Acq.idled (Acq.popped u e j.flushed) e cyc) e j st
  rw [hfin]
  refine ⟨?_, ?_, ?_, fun hflushed => ?_⟩
  · exact (((hu.mono (by simp)).trans (Acq.popped_only u e j.flushed)).trans (hidled.mono (Acq.jobWords_subset e _))).trans
      (hevents.mono fun a ha => Acq.jobWords_subset e _ a (List.mem_singleton.1 ha ▸ Acq.irq_mem_jobWords e))
  · rw [Acq.jobEvents_job]
    exact State.job_setJob_none _ _
  · rw [State.flag, hevents.get rfl (by simp [Acq.b, Acq.ENG_STAT_RUNNING])]
    exact Acq.idled_running _ _ _
  · rw [hevents.get rfl (by simp [Acq.b, Acq.Q_HEAD_HEAD]), hidled.get rfl (by simp [Acq.jobWords, Acq.Q_HEAD_HEAD]), hflushed]
    exact (State.get_put_same _ _ _ _).trans (by rw [hu.get rfl (by simp)]; rfl)

/-- A job that no search has ended, ended. -/
theorem Acq.finishFree_ended {s : State} {e : Nat} {j : Job} (hj : s.job e = some j) (hecc : s.eccBad = []) (status : Nat) :
    Acq.Ended s (Acq.finishFree s e status) e j.flushed := by
  have hdrawn : Acq.Only s (s.draw (2 ^ 32)).2 [] := (Acq.Only.refl s []).draw (2 ^ 32)
  have h : Acq.Ended (s.draw (2 ^ 32)).2 (Acq.finishFree s e status) e j.flushed := Acq.finish_ended (s := (s.draw (2 ^ 32)).2) hj hecc status _ none
  exact ⟨(hdrawn.mono (by simp)).trans h.only, h.job, h.running, fun hf => (h.head hf).trans (by rw [hdrawn.get rfl (by simp)])⟩

end Sys2Proof.Machine
end

section
/-! ## Jobs from the queue (O20; spec/04 R93 to R97) -/

namespace Sys2Proof.Machine

/-! ### JOB_DONE -/

theorem exec_jobDone (e : Fin 2) (waits : Nat) (s : State) : exec (.jobDone e waits) s = execJobDone e waits s := rfl

/-- A fold whose steps leave the state leaves it. -/
theorem State.foldl_stays {α β : Type} {s : State} {f : State × β → α → State × β} (hf : ∀ b x, (f (s, b) x).1 = s) (l : List α)
    (b : β) : (l.foldl f (s, b)).1 = s := by
  induction l generalizing b with
  | nil => rfl
  | cons x l ih =>
    rw [List.foldl_cons, show f (s, b) x = (s, (f (s, b) x).2) from Prod.ext (hf b x) rfl]
    exact ih _

/-- JOB_DONE without a pending ABORT ends the running job: its samples read, or not. -/
theorem exec_jobDone_finish {e : Fin 2} {j : Job} {s : State} (waits : Nat) (hc : s.Clean) (hr : s.running .acq = true)
    (hf : s.frozen (Acq.p e.val) = false) (hj : s.job e.val = some j) (ha : j.abort = false) :
    ∃ status cyc found, exec (.jobDone e waits) s = .next (Acq.finish s e.val status cyc found) := by
  rw [exec_jobDone]
  unfold execJobDone
  extract_lets +onlyGivenNames e'
  split
  case h_1 h => exact absurd (hj.symm.trans h) (by simp)
  case h_2 i h =>
  obtain rfl : j = i := Option.some.inj (hj.symm.trans h)
  rw [if_neg (by simp [e', hf, hr]), if_neg (by simp [ha])]
  extract_lets +onlyGivenNames d
  split
  next _ u ok hread =>
  obtain rfl : s = u :=
    (State.foldl_stays (fun _ x => State.devRead_clean hc x.1 x.2) _ true).symm.trans (congrArg Prod.fst hread)
  split
  · exact ⟨_, _, _, rfl⟩
  · exact ⟨_, _, _, rfl⟩

/-! ### JOB_ABORT and JOB_FLUSH -/

theorem exec_jobAbort (req : Req) (e : Fin 2) (s : State) : exec (.jobAbort req e) s = Cmd.write s req (Acq.b e.val + 0x06C) 1 := rfl

theorem exec_jobFlush (req : Req) (e : Fin 2) (s : State) : exec (.jobFlush req e) s = Cmd.write s req (Acq.b e.val + 0x06C) 2 := rfl

/-- ABORT of an engine that is not frozen ends its job (R97). -/
theorem Acq.write_abort {s : State} {e : Nat} {j : Job} (hf : s.frozen (Acq.p e) = false) (hj : s.job e = some j) (req : Nat)
    (store : State → State) : Acq.write s req e 0x06C 1 store = Acq.finishFree s e 0x16 := by
  have h1 : Nat.testBit 1 1 = false := by decide
  simp [Acq.write, Acq.ctl, hj, hf, h1]

/-- FLUSH of an engine without a job (R97). -/
theorem Acq.write_flush {s : State} {e : Nat} (hj : s.job e = none) (req : Nat) (store : State → State) :
    Acq.write s req e 0x06C 2 store = Acq.flush s e := by
  have h1 : Nat.testBit 2 1 = true := by decide
  simp [Acq.write, Acq.ctl, hj, h1]

/-- A FLUSH with no job running empties the queue: Q_HEAD takes Q_TAIL (R97). -/
theorem Acq.flush_idle {s : State} {e : Nat} (he : e < 2) (hc : s.Clean) (hj : s.job e = none) :
    Acq.Only s (Acq.flush s e) (Acq.endWords e false) ∧ (Acq.flush s e).job e = none ∧
      (Acq.flush s e).get (Acq.b e) Acq.Q_HEAD_HEAD = s.get (Acq.b e) Acq.Q_TAIL_TAIL := by
  unfold Acq.flush
  extract_lets +onlyGivenNames b running head n first
  have hrunning : running = false := by simp [running, hj]
  extract_lets +onlyGivenNames s1 s2
  have hdrop : Acq.Only s s1 (Acq.jobWords e) ∧ s1.job e = none := by
    refine State.each_inv (fun u => Acq.Only s u (Acq.jobWords e) ∧ u.job e = none) _ _ (fun u q hu => ?_) s
      ⟨Acq.Only.refl s _, hj⟩
    obtain ⟨honly, hidle⟩ := hu
    extract_lets +onlyGivenNames cur
    split
    next _ v r hread =>
    obtain rfl : u = v := (State.devRead_clean (honly.clean hc) _ _).symm.trans (congrArg Prod.fst hread)
    split
    · exact ⟨honly, hidle⟩
    next _ bytes =>
    extract_lets +onlyGivenNames u1 run cyc int u2 u3
    have hended : Acq.Ended u1 u2 e true :=
      Acq.finish_ended (State.job_setJob_same u he _) (honly.eccBad.trans hc.1) 0x16 0 none
    have hput : Acq.Only s u3 (Acq.jobWords e) :=
      ((((honly.setJob e _).trans hended.only).setJob e cur).put b Acq.ENG_STAT_RUNNING run rfl
        (by simp [b, Acq.jobWords, Acq.ENG_STAT_RUNNING])).put b Acq.ENG_CYC_CYCLES cyc rfl
        (by simp [b, Acq.jobWords, Acq.ENG_CYC_CYCLES])
    have hjob : u3.job e = none := by
      rw [State.job_put, State.job_put, State.job_setJob_same _ he]
      exact hidle
    rw [hrunning]
    exact ⟨hput, hjob⟩
  obtain ⟨honly, hidle⟩ := hdrop
  have hmarked : s2 = s1 := by simp only [s2, hidle]
  have hhead : (s1.put b Acq.Q_HEAD_HEAD (s1.get b Acq.Q_TAIL_TAIL)).get b Acq.Q_HEAD_HEAD = s.get b Acq.Q_TAIL_TAIL := by
    rw [State.get_put_same, honly.get rfl (by simp [b, Acq.jobWords, Acq.Q_TAIL_TAIL])]
    exact Nat.mod_eq_of_lt (State.get_lt s b Acq.Q_TAIL_TAIL)
  have hevent := (Acq.Only.refl (s1.put b Acq.Q_HEAD_HEAD (s1.get b Acq.Q_TAIL_TAIL)) [pg (Acq.p e) + 0x014]).raiseIf (n != 0)
    (Acq.p e) 2 List.mem_cons_self
  rw [hmarked]
  refine ⟨?_, ?_, ?_⟩
  · exact ((honly.mono (Acq.jobWords_subset e false)).put b Acq.Q_HEAD_HEAD _ rfl List.mem_cons_self).raiseIf _ _ 2
      (Acq.jobWords_subset e false _ (Acq.irq_mem_jobWords e))
  · rw [State.job_raiseIf, State.job_put, hidle]
  · rw [hevent.get rfl (by simp [Acq.b, Acq.Q_HEAD_HEAD]), hhead]

/-- A write of Q_CTL to an engine, from the command to its effect `t`. -/
theorem Cmd.write_qCtl {s t : State} {req : Req} {e : Fin 2} {v : Nat} (hq : s.Quiet) (hw : s.Writable req (Acq.p e.val))
    (ht : ∀ store, Acq.write s req.code e.val 0x06C (v % 2 ^ 32) store = t) (honly : Acq.Only s t (Acq.endWords e.val false)) :
    Cmd.write s req (Acq.b e.val + 0x06C) v = .next (t.answered req []) := by
  have hfields : ∀ e : Fin 2, Bus.fields .acq e.val 0x06C ≠ [] ∧
      (Bus.fields .acq e.val 0x06C).all (fun f => f.acc == .rd) = false := by decide
  exact Cmd.write_acq hq hw (by decide) (hfields e) (ht _) honly (by simp [Acq.endWords, Acq.jobWords])

/-! ### Q_TAIL_WRITE -/

/-- Q_TAIL holds one field that any value may be written to. -/
theorem Acq.fields_qTail : ∀ e : Fin 2, Bus.fields .acq e.val 0x064 = [⟨0, 7, .fr, 0, .any⟩] := by decide

/-- A tail at most 64 jobs ahead of the head is stored; Q_EMPTY is raised where it empties the queue (R95, R96). -/
theorem Acq.write_qTail {s : State} {e v : Nat} (h : (v % 128 + 128 - s.get (Acq.b e) Acq.Q_HEAD_HEAD) % 128 ≤ 64) (req : Nat)
    (store : State → State) : ∃ c, Acq.write s req e 0x064 v store = (store s).raiseIf c (Acq.p e) 2 := by
  refine ⟨Acq.queued s e != 0 && v % 128 == s.get (Acq.b e) Acq.Q_HEAD_HEAD, ?_⟩
  simp [Acq.write, Nat.not_lt.2 h]

theorem exec_qTailWrite (req : Req) (e : Fin 2) (tail : BitVec 32) (s : State) :
    exec (.qTailWrite req e tail) s = Cmd.write s req (Acq.b e.val + 0x064) tail.toNat := rfl

/-- The low seven bits of what Q_TAIL takes are the tail. -/
theorem Acq.get_tail_setReg (s : State) (e v : Nat) :
    (s.setReg (Acq.b e + 0x064) (putBits (s.regN (Acq.b e + 0x064)) 0 7 (bitsOf v 0 7))).get (Acq.b e) Acq.Q_TAIL_TAIL = v % 128 := by
  have hword (t : State) : t.get (Acq.b e) Acq.Q_TAIL_TAIL = bitsOf (t.regN (Acq.b e + 0x064)) 0 7 := rfl
  rw [hword, State.regN_setReg_same, bitsOf_mod (by decide), bitsOf_putBits]
  simp [bitsOf]

/-- Q_TAIL_WRITE within 64 jobs of the head. -/
theorem exec_qTailWrite_stores {s : State} {req : Req} {e : Fin 2} {tail : BitVec 32} (hq : s.Quiet)
    (hw : s.Writable req (Acq.p e.val))
    (hroom : (tail.toNat % 128 + 128 - s.get (Acq.b e.val) Acq.Q_HEAD_HEAD) % 128 ≤ 64) :
    Cmd.Sets (.qTailWrite req e tail) s [Acq.b e.val + 0x064, Acq.b e.val + 0x014] (fun t =>
      t.get (Acq.b e.val) Acq.Q_TAIL_TAIL = tail.toNat % 128) := by
  obtain ⟨hinfo, howner⟩ := Acq.page_listed e
  have hmod : tail.toNat % 2 ^ 32 = tail.toNat := Nat.mod_eq_of_lt tail.isLt
  obtain ⟨c, hwrite⟩ := Acq.write_qTail hroom req.code
    (Bus.store req.code (Acq.p e.val) (Acq.b e.val + 0x064) [⟨0, 7, .fr, 0, .any⟩] tail.toNat)
  rw [Bus.store_any (Or.inl rfl) rfl] at hwrite
  have hset := State.RegsOnly.setReg s (Acq.b e.val + 0x064)
    (putBits (s.regN (Acq.b e.val + 0x064)) 0 7 (bitsOf tail.toNat 0 7))
  have hraise := State.RegsOnly.raiseIf (s.setReg (Acq.b e.val + 0x064)
    (putBits (s.regN (Acq.b e.val + 0x064)) 0 7 (bitsOf tail.toNat 0 7))) c (Acq.p e.val) 2
  have hframe := (hset.mono (vs := [Acq.b e.val + 0x064, Acq.b e.val + 0x014]) (by simp)).trans (hraise.mono (by simp [Acq.b]))
  refine Cmd.sets_of (exec_qTailWrite req e tail s) hq hw hinfo (by decide) (by decide) (by decide)
    (by rw [Acq.fields_qTail]; decide) (by rw [Acq.fields_qTail]; decide)
    (by rw [Acq.fields_qTail, howner, hmod]; exact hwrite) hframe ?_ ?_
  · rw [howner]
    exact (hframe.get (Acq.b e.val) H.COUNT (by simp [H.COUNT, Fld.words])).le
  · rw [State.get_answered_req, hraise.get _ _ (by simp [Acq.b, Acq.Q_TAIL_TAIL, Fld.words]), Acq.get_tail_setReg]

/-! ### JOB_START -/

/-- The job at the head of the queue: its descriptor and the capture header that this names, as memory has them (R93, R95). -/
def Acq.nextJob (s : State) (e : Nat) : Job :=
  let slot := s.get (Acq.b e) Acq.Q_HEAD_HEAD
  let desc := s.bytesAt (Acq.slotAddr s e slot) 64
  ⟨slot, Acq.slotAddr s e slot, desc, s.bytesAt (Acq.snapBase s + (Desc.of desc).capBlk * 0x10000) 64, false, false, false⟩

/-- The state in which engine `e` runs the job `j` and shows it. -/
def Acq.started (s : State) (e : Nat) (j : Job) : State :=
  ((s.setJob e (some j)).put (Acq.b e) Acq.ENG_STAT_RUNNING 1).put (Acq.b e) Acq.ENG_STAT_TAG (Desc.of j.desc).tag

theorem Acq.started_shows (s : State) {e : Nat} (he : e < 2) (j : Job) :
    (Acq.started s e j).job e = some j ∧ (Acq.started s e j).flag (Acq.b e) Acq.ENG_STAT_RUNNING = true ∧
      (Acq.started s e j).get (Acq.b e) Acq.ENG_STAT_TAG = (Desc.of j.desc).tag % 2 ^ 16 ∧ (Acq.started s e j).mem = s.mem := by
  refine ⟨?_, ?_, ?_, ?_⟩
  · rw [Acq.started, State.job_put, State.job_put, State.job_setJob_same s he]
  · rw [Acq.started, State.flag_put_apart _ _ _ (by decide), State.flag_put_same]
    rfl
  · rw [Acq.started, State.get_put_same]
    rfl
  · rw [Acq.started, State.put_mem, State.put_mem]
    rfl

theorem exec_jobStart (e : Fin 2) (s : State) : exec (.jobStart e) s = execJobStart e s := rfl

/-- JOB_START of an engine that may start its next job, which passes R93's checks: the job runs, the parity of its code read. -/
theorem exec_jobStart_passes {e : Fin 2} {s : State} (hc : s.Clean) (hen : s.en (Acq.p e.val) = true)
    (hf : s.frozen (Acq.p e.val) = false) (hr : s.running .acq = true)
    (hhalt : s.flag (Acq.b e.val) Acq.ENG_STAT_HALTED = false) (hj : s.job e.val = none) (hq : Acq.queued s e.val ≠ 0)
    (hdesc : rangeFor (Acq.nextJob s e.val).at_ 64 = .sram)
    (hhdr : rangeFor (Acq.snapBase s + (Desc.of (Acq.nextJob s e.val).desc).capBlk * 0x10000) 64 = .sram)
    (hcheck : (Desc.of (Acq.nextJob s e.val).desc).check (Acq.started s e.val (Acq.nextJob s e.val))
      (some (Acq.nextJob s e.val).hdr) = 0) :
    exec (.jobStart e) s = .next ((Acq.started s e.val (Acq.nextJob s e.val)).parityOf (Desc.of (Acq.nextJob s e.val).desc).sig
      (Desc.of (Acq.nextJob s e.val).desc).prn []) := by
  rw [exec_jobStart]
  unfold execJobStart
  extract_lets +onlyGivenNames e' b
  rw [if_neg (by simp [e', b, hen, hf, hr, hhalt, hj, hq])]
  extract_lets +onlyGivenNames slot
  have hbytes : s.devRead (Acq.slotAddr s e' slot) 64 = (s, some (Acq.nextJob s e.val).desc) :=
    State.devRead_clean_sram hc hdesc
  have hheader : s.devRead (Acq.snapBase s + (Desc.of (Acq.nextJob s e.val).desc).capBlk * 0x10000) 64 =
      (s, some (Acq.nextJob s e.val).hdr) := State.devRead_clean_sram hc hhdr
  split
  next _ u r hread =>
  obtain ⟨rfl, hsome⟩ := Prod.mk.inj (hbytes.symm.trans hread)
  -- `hheader` tells all about the second read: the kernel need not look into it
  obtain ⟨read, hsecond⟩ : ∃ read, s.devRead = read := ⟨_, rfl⟩
  rw [hsecond] at hheader ⊢
  split
  · exact absurd hsome (Option.some_ne_none _)
  next bytes =>
    obtain rfl := Option.some.inj hsome
    extract_lets +onlyGivenNames d
    split
    next _ v h hread' =>
    obtain ⟨rfl, rfl⟩ := Prod.mk.inj (hheader.symm.trans hread')
    extract_lets +onlyGivenNames s1 s2 st s3
    have hstatus : st = 0 := hcheck
    have hparity : s3 = s2.parityOf d.sig d.prn [] := if_neg (by rw [hstatus]; decide)
    rw [if_pos hstatus, hparity]
    rfl

/-- Reading a code with bad parity changes CS_ERR and the events of the code store (spec/05 R109). -/
theorem State.RegsOnly.parity (s : State) (w : Nat) : s.RegsOnly (s.parity w) [pg 0x028 + 0x050, pg 0x028 + 0x014] := by
  have hrefl := State.RegsOnly.refl s [pg 0x028 + 0x050, pg 0x028 + 0x014]
  unfold State.parity
  split
  · dsimp only
    split
    · exact hrefl.put_then _ H.IRQ_RAW _ rfl (by decide)
    · exact ((hrefl.put_then _ Code.CS_ERR_ADDR w rfl (by decide)).put_then _ Code.CS_ERR_PERR 1 rfl (by decide)).put_then _
        H.IRQ_RAW _ rfl (by decide)
  · exact hrefl

theorem State.RegsOnly.parityOf (s : State) (c n : Nat) (sec : List Nat) :
    s.RegsOnly (s.parityOf c n sec) [pg 0x028 + 0x050, pg 0x028 + 0x014] := by
  unfold State.parityOf
  split
  · dsimp only
    split
    · exact State.RegsOnly.refl _ _
    · exact State.RegsOnly.each _ _ _ State.RegsOnly.parity s
  · exact State.RegsOnly.refl _ _

/-- What engine `e` runs and shows stands when a code's parity is read, and memory with it. -/
theorem State.parityOf_engine (s : State) (c n : Nat) (sec : List Nat) (e : Fin 2) :
    (s.parityOf c n sec).job e.val = s.job e.val ∧ (s.parityOf c n sec).mem = s.mem ∧
      ∀ f : Fld, f.off = 0x070 → f.words = 1 → (s.parityOf c n sec).get (Acq.b e.val) f = s.get (Acq.b e.val) f := by
  have hparity := State.RegsOnly.parityOf s c n sec
  have hapart : ∀ e : Fin 2, Acq.b e.val + 0x070 ∉ [pg 0x028 + 0x050, pg 0x028 + 0x014] := by decide
  refine ⟨?_, ?_, fun f hoff hw => State.get_of_reg hw (hparity.2 _ (hoff ▸ hapart e))⟩
  · rw [hparity.1]
    rfl
  · rw [hparity.1]

/-- Settles O20: the queue's tail, the start of a job whose checks pass, and the three ways in which jobs leave the queue. -/
theorem acquisitionJobs : Obligations.AcquisitionJobs := by
  unfold Obligations.AcquisitionJobs
  refine ⟨fun req e tail s hq hw hroom => exec_qTailWrite_stores hq hw hroom, ?_,
    fun e waits j s hc hr hf hj ha hflushed => ?_, fun req e j s hq hc hw hf hj hflushed => ?_, fun req e s hq hc hw hj => ?_⟩
  · intro e s slot bytes d ha hdr s1 hc hen hf hr hhalt hj hq hdesc hhdr hcheck
    obtain ⟨hjob, hrunning, htag, hmem⟩ := Acq.started_shows s e.isLt (Acq.nextJob s e.val)
    obtain ⟨hjob', hmem', hstat⟩ := State.parityOf_engine (Acq.started s e.val (Acq.nextJob s e.val)) d.sig d.prn [] e
    exact ⟨_, exec_jobStart_passes hc hen hf hr hhalt hj hq hdesc hhdr hcheck, hjob'.trans hjob,
      (congrArg (· != 0) (hstat Acq.ENG_STAT_RUNNING rfl rfl)).trans hrunning, (hstat Acq.ENG_STAT_TAG rfl rfl).trans htag,
      hmem'.trans hmem⟩
  · obtain ⟨status, cyc, found, hexec⟩ := exec_jobDone_finish waits hc hr hf hj ha
    have h := Acq.finish_ended hj hc.1 status cyc found
    exact ⟨_, hexec, h.job, h.running, h.head hflushed⟩
  · have h := Acq.finishFree_ended hj hc.1 0x16
    have hexec := (exec_jobAbort req e s).trans
      (Cmd.write_qCtl hq hw (fun store => Acq.write_abort hf hj req.code store) (hflushed ▸ h.only))
    refine ⟨_, hexec, ?_, ?_, ?_⟩
    · rw [State.answered_job, h.job]
    · rw [State.flag_answered, h.running]
    · rw [State.get_answered_req, h.head hflushed]
  · obtain ⟨honly, hidle, hhead⟩ := Acq.flush_idle e.isLt hc hj
    refine ⟨_, (exec_jobFlush req e s).trans (Cmd.write_qCtl hq hw (fun store => Acq.write_flush hj req.code store) honly), ?_, ?_⟩
    · rw [State.answered_job, hidle]
    · rw [State.get_answered_req, hhead]

end Sys2Proof.Machine
end

section
/-! ## The end of a capture (O19; spec/04 R82, R84, R87 to R89) -/

namespace Sys2Proof.Machine

@[simp] theorem State.raiseIf_snap (s : State) (c : Bool) (p n : Nat) : (s.raiseIf c p n).snap = s.snap := by
  cases c with
  | false => rfl
  | true => exact State.raise_snap _ _ _

@[simp] theorem State.raiseIf_tags (s : State) (c : Bool) (p n : Nat) : (s.raiseIf c p n).tags = s.tags := by
  cases c with
  | false => rfl
  | true => exact State.raise_tags _ _ _

/-! ### CAP_OVERRUN -/

theorem exec_capOverrun (held : Nat) (s : State) : exec (.capOverrun held) s = execCapOverrun held s := rfl

/-- The capture record `c` in place of the one before, OVERRUN and CAP_TRUNC shown (R89). -/
def Acq.overrun (s : State) (c : Snap) : State := ((s.setSnap (some c)).put (Acq.b 0) Acq.SNAP_STAT_OVERRUN 1).raise (Acq.p 0) 4

/-- CAP_OVERRUN ends the capture after the samples held, or at the end it would have had before. -/
theorem exec_capOverrun_ends {s : State} {c : Snap} (held : Nat) (hr : s.running .acq = true) (hs : s.snap = some c) :
    exec (.capOverrun held) s = .next (Acq.overrun s
      { c with stop := some (min held (c.stop.getD (if c.ring then held else c.len * 1024))), ovr := true }) := by
  rw [exec_capOverrun]
  unfold execCapOverrun
  simp only [hs, hr, Bool.not_true, Bool.false_eq_true, if_false]
  cases c.stop <;> rfl

theorem Acq.overrun_shows (s : State) (c : Snap) :
    (Acq.overrun s c).snap = some c ∧ (Acq.overrun s c).flag (Acq.b 0) Acq.SNAP_STAT_OVERRUN = true ∧
      ((Acq.overrun s c).get (pg 0x020) H.IRQ_RAW).testBit 4 = true := by
  refine ⟨?_, ?_, State.testBit_raise_same _ _ (by decide)⟩
  · rw [Acq.overrun, State.raise_snap, State.put_snap, State.setSnap_snap]
  · refine (State.flag_put_apart _ (Acq.b 0) (f := H.IRQ_RAW) _ (by decide)).trans ?_
    rw [State.flag_put_same]
    rfl

/-- Beside the record, CAP_OVERRUN changes SNAP_STAT and IRQ_RAW. -/
theorem Acq.overrun_only (s : State) (c : Snap) :
    Acq.overrun s c = { s with snap := (Acq.overrun s c).snap, regs := (Acq.overrun s c).regs } ∧
      ∀ a, a ≠ Acq.b 0 + 0x04C → a ≠ Acq.b 0 + 0x014 → (Acq.overrun s c).reg a = s.reg a := by
  constructor
  · unfold Acq.overrun
    rw [State.raise_only, State.put_only]
    rfl
  · intro a hstat hirq
    have honly : Acq.Only s (Acq.overrun s c) [Acq.b 0 + 0x04C, Acq.b 0 + 0x014] :=
      (((Acq.Only.refl s _).setSnap (some c)).put _ Acq.SNAP_STAT_OVERRUN 1 rfl (by simp [Acq.SNAP_STAT_OVERRUN])).raise _ 4
        (by simp [Acq.b])
    exact honly.reg a (by simp [hstat, hirq])

/-! ### The record of a capture (R82, R83) -/

theorem length_sampleBytes (l : List Iq) : (l.flatMap sampleBytes).length = 2 * l.length := by
  have htwo (x : Iq) : (sampleBytes x).length = 2 := by
    unfold sampleBytes
    split <;> rfl
  simp [List.length_flatMap, htwo, Nat.mul_comm]

/-- An effect that keeps a property at the elements of a list keeps it through all of them. -/
theorem State.each_inv_mem {α : Type} (P : State → Prop) {l : List α} {f : State → α → State}
    (h : ∀ u, ∀ x ∈ l, P u → P (f u x)) {s : State} (hs : P s) : P (s.each l f) := by
  unfold State.each
  induction l generalizing s with
  | nil => exact hs
  | cons x l ih =>
    exact ih (fun u y hy => h u y (List.mem_cons_of_mem _ hy)) (h s x List.mem_cons_self hs)

/-- The header of the capture `c` behind MAGIC: CHAINS, flags, SEQ and the samples retained first, then fields of 24 bytes in all. -/
def Snap.body (c : Snap) (flags kept : Nat) (rest : List (Nat × Nat)) : List Nat :=
  recBytes ((1, c.chains) :: (1, flags) :: (2, c.seq) :: (2, 0) :: (4, kept) :: rest) ++ List.replicate 28 0

theorem Snap.length_body (c : Snap) (flags kept : Nat) {rest : List (Nat × Nat)} (hrest : (rest.map Prod.fst).sum = 24) :
    (Snap.body c flags kept rest).length = 62 := by
  simp [Snap.body, length_recBytes, hrest]

/-- A write of the header at `hdr`, MAGIC last. -/
def Snap.putHeader (s : State) (hdr : Nat) (body : List Nat) : State := (s.put8 (hdr + 2) body).put8 hdr [0x4E, 0x53]

theorem Snap.byte_putHeader (s : State) {hdr : Nat} {body : List Nat} (hlo : 0x10000000 ≤ hdr) (hhi : hdr + 64 ≤ 0x12000000)
    (hbody : body.length = 62) :
    (Snap.putHeader s hdr body).byte hdr = 0x4E ∧ (Snap.putHeader s hdr body).byte (hdr + 1) = 0x53 ∧
      ∀ x, x < hdr ∨ hdr + 64 ≤ x → (Snap.putHeader s hdr body).byte x = s.byte x := by
  have hmagic := State.byte_put8_sram (s.put8 (hdr + 2) body) (l := [0x4E, 0x53]) hlo (by decide)
    (show hdr + 2 ≤ 0x12000000 by omega)
  refine ⟨?_, ?_, fun x hx => ?_⟩
  · rw [Snap.putHeader, hmagic, if_pos (by simp), Nat.sub_self]
    rfl
  · rw [Snap.putHeader, hmagic, if_pos (by simp), Nat.add_sub_cancel_left]
    rfl
  · rw [Snap.putHeader, State.byte_put8_outside _ (by simp; omega), State.byte_put8_outside _ (by omega)]

/-- A field of the header is a number of the body. -/
theorem Snap.numAt_putHeader (s : State) {hdr : Nat} {body : List Nat} (hlo : 0x10000000 ≤ hdr) (hhi : hdr + 64 ≤ 0x12000000)
    (hbody : body.length = 62) {o n : Nat} (hn : 0 < n) (ho : o + n ≤ 62) :
    (Snap.putHeader s hdr body).numAt (hdr + 2 + o) n = leNat ((body.drop o).take n) := by
  rw [Snap.putHeader, State.numAt_put8_outside _ (by simp), State.numAt_put8 _ (by omega) (by omega) hn (by omega)]

/-- The fields that the header of a capture shows. -/
theorem Snap.fields_putHeader (s : State) {hdr : Nat} (c : Snap) (flags kept : Nat) {rest : List (Nat × Nat)}
    (hlo : 0x10000000 ≤ hdr) (hhi : hdr + 64 ≤ 0x12000000) (hrest : (rest.map Prod.fst).sum = 24) :
    (Snap.putHeader s hdr (Snap.body c flags kept rest)).numAt (hdr + 2) 1 = c.chains % 256 ∧
      (Snap.putHeader s hdr (Snap.body c flags kept rest)).numAt (hdr + 4) 2 = c.seq % 2 ^ 16 ∧
      (Snap.putHeader s hdr (Snap.body c flags kept rest)).numAt (hdr + 8) 4 = kept % 2 ^ 32 := by
  have hbody := Snap.length_body c flags kept hrest
  have hchains : ((Snap.body c flags kept rest).drop 0).take 1 = leBytes 1 c.chains := rfl
  have hseq : ((Snap.body c flags kept rest).drop 2).take 2 = leBytes 2 c.seq := rfl
  have hkept : ((Snap.body c flags kept rest).drop 6).take 4 = leBytes 4 kept := rfl
  have hfield {o n v : Nat} (hn : 0 < n) (ho : o + n ≤ 62) (h : ((Snap.body c flags kept rest).drop o).take n = leBytes n v) :
      (Snap.putHeader s hdr (Snap.body c flags kept rest)).numAt (hdr + 2 + o) n = v % 256 ^ n := by
    rw [Snap.numAt_putHeader s hlo hhi hbody hn ho, h, leNat_leBytes]
  exact ⟨hfield (by decide) (by decide) hchains, hfield (by decide) (by decide) hseq, hfield (by decide) (by decide) hkept⟩

/-! ### `Acq.capEnd` -/

/-- The state in which the capture `c` is complete: its blocks tagged, STATE 0, CAP_DONE and, where it ended early, CAP_TRUNC. -/
def Acq.captured (s : State) (c : Snap) : State :=
  ((((Snap.tagBlocks s c false).setSnap none).put (Acq.b 0) Acq.SNAP_STAT_STATE 0).raise (Acq.p 0) 3).raiseIf (c.trunc || c.ovr)
    (Acq.p 0) 4

theorem Acq.captured_only (s : State) (c : Snap) : Acq.Only s (Acq.captured s c) [Acq.b 0 + 0x04C, pg (Acq.p 0) + 0x014] :=
  (((((Acq.Only.refl s _).tagBlocks c false).setSnap none).put _ Acq.SNAP_STAT_STATE 0 rfl
    (by simp [Acq.SNAP_STAT_STATE])).raise _ 3 (by simp)).raiseIf _ _ 4 (by simp)

theorem Snap.tagBlocks_mem (s : State) (c : Snap) (writing : Bool) : (Snap.tagBlocks s c writing).mem = s.mem :=
  State.each_keeps State.mem c.blocks (fun s k => s.setTag k ⟨c.seq, writing, c.len⟩) (fun _ _ => rfl) s

theorem Acq.captured_mem (s : State) (c : Snap) : (Acq.captured s c).mem = s.mem := by
  rw [Acq.captured, State.raiseIf_mem, State.raise_mem, State.put_mem, State.setSnap_mem, Snap.tagBlocks_mem]

/-- What a complete capture shows (R84, R88, R89). -/
theorem Acq.captured_shows (s : State) (c : Snap) :
    (Acq.captured s c).snap = none ∧ (Acq.captured s c).get (Acq.b 0) Acq.SNAP_STAT_STATE = 0 ∧
      (Acq.captured s c).tag c.ofs = ⟨c.seq, false, c.len⟩ ∧
      ((Acq.captured s c).get (pg 0x020) H.IRQ_RAW).testBit 3 = true ∧
      (c.trunc = true → ((Acq.captured s c).get (pg 0x020) H.IRQ_RAW).testBit 4 = true) := by
  have hevents (u : State) : Acq.Only u ((u.raise (Acq.p 0) 3).raiseIf (c.trunc || c.ovr) (Acq.p 0) 4) [pg (Acq.p 0) + 0x014] :=
    ((Acq.Only.refl u _).raise _ 3 (by simp)).raiseIf _ _ 4 (by simp)
  have hbit (u : State) {n : Nat} (hn : n < 32) := State.testBit_raiseIf (u.raise (Acq.p 0) 3) (c.trunc || c.ovr) (Acq.p 0) 4 hn
  refine ⟨?_, ?_, ?_, ?_, fun htrunc => ?_⟩
  · rw [Acq.captured, State.raiseIf_snap, State.raise_snap, State.put_snap, State.setSnap_snap]
  · rw [Acq.captured, (hevents _).get rfl (by decide), State.get_put_same]
    rfl
  · refine (State.tag_congr ?_ c.ofs).trans (Snap.tag_tagBlocks s c false)
    rw [Acq.captured, State.raiseIf_tags, State.raise_tags, State.put_tags, State.setSnap_tags]
  · refine (hbit _ (by decide)).trans ?_
    rw [State.testBit_raise_same _ _ (by decide), Bool.true_or]
  · refine (hbit _ (by decide)).trans ?_
    simp [htrunc]

/-- Blocks written one by one inside an area leave the bytes outside it. -/
theorem State.each_put8_outside {α : Type} {s : State} (hecc : s.eccBad = []) {l : List α} {at_ : α → Nat}
    {block : State → α → List Nat} {lo hi : Nat} (hin : ∀ u, ∀ i ∈ l, lo ≤ at_ i ∧ at_ i + (block u i).length ≤ hi) :
    Acq.Only s (s.each l (fun u i => u.put8 (at_ i) (block u i))) [] ∧
      ∀ x, x < lo ∨ hi ≤ x → (s.each l (fun u i => u.put8 (at_ i) (block u i))).byte x = s.byte x := by
  refine State.each_inv_mem (fun u => Acq.Only s u [] ∧ ∀ x, x < lo ∨ hi ≤ x → u.byte x = s.byte x) ?_
    ⟨Acq.Only.refl s [], fun _ _ => rfl⟩
  rintro u i hi' ⟨honly, hbyte⟩
  have := hin u i hi'
  exact ⟨honly.put8 hecc _ _, fun x hx => (State.byte_put8_outside u (by omega)).trans (hbyte x hx)⟩

theorem State.runToSample_mem (s : State) (n : Nat) : (s.runToSample n).mem = s.mem := State.runTo_mem s _

theorem State.runToSample_eccBad (s : State) (n : Nat) : (s.runToSample n).eccBad = s.eccBad := by
  unfold State.runToSample
  rw [State.runTo_only]

/-- The samples that row `i` of at most four retains lie in the sample area. -/
theorem Snap.row_inside {i rows cap : Nat} (hi : i < rows) (hrows : rows ≤ 4) : i * cap * 2 + 2 * cap ≤ 8 * cap := by
  have hrow : (i + 1) * cap ≤ 4 * cap := Nat.mul_le_mul_right cap (by omega)
  rw [Nat.succ_mul] at hrow
  omega

/-- A capture that ends after `n` samples, from clean memory: time runs to the sample behind it, the samples go to their area, and the
header and all it shows follow. -/
theorem Acq.capEnd_eq {s : State} (hecc : s.eccBad = []) (c : Snap) (n : Nat) (feed : List (List (Int × Int))) :
    ∃ u flags rest, Acq.capEnd s c n feed =
        Acq.captured (Snap.putHeader u (c.base + c.ofs * 0x10000) (Snap.body c flags (min n (c.len * 1024)) rest)) c ∧
      (rest.map Prod.fst).sum = 24 ∧ Acq.Only (s.runToSample (c.first + n)) u [] ∧
      ∀ x, x < c.base + c.ofs * 0x10000 + 64 ∨ c.base + c.ofs * 0x10000 + 64 + 4 * (c.len * 2048) ≤ x → u.byte x = s.byte x := by
  unfold Acq.capEnd
  extract_lets +onlyGivenNames b cap k wrap n0 s0 chains hdr row s1 inval changed gains flags ts body s2 bytes s3
  have hset : { s3 with snap := none } = s3.setSnap none := rfl
  rw [hset]
  have hrows : chains.length ≤ 4 := List.length_filter_le _ _
  have hlength (u : State) (i : Nat) :
      (((row u i).drop (k - wrap) ++ (row u i).take (k - wrap)).flatMap sampleBytes).length = 2 * k := by
    rw [length_sampleBytes, List.length_append, List.length_drop, List.length_take]
    have hrow : (row u i).length = k := by simp [row]
    omega
  have hin (u : State) (i : Nat) (hi : i ∈ List.range chains.length) : hdr + 64 ≤ hdr + 64 + i * cap * 2 ∧
      hdr + 64 + i * cap * 2 + (((row u i).drop (k - wrap) ++ (row u i).take (k - wrap)).flatMap sampleBytes).length ≤
        hdr + 64 + 4 * (c.len * 2048) := by
    have hinside := Snap.row_inside (cap := cap) (List.mem_range.1 hi) hrows
    have hk : k ≤ cap := Nat.min_le_right _ _
    have hcap : cap = c.len * 1024 := rfl
    rw [hlength]
    omega
  obtain ⟨honly, hbyte⟩ := State.each_put8_outside ((State.runToSample_eccBad s _).trans hecc : s0.eccBad = []) hin
  exact ⟨s1, flags, [(4, wrap), (8, ts), (4, min inval (2 ^ 32 - 1)), (4, gains n0), (4, gains (n0 + k - 1))], rfl, rfl, honly,
    fun x hx => (hbyte x hx).trans (State.byte_congr (State.runToSample_mem s _) x)⟩

/-! ### CAP_DONE -/

theorem exec_capDone (feed : List (List (Int × Int))) (s : State) : exec (.capDone feed) s = execCapDone feed s := rfl

/-- CAP_DONE of a capture that was stopped after `n` samples, or of a one-shot that has its `n` samples. -/
theorem exec_capDone_ends {s : State} {c : Snap} {n : Nat} (feed : List (List (Int × Int))) (hr : s.running .acq = true)
    (hs : s.snap = some c) (hstop : c.stop = some n ∨ c.stop = none ∧ c.ring = false ∧ n = c.len * 1024) :
    exec (.capDone feed) s = .next (Acq.capEnd s c n feed) := by
  rw [exec_capDone]
  unfold execCapDone
  simp only [hs, hr, Bool.not_true, Bool.false_eq_true, if_false]
  obtain hn | ⟨hnone, hring, rfl⟩ := hstop
  · rw [hn]
  · rw [hnone, hring]

/-- Settles O19: the state that CAP_DONE leaves has its header and samples in place, and CAP_OVERRUN changes the record, SNAP_STAT and
IRQ_RAW. -/
theorem snapshotEnds : Obligations.SnapshotEnds := by
  unfold Obligations.SnapshotEnds
  constructor
  · intro feed c n s hdr hc hr hs hstop hlo hhi
    obtain ⟨u, flags, rest, hend, hrest, honly, hbyte⟩ := Acq.capEnd_eq hc.1 c n feed
    obtain ⟨hN, hS, houtside⟩ := Snap.byte_putHeader u hlo (by omega) (Snap.length_body c flags (min n (c.len * 1024)) hrest)
    obtain ⟨hchains, hseq, hkept⟩ := Snap.fields_putHeader u c flags (min n (c.len * 1024)) hlo (by omega) hrest
    have hbase : (Snap.putHeader u hdr (Snap.body c flags (min n (c.len * 1024)) rest)).base = (s.runToSample (c.first + n)).base :=
      ((honly.put8 ((State.runToSample_eccBad s _).trans hc.1) _ _).put8 ((State.runToSample_eccBad s _).trans hc.1) _ _).base
    obtain ⟨written, hwritten⟩ : ∃ t, Snap.putHeader u hdr (Snap.body c flags (min n (c.len * 1024)) rest) = t := ⟨_, rfl⟩
    rw [hwritten] at hend hN hS houtside hchains hseq hkept hbase
    have hmem := Acq.captured_mem written c
    obtain ⟨hsnap, hstate, htag, hdone, htrunc⟩ := Acq.captured_shows written c
    refine ⟨Acq.captured written c, (exec_capDone_ends feed hr hs hstop).trans (by rw [hend]), hsnap, hstate,
      (State.byte_congr hmem _).trans hN, (State.byte_congr hmem _).trans hS, (State.numAt_congr hmem _ _).trans hchains,
      (State.numAt_congr hmem _ _).trans hseq, (State.numAt_congr hmem _ _).trans hkept,
      (Acq.captured_only written c).base.trans hbase, htrunc, htag, hdone, fun a ha => ?_⟩
    exact (State.byte_congr hmem a).trans ((houtside a (by omega)).trans (hbyte a (by omega)))
  · intro held c s hr hs
    obtain ⟨hsnap, hovr, hirq⟩ := Acq.overrun_shows s
      { c with stop := some (min held (c.stop.getD (if c.ring then held else c.len * 1024))), ovr := true }
    obtain ⟨honly, hreg⟩ := Acq.overrun_only s
      { c with stop := some (min held (c.stop.getD (if c.ring then held else c.len * 1024))), ovr := true }
    refine ⟨_, exec_capOverrun_ends held hr hs, hsnap.trans ?_, hovr, hirq, honly, hreg⟩
    cases c.stop <;> rfl

end Sys2Proof.Machine
end

section
/-! ## Writes that a block acts on, and the code store (O24; spec/05 R108, R109, R136) -/

namespace Sys2Proof.Machine

/-! ### From a write command to its block's effect -/

/-- A write of a register that its block acts on, from the command to the block's effect `t`, which counts no error. -/
theorem Cmd.write_hook {s t : State} {req : Req} {p off v i : Nat} {b : Blk} (hw : s.Writable req p)
    (hp : pageInfo p = some (b, i)) (ho : off < 0x1000) (h4 : off % 4 = 0) (hh : (hasHeader b && decide (off < 0x040)) = false)
    (hf : Bus.fields b i off ≠ []) (hrd : (Bus.fields b i off).all (fun f => f.acc == .rd) = false)
    (ht : Bus.hook s req.code p b i off (v % 2 ^ 32)
      (Bus.store req.code (ownerPage p) (pg p + off) (Bus.fields b i off) (v % 2 ^ 32)) = t)
    (hq : t.Quiet) (hc : t.get (pg (ownerPage p)) H.COUNT = s.get (pg (ownerPage p)) H.COUNT) :
    Cmd.write s req (pg p + off) v = .next (t.answered req []) := by
  have hput : Bus.put s req.code p b i off (v % 2 ^ 32) = t := by
    rw [Bus.put_eq] <;> rw [hh] <;> simp only [Bool.false_eq_true, if_false, Bus.putBlock_hook hw.2 hf hrd, ht]
    exact hc.le
  rw [Cmd.write_reg hw.1 hp ho h4 (by rw [hput]; exact hq), hput]

/-! ### The code store (R106 to R109) -/

theorem State.codeWord_setCodeWord (s : State) (w v k : Nat) :
    (s.setCodeWord w v).codeWord k = if k = w then v % 2 ^ 32 else s.codeWord k := by
  unfold State.codeWord State.setCodeWord
  rw [Tab.get_set]
  split <;> simp

theorem State.mem_codeBad_setCodeWord (s : State) (w v k : Nat) : k ∈ (s.setCodeWord w v).codeBad ↔ k ∈ s.codeBad ∧ k ≠ w := by
  simp [State.setCodeWord]

/-- Writing a word of the store does not touch the registers. -/
theorem State.get_setCodeWord (s : State) (w v b : Nat) (f : Fld) : (s.setCodeWord w v).get b f = s.get b f :=
  State.get_congr (s := s.setCodeWord w v) (t := s) rfl b f

/-- The word at CS_ADDR is one of the store's 2^18 words. -/
theorem Code.waddr_lt (s : State) : s.get (pg 0x028) Code.CS_ADDR_WADDR < 2 ^ 18 := State.get_lt _ _ _

/-- Word `w` is stored and CS_ADDR advances past it. -/
def Code.wordStored (s : State) (w v : Nat) : State := (s.setCodeWord w v).put (pg 0x028) Code.CS_ADDR_WADDR (w + 1)

theorem Code.wordStored_codeWord (s : State) (w v k : Nat) :
    (Code.wordStored s w v).codeWord k = if k = w then v % 2 ^ 32 else s.codeWord k := by
  rw [← State.codeWord_setCodeWord, Code.wordStored, State.codeWord, State.put_code, State.codeWord]

theorem Code.mem_wordStored_codeBad (s : State) (w v k : Nat) :
    k ∈ (Code.wordStored s w v).codeBad ↔ k ∈ s.codeBad ∧ k ≠ w := by
  rw [← State.mem_codeBad_setCodeWord s w v, Code.wordStored, State.put_codeBad]

theorem Code.wordStored_waddr (s : State) (w v : Nat) :
    (Code.wordStored s w v).get (pg 0x028) Code.CS_ADDR_WADDR = (w + 1) % 2 ^ 18 := State.get_put_same _ _ _ _

theorem Code.wordStored_only (s : State) (w v : Nat) :
    Code.wordStored s w v = { s with regs := (Code.wordStored s w v).regs, code := (Code.wordStored s w v).code
                                     codeBad := (Code.wordStored s w v).codeBad, codeLog := (Code.wordStored s w v).codeLog } := by
  unfold Code.wordStored
  rw [State.put_only]
  rfl

theorem Code.wordStored_reg (s : State) (w v : Nat) {a : Nat} (h : a ≠ 0x28040) : (Code.wordStored s w v).reg a = s.reg a :=
  (State.RegsOnly.put (s.setCodeWord w v) (pg 0x028) Code.CS_ADDR_WADDR (w + 1) rfl).2 a (by rwa [List.mem_singleton])

/-- With no computation running, CS_DATA stores the word at CS_ADDR (R136). -/
theorem Code.dataWrite_idle {s : State} (h : s.crcRun = none) (v : Nat) :
    Code.dataWrite s v = Code.wordStored s (s.get (pg 0x028) Code.CS_ADDR_WADDR) v := by
  have hadv : Code.advance s = s := by
    unfold Code.advance
    rw [h]
  unfold Code.dataWrite
  rw [hadv]
  rfl

/-- What a read of a word with bad parity records (R109). -/
theorem State.parity_bad {s : State} {w : Nat} (h : w ∈ s.codeBad) (hw : w < 2 ^ 18) :
    (s.parity w).flag (pg 0x028) Code.CS_ERR_PERR = true ∧
      (s.flag (pg 0x028) Code.CS_ERR_PERR = false → (s.parity w).get (pg 0x028) Code.CS_ERR_ADDR = w) ∧
      ((s.parity w).get (pg 0x028) H.IRQ_RAW).testBit 1 = true := by
  unfold State.parity
  rw [if_pos h]
  extract_lets b t
  have hraise (f : Fld) (hf : H.IRQ_RAW.apart f = true) : (t.raise 0x028 1).get (pg 0x028) f = t.get (pg 0x028) f :=
    State.get_put_apart t (pg 0x028) _ hf
  refine ⟨?_, fun hperr => ?_, State.testBit_raise_same _ _ (by decide)⟩
  · unfold State.flag
    rw [hraise _ (by decide)]
    cases hperr : s.flag b Code.CS_ERR_PERR with
    | true => rwa [show t = s from if_pos hperr]
    | false =>
      have ht : t = (s.put b Code.CS_ERR_ADDR w).put b Code.CS_ERR_PERR 1 := if_neg (by simp [hperr])
      rw [ht, State.get_put_same]
      rfl
  · have ht : t = (s.put b Code.CS_ERR_ADDR w).put b Code.CS_ERR_PERR 1 := if_neg (by simp [b, hperr])
    rw [hraise _ (by decide), ht, State.get_put_apart _ _ _ (by decide), State.get_put_same]
    exact Nat.mod_eq_of_lt hw

/-! ### CRC-32C of the store (R136) -/

theorem crcBit_lt {r : Nat} (h : r < 2 ^ 32) : crcBit r < 2 ^ 32 := by
  unfold crcBit
  split
  · exact Nat.xor_lt_two_pow (by omega) (by decide)
  · omega

theorem crcByte_lt {r : Nat} (h : r < 2 ^ 32) (b : Nat) : crcByte r b < 2 ^ 32 := by
  have hxor : r ^^^ (b % 256) < 2 ^ 32 := Nat.xor_lt_two_pow h (by omega)
  unfold crcByte
  exact crcBit_lt (crcBit_lt (crcBit_lt (crcBit_lt (crcBit_lt (crcBit_lt (crcBit_lt (crcBit_lt hxor)))))))

theorem foldl_crcByte_lt (l : List Nat) {r : Nat} (h : r < 2 ^ 32) : l.foldl crcByte r < 2 ^ 32 := by
  induction l generalizing r with
  | nil => exact h
  | cons b l ih => exact ih (crcByte_lt h b)

theorem crc32c_lt (l : List Nat) : crc32c l < 2 ^ 32 := by
  unfold crc32c
  exact Nat.xor_lt_two_pow (foldl_crcByte_lt l (by decide)) (by decide)

/-- `State.crcWords` for any bytes of a word and any step: the step's own definition stays folded. -/
def Code.foldWords (bytes : Nat → List Nat) (step : Nat → Nat → Nat) (r : Nat) : Nat → Nat → Nat
  | _, 0 => r
  | w, n + 1 => Code.foldWords bytes step ((bytes w).foldl step r) (w + 1) n

theorem Code.foldWords_eq (bytes : Nat → List Nat) (step : Nat → Nat → Nat) (n : Nat) : ∀ r w,
    Code.foldWords bytes step r w n = ((List.range' w n).flatMap bytes).foldl step r := by
  induction n with
  | zero => exact fun _ _ => rfl
  | succ n ih =>
    intro r w
    rw [Code.foldWords, ih, List.range'_succ, List.flatMap_cons, List.foldl_append]

theorem State.crcWords_foldWords (s : State) :
    s.crcWords = Code.foldWords (fun k => leBytes 4 (s.codeWord k)) crcByte := by
  delta State.crcWords Code.foldWords
  rfl

/-- The running CRC over `n` words from `w` up is that over their bytes in address order. -/
theorem State.crcWords_eq (s : State) (r w n : Nat) :
    s.crcWords r w n = ((List.range' w n).flatMap (fun k => leBytes 4 (s.codeWord k))).foldl crcByte r := by
  rw [State.crcWords_foldWords, Code.foldWords_eq]

/-- A computation ends with the result `c`: CS_CRC shows it and CRC_DONE is raised. -/
def Code.crcShown (s : State) (c : Nat) : State :=
  ({ s with crcRun := none }.put (pg 0x028) Code.CS_CRC_CRC c).raise 0x028 0

theorem Code.crcShown_result (s : State) {c : Nat} (hc : c < 2 ^ 32) : (Code.crcShown s c).get (pg 0x028) Code.CS_CRC_CRC = c := by
  unfold Code.crcShown State.raise
  rw [State.get_put_apart _ _ _ (by decide), State.get_put_same]
  exact Nat.mod_eq_of_lt hc

theorem Code.crcShown_done (s : State) (c : Nat) : ((Code.crcShown s c).get (pg 0x028) H.IRQ_RAW).testBit 0 = true :=
  State.testBit_raise_same _ _ (by decide)

theorem Code.crcShown_only (s : State) (c : Nat) :
    Code.crcShown s c = { s with regs := (Code.crcShown s c).regs, crcRun := none } := by
  unfold Code.crcShown
  rw [State.raise_only, State.put_only]

theorem Code.crcShown_reg (s : State) (c : Nat) {a : Nat} (h1 : a ≠ 0x2804C) (h2 : a ≠ 0x28014) :
    (Code.crcShown s c).reg a = s.reg a := by
  unfold Code.crcShown
  rw [(State.RegsOnly.raise _ _ _).2 a (by rwa [List.mem_singleton]),
    (State.RegsOnly.put _ _ _ _ rfl).2 a (by rwa [List.mem_singleton])]
  rfl

/-- The bytes of the whole store in address order. -/
def State.storeBytes (s : State) : List Nat := (List.range (2 ^ 18)).flatMap (fun w => leBytes 4 (s.codeWord w))

/-- A computation over the whole store gives the CRC-32C of its bytes. -/
theorem State.crcWords_store (s : State) : s.crcWords 0xFFFFFFFF 0 (2 ^ 18) ^^^ 0xFFFFFFFF = crc32c s.storeBytes := by
  rw [State.crcWords_eq, ← List.range_eq_range', crc32c, State.storeBytes]

/-! ### The commands -/

theorem Code.page_listed : pageInfo 0x028 = some (.code, 0) ∧ ownerPage 0x028 = 0x028 := by decide

theorem exec_csDataWrite (req : Req) (value : BitVec 32) (s : State) :
    exec (.csDataWrite req value) s = Cmd.write s req (pg 0x028 + 0x044) value.toNat := rfl

theorem exec_csDataRead (req : Req) (s : State) : exec (.csDataRead req) s = Cmd.read s req (pg 0x028 + 0x044) := rfl

theorem exec_crcStart (req : Req) (s : State) : exec (.crcStart req) s = Cmd.write s req (pg 0x028 + 0x048) 1 := rfl

theorem exec_crcDone (s : State) : exec .crcDone s = execCrcDone s := rfl

/-- A write of a CODE register, from the command to its effect `t`. -/
theorem Cmd.write_code {s t : State} {req : Req} {off v : Nat} (hw : s.Writable req 0x028)
    (ho : 0x040 ≤ off ∧ off < 0x1000 ∧ off % 4 = 0)
    (hf : Bus.fields .code 0 off ≠ [] ∧ (Bus.fields .code 0 off).all (fun f => f.acc == .rd) = false)
    (ht : ∀ store, Code.write s off (v % 2 ^ 32) store = t) (hq : t.Quiet)
    (hc : t.reg (pg 0x028 + 0x024) = s.reg (pg 0x028 + 0x024)) :
    Cmd.write s req (pg 0x028 + off) v = .next (t.answered req []) :=
  Cmd.write_hook hw Code.page_listed.1 ho.2.1 ho.2.2 (by simp; omega) hf.1 hf.2 (ht _) hq
    (by rw [Code.page_listed.2]; exact State.get_of_reg rfl hc)

/-- CS_DATA_WRITE stores the word at CS_ADDR. -/
theorem exec_csDataWrite_idle {s : State} {req : Req} (hq : s.Quiet) (hw : s.Writable req 0x028) (h : s.crcRun = none)
    (value : BitVec 32) : exec (.csDataWrite req value) s =
      .next ((Code.wordStored s (s.get (pg 0x028) Code.CS_ADDR_WADDR) value.toNat).answered req []) := by
  have hv : value.toNat % 2 ^ 32 = value.toNat := Nat.mod_eq_of_lt value.isLt
  rw [exec_csDataWrite]
  refine Cmd.write_code hw (by decide) (by decide) (fun store => ?_) ?_ ?_
  · rw [hv]
    exact Code.dataWrite_idle h _
  · exact State.quiet_put (s := s.setCodeWord _ _) hq _ _ _
  · exact Code.wordStored_reg s _ _ (by decide)

/-- CRC_START begins a computation at word 0 with all ones. -/
theorem exec_crcStart_begins {s : State} {req : Req} (hq : s.Quiet) (hw : s.Writable req 0x028) :
    exec (.crcStart req) s = .next (State.answered { s with crcRun := some 0, crcAcc := 0xFFFFFFFF } req []) := by
  rw [exec_crcStart]
  exact Cmd.write_code (t := Code.crcStart s) hw (by decide) (by decide) (fun _ => rfl) hq rfl

/-- CS_DATA_READ answers the word at CS_ADDR and leaves what `Code.dataRead` says. -/
theorem exec_csDataRead_answers {s : State} {req : Req} (h : s.Reaches req 0x028) :
    exec (.csDataRead req) s = .next (((s.parity (s.get (pg 0x028) Code.CS_ADDR_WADDR)).put (pg 0x028) Code.CS_ADDR_WADDR
      (s.get (pg 0x028) Code.CS_ADDR_WADDR + 1)).answered req
      [BitVec.ofNat 32 (s.codeWord (s.get (pg 0x028) Code.CS_ADDR_WADDR))]) := by
  have hget : Bus.get s req.code 0x028 .code 0 0x044 = Code.dataRead s := by
    have hwide : Bus.wide .code 0 0x044 = 1 := by decide
    unfold Bus.get
    rw [if_neg (by decide)]
    simp only [hwide, le_refl, true_or, if_true]
    rfl
  rw [exec_csDataRead]
  unfold Cmd.read
  rw [Bus.fetch_reg h Code.page_listed.1 (by decide) (by decide), hget]
  rfl

/-- CRC_DONE of an undisturbed computation. -/
theorem exec_crcDone_whole {s : State} (hrun : s.crcRun = some 0) (hacc : s.crcAcc = 0xFFFFFFFF) (hf : s.frozen 0x028 = false) :
    exec .crcDone s =
      .next (Code.crcShown s (crc32c s.storeBytes)) := by
  have hresult : s.crcWords s.crcAcc.toNat 0 (2 ^ 18 - 0) ^^^ 0xFFFFFFFF = crc32c s.storeBytes := by
    rw [hacc]
    exact s.crcWords_store
  rw [exec_crcDone, ← hresult]
  unfold execCrcDone
  rw [hrun]
  simp only [hf, Bool.false_eq_true, if_false]
  rfl

/-- Settles O24: the word written or read at CS_ADDR, and the CRC-32C of the whole store. -/
theorem codeStoreCommands : Obligations.CodeStoreCommands := by
  unfold Obligations.CodeStoreCommands
  refine ⟨fun req value s hq hw hrun => ?_, fun req s hr => ?_, fun req s hq hw => exec_crcStart_begins hq hw,
    fun s hrun hacc hf => ?_⟩
  · intro w
    have hword := Code.wordStored_codeWord s w value.toNat
    have hbad := Code.mem_wordStored_codeBad s w value.toNat
    refine ⟨_, exec_csDataWrite_idle hq hw hrun value, ?_, fun h => ((hbad w).1 h).2 rfl,
      fun k hk => ⟨(hword k).trans (if_neg hk), (hbad k).trans (and_iff_left hk)⟩, ?_, ?_,
      fun a ha => Code.wordStored_reg s w _ ha⟩
    · exact ((hword w).trans (if_pos rfl)).trans (Nat.mod_eq_of_lt value.isLt)
    · exact (State.get_answered_req _ _ _ _ _).trans (Code.wordStored_waddr s w _)
    · exact congrArg (fun t : State => t.answered req []) (Code.wordStored_only s w value.toNat)
  · intro w
    have hput := State.RegsOnly.put (s.parity w) (pg 0x028) Code.CS_ADDR_WADDR (w + 1) rfl
    have hanswer (t : State) (ws : List Nat) (l : List Word) (h : s.RegsOnly t ws) : s.RegsOnly (t.answered req l) ws :=
      h.trans ((State.RegsOnly.answered t req l).mono (by simp))
    refine ⟨_, exec_csDataRead_answers hr, rfl, ?_, fun h => hanswer _ _ _ ?_, fun h => ⟨hanswer _ _ _ ?_, ?_⟩⟩
    · rw [State.get_answered_req, State.get_put_same]
      rfl
    · have hsame : s.parity w = s := if_neg h
      rw [hsame] at hput ⊢
      exact hput
    · exact ((State.RegsOnly.parity s w).mono (by decide)).trans (hput.mono (by decide))
    · obtain ⟨hperr, haddr, hirq⟩ := State.parity_bad h (Code.waddr_lt s)
      have hapart (f : Fld) (hf : Code.CS_ADDR_WADDR.apart f = true) :=
        State.get_put_apart (s.parity w) (pg 0x028) (w + 1) hf
      refine ⟨?_, fun h0 => ?_, ?_⟩
      · rw [State.flag_answered, State.flag_put_apart _ _ _ (by decide), hperr]
      · rw [State.get_answered_req, hapart _ (by decide), haddr h0]
      · rw [State.get_answered_req, hapart _ (by decide), hirq]
  · have hend := exec_crcDone_whole hrun hacc hf
    unfold State.storeBytes at hend
    have hlt := crc32c_lt ((List.range (2 ^ 18)).flatMap (fun w => leBytes 4 (s.codeWord w)))
    generalize crc32c ((List.range (2 ^ 18)).flatMap (fun w => leBytes 4 (s.codeWord w))) = c at hend hlt ⊢
    have honly := Code.crcShown_only s c
    exact ⟨_, hend, congrArg State.crcRun honly, Code.crcShown_done s _,
      Code.crcShown_result s hlt, honly, fun a h1 h2 => Code.crcShown_reg s _ h1 h2⟩

end Sys2Proof.Machine
end

section
/-! ## What an act on one tracking channel changes (what O21 to O23 rest on; spec/05 R110 to R127) -/

namespace Sys2Proof.Machine

/-! ### Channel records -/

theorem State.chn_setChn (s : State) (n : Nat) (c : Chan) (k : Nat) : (s.setChn n c).chn k = if k = n then c else s.chn k :=
  Tab.get_set _ _ _ _ _

@[simp] theorem State.chn_setChn_same (s : State) (n : Nat) (c : Chan) : (s.setChn n c).chn n = c := by
  simp [State.chn_setChn]

theorem State.chn_setChn_ne (s : State) {n k : Nat} (h : k ≠ n) (c : Chan) : (s.setChn n c).chn k = s.chn k := by
  simp [State.chn_setChn, h]

theorem State.chn_congr {s t : State} (h : s.chan = t.chan) (k : Nat) : s.chn k = t.chn k := by
  unfold State.chn
  rw [h]

@[simp] theorem State.chn_put (s : State) (b : Nat) (f : Fld) (v k : Nat) : (s.put b f v).chn k = s.chn k :=
  State.chn_congr (State.put_chan s b f v) k

theorem State.get_setChn (s : State) (n : Nat) (c : Chan) (b : Nat) (f : Fld) : (s.setChn n c).get b f = s.get b f :=
  State.get_congr (s := s.setChn n c) (t := s) rfl b f

theorem State.armedAt_congr {s t : State} (h : s.armed = t.armed) (key : Nat) : s.armedAt key = t.armedAt key := by
  unfold State.armedAt
  rw [h]

theorem State.armedAt_disarm (s : State) (key k : Nat) : (s.disarm key).armedAt k = if k = key then none else s.armedAt k := by
  unfold State.armedAt State.disarm
  rw [List.find?_filter]
  split
  · next h =>
    subst h
    exact List.find?_eq_none.2 fun x _ => by simp
  · next h =>
    congr 1
    funext x
    by_cases hx : x.key = k
    · simp [hx, h]
    · simp [hx]

/-! ### The frame of an act on one channel -/

/-- `t` differs from `s` at most in channel `n`'s record, the working copies, the dump FIFO, the answer and the register words `ws`. -/
structure Ch.Only (s t : State) (n : Nat) (ws : List Nat) : Prop where
  rest : t = { s with regs := t.regs, resp := t.resp, work := t.work, chan := t.chan, dumpFifo := t.dumpFifo }
  reg : ∀ a ∉ ws, t.reg a = s.reg a
  chn : ∀ k ≠ n, t.chn k = s.chn k

namespace Ch.Only

variable {s t u : State} {n : Nat} {ws : List Nat}

theorem refl (s : State) (n : Nat) (ws : List Nat) : Ch.Only s s n ws := ⟨rfl, fun _ _ => rfl, fun _ _ => rfl⟩

theorem trans (h : Ch.Only s t n ws) (h' : Ch.Only t u n ws) : Ch.Only s u n ws :=
  ⟨by rw [h'.rest, h.rest], fun a ha => (h'.reg a ha).trans (h.reg a ha), fun k hk => (h'.chn k hk).trans (h.chn k hk)⟩

theorem mono {vs : List Nat} (h : Ch.Only s t n ws) (hs : ∀ a ∈ ws, a ∈ vs) : Ch.Only s t n vs :=
  ⟨h.rest, fun a ha => h.reg a (fun hm => ha (hs a hm)), h.chn⟩

/-! ### What stands -/

theorem armedAt (h : Ch.Only s t n ws) (key : Nat) : t.armedAt key = s.armedAt key :=
  State.armedAt_congr (by rw [h.rest]) key

theorem quiet (h : Ch.Only s t n ws) (hq : s.Quiet) : t.Quiet := by
  rw [h.rest]
  exact hq

/-- A field of one word that is not among those that may change. -/
theorem get (h : Ch.Only s t n ws) {b : Nat} {f : Fld} (hf : f.words = 1) (hn : b + f.off ∉ ws) : t.get b f = s.get b f :=
  State.get_of_reg hf (h.reg _ hn)

/-- The same act with a COMMIT dropped before it. -/
theorem disarm (h : Ch.Only s t n ws) (key : Nat) : Ch.Only (s.disarm key) (t.disarm key) n ws := by
  refine ⟨?_, h.reg, h.chn⟩
  conv_lhs => rw [h.rest]
  rfl

/-! ### One more update -/

theorem regsOnly {vs : List Nat} (h : Ch.Only s t n ws) (h' : t.RegsOnly u vs) (hs : ∀ a ∈ vs, a ∈ ws) : Ch.Only s u n ws := by
  refine h.trans ⟨?_, fun a ha => h'.2 a (fun hm => ha (hs a hm)), fun k _ => ?_⟩
  · rw [h'.1]
  · rw [h'.1]
    rfl

theorem put (h : Ch.Only s t n ws) (b : Nat) (f : Fld) (v : Nat) (hf : f.words = 1) (hw : b + f.off ∈ ws) :
    Ch.Only s (t.put b f v) n ws :=
  h.regsOnly (State.RegsOnly.put t b f v hf) (by simpa using hw)

theorem chRaise (h : Ch.Only s t n ws) (bit : Nat) (hw : Ch.b n + 0x008 ∈ ws) : Ch.Only s (t.chRaise n bit) n ws :=
  h.put _ _ _ rfl hw

theorem raise (h : Ch.Only s t n ws) (p bit : Nat) (hw : pg p + 0x014 ∈ ws) : Ch.Only s (t.raise p bit) n ws := h.put _ _ _ rfl hw

theorem raiseIf (h : Ch.Only s t n ws) (c : Bool) (p bit : Nat) (hw : pg p + 0x014 ∈ ws) : Ch.Only s (t.raiseIf c p bit) n ws :=
  h.regsOnly (State.RegsOnly.raiseIf t c p bit) (by simpa using hw)

theorem logErr (h : Ch.Only s t n ws) (p code a req : Nat) (hw : ∀ a ∈ [pg p + 0x014, pg p + 0x024, pg p + 0x028], a ∈ ws) :
    Ch.Only s (t.logErr p code a req) n ws :=
  h.regsOnly (State.RegsOnly.logErr t p code a req) hw

theorem setChn (h : Ch.Only s t n ws) (c : Chan) : Ch.Only s (t.setChn n c) n ws :=
  h.trans ⟨rfl, fun _ _ => rfl, fun _ hk => State.chn_setChn_ne t hk c⟩

theorem setFifo (h : Ch.Only s t n ws) (l : List (Nat × Nat × List Nat)) : Ch.Only s { t with dumpFifo := l } n ws :=
  h.trans ⟨rfl, fun _ _ => rfl, fun _ _ => rfl⟩

theorem copyShadow (h : Ch.Only s t n ws) (lo hi : Nat) : Ch.Only s (t.copyShadow lo hi) n ws :=
  h.trans ⟨rfl, fun _ _ => rfl, fun _ _ => rfl⟩

theorem ite (h : Ch.Only s t n ws) (c : Prop) [Decidable c] (h' : Ch.Only s u n ws) : Ch.Only s (if c then t else u) n ws := by
  split
  · exact h
  · exact h'

end Ch.Only

/-! ### The words an act on channel `n` writes -/

/-- CH_STAT and CH_IRQ_RAW, the tracking page's events, error log and DUMP_OVF, and the code store's parity record. -/
def Ch.words (n : Nat) : List Nat :=
  [Ch.b n + 0x004, Ch.b n + 0x008, pg 0x030 + 0x014, pg 0x030 + 0x024, pg 0x030 + 0x028, pg 0x030 + 0x058, pg 0x028 + 0x050,
    pg 0x028 + 0x014]

theorem Ch.stat_mem_words (n : Nat) : Ch.b n + 0x004 ∈ Ch.words n := by simp [Ch.words]

theorem Ch.irq_mem_words (n : Nat) : Ch.b n + 0x008 ∈ Ch.words n := by simp [Ch.words]

theorem Trkg.irq_mem_words (n : Nat) : pg Trkg.p + 0x014 ∈ Ch.words n := by simp [Ch.words, Trkg.p]

theorem Trkg.log_mem_words (n : Nat) : ∀ a ∈ [pg Trkg.p + 0x014, pg Trkg.p + 0x024, pg Trkg.p + 0x028], a ∈ Ch.words n := by
  simp [Ch.words, Trkg.p]

/-- Of the words of the channel entries an act on channel `n` writes its own CH_STAT and CH_IRQ_RAW. -/
theorem Ch.not_mem_words {n a : Nat} (ha : 0x100000 ≤ a) (h1 : a ≠ Ch.b n + 0x004) (h2 : a ≠ Ch.b n + 0x008) : a ∉ Ch.words n := by
  simp only [Ch.words, pg, List.mem_cons, List.not_mem_nil, or_false, not_or]
  omega

/-! ### Intervals and samples -/

theorem Trkg.drop_only {s t : State} {n : Nat} (h : Ch.Only s t n (Ch.words n)) : Ch.Only s (Trkg.drop t n) n (Ch.words n) := by
  unfold Trkg.drop
  extract_lets b z u
  have hu : Ch.Only s u n (Ch.words n) :=
    (h.put b Trkg.DUMP_OVF_COUNT _ rfl (by simp [Ch.words, b, Trkg.p, Trkg.DUMP_OVF_COUNT])).raiseIf _ Trkg.p 17 (Trkg.irq_mem_words n)
  exact hu.setChn _

theorem Ch.endInterval_only {s t : State} {n : Nat} (h : Ch.Only s t n (Ch.words n)) (cut load : Bool) :
    Ch.Only s (Ch.endInterval t n cut load) n (Ch.words n) := by
  unfold Ch.endInterval
  extract_lets +onlyGivenNames b c syn t1 dumping seq t2 time flags fields taps t3
  have h1 : Ch.Only s t1 n (Ch.words n) := h.ite _ (h.chRaise 4 (Ch.irq_mem_words n))
  have h2 : Ch.Only s t2 n (Ch.words n) := h1.put b Ch.CH_STAT_DUMP_SEQ _ rfl (Ch.stat_mem_words n)
  have h3 : Ch.Only s t3 n (Ch.words n) := Ch.Only.ite ((Trkg.drop_only h2).ite _ ((h2.setFifo _).setChn _)) _ h1
  exact h3.setChn _

theorem Ch.runUntil_only {s t : State} {n : Nat} (h : Ch.Only s t n (Ch.words n)) (m : Nat) (feed : List Smp) :
    Ch.Only s (Ch.runUntil t n m feed) n (Ch.words n) := by
  unfold Ch.runUntil
  extract_lets +onlyGivenNames c c' last
  refine h.ite _ ?_
  exact ((h.setChn c').regsOnly (State.RegsOnly.parityOf _ _ _ _) (by simp [Ch.words])).put _ Ch.CH_STAT_SRC_VALID _ rfl
    (Ch.stat_mem_words n)

end Sys2Proof.Machine
end

section
/-! ## The dump path and the tracking page's enable (O23; spec/05 R127, R134, R135) -/

namespace Sys2Proof.Machine

/-! ### A word of fields that take any value -/

/-- A pulse field keeps its stored bits; a free or shadow field of any value takes the written ones. -/
def FieldAt.Plain (f : FieldAt) : Prop := f.acc = .pu ∨ ((f.acc = .fr ∨ f.acc = .sh) ∧ f.chk = .any)

/-- The word that a plain field takes its bits from. -/
def FieldAt.source (f : FieldAt) (old v : Nat) : Nat := if f.acc = .pu then old else v

theorem FieldAt.Plain.write {f : FieldAt} (h : f.Plain) (old v : Nat) (first : Bool) :
    f.write old v first = (bitsOf (f.source old v) f.lo f.w, none) := by
  unfold FieldAt.write FieldAt.source
  rcases h with h | ⟨h | h, hany⟩
  · simp [h]
  · simp [h, hany]
  · simp [h, hany]

theorem FieldAt.Plain.not_once {f : FieldAt} (h : f.Plain) : (f.acc == .on) = false := by
  rcases h with h | ⟨h | h, -⟩ <;> rw [h] <;> rfl

/-- Fields laid into a word one by one make `t`, when each has `t`'s bits and `t` keeps the word's other bits. -/
theorem foldl_putBits_eq {fs : List FieldAt} {src : FieldAt → Nat} {t : Nat}
    (hsrc : ∀ f ∈ fs, bitsOf (src f) f.lo f.w = bitsOf t f.lo f.w) : ∀ {n : Nat},
    (∀ i, (∀ f ∈ fs, ¬(f.lo ≤ i ∧ i < f.lo + f.w)) → n.testBit i = t.testBit i) →
    fs.foldl (fun n f => putBits n f.lo f.w (bitsOf (src f) f.lo f.w)) n = t := by
  induction fs with
  | nil => exact fun hkeep => Nat.eq_of_testBit_eq fun i => hkeep i (by simp)
  | cons f fs ih =>
    intro n hkeep
    refine ih (fun g hg => hsrc g (List.mem_cons_of_mem _ hg)) fun i hi => ?_
    rw [putBits_testBit, hsrc f List.mem_cons_self, bitsOf_testBit]
    by_cases hlo : i < f.lo
    · rw [if_pos hlo]
      exact hkeep i (List.forall_mem_cons.2 ⟨by omega, hi⟩)
    · by_cases hhi : i < f.lo + f.w
      · have hin : f.lo + (i - f.lo) = i := by omega
        have hlt : i - f.lo < f.w := by omega
        simp [hlo, hhi, hin, hlt]
      · rw [if_neg hlo, if_neg hhi]
        exact hkeep i (List.forall_mem_cons.2 ⟨by omega, hi⟩)

/-- Storing plain fields writes the word that has their bits. -/
theorem Bus.store_plain {s : State} {req p a v t : Nat} {fs : List FieldAt} (hfs : ∀ f ∈ fs, f.Plain)
    (hsrc : ∀ f ∈ fs, bitsOf (f.source (s.regN a) v) f.lo f.w = bitsOf t f.lo f.w)
    (hkeep : ∀ i, (∀ f ∈ fs, ¬(f.lo ≤ i ∧ i < f.lo + f.w)) → (s.regN a).testBit i = t.testBit i) :
    Bus.store req p a fs v s = s.setReg a t := by
  have honce : fs.any (fun f => f.acc == .on) = false := by
    simpa using fun f hf => by simpa using (hfs f hf).not_once
  unfold Bus.store
  extract_lets first step
  have hfold : fs.foldl step (s.regN a, none) = (t, none) := by
    rw [← foldl_putBits_eq hsrc hkeep]
    refine List.foldl_rel (r := fun x n => x = (n, none)) rfl fun f hf x n hx => ?_
    simp only [hx, (hfs f hf).write]
  simp only [hfold, honce, Bool.false_and, Bool.false_eq_true, if_false]

/-! ### A command that sets some bits of a word (R9) -/

/-- The word that such a command writes. -/
def Cmd.bitsWord (s : State) (a pul lo w v : Nat) : Nat := putBits (s.regN a &&& (2 ^ 32 - 1 - pul)) lo w v % 2 ^ 32

/-- The bits that it sets. -/
theorem Cmd.bitsOf_bitsWord (s : State) (a pul v : Nat) {lo w : Nat} (h : lo + w ≤ 32) :
    bitsOf (Cmd.bitsWord s a pul lo w v) lo w = v % 2 ^ w := by
  rw [Cmd.bitsWord, bitsOf_mod h, bitsOf_putBits]

/-- Bits that it neither sets nor pulses are the register's. -/
theorem Cmd.bitsOf_bitsWord_ne (s : State) {a pul lo w v lo' w' : Nat} (hp : pul < 2 ^ 32) (h : lo' + w' ≤ 32)
    (hne : lo' + w' ≤ lo ∨ lo + w ≤ lo') (hpul : bitsOf pul lo' w' = 0) :
    bitsOf (Cmd.bitsWord s a pul lo w v) lo' w' = bitsOf (s.regN a) lo' w' := by
  rw [Cmd.bitsWord, bitsOf_mod h, bitsOf_putBits_ne _ _ _ _ _ _ hne]
  refine Nat.eq_of_testBit_eq fun i => ?_
  have hzero : (decide (i < w') && pul.testBit (lo' + i)) = false := by rw [← bitsOf_testBit, hpul, Nat.zero_testBit]
  rw [bitsOf_testBit, bitsOf_testBit, Nat.testBit_and, Nat.sub_sub, Nat.add_comm 1, Nat.testBit_two_pow_sub_succ hp]
  by_cases hi : i < w'
  · have hlt : lo' + i < 32 := by omega
    simp_all
  · simp [hi]

/-- The pulse bits that it does not set are 0. -/
theorem Cmd.bitsOf_bitsWord_pulse (s : State) {a pul lo w v lo' w' : Nat} (hp : pul < 2 ^ 32) (h : lo' + w' ≤ 32)
    (hne : lo' + w' ≤ lo ∨ lo + w ≤ lo') (hpul : bitsOf pul lo' w' = 2 ^ w' - 1) :
    bitsOf (Cmd.bitsWord s a pul lo w v) lo' w' = 0 := by
  rw [Cmd.bitsWord, bitsOf_mod h, bitsOf_putBits_ne _ _ _ _ _ _ hne]
  refine Nat.eq_of_testBit_eq fun i => ?_
  have hone : (decide (i < w') && pul.testBit (lo' + i)) = decide (i < w') := by
    rw [← bitsOf_testBit, hpul, Nat.testBit_two_pow_sub_one]
  rw [bitsOf_testBit, Nat.zero_testBit, Nat.testBit_and, Nat.sub_sub, Nat.add_comm 1, Nat.testBit_two_pow_sub_succ hp]
  by_cases hi : i < w'
  · simp_all
  · simp [hi]

/-! ### Each element of a list, acting on its own place -/

/-- Where the effect at `n` leaves what `g` shows of the other places, each place of the list is acted on once. -/
theorem State.each_at {β : Type} {P : State → Prop} {g : Nat → State → β} {f : State → Nat → State}
    (hP : ∀ u n, P u → P (f u n)) (hother : ∀ u n k, k ≠ n → g k (f u n) = g k u) {l : List Nat} (hl : l.Nodup) {s : State}
    (hs : P s) {k : Nat} (hk : k ∈ l) : ∃ u, P u ∧ g k u = g k s ∧ g k (s.each l f) = g k (f u k) := by
  unfold State.each
  induction l generalizing s with
  | nil => simp at hk
  | cons n l ih =>
    obtain ⟨hn, hl⟩ := List.nodup_cons.1 hl
    rw [List.foldl_cons]
    by_cases h : k = n
    · subst h
      exact ⟨s, hs, rfl, State.each_inv_mem (fun u => g k u = g k (f s k))
        (fun u x hx hu => (hother u x k (fun e => hn (e.symm ▸ hx))).trans hu) rfl⟩
    · obtain ⟨u, hu, hsame, hdone⟩ := ih hl (hP s n hs) ((List.mem_cons.1 hk).resolve_left h)
      exact ⟨u, hu, hsame.trans (hother s n k h), hdone⟩

/-- The same where what `g` shows of `n` decides what the effect makes of it. -/
theorem State.each_apply {β : Type} {g : Nat → State → β} {act : β → β} {f : State → Nat → State}
    (hsame : ∀ s n, g n (f s n) = act (g n s)) (hother : ∀ s n k, k ≠ n → g k (f s n) = g k s) {l : List Nat} (hl : l.Nodup)
    (s : State) {k : Nat} (hk : k ∈ l) : g k (s.each l f) = act (g k s) := by
  obtain ⟨u, -, hu, hdone⟩ := State.each_at (P := fun _ => True) (fun _ _ _ => trivial) hother hl (s := s) trivial hk
  rw [hdone, hsame, hu]

/-! ### What register words and memory leave -/

theorem State.RegsOnly.chan {s t : State} {ws : List Nat} (h : s.RegsOnly t ws) : t.chan = s.chan := by rw [h.1]

theorem State.RegsOnly.dumpFifo {s t : State} {ws : List Nat} (h : s.RegsOnly t ws) : t.dumpFifo = s.dumpFifo := by rw [h.1]

theorem State.RegsOnly.mem {s t : State} {ws : List Nat} (h : s.RegsOnly t ws) : t.mem = s.mem := by rw [h.1]

theorem State.put8_chan {s : State} (h : s.eccBad = []) (a : Nat) (l : List Nat) : (s.put8 a l).chan = s.chan := by
  rw [State.put8_only h]

theorem State.put8_dumpFifo {s : State} (h : s.eccBad = []) (a : Nat) (l : List Nat) :
    (s.put8 a l).dumpFifo = s.dumpFifo := by
  rw [State.put8_only h]

theorem State.put8_regs {s : State} (h : s.eccBad = []) (a : Nat) (l : List Nat) : (s.put8 a l).regs = s.regs := by
  rw [State.put8_only h]

theorem State.reg_congr {s t : State} (h : s.regs = t.regs) (a : Nat) : s.reg a = t.reg a := by
  unfold State.reg
  rw [h]

/-! ### The oldest dump record (R127) -/

theorem exec_dumpRecordWrite (s : State) : exec .dumpRecordWrite s = execDumpRecordWrite s := rfl

/-- The record `r` is in the ring at `dst` and DUMP_WP stands at the slot `w`. -/
def Trkg.recordWritten (s : State) (l : List (Nat × Nat × List Nat)) (dst : Nat) (r : List Nat) (w : Nat) : State :=
  Trkg.watermark (({ s with dumpFifo := l }.put8 dst r).put (pg 0x030) Trkg.DUMP_WP_WP w)

theorem exec_dumpRecordWrite_room {s : State} {k n : Nat} {r : List Nat} {l : List (Nat × Nat × List Nat)}
    (hfifo : s.dumpFifo = (k, n, r) :: l) (hrun : s.running .fabric = true) (hsize : s.get (pg 0x030) Trkg.DUMP_SIZE_SIZE ≠ 0)
    (hbase : s.get (pg 0x030) Trkg.DUMP_BASE_BASE ≠ 0) (hclean : s.eccBad = [])
    (hroom : (s.get (pg 0x030) Trkg.DUMP_WP_WP + 1) % s.get (pg 0x030) Trkg.DUMP_SIZE_SIZE ≠ s.get (pg 0x030) Trkg.DUMP_RP_RP) :
    exec .dumpRecordWrite s = .next (Trkg.recordWritten s l
      (s.get (pg 0x030) Trkg.DUMP_BASE_BASE * 0x1000 + 96 * s.get (pg 0x030) Trkg.DUMP_WP_WP) r
      ((s.get (pg 0x030) Trkg.DUMP_WP_WP + 1) % s.get (pg 0x030) Trkg.DUMP_SIZE_SIZE)) := by
  have hmax : max (s.get (pg 0x030) Trkg.DUMP_SIZE_SIZE) 1 = s.get (pg 0x030) Trkg.DUMP_SIZE_SIZE := by omega
  have hfull : Trkg.full s = false := by
    unfold Trkg.full Trkg.p
    simp only [hmax, beq_eq_false_iff_ne]
    exact hroom
  have hput (a : Nat) : ({ s with dumpFifo := l }.put8 a r).get (pg 0x030) Trkg.DUMP_SIZE_SIZE = s.get (pg 0x030) Trkg.DUMP_SIZE_SIZE := by
    rw [State.put8_only (s := { s with dumpFifo := l }) hclean]
    exact State.get_congr rfl _ _
  rw [exec_dumpRecordWrite]
  unfold execDumpRecordWrite
  simp only [hfifo, Trkg.p, hbase, hfull, hrun, hput, hmax, Bool.false_eq_true, Bool.not_true, or_self, if_false]
  rfl

theorem Trkg.recordWritten_frame (s : State) (l : List (Nat × Nat × List Nat)) (dst : Nat) (r : List Nat) (w : Nat) :
    ({ s with dumpFifo := l }.put8 dst r).RegsOnly (Trkg.recordWritten s l dst r w) [0x3004C, 0x30014] :=
  ((State.RegsOnly.put _ _ _ _ rfl).mono (by decide)).trans ((State.RegsOnly.raiseIf _ _ _ _).mono (by decide))

/-- Of what is no register the record changes memory, the data caches and the FIFO. -/
theorem Trkg.recordWritten_only {s : State} (h : s.eccBad = []) (l : List (Nat × Nat × List Nat)) (dst : Nat) (r : List Nat)
    (w : Nat) : (Trkg.recordWritten s l dst r w).dumpFifo = l ∧ (Trkg.recordWritten s l dst r w).chan = s.chan ∧
      ∀ a, a ≠ 0x3004C → a ≠ 0x30014 → (Trkg.recordWritten s l dst r w).reg a = s.reg a := by
  have hframe := Trkg.recordWritten_frame s l dst r w
  have hclean : { s with dumpFifo := l }.eccBad = [] := h
  exact ⟨hframe.dumpFifo.trans (State.put8_dumpFifo hclean dst r), hframe.chan.trans (State.put8_chan hclean dst r),
    fun a h1 h2 => (hframe.2 a (by simp [h1, h2])).trans (State.reg_congr (State.put8_regs hclean dst r) a)⟩

theorem Trkg.recordWritten_byte (s : State) (l : List (Nat × Nat × List Nat)) (dst : Nat) (r : List Nat) (w a : Nat) :
    (Trkg.recordWritten s l dst r w).byte a = ({ s with dumpFifo := l }.put8 dst r).byte a :=
  State.byte_congr (Trkg.recordWritten_frame s l dst r w).mem a

theorem Trkg.recordWritten_wp (s : State) (l : List (Nat × Nat × List Nat)) (dst : Nat) (r : List Nat) (w : Nat) :
    (Trkg.recordWritten s l dst r w).get (pg 0x030) Trkg.DUMP_WP_WP = w % 2 ^ 20 := by
  have hput := State.get_put_same ({ s with dumpFifo := l }.put8 dst r) (pg 0x030) Trkg.DUMP_WP_WP w
  refine ((State.RegsOnly.raiseIf _ _ _ _).get _ _ fun i hi => ?_).trans hput
  obtain rfl : i = 0 := Nat.lt_one_iff.1 hi
  decide

/-- DUMP_RECORD_WRITE with room in a ring of shared SRAM. -/
theorem dumpRecordWrite_stores {s : State} {k n : Nat} {r : List Nat} {l : List (Nat × Nat × List Nat)}
    (hclean : s.Clean) (hfifo : s.dumpFifo = (k, n, r) :: l) (hlen : r.length = 96) (hrun : s.running .fabric = true)
    (hsize : s.get (pg 0x030) Trkg.DUMP_SIZE_SIZE ≠ 0) (hbase : s.get (pg 0x030) Trkg.DUMP_BASE_BASE ≠ 0)
    (hroom : (s.get (pg 0x030) Trkg.DUMP_WP_WP + 1) % s.get (pg 0x030) Trkg.DUMP_SIZE_SIZE ≠ s.get (pg 0x030) Trkg.DUMP_RP_RP)
    {dst : Nat} (hdst : s.get (pg 0x030) Trkg.DUMP_BASE_BASE * 0x1000 + 96 * s.get (pg 0x030) Trkg.DUMP_WP_WP = dst)
    (harea : inSramArea dst 96 = true) :
    ∃ t, exec .dumpRecordWrite s = .next t ∧ t.dumpFifo = l ∧
      t.get (pg 0x030) Trkg.DUMP_WP_WP = (s.get (pg 0x030) Trkg.DUMP_WP_WP + 1) % s.get (pg 0x030) Trkg.DUMP_SIZE_SIZE ∧
      (∀ i (_ : i < 96), t.byte (dst + i) = BitVec.ofNat 8 (r.getD i 0)) ∧
      (∀ a, a < dst ∨ dst + 96 ≤ a → t.byte a = s.byte a) ∧ t.chan = s.chan ∧
      ∀ a, a ≠ 0x3004C → a ≠ 0x30014 → t.reg a = s.reg a := by
  obtain ⟨hlo, hhi⟩ : 0x10000000 ≤ dst ∧ dst + 96 ≤ 0x11FC0000 := by simpa [inSramArea] using harea
  have hlt : (s.get (pg 0x030) Trkg.DUMP_WP_WP + 1) % s.get (pg 0x030) Trkg.DUMP_SIZE_SIZE < 2 ^ 20 :=
    (Nat.mod_lt _ (Nat.pos_of_ne_zero hsize)).trans (State.get_lt _ _ _)
  generalize hw : (s.get (pg 0x030) Trkg.DUMP_WP_WP + 1) % s.get (pg 0x030) Trkg.DUMP_SIZE_SIZE = w at hlt
  obtain ⟨hl, hchan, hreg⟩ := Trkg.recordWritten_only hclean.1 l dst r w
  refine ⟨Trkg.recordWritten s l dst r w, ?_, hl, ?_, fun i hi => ?_, fun a ha => ?_, hchan, hreg⟩
  · rw [exec_dumpRecordWrite_room hfifo hrun hsize hbase hclean.1 hroom, hdst, hw]
  · rw [Trkg.recordWritten_wp, Nat.mod_eq_of_lt hlt]
  · rw [Trkg.recordWritten_byte, State.byte_put8_sram _ hlo (by omega) (by omega), if_pos (by omega), Nat.add_sub_cancel_left,
      List.getD_eq_getElem?_getD]
  · rw [Trkg.recordWritten_byte, State.byte_put8_outside _ (by rwa [hlen])]
    rfl

/-! ### OVF_CLR (R135) -/

theorem exec_ovfClr (req : Req) (s : State) : exec (.ovfClr req) s = Cmd.bits s req (pg 0x030 + 0x040) 2 1 1 1 := rfl

theorem Trkg.page_listed : pageInfo 0x030 = some (.trkg, 0) ∧ ownerPage 0x030 = 0x030 := by decide

theorem Trkg.fields_dumpCtl : Bus.fields .trkg 0 0x040 = [⟨0, 1, .fr, 0, .any⟩, ⟨1, 1, .pu, 0, .any⟩] := by decide

/-- A word stored with the bits it has. -/
theorem State.reg_setReg_regN (s : State) (a x : Nat) : (s.setReg a (s.regN a)).reg x = s.reg x := by
  rw [State.reg_setReg]
  split
  · next h => rw [h, State.regN, BitVec.ofNat_toNat, BitVec.setWidth_eq]
  · rfl

/-- OVF_CLR stores DUMP_CTL as it is and clears DUMP_OVF. -/
theorem ovfClr_sets {req : Req} {s : State} (hq : s.Quiet) (hw : s.Writable req 0x030) :
    Cmd.Sets (.ovfClr req) s [0x30040, 0x30058] (fun t => t.get (pg 0x030) Trkg.DUMP_OVF_COUNT = 0 ∧
      t.get (pg 0x030) Trkg.DUMP_CTL_DUMP_EN = s.get (pg 0x030) Trkg.DUMP_CTL_DUMP_EN) := by
  have hen : bitsOf (Cmd.bitsWord s (pg 0x030 + 0x040) 2 1 1 1) 0 1 = bitsOf (s.regN (pg 0x030 + 0x040)) 0 1 :=
    Cmd.bitsOf_bitsWord_ne s (by decide) (by decide) (by decide) (by decide)
  have hclr : (Cmd.bitsWord s (pg 0x030 + 0x040) 2 1 1 1).testBit 1 = true := by
    have h := bitsOf_testBit (Cmd.bitsWord s (pg 0x030 + 0x040) 2 1 1 1) 1 1 0
    rwa [Cmd.bitsOf_bitsWord s _ _ _ (by decide), eq_comm] at h
  have hstore : Bus.store req.code (ownerPage 0x030) (pg 0x030 + 0x040) (Bus.fields .trkg 0 0x040)
      (Cmd.bitsWord s (pg 0x030 + 0x040) 2 1 1 1) s = s.setReg (pg 0x030 + 0x040) (s.regN (pg 0x030 + 0x040)) := by
    rw [Trkg.fields_dumpCtl]
    refine Bus.store_plain ?_ ?_ fun _ _ => rfl
    · simp [FieldAt.Plain]
    · simpa [FieldAt.source] using hen
  have hframe : s.RegsOnly (s.setReg (pg 0x030 + 0x040) (s.regN (pg 0x030 + 0x040))) [0x30040, 0x30058] :=
    (State.RegsOnly.setReg _ _ _).mono (by decide)
  have hsame := State.reg_setReg_regN s (pg 0x030 + 0x040)
  generalize s.setReg (pg 0x030 + 0x040) (s.regN (pg 0x030 + 0x040)) = u at hstore hframe hsame
  have hput := State.RegsOnly.put u (pg 0x030) Trkg.DUMP_OVF_COUNT 0 rfl
  have hws := hframe.trans (hput.mono (by decide))
  refine Cmd.sets_of (t := u.put (pg 0x030) Trkg.DUMP_OVF_COUNT 0) (exec_ovfClr req s) hq hw Trkg.page_listed.1 (by decide) (by decide)
    (by decide) (by decide) (by decide) ?_ hws ?_ ⟨?_, ?_⟩
  · have hwrite : Bus.hook s req.code 0x030 .trkg 0 0x040 (Cmd.bitsWord s (pg 0x030 + 0x040) 2 1 1 1) (fun _ => u) =
        u.put (pg 0x030) Trkg.DUMP_OVF_COUNT 0 := if_pos hclr
    rw [← hwrite, ← hstore]
    rfl
  · exact (hws.get _ _ (by decide)).le
  · rw [State.get_answered_req, State.get_put_same]
    rfl
  · rw [State.get_answered_req, State.get_put_apart _ _ _ (by decide)]
    exact State.get_of_reg rfl (hsame _)

/-! ### EN of the tracking page (R134) -/

theorem exec_trkgEnable (req : Req) (en : Bool) (s : State) :
    exec (.trkgEnable req en) s = Cmd.write s req (pg 0x030 + 0x00C)
      (putBits (s.regN (pg 0x030 + 0x00C) &&& (2 ^ 32 - 1 - 2)) 0 1 (b2n en)) := rfl

theorem Ch.stop_only (s : State) (n : Nat) : Ch.Only s (Ch.stop s n) n [Ch.b n + 0x004] := by
  have hstat : Ch.b n + 0x004 ∈ [Ch.b n + 0x004] := List.mem_singleton_self _
  unfold Ch.stop
  extract_lets +onlyGivenNames c m halted c' t
  have ht : Ch.Only s t n [Ch.b n + 0x004] :=
    ((Ch.Only.refl s n _).put _ Ch.CH_STAT_SRC_VALID _ rfl hstat).ite _ (Ch.Only.refl s n _)
  exact (Ch.Only.refl s n _).ite _ ((ht.setChn _).put _ Ch.CH_STAT_STATE _ rfl hstat)

/-- A stopped channel is idle. -/
theorem Ch.stop_chState (s : State) (n : Nat) : (Ch.stop s n).chState n = 0 := by
  unfold Ch.stop
  split
  · next h => exact h
  · exact State.get_put_same _ _ Ch.CH_STAT_STATE 0

/-- The words of two channel entries are different. -/
theorem Ch.b_ne {n k : Nat} (h : k ≠ n) {i j : Nat} (hi : i < 0x100) (hj : j < 0x100) : Ch.b k + i ≠ Ch.b n + j := by
  unfold Ch.b
  omega

/-- What EN going to 1 does to one channel (R134). -/
def Ch.release (s : State) (n : Nat) : State :=
  if s.get (Ch.b n) ⟨0, 0, 1⟩ = 1 ∧ s.chState n = 0 then s.put (Ch.b n) Ch.CH_STAT_STATE 1 else s

theorem Ch.release_only (s : State) (n : Nat) : s.RegsOnly (Ch.release s n) [Ch.b n + 0x004] := by
  unfold Ch.release
  split
  · exact State.RegsOnly.put _ _ _ _ rfl
  · exact State.RegsOnly.refl _ _

theorem Trkg.enable_on (s : State) : Trkg.enable s true = s.each (List.range 512) Ch.release := rfl

theorem Trkg.enable_off (s : State) : Trkg.enable s false = s.each (List.range 512) Ch.stop := rfl

/-- The words below the channel entries, and the cores, stay. -/
def Trkg.KeepsPages (s t : State) : Prop := (∀ a < 0x100000, t.reg a = s.reg a) ∧ t.cores = s.cores

theorem Trkg.enable_keepsPages (s : State) (en : Bool) : Trkg.KeepsPages s (Trkg.enable s en) := by
  have hlow (n : Nat) {a : Nat} (ha : a < 0x100000) : a ∉ [Ch.b n + 0x004] := by
    simp only [List.mem_singleton, Ch.b]
    omega
  cases en with
  | true =>
    rw [Trkg.enable_on]
    refine State.each_inv (Trkg.KeepsPages s) _ _ (fun t n h => ?_) s ⟨fun _ _ => rfl, rfl⟩
    have hn := Ch.release_only t n
    exact ⟨fun a ha => (hn.2 a (hlow n ha)).trans (h.1 a ha), by rw [hn.1]; exact h.2⟩
  | false =>
    rw [Trkg.enable_off]
    refine State.each_inv (Trkg.KeepsPages s) _ _ (fun t n h => ?_) s ⟨fun _ _ => rfl, rfl⟩
    have hn := Ch.stop_only t n
    exact ⟨fun a ha => (hn.reg a (hlow n ha)).trans (h.1 a ha), by rw [hn.rest]; exact h.2⟩

/-- EN going to 0 leaves every channel idle. -/
theorem Trkg.enable_off_chState (s : State) {n : Nat} (h : n < 512) : (Trkg.enable s false).chState n = 0 :=
  State.each_apply (g := fun k t => t.chState k) (act := fun _ => 0) Ch.stop_chState
    (fun t n k hk => (Ch.stop_only t n).get rfl (by simpa using Ch.b_ne hk (by decide) (by decide))) List.nodup_range s (List.mem_range.2 h)

/-- What `Ch.release` does to RUN and STATE. -/
def Ch.released (x : Nat × Nat) : Nat × Nat := (x.1, if x.1 = 1 ∧ x.2 = 0 then 1 else x.2)

/-- EN going to 1 moves the idle channels with RUN to WAIT. -/
theorem Trkg.enable_on_chState (s : State) {n : Nat} (h : n < 512) :
    (Trkg.enable s true).chState n = if s.get (Ch.b n) ⟨0, 0, 1⟩ = 1 ∧ s.chState n = 0 then 1 else s.chState n := by
  have hrun (t : State) (n k : Nat) : (Ch.release t n).get (Ch.b k) ⟨0, 0, 1⟩ = t.get (Ch.b k) ⟨0, 0, 1⟩ :=
    State.get_of_reg rfl ((Ch.release_only t n).2 _ (by simp [Ch.b]; omega))
  have hstate (t : State) (n : Nat) : (Ch.release t n).chState n =
      if t.get (Ch.b n) ⟨0, 0, 1⟩ = 1 ∧ t.chState n = 0 then 1 else t.chState n := by
    unfold Ch.release
    split
    · exact State.get_put_same _ _ Ch.CH_STAT_STATE 1
    · rfl
  have hother (t : State) {n k : Nat} (hk : k ≠ n) : (Ch.release t n).chState k = t.chState k :=
    State.get_of_reg rfl ((Ch.release_only t n).2 _ (by simpa using Ch.b_ne hk (by decide) (by decide)))
  have heach := State.each_apply (g := fun k t => (t.get (Ch.b k) ⟨0, 0, 1⟩, t.chState k)) (act := Ch.released) (f := Ch.release)
    (fun t n => Prod.ext (hrun t n n) (hstate t n)) (fun t n k hk => Prod.ext (hrun t n k) (hother t hk)) List.nodup_range s
    (List.mem_range.2 h)
  have hsnd := congrArg Prod.snd heach
  rw [Trkg.enable_on]
  exact hsnd

theorem Trkg.enable_on_chan (s : State) : (Trkg.enable s true).chan = s.chan := by
  rw [Trkg.enable_on]
  exact State.each_keeps State.chan (List.range 512) Ch.release (fun t n => (Ch.release_only t n).chan) s

/-- EN and ENABLED of the tracking page are set. -/
def Trkg.enSet (s : State) (en : Bool) : State := (s.putB (pg 0x030) H.EN en).putB (pg 0x030) H.ENABLED en

theorem Trkg.enSet_frame (s : State) (en : Bool) : s.RegsOnly (Trkg.enSet s en) [pg 0x030 + 0x00C, pg 0x030 + 0x010] :=
  ((State.RegsOnly.put s (pg 0x030) H.EN (b2n en) rfl).mono (by decide)).trans
    ((State.RegsOnly.put _ (pg 0x030) H.ENABLED (b2n en) rfl).mono (by decide))

theorem Trkg.enSet_flags (s : State) (en : Bool) :
    (Trkg.enSet s en).en 0x030 = en ∧ (Trkg.enSet s en).frozen 0x030 = s.frozen 0x030 := by
  unfold Trkg.enSet State.en State.frozen
  constructor
  · rw [State.flag_putB_apart _ _ _ (by decide), State.flag_putB _ _ _ rfl]
  · rw [State.flag_putB_apart _ _ _ (by decide), State.flag_putB_apart _ _ _ (by decide)]

/-- A write of PAGE_CTL that changes EN of the unfrozen page, without a reset (R43). -/
theorem Trkg.ctl_en {s : State} {v : Nat} (hsrst : v.testBit 1 = false) (hold : s.en 0x030 ≠ v.testBit 0)
    (hfrozen : s.frozen 0x030 = false) (req : Nat) :
    Page.ctl s req 0x030 v =
      (Trkg.enable (Trkg.enSet s (v.testBit 0)) (v.testBit 0)).putB (pg 0x030) H.FREEZE (v.testBit 2) := by
  have hfz : Page.freezable 0x030 = true := by decide
  have hset : Page.setEn s req 0x030 (v.testBit 0) = Trkg.enable (Trkg.enSet s (v.testBit 0)) (v.testBit 0) := by
    unfold Page.setEn
    rw [if_neg hold, if_neg (by decide), if_neg (by decide)]
    rfl
  have hkept : ((Trkg.enable (Trkg.enSet s (v.testBit 0)) (v.testBit 0)).putB (pg 0x030) H.FREEZE (v.testBit 2)).frozen 0x030 =
      false := by
    rw [← hfrozen, ← (Trkg.enSet_flags s (v.testBit 0)).2]
    refine (State.flag_putB_apart _ _ _ (by decide)).trans ?_
    exact congrArg (· != 0) (State.get_of_reg rfl ((Trkg.enable_keepsPages _ _).1 _ (by decide)))
  unfold Page.ctl
  simp only [hsrst, hfz, hset, Bool.false_and, Bool.not_true, Bool.and_false, Bool.or_self, Bool.false_eq_true, if_false, if_true]
  unfold Page.setFreeze
  simp only [hkept, Bool.not_false, or_true, if_true]

/-- The state after EN has changed, FREEZE standing at `fr`. -/
def Trkg.switched (s : State) (en fr : Bool) : State := (Trkg.enable (Trkg.enSet s en) en).putB (pg 0x030) H.FREEZE fr

theorem Trkg.switched_frame (s : State) (en fr : Bool) :
    (Trkg.enable (Trkg.enSet s en) en).RegsOnly (Trkg.switched s en fr) [pg 0x030 + 0x00C] := State.RegsOnly.put _ _ _ _ rfl

theorem Trkg.switched_quiet {s : State} (h : s.Quiet) (en fr : Bool) : (Trkg.switched s en fr).Quiet := by
  refine (Trkg.switched_frame s en fr).quiet fun c => ?_
  unfold State.core
  rw [(Trkg.enable_keepsPages _ _).2]
  exact (Trkg.enSet_frame s en).quiet h c

theorem Trkg.switched_count (s : State) (en fr : Bool) :
    (Trkg.switched s en fr).get (pg 0x030) H.COUNT = s.get (pg 0x030) H.COUNT := by
  refine State.get_of_reg rfl ?_
  rw [(Trkg.switched_frame s en fr).2 _ (by decide), (Trkg.enable_keepsPages _ _).1 _ (by decide),
    (Trkg.enSet_frame s en).2 _ (by decide)]

theorem State.en_of_reg {s t : State} {p : Nat} (h : t.reg (pg p + 0x00C) = s.reg (pg p + 0x00C)) : t.en p = s.en p :=
  congrArg (· != 0) (State.get_of_reg (f := H.EN) rfl h)

theorem Trkg.switched_en (s : State) (en fr : Bool) : (Trkg.switched s en fr).en 0x030 = en :=
  calc (Trkg.switched s en fr).en 0x030
      = (Trkg.enable (Trkg.enSet s en) en).en 0x030 := State.flag_putB_apart _ _ _ (by decide)
    _ = (Trkg.enSet s en).en 0x030 := State.en_of_reg ((Trkg.enable_keepsPages _ _).1 _ (by decide))
    _ = en := (Trkg.enSet_flags s en).1

/-- A word of a channel entry is no word of the tracking page. -/
theorem Ch.entry_not_mem {n off : Nat} {ws : List Nat} (hws : ∀ a ∈ ws, a < 0x100000) : Ch.b n + off ∉ ws := by
  intro h
  have := hws _ h
  unfold Ch.b at this
  omega

theorem Trkg.switched_chState (s : State) (en fr : Bool) (n : Nat) :
    (Trkg.switched s en fr).chState n = (Trkg.enable (Trkg.enSet s en) en).chState n :=
  State.get_of_reg rfl ((Trkg.switched_frame s en fr).2 _ (Ch.entry_not_mem (by decide)))

/-- TRKG_ENABLE with EN changing. -/
theorem exec_trkgEnable_changes {req : Req} {s : State} {en : Bool} (hq : s.Quiet) (hw : s.Writable req 0x030)
    (hf : s.frozen 0x030 = false) (hold : s.en 0x030 ≠ en) :
    ∃ fr, exec (.trkgEnable req en) s = .next ((Trkg.switched s en fr).answered req []) := by
  have hlock : s.locked 0x030 = false := hw.2
  have hen : (Cmd.bitsWord s (pg 0x030 + 0x00C) 2 0 1 (b2n en)).testBit 0 = en := by
    have h := bitsOf_testBit (Cmd.bitsWord s (pg 0x030 + 0x00C) 2 0 1 (b2n en)) 0 1 0
    rw [Cmd.bitsOf_bitsWord s _ _ _ (by decide)] at h
    cases en <;> exact h.symm
  have hsrst : (Cmd.bitsWord s (pg 0x030 + 0x00C) 2 0 1 (b2n en)).testBit 1 = false := by
    have h := bitsOf_testBit (Cmd.bitsWord s (pg 0x030 + 0x00C) 2 0 1 (b2n en)) 1 1 0
    rw [Cmd.bitsOf_bitsWord_pulse s (by decide) (by decide) (by decide) (by decide)] at h
    exact h.symm
  have hctl := Trkg.ctl_en hsrst (by rwa [hen]) hf req.code
  rw [hen] at hctl
  exact ⟨_, (exec_trkgEnable req en s).trans (Cmd.write_header (p := ⟨0x030, by decide⟩) hw.1 (by decide) (by decide) (by decide)
    ((Bus.putHeader_ctl hlock _ _).trans hctl) (Trkg.switched_quiet hq en _)
    (by rw [Trkg.switched_count]; exact State.get_count_le_satInc s _))⟩

/-- RUN as a number. -/
theorem Ch.run_iff (s : State) (n : Nat) : s.get (Ch.b n) ⟨0, 0, 1⟩ = 1 ↔ s.flag (Ch.b n) Ch.CH_CTL_RUN = true := by
  have hlt : s.get (Ch.b n) Ch.CH_CTL_RUN < 2 := State.get_lt _ _ _
  change s.get (Ch.b n) Ch.CH_CTL_RUN = 1 ↔ (s.get (Ch.b n) Ch.CH_CTL_RUN != 0) = true
  rw [bne_iff_ne]
  omega

/-- Setting EN keeps a word of a channel entry. -/
theorem Trkg.enSet_get (s : State) (en : Bool) (n : Nat) {f : Fld} (hf : f.words = 1) :
    (Trkg.enSet s en).get (Ch.b n) f = s.get (Ch.b n) f :=
  State.get_of_reg hf ((Trkg.enSet_frame s en).2 _ (Ch.entry_not_mem (by decide)))

theorem State.chState_answered (s : State) (req : Req) (l : List Word) (n : Nat) : (s.answered req l).chState n = s.chState n :=
  State.get_answered_req _ _ _ _ _

/-- Clearing EN of the page leaves every channel idle. -/
theorem Trkg.switched_off_chState (s : State) (fr : Bool) {n : Nat} (h : n < 512) : (Trkg.switched s false fr).chState n = 0 := by
  rw [Trkg.switched_chState, Trkg.enable_off_chState _ h]

/-- Setting EN of the page releases the idle channels with RUN. -/
theorem Trkg.switched_on_chState (s : State) (fr : Bool) {n : Nat} (h : n < 512) : (Trkg.switched s true fr).chState n =
    if s.flag (Ch.b n) Ch.CH_CTL_RUN = true ∧ s.chState n = 0 then 1 else s.chState n := by
  have hstate : (Trkg.enSet s true).chState n = s.chState n := Trkg.enSet_get s true n rfl
  rw [Trkg.switched_chState, Trkg.enable_on_chState _ h, hstate, Trkg.enSet_get s true n rfl]
  simp only [Ch.run_iff]

theorem Trkg.switched_on_chan (s : State) (fr : Bool) : (Trkg.switched s true fr).chan = s.chan := by
  rw [(Trkg.switched_frame s true fr).chan, Trkg.enable_on_chan, (Trkg.enSet_frame s true).chan]

/-- Settles O23: the record in the ring, the count cleared, and the channels held or released. -/
theorem dumpPathAndTrackingEnable : Obligations.DumpPathAndTrackingEnable := by
  unfold Obligations.DumpPathAndTrackingEnable
  refine ⟨fun k n r l s => ?_, fun req s hq hw => ovfClr_sets hq hw, fun req s hq hw hf => ⟨fun hen => ?_, fun hen => ?_⟩⟩
  · intro wp size dst hclean hfifo hlen hrun hsize hbase hroom harea
    exact dumpRecordWrite_stores hclean hfifo hlen hrun hsize hbase hroom rfl harea
  · obtain ⟨fr, hexec⟩ := exec_trkgEnable_changes (en := false) hq hw hf (by simp [hen])
    refine ⟨_, hexec, (State.en_answered _ _ _ _).trans (Trkg.switched_en s false fr), fun n => ?_⟩
    rw [State.chState_answered, Trkg.switched_off_chState s fr n.isLt]
  · obtain ⟨fr, hexec⟩ := exec_trkgEnable_changes (en := true) hq hw hf (by simp [hen])
    refine ⟨_, hexec, (State.en_answered _ _ _ _).trans (Trkg.switched_en s true fr),
      (State.RegsOnly.answered _ _ _).chan.trans (Trkg.switched_on_chan s fr), fun n => ?_⟩
    rw [State.chState_answered, Trkg.switched_on_chState s fr n.isLt]

end Sys2Proof.Machine
end

section
/-! ## Hand-overs of a channel (what O21 and O22 rest on; spec/05 R111, R122 to R124) -/

namespace Sys2Proof.Machine

/-! ### What the working configuration decides -/

theorem State.codeWord_congr {s t : State} (h : s.code = t.code) (w : Nat) : s.codeWord w = t.codeWord w := by
  unfold State.codeWord
  rw [h]

theorem Ch.len_congr {s t : State} (hw : s.work = t.work) (hc : s.code = t.code) (n : Nat) : Ch.len s n = Ch.len t n := by
  unfold Ch.len Ch.sig Ch.num State.priLen State.dirWord
  simp only [State.wget_congr hw, State.codeWord_congr hc]

/-- Whether settings are valid is a matter of the working copies and the code store (R123). -/
theorem Ch.reason_congr {s t : State} (hw : s.work = t.work) (hc : s.code = t.code) (n : Nat) : Ch.reason s n = Ch.reason t n := by
  unfold Ch.reason Ch.sig Ch.num Ch.nb State.codeValid State.rate10 State.priLen State.dirWord
  simp only [State.wget_congr hw, State.wflag_congr hw, State.codeWord_congr hc]

/-! ### The COMMIT is taken (R123 steps 1 and 2) -/

/-- COMMIT `cm` of channel `n` is taken: nothing is armed, the visible settings are the working ones, and
COMMIT_TAKEN and COMMIT_DONE show it. -/
def Ch.taken (s : State) (n : Nat) (cm : Armed) : State :=
  let u := (s.disarm (Ch.b n + 0x014)).copyShadow (Ch.b n + 0x020) (Ch.b n + 0x080)
  ((u.put (Ch.b n) Ch.COMMIT_TAKEN_GEN cm.gen).put (Ch.b n) Ch.CH_STAT_COMMIT_PEND 0).chRaise n 1

/-- The words in which a taken COMMIT shows. -/
def Ch.takenWords (n : Nat) : List Nat := [Ch.b n + 0x018, Ch.b n + 0x004, Ch.b n + 0x008]

theorem Ch.taken_only (s : State) (n : Nat) (cm : Armed) :
    Ch.Only (s.disarm (Ch.b n + 0x014)) (Ch.taken s n cm) n (Ch.takenWords n) :=
  ((((Ch.Only.refl _ n (Ch.takenWords n)).copyShadow _ _).put (Ch.b n) Ch.COMMIT_TAKEN_GEN _ rfl
    (by simp [Ch.takenWords, Ch.COMMIT_TAKEN_GEN])).put (Ch.b n) Ch.CH_STAT_COMMIT_PEND _ rfl
    (by simp [Ch.takenWords, Ch.CH_STAT_COMMIT_PEND])).chRaise 1 (by simp [Ch.takenWords])

theorem Ch.taken_gen (s : State) (n : Nat) (cm : Armed) :
    (Ch.taken s n cm).get (Ch.b n) Ch.COMMIT_TAKEN_GEN = cm.gen % 2 ^ 16 := by
  unfold Ch.taken State.chRaise
  rw [State.get_put_apart _ _ _ (by decide), State.get_put_apart _ _ _ (by decide), State.get_put_same]
  rfl

theorem Ch.taken_work (s : State) (n : Nat) (cm : Armed) :
    (Ch.taken s n cm).work = (s.copyShadow (Ch.b n + 0x020) (Ch.b n + 0x080)).work := by
  unfold Ch.taken State.chRaise
  rw [State.put_work, State.put_work, State.put_work]
  rfl

/-- Whether the settings taken over are valid is what they said before. -/
theorem Ch.taken_reason (s : State) (n : Nat) (cm : Armed) :
    Ch.reason (Ch.taken s n cm) n = Ch.reason (s.copyShadow (Ch.b n + 0x020) (Ch.b n + 0x080)) n := by
  exact Ch.reason_congr (Ch.taken_work s n cm) (by rw [(Ch.taken_only s n cm).rest]; rfl) n

/-! ### A hand-over -/

/-- `t` has taken over the COMMIT of generation `gen` from `s`. -/
structure Ch.Handed (s t : State) (n gen : Nat) : Prop where
  only : Ch.Only (s.disarm (Ch.b n + 0x014)) t n ((Ch.b n + 0x018) :: Ch.words n)
  gen : t.get (Ch.b n) Ch.COMMIT_TAKEN_GEN = gen % 2 ^ 16

theorem Ch.taken_not_mem_words (n : Nat) : Ch.b n + 0x018 ∉ Ch.words n :=
  Ch.not_mem_words (by unfold Ch.b; omega) (by omega) (by omega)

theorem Ch.Handed.then {s t u : State} {n gen : Nat} (h : Ch.Handed s t n gen) (h' : Ch.Only t u n (Ch.words n)) :
    Ch.Handed s u n gen :=
  ⟨h.only.trans (h'.mono (fun _ ha => List.mem_cons_of_mem _ ha)), (h'.get rfl (Ch.taken_not_mem_words n)).trans h.gen⟩

theorem Ch.Handed.ite {s t u : State} {n gen : Nat} (h : Ch.Handed s t n gen) (c : Prop) [Decidable c] (h' : Ch.Handed s u n gen) :
    Ch.Handed s (if c then t else u) n gen := by
  split
  · exact h
  · exact h'

/-- The COMMIT is taken after an act of the channel that leaves it armed. -/
theorem Ch.Handed.taken {s t : State} {n : Nat} (h : Ch.Only s t n (Ch.words n)) (cm : Armed) :
    Ch.Handed s (Ch.taken t n cm) n cm.gen := by
  refine ⟨((h.disarm (Ch.b n + 0x014)).mono fun _ ha => List.mem_cons_of_mem _ ha).trans
    ((Ch.taken_only t n cm).mono ?_), Ch.taken_gen t n cm⟩
  simp [Ch.takenWords, Ch.words]

theorem Ch.load_only {s t : State} {n : Nat} {ws : List Nat} (h : Ch.Only s t n ws) : Ch.Only s (Ch.load t n) n ws := h.setChn _

theorem Ch.applyStep_only {s t : State} {n : Nat} {ws : List Nat} (h : Ch.Only s t n ws) : Ch.Only s (Ch.applyStep t n) n ws :=
  h.setChn _

theorem Ch.handOver_none {s : State} {n : Nat} (h : s.armedAt (Ch.b n + 0x014) = none) (start inside : Bool) :
    Ch.handOver s n start inside = s := by
  unfold Ch.handOver
  extract_lets b
  rw [show s.armedAt (b + 0x014) = none from h]

/-- Every hand-over of an armed COMMIT takes it, whether its settings prove valid or not. -/
theorem Ch.handOver_takes {s : State} {n : Nat} {cm : Armed} (h : s.armedAt (Ch.b n + 0x014) = some cm) (start inside : Bool) :
    Ch.Handed s (Ch.handOver s n start inside) n cm.gen := by
  unfold Ch.handOver
  extract_lets +onlyGivenNames b
  rw [show s.armedAt (b + 0x014) = some cm from h]
  dsimp -zeta only
  extract_lets +onlyGivenNames old running gen0 sh cfgChange loads u v w why halted x p0 stepped y p1 c carr z code c' syn started d lo
  have hu : Ch.Only s u n (Ch.words n) := Ch.Only.ite (Ch.endInterval_only (.refl _ _ _) _ _) _ (.refl _ _ _)
  have hw : Ch.Handed s w n cm.gen := Ch.Handed.taken hu cm
  have hx : Ch.Only w x n (Ch.words n) := Ch.Only.ite (Ch.load_only (.refl _ _ _)) _ (.refl _ _ _)
  have hy : Ch.Only w y n (Ch.words n) := Ch.Only.ite (Ch.applyStep_only hx) _ hx
  have hz : Ch.Only w z n (Ch.words n) := hy.setChn _
  have hstart : Ch.Only w ((started.put b Ch.CH_STAT_STATE 2).chRaise n 0) n (Ch.words n) :=
    ((hz.setChn _).put b Ch.CH_STAT_STATE _ rfl (Ch.stat_mem_words n)).chRaise 0 (Ch.irq_mem_words n)
  have hhalt : Ch.Only w ((halted.raise Trkg.p 19).logErr Trkg.p 0x40 (b + 0x020) cm.req) n (Ch.words n) :=
    ((((((Ch.Only.refl _ _ _).put b Ch.CH_STAT_STATE _ rfl (Ch.stat_mem_words n)).put b Ch.CH_STAT_REASON _ rfl
      (Ch.stat_mem_words n)).chRaise 2 (Ch.irq_mem_words n)).raise Trkg.p 19 (Trkg.irq_mem_words n)).logErr Trkg.p _ _ _
      (Trkg.log_mem_words n))
  refine Ch.Handed.ite (hw.then hhalt) _ (Ch.Handed.ite (hw.then hstart) _ (Ch.Handed.ite ?_ _ (hw.then (hz.setChn _))))
  extract_lets crossed
  refine Ch.Handed.ite ⟨?_, State.get_put_same _ _ _ _⟩ _ (hw.then (hz.setChn _))
  have hmem : b + Ch.COMMIT_TAKEN_GEN.off ∈ (Ch.b n + 0x018) :: Ch.words n := List.mem_cons_self
  have hback := ((hw.then hz).only.put b Ch.COMMIT_TAKEN_GEN gen0 rfl hmem)
  exact (hback.trans ((Ch.endInterval_only (.refl _ _ _) true false).mono fun _ ha => List.mem_cons_of_mem _ ha)).put b
    Ch.COMMIT_TAKEN_GEN _ rfl hmem

/-! ### A start (R111, R123) -/

/-- Two records of a channel are at one sample with the same phases. -/
def Chan.PhasesOf (c d : Chan) : Prop :=
  c.pos = d.pos ∧ c.chip = d.chip ∧ c.frac = d.frac ∧ c.period = d.period ∧ c.carr = d.carr

theorem Chan.PhasesOf.trans {c d e : Chan} (h : c.PhasesOf d) (h' : d.PhasesOf e) : c.PhasesOf e := by
  obtain ⟨hpos, hchip, hfrac, hperiod, hcarr⟩ := h
  obtain ⟨hpos', hchip', hfrac', hperiod', hcarr'⟩ := h'
  exact ⟨hpos.trans hpos', hchip.trans hchip', hfrac.trans hfrac', hperiod.trans hperiod', hcarr.trans hcarr'⟩

/-- Channel record `c` begins at its present sample under the working settings of `u`, with the phases of the INIT registers where no
step of generation `gen` applies. -/
structure Ch.Begins (u : State) (n gen : Nat) (c : Chan) : Prop where
  pos : c.pos = (u.chn n).pos
  acc : c.acc = List.replicate 9 (0, 0)
  nsamp : c.nsamp = 0
  phases : u.wget (Ch.b n) Ch.APPLY_GEN_STEP_GEN ≠ gen →
    c.chip = u.wget (Ch.b n) Ch.CODE_INIT_CHIP % max (Ch.len u n) 1 ∧ c.frac = u.wget (Ch.b n) Ch.CODE_INIT_FRAC * 2 ^ 8 ∧
      c.period = BitVec.ofNat 32 (u.wget (Ch.b n) Ch.PERIOD_INIT_PERIOD) ∧
      c.carr = BitVec.ofNat 72 (u.wget (Ch.b n) Ch.CARR_INIT_PHASE * 2 ^ 8)

theorem Ch.load_chn (s : State) (n : Nat) : (Ch.load s n).chn n = { s.chn n with
    chip := s.wget (Ch.b n) Ch.CODE_INIT_CHIP % max (Ch.len s n) 1, frac := s.wget (Ch.b n) Ch.CODE_INIT_FRAC * 2 ^ 8
    period := BitVec.ofNat 32 (s.wget (Ch.b n) Ch.PERIOD_INIT_PERIOD)
    carr := BitVec.ofNat 72 (s.wget (Ch.b n) Ch.CARR_INIT_PHASE * 2 ^ 8) } := State.chn_setChn_same _ _ _

theorem Ch.load_work (s : State) (n : Nat) : (Ch.load s n).work = s.work := rfl

theorem Ch.applyStep_pos (s : State) (n : Nat) : ((Ch.applyStep s n).chn n).pos = (s.chn n).pos := by
  simp only [Ch.applyStep, State.chn_setChn_same]

/-- Steps 3 and 4 of R123 at a start: the load, and the step where `stepped` says that it applies. -/
def Ch.phased (s : State) (n : Nat) (stepped : Bool) : State :=
  if stepped then Ch.applyStep (Ch.load s n) n else Ch.load s n

theorem Ch.phased_only (s : State) (n : Nat) (stepped : Bool) :
    Ch.Only s (Ch.phased s n stepped) n [] ∧ (Ch.phased s n stepped).work = s.work := by
  have hload : Ch.Only s (Ch.load s n) n [] := Ch.load_only (.refl _ _ _)
  cases stepped with
  | true => exact ⟨Ch.applyStep_only hload, rfl⟩
  | false => exact ⟨hload, rfl⟩

/-- A record with the phases that these steps leave begins as the settings say. -/
theorem Ch.begins_of_phased {s : State} {n gen : Nat} {c : Chan}
    (hp : c.PhasesOf ((Ch.phased s n (s.wget (Ch.b n) Ch.APPLY_GEN_STEP_GEN == gen)).chn n))
    (hacc : c.acc = List.replicate 9 (0, 0)) (hns : c.nsamp = 0) : Ch.Begins s n gen c := by
  obtain ⟨hpos, hphases⟩ := hp
  refine ⟨hpos.trans ?_, hacc, hns, fun hg => ?_⟩
  · unfold Ch.phased
    split
    · rw [Ch.applyStep_pos, Ch.load_chn]
    · rw [Ch.load_chn]
  · rw [beq_eq_false_iff_ne.2 hg] at hphases
    rw [show Ch.phased s n false = Ch.load s n from rfl, Ch.load_chn] at hphases
    exact hphases

/-- The start hand-over of a channel that does not run, its settings valid. -/
theorem Ch.handOver_start {s : State} {n : Nat} {cm : Armed} (h : s.armedAt (Ch.b n + 0x014) = some cm)
    (hr : Ch.reason (s.copyShadow (Ch.b n + 0x020) (Ch.b n + 0x080)) n = 0) :
    ∃ z c, Ch.handOver s n true false = ((z.setChn n c).put (Ch.b n) Ch.CH_STAT_STATE 2).chRaise n 0 ∧
      Ch.Only (Ch.taken s n cm) z n [] ∧ z.work = (Ch.taken s n cm).work ∧ Ch.Begins (Ch.taken s n cm) n cm.gen c := by
  unfold Ch.handOver
  extract_lets +onlyGivenNames b
  rw [show s.armedAt (b + 0x014) = some cm from h]
  dsimp -zeta only
  extract_lets +onlyGivenNames old running gen0 sh cfgChange loads u v w why halted x p0 stepped y p1 c carr z code c' syn started d lo
  have hu : u = s := if_neg (by simp)
  have hw : w = Ch.taken s n cm := congrArg (fun u => Ch.taken u n cm) hu
  have hwhy : ¬ why ≠ 0 := by rw [show why = Ch.reason w n from rfl, hw, Ch.taken_reason, hr]; simp
  have hx : x = Ch.load w n := if_pos rfl
  have hstep : stepped = (w.wget b Ch.APPLY_GEN_STEP_GEN == cm.gen) :=
    congrArg (· == cm.gen) (State.wget_congr ((congrArg State.work hx).trans (Ch.load_work w n)) b _)
  have hy : y = Ch.phased w n stepped := congrArg (fun x => if stepped = true then Ch.applyStep x n else x) hx
  have hz : ∃ cz, z = y.setChn n cz ∧ cz.PhasesOf (y.chn n) := ⟨_, rfl, rfl, rfl, rfl, rfl, rfl⟩
  have hstarted : ∃ e, started = z.setChn n e ∧ e.acc = List.replicate 9 (0, 0) ∧ e.nsamp = 0 ∧ e.PhasesOf (z.chn n) :=
    ⟨_, rfl, rfl, rfl, rfl, rfl, rfl, rfl, rfl⟩
  rw [if_neg hwhy, if_pos rfl]
  clear_value started z y stepped w
  obtain ⟨e, rfl, hacc, hns, hpe⟩ := hstarted
  obtain ⟨cz, rfl, hpz⟩ := hz
  obtain ⟨honly, hwork⟩ := Ch.phased_only w n (w.wget b Ch.APPLY_GEN_STEP_GEN == cm.gen)
  rw [State.chn_setChn_same] at hpe
  subst hy hstep
  rw [← hw]
  refine ⟨_, e, rfl, honly.setChn cz, hwork, Ch.begins_of_phased ?_ hacc hns⟩
  exact hpe.trans hpz

end Sys2Proof.Machine
end

section
/-! ## CHANNEL_RUN and CHANNEL_STOP (O21; spec/05 R110, R112) -/

namespace Sys2Proof.Machine

/-! ### The word of CH_CTL -/

theorem State.put_word (s : State) (b : Nat) {f : Fld} (v : Nat) (hf : f.words = 1) :
    s.put b f v = s.setReg (b + f.off) (putBits (s.regN (b + f.off)) f.lo f.w v) := by
  have hcut (x : Nat) : BitVec.ofNat 32 (x % 2 ^ 32) = BitVec.ofNat 32 x := BitVec.eq_of_toNat_eq (by simp)
  rw [State.put_eq, hf]
  simp only [State.wordsAt, Nat.mul_zero, Nat.add_zero, State.setWords, State.setReg, hcut]

/-- The page of a channel, and the place of its entry there. -/
theorem Ch.b_eq (n : Nat) : Ch.b n = pg (0x100 + n / 16) + 0x100 * (n % 16) := by
  unfold Ch.b pg
  omega

theorem Ch.page_listed {n : Nat} (h : n < 512) :
    pageInfo (0x100 + n / 16) = some (.chan, n / 16) ∧ ownerPage (0x100 + n / 16) = 0x030 := by
  have hlt : n / 16 < 32 := by omega
  generalize n / 16 = i at hlt
  constructor <;> interval_cases i <;> rfl

theorem Ch.fields_ctl {i off : Nat} (h : off % 0x100 = 0) :
    Bus.fields .chan i off = [⟨0, 1, .fr, 0, .any⟩, ⟨1, 1, .fr, 0, .any⟩, ⟨2, 1, .fr, 0, .any⟩, ⟨4, 4, .fr, 0, .any⟩] := by
  show fieldsAt Ch.rows (off % 0x100) = _
  rw [h]
  decide

/-- A command that sets RUN stores it and keeps the other fields of CH_CTL. -/
theorem Ch.store_run (s : State) (req p n x : Nat) {i off : Nat} (h : off % 0x100 = 0) :
    Bus.store req p (Ch.b n) (Bus.fields .chan i off) (Cmd.bitsWord s (Ch.b n) 0 0 1 x) s = s.put (Ch.b n) Ch.CH_CTL_RUN x := by
  have hrun : bitsOf (Cmd.bitsWord s (Ch.b n) 0 0 1 x) 0 1 = bitsOf (putBits (s.regN (Ch.b n)) 0 1 x) 0 1 := by
    rw [Cmd.bitsOf_bitsWord s _ _ _ (by decide), bitsOf_putBits]
  have hkept (lo w : Nat) (h1 : 1 ≤ lo) (h2 : lo + w ≤ 32) :
      bitsOf (Cmd.bitsWord s (Ch.b n) 0 0 1 x) lo w = bitsOf (putBits (s.regN (Ch.b n)) 0 1 x) lo w := by
    rw [Cmd.bitsOf_bitsWord_ne s (by decide) h2 (by omega) (by simp [bitsOf]), bitsOf_putBits_ne _ _ _ _ _ _ (by omega)]
  rw [Ch.fields_ctl h, State.put_word s _ _ rfl]
  refine Bus.store_plain (by simp [FieldAt.Plain]) ?_ fun i hi => ?_
  · simp only [List.forall_mem_cons, FieldAt.source, reduceCtorEq, if_false]
    exact ⟨hrun, hkept 1 1 (by decide) (by decide), hkept 2 1 (by decide) (by decide), hkept 4 4 (by decide) (by decide), by simp⟩
  · have hne : ¬ i < 0 + 1 := fun h => hi _ List.mem_cons_self ⟨Nat.zero_le _, h⟩
    simp [Ch.CH_CTL_RUN, putBits_testBit, hne]

/-- RUN is written: the word before it is kept for the sample at which the write arrives (R439). -/
def Ch.runSet (s : State) (n x : Nat) : State := Ch.move (s.put (Ch.b n) Ch.CH_CTL_RUN x) n (s.get (Ch.b n) ⟨0x000, 0, 32⟩)

/-- A command that sets RUN, from the command to what the channel makes of it. -/
theorem Cmd.write_run {s t : State} {req : Req} {n : Fin 512} (hw : s.Writable req (0x100 + n.val / 16)) (x : Nat)
    (ht : Ch.ctl (Ch.runSet s n.val x) n.val (s.flag (Ch.b n.val) Ch.CH_CTL_RUN) = t) (hq : t.Quiet)
    (hc : t.get (pg 0x030) H.COUNT = s.get (pg 0x030) H.COUNT) :
    Cmd.bits s req (Ch.b n.val) 0 0 1 x = .next (t.answered req []) := by
  obtain ⟨hpage, howner⟩ := Ch.page_listed n.isLt
  have hmod : 0x100 * (n.val % 16) % 0x100 = 0 := by omega
  have hn : 16 * (n.val / 16) + 0x100 * (n.val % 16) / 0x100 = n.val := by omega
  have hstore := Ch.store_run s req.code (ownerPage (0x100 + n.val / 16)) n.val x hmod (i := n.val / 16)
  have hwrite : Bus.hook s req.code (0x100 + n.val / 16) .chan (n.val / 16) (0x100 * (n.val % 16))
      (Cmd.bitsWord s (Ch.b n.val) 0 0 1 x) (Bus.store req.code (ownerPage (0x100 + n.val / 16)) (Ch.b n.val)
        (Bus.fields .chan (n.val / 16) (0x100 * (n.val % 16))) (Cmd.bitsWord s (Ch.b n.val) 0 0 1 x)) = t := by
    show Ch.write s req.code (16 * (n.val / 16) + 0x100 * (n.val % 16) / 0x100) (0x100 * (n.val % 16) % 0x100) _ _ = t
    rw [hn, hmod]
    unfold Ch.write
    rw [if_pos rfl, hstore, ← ht]
    rfl
  unfold Cmd.bits
  rw [Ch.b_eq] at hwrite ⊢
  refine Cmd.write_hook hw hpage (by omega) (by omega) (by simp [hasHeader]) ?_ ?_ hwrite hq (by rw [howner]; exact hc)
  · rw [Ch.fields_ctl hmod]
    simp
  · rw [Ch.fields_ctl hmod]
    rfl

/-! ### What RUN does to the channel (R110, R112) -/

theorem Ch.move_only {s t : State} {n : Nat} {ws : List Nat} (h : Ch.Only s t n ws) (w : Nat) :
    Ch.Only s (Ch.move t n w) n ws := by
  unfold Ch.move
  dsimp only
  split
  · exact h.ite _ (h.setChn _)
  · exact h.setChn _

theorem Ch.move_chan (s : State) (n w : Nat) : Ch.move s n w = { s with chan := (Ch.move s n w).chan } := by
  unfold Ch.move
  dsimp only
  split
  · split <;> rfl
  · rfl

theorem Ch.move_regs (s : State) (n w : Nat) : (Ch.move s n w).regs = s.regs := by rw [Ch.move_chan]

theorem Ch.move_work (s : State) (n w : Nat) : (Ch.move s n w).work = s.work := by rw [Ch.move_chan]

theorem Ch.move_dumpFifo (s : State) (n w : Nat) : (Ch.move s n w).dumpFifo = s.dumpFifo := by rw [Ch.move_chan]

/-- Of a channel's record a write of CH_CTL keeps all but the word that it replaces. -/
theorem Ch.move_chn (s : State) (n w k : Nat) : (Ch.move s n w).chn k = { s.chn k with moved := ((Ch.move s n w).chn k).moved } := by
  have hset (m : Option (Nat × Nat)) :
      (s.setChn n { s.chn n with moved := m }).chn k =
        { s.chn k with moved := ((s.setChn n { s.chn n with moved := m }).chn k).moved } := by
    rw [State.chn_setChn]
    split
    · next h => rw [h]
    · rfl
  unfold Ch.move
  dsimp only
  split
  · split
    · rfl
    · exact hset _
  · exact hset _

/-- An act on a channel that leaves the working copies and the dump FIFO. -/
theorem Ch.Only.narrow {s t : State} {n : Nat} {ws : List Nat} (h : Ch.Only s t n ws) (hw : t.work = s.work)
    (hd : t.dumpFifo = s.dumpFifo) : t = { s with regs := t.regs, resp := t.resp, chan := t.chan } := by
  have hrest := h.rest
  rw [hw, hd] at hrest
  exact hrest

/-- The words of an entry that a write of CH_CTL can change. -/
def Ch.ctlWords (n : Nat) : List Nat := [Ch.b n, Ch.b n + 0x004]

theorem Ch.runSet_only (s : State) (n x : Nat) : Ch.Only s (Ch.runSet s n x) n (Ch.ctlWords n) :=
  Ch.move_only ((Ch.Only.refl s n _).put (Ch.b n) Ch.CH_CTL_RUN x rfl (by simp [Ch.ctlWords, Ch.CH_CTL_RUN])) _

theorem Ch.runSet_get (s : State) (n x : Nat) (b : Nat) (f : Fld) :
    (Ch.runSet s n x).get b f = (s.put (Ch.b n) Ch.CH_CTL_RUN x).get b f := State.get_congr (Ch.move_regs _ _ _) b f

theorem Ch.runSet_work (s : State) (n x : Nat) : (Ch.runSet s n x).work = s.work := by
  rw [Ch.runSet, Ch.move_work, State.put_work]

theorem Ch.runSet_dumpFifo (s : State) (n x : Nat) : (Ch.runSet s n x).dumpFifo = s.dumpFifo := by
  rw [Ch.runSet, Ch.move_dumpFifo, State.put_dumpFifo]

theorem Ch.runSet_chn (s : State) (n x k : Nat) : (Ch.runSet s n x).chn k = { s.chn k with moved := ((Ch.runSet s n x).chn k).moved } := by
  have h := Ch.move_chn (s.put (Ch.b n) Ch.CH_CTL_RUN x) n (s.get (Ch.b n) ⟨0x000, 0, 32⟩) k
  rwa [State.chn_put] at h

/-- RUN as stored. -/
theorem Ch.runSet_run (s : State) (n : Nat) (x : Bool) : (Ch.runSet s n (b2n x)).flag (Ch.b n) Ch.CH_CTL_RUN = x := by
  unfold State.flag
  rw [Ch.runSet_get, State.get_put_same]
  cases x <;> rfl

/-- With RUN 1, the channel of an enabled page whose RUN was 0 waits. -/
theorem Ch.ctl_run {s : State} {n : Nat} (h : s.flag (Ch.b n) Ch.CH_CTL_RUN = true) (before : Bool) :
    Ch.ctl s n before = if s.en 0x030 = true ∧ before = false then s.put (Ch.b n) Ch.CH_STAT_STATE 1 else s := by
  unfold Ch.ctl
  cases before with
  | true => simp [h]
  | false => cases hen : s.en 0x030 <;> simp [h, hen, Trkg.p]

/-- With RUN 0, the channel stops. -/
theorem Ch.ctl_stop {s : State} {n : Nat} (h : s.flag (Ch.b n) Ch.CH_CTL_RUN = false) (before : Bool) :
    Ch.ctl s n before = Ch.stop s n := by
  simp [Ch.ctl, h]

theorem Ch.Only.flag {s t : State} {n : Nat} {ws : List Nat} (h : Ch.Only s t n ws) {b : Nat} {f : Fld} (hf : f.words = 1)
    (hn : b + f.off ∉ ws) : t.flag b f = s.flag b f := congrArg (· != 0) (h.get hf hn)

/-- What such an act leaves of the tracking page. -/
theorem Ch.Only.page {s t : State} {n : Nat} (h : Ch.Only s t n (Ch.ctlWords n)) {a : Nat} (ha : a < 0x100000) : t.reg a = s.reg a :=
  h.reg a (by simp [Ch.ctlWords, Ch.b]; omega)

theorem Ch.stop_keeps (s : State) (n : Nat) : (Ch.stop s n).work = s.work ∧ (Ch.stop s n).dumpFifo = s.dumpFifo := by
  unfold Ch.stop
  split
  · exact ⟨rfl, rfl⟩
  · rw [State.put_work, State.put_dumpFifo]
    show State.work (ite _ _ _) = _ ∧ State.dumpFifo (ite _ _ _) = _
    split
    · exact ⟨State.put_work _ _ _ _, State.put_dumpFifo _ _ _ _⟩
    · exact ⟨rfl, rfl⟩

/-! ### The commands -/

theorem exec_channelRun (req : Req) (n : Fin 512) (s : State) : exec (.channelRun req n) s = Cmd.bits s req (Ch.b n.val) 0 0 1 1 := rfl

theorem exec_channelStop (req : Req) (n : Fin 512) (s : State) : exec (.channelStop req n) s = Cmd.bits s req (Ch.b n.val) 0 0 1 0 := rfl

/-- CHANNEL_STOP idles the channel. -/
theorem channelStop_idles {req : Req} {n : Fin 512} {s : State} (hq : s.Quiet) (hw : s.Writable req (0x100 + n.val / 16)) :
    ∃ t, exec (.channelStop req n) s = .next t ∧ t.flag (Ch.b n.val) Ch.CH_CTL_RUN = false ∧ t.chState n.val = 0 ∧
      (∀ k, k ≠ n.val → t.chn k = s.chn k) ∧ t = { s with regs := t.regs, resp := t.resp, chan := t.chan } ∧
      ∀ a, a ≠ Ch.b n.val → a ≠ Ch.b n.val + 4 → t.reg a = s.reg a := by
  have hrun := Ch.runSet_run s n.val false
  have honly : Ch.Only s (Ch.stop (Ch.runSet s n.val 0) n.val) n.val (Ch.ctlWords n.val) :=
    (Ch.runSet_only s n.val 0).trans ((Ch.stop_only _ n.val).mono (by simp [Ch.ctlWords]))
  have hdone := Cmd.write_run hw 0 (Ch.ctl_stop hrun _) (honly.quiet hq) (State.get_of_reg rfl (honly.page (by decide)))
  refine ⟨_, (exec_channelStop req n s).trans hdone, ?_, ?_, honly.chn, ?_, fun a h1 h2 => honly.reg a (by simp [Ch.ctlWords, h1, h2])⟩
  · rw [State.flag_answered, (Ch.stop_only _ n.val).flag rfl (by simp [Ch.CH_CTL_RUN])]
    exact hrun
  · rw [State.chState_answered, Ch.stop_chState]
  · exact congrArg (fun t : State => t.answered req []) (honly.narrow ((Ch.stop_keeps _ _).1.trans (Ch.runSet_work s _ _))
      ((Ch.stop_keeps _ _).2.trans (Ch.runSet_dumpFifo s _ _)))

/-- The state that CHANNEL_RUN leaves. -/
def Ch.runDone (s : State) (n : Nat) : State := Ch.ctl (Ch.runSet s n 1) n (s.flag (Ch.b n) Ch.CH_CTL_RUN)

theorem Ch.runDone_eq (s : State) (n : Nat) : Ch.runDone s n =
    if s.en 0x030 = true ∧ s.flag (Ch.b n) Ch.CH_CTL_RUN = false then (Ch.runSet s n 1).put (Ch.b n) Ch.CH_STAT_STATE 1
    else Ch.runSet s n 1 := by
  have hen : (Ch.runSet s n 1).en 0x030 = s.en 0x030 := State.en_of_reg ((Ch.runSet_only s n 1).page (by decide))
  have hrun : (Ch.runSet s n 1).flag (Ch.b n) Ch.CH_CTL_RUN = true := Ch.runSet_run s n true
  rw [Ch.runDone, Ch.ctl_run hrun, hen]

/-- It differs from the stored RUN in CH_STAT at most. -/
theorem Ch.runDone_frame (s : State) (n : Nat) : (Ch.runSet s n 1).RegsOnly (Ch.runDone s n) [Ch.b n + 0x004] := by
  rw [Ch.runDone_eq]
  split
  · exact State.RegsOnly.put _ _ _ _ rfl
  · exact State.RegsOnly.refl _ _

theorem Ch.runDone_chState (s : State) (n : Nat) : (Ch.runDone s n).chState n =
    if s.en 0x030 ∧ s.flag (Ch.b n) Ch.CH_CTL_RUN = false then 1 else s.chState n := by
  rw [Ch.runDone_eq]
  split
  · exact State.get_put_same _ _ Ch.CH_STAT_STATE 1
  · exact (Ch.runSet_get s n 1 _ _).trans (State.get_of_reg rfl ((State.RegsOnly.put s _ _ _ rfl).2 _
      (by simp [Ch.CH_CTL_RUN, Ch.CH_STAT_STATE])))

/-- CHANNEL_RUN sets RUN and keeps the other fields of CH_CTL. -/
theorem channelRun_waits {req : Req} {n : Fin 512} {s : State} (hq : s.Quiet) (hw : s.Writable req (0x100 + n.val / 16)) :
    ∃ t, exec (.channelRun req n) s = .next t ∧ t = { s with regs := t.regs, resp := t.resp, chan := t.chan } ∧
      (∀ a, a ≠ Ch.b n.val → a ≠ Ch.b n.val + 4 → t.reg a = s.reg a) ∧
      (∀ k, t.chn k = { s.chn k with moved := (t.chn k).moved }) ∧
      t.flag (Ch.b n.val) Ch.CH_CTL_RUN = true ∧ t.get (Ch.b n.val) Ch.CH_CTL_GROUP = s.get (Ch.b n.val) Ch.CH_CTL_GROUP ∧
      t.get (Ch.b n.val) Ch.CH_CTL_PATH = s.get (Ch.b n.val) Ch.CH_CTL_PATH ∧
      t.chState n.val = if s.en 0x030 ∧ s.flag (Ch.b n.val) Ch.CH_CTL_RUN = false then 1 else s.chState n.val := by
  have hframe := Ch.runDone_frame s n.val
  have honly : Ch.Only s (Ch.runDone s n.val) n.val (Ch.ctlWords n.val) :=
    (Ch.runSet_only s n.val 1).regsOnly hframe (by simp [Ch.ctlWords])
  have hctl {f : Fld} (hf : f.words = 1) (hoff : f.off = 0) : (Ch.runDone s n.val).get (Ch.b n.val) f =
      (s.put (Ch.b n.val) Ch.CH_CTL_RUN 1).get (Ch.b n.val) f := by
    rw [← Ch.runSet_get]
    exact State.get_of_reg hf (hframe.2 _ (by simp [hoff]))
  have hdone := Cmd.write_run (t := Ch.runDone s n.val) hw 1 rfl (honly.quiet hq) (State.get_of_reg rfl (honly.page (by decide)))
  refine ⟨_, (exec_channelRun req n s).trans hdone, ?_, fun a h1 h2 => honly.reg a (by simp [Ch.ctlWords, h1, h2]), fun k => ?_, ?_, ?_,
    ?_, ?_⟩
  · refine congrArg (fun t : State => t.answered req []) (honly.narrow ?_ (hframe.dumpFifo.trans (Ch.runSet_dumpFifo s _ _)))
    rw [hframe.1]
    exact Ch.runSet_work s _ _
  · have hk : (Ch.runDone s n.val).chn k = (Ch.runSet s n.val 1).chn k := State.chn_congr hframe.chan k
    show (Ch.runDone s n.val).chn k = { s.chn k with moved := ((Ch.runDone s n.val).chn k).moved }
    rw [hk]
    exact Ch.runSet_chn s n.val 1 k
  · rw [State.flag_answered, State.flag, hctl rfl rfl, State.get_put_same]
    rfl
  · rw [State.get_answered_req, hctl rfl rfl, State.get_put_apart _ _ _ (by decide)]
  · rw [State.get_answered_req, hctl rfl rfl, State.get_put_apart _ _ _ (by decide)]
  · rw [State.chState_answered, Ch.runDone_chState]

end Sys2Proof.Machine
end

section
/-! ## CHANNEL_START (O21; spec/05 R111, R122, R123) -/

namespace Sys2Proof.Machine

/-! ### What frames leave -/

theorem State.RegsOnly.work {s t : State} {ws : List Nat} (h : s.RegsOnly t ws) : t.work = s.work := by rw [h.1]

theorem State.RegsOnly.code {s t : State} {ws : List Nat} (h : s.RegsOnly t ws) : t.code = s.code := by rw [h.1]

theorem State.RegsOnly.armedAt {s t : State} {ws : List Nat} (h : s.RegsOnly t ws) (key : Nat) : t.armedAt key = s.armedAt key :=
  State.armedAt_congr (by rw [h.1]) key

theorem Ch.Only.code {s t : State} {n : Nat} {ws : List Nat} (h : Ch.Only s t n ws) : t.code = s.code := by rw [h.rest]

theorem Ch.Only.mem {s t : State} {n : Nat} {ws : List Nat} (h : Ch.Only s t n ws) : t.mem = s.mem := by rw [h.rest]

/-! ### Time runs to a sample -/

theorem State.runToSample_only (s : State) (m : Nat) :
    s.runToSample m = { s with base := (s.runToSample m).base, ts := (s.runToSample m).ts } := State.runTo_only _ _

theorem State.reg_runToSample (s : State) (m a : Nat) : (s.runToSample m).reg a = s.reg a := State.reg_runTo _ _ _

theorem State.chn_runToSample (s : State) (m k : Nat) : (s.runToSample m).chn k = s.chn k :=
  State.chn_congr (by rw [State.runToSample_only]) k

theorem State.armedAt_runToSample (s : State) (m key : Nat) : (s.runToSample m).armedAt key = s.armedAt key :=
  State.armedAt_congr (by rw [State.runToSample_only]) key

theorem State.work_runToSample (s : State) (m : Nat) : (s.runToSample m).work = s.work := State.runTo_work _ _

theorem State.code_runToSample (s : State) (m : Nat) : (s.runToSample m).code = s.code := by rw [State.runToSample_only]

theorem State.regs_runToSample (s : State) (m : Nat) : (s.runToSample m).regs = s.regs := State.runTo_regs _ _

/-! ### The settings taken over -/

theorem State.copyShadow_work_congr {s t : State} (hr : s.regs = t.regs) (hw : s.work = t.work) (lo hi : Nat) :
    (s.copyShadow lo hi).work = (t.copyShadow lo hi).work := by
  unfold State.copyShadow
  rw [hr, hw]

/-- A working word after the visible ones were taken over. -/
theorem State.wreg_copyShadow (s : State) {lo hi a : Nat} (h1 : lo ≤ a) (h2 : a < hi) : (s.copyShadow lo hi).wreg a = s.reg a :=
  (Tab.get_copyRange resetWord lo hi s.regs s.work a).trans (if_pos ⟨h1, h2⟩)

/-- A working field after the visible ones were taken over. -/
theorem State.wget_copyShadow (s : State) {lo hi b : Nat} {f : Fld} (h1 : lo ≤ b + f.off) (h2 : b + f.off + 4 * f.words ≤ hi) :
    (s.copyShadow lo hi).wget b f = s.get b f := by
  have hwords (n : Nat) : ∀ a, lo ≤ a → a + 4 * n ≤ hi → (s.copyShadow lo hi).wwordsAt a n = s.wordsAt a n := by
    induction n with
    | zero => exact fun _ _ _ => rfl
    | succ n ih =>
      intro a ha hb
      rw [State.wwordsAt, State.wordsAt, State.wreg_copyShadow s ha (by omega), ih (a + 4) (by omega) (by omega), State.regN]
  exact congrArg (fun x => bitsOf x f.lo f.w) (hwords f.words _ h1 h2)

theorem State.wreg_congr {s t : State} (h : s.work = t.work) (a : Nat) : s.wreg a = t.wreg a := by
  unfold State.wreg
  rw [h]

theorem Ch.taken_chan (s : State) (n : Nat) (cm : Armed) : (Ch.taken s n cm).chan = s.chan := by
  unfold Ch.taken State.chRaise
  rw [State.put_chan, State.put_chan, State.put_chan]
  rfl

theorem Ch.taken_reg (s : State) (n : Nat) (cm : Armed) {a : Nat} (h : a ∉ Ch.takenWords n) : (Ch.taken s n cm).reg a = s.reg a :=
  (Ch.taken_only s n cm).reg a h

theorem Ch.taken_mem (s : State) (n : Nat) (cm : Armed) : (Ch.taken s n cm).mem = s.mem := by
  unfold Ch.taken State.chRaise
  rw [State.put_mem, State.put_mem, State.put_mem]
  rfl

/-- Nothing is armed any more. -/
theorem Ch.taken_armedAt (s : State) (n : Nat) (cm : Armed) : (Ch.taken s n cm).armedAt (Ch.b n + 0x014) = none := by
  rw [(Ch.taken_only s n cm).armedAt, State.armedAt_disarm, if_pos rfl]

theorem Ch.taken_statReason (s : State) (n : Nat) (cm : Armed) :
    (Ch.taken s n cm).get (Ch.b n) Ch.CH_STAT_REASON = s.get (Ch.b n) Ch.CH_STAT_REASON := by
  unfold Ch.taken State.chRaise
  rw [State.get_put_apart _ _ _ (by decide), State.get_put_apart _ _ _ (by decide), State.get_put_apart _ _ _ (by decide)]
  exact State.get_congr rfl _ _

/-! ### The channel runs -/

/-- The channel runs with the record `c`; LATE_START is raised where `late`. -/
def Ch.begun (z : State) (n : Nat) (c : Chan) (late : Bool) : State :=
  let t := ((z.setChn n c).put (Ch.b n) Ch.CH_STAT_STATE 2).chRaise n 0
  if late then t.chRaise n 3 else t

theorem Ch.begun_frame (z : State) (n : Nat) (c : Chan) (late : Bool) :
    (z.setChn n c).RegsOnly (Ch.begun z n c late) [Ch.b n + 0x004, Ch.b n + 0x008] := by
  have hrun : (z.setChn n c).RegsOnly (((z.setChn n c).put (Ch.b n) Ch.CH_STAT_STATE 2).chRaise n 0)
      [Ch.b n + 0x004, Ch.b n + 0x008] :=
    ((State.RegsOnly.put _ _ Ch.CH_STAT_STATE _ rfl).mono (by simp [Ch.CH_STAT_STATE])).trans
      ((State.RegsOnly.put _ (Ch.b n) ⟨0x008, 0, 32⟩ _ rfl).mono (by simp))
  unfold Ch.begun
  dsimp only
  split
  · exact hrun.trans ((State.RegsOnly.put _ (Ch.b n) ⟨0x008, 0, 32⟩ _ rfl).mono (by simp))
  · exact hrun

/-- A channel event leaves the other words of the entry. -/
theorem State.get_chRaise (s : State) (n bit : Nat) {f : Fld} (hf : Fld.apart ⟨0x008, 0, 32⟩ f = true) :
    (s.chRaise n bit).get (Ch.b n) f = s.get (Ch.b n) f := State.get_put_apart _ _ _ hf

theorem Ch.begun_stat (z : State) (n : Nat) (c : Chan) (late : Bool) : (Ch.begun z n c late).chState n = 2 ∧
    (Ch.begun z n c late).get (Ch.b n) Ch.CH_STAT_REASON = z.get (Ch.b n) Ch.CH_STAT_REASON := by
  have hstate (t : State) (h : t.chState n = 2) (bit : Nat) : (t.chRaise n bit).chState n = 2 :=
    (State.get_chRaise t n bit (by decide)).trans h
  have hreason (t : State) (bit : Nat) : (t.chRaise n bit).get (Ch.b n) Ch.CH_STAT_REASON = t.get (Ch.b n) Ch.CH_STAT_REASON :=
    State.get_chRaise t n bit (by decide)
  have hrun : ((z.setChn n c).put (Ch.b n) Ch.CH_STAT_STATE 2).chState n = 2 := State.get_put_same _ _ _ _
  have hkept : ((z.setChn n c).put (Ch.b n) Ch.CH_STAT_STATE 2).get (Ch.b n) Ch.CH_STAT_REASON =
      z.get (Ch.b n) Ch.CH_STAT_REASON := by
    rw [State.get_put_apart _ _ _ (by decide), State.get_setChn]
  cases late with
  | true => exact ⟨hstate _ (hstate _ hrun 0) 3, by rw [Ch.begun, if_pos rfl, hreason, hreason, hkept]⟩
  | false => exact ⟨hstate _ hrun 0, by rw [Ch.begun, if_neg (by decide), hreason, hkept]⟩

/-! ### The start -/

/-- The sample at which a channel starts (R111, R130). -/
def Ch.startAt (s : State) (n : Nat) (cm : Armed) : Nat :=
  let t := s.get (Ch.b n) Ch.START_T
  let m := max (if t < cm.at_ then s.sampleAfter cm.at_ else s.sampleAt t) (max (Ch.afterMove s n) s.curSample)
  if s.flag (Ch.b n) Ch.SIG_CFG_NB then s.groupStart m else m

/-- The channel stands at sample `m`. -/
def Ch.placed (s : State) (n m : Nat) : State := (s.runToSample m).setChn n { s.chn n with pos := m }

theorem Ch.start_eq {s : State} {n : Nat} {cm : Armed} (h : s.armedAt (Ch.b n + 0x014) = some cm) : ∃ late,
    Ch.start s n = if (late && (Ch.handOver (Ch.placed s n (Ch.startAt s n cm)) n true false).chState n == 2) = true then
      (Ch.handOver (Ch.placed s n (Ch.startAt s n cm)) n true false).chRaise n 3
    else Ch.handOver (Ch.placed s n (Ch.startAt s n cm)) n true false := by
  have hplaced (m : Nat) : (s.runToSample m).setChn n { (s.runToSample m).chn n with pos := m } = Ch.placed s n m := by
    rw [State.chn_runToSample, Ch.placed]
  refine ⟨decide (s.get (Ch.b n) Ch.START_T < cm.at_), ?_⟩
  unfold Ch.start
  extract_lets b
  rw [show s.armedAt (b + 0x014) = some cm from h]
  dsimp only
  simp only [hplaced, decide_eq_true_eq]
  rfl

/-- What a start at sample `m` under COMMIT `cm` has made of channel `n`: settings, phases and accumulators (R123). -/
structure Ch.Started (s t : State) (n : Nat) (cm : Armed) (m : Nat) : Prop where
  state : t.chState n = 2
  reason : t.get (Ch.b n) Ch.CH_STAT_REASON = s.get (Ch.b n) Ch.CH_STAT_REASON
  gen : t.get (Ch.b n) Ch.COMMIT_TAKEN_GEN = cm.gen % 2 ^ 16
  armed : t.armedAt (Ch.b n + 0x014) = none
  pos : (t.chn n).pos = m
  acc : (t.chn n).acc = List.replicate 9 (0, 0)
  nsamp : (t.chn n).nsamp = 0
  settings : t.work = (s.copyShadow (Ch.b n + 0x020) (Ch.b n + 0x080)).work
  phases : s.get (Ch.b n) Ch.APPLY_GEN_STEP_GEN ≠ cm.gen →
    (t.chn n).chip = s.get (Ch.b n) Ch.CODE_INIT_CHIP % max (Ch.len t n) 1 ∧
    (t.chn n).frac = s.get (Ch.b n) Ch.CODE_INIT_FRAC * 2 ^ 8 ∧
    (t.chn n).period = BitVec.ofNat 32 (s.get (Ch.b n) Ch.PERIOD_INIT_PERIOD) ∧
    (t.chn n).carr = BitVec.ofNat 72 (s.get (Ch.b n) Ch.CARR_INIT_PHASE * 2 ^ 8)
  mem : t.mem = s.mem
  others : ∀ k ≠ n, t.chn k = s.chn k
  regs : ∀ a, ¬(Ch.b n ≤ a ∧ a < Ch.b n + 0x01C) → t.reg a = s.reg a

/-- The words of CH_STAT, CH_IRQ_RAW and COMMIT_TAKEN. -/
theorem Ch.takenWords_in {n a : Nat} (h : ¬(Ch.b n ≤ a ∧ a < Ch.b n + 0x01C)) : a ∉ Ch.takenWords n := by
  simp only [Ch.takenWords, List.mem_cons, List.not_mem_nil, or_false, not_or]
  omega

/-- A start that hands over valid settings. -/
theorem Ch.begun_started {s z : State} {n : Nat} {cm : Armed} {c : Chan} (honly : Ch.Only (Ch.taken s n cm) z n [])
    (hwork : z.work = (Ch.taken s n cm).work) (hb : Ch.Begins (Ch.taken s n cm) n cm.gen c) (late : Bool) :
    Ch.Started s (Ch.begun z n c late) n cm (s.chn n).pos := by
  have hframe := Ch.begun_frame z n c late
  obtain ⟨hstate, hreason⟩ := Ch.begun_stat z n c late
  have hchn (k : Nat) : (Ch.begun z n c late).chn k = (z.setChn n c).chn k := State.chn_congr hframe.chan k
  have hself : (Ch.begun z n c late).chn n = c := (hchn n).trans (State.chn_setChn_same z n c)
  have hz (a : Nat) (ha : a ∉ [Ch.b n + 0x004, Ch.b n + 0x008]) : (Ch.begun z n c late).reg a = (Ch.taken s n cm).reg a :=
    (hframe.2 a ha).trans (honly.reg a List.not_mem_nil)
  have hwork' : (Ch.begun z n c late).work = (Ch.taken s n cm).work := hframe.work.trans hwork
  have hcode : (Ch.begun z n c late).code = (Ch.taken s n cm).code := hframe.code.trans honly.code
  have hset (f : Fld) (h1 : 0x020 ≤ f.off) (h2 : f.off + 4 * f.words ≤ 0x080) :
      (Ch.taken s n cm).wget (Ch.b n) f = s.get (Ch.b n) f :=
    (State.wget_congr (Ch.taken_work s n cm) _ _).trans (State.wget_copyShadow s (by omega) (by omega))
  have hpos : ((Ch.taken s n cm).chn n).pos = (s.chn n).pos := congrArg Chan.pos (State.chn_congr (Ch.taken_chan s n cm) n)
  constructor
  case state => exact hstate
  case reason => rw [hreason, honly.get rfl List.not_mem_nil, Ch.taken_statReason]
  case gen => rw [State.get_of_reg rfl (hz _ (by simp [Ch.COMMIT_TAKEN_GEN])), Ch.taken_gen]
  case armed => rw [hframe.armedAt]; exact (honly.armedAt _).trans (Ch.taken_armedAt s n cm)
  case pos => rw [hself, hb.pos, hpos]
  case acc => rw [hself, hb.acc]
  case nsamp => rw [hself, hb.nsamp]
  case settings => rw [hwork', Ch.taken_work]
  case phases =>
    intro hgen
    rw [← hset Ch.APPLY_GEN_STEP_GEN (by decide) (by decide)] at hgen
    rw [hself, Ch.len_congr hwork' hcode, ← hset Ch.CODE_INIT_CHIP (by decide) (by decide),
      ← hset Ch.CODE_INIT_FRAC (by decide) (by decide), ← hset Ch.PERIOD_INIT_PERIOD (by decide) (by decide),
      ← hset Ch.CARR_INIT_PHASE (by decide) (by decide)]
    exact hb.phases hgen
  case mem => exact hframe.mem.trans (honly.mem.trans (Ch.taken_mem s n cm))
  case others =>
    intro k hk
    rw [hchn, State.chn_setChn_ne z hk, honly.chn k hk, State.chn_congr (Ch.taken_chan s n cm)]
  case regs =>
    intro a ha
    rw [hz a (by simp only [List.mem_cons, List.not_mem_nil, or_false]; omega), Ch.taken_reg s n cm (Ch.takenWords_in ha)]

/-! ### Placing the channel, and a measurement latched at the same sample -/

theorem Ch.placed_regs (s : State) (n m : Nat) : (Ch.placed s n m).regs = s.regs := State.regs_runToSample s m

theorem Ch.placed_work (s : State) (n m : Nat) : (Ch.placed s n m).work = s.work := State.work_runToSample s m

theorem Ch.placed_code (s : State) (n m : Nat) : (Ch.placed s n m).code = s.code := State.code_runToSample s m

theorem Ch.placed_mem (s : State) (n m : Nat) : (Ch.placed s n m).mem = s.mem := State.runToSample_mem s m

theorem Ch.placed_armedAt (s : State) (n m key : Nat) : (Ch.placed s n m).armedAt key = s.armedAt key :=
  State.armedAt_runToSample s m key

theorem Ch.placed_pos (s : State) (n m : Nat) : ((Ch.placed s n m).chn n).pos = m := by
  rw [Ch.placed, State.chn_setChn_same]

theorem Ch.placed_chn_ne (s : State) {n k : Nat} (h : k ≠ n) (m : Nat) : (Ch.placed s n m).chn k = s.chn k := by
  rw [Ch.placed, State.chn_setChn_ne _ h, State.chn_runToSample]

theorem Ch.Started.of_placed {s t : State} {n m m' : Nat} {cm : Armed} (h : Ch.Started (Ch.placed s n m) t n cm m') :
    Ch.Started s t n cm m' := by
  have hget (f : Fld) : (Ch.placed s n m).get (Ch.b n) f = s.get (Ch.b n) f := State.get_congr (Ch.placed_regs s n m) _ _
  have hset := State.copyShadow_work_congr (Ch.placed_regs s n m) (Ch.placed_work s n m) (Ch.b n + 0x020) (Ch.b n + 0x080)
  exact {
    state := h.state, gen := h.gen, armed := h.armed, pos := h.pos, acc := h.acc, nsamp := h.nsamp
    reason := h.reason.trans (hget _)
    settings := h.settings.trans hset
    phases := by simpa only [hget] using h.phases
    mem := h.mem.trans (Ch.placed_mem s n m)
    others := fun k hk => (h.others k hk).trans (Ch.placed_chn_ne s hk m)
    regs := fun a ha => (h.regs a ha).trans (State.reg_congr (Ch.placed_regs s n m) a) }

theorem Ch.Started.withLatch {s t : State} {n m : Nat} {cm : Armed} (h : Ch.Started s t n cm m) (l : Option Latch) :
    Ch.Started s { t with latch := l } n cm m := by
  have hlen : Ch.len { t with latch := l } n = Ch.len t n := Ch.len_congr rfl rfl n
  exact {
    state := (State.get_congr rfl _ _).trans h.state, reason := (State.get_congr rfl _ _).trans h.reason
    gen := (State.get_congr rfl _ _).trans h.gen, armed := h.armed, pos := h.pos, acc := h.acc, nsamp := h.nsamp
    settings := h.settings
    phases := by rw [hlen]; exact h.phases
    mem := h.mem, others := h.others, regs := h.regs }

/-- A channel's act changes its entry of a block latched at this sample, nothing else. -/
theorem Meas.retake_only (s : State) (n : Nat) : Meas.retake s n = { s with latch := (Meas.retake s n).latch } := by
  unfold Meas.retake
  split
  · rfl
  · split <;> rfl

/-- The start hand-over at `Ch.startAt`, its settings valid. -/
theorem Ch.start_starts {s : State} {n : Nat} {cm : Armed} (h : s.armedAt (Ch.b n + 0x014) = some cm)
    (hr : Ch.reason (s.copyShadow (Ch.b n + 0x020) (Ch.b n + 0x080)) n = 0) :
    Ch.Started s (Ch.start s n) n cm (Ch.startAt s n cm) := by
  obtain ⟨late, hstart⟩ := Ch.start_eq h
  rw [hstart]
  generalize hm : Ch.startAt s n cm = m
  have hreason : Ch.reason ((Ch.placed s n m).copyShadow (Ch.b n + 0x020) (Ch.b n + 0x080)) n = 0 :=
    (Ch.reason_congr (State.copyShadow_work_congr (Ch.placed_regs s n m) (Ch.placed_work s n m) _ _) (Ch.placed_code s n m) n).trans hr
  obtain ⟨z, c, hhand, honly, hwork, hbegins⟩ := Ch.handOver_start ((Ch.placed_armedAt s n m _).trans h) hreason
  have hdone : (if (late && (Ch.handOver (Ch.placed s n m) n true false).chState n == 2) = true then
      (Ch.handOver (Ch.placed s n m) n true false).chRaise n 3 else Ch.handOver (Ch.placed s n m) n true false) =
      Ch.begun z n c late := by
    have hrun : (((z.setChn n c).put (Ch.b n) Ch.CH_STAT_STATE 2).chRaise n 0).chState n = 2 := (Ch.begun_stat z n c false).1
    rw [hhand, hrun, beq_self_eq_true, Bool.and_true]
    rfl
  have hstarted := (Ch.begun_started honly hwork hbegins late).of_placed
  rw [Ch.placed_pos] at hstarted
  rwa [hdone]

theorem exec_channelStart (n : Fin 512) (s : State) : exec (.channelStart n) s = execChannelStart n s := rfl

/-- CHANNEL_START of a waiting or halted channel of PATH 0. -/
theorem exec_channelStart_starts {n : Fin 512} {cm : Armed} {s : State} (hst : s.chState n.val = 1 ∨ s.chState n.val = 3)
    (hpath : s.flag (Ch.b n.val) Ch.CH_CTL_PATH = false) (harmed : s.armedAt (Ch.b n.val + 0x014) = some cm)
    (hen : s.en 0x030 = true) (hf : s.frozen 0x030 = false) (hrun : s.running .corr = true)
    (hr : Ch.reason (s.copyShadow (Ch.b n.val + 0x020) (Ch.b n.val + 0x080)) n.val = 0) :
    ∃ t, exec (.channelStart n) s = .next t ∧ Ch.Started s t n.val cm (Ch.startAt s n.val cm) := by
  have hwaits : Ch.waits s n.val = true := by
    unfold Ch.waits Trkg.p
    rcases hst with h | h <;> simp [h, hpath, hen, hf, hrun]
  refine ⟨Meas.retake (Ch.start s n.val) n.val, ?_, ?_⟩
  · rw [exec_channelStart, execChannelStart, if_pos hwaits]
  · rw [Meas.retake_only]
    exact (Ch.start_starts harmed hr).withLatch _

/-- Settles O21: RUN, the stop, and the start under the COMMIT. -/
theorem channelRunAndStart : Obligations.ChannelRunAndStart := by
  unfold Obligations.ChannelRunAndStart
  refine ⟨fun req n s hq hw => channelRun_waits hq hw, fun req n s hq hw => channelStop_idles hq hw, fun n cm s => ?_⟩
  intro b m0 m hst hpath harmed hen hf hrun hr
  obtain ⟨t, hexec, ht⟩ := exec_channelStart_starts hst hpath harmed hen hf hrun hr
  refine ⟨t, hexec, ht.state, ht.reason, ht.gen, ht.armed, ht.pos, ht.acc, ht.nsamp, fun a h1 h2 => ?_, fun hgen => ?_, ht.mem,
    ht.others, ht.regs⟩
  · exact (State.wreg_congr ht.settings a).trans (State.wreg_copyShadow s h1 h2)
  · obtain ⟨hchip, hfrac, hperiod, hcarr⟩ := ht.phases hgen
    have hperiodLt : s.get (Ch.b n.val) Ch.PERIOD_INIT_PERIOD < 2 ^ 32 := State.get_lt _ _ _
    have hphaseLt : s.get (Ch.b n.val) Ch.CARR_INIT_PHASE < 2 ^ 64 := State.get_lt _ _ _
    refine ⟨hchip, hfrac, ?_, ?_⟩
    · rw [hperiod, BitVec.toNat_ofNat, Nat.mod_eq_of_lt hperiodLt]
    · rw [hcarr, BitVec.toNat_ofNat, Nat.mod_eq_of_lt (by omega)]

end Sys2Proof.Machine
end

section
/-! ## INTERVAL_END (O22; spec/05 R118, R121) -/

namespace Sys2Proof.Machine

/-! ### Samples and positions -/

theorem Ch.step_pos (s : State) (n : Nat) (c : Chan) (k : Nat) : (Ch.step s n c k).pos = c.pos + k := rfl

theorem Ch.sample_pos (s : State) (n : Nat) (c : Chan) (x : Iq) : (Ch.sample s n c x).pos = c.pos + 1 := rfl

theorem Ch.samples_pos (s : State) (n p : Nat) (feed : List Smp) (k : Nat) : ∀ c, (Ch.samples s n p feed k c).pos = c.pos + k := by
  induction k with
  | zero => exact fun _ => rfl
  | succ k ih =>
    intro c
    rw [Ch.samples, ih, Ch.sample_pos]
    omega

theorem Ch.group_pos (s : State) (n : Nat) (c : Chan) (xs : List Iq) : (Ch.group s n c xs).pos = c.pos + xs.length := by
  have hfold (f : (Int × Int) × Chan × Nat → Iq → (Int × Int) × Chan × Nat) (hf : ∀ x y, (f x y).2.1.pos = x.2.1.pos + 1) :
      ∀ (l : List Iq) (x : (Int × Int) × Chan × Nat), (l.foldl f x).2.1.pos = x.2.1.pos + l.length := by
    intro l
    induction l with
    | nil => exact fun _ => rfl
    | cons y l ih =>
      intro x
      rw [List.foldl_cons, ih, hf, List.length_cons]
      omega
  exact hfold _ (fun _ _ => rfl) xs _

theorem Ch.groups_pos (s : State) (n p : Nat) (feed : List Smp) (g : Nat) : ∀ c, (Ch.groups s n p feed g c).pos = c.pos + 4 * g := by
  induction g with
  | zero => exact fun _ => rfl
  | succ g ih =>
    intro c
    rw [Ch.groups, ih, Ch.group_pos, List.length_map, List.length_range]
    omega

theorem Ch.span_pos (s : State) (n p m : Nat) (feed : List Smp) (c : Chan) : (Ch.span s n p m feed c).pos = max c.pos m := by
  unfold Ch.span
  extract_lets t k
  split
  · rw [Ch.samples_pos, Ch.groups_pos]
    omega
  · rw [Ch.samples_pos]
    omega

theorem Arr.mem_insAsc {x y : Nat} {l : List Nat} : y ∈ Arr.insAsc x l ↔ y = x ∨ y ∈ l := by
  induction l with
  | nil => simp [Arr.insAsc]
  | cons z l ih =>
    unfold Arr.insAsc
    split
    · simp
    · split
      · next h => simp [h]
      · simp [ih, or_left_comm]

/-- The last of the cuts is the sample run to. -/
theorem Ch.mem_cuts {s : State} {n a m : Nat} : m ∈ Ch.cuts s n a m ∧ ∀ e ∈ Ch.cuts s n a m, e ≤ m := by
  have hins (l : List Nat) (y : Nat) : y ∈ l.foldr Arr.insAsc [m] ↔ y ∈ l ∨ y = m := by
    induction l with
    | nil => simp
    | cons x l ih => rw [List.foldr_cons, Arr.mem_insAsc, ih, List.mem_cons, or_assoc]
  unfold Ch.cuts
  extract_lets cut
  refine ⟨(hins _ _).2 (Or.inr rfl), fun e he => ?_⟩
  rcases (hins _ _).1 he with h | h
  · have := of_decide_eq_true (List.mem_filter.1 h).2
    omega
  · exact h.le

/-- Running span by span to places up to `m`, one of which is `m`, ends at `m`. -/
theorem Ch.foldl_span_pos (s : State) (n p m : Nat) (feed : List Smp) (l : List Nat) : ∀ c : Chan,
    c.pos ≤ m → (∀ e ∈ l, e ≤ m) →
    (m ∈ l ∨ c.pos = m) → (l.foldl (fun x e => Ch.span s n p e feed x) c).pos = m := by
  induction l with
  | nil => exact fun c _ _ h => h.resolve_left List.not_mem_nil
  | cons e l ih =>
    intro c hc hl h
    obtain ⟨he, hl⟩ := List.forall_mem_cons.1 hl
    have hpos := Ch.span_pos s n p e feed c
    refine ih (Ch.span s n p e feed c) (by omega) hl ?_
    rcases h with h | h
    · rcases List.mem_cons.1 h with rfl | h
      · exact Or.inr (by omega)
      · exact Or.inl h
    · exact Or.inr (by omega)

theorem State.chn_putB (s : State) (b : Nat) (f : Fld) (v : Bool) (k : Nat) : (s.putB b f v).chn k = s.chn k := State.chn_put _ _ _ _ _

theorem State.chn_parityOf (s : State) (c n : Nat) (sec : List Nat) (k : Nat) : (s.parityOf c n sec).chn k = s.chn k :=
  State.chn_congr (State.RegsOnly.parityOf s c n sec).chan k

/-- A channel that has run to `m` stands there. -/
theorem Ch.runUntil_pos (s : State) (n m : Nat) (feed : List Smp) (h : (s.chn n).pos ≤ m) :
    ((Ch.runUntil s n m feed).chn n).pos = m := by
  unfold Ch.runUntil
  extract_lets +onlyGivenNames c c' last
  split
  · next hle => exact Nat.le_antisymm h hle
  · rw [State.chn_putB, State.chn_parityOf, State.chn_setChn_same]
    exact Ch.foldl_span_pos s n _ m feed _ c h Ch.mem_cuts.2 (Or.inl Ch.mem_cuts.1)

/-! ### The next interval -/

/-- Channel record `c` begins an interval at its present sample. -/
structure Chan.Fresh (c : Chan) : Prop where
  acc : c.acc = List.replicate 9 (0, 0)
  nsamp : c.nsamp = 0
  first : c.first = c.pos

/-- The channel stands at the same sample in both states. -/
def Ch.SamePos (s t : State) (n : Nat) : Prop := (t.chn n).pos = (s.chn n).pos

namespace Ch.SamePos

variable {s t u : State} {n : Nat}

theorem refl (s : State) (n : Nat) : Ch.SamePos s s n := rfl

theorem put (h : Ch.SamePos s t n) (b : Nat) (f : Fld) (v : Nat) : Ch.SamePos s (t.put b f v) n :=
  (congrArg Chan.pos (State.chn_put t b f v n)).trans h

theorem raiseIf (h : Ch.SamePos s t n) (c : Bool) (p bit : Nat) : Ch.SamePos s (t.raiseIf c p bit) n :=
  (congrArg Chan.pos (State.chn_congr (State.RegsOnly.raiseIf t c p bit).chan n)).trans h

theorem setChn {c : Chan} (t : State) (h : c.pos = (s.chn n).pos) : Ch.SamePos s (t.setChn n c) n :=
  (congrArg Chan.pos (State.chn_setChn_same t n c)).trans h

theorem ite (h : Ch.SamePos s t n) (c : Prop) [Decidable c] (h' : Ch.SamePos s u n) : Ch.SamePos s (if c then t else u) n := by
  split
  · exact h
  · exact h'

end Ch.SamePos

theorem Trkg.drop_samePos {s t : State} {n : Nat} (h : Ch.SamePos s t n) : Ch.SamePos s (Trkg.drop t n) n := by
  unfold Trkg.drop
  extract_lets b z u
  have hu : Ch.SamePos s u n := (h.put b Trkg.DUMP_OVF_COUNT _).raiseIf _ _ _
  exact Ch.SamePos.setChn u hu

theorem Ch.endInterval_fresh (s : State) (n : Nat) (cut load : Bool) :
    ((Ch.endInterval s n cut load).chn n).Fresh ∧ ((Ch.endInterval s n cut load).chn n).pos = (s.chn n).pos := by
  unfold Ch.endInterval
  extract_lets +onlyGivenNames b c syn t1 dumping seq t2 time flags fields taps t3 c'
  have h1 : Ch.SamePos s t1 n := (Ch.SamePos.refl s n).ite _ ((Ch.SamePos.refl s n).put _ _ _)
  have h2 : Ch.SamePos s t2 n := h1.put b Ch.CH_STAT_DUMP_SEQ seq
  have h3 : Ch.SamePos s t3 n := Ch.SamePos.ite ((Trkg.drop_samePos h2).ite _
    (Ch.SamePos.setChn (c := { s.chn n with lost := false }) _ rfl)) _ h1
  clear_value t3
  rw [State.chn_setChn_same]
  exact ⟨⟨rfl, rfl, rfl⟩, h3⟩

/-! ### The boundary -/

theorem exec_intervalEnd (n : Fin 512) (feed : List Smp) (s : State) : exec (.intervalEnd n feed) s = execIntervalEnd n feed s := rfl

/-- The sample of the channel's next integration boundary (R118). -/
def Ch.boundaryAt (s : State) (n : Nat) : Nat := (s.chn n).pos + Ch.toBoundary s n (s.chn n)

/-- The boundary of a channel of PATH 1, which follows its group's commits. -/
theorem Ch.boundary_path {s : State} {n : Nat} (h : Ch.pathAt s n (Ch.boundaryAt s n) = true) (feed : List Smp) :
    Ch.boundary s n feed =
      Ch.endInterval (Ch.runUntil (s.runToSample (Ch.boundaryAt s n)) n (Ch.boundaryAt s n) feed) n false false := by
  unfold Ch.boundaryAt at h ⊢
  simp only [Ch.boundary, h, if_true]

/-- INTERVAL_END of a running channel of PATH 1. -/
theorem intervalEnd_restarts {n : Fin 512} {s : State} (hst : s.chState n.val = 2) (hen : s.en 0x030 = true)
    (hf : s.frozen 0x030 = false) (hrun : s.running .corr = true) (hpath : Ch.pathAt s n.val (Ch.boundaryAt s n.val) = true)
    (feed : List Smp) : ∃ t, exec (.intervalEnd n feed) s = .next t ∧ (t.chn n.val).Fresh ∧
      (t.chn n.val).pos = Ch.boundaryAt s n.val := by
  have hif : s.chState n.val = 2 ∧ s.en Trkg.p ∧ !s.frozen Trkg.p ∧ s.running .corr := ⟨hst, hen, by rw [Trkg.p, hf]; rfl, hrun⟩
  refine ⟨Meas.retake (Ch.boundary s n.val feed) n.val, ?_, ?_⟩
  · rw [exec_intervalEnd, execIntervalEnd, if_pos hif]
  · have hchn : (Meas.retake (Ch.boundary s n.val feed) n.val).chn n.val = (Ch.boundary s n.val feed).chn n.val :=
      State.chn_congr (by rw [Meas.retake_only]) _
    obtain ⟨hfresh, hpos⟩ := Ch.endInterval_fresh
      (Ch.runUntil (s.runToSample (Ch.boundaryAt s n.val)) n.val (Ch.boundaryAt s n.val) feed) n.val false false
    have hat := Ch.runUntil_pos (s.runToSample (Ch.boundaryAt s n.val)) n.val (Ch.boundaryAt s n.val) feed
      (by rw [State.chn_runToSample]; exact Nat.le_add_right _ _)
    rw [hchn, Ch.boundary_path hpath]
    exact ⟨hfresh, hpos.trans hat⟩

end Sys2Proof.Machine
end

section
/-! ## Group commits: the members (O22; spec/05 R122, R125) -/

namespace Sys2Proof.Machine

/-! ### One member -/

/-- A hand-over after an act of the channel that leaves the COMMIT armed. -/
theorem Ch.Handed.after {s t u : State} {n gen : Nat} (h : Ch.Only s t n (Ch.words n)) (h' : Ch.Handed t u n gen) : Ch.Handed s u n gen :=
  ⟨((h.disarm _).mono fun _ ha => List.mem_cons_of_mem _ ha).trans h'.only, h'.gen⟩

/-- A member without an armed COMMIT is missed. -/
theorem Trkg.commitMember_none {s : State} {n : Nat} (h : s.armedAt (Ch.b n + 0x014) = none) (m : Nat) (feed : List Smp) :
    Trkg.commitMember s n m feed = (s, true) := by
  unfold Trkg.commitMember
  extract_lets b st
  exact if_pos (by rw [show s.armedAt (b + 0x014) = none from h]; rfl)

/-- An idle member takes no part. -/
theorem Trkg.commitMember_idle {s : State} {n : Nat} {cm : Armed} (h : s.armedAt (Ch.b n + 0x014) = some cm) (hst : s.chState n = 0)
    (m : Nat) (feed : List Smp) : Trkg.commitMember s n m feed = (s, false) := by
  unfold Trkg.commitMember
  extract_lets +onlyGivenNames b st
  rw [if_neg (by rw [show s.armedAt (b + 0x014) = some cm from h]; simp), if_neg (by rw [show st = 0 from hst]; decide),
    if_pos (show st = 0 from hst)]

/-- Every other member takes its COMMIT. -/
theorem Trkg.commitMember_takes {s : State} {n : Nat} {cm : Armed} (h : s.armedAt (Ch.b n + 0x014) = some cm)
    (hst : s.chState n ≠ 0) (m : Nat) (feed : List Smp) :
    ∃ t, Trkg.commitMember s n m feed = (t, false) ∧ Ch.Handed s t n cm.gen := by
  have htake {t : State} (ht : Ch.Only s t n (Ch.words n)) (start inside : Bool) :
      Ch.Handed s (Ch.handOver t n start inside) n cm.gen :=
    Ch.Handed.after ht (Ch.handOver_takes ((ht.armedAt _).trans h) start inside)
  unfold Trkg.commitMember
  extract_lets +onlyGivenNames b st m1 c w was ends run c1 waited done m2
  rw [if_neg (by rw [show s.armedAt (b + 0x014) = some cm from h]; simp)]
  have hrun : Ch.Only s run n (Ch.words n) := Ch.runUntil_only (.refl _ _ _) _ _
  have hwaited : Ch.Only s waited n (Ch.words n) := hrun.setChn _
  have hdone : Ch.Only s done n (Ch.words n) := Ch.Only.ite (Ch.endInterval_only hwaited _ _) _ hwaited
  split
  · exact ⟨_, rfl, htake hdone _ _⟩
  · exact ⟨_, rfl, htake ((Ch.Only.refl _ _ _).setChn _) _ _⟩

/-! ### Several members -/

/-- The words outside the channel entries that an act on a channel can write. -/
def Trkg.sharedWords : List Nat := [0x30014, 0x30024, 0x30028, 0x30058, 0x28050, 0x28014]

/-- The members `l` have been handled, from `s` to `t`. -/
structure Trkg.Handled (s t : State) (l : List Nat) : Prop where
  rest : t = { s with regs := t.regs, resp := t.resp, work := t.work, chan := t.chan, dumpFifo := t.dumpFifo, armed := t.armed }
  page : ∀ a < 0x100000, a ∉ Trkg.sharedWords → t.reg a = s.reg a
  chn : ∀ k ∉ l, t.chn k = s.chn k
  armed : ∀ k ∉ l, t.armedAt (Ch.b k + 0x014) = s.armedAt (Ch.b k + 0x014)
  entry : ∀ k ∉ l, ∀ i < 0x100, t.reg (Ch.b k + i) = s.reg (Ch.b k + i)
  taken : ∀ n ∈ l, ∀ cm, s.armedAt (Ch.b n + 0x014) = some cm → s.chState n ≠ 0 →
    t.armedAt (Ch.b n + 0x014) = none ∧ t.get (Ch.b n) Ch.COMMIT_TAKEN_GEN = cm.gen % 2 ^ 16

namespace Trkg.Handled

variable {s t u : State} {n : Nat} {l : List Nat}

theorem nil (s : State) : Trkg.Handled s s [] :=
  ⟨rfl, fun _ _ _ => rfl, fun _ _ => rfl, fun _ _ => rfl, fun _ _ _ _ => rfl, fun _ hn => absurd hn List.not_mem_nil⟩

theorem chState (h : Trkg.Handled s t l) {k : Nat} (hk : k ∉ l) : t.chState k = s.chState k :=
  State.get_of_reg rfl (h.entry k hk _ (by decide))

/-- A member on which nothing acts. -/
theorem skip (h : Trkg.Handled s t l) (hn : ∀ cm, s.armedAt (Ch.b n + 0x014) = some cm → s.chState n = 0) :
    Trkg.Handled s t (n :: l) := by
  have hout {k : Nat} (hk : k ∉ n :: l) : k ∉ l := fun hm => hk (List.mem_cons_of_mem _ hm)
  refine ⟨h.rest, h.page, fun k hk => h.chn k (hout hk), fun k hk => h.armed k (hout hk), fun k hk => h.entry k (hout hk),
    fun k hk cm hcm hst => ?_⟩
  rcases List.mem_cons.1 hk with rfl | hk
  · exact absurd (hn cm hcm) hst
  · exact h.taken k hk cm hcm hst

theorem key_ne {n k : Nat} (h : k ≠ n) : Ch.b k + 0x014 ≠ Ch.b n + 0x014 := Ch.b_ne h (by decide) (by decide)

/-- The words of another entry are not among those that a hand-over writes. -/
theorem other_entry {n k i : Nat} (h : k ≠ n) (hi : i < 0x100) : Ch.b k + i ∉ (Ch.b n + 0x018) :: Ch.words n := by
  simp only [Ch.words, pg, Ch.b, List.mem_cons, List.not_mem_nil, or_false, not_or]
  omega

/-- A member that takes its COMMIT. -/
theorem take {cm : Armed} (h : Trkg.Handled s t l) (hn : n ∉ l) (hcm : s.armedAt (Ch.b n + 0x014) = some cm)
    (hu : Ch.Handed t u n cm.gen) : Trkg.Handled s u (n :: l) := by
  have harmed (key : Nat) : u.armedAt key = if key = Ch.b n + 0x014 then none else t.armedAt key := by
    rw [hu.only.armedAt, State.armedAt_disarm]
  have hsplit {k : Nat} (hk : k ∉ n :: l) : k ≠ n ∧ k ∉ l := by simpa using hk
  have hreg (a : Nat) (ha : a ∉ (Ch.b n + 0x018) :: Ch.words n) : u.reg a = t.reg a := hu.only.reg a ha
  constructor
  case rest =>
    have hdisarm : t.disarm (Ch.b n + 0x014) = { t with armed := (t.disarm (Ch.b n + 0x014)).armed } := rfl
    rw [hu.only.rest, hdisarm, h.rest]
  case page =>
    intro a ha hs
    refine (hreg a ?_).trans (h.page a ha hs)
    simp only [Trkg.sharedWords, List.mem_cons, List.not_mem_nil, or_false, not_or] at hs
    simp only [Ch.words, pg, Ch.b, List.mem_cons, List.not_mem_nil, or_false, not_or]
    omega
  case chn => exact fun k hk => (hu.only.chn k (hsplit hk).1).trans (h.chn k (hsplit hk).2)
  case armed =>
    intro k hk
    rw [harmed, if_neg (key_ne (hsplit hk).1), h.armed k (hsplit hk).2]
  case entry => exact fun k hk i hi => (hreg _ (other_entry (hsplit hk).1 hi)).trans (h.entry k (hsplit hk).2 i hi)
  case taken =>
    intro k hk cm' hcm' hst
    rcases List.mem_cons.1 hk with rfl | hk
    · obtain rfl : cm = cm' := Option.some.inj (hcm.symm.trans hcm')
      exact ⟨(harmed _).trans (if_pos rfl), hu.gen⟩
    · have hne : k ≠ n := fun e => hn (e ▸ hk)
      obtain ⟨hnone, hgen⟩ := h.taken k hk cm' hcm' hst
      refine ⟨(harmed _).trans ((if_neg (key_ne hne)).trans hnone), ?_⟩
      exact (State.get_of_reg rfl (hreg _ (other_entry hne (by decide)))).trans hgen

/-- One more member, and whether it is missed. -/
theorem commit (h : Trkg.Handled s t l) (hn : n ∉ l) (m : Nat) (feed : List Smp) :
    Trkg.Handled s (Trkg.commitMember t n m feed).1 (n :: l) ∧
      (Trkg.commitMember t n m feed).2 = (s.armedAt (Ch.b n + 0x014)).isNone := by
  have harmed := h.armed n hn
  cases hcm : s.armedAt (Ch.b n + 0x014) with
  | none =>
    rw [Trkg.commitMember_none (harmed.trans hcm)]
    exact ⟨h.skip fun cm hsome => by rw [hcm] at hsome; simp at hsome, rfl⟩
  | some cm =>
    by_cases hst : s.chState n = 0
    · rw [Trkg.commitMember_idle (harmed.trans hcm) ((h.chState hn).trans hst)]
      exact ⟨h.skip fun _ _ => hst, rfl⟩
    · obtain ⟨u, hu, hhanded⟩ := Trkg.commitMember_takes (harmed.trans hcm) (by rwa [h.chState hn]) m feed
      rw [hu]
      exact ⟨h.take hn hcm hhanded, rfl⟩

end Trkg.Handled

/-- The members `l` in turn: `f` gives what each is to receive. -/
def Trkg.commitMembers (l : List Nat) (m : Nat) (f : Nat → List Smp) (x : State × Nat) : State × Nat :=
  l.foldl (fun (s, k) n =>
    let (s, miss) := Trkg.commitMember s n m (f n)
    (s, if miss then k + 1 else k)) x

theorem Trkg.commitMembers_handled (s : State) (m : Nat) (f : Nat → List Smp) {l : List Nat} (hl : l.Nodup) : ∀ (d : List Nat)
    (t : State) (k : Nat), (∀ n ∈ l, n ∉ d) → Trkg.Handled s t d →
    Trkg.Handled s (Trkg.commitMembers l m f (t, k)).1 (l.reverse ++ d) ∧
      (Trkg.commitMembers l m f (t, k)).2 = k + (l.filter (fun n => (s.armedAt (Ch.b n + 0x014)).isNone)).length := by
  induction l with
  | nil => exact fun d t k _ h => ⟨h, rfl⟩
  | cons n l ih =>
    intro d t k hd h
    obtain ⟨hn, hl⟩ := List.nodup_cons.1 hl
    obtain ⟨hnd, hd⟩ := List.forall_mem_cons.1 hd
    obtain ⟨hstep, hmiss⟩ := h.commit hnd m (f n)
    have hout (x : Nat) (hx : x ∈ l) : x ∉ n :: d :=
      fun hm => (List.mem_cons.1 hm).elim (fun e => hn (e ▸ hx)) (hd x hx)
    obtain ⟨hall, hcount⟩ := ih hl (n :: d) (Trkg.commitMember t n m (f n)).1
      (if (Trkg.commitMember t n m (f n)).2 = true then k + 1 else k) hout hstep
    rw [List.reverse_cons, List.append_assoc, List.singleton_append]
    refine ⟨hall, hcount.trans ?_⟩
    rw [hmiss, List.filter_cons]
    split
    · rw [List.length_cons]
      omega
    · rfl

end Sys2Proof.Machine
end

section
/-! ## Group commits: the array's hand-over and what the group shows (O22; spec/05 R125, spec/07 R172) -/

namespace Sys2Proof.Machine

/-! ### The array's own state -/

/-- `t` differs from `s` in the array's state, its page's registers, working words and its pending COMMIT at most. -/
structure Arr.Own (s t : State) : Prop where
  rest : t = { s with regs := t.regs, work := t.work, armed := t.armed, arr := t.arr }
  reg : ∀ a, a < 0x18000 ∨ 0x19000 ≤ a → t.reg a = s.reg a
  armed : ∀ key, key < 0x18000 ∨ 0x19000 ≤ key → t.armedAt key = s.armedAt key

namespace Arr.Own

variable {s t u : State}

theorem refl (s : State) : Arr.Own s s := ⟨rfl, fun _ _ => rfl, fun _ _ => rfl⟩

theorem trans (h : Arr.Own s t) (h' : Arr.Own t u) : Arr.Own s u :=
  ⟨by rw [h'.rest, h.rest], fun a ha => (h'.reg a ha).trans (h.reg a ha), fun k hk => (h'.armed k hk).trans (h.armed k hk)⟩

theorem setArr (h : Arr.Own s t) (a : ArrSt) : Arr.Own s { t with arr := a } := h.trans ⟨rfl, fun _ _ => rfl, fun _ _ => rfl⟩

theorem regsOnly {ws : List Nat} (h : Arr.Own s t) (h' : t.RegsOnly u ws) (hr : u.resp = t.resp)
    (hws : ∀ a ∈ ws, 0x18000 ≤ a ∧ a < 0x19000) : Arr.Own s u := by
  refine h.trans ⟨?_, fun a ha => h'.2 a (fun hm => ?_), fun k _ => h'.armedAt k⟩
  · have hrest := h'.1
    rw [hr] at hrest
    rw [hrest]
  · have := hws a hm
    omega

theorem put (h : Arr.Own s t) (f : Fld) (v : Nat) (hf : f.words = 1) (ho : f.off < 0x1000) : Arr.Own s (t.put Arr.b f v) := by
  refine h.regsOnly (State.RegsOnly.put t _ f v hf) (State.put_resp _ _ _ _) fun a ha => ?_
  obtain rfl := List.mem_singleton.1 ha
  unfold Arr.b pg
  omega

theorem logErr (h : Arr.Own s t) (code a req : Nat) : Arr.Own s (t.logErr Arr.p code a req) :=
  h.regsOnly (State.RegsOnly.logErr t Arr.p code a req) (State.logErr_resp _ _ _ _ _) (by decide)

theorem wput (h : Arr.Own s t) (b : Nat) (f : Fld) (v : Nat) : Arr.Own s (t.wput b f v) :=
  h.trans ⟨rfl, fun _ _ => rfl, fun _ _ => rfl⟩

theorem ite (h : Arr.Own s t) (c : Prop) [Decidable c] (h' : Arr.Own s u) : Arr.Own s (if c then t else u) := by
  split
  · exact h
  · exact h'

theorem handedOver (h : Arr.Own s t) (c : Armed) : Arr.Own s (t.handedOver Arr.p c) := by
  have hcopy : Arr.Own t ((t.copyShadow (pg Arr.p + 0x040) (pg Arr.p + 0x1000)).disarm (pg Arr.p + 0x02C)) := by
    refine ⟨rfl, fun _ _ => rfl, fun key hkey => ?_⟩
    have hne : key ≠ pg Arr.p + 0x02C := by
      unfold pg Arr.p
      omega
    exact (State.armedAt_disarm _ _ key).trans (if_neg hne)
  exact (((h.trans hcopy).put H.TAKEN _ rfl (by decide)).put H.COMMIT_PEND _ rfl (by decide)).put H.IRQ_RAW _ rfl (by decide)

theorem takePage (h : Arr.Own s t) : Arr.Own s (t.takePage Arr.p).1 := by
  cases harmed : t.armedAt (pg Arr.p + 0x02C) with
  | none => rwa [State.takePage_none harmed]
  | some c =>
    cases hf : t.frozen Arr.p with
    | false =>
      rw [State.takePage_armed harmed hf]
      exact h.handedOver c
    | true =>
      unfold State.takePage
      simp only [harmed, hf, if_true]
      exact h

end Arr.Own

theorem Arr.handOver_own {s t : State} (h : Arr.Own s t) : Arr.Own s (Arr.handOver t) := by
  have hview : Arr.Own s (Arr.changing t) := h.ite _ (h.setArr _)
  have htake := hview.takePage
  unfold Arr.handOver
  rcases ht : (Arr.changing t).takePage Arr.p with ⟨v, _ | c⟩
  · exact h
  · rw [ht] at htake
    dsimp -zeta only
    extract_lets +onlyGivenNames cfg old was t1 arr t2
    have h1 : Arr.Own s t1 := ((htake.wput _ _ _).logErr _ _ _).ite _ htake
    have h2 : Arr.Own s t2 := ((h1.setArr { arr with covSeq := 0 }).put Arr.COV_STAT_VALID 0 rfl (by decide)).ite _ h1
    exact h2.ite _ (h2.setArr _)

/-! ### What the group shows (R125) -/

/-- The samples that channel `n` is to receive. -/
def Trkg.feedOf (feed : List (Nat × List Smp)) (n : Nat) : List Smp := ((feed.find? (fun x => x.1 == n)).map (·.2)).getD []

/-- The array hands over with the group that it follows. -/
def Trkg.arrFollows (s : State) (g : Nat) : State :=
  if s.flag Arr.b Arr.ARR_CTL_HO_SRC && s.get Arr.b Arr.ARR_CTL_HO_GROUP == g then Arr.handOver s else s

/-- The commit and its missed members are counted. -/
def Trkg.counted (s : State) (g miss : Nat) : State :=
  (s.put (pg 0x030 + 4 * g) Trkg.GRP_STAT_TAKEN (s.get (pg 0x030 + 4 * g) Trkg.GRP_STAT_TAKEN + 1)).put (pg 0x030 + 4 * g)
    Trkg.GRP_STAT_MISS miss

/-- The instant of the commit at sample `m` is kept. -/
def Trkg.timed (s : State) (g m : Nat) : State :=
  { s.put (pg 0x030 + 8 * g) Trkg.GRP_T_T (s.replicaAt m) with grpAt := s.grpAt.setIfInBounds g (some m) }

/-- The commit at sample `m`, with `miss` members missed, shows in group `g`'s registers and events. -/
def Trkg.groupShown (s : State) (g m miss : Nat) : State :=
  ((Trkg.timed (Trkg.counted s g miss) g m).raise 0x030 g).raiseIf (miss != 0) 0x030 18

theorem Trkg.counted_frame (s : State) (g miss : Nat) : s.RegsOnly (Trkg.counted s g miss) [0x30080 + 4 * g] := by
  have hword : pg 0x030 + 4 * g + 0x080 ∈ [0x30080 + 4 * g] := by
    unfold pg
    simp only [List.mem_singleton]
    omega
  exact ((State.RegsOnly.refl s _).put_then _ Trkg.GRP_STAT_TAKEN _ rfl hword).put_then _ Trkg.GRP_STAT_MISS _ rfl hword

theorem Trkg.counted_get (s : State) (g miss : Nat) :
    (Trkg.counted s g miss).get (pg 0x030 + 4 * g) Trkg.GRP_STAT_TAKEN =
      (s.get (pg 0x030 + 4 * g) Trkg.GRP_STAT_TAKEN + 1) % 2 ^ 16 ∧
    (Trkg.counted s g miss).get (pg 0x030 + 4 * g) Trkg.GRP_STAT_MISS = miss % 2 ^ 10 := by
  unfold Trkg.counted
  exact ⟨by rw [State.get_put_apart _ _ _ (by decide), State.get_put_same]; rfl, State.get_put_same _ _ _ _⟩

theorem State.withGrpAt_only {s t u : State} {l : Vector (Option Nat) 16} (h : t = { s with regs := t.regs })
    (hu : u = { t with grpAt := l }) : u = { s with regs := u.regs, grpAt := u.grpAt } := by
  subst hu
  rw [h]

theorem State.reg_withGrpAt (s : State) (l : Vector (Option Nat) 16) (a : Nat) : { s with grpAt := l }.reg a = s.reg a := rfl

theorem Trkg.timed_only (s : State) (g m : Nat) :
    Trkg.timed s g m = { s with regs := (Trkg.timed s g m).regs, grpAt := (Trkg.timed s g m).grpAt } :=
  State.withGrpAt_only (State.put_only _ _ _ _) rfl

theorem Trkg.timed_reg (s : State) (g m : Nat) {a : Nat} (h : a < 0x300C0 + 8 * g ∨ 0x300C8 + 8 * g ≤ a) :
    (Trkg.timed s g m).reg a = s.reg a := by
  unfold Trkg.timed
  rw [State.reg_withGrpAt]
  refine State.reg_put_ne s _ Trkg.GRP_T_T _ a ?_
  simp only [pg, Trkg.GRP_T_T, Fld.words]
  omega

/-- The events come last. -/
theorem Trkg.groupShown_frame (s : State) (g m miss : Nat) :
    (Trkg.timed (Trkg.counted s g miss) g m).RegsOnly (Trkg.groupShown s g m miss) [0x30014] :=
  ((State.RegsOnly.raise _ 0x030 g).mono (by decide)).trans ((State.RegsOnly.raiseIf _ _ 0x030 18).mono (by decide))

theorem Trkg.groupShown_only (s : State) (g m miss : Nat) : Trkg.groupShown s g m miss =
    { s with regs := (Trkg.groupShown s g m miss).regs, resp := (Trkg.groupShown s g m miss).resp
             grpAt := (Trkg.groupShown s g m miss).grpAt } := by
  have hshown := (Trkg.groupShown_frame s g m miss).1
  have htimed := Trkg.timed_only (Trkg.counted s g miss) g m
  have hcounted := (Trkg.counted_frame s g miss).1
  generalize Trkg.groupShown s g m miss = u at hshown ⊢
  generalize Trkg.timed (Trkg.counted s g miss) g m = t at hshown htimed
  generalize Trkg.counted s g miss = c at htimed hcounted
  rw [hshown, htimed, hcounted]

/-- Registers of the channel entries stay. -/
theorem Trkg.groupShown_reg (s : State) {g : Nat} (hg : g < 16) (m miss : Nat) {a : Nat} (h : 0x100000 ≤ a) :
    (Trkg.groupShown s g m miss).reg a = s.reg a := by
  rw [(Trkg.groupShown_frame s g m miss).2 a (by simp; omega), Trkg.timed_reg _ _ _ (by omega),
    (Trkg.counted_frame s g miss).2 a (by simp; omega)]

/-- What group `g` shows after a commit. -/
theorem Trkg.groupShown_get (s : State) {g : Nat} (hg : g < 16) (m miss : Nat) :
    (Trkg.groupShown s g m miss).get (pg 0x030 + 4 * g) Trkg.GRP_STAT_TAKEN =
      (s.get (pg 0x030 + 4 * g) Trkg.GRP_STAT_TAKEN + 1) % 2 ^ 16 ∧
    (Trkg.groupShown s g m miss).get (pg 0x030 + 4 * g) Trkg.GRP_STAT_MISS = miss % 2 ^ 10 ∧
    ((Trkg.groupShown s g m miss).get (pg 0x030) H.IRQ_RAW).testBit g = true := by
  have hword : (Trkg.groupShown s g m miss).reg (pg 0x030 + 4 * g + 0x080) = (Trkg.counted s g miss).reg (pg 0x030 + 4 * g + 0x080) := by
    rw [(Trkg.groupShown_frame s g m miss).2 _ (by simp only [pg, List.mem_singleton]; omega),
      Trkg.timed_reg _ _ _ (by simp only [pg]; omega)]
  obtain ⟨htaken, hmiss⟩ := Trkg.counted_get s g miss
  refine ⟨(State.get_of_reg rfl hword).trans htaken, (State.get_of_reg rfl hword).trans hmiss, ?_⟩
  unfold Trkg.groupShown
  rw [State.testBit_raiseIf _ _ _ _ (by omega), State.testBit_raise_same _ _ (by omega), Bool.true_or]

theorem Trkg.commitGroup_eq {s : State} {g m : Nat} (hen : s.en 0x030 = true) (hf : s.frozen 0x030 = false)
    (hat : (s.grpAt[g]?).join ≠ some m) (feed : List (Nat × List Smp)) :
    Trkg.commitGroup s g m feed =
      Trkg.groupShown (Trkg.arrFollows (Trkg.commitMembers (Trkg.membersAt s g m) m (Trkg.feedOf feed) (s, 0)).1 g) g m
        (Trkg.commitMembers (Trkg.membersAt s g m) m (Trkg.feedOf feed) (s, 0)).2 := by
  unfold Trkg.commitGroup
  rw [if_neg (by rw [Trkg.p, hen, hf]; simpa using hat)]
  generalize Trkg.membersAt s g m = l
  rfl

end Sys2Proof.Machine
end

section
/-! ## GROUP_COMMIT and GROUP_COMMIT_ACTION (O22; spec/05 R125) -/

namespace Sys2Proof.Machine

/-! ### A commit of a group -/

/-- Time has run from `s` to sample `m` and a commit of group `g` there has led to `t`. -/
structure Trkg.Committed (s t : State) (g m : Nat) : Prop where
  taken : t.get (pg 0x030 + 4 * g) Trkg.GRP_STAT_TAKEN = (s.get (pg 0x030 + 4 * g) Trkg.GRP_STAT_TAKEN + 1) % 2 ^ 16
  miss : t.get (pg 0x030 + 4 * g) Trkg.GRP_STAT_MISS =
    ((Trkg.membersAt s g m).filter (fun n => (s.armedAt (Ch.b n + 0x014)).isNone)).length
  event : (t.get (pg 0x030) H.IRQ_RAW).testBit g = true
  base : t.base = (s.runToSample m).base
  mem : t.mem = s.mem
  members : ∀ n ∈ Trkg.membersAt s g m, ∀ cm, s.armedAt (Ch.b n + 0x014) = some cm → s.chState n ≠ 0 →
    t.armedAt (Ch.b n + 0x014) = none ∧ t.get (Ch.b n) Ch.COMMIT_TAKEN_GEN = cm.gen % 2 ^ 16
  others : ∀ n ∉ Trkg.membersAt s g m, t.chn n = s.chn n ∧ t.armedAt (Ch.b n + 0x014) = s.armedAt (Ch.b n + 0x014)

theorem Trkg.membersAt_nodup (s : State) (g m : Nat) : (Trkg.membersAt s g m).Nodup := List.nodup_range.filter _

theorem Trkg.length_membersAt (s : State) (g m : Nat) : (Trkg.membersAt s g m).length ≤ 512 :=
  (List.length_filter_le _ _).trans_eq List.length_range

theorem Trkg.membersAt_congr {s t : State} (hr : s.regs = t.regs) (hc : s.chan = t.chan) (g m : Nat) :
    Trkg.membersAt s g m = Trkg.membersAt t g m := by
  unfold Trkg.membersAt Ch.pathAt Ch.groupAt Ch.ctlAt
  simp only [State.chn_congr hc, State.get_congr hr]

theorem State.chState_runToSample (s : State) (m n : Nat) : (s.runToSample m).chState n = s.chState n :=
  State.get_congr (State.regs_runToSample s m) _ _

theorem Trkg.arrFollows_own (s : State) (g : Nat) : Arr.Own s (Trkg.arrFollows s g) :=
  (Arr.handOver_own (.refl s)).ite _ (.refl s)

theorem Arr.Own.chan {s t : State} (h : Arr.Own s t) : t.chan = s.chan := by rw [h.rest]
theorem Arr.Own.base {s t : State} (h : Arr.Own s t) : t.base = s.base := by rw [h.rest]
theorem Arr.Own.mem {s t : State} (h : Arr.Own s t) : t.mem = s.mem := by rw [h.rest]
theorem Arr.Own.acts {s t : State} (h : Arr.Own s t) : t.acts = s.acts := by rw [h.rest]

theorem Trkg.Handled.base {s t : State} {l : List Nat} (h : Trkg.Handled s t l) : t.base = s.base := by rw [h.rest]
theorem Trkg.Handled.mem {s t : State} {l : List Nat} (h : Trkg.Handled s t l) : t.mem = s.mem := by rw [h.rest]
theorem Trkg.Handled.acts {s t : State} {l : List Nat} (h : Trkg.Handled s t l) : t.acts = s.acts := by rw [h.rest]

/-- What a group shows changes neither channels nor COMMITs, time, memory or the calendar's actions. -/
theorem Trkg.groupShown_keeps (s : State) (g m miss : Nat) : (Trkg.groupShown s g m miss).chan = s.chan ∧
    (Trkg.groupShown s g m miss).armed = s.armed ∧ (Trkg.groupShown s g m miss).base = s.base ∧
    (Trkg.groupShown s g m miss).mem = s.mem ∧ (Trkg.groupShown s g m miss).acts = s.acts := by
  have honly := Trkg.groupShown_only s g m miss
  generalize Trkg.groupShown s g m miss = t at honly
  rw [honly]
  exact ⟨rfl, rfl, rfl, rfl, rfl⟩

/-- Members handled, the array following, and what the group then shows. -/
theorem Trkg.Committed.of_handled {s t u : State} {g m : Nat} (hg : g < 16)
    (ht : Trkg.Handled (s.runToSample m) t (Trkg.membersAt s g m).reverse) (hu : Arr.Own t u) :
    Trkg.Committed s (Trkg.groupShown u g m
      ((Trkg.membersAt s g m).filter (fun n => (s.armedAt (Ch.b n + 0x014)).isNone)).length) g m := by
  have hcount := (List.length_filter_le (fun n => (s.armedAt (Ch.b n + 0x014)).isNone) _).trans (Trkg.length_membersAt s g m)
  generalize hm : ((Trkg.membersAt s g m).filter (fun n => (s.armedAt (Ch.b n + 0x014)).isNone)).length = miss at hcount
  obtain ⟨htaken, hmiss, hevent⟩ := Trkg.groupShown_get u hg m miss
  obtain ⟨hchan, harmed, hbase, hmem, -⟩ := Trkg.groupShown_keeps u g m miss
  have hentry {a : Nat} (ha : 0x100000 ≤ a) : (Trkg.groupShown u g m miss).reg a = t.reg a :=
    (Trkg.groupShown_reg u hg m miss ha).trans (hu.reg a (by omega))
  have hkey (n : Nat) : (Trkg.groupShown u g m miss).armedAt (Ch.b n + 0x014) = t.armedAt (Ch.b n + 0x014) :=
    (State.armedAt_congr harmed _).trans (hu.armed _ (by unfold Ch.b; omega))
  have hcounter : u.reg (pg 0x030 + 4 * g + 0x080) = s.reg (pg 0x030 + 4 * g + 0x080) := by
    rw [hu.reg _ (by simp only [pg]; omega), ht.page _ (by simp only [pg]; omega)
      (by simp only [pg, Trkg.sharedWords, List.mem_cons, List.not_mem_nil, or_false]; omega), State.reg_runToSample]
  constructor
  case taken => rw [htaken, State.get_of_reg rfl hcounter]
  case miss => rw [hmiss, Nat.mod_eq_of_lt (by omega), hm]
  case event => exact hevent
  case base => rw [hbase, hu.base, ht.base]
  case mem => rw [hmem, hu.mem, ht.mem, State.runToSample_mem]
  case members =>
    intro n hn cm hcm hst
    have hst' : (s.runToSample m).chState n ≠ 0 := by rwa [State.chState_runToSample]
    obtain ⟨hnone, hgen⟩ := ht.taken n (List.mem_reverse.2 hn) cm ((State.armedAt_runToSample s m _).trans hcm) hst'
    exact ⟨(hkey n).trans hnone, (State.get_of_reg rfl (hentry (by unfold Ch.b; omega))).trans hgen⟩
  case others =>
    intro n hn
    have hn' : n ∉ (Trkg.membersAt s g m).reverse := by rwa [List.mem_reverse]
    constructor
    · rw [State.chn_congr hchan, State.chn_congr hu.chan, ht.chn n hn', State.chn_runToSample]
    · rw [hkey, ht.armed n hn', State.armedAt_runToSample]

/-- The group commit at sample `m`, reached from `s`. -/
theorem Trkg.commitGroup_commits {s : State} {g m : Nat} (hg : g < 16) (hen : s.en 0x030 = true) (hf : s.frozen 0x030 = false)
    (hat : (s.grpAt[g]?).join ≠ some m) (feed : List (Nat × List Smp)) :
    Trkg.Committed s (Trkg.commitGroup (s.runToSample m) g m feed) g m ∧
      (Trkg.commitGroup (s.runToSample m) g m feed).acts = s.acts := by
  have hget (b : Nat) (f : Fld) : (s.runToSample m).get b f = s.get b f := State.get_congr (State.regs_runToSample s m) b f
  have hen' : (s.runToSample m).en 0x030 = true := (congrArg (· != 0) (hget _ _)).trans hen
  have hf' : (s.runToSample m).frozen 0x030 = false := (congrArg (· != 0) (hget _ _)).trans hf
  have hat' : ((s.runToSample m).grpAt[g]?).join ≠ some m := by rwa [State.runToSample_only]
  have hmembers : Trkg.membersAt (s.runToSample m) g m = Trkg.membersAt s g m :=
    Trkg.membersAt_congr (State.regs_runToSample s m) (by rw [State.runToSample_only]) g m
  obtain ⟨hall, hcount⟩ := Trkg.commitMembers_handled (s.runToSample m) m (Trkg.feedOf feed) (Trkg.membersAt_nodup s g m) []
    (s.runToSample m) 0 (fun _ _ => List.not_mem_nil) (.nil _)
  simp only [State.armedAt_runToSample, Nat.zero_add, List.append_nil] at hall hcount
  have hown := Trkg.arrFollows_own (Trkg.commitMembers (Trkg.membersAt s g m) m (Trkg.feedOf feed) (s.runToSample m, 0)).1 g
  rw [Trkg.commitGroup_eq hen' hf' hat', hmembers, hcount]
  refine ⟨Trkg.Committed.of_handled hg hall hown, ?_⟩
  obtain ⟨-, -, -, -, hacts⟩ := Trkg.groupShown_keeps (Trkg.arrFollows (Trkg.commitMembers (Trkg.membersAt s g m) m
    (Trkg.feedOf feed) (s.runToSample m, 0)).1 g) g m
    ((Trkg.membersAt s g m).filter (fun n => (s.armedAt (Ch.b n + 0x014)).isNone)).length
  rw [hacts, hown.acts, hall.acts, State.runToSample_only]

end Sys2Proof.Machine
end

section
/-! ## The commands of group commits (O22; spec/05 R125, R126) -/

namespace Sys2Proof.Machine

/-- What a commit is about is registers, time, memory, COMMITs and channels. -/
theorem Trkg.Committed.same {s t u : State} {g m : Nat} (h : Trkg.Committed s t g m) (hr : u.regs = t.regs) (hb : u.base = t.base)
    (hm : u.mem = t.mem) (ha : u.armed = t.armed) (hc : u.chan = t.chan) : Trkg.Committed s u g m where
  taken := (State.get_congr hr _ _).trans h.taken
  miss := (State.get_congr hr _ _).trans h.miss
  event := (congrArg (fun x => x.testBit g) (State.get_congr hr _ _)).trans h.event
  base := hb.trans h.base
  mem := hm.trans h.mem
  members := fun n hn cm hcm hst =>
    ⟨(State.armedAt_congr ha _).trans (h.members n hn cm hcm hst).1, (State.get_congr hr _ _).trans (h.members n hn cm hcm hst).2⟩
  others := fun n hn =>
    ⟨(State.chn_congr hc n).trans (h.others n hn).1, (State.armedAt_congr ha _).trans (h.others n hn).2⟩

/-! ### GROUP_COMMIT -/

theorem exec_groupCommit (req : Req) (mask : BitVec 16) (feed : List (Nat × List Smp)) (s : State) :
    exec (.groupCommit req mask feed) s =
      Cmd.direct s req 0x030 (pg 0x030 + 0x060) mask.toNat (fun s => Trkg.grpCmd s mask.toNat feed) := rfl

/-- A command register that takes effect at once, from the command to its effect. -/
theorem Cmd.direct_effect {s : State} {req : Req} {p off i : Nat} {b : Blk} (hr : s.Reaches req p) (hl : s.locked p = false)
    (hp : pageInfo p = some (b, i)) (ho : off < 0x1000) (v : Nat) (f : State → State) :
    Cmd.direct s req p (pg p + off) v f = .next ((f s).answer req.code [] false) := by
  obtain ⟨hready, hbehind⟩ := Bus.ready_reg hr ho
  unfold Cmd.direct
  simp only [hready, hbehind, Bus.way_reg hr hp ho, hl, Bool.false_eq_true, if_false]

/-- The groups of a mask of one bit. -/
theorem Trkg.groups_of_bit (g : Fin 16) : (List.range 16).filter (fun k => (2 ^ g.val).testBit k) = [g.val] := by
  revert g
  decide

theorem Trkg.grpCmd_one (s : State) (g : Fin 16) (feed : List (Nat × List Smp)) :
    Trkg.grpCmd s (2 ^ g.val) feed = Trkg.commitGroup (s.runToSample s.nextSample) g.val s.nextSample feed := by
  have hmask : 2 ^ g.val % 2 ^ 16 ≠ 0 := by
    revert g
    decide
  unfold Trkg.grpCmd
  rw [if_neg hmask, Trkg.groups_of_bit]
  rfl

/-- GROUP_COMMIT of one group commits it at the next sample. -/
theorem groupCommit_commits {g : Fin 16} {s : State} (hen : s.en 0x030 = true) (hf : s.frozen 0x030 = false) {req : Req}
    {mask : BitVec 16} (hw : s.Writable req 0x030) (hmask : mask.toNat = 2 ^ g.val) (hat : (s.grpAt[g.val]?).join ≠ some s.nextSample)
    (feed : List (Nat × List Smp)) :
    ∃ t, exec (.groupCommit req mask feed) s = .next t ∧ Trkg.Committed s t g.val s.nextSample := by
  obtain ⟨hdone, -⟩ := Trkg.commitGroup_commits g.isLt hen hf hat feed
  refine ⟨_, (exec_groupCommit req mask feed s).trans
    (Cmd.direct_effect hw.1 hw.2 Trkg.page_listed.1 (by decide) _ _), ?_⟩
  rw [hmask, Trkg.grpCmd_one]
  exact hdone.same rfl rfl rfl rfl rfl

/-! ### GROUP_COMMIT_ACTION -/

theorem exec_groupCommitAction (g : Fin 16) (fire : BitVec 64) (feed : List (Nat × List Smp)) (s : State) :
    exec (.groupCommitAction g fire feed) s = execGroupCommitAction g fire feed s := rfl

/-- The calendar's next group commit, taken where the command names it. -/
theorem State.takeAct_groupCommit {s : State} {x : Action} (hx : s.acts.find? (fun y => y.act == 3) = some x)
    (hrun : s.running .corr = true) (named : Action → Bool) :
    s.takeAct (fun y => y.act == 3 && s.running .corr) named =
      if named x then some (x, { s with acts := s.acts.erase x }) else none := by
  unfold State.takeAct
  simp only [hrun, Bool.and_true, hx]

/-- A latch on the sample of the channels' acts changes nothing but the latched block. -/
theorem Meas.each_retake_same (l : List Nat) (s : State) : (s.each l Meas.retake).regs = s.regs ∧ (s.each l Meas.retake).base = s.base ∧
    (s.each l Meas.retake).mem = s.mem ∧ (s.each l Meas.retake).armed = s.armed ∧ (s.each l Meas.retake).chan = s.chan ∧
    (s.each l Meas.retake).acts = s.acts :=
  ⟨State.each_keeps State.regs l _ (fun s n => by rw [Meas.retake_only]) s,
    State.each_keeps State.base l _ (fun s n => by rw [Meas.retake_only]) s,
    State.each_keeps State.mem l _ (fun s n => by rw [Meas.retake_only]) s,
    State.each_keeps State.armed l _ (fun s n => by rw [Meas.retake_only]) s,
    State.each_keeps State.chan l _ (fun s n => by rw [Meas.retake_only]) s,
    State.each_keeps State.acts l _ (fun s n => by rw [Meas.retake_only]) s⟩

/-- The calendar's own list has no part in a commit. -/
theorem Trkg.Committed.of_acts {s t : State} {l : List Action} {g m : Nat} (h : Trkg.Committed { s with acts := l } t g m) :
    Trkg.Committed s t g m where
  taken := h.taken
  miss := h.miss
  event := h.event
  base := h.base.trans (State.runTo_base_acts s l _)
  mem := h.mem
  members := h.members
  others := h.others

/-- The action of the calendar commits its group at the first edge of its instant. -/
theorem Trkg.action_commits {g : Nat} {s : State} {x : Action} (hg : x.arg % 16 = g) (hen : s.en 0x030 = true)
    (hf : s.frozen 0x030 = false) (hrun : s.running .corr = true) (hat : (s.grpAt[g]?).join ≠ some (s.edgeFor x.fire))
    (feed : List (Nat × List Smp)) :
    Trkg.Committed s (Trkg.action s x feed) g (s.edgeFor x.fire) ∧ (Trkg.action s x feed).acts = s.acts := by
  have haction : Trkg.action s x feed = Trkg.commitGroup (s.runToSample (s.edgeFor x.fire)) g (s.edgeFor x.fire) feed := by
    unfold Trkg.action
    simp only [hrun, Trkg.p, hf, hg, Bool.not_true, Bool.false_eq_true, if_false]
  rw [haction]
  exact Trkg.commitGroup_commits (by omega) hen hf hat feed

/-- GROUP_COMMIT_ACTION that names the calendar's next group commit. -/
theorem groupCommitAction_commits {g : Fin 16} {s : State} {x : Action} {fire : BitVec 64}
    (hx : s.acts.find? (fun y => y.act == 3) = some x) (hg : x.arg % 16 = g.val) (hfire : x.fire = fire.toNat)
    (hen : s.en 0x030 = true) (hf : s.frozen 0x030 = false) (hrun : s.running .corr = true)
    (hat : (s.grpAt[g.val]?).join ≠ some (s.edgeFor x.fire)) (feed : List (Nat × List Smp)) :
    ∃ t, exec (.groupCommitAction g fire feed) s = .next t ∧ t.acts = s.acts.erase x ∧
      Trkg.Committed s t g.val (s.edgeFor x.fire) := by
  obtain ⟨hdone, hacts⟩ := Trkg.action_commits (s := { s with acts := s.acts.erase x }) hg hen hf hrun hat feed
  have hexec : exec (.groupCommitAction g fire feed) s = .next ((Trkg.action { s with acts := s.acts.erase x } x feed).each
      ((List.range 512).filter (fun n => Ch.groupAt { s with acts := s.acts.erase x } n (s.edgeFor x.fire) == x.arg % 16))
        Meas.retake) := by
    rw [exec_groupCommitAction, execGroupCommitAction, State.takeAct_groupCommit hx hrun, if_pos (by simp [hg, hfire])]
    rfl
  obtain ⟨hr, hb, hm, ha, hc, hl⟩ := Meas.each_retake_same
    ((List.range 512).filter (fun n => Ch.groupAt { s with acts := s.acts.erase x } n (s.edgeFor x.fire) == x.arg % 16))
    (Trkg.action { s with acts := s.acts.erase x } x feed)
  exact ⟨_, hexec, hl.trans hacts, hdone.of_acts.same hr hb hm ha hc⟩

/-- GROUP_COMMIT_ACTION that names another does nothing. -/
theorem groupCommitAction_other {g : Fin 16} {s : State} {x : Action} {fire : BitVec 64}
    (hx : s.acts.find? (fun y => y.act == 3) = some x) (hother : x.arg % 16 ≠ g.val ∨ x.fire ≠ fire.toNat)
    (hrun : s.running .corr = true) (feed : List (Nat × List Smp)) : exec (.groupCommitAction g fire feed) s = .next s := by
  rw [exec_groupCommitAction, execGroupCommitAction, State.takeAct_groupCommit hx hrun, if_neg (by simpa [imp_iff_not_or] using hother)]

/-! ### GRP_ARM -/

theorem exec_grpArm (req : Req) (g : Fin 16) (gen : BitVec 16) (s : State) :
    exec (.grpArm req g gen) s = Cmd.write s req (pg 0x030 + 0x064) (gen.toNat + 2 ^ 16 * g.val) := rfl

end Sys2Proof.Machine
end

section
/-! ## GRP_ARM (O22; spec/05 R126) -/

namespace Sys2Proof.Machine

/-! ### One member's COMMIT is armed (R38, R122) -/

/-- COMMIT `gen` of channel `n` is armed, the generation not 0. -/
theorem Ch.arm_eq {gen : Nat} (h : gen % 2 ^ 16 ≠ 0) (s : State) (req n : Nat) : Ch.arm s req n gen =
    { s.put (Ch.b n + 0x014) ⟨0, 0, 16⟩ gen with
      armed := ⟨Ch.b n + 0x014, gen % 2 ^ 16, req, s.now⟩ :: s.armed.filter (fun x => x.key != Ch.b n + 0x014) }.put
        (Ch.b n) Ch.CH_STAT_COMMIT_PEND 1 := by
  unfold Ch.arm State.arm
  simp only [h, if_false, State.put_armed]
  rfl

theorem Ch.arm_only {gen : Nat} (h : gen % 2 ^ 16 ≠ 0) (s : State) (req n : Nat) :
    Ch.arm s req n gen = { s with regs := (Ch.arm s req n gen).regs, armed := (Ch.arm s req n gen).armed } := by
  rw [Ch.arm_eq h, State.put_only, State.put_only s]

theorem Ch.arm_reg {gen : Nat} (h : gen % 2 ^ 16 ≠ 0) (s : State) (req n : Nat) {a : Nat} (h1 : a ≠ Ch.b n + 0x014)
    (h2 : a ≠ Ch.b n + 0x004) : (Ch.arm s req n gen).reg a = s.reg a := by
  rw [Ch.arm_eq h, (State.RegsOnly.put _ (Ch.b n) Ch.CH_STAT_COMMIT_PEND 1 rfl).2 a (by simpa [Ch.CH_STAT_COMMIT_PEND] using h2)]
  exact (State.RegsOnly.put s (Ch.b n + 0x014) ⟨0, 0, 16⟩ gen rfl).2 a (by simpa using h1)

theorem Ch.arm_armedAt {gen : Nat} (h : gen % 2 ^ 16 ≠ 0) (s : State) (req n key : Nat) : (Ch.arm s req n gen).armedAt key =
    if key = Ch.b n + 0x014 then some ⟨Ch.b n + 0x014, gen % 2 ^ 16, req, s.now⟩ else s.armedAt key := by
  have hdisarm := State.armedAt_disarm s (Ch.b n + 0x014) key
  unfold State.armedAt State.disarm at hdisarm
  unfold State.armedAt
  rw [Ch.arm_eq h, State.put_armed, List.find?_cons]
  by_cases hk : key = Ch.b n + 0x014
  · simp [hk]
  · rw [if_neg hk] at hdisarm ⊢
    have hne : (Ch.b n + 0x014 == key) = false := beq_eq_false_iff_ne.2 (Ne.symm hk)
    simp only [hne]
    exact hdisarm

theorem Ch.arm_pend {gen : Nat} (h : gen % 2 ^ 16 ≠ 0) (s : State) (req n : Nat) :
    (Ch.arm s req n gen).get (Ch.b n) Ch.CH_STAT_COMMIT_PEND = 1 := by
  rw [Ch.arm_eq h]
  exact State.get_put_same _ _ _ _

/-- Arming leaves the state of every channel. -/
theorem Ch.arm_chState {gen : Nat} (h : gen % 2 ^ 16 ≠ 0) (s : State) (req n k : Nat) :
    (Ch.arm s req n gen).chState k = s.chState k := by
  have hkey : (s.put (Ch.b n + 0x014) ⟨0, 0, 16⟩ gen).chState k = s.chState k :=
    State.get_of_reg rfl ((State.RegsOnly.put s _ _ _ rfl).2 _ (by simp [Ch.b, Ch.CH_STAT_STATE]; omega))
  rw [Ch.arm_eq h]
  by_cases hk : k = n
  · subst hk
    refine (State.get_put_apart _ _ _ (by decide)).trans ((State.get_congr ?_ _ _).trans hkey)
    rfl
  · refine (State.get_of_reg rfl ((State.RegsOnly.put _ (Ch.b n) Ch.CH_STAT_COMMIT_PEND 1 rfl).2 _
      (by simpa using Ch.b_ne hk (by decide) (by decide)))).trans ((State.get_congr ?_ _ _).trans hkey)
    rfl

/-! ### Every member's COMMIT is armed -/

/-- What arming channels leaves. -/
structure Ch.Arms (s t : State) : Prop where
  rest : t = { s with regs := t.regs, armed := t.armed }
  page : ∀ a < 0x100000, t.reg a = s.reg a
  chState : ∀ k, t.chState k = s.chState k

theorem Ch.Arms.refl (s : State) : Ch.Arms s s := ⟨rfl, fun _ _ => rfl, fun _ => rfl⟩

theorem Ch.Arms.arm {s t : State} {gen : Nat} (hgen : gen % 2 ^ 16 ≠ 0) (h : Ch.Arms s t) (req n : Nat) :
    Ch.Arms s (Ch.arm t req n gen) where
  rest := by rw [Ch.arm_only hgen, h.rest]
  page := fun a ha =>
    (Ch.arm_reg hgen t req n (by unfold Ch.b; omega) (by unfold Ch.b; omega)).trans (h.page a ha)
  chState := fun k => (Ch.arm_chState hgen t req n k).trans (h.chState k)

theorem Ch.Arms.now {s t : State} (h : Ch.Arms s t) : t.now = s.now := by
  rw [h.rest]
  rfl

/-- The generation is written to each COMMIT of the list. -/
def Trkg.armAll (s : State) (l : List Nat) (req gen : Nat) : State := s.each l (fun s n => Ch.arm s req n gen)

theorem Trkg.armAll_arms {gen : Nat} (h : gen % 2 ^ 16 ≠ 0) (s : State) (l : List Nat) (req : Nat) :
    Ch.Arms s (Trkg.armAll s l req gen) :=
  State.each_inv (Ch.Arms s) l _ (fun _ n hu => hu.arm h req n) s (.refl s)

theorem Trkg.armAll_member {gen : Nat} (h : gen % 2 ^ 16 ≠ 0) (s : State) {l : List Nat} (hl : l.Nodup) (req : Nat) {n : Nat}
    (hn : n ∈ l) : (Trkg.armAll s l req gen).armedAt (Ch.b n + 0x014) = some ⟨Ch.b n + 0x014, gen % 2 ^ 16, req, s.now⟩ ∧
      (Trkg.armAll s l req gen).get (Ch.b n) Ch.CH_STAT_COMMIT_PEND = 1 := by
  have hother (u : State) (n k : Nat) (hk : k ≠ n) :
      ((Ch.arm u req n gen).armedAt (Ch.b k + 0x014), (Ch.arm u req n gen).get (Ch.b k) Ch.CH_STAT_COMMIT_PEND) =
        (u.armedAt (Ch.b k + 0x014), u.get (Ch.b k) Ch.CH_STAT_COMMIT_PEND) := by
    rw [Ch.arm_armedAt h, if_neg (Ch.b_ne hk (by decide) (by decide)), State.get_of_reg rfl (Ch.arm_reg h u req n
      (Ch.b_ne hk (by decide) (by decide)) (Ch.b_ne hk (by decide) (by decide)))]
  obtain ⟨u, hu, -, hdone⟩ := State.each_at (P := Ch.Arms s)
    (g := fun k t => (t.armedAt (Ch.b k + 0x014), t.get (Ch.b k) Ch.CH_STAT_COMMIT_PEND)) (fun u n hu => hu.arm h req n) hother hl
    (.refl s) hn
  obtain ⟨harmed, hpend⟩ := Prod.mk.inj hdone
  refine ⟨harmed.trans ?_, hpend.trans (Ch.arm_pend h u req n)⟩
  rw [Ch.arm_armedAt h, if_pos rfl, hu.now]

theorem Trkg.armAll_other {gen : Nat} (h : gen % 2 ^ 16 ≠ 0) (s : State) {l : List Nat} (req : Nat) {n : Nat} (hn : n ∉ l) :
    (Trkg.armAll s l req gen).armedAt (Ch.b n + 0x014) = s.armedAt (Ch.b n + 0x014) := by
  refine State.each_inv_mem (fun u => u.armedAt (Ch.b n + 0x014) = s.armedAt (Ch.b n + 0x014)) (fun u k hk hu => ?_) rfl
  have hne : n ≠ k := fun e => hn (e ▸ hk)
  rw [Ch.arm_armedAt h, if_neg (Ch.b_ne hne (by decide) (by decide)), hu]

/-! ### The command -/

theorem Trkg.fields_grpArm : Bus.fields .trkg 0 0x064 = [⟨0, 16, .fr, 0, .any⟩, ⟨16, 4, .fr, 0, .any⟩] := by decide

theorem Trkg.store_grpArm (s : State) (req p a v : Nat) :
    Bus.store req p a (Bus.fields .trkg 0 0x064) v s = s.setReg a (putBits (s.regN a) 0 20 v) := by
  have hbits (lo w : Nat) (h : lo + w ≤ 20) : bitsOf v lo w = bitsOf (putBits (s.regN a) 0 20 v) lo w := by
    refine Nat.eq_of_testBit_eq fun i => ?_
    rw [bitsOf_testBit, bitsOf_testBit, putBits_testBit]
    by_cases hi : i < w
    · have hlt : lo + i < 0 + 20 := by omega
      simp [hlt]
    · simp [hi]
  rw [Trkg.fields_grpArm]
  refine Bus.store_plain (by simp [FieldAt.Plain]) ?_ fun i hi => ?_
  · simp only [List.forall_mem_cons, FieldAt.source, reduceCtorEq, if_false]
    exact ⟨hbits 0 16 (by decide), hbits 16 4 (by decide), by simp⟩
  · obtain ⟨h1, h2, -⟩ : _ ∧ _ ∧ _ := by simpa only [List.forall_mem_cons] using hi
    rw [putBits_testBit, if_neg (by omega), if_neg (by omega)]

theorem Trkg.members_nodup (s : State) (g : Nat) : (Trkg.members s g).Nodup := List.nodup_range.filter _

/-- Group members are what the channel entries say. -/
theorem Trkg.members_congr {s t : State} (h : ∀ a, 0x100000 ≤ a → t.reg a = s.reg a) (g : Nat) :
    Trkg.members t g = Trkg.members s g := by
  have hget (n : Nat) {f : Fld} (hf : f.words = 1) : t.get (Ch.b n) f = s.get (Ch.b n) f :=
    State.get_of_reg hf (h _ (by unfold Ch.b; omega))
  unfold Trkg.members
  simp only [hget _ (show Fld.words ⟨0, 2, 1⟩ = 1 from rfl), hget _ (show Fld.words Ch.CH_CTL_GROUP = 1 from rfl)]

/-- What GRP_ARM leaves: its word stored, and the members' COMMITs armed. -/
def Trkg.grpArmed (s : State) (req g gen : Nat) : State :=
  let u := s.setReg (pg 0x030 + 0x064) (putBits (s.regN (pg 0x030 + 0x064)) 0 20 (gen + 2 ^ 16 * g))
  { Trkg.armAll u (Trkg.members s g) req gen with grpArmed := some (req, u.now, Trkg.members s g) }

theorem Trkg.grpArm_eq {v : Nat} (h : v % 2 ^ 16 ≠ 0) (s : State) (req : Nat) : Trkg.grpArm s req v =
    { Trkg.armAll s (Trkg.members s (v / 2 ^ 16 % 16)) req (v % 2 ^ 16) with
      grpArmed := some (req, s.now, Trkg.members s (v / 2 ^ 16 % 16)) } := if_neg h

/-- The write of GRP_ARM's word, its generation not 0. -/
theorem Trkg.write_grpArm {s : State} {req g gen : Nat} (hg : g < 16) (hgen : gen < 2 ^ 16) (h0 : gen ≠ 0) :
    Trkg.write s req 0x064 (gen + 2 ^ 16 * g)
      (Bus.store req 0x030 (pg 0x030 + 0x064) (Bus.fields .trkg 0 0x064) (gen + 2 ^ 16 * g)) = Trkg.grpArmed s req g gen := by
  have hv1 : (gen + 2 ^ 16 * g) % 2 ^ 16 = gen := by omega
  have hv2 : (gen + 2 ^ 16 * g) / 2 ^ 16 % 16 = g := by omega
  have hmembers : Trkg.members (s.setReg (pg 0x030 + 0x064) (putBits (s.regN (pg 0x030 + 0x064)) 0 20 (gen + 2 ^ 16 * g))) g =
      Trkg.members s g :=
    Trkg.members_congr (fun a ha => State.reg_setReg_ne _ _ (by unfold pg; omega)) g
  have hwrite (store : State → State) : Trkg.write s req 0x064 (gen + 2 ^ 16 * g) store =
      Trkg.grpArm (store s) req (gen + 2 ^ 16 * g) := by
    simp only [Trkg.write, Nat.reduceEqDiff, if_false, if_true, hv1, h0]
  rw [hwrite, Trkg.store_grpArm, Trkg.grpArm_eq (by rwa [hv1]), hv1, hv2, hmembers]
  rfl

/-- What the state after GRP_ARM has, with `u` the state in which its word is stored. -/
structure Trkg.ArmedGroup (s t : State) (req g gen : Nat) : Prop where
  rest : t = { s with regs := t.regs, armed := t.armed, grpArmed := t.grpArmed }
  count : t.reg (pg 0x030 + 0x024) = s.reg (pg 0x030 + 0x024)
  members : ∀ n ∈ Trkg.members s g, t.armedAt (Ch.b n + 0x014) = some ⟨Ch.b n + 0x014, gen, req, s.now⟩ ∧
    t.get (Ch.b n) Ch.CH_STAT_COMMIT_PEND = 1 ∧ t.chState n = s.chState n
  others : ∀ n ∉ Trkg.members s g, t.armedAt (Ch.b n + 0x014) = s.armedAt (Ch.b n + 0x014)

/-- Arming the members `t` after a word of the page was stored (`u`). -/
theorem Trkg.ArmedGroup.of_arms {s u t : State} {req g gen : Nat} (hword : s.RegsOnly u [pg 0x030 + 0x064]) (hresp : u.resp = s.resp)
    (harms : Ch.Arms u t)
    (hmember : ∀ n ∈ Trkg.members s g, t.armedAt (Ch.b n + 0x014) = some ⟨Ch.b n + 0x014, gen, req, u.now⟩ ∧
      t.get (Ch.b n) Ch.CH_STAT_COMMIT_PEND = 1)
    (hother : ∀ n ∉ Trkg.members s g, t.armedAt (Ch.b n + 0x014) = u.armedAt (Ch.b n + 0x014))
    (x : Option (Nat × Nat × List Nat)) : Trkg.ArmedGroup s { t with grpArmed := x } req g gen where
  rest := by
    have hu := hword.1
    rw [hresp] at hu
    rw [harms.rest, hu]
  count := (harms.page _ (by decide)).trans (hword.2 _ (by decide))
  members := fun n hn => by
    obtain ⟨harmed, hpend⟩ := hmember n hn
    have hnow : u.now = s.now := by
      rw [hword.1]
      rfl
    have hstate : u.chState n = s.chState n := State.get_of_reg rfl (hword.2 _ (Ch.entry_not_mem (by decide)))
    exact ⟨hnow ▸ harmed, hpend, (harms.chState n).trans hstate⟩
  others := fun n hn => (hother n hn).trans (hword.armedAt _)

theorem Trkg.grpArmed_armedGroup (s : State) (req g : Nat) {gen : Nat} (hgen : gen < 2 ^ 16) (h0 : gen ≠ 0) :
    Trkg.ArmedGroup s (Trkg.grpArmed s req g gen) req g gen := by
  have hmod : gen % 2 ^ 16 = gen := Nat.mod_eq_of_lt hgen
  have h : gen % 2 ^ 16 ≠ 0 := by rwa [hmod]
  refine Trkg.ArmedGroup.of_arms (State.RegsOnly.setReg _ _ _) (State.setReg_resp _ _ _) (Trkg.armAll_arms h _ _ req) (fun n hn => ?_)
    (fun n hn => Trkg.armAll_other h _ req hn) _
  have hmember := Trkg.armAll_member h (s.setReg (pg 0x030 + 0x064) (putBits (s.regN (pg 0x030 + 0x064)) 0 20 (gen + 2 ^ 16 * g)))
    (Trkg.members_nodup s g) req hn
  rwa [hmod] at hmember

/-- GRP_ARM arms the generation on the members of the group. -/
theorem grpArm_arms {req : Req} {g : Fin 16} {gen : BitVec 16} {s : State} (hq : s.Quiet) (hw : s.Writable req 0x030) (h0 : gen ≠ 0) :
    ∃ t, exec (.grpArm req g gen) s = .next (t.answered req []) ∧ Trkg.ArmedGroup s t req.code g.val gen.toNat := by
  have h0' : gen.toNat ≠ 0 := fun h => h0 (BitVec.eq_of_toNat_eq h)
  have hv : (gen.toNat + 2 ^ 16 * g.val) % 2 ^ 32 = gen.toNat + 2 ^ 16 * g.val := Nat.mod_eq_of_lt (by omega)
  have hgroup := Trkg.grpArmed_armedGroup s req.code g.val gen.isLt h0'
  have hwrite := Trkg.write_grpArm (s := s) (req := req.code) g.isLt gen.isLt h0'
  generalize Trkg.grpArmed s req.code g.val gen.toNat = t at hgroup hwrite
  have hquiet : t.Quiet := by
    rw [hgroup.rest]
    exact hq
  refine ⟨t, (exec_grpArm req g gen s).trans (Cmd.write_hook hw Trkg.page_listed.1 (by decide) (by decide) (by decide) (by decide)
    (by decide) ?_ hquiet (State.get_of_reg rfl hgroup.count)), hgroup⟩
  rw [hv]
  exact hwrite

end Sys2Proof.Machine
end

section
/-! ## READBACK_CAPTURE (O22; spec/05 R129) -/

namespace Sys2Proof.Machine

/-! ### The readback fields -/

/-- The readback fields of channel `n` but RB_INFO.STATE: time `t`, record `c`, settings `freq`, `rate` and `gen`, position `pos`. -/
def Ch.shown (s : State) (n t : Nat) (c : Chan) (freq rate gen pos : Nat) : State :=
  (((((((((s.put (Ch.b n) Ch.RB_T_T t).put (Ch.b n) Ch.RB_CODE_FRAC (c.frac / 2 ^ 8)).put (Ch.b n) Ch.RB_CODE_CHIP c.chip).put (Ch.b n)
    Ch.RB_PERIOD_PERIOD c.period.toNat).put (Ch.b n) Ch.RB_CARR_PHASE (c.carr.toNat / 2 ^ 8)).put (Ch.b n) Ch.RB_FREQ_FREQ freq).put
      (Ch.b n) Ch.RB_RATE_RATE rate).put (Ch.b n) Ch.RB_INFO_GEN gen).put (Ch.b n) Ch.RB_INFO_INT_POS pos)

/-- The same with RB_INFO.STATE. -/
def Ch.shownState (s : State) (n t : Nat) (c : Chan) (freq rate gen pos : Nat) : State :=
  (Ch.shown s n t c freq rate gen pos).put (Ch.b n) Ch.RB_INFO_STATE ((Ch.shown s n t c freq rate gen pos).chState n)

section

variable (s : State) (n t : Nat) (c : Chan) (freq rate gen pos : Nat)

theorem Ch.shown_chState : (Ch.shown s n t c freq rate gen pos).chState n = s.chState n := by
  unfold Ch.shown State.chState
  repeat rw [State.get_put_apart _ _ _ (by decide)]

/-- The state of a channel as RB_INFO shows it. -/
theorem Ch.shownState_state : (Ch.shownState s n t c freq rate gen pos).get (Ch.b n) Ch.RB_INFO_STATE = s.chState n := by
  have hlt : s.chState n < 2 ^ 2 := State.get_lt _ _ _
  rw [Ch.shownState, State.get_put_same, Ch.shown_chState]
  exact Nat.mod_eq_of_lt hlt

/-- The other readback fields do not share RB_INFO.STATE's bits. -/
theorem Ch.shownState_get {f : Fld} (hf : Ch.RB_INFO_STATE.apart f = true) :
    (Ch.shownState s n t c freq rate gen pos).get (Ch.b n) f = (Ch.shown s n t c freq rate gen pos).get (Ch.b n) f :=
  State.get_put_apart _ _ _ hf

theorem Ch.shownState_gen : (Ch.shownState s n t c freq rate gen pos).get (Ch.b n) Ch.RB_INFO_GEN = gen % 2 ^ 16 := by
  rw [Ch.shownState_get _ _ _ _ _ _ _ _ (by decide), Ch.shown, State.get_put_apart _ _ _ (by decide), State.get_put_same]
  rfl

theorem Ch.shownState_period : (Ch.shownState s n t c freq rate gen pos).get (Ch.b n) Ch.RB_PERIOD_PERIOD = c.period.toNat := by
  rw [Ch.shownState_get _ _ _ _ _ _ _ _ (by decide), Ch.shown]
  repeat rw [State.get_put_apart _ _ _ (by decide)]
  rw [State.get_put_same]
  exact Nat.mod_eq_of_lt c.period.isLt

theorem Ch.shownState_chip : (Ch.shownState s n t c freq rate gen pos).get (Ch.b n) Ch.RB_CODE_CHIP = c.chip % 2 ^ 16 := by
  rw [Ch.shownState_get _ _ _ _ _ _ _ _ (by decide), Ch.shown]
  repeat rw [State.get_put_apart _ _ _ (by decide)]
  rw [State.get_put_same]
  rfl

theorem Ch.shownState_frac : (Ch.shownState s n t c freq rate gen pos).get (Ch.b n) Ch.RB_CODE_FRAC = c.frac / 2 ^ 8 % 2 ^ 32 := by
  rw [Ch.shownState_get _ _ _ _ _ _ _ _ (by decide), Ch.shown]
  repeat rw [State.get_put_apart _ _ _ (by decide)]
  rw [State.get_put_same]
  rfl

theorem Ch.shownState_carr : (Ch.shownState s n t c freq rate gen pos).get (Ch.b n) Ch.RB_CARR_PHASE = c.carr.toNat / 2 ^ 8 := by
  rw [Ch.shownState_get _ _ _ _ _ _ _ _ (by decide), Ch.shown]
  repeat rw [State.get_put_apart _ _ _ (by decide)]
  rw [State.get_put_same]
  exact Nat.mod_eq_of_lt (Nat.div_lt_of_lt_mul (by rw [← pow_add]; exact c.carr.isLt))

theorem Ch.shownState_chan : (Ch.shownState s n t c freq rate gen pos).chan = s.chan := by
  simp only [Ch.shownState, Ch.shown, State.put_chan]

theorem Ch.shownState_base : (Ch.shownState s n t c freq rate gen pos).base = s.base := by
  simp only [Ch.shownState, Ch.shown, State.put_base]

end

/-! ### The record and the settings at the sample -/

theorem Ch.at_congr {s t : State} (hw : s.work = t.work) (hc : s.code = t.code) (n : Nat) (c : Chan) (m : Nat) :
    Ch.at_ s n c m = Ch.at_ t n c m := by
  unfold Ch.at_ Ch.step State.wgetI
  simp only [Ch.len_congr hw hc, State.wget_congr hw]

theorem Ch.setAt_congr {s t : State} (hw : s.work = t.work) (hr : s.regs = t.regs) (n : Nat) (c : Chan) (m : Nat) :
    Ch.setAt s n c m = Ch.setAt t n c m := by
  unfold Ch.setAt
  simp only [State.wget_congr hw, State.get_congr hr]

/-- The record that readback shows: of a running channel, its phases at the next sample. -/
def Ch.readRecord (s : State) (n : Nat) : Chan :=
  if s.chState n = 2 ∧ s.frozen 0x030 = false then Ch.at_ s n (s.chn n) s.nextSample else s.chn n

/-- Time runs to sample `m`, and what the wide readback fields of channel `n` captured before is dropped. -/
def Ch.readReady (s : State) (n m : Nat) : State :=
  { s.runToSample m with
    capt := (s.runToSample m).capt.filter (fun x => !decide (Ch.b n + 0x080 ≤ x.1 ∧ x.1 < Ch.b n + 0x0B0)) }

theorem Ch.readReady_chState (s : State) (n m : Nat) : (Ch.readReady s n m).chState n = s.chState n :=
  State.get_congr (s := Ch.readReady s n m) (State.regs_runToSample s m) _ _

theorem State.chan_runToSample (s : State) (m : Nat) : (s.runToSample m).chan = s.chan := by rw [State.runToSample_only]

theorem Ch.readReady_chan (s : State) (n m : Nat) : (Ch.readReady s n m).chan = s.chan := State.chan_runToSample s m

theorem Ch.readReady_base (s : State) (n m : Nat) : (Ch.readReady s n m).base = (s.runToSample m).base := rfl

/-- The readback fields of channel `n`, captured at the next sample. -/
theorem Ch.readback_eq (s : State) (n : Nat) : ∃ t freq rate pos, Ch.readback s n =
    Ch.shownState (Ch.readReady s n s.nextSample) n t (Ch.readRecord s n) freq rate
      (Ch.setAt s n (s.chn n) s.nextSample).2.2 pos := by
  have hat (c : Chan) (m : Nat) : Ch.at_ (s.runToSample s.nextSample) n c m = Ch.at_ s n c m :=
    Ch.at_congr (State.work_runToSample _ _) (State.code_runToSample _ _) n c m
  have hset (c : Chan) (m : Nat) : Ch.setAt (s.runToSample s.nextSample) n c m = Ch.setAt s n c m :=
    Ch.setAt_congr (State.work_runToSample _ _) (State.regs_runToSample _ _) n c m
  have hfrozen : (s.runToSample s.nextSample).frozen 0x030 = s.frozen 0x030 :=
    congrArg (· != 0) (State.get_congr (State.regs_runToSample _ _) _ _)
  have hrecord : (if (s.chState n == 2 && !s.frozen 0x030) = true then Ch.at_ s n (s.chn n) s.nextSample else s.chn n) =
      Ch.readRecord s n := by
    unfold Ch.readRecord
    simp only [Bool.and_eq_true, beq_iff_eq, Bool.not_eq_true']
  unfold Ch.readback
  simp only [State.chn_runToSample, State.chState_runToSample, Trkg.p, hat, hset, hfrozen, hrecord]
  exact ⟨_, _, _, _, rfl⟩

/-! ### The read -/

theorem exec_readbackCapture (req : Req) (n : Fin 512) (s : State) :
    exec (.readbackCapture req n) s = Cmd.read s req (Ch.b n.val + 0x080) := rfl

/-- RB_T is a field of two words. -/
theorem Bus.get_rbT (s : State) (req p i : Nat) {off : Nat} (h : off % 0x100 = 0x080) (hn : Bus.fields .chan i off ≠ []) : ∃ l,
    Bus.get s req p .chan i off = ((Ch.readback s (16 * i + off / 0x100)).regN (pg p + off),
      { Ch.readback s (16 * i + off / 0x100) with capt := l }) := by
  have hupper : Bus.upper .chan i off = false := by
    show Ch.rows.any (fun r => r.upperAt (off % 0x100)) = false
    rw [h]
    decide
  have hwide : Bus.wide .chan i off = 2 := by
    show (Ch.rows.filterMap (fun r => r.wideAt (off % 0x100))).foldl max 1 = 2
    rw [h]
    decide
  have hprep : Bus.prep s .chan i off = Ch.readback s (16 * i + off / 0x100) := if_pos h
  have hword (u : State) : Bus.word u req p .chan i off = (u.regN (pg p + off), u) := by
    have hread : Ch.read u (16 * i + off / 0x100) (off % 0x100) = none := if_neg (by rw [h]; simp)
    unfold Bus.word Bus.hookRead
    simp [hread, hasHeader, hn]
  unfold Bus.get
  simp only [hupper, hwide, hprep, hword, Bool.false_and, Bool.false_eq_true, if_false]
  exact ⟨_, rfl⟩

/-- The lowest word of RB_T is the field cut to a word. -/
theorem Ch.regN_rbT (s : State) (n : Nat) :
    BitVec.ofNat 32 (s.regN (Ch.b n + 0x080)) = BitVec.ofNat 32 (s.get (Ch.b n) Ch.RB_T_T) := by
  have hget : s.get (Ch.b n) Ch.RB_T_T = s.regN (Ch.b n + 0x080) + 2 ^ 32 * s.regN (Ch.b n + 0x080 + 4) := by
    have hlt := State.wordsAt_lt s (Ch.b n + 0x080) 2
    rw [State.get_eq]
    show bitsOf (s.wordsAt (Ch.b n + 0x080) 2) 0 64 = _
    rw [bitsOf, Nat.shiftRight_zero, Nat.mod_eq_of_lt hlt]
    simp only [State.wordsAt, Nat.mul_zero, Nat.add_zero]
  refine BitVec.eq_of_toNat_eq ?_
  rw [hget, BitVec.toNat_ofNat, BitVec.toNat_ofNat]
  omega

theorem Ch.fields_rbT {i off : Nat} (h : off % 0x100 = 0x080) : Bus.fields .chan i off ≠ [] := by
  show fieldsAt Ch.rows (off % 0x100) ≠ []
  rw [h]
  decide

/-- What a read captured and answers is not in the registers. -/
theorem State.get_captured (s : State) (l : List (Nat × Word)) (req : Req) (a : List Word) (b : Nat) (f : Fld) :
    (State.answered { s with capt := l } req a).get b f = s.get b f :=
  State.get_congr (s := State.answered { s with capt := l } req a) (t := s) rfl b f

/-- READBACK_CAPTURE, from the command to the readback it answers with. -/
theorem exec_readbackCapture_answers {req : Req} {n : Fin 512} {s : State} (hr : s.Reaches req (0x100 + n.val / 16)) :
    ∃ l, exec (.readbackCapture req n) s = .next (State.answered { Ch.readback s n.val with capt := l } req
      [BitVec.ofNat 32 ((Ch.readback s n.val).get (Ch.b n.val) Ch.RB_T_T)]) := by
  have hmod : (0x100 * (n.val % 16) + 0x080) % 0x100 = 0x080 := by omega
  have hn : 16 * (n.val / 16) + (0x100 * (n.val % 16) + 0x080) / 0x100 = n.val := by omega
  have haddr : Ch.b n.val + 0x080 = pg (0x100 + n.val / 16) + (0x100 * (n.val % 16) + 0x080) := by
    rw [Ch.b_eq]
    omega
  obtain ⟨l, hget⟩ := Bus.get_rbT s req.code (0x100 + n.val / 16) (n.val / 16) hmod (Ch.fields_rbT hmod)
  rw [hn, ← haddr] at hget
  refine ⟨l, ?_⟩
  rw [exec_readbackCapture, Cmd.read, haddr, Bus.fetch_reg hr (Ch.page_listed n.isLt).1 (by omega) (by omega), hget,
    Ch.regN_rbT]

/-- What readback leaves: the channel at the next sample in its readback fields. -/
structure Ch.Shows (s t : State) (n : Nat) : Prop where
  state : t.get (Ch.b n) Ch.RB_INFO_STATE = s.chState n
  gen : t.get (Ch.b n) Ch.RB_INFO_GEN = (Ch.setAt s n (s.chn n) s.nextSample).2.2 % 2 ^ 16
  period : t.get (Ch.b n) Ch.RB_PERIOD_PERIOD = (Ch.readRecord s n).period.toNat
  chip : t.get (Ch.b n) Ch.RB_CODE_CHIP = (Ch.readRecord s n).chip % 2 ^ 16
  frac : t.get (Ch.b n) Ch.RB_CODE_FRAC = (Ch.readRecord s n).frac / 2 ^ 8 % 2 ^ 32
  carr : t.get (Ch.b n) Ch.RB_CARR_PHASE = (Ch.readRecord s n).carr.toNat / 2 ^ 8
  chan : t.chan = s.chan
  base : t.base = (s.runToSample s.nextSample).base

theorem Ch.readback_shows (s : State) (n : Nat) : Ch.Shows s (Ch.readback s n) n := by
  obtain ⟨t, freq, rate, pos, hshown⟩ := Ch.readback_eq s n
  rw [hshown]
  exact {
    state := (Ch.shownState_state _ _ _ _ _ _ _ _).trans (Ch.readReady_chState _ _ _)
    gen := Ch.shownState_gen _ _ _ _ _ _ _ _
    period := Ch.shownState_period _ _ _ _ _ _ _ _
    chip := Ch.shownState_chip _ _ _ _ _ _ _ _
    frac := Ch.shownState_frac _ _ _ _ _ _ _ _
    carr := Ch.shownState_carr _ _ _ _ _ _ _ _
    chan := (Ch.shownState_chan _ _ _ _ _ _ _ _).trans (Ch.readReady_chan _ _ _)
    base := (Ch.shownState_base _ _ _ _ _ _ _ _).trans (Ch.readReady_base _ _ _) }

/-- What a read captures and answers is not among it. -/
theorem Ch.Shows.answered {s t : State} {n : Nat} (h : Ch.Shows s t n) (l : List (Nat × Word)) (req : Req) (a : List Word) :
    Ch.Shows s (State.answered { t with capt := l } req a) n := by
  have hget (f : Fld) : (State.answered { t with capt := l } req a).get (Ch.b n) f = t.get (Ch.b n) f := State.get_captured _ _ _ _ _ _
  exact {
    state := (hget _).trans h.state, gen := (hget _).trans h.gen, period := (hget _).trans h.period
    chip := (hget _).trans h.chip, frac := (hget _).trans h.frac, carr := (hget _).trans h.carr
    chan := h.chan, base := h.base }

/-- READBACK_CAPTURE shows the channel at the next sample and answers RB_T. -/
theorem readbackCapture_shows {req : Req} {n : Fin 512} {s : State} (hr : s.Reaches req (0x100 + n.val / 16)) :
    ∃ t, exec (.readbackCapture req n) s = .next t ∧ Ch.Shows s t n.val ∧
      t.resp = ⟨req.code, [BitVec.ofNat 32 (t.get (Ch.b n.val) Ch.RB_T_T)], false⟩ := by
  obtain ⟨l, hexec⟩ := exec_readbackCapture_answers hr
  have hshows := Ch.readback_shows s n.val
  generalize Ch.readback s n.val = u at hexec hshows
  refine ⟨_, hexec, hshows.answered l req _, ?_⟩
  rw [State.get_captured]
  rfl

/-! ### The obligation -/

/-- Settles O22: the interval that begins at the boundary, the group's commits, its arming, and the readback. -/
theorem intervalEndRestartsIntegration : Obligations.IntervalEndRestartsIntegration := by
  unfold Obligations.IntervalEndRestartsIntegration
  refine ⟨fun n feed s hst hen hf hrun hpath => ?_, fun g s hen hf hrun => ?_, fun req g gen s hq hw h0 => ?_, fun req n s hr => ?_⟩
  · obtain ⟨t, hexec, hfresh, hpos⟩ := intervalEnd_restarts hst hen hf hrun hpath feed
    exact ⟨t, hexec, hfresh.acc, hfresh.nsamp, hfresh.first.trans hpos, hfresh.first.symm⟩
  · intro done
    have hdone {m : Nat} {t : State} (h : Trkg.Committed s t g.val m) : done m t :=
      ⟨h.taken, h.miss, h.event, h.base, h.mem, h.members, fun n hn => h.others n.val hn⟩
    refine ⟨fun req mask feed hw hmask hat => ?_, fun x fire feed hx => ⟨fun hother => ?_, fun hg hfire hat => ?_⟩⟩
    · obtain ⟨t, hexec, ht⟩ := groupCommit_commits hen hf hw hmask hat feed
      exact ⟨t, hexec, hdone ht⟩
    · exact groupCommitAction_other hx hother hrun feed
    · obtain ⟨t, hexec, hacts, ht⟩ := groupCommitAction_commits hx hg hfire hen hf hrun hat feed
      exact ⟨t, hexec, hacts, hdone ht⟩
  · obtain ⟨t, hexec, ht⟩ := grpArm_arms hq hw h0
    refine ⟨_, hexec, fun n hn => ?_, ht.others, ?_⟩
    · obtain ⟨harmed, hpend, hstate⟩ := ht.members n hn
      exact ⟨harmed, (State.get_answered_req _ _ _ _ _).trans hpend, (State.chState_answered _ _ _ _).trans hstate⟩
    · rw [ht.rest]
      rfl
  · intro b c0 c
    obtain ⟨t, hexec, ht, hresp⟩ := readbackCapture_shows hr
    exact ⟨t, hexec, ht.state, ht.gen, ht.period, ht.chip, ht.frac, ht.carr, ht.chan, ht.base, hresp⟩

end Sys2Proof.Machine
end

section
/-! ## A measurement latch is taken (O25; spec/06 R137 to R146) -/

namespace Sys2Proof.Machine

/-! ### What a latch reads -/

/-- The slot of the ring in which the next block is written (R144). -/
def Meas.slotAt (s : State) : Nat := 64 * s.get Meas.b Meas.MEAS_BASE_BASE + Meas.slot * s.get Meas.b Meas.MEAS_WP_WP

theorem Meas.slotAt_congr {s t : State} (h : s.regs = t.regs) : Meas.slotAt s = Meas.slotAt t := by
  unfold Meas.slotAt
  rw [State.get_congr h, State.get_congr h]

theorem Meas.runs_congr {s t : State} (hregs : s.regs = t.regs) (hchan : s.chan = t.chan) (m n : Nat) :
    Meas.runs s m n = Meas.runs t m n := by
  have hstate : s.chState n = t.chState n := State.get_congr hregs _ _
  unfold Meas.runs
  rw [hstate, State.chn_congr hchan]

/-- Which channels a latch reports rests on registers, working words and channels. -/
theorem Meas.reported_congr {s t : State} (hregs : s.regs = t.regs) (hwork : s.work = t.work) (hchan : s.chan = t.chan) (m : Nat) :
    Meas.reported s m = Meas.reported t m := by
  refine List.filter_congr fun n _ => ?_
  unfold Meas.reports
  rw [Meas.runs_congr hregs hchan, State.wget_congr hwork]

/-- Time that runs on changes nothing of that. -/
theorem Meas.reported_runToSample (s : State) (k m : Nat) : Meas.reported (s.runToSample k) m = Meas.reported s m :=
  Meas.reported_congr (State.regs_runToSample s k) (State.work_runToSample s k) (State.chan_runToSample s k) m

/-- A channel's entry has 48 bytes (R145). -/
theorem Meas.length_entry (s : State) (n m : Nat) : (Meas.entry s n m).length = 48 := by
  unfold Meas.entry
  extract_lets
  split
  extract_lets
  split
  simp only [length_recBytes, List.map_cons, List.map_nil, List.sum_cons, List.sum_nil]
  rfl

/-- Where time runs to rests on the base counter and the instant of sample 0. -/
theorem State.base_runToSample_congr {s t : State} (hbase : t.base = s.base) (hz : t.smpZ = s.smpZ) (m : Nat) :
    (t.runToSample m).base = (s.runToSample m).base := by
  unfold State.runToSample State.runTo State.now
  rw [hbase, hz]
  split
  · exact congrArg (· + _) hbase
  · exact hbase

theorem inSramArea_bounds {a n : Nat} (h : inSramArea a n = true) : 0x10000000 ≤ a ∧ a + n ≤ 0x11FC0000 := by
  simpa [inSramArea] using h

/-! ### The block that a latch opens -/

/-- A latch has opened in `t` the block `l` of sample `m`: the instant asked for, LATE and MANUAL, an entry for each channel reported,
time at the sample, no latch left to count as missed, and the slot without its MAGIC (R138, R140, R142 to R145). -/
structure Meas.Opened (s t : State) (m : Nat) (treq : Option Nat) (late manual : Bool) (l : Latch) : Prop where
  latch : t.latch = some l
  sample : l.m = m
  isLate : l.late = late
  isManual : l.manual = manual
  treq : ∀ q, treq = some q → l.treq = q
  ents : l.ents.map (·.1) = Meas.reported s m
  lengths : ∀ e ∈ l.ents, e.2.length = 48
  base : t.base = (s.runToSample m).base
  missed : t.measMissed = 0
  regs : t.regs = s.regs
  magic : t.byte (Meas.slotAt s) = 0 ∧ t.byte (Meas.slotAt s + 1) = 0
  bytes : ∀ a, a ≠ Meas.slotAt s → a ≠ Meas.slotAt s + 1 → t.byte a = s.byte a

namespace Meas.Opened

variable {s t : State} {m : Nat} {treq : Option Nat} {late manual : Bool} {l : Latch}

/-- An answer is no part of it. -/
theorem answered (h : Meas.Opened s t m treq late manual l) (req : Req) : Meas.Opened s (t.answered req []) m treq late manual l :=
  ⟨h.latch, h.sample, h.isLate, h.isManual, h.treq, h.ents, h.lengths, h.base, h.missed, h.regs, h.magic, h.bytes⟩

/-- Nor are the calendar's list and the link before the latch. -/
theorem of_acts_cdl {acts : List Action} {cdl : CdlSt} (h : Meas.Opened { s with acts := acts, cdl := cdl } t m treq late manual l) :
    Meas.Opened s t m treq late manual l where
  latch := h.latch
  sample := h.sample
  isLate := h.isLate
  isManual := h.isManual
  treq := h.treq
  ents := h.ents.trans (Meas.reported_congr rfl rfl rfl m)
  lengths := h.lengths
  base := h.base.trans (State.base_runToSample_congr (s := s) (t := { s with acts := acts, cdl := cdl }) rfl rfl m)
  missed := h.missed
  regs := h.regs
  magic := h.magic
  bytes := h.bytes

end Meas.Opened

/-- A latch changes the block that is open, the latches missed, memory and the caches over it, and time. -/
def Meas.LatchOnly (s t : State) : Prop :=
  t = { s with latch := t.latch, measMissed := t.measMissed, mem := t.mem, dcache := t.dcache, base := t.base, ts := t.ts }

theorem Meas.LatchOnly.quiet {s t : State} (h : Meas.LatchOnly s t) (hq : s.Quiet) : t.Quiet := by
  rw [h]
  exact hq

theorem Meas.LatchOnly.acts {s t : State} (h : Meas.LatchOnly s t) : t.acts = s.acts := by rw [h]

theorem Meas.LatchOnly.cdl {s t : State} (h : Meas.LatchOnly s t) : t.cdl = s.cdl := by rw [h]

/-- The state in which block `l` is open in the slot at `a`. -/
def Meas.withBlock (s : State) (l : Latch) (a : Nat) : State := { s with latch := some l, measMissed := 0 }.put8 a [0, 0]

theorem Meas.withBlock_only {s : State} (hecc : s.eccBad = []) (l : Latch) (a : Nat) :
    Meas.withBlock s l a =
      { s with latch := some l, measMissed := 0, mem := (Meas.withBlock s l a).mem, dcache := (Meas.withBlock s l a).dcache } :=
  State.put8_only (s := { s with latch := some l, measMissed := 0 }) hecc a [0, 0]

/-- MAGIC reads 0 and no other byte changes. -/
theorem Meas.byte_withBlock (s : State) (l : Latch) {a : Nat} (hlo : 0x10000000 ≤ a) (hhi : a + 2 ≤ 0x12000000) :
    (Meas.withBlock s l a).byte a = 0 ∧ (Meas.withBlock s l a).byte (a + 1) = 0 ∧
      ∀ x, x ≠ a → x ≠ a + 1 → (Meas.withBlock s l a).byte x = s.byte x := by
  have hbyte := State.byte_put8_sram { s with latch := some l, measMissed := 0 } (l := [0, 0]) hlo (by decide) hhi
  refine ⟨?_, ?_, fun x h0 h1 => ?_⟩
  · rw [Meas.withBlock, hbyte, if_pos (by simp), Nat.sub_self]
    rfl
  · rw [Meas.withBlock, hbyte, if_pos (by simp), Nat.add_sub_cancel_left]
    rfl
  · rw [Meas.withBlock, State.byte_put8_outside _ (by simp; omega)]
    rfl

/-- With no COMMIT to take over, a latch copies the channels reported and clears MAGIC. -/
theorem Meas.take_eq {s : State} (harmed : s.armedAt (pg Meas.p + 0x02C) = none) (m : Nat) (treq : Option Nat) (late manual : Bool) :
    ∃ l, Meas.take s m treq late manual = Meas.withBlock s l (Meas.slotAt s) ∧ l.m = m ∧ l.late = late ∧ l.manual = manual ∧
      (∀ q, treq = some q → l.treq = q) ∧ l.ents = (Meas.reported s m).map (fun n => (n, Meas.entry s n m)) := by
  have hkeep : (s.takePage Meas.p).1 = s := congrArg Prod.fst (State.takePage_none harmed)
  unfold Meas.take
  rw [hkeep]
  extract_lets
  split
  extract_lets +onlyGivenNames l
  refine ⟨l, rfl, rfl, rfl, rfl, ?_, ?_⟩
  · rintro q rfl
    rfl
  · dsimp only [l]

/-- Where a latch is free to be taken, time runs to its sample and it is. -/
theorem Meas.latch_free {s : State} (hfree : Meas.Free s) (req m : Nat) (treq : Option Nat) (late manual : Bool) :
    Meas.latch s req m treq late manual = Meas.take (s.runToSample m) m treq late manual := by
  obtain ⟨-, hen, hrun, hlatch, hfull, hbase, -, -⟩ := hfree
  have hget (f : Fld) : (s.runToSample m).get Meas.b f = s.get Meas.b f := State.get_congr (State.regs_runToSample s m) _ _
  have hlatch' : (s.runToSample m).latch = none := by rw [State.runToSample_only]; exact hlatch
  have hfull' : Meas.full (s.runToSample m) = false := by
    unfold Meas.full at hfull ⊢
    rwa [hget, hget, hget]
  unfold Meas.latch
  simp only [hen, hrun, hlatch', hfull', hget, hbase, Bool.not_true, Bool.false_eq_true, or_self, if_false]

/-- A latch that is free to be taken opens the block of its sample. -/
theorem Meas.latch_opens {s : State} (hfree : Meas.Free s) (req m : Nat) (treq : Option Nat) (late manual : Bool) :
    ∃ t l, Meas.latch s req m treq late manual = t ∧ Meas.Opened s t m treq late manual l ∧
      Meas.LatchOnly s t := by
  rw [Meas.latch_free hfree]
  obtain ⟨⟨hecc, -⟩, -, -, -, -, -, harmed, harea⟩ := hfree
  obtain ⟨hlo, hhi⟩ : 0x10000000 ≤ Meas.slotAt s ∧ Meas.slotAt s + 0x6040 ≤ 0x11FC0000 := inSramArea_bounds harea
  have hslot : Meas.slotAt (s.runToSample m) = Meas.slotAt s := Meas.slotAt_congr (State.regs_runToSample s m)
  obtain ⟨l, htake, hm, hlate, hmanual, htreq, hents⟩ :=
    Meas.take_eq ((State.armedAt_runToSample s m _).trans harmed) m treq late manual
  rw [hslot] at htake
  have honly := Meas.withBlock_only ((State.runToSample_eccBad s m).trans hecc) l (Meas.slotAt s)
  obtain ⟨h0, h1, hbytes⟩ := Meas.byte_withBlock (s.runToSample m) l hlo (by omega)
  rw [← htake] at honly h0 h1 hbytes
  generalize Meas.take (s.runToSample m) m treq late manual = t at honly h0 h1 hbytes
  refine ⟨t, l, rfl, ?_, by rw [Meas.LatchOnly, honly, State.runToSample_only]⟩
  exact {
    latch := by rw [honly]
    sample := hm
    isLate := hlate
    isManual := hmanual
    treq := htreq
    ents := by rw [hents, List.map_map, Meas.reported_runToSample]; exact List.map_id _
    lengths := fun e he => by
      rw [hents] at he
      obtain ⟨n, -, rfl⟩ := List.mem_map.1 he
      exact Meas.length_entry _ _ _
    base := by rw [honly]
    missed := by rw [honly]
    regs := by rw [honly]; exact State.regs_runToSample s m
    magic := ⟨h0, h1⟩
    bytes := fun a ha ha' => (hbytes a ha ha').trans (State.byte_congr (State.runToSample_mem s m) a) }

end Sys2Proof.Machine
end

section
/-! ## The commands that latch a measurement (O25; spec/06 R137, R141, R143, spec/07 R167, R168) -/

namespace Sys2Proof.Machine

/-! ### MANUAL_LATCH and MEAS_CNT_CLR -/

theorem exec_manualLatch (req : Req) (clr : Bool) (s : State) :
    exec (.manualLatch req clr) s = Cmd.write s req (pg 0x040 + 0x044) (1 + 2 * b2n clr) := rfl

theorem exec_measCntClr (req : Req) (s : State) : exec (.measCntClr req) s = Cmd.write s req (pg 0x040 + 0x044) 2 := rfl

theorem Meas.page_listed : pageInfo Meas.p = some (.meas, 0) ∧ ownerPage Meas.p = Meas.p := by decide

/-- MEAS_CMD is a word of pulses (R155). -/
theorem Meas.fields_cmd : Bus.fields .meas 0 0x044 ≠ [] ∧ (Bus.fields .meas 0 0x044).all (fun f => f.acc == .rd) = false := by
  decide

/-- Both counts read 0. -/
def Meas.countsCleared (s : State) : State := (s.put Meas.b Meas.MEAS_MISS_COUNT 0).put Meas.b Meas.MEAS_OVR_COUNT 0

theorem Meas.countsCleared_only (s : State) :
    s.RegsOnly (Meas.countsCleared s) [Meas.b + Meas.MEAS_MISS_COUNT.off, Meas.b + Meas.MEAS_OVR_COUNT.off] :=
  ((State.RegsOnly.put s _ Meas.MEAS_MISS_COUNT 0 rfl).mono (by simp)).trans
    ((State.RegsOnly.put _ _ Meas.MEAS_OVR_COUNT 0 rfl).mono (by simp))

theorem Meas.countsCleared_counts (s : State) :
    (Meas.countsCleared s).get Meas.b Meas.MEAS_MISS_COUNT = 0 ∧ (Meas.countsCleared s).get Meas.b Meas.MEAS_OVR_COUNT = 0 := by
  constructor
  · rw [Meas.countsCleared, State.get_put_apart _ _ _ (by decide), State.get_put_same]
    rfl
  · rw [Meas.countsCleared, State.get_put_same]
    rfl

theorem Meas.countsCleared_latch (s : State) : (Meas.countsCleared s).latch = s.latch := by
  rw [(Meas.countsCleared_only s).1]

theorem Meas.write_cmd (s : State) (req v : Nat) (store : State → State) :
    Meas.write s req 0x044 v store =
      if v.testBit 1 then Meas.countsCleared (if v.testBit 0 then Meas.manual s req else s)
      else if v.testBit 0 then Meas.manual s req else s := rfl

/-- A write of MEAS_CMD, from the command to its effect. -/
theorem Cmd.write_measCmd {s : State} {req : Req} {v : Nat} (hw : s.Writable req Meas.p)
    {t : State} (ht : (if (v % 2 ^ 32).testBit 1 then Meas.countsCleared (if (v % 2 ^ 32).testBit 0 then Meas.manual s req.code else s)
      else if (v % 2 ^ 32).testBit 0 then Meas.manual s req.code else s) = t) (hq : t.Quiet)
    (hc : t.get (pg Meas.p) H.COUNT = s.get (pg Meas.p) H.COUNT) :
    Cmd.write s req (pg 0x040 + 0x044) v = .next (t.answered req []) :=
  Cmd.write_hook hw Meas.page_listed.1 (by decide) (by decide) (by decide) Meas.fields_cmd.1 Meas.fields_cmd.2
    ((Meas.write_cmd s req.code (v % 2 ^ 32) (Bus.store req.code (ownerPage Meas.p) (pg Meas.p + 0x044) (Bus.fields .meas 0 0x044)
      (v % 2 ^ 32))).trans ht) hq hc

@[simp] theorem State.answered_latch (s : State) (req : Req) (l : List Word) : (s.answered req l).latch = s.latch := rfl

/-- A latch by command opens the block of the first sample edge after the write. -/
theorem Meas.manual_opens {s : State} (hfree : Meas.Free s) (hf : s.frozen Meas.p = false) (req : Nat) :
    ∃ t l, Meas.manual s req = t ∧ Meas.Opened s t s.nextSample (some (replica 1 s.now)) false true l ∧
      Meas.LatchOnly s t := by
  unfold Meas.manual
  rw [if_neg (by simp [hf])]
  exact Meas.latch_opens hfree req _ _ false true

/-- MANUAL_LATCH opens that block. -/
theorem manualLatch_opens {req : Req} {s : State} (hfree : Meas.Free s) (hq : s.Quiet) (hw : s.Writable req Meas.p)
    (hf : s.frozen Meas.p = false) :
    ∃ t l, exec (.manualLatch req false) s = .next t ∧ Meas.Opened s t s.nextSample (some (replica 1 s.now)) false true l := by
  obtain ⟨t, l, hlatch, hopen, hrest⟩ := Meas.manual_opens hfree hf req.code
  exact ⟨_, l, (exec_manualLatch req false s).trans (Cmd.write_measCmd hw hlatch (hrest.quiet hq) (State.get_congr hopen.regs _ _)),
    hopen.answered req⟩

/-- With CNT_CLR in the same write, that block is open and both counts read 0. -/
theorem manualLatch_opens_clear {req : Req} {s : State} (hfree : Meas.Free s) (hq : s.Quiet) (hw : s.Writable req Meas.p)
    (hf : s.frozen Meas.p = false) :
    ∃ t l, exec (.manualLatch req true) s = .next t ∧ t.latch = some l ∧ l.m = s.nextSample ∧ l.manual = true ∧
      t.get Meas.b Meas.MEAS_MISS_COUNT = 0 ∧ t.get Meas.b Meas.MEAS_OVR_COUNT = 0 := by
  obtain ⟨t, l, hlatch, hopen, hrest⟩ := Meas.manual_opens hfree hf req.code
  have honly := Meas.countsCleared_only t
  have hopened := (Meas.countsCleared_latch t).trans hopen.latch
  obtain ⟨hmiss, hovr⟩ := Meas.countsCleared_counts t
  have hcount : (Meas.countsCleared t).get (pg Meas.p) H.COUNT = s.get (pg Meas.p) H.COUNT :=
    (honly.get _ _ (by decide)).trans (State.get_congr hopen.regs _ _)
  have hexec := (exec_manualLatch req true s).trans (Cmd.write_measCmd (t := Meas.countsCleared t) hw
    (by rw [if_pos (by decide), if_pos (by decide), hlatch]) (honly.quiet (hrest.quiet hq)) hcount)
  exact ⟨_, l, hexec, (State.answered_latch _ _ _).trans hopened, hopen.sample, hopen.isManual,
    (State.get_answered_req _ _ _ _ _).trans hmiss, (State.get_answered_req _ _ _ _ _).trans hovr⟩

/-- MEAS_CNT_CLR clears both counts and changes no other word. -/
theorem measCntClr_sets {req : Req} {s : State} (hq : s.Quiet) (hw : s.Writable req Meas.p) :
    Cmd.Sets (.measCntClr req) s [Meas.b + Meas.MEAS_MISS_COUNT.off, Meas.b + Meas.MEAS_OVR_COUNT.off] (fun t =>
      t.get Meas.b Meas.MEAS_MISS_COUNT = 0 ∧ t.get Meas.b Meas.MEAS_OVR_COUNT = 0) := by
  have honly := Meas.countsCleared_only s
  have hwrite := Cmd.write_measCmd (v := 2) hw (t := Meas.countsCleared s) rfl (honly.quiet hq) (honly.get _ _ (by decide))
  refine ⟨_, (exec_measCntClr req s).trans hwrite, ?_, honly.trans ((State.RegsOnly.answered _ _ _).mono (by simp))⟩
  simpa only [State.get_answered_req] using Meas.countsCleared_counts s

/-! ### MEAS_LATCH -/

theorem exec_measLatch (own fire : BitVec 64) (late : Bool) (s : State) :
    exec (.measLatch own fire late) s = execMeasLatch own fire late s := rfl

/-- A MEAS_LATCH that names another latch than the next one dispatched carries out nothing. -/
theorem measLatch_other {x : Action} {own fire : BitVec 64} {late : Bool} {s : State}
    (hx : s.acts.find? (fun y => y.act == 4) = some x) (hother : x.own ≠ own.toNat ∨ x.fire ≠ fire.toNat ∨ x.late ≠ late) :
    exec (.measLatch own fire late) s = .next s := by
  have hnamed : (x.own == own.toNat && x.fire == fire.toNat && x.late == late) = false := by
    rcases hother with h | h | h <;> simp [h]
  rw [exec_measLatch]
  unfold execMeasLatch State.takeAct
  simp only [hx, hnamed, Bool.false_eq_true, if_false]

/-- One that names it opens the block of the first edge of its instant. -/
theorem measLatch_opens {x : Action} {own fire : BitVec 64} {late : Bool} {s : State}
    (hx : s.acts.find? (fun y => y.act == 4) = some x) (hfree : Meas.Free s) (hf : s.frozen Meas.p = false)
    (hepochs : s.cdl.epochs = []) (hown : x.own = own.toNat) (hfire : x.fire = fire.toNat) (hlate : x.late = late) :
    ∃ t l, exec (.measLatch own fire late) s = .next t ∧ t.acts = s.acts.erase x ∧
      Meas.Opened s t (s.edgeFor x.fire) (some x.own) x.late false l := by
  obtain ⟨t, l, hlatch, hopen, hrest⟩ := Meas.latch_opens (s := { s with acts := s.acts.erase x }) hfree 8 (s.edgeFor x.fire)
    (some x.own) x.late false
  have hnamed : (x.own == own.toNat && x.fire == fire.toNat && x.late == late) = true := by simp [hown, hfire, hlate]
  have hfrozen : { s with acts := s.acts.erase x }.frozen Meas.p = false := hf
  refine ⟨t, l, ?_, hrest.acts, hopen.of_acts_cdl⟩
  rw [exec_measLatch, ← hlatch]
  unfold execMeasLatch State.takeAct
  simp only [hx, hnamed, hepochs, hfrozen, List.any_nil, Bool.false_eq_true, if_false, if_true]
  rfl

/-! ### SHARED_EPOCH_LATCH -/

theorem exec_sharedEpochLatch (gsc : BitVec 48) (s : State) : exec (.sharedEpochLatch gsc) s = execSharedEpochLatch gsc s := rfl

/-- A SHARED_EPOCH_LATCH of another count than the oldest announced one carries out nothing. -/
theorem sharedEpochLatch_other {g : Nat} {gsc : BitVec 48} {treq : Option Nat} {l : List (Nat × Option Nat)} {s : State}
    (hepochs : s.cdl.epochs = (g, treq) :: l) (hg : g ≠ gsc.toNat) : exec (.sharedEpochLatch gsc) s = .next s := by
  rw [exec_sharedEpochLatch]
  unfold execSharedEpochLatch
  rw [hepochs]
  simp only [hg, ne_eq, not_false_eq_true, if_true]

/-- The oldest announced epoch `g`, whose requested instant is `treq`, is to be latched: the link shares epochs and is not isolated. -/
structure Cdl.Announced (s : State) (g : Nat) (treq : Option Nat) (l : List (Nat × Option Nat)) : Prop where
  epochs : s.cdl.epochs = (g, treq) :: l
  share : s.flag Cdl.b Cdl.CDL_CFG_EPOCH_SHARE = true
  isolated : s.cdl.isolated = false
  on : Cdl.on s = true

/-- That epoch is taken from those announced, and counts as late once its count has passed. -/
theorem exec_sharedEpochLatch_announced {gsc : BitVec 48} {treq : Option Nat} {l : List (Nat × Option Nat)} {s u : State}
    (h : Cdl.Announced s gsc.toNat treq l) (hu : s.modCdl (fun c => { c with epochs := l }) = u) :
    exec (.sharedEpochLatch gsc) s = .next
      (if Cdl.passed s gsc.toNat = true then (u.count Cdl.b Cdl.EPOCH_LATE_COUNT).raise Cdl.p 6
       else if s.frozen Meas.p = true then u.logErr Meas.p E.FROZEN_ACTION Meas.b 8
       else Meas.latch u 8 (s.curSample + (gsc.toNat + 2 ^ 48 - s.gsc s.curSample) % 2 ^ 48) treq false false) := by
  obtain ⟨hepochs, hshare, hisolated, hon⟩ := h
  obtain ⟨hshare', hisolated', hon', hpassed, hfrozen, hgsc, hcur⟩ : u.flag Cdl.b Cdl.CDL_CFG_EPOCH_SHARE = true ∧
      u.cdl.isolated = false ∧ Cdl.on u = true ∧ Cdl.passed u gsc.toNat = Cdl.passed s gsc.toNat ∧
      u.frozen Meas.p = s.frozen Meas.p ∧ u.gsc s.curSample = s.gsc s.curSample ∧ u.curSample = s.curSample := by
    subst hu
    exact ⟨hshare, hisolated, hon, rfl, rfl, rfl, rfl⟩
  rw [exec_sharedEpochLatch]
  unfold execSharedEpochLatch
  simp only [hepochs, hu, hshare', hisolated', hon', hpassed, hfrozen, hgsc, hcur, ne_eq, not_true, Bool.not_true,
    Bool.false_eq_true, false_and, or_self, if_false]
  split
  · rfl
  · split <;> rfl

/-- An epoch that comes late is counted and shown, and no block is opened (R168). -/
theorem sharedEpochLatch_late {gsc : BitVec 48} {treq : Option Nat} {l : List (Nat × Option Nat)} {s : State}
    (h : Cdl.Announced s gsc.toNat treq l) (hpassed : Cdl.passed s gsc.toNat = true) :
    ∃ t, exec (.sharedEpochLatch gsc) s = .next t ∧ t.cdl.epochs = l ∧ t.latch = s.latch ∧
      t.get Cdl.b Cdl.EPOCH_LATE_COUNT = min (s.get Cdl.b Cdl.EPOCH_LATE_COUNT + 1) (2 ^ 32 - 1) ∧
      (t.get Cdl.b H.IRQ_RAW).testBit 6 = true := by
  generalize hu : s.modCdl (fun c => { c with epochs := l }) = u
  have hexec := exec_sharedEpochLatch_announced h hu
  rw [if_pos hpassed] at hexec
  refine ⟨_, hexec, ?_, ?_, ?_, State.testBit_raise_same _ _ (by decide)⟩
  · rw [State.raise_cdl, State.count, State.put_cdl, ← hu]
    rfl
  · rw [State.raise_latch, State.count, State.put_latch, ← hu]
    rfl
  · have hget : u.get Cdl.b Cdl.EPOCH_LATE_COUNT = s.get Cdl.b Cdl.EPOCH_LATE_COUNT := by rw [← hu]; rfl
    refine (State.get_put_apart _ Cdl.b (f := H.IRQ_RAW) _ (by decide)).trans ?_
    rw [State.count, State.get_put_same, hget]
    exact Nat.mod_eq_of_lt ((Nat.min_le_right _ _).trans_lt (by decide))

/-- One whose count is still to come opens the block of the sample that has it (R167). -/
theorem sharedEpochLatch_opens {gsc : BitVec 48} {treq : Option Nat} {l : List (Nat × Option Nat)} {s : State}
    (h : Cdl.Announced s gsc.toNat treq l) (hpassed : Cdl.passed s gsc.toNat = false) (hfree : Meas.Free s)
    (hf : s.frozen Meas.p = false) :
    ∃ t b, exec (.sharedEpochLatch gsc) s = .next t ∧ t.cdl.epochs = l ∧
      Meas.Opened s t (s.curSample + (gsc.toNat + 2 ^ 48 - s.gsc s.curSample) % 2 ^ 48) treq false false b := by
  obtain ⟨t, b, hlatch, hopen, hrest⟩ := Meas.latch_opens (s := { s with acts := s.acts, cdl := { s.cdl with epochs := l } }) hfree 8
    (s.curSample + (gsc.toNat + 2 ^ 48 - s.gsc s.curSample) % 2 ^ 48) treq false false
  have hexec := exec_sharedEpochLatch_announced h rfl
  rw [if_neg (by simp [hpassed]), if_neg (by simp [hf])] at hexec
  exact ⟨t, b, hexec.trans (congrArg Host.Outcome.next hlatch), congrArg CdlSt.epochs hrest.cdl, hopen.of_acts_cdl⟩

/-! ### The obligation -/

/-- Settles O25: whatever asks for the latch, the block it opens is that of `Meas.latch_opens`, at the sample the command gives it. -/
theorem measurementLatch : Obligations.MeasurementLatch := by
  unfold Obligations.MeasurementLatch
  intro opens
  have hopens {s t : State} {m : Nat} {treq : Option Nat} {late manual : Bool} {l : Latch}
      (h : Meas.Opened s t m treq late manual l) : opens s t m treq late manual :=
    ⟨l, h.latch, h.sample, h.isLate, h.isManual, h.treq, h.ents.trans (Meas.reported_runToSample s m m).symm, h.lengths, h.base,
      h.missed, h.regs, h.magic.1, h.magic.2, h.bytes⟩
  refine ⟨fun req s hfree hq hw hf => ⟨?_, manualLatch_opens_clear hfree hq hw hf⟩,
    fun x own fire late s hx => ⟨measLatch_other hx, fun hfree hf hepochs hown hfire hlate => ?_⟩,
    fun g gsc treq l s hepochs => ⟨sharedEpochLatch_other hepochs, fun hg hshare hisolated hon => ?_⟩,
    fun req s hq hw => measCntClr_sets hq hw⟩
  · obtain ⟨t, l, hexec, h⟩ := manualLatch_opens hfree hq hw hf
    exact ⟨t, hexec, hopens h⟩
  · obtain ⟨t, l, hexec, hacts, h⟩ := measLatch_opens hx hfree hf hepochs hown hfire hlate
    exact ⟨t, hexec, hacts, hopens h⟩
  · subst hg
    have hannounced : Cdl.Announced s gsc.toNat treq l := ⟨hepochs, hshare, hisolated, hon⟩
    refine ⟨sharedEpochLatch_late hannounced, fun hpassed hfree hf => ?_⟩
    obtain ⟨t, b, hexec, hl, h⟩ := sharedEpochLatch_opens hannounced hpassed hfree hf
    exact ⟨t, hexec, hl, hopens h⟩

end Sys2Proof.Machine
end

section
/-! ## BLOCK_DONE (O26; spec/06 R144, R145) -/

namespace Sys2Proof.Machine

/-! ### The bytes of a block -/

/-- A block `l` in the slot at `a`, MAGIC last: its entries, the header of block `seq` and MAGIC. -/
def Meas.blockWritten (s : State) (l : Latch) (a flags seq : Nat) : State :=
  ((s.put8 (a + 64) (l.ents.flatMap (·.2))).put8 (a + 2) (Meas.header l flags seq)).put8 a [0x45, 0x4D]

theorem Meas.blockWritten_regs {s : State} (hecc : s.eccBad = []) (l : Latch) (a flags seq : Nat) :
    (Meas.blockWritten s l a flags seq).regs = s.regs := by
  obtain ⟨-, -, hecc1⟩ := State.put8_stands hecc (a + 64) (l.ents.flatMap (·.2))
  obtain ⟨-, -, hecc2⟩ := State.put8_stands hecc1 (a + 2) (Meas.header l flags seq)
  rw [Meas.blockWritten, State.put8_regs hecc2, State.put8_regs hecc1, State.put8_regs hecc]

section

variable {l : Latch} (hbefore : l.before.length = 14)
include hbefore

theorem Meas.length_header (hafter : l.after.length = 24) (flags seq : Nat) : (Meas.header l flags seq).length = 62 := by
  simp [Meas.header, length_recBytes, hbefore, hafter]

/-- SEQ stands at byte 2 behind MAGIC, NENT at byte 36. -/
theorem Meas.header_fields (flags seq : Nat) :
    ((Meas.header l flags seq).drop 2).take 4 = leBytes 4 seq ∧ ((Meas.header l flags seq).drop 36).take 2 = leBytes 2 l.ents.length := by
  refine ⟨rfl, ?_⟩
  have hfront : (recBytes [(1, flags), (1, l.flags / 256), (4, seq), (8, l.u / 64), (8, l.treq)] ++ l.before).length = 36 := by
    simp [length_recBytes, hbefore]
  have hnent : recBytes [(2, l.ents.length)] = leBytes 2 l.ents.length := List.append_nil _
  rw [Meas.header, List.append_assoc, List.drop_left' hfront, hnent, List.take_left' (length_leBytes 2 _)]

variable (hafter : l.after.length = 24) {a : Nat} (hlo : 0x10000000 ≤ a) (hhi : a + 0x6040 ≤ 0x11FC0000)
include hafter hlo hhi

/-- The slot holds MAGIC and the entries, and nothing outside it changes. -/
theorem Meas.byte_blockWritten (hents : (l.ents.flatMap (·.2)).length ≤ 0x6000) (s : State) (flags seq : Nat) :
    (Meas.blockWritten s l a flags seq).byte a = 0x45 ∧ (Meas.blockWritten s l a flags seq).byte (a + 1) = 0x4D ∧
      (∀ i, i < (l.ents.flatMap (·.2)).length →
        (Meas.blockWritten s l a flags seq).byte (a + 64 + i) = BitVec.ofNat 8 ((l.ents.flatMap (·.2)).getD i 0)) ∧
      ∀ x, x < a ∨ a + 0x6040 ≤ x → (Meas.blockWritten s l a flags seq).byte x = s.byte x := by
  have hheader := Meas.length_header hbefore hafter flags seq
  have hmagic (u : State) := State.byte_put8_sram u (l := [0x45, 0x4D]) hlo (by decide) (show a + 2 ≤ 0x12000000 by omega)
  unfold Meas.blockWritten
  refine ⟨?_, ?_, fun i hi => ?_, fun x hx => ?_⟩
  · rw [hmagic, if_pos (by simp), Nat.sub_self]
    rfl
  · rw [hmagic, if_pos (by simp), Nat.add_sub_cancel_left]
    rfl
  · rw [State.byte_put8_outside _ (by simp; omega), State.byte_put8_outside _ (by omega),
      State.byte_put8_sram _ (by omega) (by omega) (by omega), if_pos (by omega), Nat.add_sub_cancel_left, List.getD_eq_getElem?_getD]
  · rw [State.byte_put8_outside _ (by simp; omega), State.byte_put8_outside _ (by omega), State.byte_put8_outside _ (by omega)]

/-- Its header shows SEQ and NENT. -/
theorem Meas.numAt_blockWritten (s : State) (flags seq : Nat) :
    (Meas.blockWritten s l a flags seq).numAt (a + 4) 4 = seq % 2 ^ 32 ∧
      (Meas.blockWritten s l a flags seq).numAt (a + 38) 2 = l.ents.length % 2 ^ 16 := by
  have hheader := Meas.length_header hbefore hafter flags seq
  obtain ⟨hseq, hnent⟩ := Meas.header_fields hbefore flags seq
  have hnum {o n : Nat} (hn : 0 < n) (ho : o + n ≤ 62) :
      (Meas.blockWritten s l a flags seq).numAt (a + 2 + o) n = leNat (((Meas.header l flags seq).drop o).take n) := by
    rw [Meas.blockWritten, State.numAt_put8_outside _ (by simp), State.numAt_put8 _ (by omega) (by omega) hn (by omega)]
  constructor
  · rw [hnum (o := 2) (by decide) (by decide), hseq, leNat_leBytes]
    rfl
  · rw [hnum (o := 36) (by decide) (by decide), hnent, leNat_leBytes]
    rfl

end

/-! ### Pointers, counts and events -/

/-- MEAS_WP, MEAS_SEQ and LAST_T after a block. -/
def Meas.pointersMoved (s : State) (wp seq t : Nat) : State :=
  ((s.put Meas.b Meas.MEAS_WP_WP wp).put Meas.b Meas.MEAS_SEQ_SEQ seq).put Meas.b Meas.LAST_T_T t

theorem Meas.pointersMoved_fields (s : State) (wp seq t : Nat) :
    (Meas.pointersMoved s wp seq t).get Meas.b Meas.MEAS_WP_WP = wp % 2 ^ 10 ∧
      (Meas.pointersMoved s wp seq t).get Meas.b Meas.MEAS_SEQ_SEQ = seq % 2 ^ 32 ∧
      (Meas.pointersMoved s wp seq t).get Meas.b Meas.LAST_T_T = t % 2 ^ 64 := by
  unfold Meas.pointersMoved
  refine ⟨?_, ?_, State.get_put_same _ _ _ _⟩
  · rw [State.get_put_apart _ _ _ (by decide), State.get_put_apart _ _ _ (by decide), State.get_put_same]
    rfl
  · rw [State.get_put_apart _ _ _ (by decide), State.get_put_same]
    rfl

theorem Meas.pointersMoved_mem (s : State) (wp seq t : Nat) : (Meas.pointersMoved s wp seq t).mem = s.mem := by
  simp [Meas.pointersMoved]

/-- The invalid samples counted up to the block are those from which the next block counts (R146). -/
def Meas.counted (s : State) (l : Latch) : State :=
  s.each l.invs (fun s x =>
    let c := s.chn x.1
    if c.startAt ≤ l.m then s.setChn x.1 { c with invBase := x.2 } else s)

theorem Meas.counted_same (s : State) (l : Latch) : (Meas.counted s l).regs = s.regs ∧ (Meas.counted s l).mem = s.mem := by
  constructor
  · exact State.each_keeps State.regs _ _ (fun s x => by dsimp only; split <;> rfl) s
  · exact State.each_keeps State.mem _ _ (fun s x => by dsimp only; split <;> rfl) s

/-- The block `l` is closed as number `seq`. -/
def Meas.closed (s : State) (l : Latch) (seq : Nat) : State := { s with latch := none, measPrev := (l.m, l.u / 64), measSeq := seq }

theorem Meas.closed_same (s : State) (l : Latch) (seq : Nat) :
    (Meas.closed s l seq).regs = s.regs ∧ (Meas.closed s l seq).mem = s.mem := ⟨rfl, rfl⟩

/-- The events of a block: BLOCK_DONE, SYN_FLAG where bit 0 of FLAGS is set, and MEAS_WM at the watermark (R144). -/
def Meas.shown (s : State) (synFlag : Bool) : State := Meas.watermark ((s.raise Meas.p 0).raiseIf synFlag Meas.p 3)

theorem Meas.shown_only (s : State) (synFlag : Bool) : s.RegsOnly (Meas.shown s synFlag) [pg Meas.p + 0x014] :=
  ((State.RegsOnly.raise _ _ _).trans (State.RegsOnly.raiseIf _ _ _ _)).trans (State.RegsOnly.raiseIf _ _ _ _)

theorem Meas.shown_done (s : State) (synFlag : Bool) : ((Meas.shown s synFlag).get (pg Meas.p) H.IRQ_RAW).testBit 0 = true := by
  rw [Meas.shown, Meas.watermark, State.testBit_raiseIf _ _ _ _ (by decide), State.testBit_raiseIf _ _ _ _ (by decide),
    State.testBit_raise_same _ _ (by decide)]
  rfl

/-! ### The command -/

theorem exec_blockDone (s : State) : exec .blockDone s = execBlockDone s := rfl

/-- The number of the next block: 1 after 2^32 − 1 (R145). -/
def Meas.nextSeq (s : State) : Nat := if s.measSeq = 2 ^ 32 - 1 then 1 else s.measSeq + 1

theorem Meas.nextSeq_lt {s : State} (h : s.measSeq < 2 ^ 32) : Meas.nextSeq s < 2 ^ 32 := by
  unfold Meas.nextSeq
  split <;> omega

/-- What BLOCK_DONE makes of the open block `l`, with MEAS_WP at `wp` after it. -/
def Meas.blockDone (s : State) (l : Latch) (wp flags : Nat) : State :=
  Meas.shown (Meas.closed (Meas.counted (Meas.pointersMoved (Meas.blockWritten s l (Meas.slotAt s) flags (Meas.nextSeq s)) wp
    (Meas.nextSeq s) (l.u / 64)) l) l (Meas.nextSeq s)) (flags.testBit 0)

theorem exec_blockDone_open {s : State} {l : Latch} (hecc : s.eccBad = []) (hlatch : s.latch = some l)
    (hcorr : s.running .corr = true) (hfabric : s.running .fabric = true) (hslots : s.get Meas.b Meas.MEAS_SLOTS_SLOTS ≠ 0) {w : Nat}
    (hw : (s.get Meas.b Meas.MEAS_WP_WP + 1) % s.get Meas.b Meas.MEAS_SLOTS_SLOTS = w) :
    ∃ flags, exec .blockDone s = .next (Meas.blockDone s l w flags) := by
  have hexec : ∃ flags, exec .blockDone s = .next (Meas.blockDone s l ((s.get Meas.b Meas.MEAS_WP_WP + 1) %
      max ((Meas.blockWritten s l (Meas.slotAt s) flags (Meas.nextSeq s)).get Meas.b Meas.MEAS_SLOTS_SLOTS) 1) flags) := by
    rw [exec_blockDone]
    unfold execBlockDone
    split
    · next h => simp [hlatch] at h
    · next l' h =>
      obtain rfl : l = l' := Option.some.inj (hlatch.symm.trans h)
      rw [if_neg (by simp [hcorr, hfabric])]
      exact ⟨_, rfl⟩
  obtain ⟨flags, hexec⟩ := hexec
  rw [State.get_congr (Meas.blockWritten_regs hecc l _ _ _), Nat.max_eq_left (Nat.pos_of_ne_zero hslots), hw] at hexec
  exact ⟨flags, hexec⟩

section

variable (s : State) (l : Latch) (wp flags : Nat)

theorem Meas.blockDone_closed :
    (Meas.blockDone s l wp flags).latch = none ∧ (Meas.blockDone s l wp flags).measSeq = Meas.nextSeq s := by
  rw [Meas.blockDone, (Meas.shown_only _ _).1]
  exact ⟨rfl, rfl⟩

/-- Memory is that with the block written. -/
theorem Meas.blockDone_mem :
    (Meas.blockDone s l wp flags).mem = (Meas.blockWritten s l (Meas.slotAt s) flags (Meas.nextSeq s)).mem := by
  rw [Meas.blockDone, (Meas.shown_only _ _).mem, (Meas.closed_same _ _ _).2, (Meas.counted_same _ _).2, Meas.pointersMoved_mem]

/-- The pointers are those moved. -/
theorem Meas.get_blockDone {f : Fld} (hf : ∀ i < f.words, Meas.b + f.off + 4 * i ∉ [pg Meas.p + 0x014]) :
    (Meas.blockDone s l wp flags).get Meas.b f =
      (Meas.pointersMoved (Meas.blockWritten s l (Meas.slotAt s) flags (Meas.nextSeq s)) wp (Meas.nextSeq s) (l.u / 64)).get
        Meas.b f := by
  rw [Meas.blockDone, (Meas.shown_only _ _).get _ _ hf]
  exact State.get_congr ((Meas.closed_same _ _ _).1.trans (Meas.counted_same _ l).1) _ _

end

/-- Settles O26: the bytes are those of the block written into the slot, and the registers those of the pointers moved. -/
theorem measurementBlockDone : Obligations.MeasurementBlockDone := by
  unfold Obligations.MeasurementBlockDone
  intro l s wp slot seq ents hclean hlatch hcorr hfabric harea hslots hbefore hafter hents hseq
  obtain ⟨hlo, hhi⟩ := inSramArea_bounds harea
  have hwp : (wp + 1) % s.get Meas.b Meas.MEAS_SLOTS_SLOTS < 2 ^ 10 :=
    (Nat.mod_lt _ (Nat.pos_of_ne_zero hslots)).trans (State.get_lt s Meas.b Meas.MEAS_SLOTS_SLOTS)
  have hlt : seq < 2 ^ 32 := Meas.nextSeq_lt hseq
  generalize hw : (wp + 1) % s.get Meas.b Meas.MEAS_SLOTS_SLOTS = w at hwp
  obtain ⟨flags, hexec⟩ := exec_blockDone_open hclean.1 hlatch hcorr hfabric hslots hw
  obtain ⟨hnone, hnext⟩ := Meas.blockDone_closed s l w flags
  have hmem := Meas.blockDone_mem s l w flags
  have hget {f : Fld} := Meas.get_blockDone s l w flags (f := f)
  obtain ⟨hWP, hSEQ, hT⟩ := Meas.pointersMoved_fields (Meas.blockWritten s l slot flags seq) w seq (l.u / 64)
  obtain ⟨h0, h1, hbytes, houtside⟩ := Meas.byte_blockWritten hbefore hafter hlo hhi hents s flags seq
  obtain ⟨hnumSeq, hnent⟩ := Meas.numAt_blockWritten hbefore hafter hlo hhi s flags seq
  refine ⟨_, hexec, hnone, (State.byte_congr hmem _).trans h0, (State.byte_congr hmem _).trans h1,
    ((State.numAt_congr hmem _ _).trans hnumSeq).trans (Nat.mod_eq_of_lt hlt), (State.numAt_congr hmem _ _).trans hnent,
    hnext, ((hget (by decide)).trans hSEQ).trans (Nat.mod_eq_of_lt hlt), (hget (by decide)).trans hT,
    ((hget (by decide)).trans hWP).trans (Nat.mod_eq_of_lt hwp), Meas.shown_done _ _,
    fun i hi => (State.byte_congr hmem _).trans (hbytes i hi), fun a ha => (State.byte_congr hmem a).trans (houtside a ha)⟩

end Sys2Proof.Machine
end

section
/-! ## The link's own state (what O27 to O30 rest on; spec/07 R157 to R177)

Most acts of the link change its state and registers of its page. Those that isolate a member or move its clock also change what the
array notes of the past and the sample synthesizers. One frame stands for each, and one lemma says what each act leaves. -/

namespace Sys2Proof.Machine

/-! ### Updates of the link beside its registers -/

@[simp] theorem State.modCdl_cdl (s : State) (f : CdlSt → CdlSt) : (s.modCdl f).cdl = f s.cdl := rfl

@[simp] theorem State.modCdl_regs (s : State) (f : CdlSt → CdlSt) : (s.modCdl f).regs = s.regs := rfl
@[simp] theorem State.modCdl_mem (s : State) (f : CdlSt → CdlSt) : (s.modCdl f).mem = s.mem := rfl
@[simp] theorem State.modCdl_base (s : State) (f : CdlSt → CdlSt) : (s.modCdl f).base = s.base := rfl

@[simp] theorem State.get_modCdl (s : State) (f : CdlSt → CdlSt) (b : Nat) (g : Fld) : (s.modCdl f).get b g = s.get b g :=
  State.get_congr (s := s.modCdl f) (t := s) rfl b g

@[simp] theorem State.flag_modCdl (s : State) (f : CdlSt → CdlSt) (b : Nat) (g : Fld) : (s.modCdl f).flag b g = s.flag b g := by
  simp [State.flag]

@[simp] theorem State.count_cdl (s : State) (b : Nat) (f : Fld) : (s.count b f).cdl = s.cdl := State.put_cdl _ _ _ _

@[simp] theorem State.countWrap_cdl (s : State) (b : Nat) (f : Fld) : (s.countWrap b f).cdl = s.cdl := State.put_cdl _ _ _ _

@[simp] theorem State.putB_cdl (s : State) (b : Nat) (f : Fld) (v : Bool) : (s.putB b f v).cdl = s.cdl := State.put_cdl _ _ _ _

/-- A counter of 32 bits that saturates. -/
theorem State.get_count_word (s : State) (b : Nat) {f : Fld} (hf : f.w = 32) :
    (s.count b f).get b f = min (s.get b f + 1) (2 ^ 32 - 1) := by
  rw [State.count, State.get_put_same, hf, satInc]
  exact Nat.mod_eq_of_lt ((Nat.min_le_right _ _).trans_lt (by decide))

/-! ### Events of the link's page -/

/-- An event leaves the other words of the page. -/
theorem Cdl.get_raise (s : State) (n : Nat) {g : Fld} (h : H.IRQ_RAW.apart g = true) :
    (s.raise Cdl.p n).get Cdl.b g = s.get Cdl.b g := State.get_put_apart s Cdl.b _ h

/-- An event that has been raised stays when another is. -/
theorem State.testBit_raise_keeps {s : State} {p n : Nat} (k : Nat) (hn : n < 32)
    (h : (s.get (pg p) H.IRQ_RAW).testBit n = true) : ((s.raise p k).get (pg p) H.IRQ_RAW).testBit n = true := by
  have := State.testBit_raiseIf s true p k hn
  rw [h] at this
  exact this

/-! ### The frame of the link's acts -/

/-- `t` differs from `s` at most in the link beside its registers and in the register words `ws`. -/
structure Cdl.Only (s t : State) (ws : List Nat) : Prop where
  rest : t = { s with regs := t.regs, cdl := t.cdl }
  reg : ∀ a ∉ ws, t.reg a = s.reg a

namespace Cdl.Only

variable {s t u : State} {ws : List Nat}

theorem refl (s : State) (ws : List Nat) : Cdl.Only s s ws := ⟨rfl, fun _ _ => rfl⟩

theorem trans (h : Cdl.Only s t ws) (h' : Cdl.Only t u ws) : Cdl.Only s u ws :=
  ⟨by rw [h'.rest, h.rest], fun a ha => (h'.reg a ha).trans (h.reg a ha)⟩

/-! #### What stands -/

/-- A field of one word that is not among those that may change. -/
theorem get (h : Cdl.Only s t ws) {b : Nat} {f : Fld} (hf : f.words = 1) (hn : b + f.off ∉ ws) : t.get b f = s.get b f :=
  State.get_of_reg hf (h.reg _ hn)

theorem flag (h : Cdl.Only s t ws) {b : Nat} {f : Fld} (hf : f.words = 1) (hn : b + f.off ∉ ws) : t.flag b f = s.flag b f :=
  congrArg (· != 0) (h.get hf hn)

theorem base (h : Cdl.Only s t ws) : t.base = s.base := by rw [h.rest]
theorem mem (h : Cdl.Only s t ws) : t.mem = s.mem := by rw [h.rest]
theorem smpZ (h : Cdl.Only s t ws) : t.smpZ = s.smpZ := by rw [h.rest]
theorem inReset (h : Cdl.Only s t ws) : t.inReset = s.inReset := by rw [h.rest]
theorem stalled (h : Cdl.Only s t ws) : t.stalled = s.stalled := by rw [h.rest]

/-- Where the link is as it was, only registers differ. -/
theorem regsOnly (h : Cdl.Only s t ws) (hc : t.cdl = s.cdl) : s.RegsOnly t ws := by
  refine ⟨?_, h.reg⟩
  conv_lhs => rw [h.rest, hc]
  rw [h.rest]

/-! #### One more update -/

theorem put (h : Cdl.Only s t ws) (b : Nat) (f : Fld) (v : Nat) (hf : f.words = 1) (hw : b + f.off ∈ ws) :
    Cdl.Only s (t.put b f v) ws := by
  refine h.trans ⟨?_, fun a ha => (State.RegsOnly.put t b f v hf).2 a (fun hm => ha (List.mem_singleton.1 hm ▸ hw))⟩
  conv_lhs => rw [State.put_only]
  rw [State.put_cdl]

theorem raise (h : Cdl.Only s t ws) (p n : Nat) (hw : pg p + 0x014 ∈ ws) : Cdl.Only s (t.raise p n) ws := h.put _ _ _ rfl hw

theorem raiseIf (h : Cdl.Only s t ws) (c : Bool) (p n : Nat) (hw : pg p + 0x014 ∈ ws) : Cdl.Only s (t.raiseIf c p n) ws := by
  unfold State.raiseIf
  split
  · exact h.raise p n hw
  · exact h

theorem modCdl (h : Cdl.Only s t ws) (f : CdlSt → CdlSt) : Cdl.Only s (t.modCdl f) ws := h.trans ⟨rfl, fun _ _ => rfl⟩

theorem ite (h : Cdl.Only s t ws) (c : Prop) [Decidable c] (h' : Cdl.Only s u ws) : Cdl.Only s (if c then t else u) ws := by
  split
  · exact h
  · exact h'

end Cdl.Only

/-- An act of the link that also moves its clock: `t` differs from `s` at most in the link, what the array notes, the PLLs, the islands
gated off, and the register words `ws`. -/
structure Cdl.Clocked (s t : State) (ws : List Nat) : Prop where
  rest : t = { s with regs := t.regs, stalled := t.stalled, cdl := t.cdl, arr := t.arr, plls := t.plls }
  reg : ∀ a ∉ ws, t.reg a = s.reg a

namespace Cdl.Clocked

variable {s t u : State} {ws : List Nat}

theorem refl (s : State) (ws : List Nat) : Cdl.Clocked s s ws := ⟨rfl, fun _ _ => rfl⟩

theorem trans (h : Cdl.Clocked s t ws) (h' : Cdl.Clocked t u ws) : Cdl.Clocked s u ws :=
  ⟨by rw [h'.rest, h.rest], fun a ha => (h'.reg a ha).trans (h.reg a ha)⟩

theorem mono {vs : List Nat} (h : Cdl.Clocked s t ws) (hs : ∀ a ∈ ws, a ∈ vs) : Cdl.Clocked s t vs :=
  ⟨h.rest, fun a ha => h.reg a (fun hm => ha (hs a hm))⟩

/-! #### What stands -/

theorem get (h : Cdl.Clocked s t ws) {b : Nat} {f : Fld} (hf : f.words = 1) (hn : b + f.off ∉ ws) : t.get b f = s.get b f :=
  State.get_of_reg hf (h.reg _ hn)

theorem flag (h : Cdl.Clocked s t ws) {b : Nat} {f : Fld} (hf : f.words = 1) (hn : b + f.off ∉ ws) : t.flag b f = s.flag b f :=
  congrArg (· != 0) (h.get hf hn)

theorem base (h : Cdl.Clocked s t ws) : t.base = s.base := by rw [h.rest]
theorem mem (h : Cdl.Clocked s t ws) : t.mem = s.mem := by rw [h.rest]
theorem smpZ (h : Cdl.Clocked s t ws) : t.smpZ = s.smpZ := by rw [h.rest]

theorem quiet (h : Cdl.Clocked s t ws) (hq : s.Quiet) : t.Quiet := by
  rw [h.rest]
  exact hq

/-! #### One more update -/

theorem only (h : Cdl.Clocked s t ws) (h' : Cdl.Only t u ws) : Cdl.Clocked s u ws :=
  h.trans ⟨by rw [h'.rest], h'.reg⟩

theorem put (h : Cdl.Clocked s t ws) (b : Nat) (f : Fld) (v : Nat) (hf : f.words = 1) (hw : b + f.off ∈ ws) :
    Cdl.Clocked s (t.put b f v) ws := h.only ((Cdl.Only.refl t ws).put b f v hf hw)

theorem raise (h : Cdl.Clocked s t ws) (p n : Nat) (hw : pg p + 0x014 ∈ ws) : Cdl.Clocked s (t.raise p n) ws := h.put _ _ _ rfl hw

theorem modCdl (h : Cdl.Clocked s t ws) (f : CdlSt → CdlSt) : Cdl.Clocked s (t.modCdl f) ws := h.trans ⟨rfl, fun _ _ => rfl⟩

theorem setArr (h : Cdl.Clocked s t ws) (a : ArrSt) : Cdl.Clocked s { t with arr := a } ws := h.trans ⟨rfl, fun _ _ => rfl⟩

theorem stall (h : Cdl.Clocked s t ws) (l : List Island) : Cdl.Clocked s (t.stall l) ws := h.trans ⟨rfl, fun _ _ => rfl⟩

theorem modPll (h : Cdl.Clocked s t ws) (k : Nat) (f : PllSt → PllSt) : Cdl.Clocked s (t.modPll k f) ws :=
  h.trans ⟨rfl, fun _ _ => rfl⟩

theorem ite (h : Cdl.Clocked s t ws) (c : Prop) [Decidable c] (h' : Cdl.Clocked s u ws) :
    Cdl.Clocked s (if c then t else u) ws := by
  split
  · exact h
  · exact h'

end Cdl.Clocked

/-- The array notes what the beams rested on: nothing else changes. -/
theorem Arr.changing_only (s : State) : Arr.changing s = { s with arr := (Arr.changing s).arr } := by
  unfold Arr.changing
  dsimp only
  split <;> rfl

@[simp] theorem Arr.changing_cdl (s : State) : (Arr.changing s).cdl = s.cdl := by rw [Arr.changing_only]
@[simp] theorem Arr.changing_regs (s : State) : (Arr.changing s).regs = s.regs := by rw [Arr.changing_only]

theorem Arr.get_changing (s : State) (b : Nat) (f : Fld) : (Arr.changing s).get b f = s.get b f :=
  State.get_congr (Arr.changing_regs s) b f

theorem Cdl.Clocked.changing {s t : State} {ws : List Nat} (h : Cdl.Clocked s t ws) : Cdl.Clocked s (Arr.changing t) ws := by
  rw [Arr.changing_only]
  exact h.setArr _

/-! ### STATE (R157, R177) -/

theorem Cdl.Only.setState {s t : State} {ws : List Nat} (h : Cdl.Only s t ws) (st : Nat) (hstat : Cdl.b + 0x044 ∈ ws)
    (hirq : Cdl.b + 0x014 ∈ ws) : Cdl.Only s (Cdl.setState t st) ws :=
  h.ite _ ((h.put Cdl.b Cdl.CDL_STAT_STATE st rfl hstat).raise Cdl.p 0 hirq)

@[simp] theorem Cdl.setState_cdl (s : State) (st : Nat) : (Cdl.setState s st).cdl = s.cdl := by
  unfold Cdl.setState
  split <;> simp

theorem Cdl.state_setState (s : State) {st : Nat} (h : st < 8) : Cdl.state (Cdl.setState s st) = st := by
  unfold Cdl.setState
  split
  · assumption
  · refine (Cdl.get_raise _ 0 (by decide)).trans ?_
    rw [State.get_put_same]
    exact Nat.mod_eq_of_lt h

/-- A change of STATE leaves the fields apart from it and from the events. -/
theorem Cdl.get_setState (s : State) (st : Nat) {g : Fld} (hstate : Cdl.CDL_STAT_STATE.apart g = true)
    (hirq : H.IRQ_RAW.apart g = true) : (Cdl.setState s st).get Cdl.b g = s.get Cdl.b g := by
  unfold Cdl.setState
  split
  · rfl
  · exact (Cdl.get_raise _ 0 hirq).trans (State.get_put_apart s Cdl.b st hstate)

/-- It keeps the events that have been raised. -/
theorem Cdl.testBit_setState {s : State} (st : Nat) {n : Nat} (hn : n < 32) (h : (s.get Cdl.b H.IRQ_RAW).testBit n = true) :
    ((Cdl.setState s st).get Cdl.b H.IRQ_RAW).testBit n = true := by
  unfold Cdl.setState
  split
  · exact h
  · refine State.testBit_raise_keeps (p := Cdl.p) 0 hn ?_
    exact (congrArg (Nat.testBit · n) (State.get_put_apart s Cdl.b (f := Cdl.CDL_STAT_STATE) (g := H.IRQ_RAW) st (by decide))).trans h

/-! ### Who the module is (R157, R176, R460) -/

theorem State.running_congr {s t : State} (hreset : t.inReset = s.inReset) (hstall : t.stalled = s.stalled) (i : Island) :
    t.running i = s.running i := by
  unfold State.running
  rw [hreset, hstall]

section
variable {s t : State} {ws : List Nat} (h : Cdl.Only s t ws)
include h

/-- EN and CDL_CFG decide whether the module takes part in a link. -/
theorem Cdl.Only.on (hen : Cdl.b + 0x00C ∉ ws) (hcfg : Cdl.b + 0x040 ∉ ws) : Cdl.on t = Cdl.on s := by
  have h1 : t.en Cdl.p = s.en Cdl.p := h.flag rfl hen
  have h2 : Cdl.role t = Cdl.role s := h.get rfl hcfg
  unfold Cdl.on
  rw [h1, h2, State.running_congr h.inReset h.stalled]

theorem Cdl.Only.linked (hen : Cdl.b + 0x00C ∉ ws) (hcfg : Cdl.b + 0x040 ∉ ws) (htest : pg 0x0F0 + Test.TEST_STAT_PRBS_ON.off ∉ ws) :
    Cdl.linked t = Cdl.linked s := by
  unfold Cdl.linked
  rw [h.on hen hcfg, h.flag rfl htest]

theorem Cdl.Only.isHerald (hen : Cdl.b + 0x00C ∉ ws) (hcfg : Cdl.b + 0x040 ∉ ws) (hstate : Cdl.state t = Cdl.state s)
    (hheralds : t.cdl.heralds = s.cdl.heralds) : Cdl.isHerald t = Cdl.isHerald s := by
  have hrole : Cdl.role t = Cdl.role s := h.get rfl hcfg
  unfold Cdl.isHerald
  rw [h.on hen hcfg, hrole, hstate, hheralds]

end

/-! ### Frames on CDL_SYNC_OUT and blocks on the UTX lanes (R162, R163, R165) -/

theorem Cdl.Only.send {s t : State} {ws : List Nat} (h : Cdl.Only s t ws) (type dest src hops payload : Nat) :
    Cdl.Only s (Cdl.send t type dest src hops payload) ws := by
  unfold Cdl.send
  exact h.modCdl _

theorem Cdl.send_cdl (s : State) (type dest src hops payload : Nat) :
    (Cdl.send s type dest src hops payload).cdl =
      { s.cdl with sent := (Cdl.send s type dest src hops payload).cdl.sent } := rfl

/-- The slot and the frames still under way only depend on time, on the count and on the frames sent. -/
theorem Cdl.sent_congr {s t : State} (hbase : t.base = s.base) (hz : t.smpZ = s.smpZ) (hsent : t.cdl.sent = s.cdl.sent)
    (hgsc : t.cdl.gscOfs = s.cdl.gscOfs) (type dest src hops payload : Nat) :
    (Cdl.send t type dest src hops payload).cdl.sent = (Cdl.send s type dest src hops payload).cdl.sent := by
  have hnow : t.now = s.now := congrArg BitVec.toNat hbase
  have hnext : t.nextSample = s.nextSample := by
    unfold State.nextSample State.sampleAfter
    rw [hnow, hz]
  have hcur : t.curSample = s.curSample := by
    unfold State.curSample
    rw [hnow, hz]
  have hfree : Cdl.freeSlot t = Cdl.freeSlot s := by
    unfold Cdl.freeSlot State.gsc
    rw [hsent, hnext, hgsc]
  unfold Cdl.send
  simp only [State.modCdl_cdl]
  rw [hsent, hfree, hcur]

/-- A block of a position, a type and a payload that fits. -/
theorem Cdl.block_eq (s : State) {type payload : Nat} (data : List Nat) (ht : type < 256) (hp : payload < 2 ^ 56) :
    Cdl.block s type payload data = s.modCdl (fun c => { c with blockOut := (type + 2 ^ 8 * payload) :: data }) := by
  unfold Cdl.block
  rw [Nat.mod_eq_of_lt ht, Nat.mod_eq_of_lt hp]
  rfl

/-- A Herald's own frames carry position 0. -/
theorem Cdl.src_herald {s : State} (h : Cdl.isHerald s = true) : Cdl.src s = 0 := if_pos h

/-! ### The exchanges of an alignment (R159) -/

theorem Cdl.Only.ping {s t : State} {ws : List Nat} (h : Cdl.Only s t ws) : Cdl.Only s (Cdl.ping t) ws := by
  unfold Cdl.ping Cdl.originate
  exact (h.send _ _ _ _ _).modCdl _

theorem Cdl.Only.beginAlign {s t : State} {ws : List Nat} (h : Cdl.Only s t ws) : Cdl.Only s (Cdl.beginAlign t) ws := by
  unfold Cdl.beginAlign
  exact (h.modCdl _).ping

/-- A Herald's PING goes to position 1. -/
theorem Cdl.ping_herald {s : State} (h : Cdl.isHerald s = true) :
    Cdl.ping s = s.modCdl (fun c => { c with sent := (Cdl.send s 3 1 0 0 s.cdl.pingSeq).cdl.sent,
                                             pingSeq := (c.pingSeq + 1) % 2 ^ 16 }) := by
  unfold Cdl.ping Cdl.originate
  rw [Cdl.src_herald h]
  rfl

/-- The exchanges that align a Herald's neighbour begin with a PING. -/
theorem Cdl.beginAlign_herald {s : State} (h : Cdl.isHerald s = true) :
    (Cdl.beginAlign s).cdl = { s.cdl with rttSum := 0, rttCnt := 0, tracks := false, pingSeq := (s.cdl.pingSeq + 1) % 2 ^ 16,
                                          sent := (Cdl.send s 3 1 0 0 s.cdl.pingSeq).cdl.sent } := by
  unfold Cdl.beginAlign
  rw [Cdl.ping_herald (s := s.modCdl (fun c => { c with rttSum := 0, rttCnt := 0, tracks := false })) h]
  rfl

end Sys2Proof.Machine
end

section
/-! ## Frames received by a synchronised follower (O27; spec/07 R160, R162 to R164, R168, R175, R177) -/

namespace Sys2Proof.Machine

/-! ### Every frame (R162 to R164) -/

/-- The follower after a good frame, before the frame's own act: the receive monitor, guard 13 and the position have taken it in. -/
def Cdl.heard (s : State) (f : CdlFrame) : State :=
  Cdl.place (((s.modCdl (fun c => { c with crcHist := (false :: c.crcHist).take 1024 })).modCdl
    (fun c => { c with good := if f.gap = 128 then c.good + 1 else 1 })).qualify 13) (f.src.toNat + f.hops.toNat + 1)

/-- A frame that is not for position `pos` goes on with one hop more. -/
def Cdl.passOn (s : State) (type pos : Nat) (f : CdlFrame) : State :=
  if (f.dest.toNat ≤ 7 ∨ f.dest.toNat = 15) ∧ f.dest.toNat ≠ pos ∧ pos < 7 ∧ type < 7 ∧ s.cdl.clkOut ∧ !s.cdl.isolated then
    Cdl.send s type f.dest.toNat f.src.toNat (f.hops.toNat + 1) f.payload.toNat
  else s

/-- The words of STATE, POSITION and of guard 13's STATE. -/
def Cdl.heardWords : List Nat := [Cdl.b + 0x044, pg 0x004 + 0x100 + 0x20 * 13 + GuardG.GD_STAT_STATE.off]

theorem State.qualify_only (s : State) (g : Nat) :
    s.qualify g = { s with regs := (s.qualify g).regs, guards := (s.qualify g).guards } ∧
      ∀ a, a ≠ pg 0x004 + 0x100 + 0x20 * g + GuardG.GD_STAT_STATE.off → (s.qualify g).reg a = s.reg a := by
  unfold State.qualify
  extract_lets b x u
  have hput := State.RegsOnly.put u b GuardG.GD_STAT_STATE 0 rfl
  split
  · refine ⟨?_, fun a ha => hput.2 a (by simpa using ha)⟩
    rw [State.put_only]
  · exact ⟨rfl, fun _ _ => rfl⟩

@[simp] theorem State.qualify_cdl (s : State) (g : Nat) : (s.qualify g).cdl = s.cdl := by rw [(s.qualify_only g).1]

theorem Cdl.state_qualify (s : State) : Cdl.state (s.qualify 13) = Cdl.state s :=
  State.get_of_reg rfl ((State.qualify_only s 13).2 _ (by decide))

theorem Cdl.place_regsOnly (s : State) (pos : Nat) : s.RegsOnly (Cdl.place s pos) [Cdl.b + 0x044] :=
  (State.RegsOnly.put s Cdl.b Cdl.CDL_STAT_POSITION pos rfl).put_then Cdl.b Cdl.CDL_STAT_ARRAY_IGNORED _ rfl (by decide)

@[simp] theorem Cdl.place_cdl (s : State) (pos : Nat) : (Cdl.place s pos).cdl = s.cdl := by
  simp [Cdl.place]

section
variable (s : State) (f : CdlFrame)

theorem Cdl.heard_cdl : (Cdl.heard s f).cdl =
    { s.cdl with good := if f.gap = 128 then s.cdl.good + 1 else 1, crcHist := (false :: s.cdl.crcHist).take 1024 } := by
  simp [Cdl.heard]

theorem Cdl.heard_only : Cdl.heard s f =
    { s with regs := (Cdl.heard s f).regs, cdl := (Cdl.heard s f).cdl, guards := (Cdl.heard s f).guards } := by
  unfold Cdl.heard Cdl.place State.putB
  rw [State.put_only, State.put_only, (State.qualify_only _ 13).1]
  rfl

theorem Cdl.heard_reg {a : Nat} (ha : a ∉ Cdl.heardWords) : (Cdl.heard s f).reg a = s.reg a := by
  simp only [Cdl.heardWords, List.mem_cons, List.not_mem_nil, or_false, not_or] at ha
  refine ((Cdl.place_regsOnly _ _).2 a (by simpa using ha.1)).trans ?_
  exact (State.qualify_only _ 13).2 a ha.2

theorem Cdl.get_heard {b : Nat} {g : Fld} (hg : g.words = 1) (hn : b + g.off ∉ Cdl.heardWords) :
    (Cdl.heard s f).get b g = s.get b g := State.get_of_reg hg (Cdl.heard_reg s f hn)

theorem Cdl.heard_base : (Cdl.heard s f).base = s.base := by rw [Cdl.heard_only]

theorem Cdl.heard_smpZ : (Cdl.heard s f).smpZ = s.smpZ := by rw [Cdl.heard_only]

/-- The state STATE reads as is not the frame's. -/
theorem Cdl.state_heard : Cdl.state (Cdl.heard s f) = Cdl.state s := by
  refine (State.get_put_apart _ Cdl.b _ (by decide)).trans ((State.get_put_apart _ Cdl.b _ (by decide)).trans ?_)
  exact Cdl.state_qualify _

theorem Cdl.pos_heard (h : f.src.toNat + f.hops.toNat < 7) :
    Cdl.pos (Cdl.heard s f) = f.src.toNat + f.hops.toNat + 1 := by
  refine (State.get_put_apart _ Cdl.b _ (by decide)).trans ?_
  rw [State.get_put_same]
  exact Nat.mod_eq_of_lt (show _ < 8 by omega)

theorem Cdl.arrayIgnored_heard : (Cdl.heard s f).flag Cdl.b Cdl.CDL_STAT_ARRAY_IGNORED =
    (s.flag Cdl.b Cdl.CDL_CFG_ARRAY && decide (4 ≤ f.src.toNat + f.hops.toNat + 1)) := by
  have harray (u : State) : (u.qualify 13).flag Cdl.b Cdl.CDL_CFG_ARRAY = u.flag Cdl.b Cdl.CDL_CFG_ARRAY :=
    congrArg (· != 0) (State.get_of_reg rfl ((State.qualify_only u 13).2 _ (by decide)))
  unfold Cdl.heard Cdl.place
  rw [State.flag_putB _ _ _ rfl, harray, State.flag_modCdl, State.flag_modCdl]

end

/-- A good frame at a synchronised follower: it is heard, it acts where it is for the follower, and it goes on. -/
theorem Cdl.receive_good {s : State} (hm : Cdl.Member s) {f : CdlFrame} (hok : f.ok = true) (type : Nat) (act : State → State) :
    Cdl.receive s type f act = Cdl.passOn
      (if f.dest.toNat = f.src.toNat + f.hops.toNat + 1 ∨ f.dest.toNat = 15 then act (Cdl.heard s f) else Cdl.heard s f) type
      (f.src.toNat + f.hops.toNat + 1) f := by
  obtain ⟨hlinked, hrole, hisolated, hsynced, href, hstate, -⟩ := hm
  unfold Cdl.receive
  rw [if_neg (by simp [hlinked, hrole, hisolated, href])]
  extract_lets u pos v w x y z d r
  have hv : Cdl.state v ≠ 0 := by
    rw [Cdl.state_qualify]
    exact hstate
  have hw : w = v := if_neg hv
  have hsync : w.cdl.synced = true := by
    rw [hw, State.qualify_cdl]
    exact hsynced
  have hy : y = v := (if_neg (by simp [hsync])).trans hw
  have hz : z = Cdl.heard s f := by
    simp only [z, hy, v, u, pos, hok, Cdl.heard, Bool.not_true]
  rw [if_neg (by simp [hok]), if_neg (by simp [hy, hw ▸ hsync])]
  simp only [r, hz]
  rfl

/-- A frame with a bad CRC only counts. -/
theorem Cdl.receive_bad {s : State} (hm : Cdl.Member s) {f : CdlFrame} (hok : f.ok = false) (type : Nat) (act : State → State) :
    Cdl.receive s type f act = (s.modCdl (fun c => { c with crcHist := (true :: c.crcHist).take 1024, good := 0 })).count Cdl.b
      Cdl.CRC_ERR_COUNT := by
  obtain ⟨hlinked, hrole, hisolated, -, href, -⟩ := hm
  unfold Cdl.receive
  rw [if_neg (by simp [hlinked, hrole, hisolated, href])]
  extract_lets u
  rw [if_pos (by simp [hok])]
  have hu : u = s.modCdl (fun c => { c with crcHist := (true :: c.crcHist).take 1024 }) := by simp only [u, hok]; rfl
  rw [hu]
  unfold State.count
  rw [State.get_modCdl, State.get_modCdl, State.put_only, State.put_only (State.modCdl _ _)]
  rfl

/-! ### What goes on -/

section
variable (s : State) (type pos : Nat) (f : CdlFrame)

theorem Cdl.passOn_only : Cdl.passOn s type pos f = s.modCdl (fun c => { c with sent := (Cdl.passOn s type pos f).cdl.sent }) := by
  unfold Cdl.passOn
  split <;> rfl

theorem Cdl.passOn_cdl : (Cdl.passOn s type pos f).cdl = { s.cdl with sent := (Cdl.passOn s type pos f).cdl.sent } :=
  congrArg State.cdl (Cdl.passOn_only s type pos f)

@[simp] theorem Cdl.get_passOn (b : Nat) (g : Fld) : (Cdl.passOn s type pos f).get b g = s.get b g := by
  rw [Cdl.passOn_only, State.get_modCdl]

@[simp] theorem Cdl.flag_passOn (b : Nat) (g : Fld) : (Cdl.passOn s type pos f).flag b g = s.flag b g := by
  rw [Cdl.passOn_only, State.flag_modCdl]

theorem Cdl.passOn_base : (Cdl.passOn s type pos f).base = s.base := by rw [Cdl.passOn_only]; rfl

end

/-- After an act that leaves time and what is on its way as they were, the frame goes on as it would have from the state before it. -/
theorem Cdl.sent_passOn {s u : State} (hisolated : u.cdl.isolated = false) (hbase : u.base = s.base) (hz : u.smpZ = s.smpZ)
    (hsent : u.cdl.sent = s.cdl.sent) (hgsc : u.cdl.gscOfs = s.cdl.gscOfs) (hclk : u.cdl.clkOut = s.cdl.clkOut) (type pos : Nat)
    (f : CdlFrame) : (Cdl.passOn u type pos f).cdl.sent = Cdl.forwarded s type pos f := by
  unfold Cdl.passOn Cdl.forwarded
  simp only [hclk, hisolated, Bool.not_false, and_true]
  split
  · exact Cdl.sent_congr hbase hz hsent hgsc _ _ _ _ _
  · exact hsent

/-- An act on the follower that leaves its time and its frames as they were: what then goes on. -/
theorem Cdl.sent_passOn_heard {s u : State} {f : CdlFrame} {ws : List Nat} (hm : Cdl.Member s) (h : Cdl.Only (Cdl.heard s f) u ws)
    (hsent : u.cdl.sent = (Cdl.heard s f).cdl.sent) (hgsc : u.cdl.gscOfs = (Cdl.heard s f).cdl.gscOfs)
    (hclk : u.cdl.clkOut = (Cdl.heard s f).cdl.clkOut) (hisolated : u.cdl.isolated = (Cdl.heard s f).cdl.isolated) (type pos : Nat) :
    (Cdl.passOn u type pos f).cdl.sent = Cdl.forwarded s type pos f := by
  obtain ⟨-, -, hnot, -⟩ := hm
  rw [Cdl.heard_cdl] at hsent hgsc hclk hisolated
  exact Cdl.sent_passOn (hisolated.trans hnot) (h.base.trans (Cdl.heard_base s f)) (h.smpZ.trans (Cdl.heard_smpZ s f)) hsent hgsc hclk _ _ f

end Sys2Proof.Machine
end

section
/-! ## What the frames do (O27; spec/07 R159, R160, R163, R168, R175, R177) -/

namespace Sys2Proof.Machine

/-! ### The count that SET_GSC loads (R160, R161) -/

/-- The count loaded and the time are in `t` what they are in `s`. -/
structure Cdl.CountStands (s t : State) : Prop where
  ofs : t.cdl.gscOfs = s.cdl.gscOfs
  loaded : t.cdl.loaded = s.cdl.loaded
  base : t.base = s.base

namespace Cdl.CountStands

variable {s t u : State}

theorem refl (s : State) : Cdl.CountStands s s := ⟨rfl, rfl, rfl⟩

theorem trans (h : Cdl.CountStands s t) (h' : Cdl.CountStands t u) : Cdl.CountStands s u :=
  ⟨h'.ofs.trans h.ofs, h'.loaded.trans h.loaded, h'.base.trans h.base⟩

theorem same (h : Cdl.CountStands s t) (hc : u.cdl = t.cdl) (hb : u.base = t.base) : Cdl.CountStands s u :=
  h.trans ⟨by rw [hc], by rw [hc], hb⟩

theorem ite (h : Cdl.CountStands s t) (c : Prop) [Decidable c] (h' : Cdl.CountStands s u) :
    Cdl.CountStands s (if c then t else u) := by
  split
  · exact h
  · exact h'

theorem put (h : Cdl.CountStands s t) (b : Nat) (f : Fld) (v : Nat) : Cdl.CountStands s (t.put b f v) :=
  h.same (State.put_cdl _ _ _ _) (State.put_base _ _ _ _)

theorem setState (h : Cdl.CountStands s t) (st : Nat) : Cdl.CountStands s (Cdl.setState t st) := h.ite _ ((h.put _ _ _).put _ _ _)

theorem modCdl (h : Cdl.CountStands s t) {f : CdlSt → CdlSt} (hofs : ∀ c, (f c).gscOfs = c.gscOfs)
    (hloaded : ∀ c, (f c).loaded = c.loaded) : Cdl.CountStands s (t.modCdl f) := h.trans ⟨hofs _, hloaded _, rfl⟩

theorem send (h : Cdl.CountStands s t) (type dest src hops payload : Nat) :
    Cdl.CountStands s (Cdl.send t type dest src hops payload) :=
  h.trans ⟨by rw [Cdl.send_cdl], by rw [Cdl.send_cdl], ((Cdl.Only.refl t []).send _ _ _ _ _).base⟩

theorem beginAlign (h : Cdl.CountStands s t) : Cdl.CountStands s (Cdl.beginAlign t) := by
  unfold Cdl.beginAlign Cdl.ping Cdl.originate
  have hreset := h.modCdl (f := fun c => { c with rttSum := 0, rttCnt := 0, tracks := false }) (fun _ => rfl) (fun _ => rfl)
  exact (hreset.send _ _ _ _ _).modCdl (f := fun c => { c with pingSeq := (c.pingSeq + 1) % 2 ^ 16 }) (fun _ => rfl) (fun _ => rfl)

theorem modCh (h : Cdl.CountStands s t) (i : Nat) (f : Chain → Chain) : Cdl.CountStands s (t.modCh i f) := h.same rfl rfl

theorem modPll (h : Cdl.CountStands s t) (k : Nat) (f : PllSt → PllSt) : Cdl.CountStands s (t.modPll k f) := h.same rfl rfl

theorem stall (h : Cdl.CountStands s t) (l : List Island) : Cdl.CountStands s (t.stall l) := h.same rfl rfl

theorem noteValid (h : Cdl.CountStands s t) : Cdl.CountStands s t.noteValid := by
  unfold State.noteValid
  refine State.each_inv (Cdl.CountStands s) _ _ (fun u i hu => ?_) t h
  dsimp only
  split
  · exact hu
  · exact hu.same rfl rfl

theorem loLost (h : Cdl.CountStands s t) (k : Nat) : Cdl.CountStands s (t.loLost k) := by
  have hgate : Cdl.CountStands s { t with loGateAt := t.loGateAt.setIfInBounds (k - 4) (some t.nextSample) } := h.same rfl rfl
  have hchain (u : State) (i : Nat) (hu : Cdl.CountStands s u) :
      Cdl.CountStands s (if u.en (Rfe.page i) then u.modCh i (fun c => { c with lostLo := true }) else u) := (hu.modCh i _).ite _ hu
  exact Cdl.CountStands.ite (noteValid (hgate.ite _ (State.each_inv (Cdl.CountStands s) _ _ hchain _ hgate))) _ h

theorem gatedChange (h : Cdl.CountStands s t) {k : Nat} (hk : k ≠ 7) : Cdl.CountStands s (t.gatedChange k) := by
  unfold State.gatedChange
  rw [if_neg hk]
  exact (((((h.stall _).put _ _ _).put _ _ _).put _ _ _).modPll _ _).loLost k

theorem settle (h : Cdl.CountStands s t) : Cdl.CountStands s (Cdl.settle t) := by
  unfold Cdl.settle
  extract_lets locked u
  have hdrives : Cdl.CountStands s (t.modCdl (fun c => { c with clkOut := true, smpNext := none })) := h.trans ⟨rfl, rfl, rfl⟩
  have hu : Cdl.CountStands s u := hdrives.setState 5
  exact (hu.beginAlign.ite _ hu).ite _ h

end Cdl.CountStands

theorem Ch.Only.cdl {s t : State} {n : Nat} {ws : List Nat} (h : Ch.Only s t n ws) : t.cdl = s.cdl := by rw [h.rest]
theorem Ch.Only.base {s t : State} {n : Nat} {ws : List Nat} (h : Ch.Only s t n ws) : t.base = s.base := by rw [h.rest]

/-- A load keeps through the intervals that channels end behind it. -/
theorem Cdl.each_loaded {α : Type} (u : State) (o : Nat) (l : List α) (f : State → α → State) (h : ∀ w x, (f w x).cdl = w.cdl)
    (hbase : ∀ w x, (f w x).base = w.base) :
    let v := (u.modCdl (fun c => { c with gscOfs := o, loaded := true, sent := [], smpNext := none })).each l f
    v.cdl.gscOfs = o ∧ v.cdl.loaded = true ∧ v.base = u.base := by
  intro v
  have hcdl : v.cdl = { u.cdl with gscOfs := o, loaded := true, sent := [], smpNext := none } := State.each_keeps State.cdl l f h _
  have hb : v.base = u.base := State.each_keeps State.base l f hbase _
  refine ⟨?_, ?_, hb⟩ <;> rw [hcdl]

/-- The count `g` is loaded at the next sample, to which time runs; channels that run on to it leave both. -/
theorem Cdl.loadGsc_count (s : State) (g : Nat) (feed : List (Nat × List Smp)) :
    (Cdl.loadGsc s g feed).cdl.gscOfs = (g + 2 ^ 48 - s.nextSample % 2 ^ 48) % 2 ^ 48 ∧ (Cdl.loadGsc s g feed).cdl.loaded = true ∧
      (Cdl.loadGsc s g feed).base = (s.runToSample s.nextSample).base := by
  have hrun (w : State) (c m : Nat) (l : List Smp) : Ch.Only w (Ch.runUntil w c m l) c (Ch.words c) :=
    Ch.runUntil_only (Ch.Only.refl w c _) m l
  unfold Cdl.loadGsc
  extract_lets n t nb run at0 u
  have hu : u.base = t.base := State.each_keeps State.base at0 _ (fun w x => (hrun w x.1 n _).base) t
  obtain ⟨hofs, hloaded, hbase⟩ := Cdl.each_loaded u ((g + 2 ^ 48 - n % 2 ^ 48) % 2 ^ 48) at0
    (fun s x => Ch.endInterval (run s x.1 (s.groupStart (s.chn x.1).pos) ((s.chn x.1).pos - x.2)) x.1 true false)
    (fun w x => (Ch.endInterval_only (hrun w x.1 _ _) true false).cdl)
    (fun w x => (Ch.endInterval_only (hrun w x.1 _ _) true false).base)
  exact ⟨hofs, hloaded, hbase.trans hu⟩

/-- With that offset the sample `n` has the count `g`. -/
theorem Cdl.count_of_ofs (n g : Nat) (hg : g < 2 ^ 48) : (n + (g + 2 ^ 48 - n % 2 ^ 48) % 2 ^ 48) % 2 ^ 48 = g := by
  omega

/-- What SET_GSC does behind the load, with the band LOs re-referenced or not, leaves the count (R161). -/
theorem Cdl.CountStands.rereferenced {s t : State} (h : Cdl.CountStands s t) (lo : Bool) :
    Cdl.CountStands s (
      let t := t.modCdl (fun c => { c with loRef := lo })
      let t := if Cdl.state t = 5 then Cdl.setState t 4 else t
      Cdl.settle (if lo then (t.gatedChange 4).gatedChange 5 else t)) := by
  have hlo : Cdl.CountStands s (t.modCdl (fun c => { c with loRef := lo })) := h.trans ⟨rfl, rfl, rfl⟩
  have hst := (hlo.setState 4).ite (Cdl.state (t.modCdl (fun c => { c with loRef := lo })) = 5) hlo
  exact (((hst.gatedChange (by decide)).gatedChange (by decide)).ite _ hst).settle

/-- SET_GSC at a synchronised follower. -/
theorem setGsc_loads {s : State} (hm : Cdl.Member s) {f : CdlFrame} (hok : f.ok = true)
    (hd : f.dest.toNat = 15 ∨ f.dest.toNat = f.src.toNat + f.hops.toNat + 1) (feed : List (Nat × List Smp)) :
    ∃ t, exec (.setGsc ⟨f, feed⟩) s = .next t ∧ t.gsc s.nextSample = f.payload.toNat % 2 ^ 48 ∧ t.cdl.loaded = true ∧
      t.base = (s.runToSample s.nextSample).base := by
  refine ⟨_, congrArg Host.Outcome.next ((Cdl.receive_good hm hok 2 _).trans (congrArg (Cdl.passOn · _ _ _) (if_pos hd.symm))), ?_⟩
  have hnext : (Cdl.heard s f).nextSample = s.nextSample := by
    unfold State.nextSample State.sampleAfter State.now
    rw [Cdl.heard_base, Cdl.heard_smpZ]
  obtain ⟨hofs, hloaded, hbase⟩ := Cdl.loadGsc_count (Cdl.heard s f) (f.payload.toNat % 2 ^ 48) feed
  rw [hnext] at hofs hbase
  rw [State.base_runToSample_congr (Cdl.heard_base s f) (Cdl.heard_smpZ s f)] at hbase
  have hstands := (Cdl.CountStands.refl (Cdl.loadGsc (Cdl.heard s f) (f.payload.toNat % 2 ^ 48) feed)).rereferenced
    ((Cdl.loadGsc (Cdl.heard s f) (f.payload.toNat % 2 ^ 48) feed).flag Cdl.b Cdl.CDL_CFG_ARRAY &&
      decide (Cdl.pos (Cdl.loadGsc (Cdl.heard s f) (f.payload.toNat % 2 ^ 48) feed) ≤ 3))
  refine ⟨?_, ?_, ?_⟩
  · unfold State.gsc
    rw [Cdl.passOn_cdl, hstands.ofs, hofs]
    exact Cdl.count_of_ofs _ _ (Nat.mod_lt _ (by decide))
  · rw [Cdl.passOn_cdl]
    exact hstands.loaded.trans hloaded
  · rw [Cdl.passOn_base]
    exact hstands.base.trans hbase

end Sys2Proof.Machine
end

section
/-! ## The acts of EPOCH, PING, DLL_SET and MSG frames (O27; spec/07 R159, R163, R165, R168, R177, spec/15 R361) -/

namespace Sys2Proof.Machine

/-! ### Signed halfwords and the DLL's range -/

theorem ofSigned_toSigned_halfword (n : Nat) : ofSigned 16 (toSigned 16 n) = n % 2 ^ 16 := by
  unfold ofSigned toSigned
  extract_lets m
  split <;> omega

theorem clampI_range {lo hi : Int} (h : lo ≤ hi) (i : Int) : lo ≤ clampI lo hi i ∧ clampI lo hi i ≤ hi :=
  ⟨le_max_left _ _, max_le h (min_le_left _ _)⟩

/-! ### DLL_CDL moves (R361) -/

/-- The words of DLL_STAT and CDL_DLL, and the events of the CLK1 page. -/
def Cdl.dllWords : List Nat := [Cdl.b + 0x054, pg 0x009 + Clk1.DLL_STAT_CODE.off, pg 0x009 + 0x014]

/-- The code of DLL_CDL after a move by `d` steps. -/
def Cdl.dllCode (s : State) (d : Int) : Nat := (clampI 0 8191 (s.get (pg 0x009) Clk1.DLL_STAT_CODE + d)).toNat

theorem Cdl.dllCode_lt (s : State) (d : Int) : Cdl.dllCode s d < 2 ^ 13 := by
  have := clampI_range (lo := 0) (hi := 8191) (by decide) (s.get (pg 0x009) Clk1.DLL_STAT_CODE + d)
  unfold Cdl.dllCode
  omega

theorem Cdl.moveDll_only (s : State) (d : Int) : Cdl.Only s (Cdl.moveDll s d) Cdl.dllWords := by
  have hset : Cdl.Only s (s.setDll (Cdl.dllCode s d)) Cdl.dllWords :=
    ((Cdl.Only.refl s _).put (pg 0x009) Clk1.DLL_STAT_CODE _ rfl (by simp [Cdl.dllWords])).put (pg 0x048) Cdl.CDL_DLL_CODE _ rfl
      (by simp [Cdl.dllWords, Cdl.b, Cdl.CDL_DLL_CODE])
  have hlimit := (hset.put (pg 0x009) Clk1.DLL_STAT_LIMIT 1 rfl
    (by simp [Cdl.dllWords, Clk1.DLL_STAT_LIMIT, Clk1.DLL_STAT_CODE])).raise 0x009 12 (by simp [Cdl.dllWords])
  exact hlimit.ite _ hset

@[simp] theorem Cdl.moveDll_cdl (s : State) (d : Int) : (Cdl.moveDll s d).cdl = s.cdl := by
  unfold Cdl.moveDll State.setDll
  dsimp only
  split <;> simp

/-- Both registers show the code. -/
theorem Cdl.get_moveDll (s : State) (d : Int) : (Cdl.moveDll s d).get Cdl.b Cdl.CDL_DLL_CODE = Cdl.dllCode s d ∧
    (Cdl.moveDll s d).get (pg 0x009) Clk1.DLL_STAT_CODE = Cdl.dllCode s d := by
  have hset : (s.setDll (Cdl.dllCode s d)).get Cdl.b Cdl.CDL_DLL_CODE = Cdl.dllCode s d ∧
      (s.setDll (Cdl.dllCode s d)).get (pg 0x009) Clk1.DLL_STAT_CODE = Cdl.dllCode s d := by
    refine ⟨(State.get_put_same _ (pg 0x048) _ _).trans (Nat.mod_eq_of_lt (Cdl.dllCode_lt s d)), ?_⟩
    rw [State.setDll, State.get_put_ne _ _ _ _ _ _ (by decide), State.get_put_same]
    exact Nat.mod_eq_of_lt (Cdl.dllCode_lt s d)
  have hlimit (t : State) : ((t.put (pg 0x009) Clk1.DLL_STAT_LIMIT 1).raise 0x009 12).get Cdl.b Cdl.CDL_DLL_CODE =
        t.get Cdl.b Cdl.CDL_DLL_CODE ∧ ((t.put (pg 0x009) Clk1.DLL_STAT_LIMIT 1).raise 0x009 12).get (pg 0x009) Clk1.DLL_STAT_CODE =
        t.get (pg 0x009) Clk1.DLL_STAT_CODE := by
    constructor
    · exact (State.get_put_ne _ _ _ _ _ _ (by decide)).trans (State.get_put_ne _ _ _ _ _ _ (by decide))
    · exact (State.get_put_apart _ _ _ (by decide)).trans (State.get_put_apart _ _ _ (by decide))
  unfold Cdl.moveDll
  dsimp only
  split
  · exact ⟨(hlimit _).1.trans hset.1, (hlimit _).2.trans hset.2⟩
  · exact hset

/-! ### Time at a frame -/

theorem Cdl.nextSample_heard (s : State) (f : CdlFrame) : (Cdl.heard s f).nextSample = s.nextSample := by
  unfold State.nextSample State.sampleAfter State.now
  rw [Cdl.heard_base, Cdl.heard_smpZ]

theorem Cdl.passed_heard (s : State) (f : CdlFrame) (g : Nat) : Cdl.passed (Cdl.heard s f) g = Cdl.passed s g := by
  unfold Cdl.passed State.gsc
  rw [Cdl.nextSample_heard, Cdl.heard_cdl]

theorem Cdl.share_heard (s : State) (f : CdlFrame) :
    (Cdl.heard s f).flag Cdl.b Cdl.CDL_CFG_EPOCH_SHARE = s.flag Cdl.b Cdl.CDL_CFG_EPOCH_SHARE :=
  congrArg (· != 0) (Cdl.get_heard s f rfl (by decide))

/-! ### The frames -/

section

variable {s : State} (hm : Cdl.Member s) {f : CdlFrame} (hok : f.ok = true)
include hm hok

/-- IDLE, and the types that are discarded: the follower has only heard it. -/
theorem Cdl.receive_idle (hpos : f.src.toNat + f.hops.toNat < 7) (type : Nat) :
    let t := Cdl.receive s type f (fun s => s)
    Cdl.pos t = f.src.toNat + f.hops.toNat + 1 ∧
      t.flag Cdl.b Cdl.CDL_STAT_ARRAY_IGNORED = (s.flag Cdl.b Cdl.CDL_CFG_ARRAY && decide (4 ≤ f.src.toNat + f.hops.toNat + 1)) ∧
      Cdl.state t = Cdl.state s ∧ t = { s with regs := t.regs, cdl := t.cdl, guards := t.guards } ∧
      t.cdl = { s.cdl with good := if f.gap = 128 then s.cdl.good + 1 else 1, crcHist := (false :: s.cdl.crcHist).take 1024,
                           sent := Cdl.forwarded s type (f.src.toNat + f.hops.toNat + 1) f } ∧
      ∀ a, a ≠ Cdl.b + 0x044 → a ≠ pg 0x004 + 0x100 + 0x20 * 13 + GuardG.GD_STAT_STATE.off → t.reg a = s.reg a := by
  intro t
  have ht : t = Cdl.passOn (Cdl.heard s f) type (f.src.toNat + f.hops.toNat + 1) f :=
    (Cdl.receive_good hm hok type _).trans (by rw [ite_self])
  have hsent := Cdl.sent_passOn_heard hm (Cdl.Only.refl (Cdl.heard s f) []) rfl rfl rfl rfl type (f.src.toNat + f.hops.toNat + 1)
  clear_value t
  subst ht
  refine ⟨(Cdl.get_passOn _ _ _ _ _ _).trans (Cdl.pos_heard s f hpos), (Cdl.flag_passOn _ _ _ _ _ _).trans (Cdl.arrayIgnored_heard s f),
    (Cdl.get_passOn _ _ _ _ _ _).trans (Cdl.state_heard s f), ?_, ?_, fun a hstat hguard => ?_⟩
  · rw [Cdl.passOn_only, Cdl.heard_only]
    rfl
  · rw [Cdl.passOn_cdl, hsent, Cdl.heard_cdl]
  · rw [Cdl.passOn_only]
    refine Cdl.heard_reg s f ?_
    simp only [Cdl.heardWords, List.mem_cons, List.not_mem_nil, or_false, not_or]
    exact ⟨hstat, hguard⟩

variable (hd : f.dest.toNat = 15 ∨ f.dest.toNat = f.src.toNat + f.hops.toNat + 1)
include hd

/-- A frame for the follower acts on it, and one for all goes on behind that. -/
theorem Cdl.receive_mine (type : Nat) (act : State → State) :
    Cdl.receive s type f act = Cdl.passOn (act (Cdl.heard s f)) type (f.src.toNat + f.hops.toNat + 1) f :=
  (Cdl.receive_good hm hok type act).trans (by rw [if_pos hd.symm])

/-- EPOCH whose count is still to come is scheduled. -/
theorem epoch_scheduled (hshare : s.flag Cdl.b Cdl.CDL_CFG_EPOCH_SHARE = true)
    (hpassed : Cdl.passed s (f.payload.toNat % 2 ^ 48) = false) : ∃ t, exec (.epoch f) s = .next t ∧
      t.cdl.epochs = s.cdl.epochs ++ [(f.payload.toNat % 2 ^ 48, none)] ∧
      t.get Cdl.b Cdl.EPOCH_CNT_COUNT = (s.get Cdl.b Cdl.EPOCH_CNT_COUNT + 1) % 2 ^ 32 ∧
      t.cdl.sent = Cdl.forwarded s 1 (f.src.toNat + f.hops.toNat + 1) f := by
  refine ⟨_, congrArg Host.Outcome.next (Cdl.receive_mine hm hok hd 1 _), ?_⟩
  rw [Cdl.share_heard, hshare, if_neg (by simp), Cdl.passed_heard, hpassed, if_neg (by simp)]
  have honly := (((Cdl.Only.refl (Cdl.heard s f) [Cdl.b + 0x07C]).put Cdl.b Cdl.EPOCH_CNT_COUNT
    ((Cdl.heard s f).get Cdl.b Cdl.EPOCH_CNT_COUNT + 1) rfl (by simp [Cdl.EPOCH_CNT_COUNT])).modCdl
    (fun c => { c with epochs := c.epochs ++ [(f.payload.toNat % 2 ^ 48, none)] }))
  refine ⟨?_, ?_, ?_⟩
  · rw [Cdl.passOn_cdl, State.modCdl_cdl, State.countWrap_cdl, Cdl.heard_cdl]
  · rw [Cdl.get_passOn, State.get_modCdl, State.countWrap, State.get_put_same, Cdl.get_heard s f rfl (by decide)]
    rfl
  · exact Cdl.sent_passOn_heard hm honly (by simp) (by simp) (by simp) (by simp) 1 _

/-- One whose count has passed is late: counted and shown. -/
theorem epoch_late (hshare : s.flag Cdl.b Cdl.CDL_CFG_EPOCH_SHARE = true)
    (hpassed : Cdl.passed s (f.payload.toNat % 2 ^ 48) = true) : ∃ t, exec (.epoch f) s = .next t ∧
      t.cdl.epochs = s.cdl.epochs ∧
      t.get Cdl.b Cdl.EPOCH_LATE_COUNT = min (s.get Cdl.b Cdl.EPOCH_LATE_COUNT + 1) (2 ^ 32 - 1) ∧
      (t.get Cdl.b H.IRQ_RAW).testBit 6 = true := by
  refine ⟨_, congrArg Host.Outcome.next (Cdl.receive_mine hm hok hd 1 _), ?_⟩
  rw [Cdl.share_heard, hshare, if_neg (by simp), Cdl.passed_heard, hpassed, if_pos rfl]
  refine ⟨?_, ?_, ?_⟩
  · rw [Cdl.passOn_cdl, State.raise_cdl, State.count_cdl, Cdl.heard_cdl]
  · rw [Cdl.get_passOn, Cdl.get_raise _ _ (by decide), State.get_count_word _ _ rfl, Cdl.get_heard s f rfl (by decide)]
  · rw [Cdl.get_passOn]
    exact State.testBit_raise_same (p := Cdl.p) _ (by decide)

/-- PING is answered by a PONG block of the position, the low byte of the sequence number and the turnaround. -/
theorem ping_answered (hpos : f.src.toNat + f.hops.toNat < 7) (turn : BitVec 24) : ∃ t, exec (.ping f turn) s = .next t ∧
    t.cdl.sent = Cdl.forwarded s 3 (f.src.toNat + f.hops.toNat + 1) f ∧
    t.cdl.blockOut = [0xA4 + 2 ^ 8 * (f.src.toNat + f.hops.toNat + 1) + 2 ^ 16 * (f.payload.toNat % 256) + 2 ^ 24 * turn.toNat] := by
  refine ⟨_, congrArg Host.Outcome.next (Cdl.receive_mine hm hok hd 3 _), ?_⟩
  have hturn := turn.isLt
  rw [Cdl.pos_heard s f hpos, Cdl.block_eq _ _ (by decide) (by omega)]
  have honly := (Cdl.Only.refl (Cdl.heard s f) []).modCdl (fun c => { c with blockOut := [0xA4 + 2 ^ 8 *
    (f.src.toNat + f.hops.toNat + 1 + 2 ^ 8 * (f.payload.toNat % 256) + 2 ^ 16 * turn.toNat)] })
  refine ⟨Cdl.sent_passOn_heard hm honly (by rw [State.modCdl_cdl]) (by rw [State.modCdl_cdl]) (by rw [State.modCdl_cdl])
    (by rw [State.modCdl_cdl]) 3 _, ?_⟩
  rw [Cdl.passOn_cdl]
  exact congrArg (List.cons · []) (by omega)

/-! #### DLL_SET -/

omit hm hok hd in
/-- DLL_SET at a follower: the code moves by the payload's low halfword, the residual is taken, and one with lanes up is aligned. -/
theorem Cdl.dllSet_act (s : State) (v : Nat) :
    let t := (Cdl.moveDll s (toSigned 16 (v % 2 ^ 16))).putI Cdl.b Cdl.CDL_SKEW_SKEW (toSigned 16 (bitsOf v 32 16))
    let t := t.putI Cdl.b Cdl.CDL_SKEW_SKEW_H (toSigned 16 (bitsOf v 16 16) + toSigned 16 (bitsOf v 32 16))
    let t := if Cdl.state t = 3 then Cdl.setState t 4 else t
    t.get Cdl.b Cdl.CDL_DLL_CODE = Cdl.dllCode s (toSigned 16 (v % 2 ^ 16)) ∧
      t.get (pg 0x009) Clk1.DLL_STAT_CODE = Cdl.dllCode s (toSigned 16 (v % 2 ^ 16)) ∧
      t.get Cdl.b Cdl.CDL_SKEW_SKEW = bitsOf v 32 16 ∧ Cdl.state t = if Cdl.state s = 3 then 4 else Cdl.state s := by
  intro m k t
  obtain ⟨hcdl, hclk⟩ := Cdl.get_moveDll s (toSigned 16 (v % 2 ^ 16))
  have hskew : k.get Cdl.b Cdl.CDL_SKEW_SKEW = bitsOf v 32 16 := by
    refine (State.get_put_apart _ Cdl.b _ (by decide)).trans ((State.get_put_same _ _ _ _).trans ?_)
    change ofSigned 16 (toSigned 16 (bitsOf v 32 16)) % 2 ^ 16 = _
    rw [ofSigned_toSigned_halfword, Nat.mod_mod]
    exact Nat.mod_eq_of_lt (bitsOf_lt v 32 16)
  have hkeep {g : Fld} (hg : Cdl.CDL_SKEW_SKEW.apart g = true) (hg' : Cdl.CDL_SKEW_SKEW_H.apart g = true) :
      k.get Cdl.b g = (Cdl.moveDll s (toSigned 16 (v % 2 ^ 16))).get Cdl.b g :=
    (State.get_put_apart _ Cdl.b _ hg').trans (State.get_put_apart _ Cdl.b _ hg)
  have hcode : k.get Cdl.b Cdl.CDL_DLL_CODE = Cdl.dllCode s (toSigned 16 (v % 2 ^ 16)) := (hkeep (by decide) (by decide)).trans hcdl
  have hstat : k.get (pg 0x009) Clk1.DLL_STAT_CODE = Cdl.dllCode s (toSigned 16 (v % 2 ^ 16)) :=
    (State.get_put_ne _ _ _ _ _ _ (by decide)).trans ((State.get_put_ne _ _ _ _ _ _ (by decide)).trans hclk)
  have hstate : Cdl.state k = Cdl.state s :=
    (hkeep (by decide) (by decide)).trans ((Cdl.moveDll_only s _).get rfl (by decide))
  simp only [t, hstate]
  split
  · have honly := (Cdl.Only.refl k [Cdl.b + 0x044, Cdl.b + 0x014]).setState 4 (by simp) (by simp)
    exact ⟨(honly.get rfl (by decide)).trans hcode, (honly.get rfl (by decide)).trans hstat, (honly.get rfl (by decide)).trans hskew,
      Cdl.state_setState k (by decide)⟩
  · exact ⟨hcode, hstat, hskew, hstate⟩

theorem dllSet_moves : ∃ t, exec (.dllSet f) s = .next t ∧
    t.get Cdl.b Cdl.CDL_DLL_CODE = Cdl.dllCode s (toSigned 16 (f.payload.toNat % 2 ^ 16)) ∧
    t.get (pg 0x009) Clk1.DLL_STAT_CODE = t.get Cdl.b Cdl.CDL_DLL_CODE ∧
    t.get Cdl.b Cdl.CDL_SKEW_SKEW = bitsOf f.payload.toNat 32 16 ∧ Cdl.state t = if Cdl.state s = 3 then 4 else Cdl.state s := by
  refine ⟨_, congrArg Host.Outcome.next (Cdl.receive_mine hm hok hd 4 _), ?_⟩
  obtain ⟨hcode, hstat, hskew, hstate⟩ := Cdl.dllSet_act (Cdl.heard s f) f.payload.toNat
  have hsame : Cdl.dllCode (Cdl.heard s f) (toSigned 16 (f.payload.toNat % 2 ^ 16)) =
      Cdl.dllCode s (toSigned 16 (f.payload.toNat % 2 ^ 16)) := by
    unfold Cdl.dllCode
    rw [Cdl.get_heard s f rfl (by decide)]
  rw [hsame] at hcode hstat
  rw [Cdl.state_heard] at hstate
  refine ⟨(Cdl.get_passOn _ _ _ _ _ _).trans hcode, ?_, (Cdl.get_passOn _ _ _ _ _ _).trans hskew,
    (Cdl.get_passOn _ _ _ _ _ _).trans hstate⟩
  rw [Cdl.get_passOn, Cdl.get_passOn]
  exact hstat.trans hcode.symm

/-! #### MSG -/

omit hm hok hd in
/-- A message is stored and shown; one that arrives before the last has been read sets OVR. -/
theorem Cdl.message_stored (s : State) {src data : Nat} (hsrc : src < 8) (hdata : data < 2 ^ 64) :
    (Cdl.message s src data).get Cdl.b Cdl.MSG_RX_DATA = data ∧ (Cdl.message s src data).get Cdl.b Cdl.MSG_RX_INFO_SRC = src ∧
      (Cdl.message s src data).cdl.msgNew = true ∧ ((Cdl.message s src data).get Cdl.b H.IRQ_RAW).testBit 4 = true ∧
      (s.cdl.msgNew = true → (Cdl.message s src data).flag Cdl.b Cdl.MSG_RX_INFO_OVR = true) := by
  unfold Cdl.message
  refine ⟨?_, ?_, ?_, State.testBit_raise_same (p := Cdl.p) _ (by decide), fun hnew => ?_⟩
  · rw [Cdl.get_raise _ _ (by decide), State.get_modCdl, State.get_put_apart _ _ _ (by decide), State.get_put_same]
    exact Nat.mod_eq_of_lt hdata
  · rw [Cdl.get_raise _ _ (by decide), State.get_modCdl, State.get_put_same]
    exact Nat.mod_eq_of_lt hsrc
  · rw [State.raise_cdl, State.modCdl_cdl]
  · rw [hnew, if_pos rfl, State.flag, Cdl.get_raise _ _ (by decide), State.get_modCdl, State.get_put_apart _ _ _ (by decide),
      State.get_put_apart _ _ _ (by decide), State.get_put_same]
    rfl

theorem msgFrame_stored : ∃ t, exec (.msgFrame f false) s = .next t ∧ t.get Cdl.b Cdl.MSG_RX_DATA = f.payload.toNat ∧
    t.get Cdl.b Cdl.MSG_RX_INFO_SRC = f.src.toNat ∧ t.cdl.msgNew = true ∧ (t.get Cdl.b H.IRQ_RAW).testBit 4 = true ∧
    (s.cdl.msgNew = true → t.flag Cdl.b Cdl.MSG_RX_INFO_OVR = true) := by
  refine ⟨_, congrArg Host.Outcome.next (Cdl.receive_mine hm hok hd 5 _), ?_⟩
  obtain ⟨hdata, hsrc, hnew, hirq, hovr⟩ := Cdl.message_stored (Cdl.heard s f) f.src.isLt f.payload.isLt
  rw [Cdl.get_passOn, Cdl.get_passOn, Cdl.get_passOn, Cdl.flag_passOn, Cdl.passOn_cdl]
  rw [Cdl.heard_cdl] at hovr
  exact ⟨hdata, hsrc, hnew, hirq, hovr⟩

end

end Sys2Proof.Machine
end

section
/-! ## Isolation (what O27, O28 and O30 rest on; spec/07 R175, R176) -/

namespace Sys2Proof.Machine

/-- The words of STATE, POSITION and MEMBERS, and the link's events. -/
def Cdl.isolatedWords : List Nat := [Cdl.b + 0x044, Cdl.b + 0x014]

/-- `t` is `s` with the member isolated on the clock it has. -/
structure Cdl.Isolated (s t : State) : Prop where
  state : Cdl.state t = 6
  cdl : t.cdl = { s.cdl with isolated := true, heralds := Cdl.role s == 2 && s.flag Cdl.b Cdl.CDL_CFG_SUCCEED, synced := false,
                             good := 0, crcHist := [], epochs := [], members := t.cdl.members }
  raised : (t.get Cdl.b H.IRQ_RAW).testBit 8 = true
  keeps : ∀ n < 32, (s.get Cdl.b H.IRQ_RAW).testBit n = true → (t.get Cdl.b H.IRQ_RAW).testBit n = true
  clocked : Cdl.Clocked s t Cdl.isolatedWords

/-- A member that is not isolated and has a role becomes isolated. -/
theorem Cdl.isolate_isolated {s : State} (hstate : Cdl.state s ≠ 6) (hrole : Cdl.role s ≠ 0) :
    Cdl.Isolated s (Cdl.isolate s false) := by
  unfold Cdl.isolate
  extract_lets u v succ w x
  have hu : u = s := rfl
  rw [hu, if_neg (not_or.2 ⟨hstate, hrole⟩)]
  have hv : Cdl.Clocked s v Cdl.isolatedWords := (Cdl.Clocked.refl s _).changing
  have hvget (b : Nat) (g : Fld) : v.get b g = s.get b g := Arr.get_changing s b g
  have hsucc : succ = (Cdl.role s == 2 && s.flag Cdl.b Cdl.CDL_CFG_SUCCEED) := by
    simp only [succ, Cdl.role, State.flag, hvget]
  have hx : Cdl.Clocked s x Cdl.isolatedWords :=
    ((((hv.modCdl _).put Cdl.b Cdl.CDL_STAT_POSITION 0 rfl (by simp [Cdl.isolatedWords, Cdl.CDL_STAT_POSITION])).put
      Cdl.b Cdl.CDL_STAT_MEMBERS 1 rfl (by simp [Cdl.isolatedWords, Cdl.CDL_STAT_MEMBERS])).modCdl _).ite _ (hv.modCdl _)
  have hxcdl : x.cdl = { s.cdl with isolated := true, heralds := Cdl.role s == 2 && s.flag Cdl.b Cdl.CDL_CFG_SUCCEED, synced := false,
                                    good := 0, crcHist := [], epochs := [], members := x.cdl.members } := by
    rw [← hsucc]
    simp only [x, w, v, u]
    split <;> simp
  have hxirq : x.get Cdl.b H.IRQ_RAW = s.get Cdl.b H.IRQ_RAW := by
    simp only [x]
    split
    · rw [State.get_modCdl, State.get_put_apart _ _ _ (by decide), State.get_put_apart _ _ _ (by decide), State.get_modCdl, hvget]
    · rw [State.get_modCdl, hvget]
  refine ⟨?_, ?_, State.testBit_raise_same (p := Cdl.p) _ (by decide), fun n hn h => ?_, ?_⟩
  · exact (Cdl.get_raise _ 8 (by decide)).trans (Cdl.state_setState x (by decide))
  · rw [State.raise_cdl, Cdl.setState_cdl]
    exact hxcdl
  · exact State.testBit_raise_keeps (p := Cdl.p) 8 hn (Cdl.testBit_setState 6 hn (by rwa [hxirq]))
  · exact (hx.only ((Cdl.Only.refl x _).setState 6 (by simp [Cdl.isolatedWords]) (by simp [Cdl.isolatedWords]))).raise Cdl.p 8
      (by simp [Cdl.isolatedWords, Cdl.b, Cdl.p])

end Sys2Proof.Machine
end

section
/-! ## LEAVE and frames with a bad CRC (O27; spec/07 R164, R175) -/

namespace Sys2Proof.Machine

/-- LEAVE isolates a follower, from which nothing then goes on. -/
theorem leave_isolates {s : State} (hm : Cdl.Member s) {f : CdlFrame} (hok : f.ok = true)
    (hd : f.dest.toNat = 15 ∨ f.dest.toNat = f.src.toNat + f.hops.toNat + 1) : ∃ t, exec (.leave f) s = .next t ∧
      Cdl.state t = 6 ∧ t.cdl.isolated = true ∧ t.cdl.epochs = [] ∧ (t.get Cdl.b H.IRQ_RAW).testBit 8 = true := by
  have hmem := hm
  obtain ⟨-, hrole, hisolated, -, -, -, hstate⟩ := hmem
  have hrole' : Cdl.role (Cdl.heard s f) = 2 := (Cdl.get_heard s f rfl (by decide)).trans hrole
  have h := Cdl.isolate_isolated (s := Cdl.heard s f) (by rwa [Cdl.state_heard]) (by simp [hrole'])
  have hexec : exec (.leave f) s = .next (Cdl.receive s 6 f (fun s => Cdl.isolate s false)) := if_neg (by simp [hisolated])
  refine ⟨_, hexec.trans (congrArg Host.Outcome.next (Cdl.receive_mine hm hok hd 6 _)), ?_⟩
  refine ⟨(Cdl.get_passOn _ _ _ _ _ _).trans h.state, ?_, ?_, ?_⟩
  · rw [Cdl.passOn_cdl, h.cdl]
  · rw [Cdl.passOn_cdl, h.cdl]
  · rw [Cdl.get_passOn]
    exact h.raised

/-- A frame of any of the types is received with the act of its type. -/
theorem exec_frame_receive {f : CdlFrame} {r : Option (Fin 9)} {turn : BitVec 24} {feed : List (Nat × List Smp)} {i : Instr} {s : State}
    (hm : Cdl.Member s)
    (hi : i ∈ [Instr.idleFrame ⟨f, r⟩, .epoch f, .setGsc ⟨f, feed⟩, .ping f turn, .dllSet f, .msgFrame f false, .leave f]) :
    ∃ type act, exec i s = .next (Cdl.receive s type f act) := by
  obtain ⟨-, -, hisolated, -⟩ := hm
  simp only [List.mem_cons, List.not_mem_nil, or_false] at hi
  obtain rfl | rfl | rfl | rfl | rfl | rfl | rfl := hi
  · exact ⟨_, _, rfl⟩
  · exact ⟨_, _, rfl⟩
  · exact ⟨_, _, rfl⟩
  · exact ⟨_, _, rfl⟩
  · exact ⟨_, _, rfl⟩
  · exact ⟨_, _, rfl⟩
  · exact ⟨_, _, if_neg (by simp [hisolated])⟩

/-- Settles O27: a good frame is heard, acts and goes on (`Cdl.receive_mine`), with one lemma for each type's act; a bad one counts. -/
theorem linkFramesReceived : Obligations.LinkFramesReceived := by
  unfold Obligations.LinkFramesReceived
  refine ⟨fun f s hm hok hpos => ⟨fun r => ?_, fun hd =>
    ⟨fun hshare => ⟨epoch_scheduled hm hok hd hshare, epoch_late hm hok hd hshare⟩, setGsc_loads hm hok hd, ping_answered hm hok hd hpos, dllSet_moves hm hok hd, msgFrame_stored hm hok hd, leave_isolates hm hok hd⟩⟩,
    fun f r turn feed i s hm hok hi => ?_⟩
  · cases r with
    | none => exact ⟨_, rfl, Cdl.receive_idle hm hok hpos 0⟩
    | some k => exact ⟨_, rfl, Cdl.receive_idle hm hok hpos (7 + k.val)⟩
  · obtain ⟨type, act, hexec⟩ := exec_frame_receive hm hi
    rw [Cdl.receive_bad hm hok] at hexec
    refine ⟨_, hexec, State.get_count_word _ _ rfl, State.count_cdl _ _ _, ?_, fun a ha => ?_⟩
    · rw [State.count, State.put_only]
      rfl
    · exact (State.RegsOnly.put _ Cdl.b Cdl.CRC_ERR_COUNT _ rfl).2 a (by simpa using ha)

end Sys2Proof.Machine
end

section
/-! ## The sample synthesizers and the upstream clock (O28; spec/07 R158, R161, R175) -/

namespace Sys2Proof.Machine

/-- The words of STATE and of the reference of the sample synthesizers. -/
def Cdl.pllWords : List Nat := [Pll.b 2 + 0x004, Pll.b 2 + 0x008, Pll.b 3 + 0x004, Pll.b 3 + 0x008]

/-! ### The reference -/

theorem Cdl.reference_only (s : State) (dll : Bool) : Cdl.Only s (Cdl.reference s dll) Cdl.pllWords := by
  unfold Cdl.reference State.each
  simp only [List.foldl_cons, List.foldl_nil]
  refine Cdl.Only.modCdl ?_ _
  have h2 := ((Cdl.Only.refl s Cdl.pllWords).put (Pll.b 2) Pll.PLL_DIV_N (if dll then 16 else 16368) rfl (by decide)).put (Pll.b 2)
    Pll.PLL_DIV_R (if dll then 1 else 125) rfl (by decide)
  exact (h2.put (Pll.b 3) Pll.PLL_DIV_N _ rfl (by decide)).put (Pll.b 3) Pll.PLL_DIV_R _ rfl (by decide)

theorem Cdl.reference_cdl (s : State) (dll : Bool) : (Cdl.reference s dll).cdl = { s.cdl with dllRef := dll } := by
  simp [Cdl.reference, State.each]

/-! ### Gated changes and glides of the sample synthesizers (R354, R355) -/

theorem State.modPll_cdl (s : State) (k : Nat) (f : PllSt → PllSt) : (s.modPll k f).cdl = s.cdl := rfl

theorem State.stall_cdl (s : State) (l : List Island) : (s.stall l).cdl = s.cdl := rfl

theorem State.get_modPll (s : State) (k : Nat) (f : PllSt → PllSt) (b : Nat) (g : Fld) : (s.modPll k f).get b g = s.get b g :=
  State.get_congr (s := s.modPll k f) (t := s) rfl b g

theorem State.glide_cdl (s : State) (k : Nat) : (s.glide k).cdl = s.cdl := by
  rw [State.glide, State.modPll_cdl, State.put_cdl]

theorem Cdl.Clocked.gatedChange {s t : State} {ws : List Nat} (h : Cdl.Clocked s t ws) {k : Nat} (hk : k = 2 ∨ k = 3)
    (hw : Pll.b k + 0x004 ∈ ws) : Cdl.Clocked s (t.gatedChange k) ws := by
  unfold State.gatedChange State.loLost
  rw [if_neg (by omega), if_neg (by omega)]
  exact ((((h.stall _).put (Pll.b k) Pll.PLL_STAT_GATED 1 rfl hw).put (Pll.b k) Pll.PLL_STAT_FEEDING 0 rfl hw).put (Pll.b k)
    Pll.PLL_STAT_STATE _ rfl hw).modPll k _

theorem State.gatedChange_cdl (s : State) {k : Nat} (hk : k = 2 ∨ k = 3) : (s.gatedChange k).cdl = s.cdl := by
  unfold State.gatedChange State.loLost
  rw [if_neg (by omega), if_neg (by omega)]
  rw [State.modPll_cdl, State.put_cdl, State.put_cdl, State.put_cdl, State.stall_cdl]

theorem State.gated_gatedChange (s : State) {k : Nat} (hk : k = 2 ∨ k = 3) :
    (s.gatedChange k).flag (Pll.b k) Pll.PLL_STAT_GATED = true := by
  unfold State.gatedChange State.loLost
  rw [if_neg (by omega), if_neg (by omega)]
  rw [State.flag, State.get_modPll, State.get_put_apart _ _ _ (by decide), State.get_put_apart _ _ _ (by decide), State.get_put_same]
  rfl

theorem Cdl.Clocked.glide {s t : State} {ws : List Nat} (h : Cdl.Clocked s t ws) {k : Nat} (hw : Pll.b k + 0x004 ∈ ws) :
    Cdl.Clocked s (t.glide k) ws := (h.put (Pll.b k) Pll.PLL_STAT_STATE 4 rfl hw).modPll k _

theorem State.pllState_glide (s : State) (k : Nat) : (s.glide k).pllState k = 4 := by
  rw [State.pllState, State.glide, State.get_modPll, State.get_put_same]
  rfl

/-! ### The upstream clock is taken and left -/

section

variable (s : State)

theorem Cdl.takeClock_clocked : Cdl.Clocked s (Cdl.takeClock s) Cdl.pllWords := by
  have h := (Cdl.Clocked.refl s _).only (Cdl.reference_only s true)
  exact (Cdl.Clocked.refl s _).ite _
    ((h.gatedChange (k := 2) (by decide) (by decide)).gatedChange (k := 3) (by decide) (by decide))

variable {s}

/-- The link takes it, with both sample synthesizers gated. -/
theorem Cdl.takeClock_gated (h : s.cdl.dllRef = false) : (Cdl.takeClock s).cdl = { s.cdl with dllRef := true } ∧
    (Cdl.takeClock s).flag (Pll.b 2) Pll.PLL_STAT_GATED = true ∧ (Cdl.takeClock s).flag (Pll.b 3) Pll.PLL_STAT_GATED = true := by
  unfold Cdl.takeClock
  rw [if_neg (by simp [h])]
  refine ⟨?_, ?_, State.gated_gatedChange _ (by decide)⟩
  · rw [State.gatedChange_cdl _ (by decide), State.gatedChange_cdl _ (by decide), Cdl.reference_cdl]
  · have h3 := (Cdl.Clocked.refl ((Cdl.reference s true).gatedChange 2) [Pll.b 3 + 0x004]).gatedChange (k := 3) (by decide) (by simp)
    exact (h3.flag rfl (by decide)).trans (State.gated_gatedChange _ (by decide))

variable (s)

theorem Cdl.dropClock_clocked : Cdl.Clocked s (Cdl.dropClock s) Cdl.pllWords := by
  have h := (Cdl.Clocked.refl s _).only (Cdl.reference_only s false)
  exact (((h.glide (k := 2) (by decide)).glide (k := 3) (by decide)).modCdl _).ite _ (Cdl.Clocked.refl s _)

theorem Cdl.dropClock_cdl : (Cdl.dropClock s).cdl = { s.cdl with dllRef := false, loRef := s.cdl.loRef && !s.cdl.dllRef } := by
  unfold Cdl.dropClock
  split
  · next h => rw [State.modCdl_cdl, State.glide_cdl, State.glide_cdl, Cdl.reference_cdl, h, Bool.not_true, Bool.and_false]
  · next h => rw [Bool.eq_false_of_not_eq_true h, Bool.not_false, Bool.and_true, ← Bool.eq_false_of_not_eq_true h]

variable {s}

theorem Cdl.dropClock_glides (h : s.cdl.dllRef = true) :
    (Cdl.dropClock s).pllState 2 = 4 ∧ (Cdl.dropClock s).pllState 3 = 4 := by
  unfold Cdl.dropClock
  rw [if_pos h]
  have hget (k : Nat) := State.get_modCdl (((Cdl.reference s false).glide 2).glide 3) (fun c => { c with loRef := false }) (Pll.b k)
    Pll.PLL_STAT_STATE
  have h3 := (Cdl.Clocked.refl ((Cdl.reference s false).glide 2) [Pll.b 3 + 0x004]).glide (k := 3) (by simp)
  exact ⟨(hget 2).trans ((h3.get rfl (by decide)).trans (State.pllState_glide _ 2)), (hget 3).trans (State.pllState_glide _ 3)⟩

end

/-! ### What takes a member off its clock isolates it there -/

/-- The state in which a member becomes isolated: `clock` when it leaves the upstream clock first. -/
def Cdl.leaving (s : State) (clock : Bool) : State := if clock then Cdl.dropClock s else s

theorem Cdl.leaving_clocked (s : State) (clock : Bool) : Cdl.Clocked s (Cdl.leaving s clock) Cdl.pllWords :=
  (Cdl.dropClock_clocked s).ite _ (Cdl.Clocked.refl s _)

theorem Cdl.isolate_leaving {s : State} (hstate : Cdl.state s ≠ 6) (hrole : Cdl.role s ≠ 0) (clock : Bool) :
    Cdl.Isolated (Cdl.leaving s clock) (Cdl.isolate s clock) := by
  have hclocked := Cdl.leaving_clocked s clock
  have h := Cdl.isolate_isolated (s := Cdl.leaving s clock) (fun h => hstate ((hclocked.get rfl (by decide)).symm.trans h))
    (fun h => hrole ((hclocked.get rfl (by decide)).symm.trans h))
  cases clock with
  | false => exact h
  | true => exact h

end Sys2Proof.Machine
end

section
/-! ## The follower's clock and the events that isolate it (O28; spec/07 R158, R164, R175, spec/15 R361) -/

namespace Sys2Proof.Machine

/-! ### DLL_LOCK and DLL_LOST -/

/-- The words of DLL_STAT and CDL_STAT, and the events of the CLK1 page. -/
def Cdl.lineWords : List Nat := [pg 0x009 + 0x050, Cdl.b + 0x044, pg 0x009 + 0x014]

/-- The line shows `v`, with event `n` of the CLK1 page. -/
def State.showLine (s : State) (v n : Nat) : State :=
  (((s.put (pg 0x009) Clk1.DLL_STAT_INPUT v).put (pg 0x009) Clk1.DLL_STAT_DLL_LOCKED v).put (pg 0x048) Cdl.CDL_STAT_DLL_LOCKED v).raise
    0x009 n

theorem State.dllLock_eq (s : State) : s.dllLock = s.showLine 1 10 := rfl

theorem State.dllLost_eq (s : State) : s.dllLost = s.showLine 0 11 := rfl

section

variable (s : State) (v n : Nat)

theorem State.showLine_only : Cdl.Only s (s.showLine v n) Cdl.lineWords :=
  ((((Cdl.Only.refl s _).put (pg 0x009) Clk1.DLL_STAT_INPUT v rfl (by decide)).put (pg 0x009) Clk1.DLL_STAT_DLL_LOCKED v rfl
    (by decide)).put (pg 0x048) Cdl.CDL_STAT_DLL_LOCKED v rfl (by decide)).raise 0x009 n (by decide)

@[simp] theorem State.showLine_cdl : (s.showLine v n).cdl = s.cdl := by simp [State.showLine]

/-- STATE is not the line's. -/
theorem Cdl.state_showLine : Cdl.state (s.showLine v n) = Cdl.state s := by
  refine (State.get_put_ne _ _ _ _ _ _ (by decide)).trans ((State.get_put_apart _ (pg 0x048) _ (by decide)).trans ?_)
  exact (State.get_put_ne _ _ _ _ _ _ (by decide)).trans (State.get_put_ne _ _ _ _ _ _ (by decide))

theorem State.flag_showLine : (s.showLine v n).flag Cdl.b Cdl.CDL_STAT_DLL_LOCKED = (v % 2 != 0) ∧
    (s.showLine v n).flag (pg 0x009) Clk1.DLL_STAT_DLL_LOCKED = (v % 2 != 0) := by
  have hcdl : (s.showLine v n).get Cdl.b Cdl.CDL_STAT_DLL_LOCKED = v % 2 :=
    (State.get_put_ne _ _ _ _ _ _ (by decide)).trans (State.get_put_same _ (pg 0x048) _ _)
  have hclk : (s.showLine v n).get (pg 0x009) Clk1.DLL_STAT_DLL_LOCKED = v % 2 :=
    (State.get_put_apart _ _ _ (by decide)).trans ((State.get_put_ne _ _ _ _ _ _ (by decide)).trans (State.get_put_same _ _ _ _))
  exact ⟨congrArg (· != 0) hcdl, congrArg (· != 0) hclk⟩

theorem State.raised_showLine (hn : n < 32) : ((s.showLine v n).get (pg 0x009) H.IRQ_RAW).testBit n = true :=
  State.testBit_raise_same _ _ hn

end

/-- DLL_LOCK of a follower that is DOWN: the sample synthesizers take the upstream clock. -/
theorem dllLock_takes {s : State} (hlinked : Cdl.linked s = true) (hrole : Cdl.role s = 2) (hstate : Cdl.state s = 0)
    (href : s.cdl.dllRef = false) : ∃ t, exec .dllLock s = .next t ∧ Cdl.state t = 0 ∧ t.cdl.dllRef = true ∧
      t.flag Cdl.b Cdl.CDL_STAT_DLL_LOCKED = true ∧ t.flag (pg 0x009) Clk1.DLL_STAT_DLL_LOCKED = true ∧
      t.flag (Pll.b 2) Pll.PLL_STAT_GATED = true ∧ t.flag (Pll.b 3) Pll.PLL_STAT_GATED = true ∧
      (t.get (pg 0x009) H.IRQ_RAW).testBit 10 = true := by
  have honly := s.showLine_only 1 10
  have hstate' := (Cdl.state_showLine s 1 10).trans hstate
  have hlinked' := (honly.linked (by decide) (by decide) (by decide)).trans hlinked
  have hrole' : Cdl.role (s.showLine 1 10) = 2 := (honly.get rfl (by decide)).trans hrole
  have hexec : exec .dllLock s = .next (Cdl.takeClock (s.showLine 1 10)) := by
    change Host.Outcome.next (if _ then _ else _) = _
    rw [State.dllLock_eq, if_pos (by simp [hlinked', hrole', hstate'])]
  obtain ⟨hcdl, hgated2, hgated3⟩ := Cdl.takeClock_gated (s := s.showLine 1 10) (by rwa [State.showLine_cdl])
  have hclk := Cdl.takeClock_clocked (s.showLine 1 10)
  obtain ⟨hshown, hshown'⟩ := s.flag_showLine 1 10
  refine ⟨_, hexec, (hclk.get rfl (by decide)).trans hstate', by rw [hcdl], (hclk.flag rfl (by decide)).trans hshown,
    (hclk.flag rfl (by decide)).trans hshown', hgated2, hgated3, ?_⟩
  rw [hclk.get rfl (by decide)]
  exact s.raised_showLine 1 10 (by decide)

/-- DLL_LOST: the sample synthesizers glide off the upstream clock. -/
theorem dllLost_drops {s : State} (hin : s.flag (pg 0x009) Clk1.DLL_STAT_INPUT = true) : ∃ t, exec .dllLost s = .next t ∧
    t.flag Cdl.b Cdl.CDL_STAT_DLL_LOCKED = false ∧ (t.get (pg 0x009) H.IRQ_RAW).testBit 11 = true ∧ t.cdl.dllRef = false ∧
    (s.cdl.dllRef = true → t.pllState 2 = 4 ∧ t.pllState 3 = 4) := by
  have hexec : exec .dllLost s = .next (Cdl.dropClock (s.showLine 0 11)) :=
    (if_pos hin).trans (by rw [State.dllLost_eq])
  have hclk := Cdl.dropClock_clocked (s.showLine 0 11)
  refine ⟨_, hexec, (hclk.flag rfl (by decide)).trans (s.flag_showLine 0 11).1, ?_, by rw [Cdl.dropClock_cdl], fun href => ?_⟩
  · rw [hclk.get rfl (by decide)]
    exact s.raised_showLine 0 11 (by decide)
  · exact Cdl.dropClock_glides (by rwa [State.showLine_cdl])

/-! ### CLK_IN_LOSS, SYNC_TIMEOUT and CDL_LEAVE -/

theorem Cdl.on_of_linked {s : State} (h : Cdl.linked s = true) : Cdl.on s = true := (Bool.and_eq_true_iff.1 h).1

section

variable {s : State} (hlinked : Cdl.linked s = true) (hrole : Cdl.role s = 2) (hstate : Cdl.state s ≠ 6)
include hlinked hrole hstate

/-- CLK_IN_LOSS: the follower leaves the upstream clock and is isolated. -/
theorem clkInLoss_isolates : ∃ t, exec .clkInLoss s = .next t ∧ Cdl.state t = 6 ∧ t.cdl.isolated = true ∧ t.cdl.synced = false ∧
    t.cdl.epochs = [] ∧ t.cdl.heralds = s.flag Cdl.b Cdl.CDL_CFG_SUCCEED ∧ t.cdl.dllRef = false ∧
    (s.cdl.dllRef = true → t.pllState 2 = 4 ∧ t.pllState 3 = 4) ∧ (t.get Cdl.b H.IRQ_RAW).testBit 8 = true := by
  have hexec : exec .clkInLoss s = .next (Cdl.isolate s true) :=
    congrArg Host.Outcome.next (if_pos (by simp [Cdl.on_of_linked hlinked, hrole]))
  have h := Cdl.isolate_leaving hstate (by simp [hrole]) true
  have hclk := Cdl.dropClock_clocked s
  have hrole' : Cdl.role (Cdl.leaving s true) = 2 := (hclk.get rfl (by decide)).trans hrole
  have hsucceed : (Cdl.leaving s true).flag Cdl.b Cdl.CDL_CFG_SUCCEED = s.flag Cdl.b Cdl.CDL_CFG_SUCCEED := hclk.flag rfl (by decide)
  have href : (Cdl.leaving s true).cdl.dllRef = false := congrArg CdlSt.dllRef (Cdl.dropClock_cdl s)
  refine ⟨_, hexec, h.state, by rw [h.cdl], by rw [h.cdl], by rw [h.cdl], ?_, ?_, fun hdll => ?_, h.raised⟩
  · rw [h.cdl, hrole', hsucceed]
    rfl
  · rw [h.cdl]
    exact href
  · obtain ⟨h2, h3⟩ := Cdl.dropClock_glides hdll
    exact ⟨(h.clocked.get rfl (by decide)).trans h2, (h.clocked.get rfl (by decide)).trans h3⟩

end

end Sys2Proof.Machine
end

section
/-! ## Commands of the link, and losing SYNC_LOCK (O28 to O30; spec/07 R164, R175, R177) -/

namespace Sys2Proof.Machine

/-! ### A write of CDL_CMD -/

theorem Cdl.page_listed : pageInfo Cdl.p = some (.cdl, 0) ∧ ownerPage Cdl.p = Cdl.p := by decide

/-- CDL_CMD is a word of pulses (R177). -/
theorem Cdl.fields_cmd : Bus.fields .cdl 0 0x060 ≠ [] ∧ (Bus.fields .cdl 0 0x060).all (fun f => f.acc == .rd) = false := by
  decide

/-- A write of CDL_CMD, from the command to its effect. -/
theorem Cmd.write_cdlCmd {s t : State} {req : Req} {v : Nat} (hw : s.Writable req Cdl.p)
    (ht : ∀ store, Cdl.write s req.code 0x060 (v % 2 ^ 32) store = t) (hq : t.Quiet) (hc : t.get Cdl.b H.COUNT = s.get Cdl.b H.COUNT) :
    Cmd.write s req (Cdl.b + 0x060) v = .next (t.answered req []) :=
  Cmd.write_hook hw Cdl.page_listed.1 (by decide) (by decide) (by decide) Cdl.fields_cmd.1 Cdl.fields_cmd.2 
    (ht (Bus.store req.code (ownerPage Cdl.p) (pg Cdl.p + 0x060) (Bus.fields .cdl 0 0x060) (v % 2 ^ 32))) hq hc

/-! ### CDL_LEAVE -/

theorem exec_cdlLeave (req : Req) (s : State) : exec (.cdlLeave req) s = Cmd.write s req (Cdl.b + 0x060) 2 := rfl

/-- LEAVE alone: a member that is isolated already leaves the upstream clock. -/
theorem Cdl.write_leave (s : State) (req : Nat) (store : State → State) :
    Cdl.write s req 0x060 2 store = Cdl.isolate s s.cdl.isolated := rfl

theorem cdlLeave_isolates {req : Req} {s : State} (hrole : Cdl.role s = 2) (hstate : Cdl.state s ≠ 6) (hq : s.Quiet)
    (hw : s.Writable req Cdl.p) : ∃ t, exec (.cdlLeave req) s = .next t ∧ Cdl.state t = 6 ∧ t.cdl.isolated = true ∧
      (t.get Cdl.b H.IRQ_RAW).testBit 8 = true := by
  have h := Cdl.isolate_leaving hstate (by simp [hrole]) s.cdl.isolated
  have hclk := Cdl.leaving_clocked s s.cdl.isolated
  have hcount : (Cdl.isolate s s.cdl.isolated).get Cdl.b H.COUNT = s.get Cdl.b H.COUNT :=
    (h.clocked.get rfl (by decide)).trans (hclk.get rfl (by decide))
  have hexec := (exec_cdlLeave req s).trans
    (Cmd.write_cdlCmd hw (Cdl.write_leave s req.code) (h.clocked.quiet (hclk.quiet hq)) hcount)
  refine ⟨_, hexec, (State.get_answered_req _ _ _ _ _).trans h.state, ?_, ?_⟩
  · exact congrArg CdlSt.isolated h.cdl
  · rw [State.get_answered_req]
    exact h.raised

/-! ### SYNC_TIMEOUT: guard 13 enters TIMEOUT -/

/-- The word of guard 13's state and counts, and the link's events. -/
def Cdl.timeoutWords : List Nat := [Guard.b 13 + 0x014, Cdl.b + 0x014]

/-- The guard with ACTION 2 shows TIMEOUT and raises the link's event. -/
theorem Guard.enter_timeout {s : State} (ha : Guard.action s 13 = 2) : Cdl.Only s (Guard.enter s 13 3) Cdl.timeoutWords ∧
    (Guard.enter s 13 3).cdl = s.cdl ∧ Guard.state (Guard.enter s 13 3) 13 = 3 ∧
    ((Guard.enter s 13 3).get Cdl.b H.IRQ_RAW).testBit 7 = true := by
  have henter : Guard.enter s 13 3 = (((s.put (Guard.b 13) GuardG.GD_STAT_STATE 3).put (Guard.b 13) GuardG.GD_STAT_VIOL 1).count
      (Guard.b 13) GuardG.GD_STAT_COUNT).raise Cdl.p 7 := by
    unfold Guard.enter
    simp only [ha]
    rfl
  rw [henter]
  refine ⟨?_, ?_, ?_, State.testBit_raise_same (p := Cdl.p) _ (by decide)⟩
  · exact ((((Cdl.Only.refl s _).put (Guard.b 13) GuardG.GD_STAT_STATE 3 rfl (by decide)).put (Guard.b 13) GuardG.GD_STAT_VIOL 1 rfl
      (by decide)).put (Guard.b 13) GuardG.GD_STAT_COUNT _ rfl (by decide)).raise Cdl.p 7 (by decide)
  · rw [State.raise_cdl, State.count_cdl, State.put_cdl, State.put_cdl]
  · refine (State.get_put_ne _ _ _ _ _ _ (by decide)).trans ((State.get_put_apart _ _ _ (by decide)).trans ?_)
    rw [State.get_put_apart _ _ _ (by decide), State.get_put_same]
    rfl

theorem Cdl.on_runTo (s : State) (n : Nat) : Cdl.on (s.runTo n) = Cdl.on s := by
  have hen : (s.runTo n).en Cdl.p = s.en Cdl.p := congrArg (· != 0) (State.get_runTo s n _ _)
  have hrole : Cdl.role (s.runTo n) = Cdl.role s := State.get_runTo s n _ _
  have hrun : (s.runTo n).running .arr = s.running .arr :=
    State.running_congr (by rw [State.runTo_only]) (by rw [State.runTo_only]) .arr
  unfold Cdl.on
  rw [hen, hrole, hrun]

theorem exec_syncTimeout {s : State} (htimed : Guard.timed s 13 = true) : exec .syncTimeout s =
    .next (Cdl.syncLoss (Guard.enter (s.runTo ((Guard.st s 13).qual + Guard.span s 13)) 13 3)) :=
  congrArg Host.Outcome.next (if_neg (by simp [htimed]))

/-- SYNC_TIMEOUT: the guard is in TIMEOUT, and the member is isolated at the end of the time. -/
theorem syncTimeout_isolates {s : State} (hrole : Cdl.role s = 2) (hstate : Cdl.state s ≠ 6) (htimed : Guard.timed s 13 = true)
    (ha : Guard.action s 13 = 2) : ∃ t, exec .syncTimeout s = .next t ∧ Cdl.state t = 6 ∧ t.cdl.isolated = true ∧
      Guard.state t 13 = 3 ∧ t.base = (s.runTo ((Guard.st s 13).qual + Guard.span s 13)).base ∧
      (t.get Cdl.b H.IRQ_RAW).testBit 7 = true := by
  generalize hn : (Guard.st s 13).qual + Guard.span s 13 = n
  have hsynced : Cdl.on s = true ∧ s.cdl.synced = true := by
    have h := (Bool.and_eq_true_iff.1 htimed).2
    rwa [if_pos rfl, Bool.and_eq_true_iff] at h
  obtain ⟨honly, hcdl, htimeout, hirq⟩ := Guard.enter_timeout (s := s.runTo n) ((State.get_runTo s n _ _).trans ha)
  generalize hu : Guard.enter (s.runTo n) 13 3 = u at honly hcdl htimeout hirq
  have hon : Cdl.on u = true := (honly.on (by decide) (by decide)).trans ((Cdl.on_runTo s n).trans hsynced.1)
  have hrole' : Cdl.role u = 2 := (honly.get rfl (by decide)).trans ((State.get_runTo s n _ _).trans hrole)
  have hstate' : Cdl.state u ≠ 6 := fun h =>
    hstate ((State.get_runTo s n _ _).symm.trans ((honly.get rfl (by decide)).symm.trans h))
  have hsynced' : u.cdl.synced = true := by
    rw [hcdl, State.runTo_only]
    exact hsynced.2
  have hexec : exec .syncTimeout s = .next (Cdl.isolate u false) := by
    rw [exec_syncTimeout htimed, hn, hu, Cdl.syncLoss, if_neg (by simp [hon, hrole', hsynced'])]
  have h := Cdl.isolate_isolated hstate' (by simp [hrole'])
  refine ⟨_, hexec, h.state, by rw [h.cdl], (h.clocked.get rfl (by decide)).trans htimeout, ?_, h.keeps 7 (by decide) hirq⟩
  exact h.clocked.base.trans honly.base

end Sys2Proof.Machine
end

section
/-! ## The follower's lanes, STATUS and samples (O28; spec/07 R159, R165, R166) -/

namespace Sys2Proof.Machine

/-! ### LANES_UP and DLL_TRACK -/

/-- LANES_UP of the own lanes. -/
theorem lanesUp_up {s : State} (hlinked : Cdl.linked s = true) (hstate : Cdl.state s = 2) :
    ∃ t, exec (.lanesUp .up) s = .next t ∧ Cdl.state t = 3 ∧ s.RegsOnly t [Cdl.b + 0x044, Cdl.b + 0x014] := by
  have hexec : exec (.lanesUp .up) s = .next (Cdl.setState s 3) :=
    (if_neg (by simp [hlinked])).trans (congrArg Host.Outcome.next (if_pos hstate))
  exact ⟨_, hexec, Cdl.state_setState s (by decide),
    ((Cdl.Only.refl s _).setState 3 (by simp) (by simp)).regsOnly (Cdl.setState_cdl s 3)⟩

/-- DLL_TRACK of a follower that is aligned and has no neighbour to track. -/
theorem dllTrack_moves {s : State} (hlinked : Cdl.linked s = true) (hrole : Cdl.role s = 2)
    (hstate : Cdl.state s = 4 ∨ Cdl.state s = 5) (htracks : s.cdl.tracks = false) (step : Int) :
    ∃ t, exec (.dllTrack step) s = .next t ∧ t.get Cdl.b Cdl.CDL_DLL_CODE = Cdl.dllCode s (clampI (-1) 1 step) ∧
      s.RegsOnly t Cdl.dllWords := by
  have hexec : exec (.dllTrack step) s = .next (Cdl.moveDll s (clampI (-1) 1 step)) := by
    change execDllTrack step s = _
    unfold execDllTrack
    have hfollows : (Cdl.role s == 2 && (Cdl.state s == 4 || Cdl.state s == 5)) = true := by simpa [hrole] using hstate
    rw [if_neg (by simp [hlinked]), hfollows, if_pos rfl]
    exact congrArg Host.Outcome.next (if_neg (by simp [htracks]))
  exact ⟨_, hexec, (Cdl.get_moveDll s _).1, (Cdl.moveDll_only s _).regsOnly (Cdl.moveDll_cdl s _)⟩

/-! ### STATUS blocks -/

theorem State.runTo_cdl (s : State) (n : Nat) : (s.runTo n).cdl = s.cdl := by rw [State.runTo_only]

theorem State.runToSample_cdl (s : State) (n : Nat) : (s.runToSample n).cdl = s.cdl := State.runTo_cdl s _

theorem b2n_le (b : Bool) : b2n b ≤ 1 := by cases b <;> decide

/-- The chains' four bits of SAMPLE_VALID. -/
theorem Cdl.ownValid_lt (s : State) : Cdl.ownValid s < 16 := by
  have h (i : Nat) := b2n_le (Rfe.sampleValid s i)
  have h0 := h 0
  have h1 := h 1
  have h2 := h 2
  have h3 := h 3
  unfold Cdl.ownValid
  simp only [List.range_succ_eq_map, List.range_zero, List.map_cons, List.map_nil, List.sum_cons, List.sum_nil]
  norm_num
  omega

theorem Cdl.pos_lt (s : State) : Cdl.pos s < 8 := State.get_lt s Cdl.b Cdl.CDL_STAT_POSITION

/-- The payload of a STATUS block fits its field. -/
theorem Cdl.status_lt {pos state iso sends valid : Nat} (hpos : pos < 8) (hstate : state < 8) (hiso : iso ≤ 1) (hsends : sends ≤ 1)
    (hvalid : valid < 16) : pos + 8 * state + 64 * iso + 128 * sends + 256 * valid < 2 ^ 56 := by
  omega

/-- STATUS_SEND of a READY follower: its STATUS block, at the tick. -/
theorem exec_statusSend_ready {s : State} (hlinked : Cdl.linked s = true) (hrole : Cdl.role s = 2) (hstate : Cdl.state s = 5)
    (due : BitVec 64) : let r := s.runTo due.toNat
    exec (.statusSend due) s = .next (r.modCdl (fun c => { c with blockOut := [0xA3 + 2 ^ 8 * (Cdl.pos s + 8 * 5 +
      64 * b2n s.cdl.isolated + 128 * b2n (Cdl.sends r) + 256 * Cdl.ownValid r)] })) := by
  intro r
  have hrstate : Cdl.state r = 5 := (State.get_runTo s _ _ _).trans hstate
  have hrpos : Cdl.pos r = Cdl.pos s := State.get_runTo s _ _ _
  have hriso : r.cdl.isolated = s.cdl.isolated := congrArg CdlSt.isolated (State.runTo_cdl s _)
  have hsettle : Cdl.settle r = r := if_neg (by simp [hrstate])
  change execStatusSend due s = _
  unfold execStatusSend
  rw [if_neg (by simp [hlinked, hrole])]
  dsimp only
  rw [show s.runTo due.toNat = r from rfl, hsettle, hrpos, hrstate, hriso, Cdl.block_eq _ _ (by decide)
    (Cdl.status_lt (Cdl.pos_lt s) (by decide) (b2n_le _) (b2n_le _) (Cdl.ownValid_lt r))]

/-! ### Sample frames -/

/-- A sample frame goes out as a header and 32 data blocks. -/
theorem Cdl.sampleBlock (s : State) {pos gsc : Nat} (hpos : pos < 8) (hgsc : gsc < 2 ^ 48) (w : Nat → Nat) :
    ∃ l, Cdl.block s 0xA2 (pos + 8 * gsc) ((List.range 32).map w) = s.modCdl (fun c => { c with blockOut := l }) ∧
      l.head? = some (0xA2 + 2 ^ 8 * (pos + 8 * gsc)) ∧ l.length = 33 :=
  ⟨_, Cdl.block_eq s _ (by decide) (by omega), rfl, by simp⟩

theorem State.gsc_lt (s : State) (n : Nat) : s.gsc n < 2 ^ 48 := Nat.mod_lt _ (by decide)

section

variable {s : State} {n : Nat} (hn : s.nextSample + (64 - s.gsc s.nextSample % 64) % 64 = n)
include hn

/-- SAMPLE_FRAME_SEND of a follower that has sent none begins at the next multiple of 64. -/
theorem exec_sampleFrameSend_first (hsends : Cdl.sends s = true) (hnext : s.cdl.smpNext = none) (rows : List (List (Int × Int))) :
    ∃ w, exec (.sampleFrameSend rows) s = .next ((Cdl.block (s.runToSample (n + 63)) 0xA2 (Cdl.pos s + 8 * s.gsc n)
      ((List.range 32).map w)).modCdl (fun c => { c with smpNext := some (n + 64) })) := by
  have hpos : Cdl.pos (s.runToSample (n + 63)) = Cdl.pos s := State.get_congr (State.regs_runToSample s _) _ _
  have hgsc : (s.runToSample (n + 63)).gsc n = s.gsc n := by rw [State.gsc, State.runToSample_cdl, State.gsc]
  change ∃ w, execSampleFrameSend rows s = _
  unfold execSampleFrameSend
  rw [if_neg (by simp [hsends]), ← hpos, ← hgsc]
  simp only [hnext, hn]
  exact ⟨_, rfl⟩

/-- That frame, and the next one follows on. -/
theorem sampleFrameSend_first (hsends : Cdl.sends s = true) (hnext : s.cdl.smpNext = none) (rows : List (List (Int × Int))) :
    ∃ t h, exec (.sampleFrameSend rows) s = .next t ∧ t.base = (s.runToSample (n + 63)).base ∧ t.regs = s.regs ∧ t.mem = s.mem ∧
      t.cdl.blockOut.head? = some h ∧ h = 0xA2 + 2 ^ 8 * (Cdl.pos s + 8 * s.gsc n) ∧ t.cdl.blockOut.length = 33 ∧
      t.cdl.smpNext = some (n + 64) := by
  obtain ⟨w, hexec⟩ := exec_sampleFrameSend_first hn hsends hnext rows
  obtain ⟨l, hblock, hhead, hlength⟩ := Cdl.sampleBlock (s.runToSample (n + 63)) (Cdl.pos_lt s) (State.gsc_lt s n) w
  rw [hblock] at hexec
  refine ⟨_, _, hexec, ?_, ?_, ?_, hhead, rfl, hlength, rfl⟩
  · rw [State.modCdl_base, State.modCdl_base]
  · rw [State.modCdl_regs, State.modCdl_regs, State.regs_runToSample]
  · rw [State.modCdl_mem, State.modCdl_mem, State.runToSample_mem]

end

/-! ### Blocks from downstream -/

section

variable {s : State} (hlanes : Cdl.lanes s = true) (pos : Fin 8)
include hlanes

/-- A bad block counts. -/
theorem exec_badBlock {seq : BitVec 8} {turn : BitVec 24} {elapsed : Nat} {st : BitVec 3} {iso sends : Bool} {valid : BitVec 4}
    {gsc : BitVec 48} {data : List (BitVec 8)} {i : Instr}
    (hi : i ∈ [Instr.statusBlock ⟨pos, false⟩ st iso sends valid, .pong ⟨pos, false⟩ seq turn elapsed,
      .sampleFrame ⟨pos, false⟩ gsc data]) : exec i s = .next (s.count Cdl.b Cdl.BLK_ERR_COUNT) := by
  have hopen : ¬ (!Cdl.lanes s) = true := by simp [hlanes]
  simp only [List.mem_cons, List.not_mem_nil, or_false] at hi
  obtain rfl | rfl | rfl := hi
  · exact (if_neg hopen).trans (if_pos rfl)
  · exact (if_neg hopen).trans (if_pos rfl)
  · exact (if_neg hopen).trans (if_pos rfl)

variable (hherald : Cdl.isHerald s = false)
include hherald

/-- A follower forwards a STATUS block unchanged. -/
theorem exec_statusBlock_forwards (st : BitVec 3) (iso sends : Bool) (valid : BitVec 4) :
    exec (.statusBlock ⟨pos, true⟩ st iso sends valid) s = .next (s.modCdl (fun c => { c with blockOut := [0xA3 + 2 ^ 8 * (pos.val +
      8 * st.toNat + 64 * b2n iso + 128 * b2n sends + 256 * valid.toNat)] })) := by
  change execStatusBlock _ _ _ _ _ s = _
  unfold execStatusBlock
  rw [if_neg (by simp [hlanes]), if_neg (by simp), if_pos (by simp [hherald]), Cdl.block_eq _ _ (by decide)
    (Cdl.status_lt pos.isLt st.isLt (b2n_le _) (b2n_le _) valid.isLt)]

/-- A PONG block of another member too. -/
theorem exec_pong_forwards (hpos : pos.val ≠ Cdl.pos s + 1) (seq : BitVec 8) (turn : BitVec 24) (elapsed : Nat) :
    exec (.pong ⟨pos, true⟩ seq turn elapsed) s = .next (s.modCdl (fun c => { c with blockOut := [0xA4 + 2 ^ 8 * (pos.val +
      2 ^ 8 * seq.toNat + 2 ^ 16 * turn.toNat)] })) := by
  have hsrc : Cdl.src s = Cdl.pos s := if_neg (by simp [hherald])
  have hseq := seq.isLt
  have hturn := turn.isLt
  change execPong _ _ _ _ s = _
  unfold execPong
  rw [if_neg (by simp [hlanes]), if_neg (by simp), if_pos (by simp [hherald, hsrc, hpos]), Cdl.block_eq _ _ (by decide) (by omega)]

/-- A sample frame too. -/
theorem sampleFrame_forwards (gsc : BitVec 48) (data : List (BitVec 8)) :
    ∃ t, exec (.sampleFrame ⟨pos, true⟩ gsc data) s = .next t ∧ t.cdl.blockOut.length = 33 ∧
      t.cdl.blockOut.head? = some (0xA2 + 2 ^ 8 * (pos.val + 8 * gsc.toNat)) ∧ t = { s with cdl := t.cdl } := by
  have hexec : ∃ w, exec (.sampleFrame ⟨pos, true⟩ gsc data) s =
      .next (Cdl.block s 0xA2 (pos.val + 8 * gsc.toNat) ((List.range 32).map w)) := by
    change ∃ w, execSampleFrame _ _ _ s = _
    unfold execSampleFrame
    rw [if_neg (by simp [hlanes]), if_neg (by simp), if_pos (by simp [hherald])]
    exact ⟨_, rfl⟩
  obtain ⟨w, hexec⟩ := hexec
  obtain ⟨l, hblock, hhead, hlength⟩ := Cdl.sampleBlock s pos.isLt gsc.isLt w
  rw [hblock] at hexec
  exact ⟨_, hexec, hlength, hhead, rfl⟩

end

/-- Settles O28: the clock is taken and left as `Cdl.takeClock` and `Cdl.dropClock` do, what isolates ends in `Cdl.Isolated`, and what
the follower sends or forwards is one block. -/
theorem followerLink : Obligations.FollowerLink := by
  unfold Obligations.FollowerLink
  refine ⟨fun s hlinked hrole => ⟨dllLock_takes hlinked hrole, dllLost_drops, clkInLoss_isolates hlinked hrole,
    syncTimeout_isolates hrole, fun req hstate hq hw => cdlLeave_isolates hrole hstate hq hw, lanesUp_up hlinked,
    fun step hstate htracks => dllTrack_moves hlinked hrole hstate htracks step,
    fun due hstate => exec_statusSend_ready hlinked hrole hstate due,
    fun rows hsends hnext => sampleFrameSend_first rfl hsends hnext rows⟩, ?_⟩
  intro pos seq turn elapsed st iso sends valid gsc data s hlanes
  exact ⟨fun hherald => ⟨exec_statusBlock_forwards hlanes pos hherald st iso sends valid,
    fun hpos => exec_pong_forwards hlanes pos hherald hpos seq turn elapsed, sampleFrame_forwards hlanes pos hherald gsc data⟩,
    fun i hi => exec_badBlock hlanes pos hi⟩

end Sys2Proof.Machine
end

section
/-! ## A Herald's exchanges with its neighbour (O29; spec/07 R159, R160, R163, R165, R177) -/

namespace Sys2Proof.Machine

/-! ### Slots on CDL_SYNC_OUT (R162, R163) -/

theorem le_foldl_max (l : List Nat) (a : Nat) : a ≤ l.foldl max a ∧ ∀ x ∈ l, x ≤ l.foldl max a := by
  induction l generalizing a with
  | nil => simp
  | cons y l ih =>
    obtain ⟨hinit, hmem⟩ := ih (max a y)
    refine ⟨(le_max_left a y).trans hinit, fun x hx => ?_⟩
    obtain rfl | hx := List.mem_cons.1 hx
    · exact (le_max_right a x).trans hinit
    · exact hmem x hx

/-- A free slot begins at the next sample or later, and behind every frame on its way. -/
theorem Cdl.freeSlot_ge (s : State) : s.nextSample ≤ Cdl.freeSlot s ∧ ∀ f ∈ s.cdl.sent, f.1 + 128 ≤ Cdl.freeSlot s := by
  obtain ⟨hinit, hmem⟩ := le_foldl_max (s.cdl.sent.map (fun f => f.1 + 128)) s.nextSample
  unfold Cdl.freeSlot
  exact ⟨hinit.trans (Nat.le_add_right _ _), fun f hf => (hmem _ (List.mem_map_of_mem hf)).trans (Nat.le_add_right _ _)⟩

theorem State.nextSample_eq (s : State) : s.nextSample = s.curSample + 1 := rfl

theorem Cdl.sent_send (s : State) (type dest src hops payload : Nat) : (Cdl.send s type dest src hops payload).cdl.sent =
    s.cdl.sent.filter (fun f => decide (s.curSample < f.1 + 128)) ++ [(Cdl.freeSlot s, Cdl.frame type dest src hops payload)] := rfl

theorem State.curSample_congr {s t : State} (hbase : t.base = s.base) (hz : t.smpZ = s.smpZ) : t.curSample = s.curSample := by
  unfold State.curSample State.now
  rw [hbase, hz]

theorem Cdl.curSample_send (s : State) (type dest src hops payload : Nat) :
    (Cdl.send s type dest src hops payload).curSample = s.curSample := by
  have h := (Cdl.Only.refl s []).send type dest src hops payload
  exact State.curSample_congr h.base h.smpZ

/-- Two frames sent one behind the other: the second follows the first by a slot at least. -/
theorem Cdl.sent_send_send (s : State) (type dest src hops payload type' dest' src' hops' payload' : Nat) :
    ∃ x y, (Cdl.send (Cdl.send s type dest src hops payload) type' dest' src' hops' payload').cdl.sent =
      s.cdl.sent.filter (fun f => decide (s.curSample < f.1 + 128)) ++ [x, y] ∧ x.1 + 128 ≤ y.1 := by
  have hslot := (Cdl.freeSlot_ge s).1
  have hsent := Cdl.sent_send s type dest src hops payload
  refine ⟨(Cdl.freeSlot s, Cdl.frame type dest src hops payload), (Cdl.freeSlot (Cdl.send s type dest src hops payload),
    Cdl.frame type' dest' src' hops' payload'), ?_,
    (Cdl.freeSlot_ge (Cdl.send s type dest src hops payload)).2 _ ?_⟩
  · rw [Cdl.sent_send, Cdl.curSample_send, hsent, List.filter_append, List.filter_filter]
    simp only [Bool.and_self]
    have hnew : s.curSample < Cdl.freeSlot s + 128 := by
      rw [State.nextSample_eq] at hslot
      omega
    rw [List.filter_singleton, decide_eq_true hnew, cond_true, List.append_assoc]
    rfl
  · rw [hsent]
    exact List.mem_append_right _ (List.mem_singleton_self _)

/-! ### The Herald -/

theorem State.modCdl_congr {s : State} {f g : CdlSt → CdlSt} (h : f s.cdl = g s.cdl) : s.modCdl f = s.modCdl g := by
  unfold State.modCdl
  rw [h]

theorem State.modCdl_modCdl (s : State) (f g : CdlSt → CdlSt) : (s.modCdl f).modCdl g = s.modCdl (fun c => g (f c)) := rfl

/-- A Herald whose downstream lanes are locked takes blocks from them. -/
theorem Cdl.Leads.parts {s : State} (h : Cdl.Leads s) :
    Cdl.on s = true ∧ Cdl.isHerald s = true ∧ Cdl.lanes s = true ∧ Cdl.src s = 0 := by
  obtain ⟨hlinked, hrole, hstate, hlanes⟩ := h
  have hon := Cdl.on_of_linked hlinked
  have hherald : Cdl.isHerald s = true := by simp [Cdl.isHerald, hon, hrole, hstate]
  exact ⟨hon, hherald, by simp [Cdl.lanes, hlinked, hlanes], Cdl.src_herald hherald⟩

/-! ### PONG -/

section

variable {s : State} (hs : Cdl.Leads s) {seq : BitVec 8} (hseq : seq.toNat = (s.cdl.pingSeq + 255) % 256)
  (htracks : s.cdl.tracks = false)
include hs hseq htracks

/-- The PONG that the Herald waits for adds its round trip. -/
theorem exec_pong_expected (turn : BitVec 24) (elapsed : Nat) : exec (.pong ⟨1, true⟩ seq turn elapsed) s = .next
    (if s.cdl.rttCnt + 1 = 256 then Cdl.aligned s (s.cdl.rttSum + ((elapsed : Int) - turn.toNat))
     else Cdl.ping (s.modCdl (fun c => { c with rttSum := s.cdl.rttSum + ((elapsed : Int) - turn.toNat),
                                                rttCnt := s.cdl.rttCnt + 1 }))) := by
  obtain ⟨-, -, hlanes, hsrc⟩ := hs.parts
  change execPong _ _ _ _ s = _
  unfold execPong
  rw [if_neg (by simp [hlanes]), if_neg (by simp), if_neg (by simp [hsrc]), if_neg (by simp [hsrc, hseq, htracks])]
  dsimp only
  split <;> rfl

/-- It is followed by the next PING. -/
theorem pong_next (turn : BitVec 24) (elapsed : Nat) (hn : s.cdl.rttCnt + 1 ≠ 256) :
    ∃ t, exec (.pong ⟨1, true⟩ seq turn elapsed) s = .next t ∧
      t = s.modCdl (fun c => { c with rttSum := c.rttSum + ((elapsed : Int) - turn.toNat), rttCnt := c.rttCnt + 1,
                                      pingSeq := (c.pingSeq + 1) % 2 ^ 16,
                                      sent := (Cdl.send s 3 1 0 0 s.cdl.pingSeq).cdl.sent }) := by
  obtain ⟨-, hherald, -, -⟩ := hs.parts
  have hexec := exec_pong_expected hs hseq htracks turn elapsed
  rw [if_neg hn] at hexec
  refine ⟨_, hexec, ?_⟩
  generalize hu : s.modCdl (fun c => { c with rttSum := s.cdl.rttSum + ((elapsed : Int) - turn.toNat),
                                              rttCnt := s.cdl.rttCnt + 1 }) = u
  have honly : Cdl.Only s u [] := hu ▸ (Cdl.Only.refl s []).modCdl _
  have hcdl : u.cdl = { s.cdl with rttSum := s.cdl.rttSum + ((elapsed : Int) - turn.toNat), rttCnt := s.cdl.rttCnt + 1 } := by
    rw [← hu, State.modCdl_cdl]
  have hherald' : Cdl.isHerald u = true :=
    (honly.isHerald (by simp) (by simp) (honly.get rfl (by simp)) (by rw [hcdl])).trans hherald
  have hsent := Cdl.sent_congr honly.base honly.smpZ (by rw [hcdl]) (by rw [hcdl]) 3 1 0 0 s.cdl.pingSeq
  have hseq : u.cdl.pingSeq = s.cdl.pingSeq := by rw [hcdl]
  rw [Cdl.ping_herald hherald', hseq, hsent, ← hu, State.modCdl_modCdl]
  exact State.modCdl_congr rfl

omit hs hseq htracks in
/-- The end of an alignment: CDL_RTT, then DLL_SET and SET_GSC, and ALIGN_DONE. -/
theorem Cdl.aligned_eq (s : State) (sum : Int) : ∃ d src p d' src' q, Cdl.aligned s sum =
    (Cdl.send (Cdl.send ((s.modCdl (fun c => { c with rttSum := 0, rttCnt := 0, tracks := true })).put Cdl.b Cdl.CDL_RTT_RTT
      (roundDiv (sum * 3125) (256 * 128)).toNat) 4 d src 0 p) 2 d' src' 0 q).raise Cdl.p 3 := ⟨_, _, _, _, _, _, rfl⟩

/-- The 256th ends the alignment, with DLL_SET and SET_GSC in slots of their own. -/
theorem pong_last (turn : BitVec 24) (elapsed : Nat) (hn : s.cdl.rttCnt + 1 = 256) :
    ∃ t x y, exec (.pong ⟨1, true⟩ seq turn elapsed) s = .next t ∧ t.cdl.rttCnt = 0 ∧ t.cdl.tracks = true ∧
      t.get Cdl.b Cdl.CDL_RTT_RTT =
        (roundDiv ((s.cdl.rttSum + ((elapsed : Int) - turn.toNat)) * 3125) (256 * 128)).toNat % 2 ^ 24 ∧
      t.cdl.sent = s.cdl.sent.filter (fun f => decide (s.curSample < f.1 + 128)) ++ [x, y] ∧ x.1 + 128 ≤ y.1 ∧
      (t.get Cdl.b H.IRQ_RAW).testBit 3 = true := by
  have hexec := exec_pong_expected hs hseq htracks turn elapsed
  rw [if_pos hn] at hexec
  generalize s.cdl.rttSum + ((elapsed : Int) - turn.toNat) = sum at hexec ⊢
  obtain ⟨d, src, p, d', src', q, haligned⟩ := Cdl.aligned_eq s sum
  rw [haligned] at hexec
  generalize hu : (s.modCdl (fun c => { c with rttSum := 0, rttCnt := 0, tracks := true })).put Cdl.b Cdl.CDL_RTT_RTT
    (roundDiv (sum * 3125) (256 * 128)).toNat = u at hexec
  have honly : Cdl.Only s u [Cdl.b + 0x050] :=
    hu ▸ ((Cdl.Only.refl s _).modCdl _).put Cdl.b Cdl.CDL_RTT_RTT _ rfl (by simp [Cdl.CDL_RTT_RTT])
  have hcdl : u.cdl = { s.cdl with rttSum := 0, rttCnt := 0, tracks := true } := by rw [← hu, State.put_cdl, State.modCdl_cdl]
  have hrtt : u.get Cdl.b Cdl.CDL_RTT_RTT = (roundDiv (sum * 3125) (256 * 128)).toNat % 2 ^ 24 := by
    rw [← hu, State.get_put_same]
    rfl
  have hsends := ((Cdl.Only.refl u []).send 4 d src 0 p).send 2 d' src' 0 q
  obtain ⟨x, y, hsent, hslots⟩ := Cdl.sent_send_send u 4 d src 0 p 2 d' src' 0 q
  rw [State.curSample_congr honly.base honly.smpZ, hcdl] at hsent
  refine ⟨_, x, y, hexec, ?_, ?_, ?_, ?_, hslots, State.testBit_raise_same (p := Cdl.p) _ (by decide)⟩
  · rw [State.raise_cdl, Cdl.send_cdl, Cdl.send_cdl, hcdl]
  · rw [State.raise_cdl, Cdl.send_cdl, Cdl.send_cdl, hcdl]
  · exact (Cdl.get_raise _ 3 (by decide)).trans ((hsends.get rfl (by simp)).trans hrtt)
  · rw [State.raise_cdl]
    exact hsent

end

end Sys2Proof.Machine
end

section
/-! ## What a Herald knows of its members and of their elements (O29; spec/07 R157, R165, R169, R175, R178) -/

namespace Sys2Proof.Machine

/-! ### STATUS blocks -/

/-- What the array notes of the past and the member's record are no registers. -/
def Cdl.noted (s : State) (pos : Fin 8) (m : MemberSt) : State :=
  (Arr.changing s).modCdl (fun c => { c with members := c.members.set pos.val m })

section

variable (s : State) (pos : Fin 8) (m : MemberSt)

theorem Cdl.noted_cdl : (Cdl.noted s pos m).cdl = { s.cdl with members := s.cdl.members.set pos.val m } := by
  rw [Cdl.noted, State.modCdl_cdl, Arr.changing_cdl]

theorem Cdl.noted_regs : (Cdl.noted s pos m).regs = s.regs := by
  rw [Cdl.noted, State.modCdl_regs, Arr.changing_regs]

theorem Cdl.get_noted (b : Nat) (f : Fld) : (Cdl.noted s pos m).get b f = s.get b f :=
  State.get_congr (Cdl.noted_regs s pos m) b f

theorem Cdl.noted_only : Cdl.noted s pos m = { s with cdl := (Cdl.noted s pos m).cdl, arr := (Cdl.noted s pos m).arr } := by
  rw [Cdl.noted, Arr.changing_only]
  rfl

/-- The registers that an act changes behind it. -/
theorem Cdl.noted_regsOnly {t : State} {ws : List Nat} (h : Cdl.Only (Cdl.noted s pos m) t ws) :
    s.RegsOnly { t with cdl := s.cdl, arr := s.arr } ws := by
  refine ⟨?_, fun a ha => (h.reg a ha).trans ?_⟩
  · rw [h.rest, Cdl.noted_only]
  · rw [State.reg, State.reg, Cdl.noted_regs]

end

section

variable {s : State} (hs : Cdl.Leads s)
include hs

/-- A Herald takes a STATUS block in. -/
theorem exec_statusBlock_herald (pos : Fin 8) (st : BitVec 3) (iso sends : Bool) (valid : BitVec 4) {u : State} {m : Nat}
    (hu : Cdl.noted s pos ⟨st.toNat, iso, sends, valid.toNat⟩ = u) (hm : u.get Cdl.b Cdl.CDL_STAT_MEMBERS = m) :
    exec (.statusBlock ⟨pos, true⟩ st iso sends valid) s =
      if st.toNat = 5 ∧ !m.testBit pos.val then .next ((u.put Cdl.b Cdl.CDL_STAT_MEMBERS (m ||| 2 ^ pos.val)).raise Cdl.p 1)
      else if st.toNat = 0 ∧ pos.val ≠ 0 ∧ m.testBit pos.val then .next (Cdl.lose u pos.val)
      else .next u := by
  obtain ⟨-, hherald, hlanes, -⟩ := hs.parts
  subst hu hm
  change execStatusBlock _ _ _ _ _ s = _
  unfold execStatusBlock
  rw [if_neg (by simp [hlanes]), if_neg (by simp), if_neg (by simp [hherald])]
  rfl

/-- The member is updated, and one that becomes READY enters MEMBERS. -/
theorem statusBlock_updates (pos : Fin 8) (st : BitVec 3) (iso sends : Bool) (valid : BitVec 4) (hst : st ≠ 0) :
    ∃ t, exec (.statusBlock ⟨pos, true⟩ st iso sends valid) s = .next t ∧
      t.cdl = { s.cdl with members := s.cdl.members.set pos.val ⟨st.toNat, iso, sends, valid.toNat⟩ } ∧
      (st ≠ 5 → t.regs = s.regs) ∧ (st = 5 → (t.get Cdl.b Cdl.CDL_STAT_MEMBERS).testBit pos.val = true) ∧
      s.RegsOnly { t with cdl := s.cdl, arr := s.arr } [Cdl.b + 0x044, Cdl.b + 0x014] := by
  generalize hr : (⟨st.toNat, iso, sends, valid.toNat⟩ : MemberSt) = r
  have hm := Cdl.get_noted s pos r Cdl.b Cdl.CDL_STAT_MEMBERS
  have hcdl := Cdl.noted_cdl s pos r
  have hregs := Cdl.noted_regs s pos r
  have honly {t : State} := Cdl.noted_regsOnly s pos r (t := t) (ws := [Cdl.b + 0x044, Cdl.b + 0x014])
  have hexec := exec_statusBlock_herald hs pos st iso sends valid (congrArg (Cdl.noted s pos) hr) hm
  generalize Cdl.noted s pos r = u at hexec hm hcdl hregs honly
  by_cases hnew : st.toNat = 5 ∧ !(s.get Cdl.b Cdl.CDL_STAT_MEMBERS).testBit pos.val
  · rw [if_pos hnew] at hexec
    refine ⟨_, hexec, ?_, fun h => absurd (BitVec.eq_of_toNat_eq hnew.1) h, fun _ => ?_, honly
      (((Cdl.Only.refl u _).put Cdl.b Cdl.CDL_STAT_MEMBERS _ rfl (by decide)).raise Cdl.p 1 (by decide))⟩
    · rw [State.raise_cdl, State.put_cdl, hcdl]
    · rw [Cdl.get_raise _ _ (by decide), State.get_put_same]
      change (_ % 2 ^ 8).testBit _ = true
      rw [Nat.testBit_mod_two_pow, decide_eq_true pos.isLt, Nat.testBit_or, Nat.testBit_two_pow_self, Bool.or_true, Bool.and_true]
  · rw [if_neg hnew, if_neg (fun h => hst (BitVec.eq_of_toNat_eq h.1))] at hexec
    refine ⟨_, hexec, hcdl, fun _ => hregs, fun h => ?_, honly (Cdl.Only.refl u _)⟩
    rw [hm]
    simpa [h] using hnew

/-! ### Sample frames -/

/-- A sample frame in time joins the buffer. -/
theorem sampleFrame_joins (pos : Fin 8) (gsc : BitVec 48) (data : List (BitVec 8))
    (hpassed : Cdl.passed s ((gsc.toNat + s.wget Arr.b Arr.ALIGN_DELAY_DELAY) % 2 ^ 48) = false) :
    ∃ t, exec (.sampleFrame ⟨pos, true⟩ gsc data) s = .next t ∧
      t.arr.frames.getLast? = some (pos.val, gsc.toNat, (data.map (fun b => b.toNat)).take 256) ∧ t = { s with arr := t.arr } := by
  obtain ⟨-, hherald, hlanes, -⟩ := hs.parts
  have hexec : ∃ keep, exec (.sampleFrame ⟨pos, true⟩ gsc data) s = .next { s with arr := { s.arr with
      frames := keep ++ [(pos.val, gsc.toNat, (data.map (fun b => b.toNat)).take 256)] } } := by
    change ∃ keep, execSampleFrame _ _ _ s = _
    unfold execSampleFrame
    rw [if_neg (by simp [hlanes]), if_neg (by simp), if_neg (by simp [hherald]), if_neg (by rw [hpassed]; decide)]
    exact ⟨_, rfl⟩
  obtain ⟨keep, hexec⟩ := hexec
  exact ⟨_, hexec, List.getLast?_concat, rfl⟩

/-- A late one counts. -/
theorem sampleFrame_late (pos : Fin 8) (gsc : BitVec 48) (data : List (BitVec 8))
    (hpassed : Cdl.passed s ((gsc.toNat + s.wget Arr.b Arr.ALIGN_DELAY_DELAY) % 2 ^ 48) = true) :
    ∃ t, exec (.sampleFrame ⟨pos, true⟩ gsc data) s = .next t ∧ t.arr = s.arr ∧
      t.get Arr.b Arr.ELEM_LATE_COUNT = min (s.get Arr.b Arr.ELEM_LATE_COUNT + 1) (2 ^ Arr.ELEM_LATE_COUNT.w - 1) ∧
      (t.get Arr.b H.IRQ_RAW).testBit 2 = true := by
  obtain ⟨-, hherald, hlanes, -⟩ := hs.parts
  have hexec : exec (.sampleFrame ⟨pos, true⟩ gsc data) s = .next ((s.count Arr.b Arr.ELEM_LATE_COUNT).raise Arr.p 2) := by
    change execSampleFrame _ _ _ s = _
    unfold execSampleFrame
    rw [if_neg (by simp [hlanes]), if_neg (by simp), if_neg (by simp [hherald]), if_pos hpassed]
  refine ⟨_, hexec, ?_, ?_, State.testBit_raise_same (p := Arr.p) _ (by decide)⟩
  · rw [State.raise_arr, State.count, State.put_arr]
  · exact (State.get_put_apart _ Arr.b _ (by decide)).trans (State.get_count_word s Arr.b rfl)

end

/-! ### Lost members -/

/-- Clearing PRESENT and VALID changes their word and the array's events. -/
theorem Arr.setPresent_only (s : State) (present valid : Nat) :
    Cdl.Only s (Arr.setPresent s present valid) [Arr.b + 0x054, Arr.b + 0x014] :=
  (((Cdl.Only.refl s _).put Arr.b Arr.ELEM_STAT_PRESENT present rfl (by decide)).put Arr.b Arr.ELEM_STAT_VALID valid rfl
    (by decide)).raiseIf _ Arr.p 1 (by decide)

theorem Arr.present_setPresent (s : State) (present valid : Nat) :
    (Arr.setPresent s present valid).get Arr.b Arr.ELEM_STAT_PRESENT = present % 2 ^ 8 := by
  unfold Arr.setPresent
  dsimp only
  rw [((Cdl.Only.refl _ [pg Arr.p + 0x014]).raiseIf _ Arr.p 1 (by simp)).get rfl (by decide),
    State.get_put_apart _ _ _ (by decide), State.get_put_same]
  rfl

/-- A remainder of a field fits it. -/
theorem State.get_mod_mod (s : State) (b : Nat) (f : Fld) (k : Nat) : s.get b f % k % 2 ^ f.w = s.get b f % k :=
  Nat.mod_eq_of_lt ((Nat.mod_le _ _).trans_lt (State.get_lt s b f))

/-- The members from position `p` down leave MEMBERS and PRESENT. -/
theorem Cdl.lose_clears (s : State) (p : Nat) : (Cdl.lose s p).get Cdl.b Cdl.CDL_STAT_MEMBERS =
      s.get Cdl.b Cdl.CDL_STAT_MEMBERS % 2 ^ p ∧
    (Cdl.lose s p).get Arr.b Arr.ELEM_STAT_PRESENT = s.get Arr.b Arr.ELEM_STAT_PRESENT % 2 ^ (2 * p) ∧
    ((Cdl.lose s p).get Cdl.b H.IRQ_RAW).testBit 2 = true ∧ (Cdl.lose s p).mem = s.mem := by
  unfold Cdl.lose
  extract_lets u v w m x
  have hu (b : Nat) (f : Fld) : u.get b f = s.get b f := Arr.get_changing s b f
  have hw : Cdl.Clocked s w [Cdl.b + 0x044] :=
    ((Cdl.Clocked.refl s _).changing.put Cdl.b Cdl.CDL_STAT_MEMBERS _ rfl (by decide)).modCdl _
  have hwm : w.get Cdl.b Cdl.CDL_STAT_MEMBERS = s.get Cdl.b Cdl.CDL_STAT_MEMBERS % 2 ^ p := by
    rw [State.get_modCdl, State.get_put_same, hu]
    exact State.get_mod_mod s Cdl.b Cdl.CDL_STAT_MEMBERS _
  have hwp : w.get Arr.b Arr.ELEM_STAT_PRESENT = s.get Arr.b Arr.ELEM_STAT_PRESENT := hw.get rfl (by decide)
  have hx := Arr.setPresent_only w (w.get Arr.b Arr.ELEM_STAT_PRESENT % m) (w.get Arr.b Arr.ELEM_STAT_VALID % m)
  refine ⟨?_, ?_, State.testBit_raise_same (p := Cdl.p) _ (by decide), ?_⟩
  · exact (Cdl.get_raise x 2 (by decide)).trans ((hx.get rfl (by decide)).trans hwm)
  · refine (State.get_put_ne _ _ _ _ _ _ (by decide)).trans ((Arr.present_setPresent w _ _).trans ?_)
    rw [← hwp]
    exact State.get_mod_mod w Arr.b Arr.ELEM_STAT_PRESENT _
  · rw [State.raise_mem]
    exact hx.mem.trans hw.mem

/-- MEMBER_LOST at a Herald, whose neighbour's lanes go down with it. -/
theorem memberLost_clears {s : State} (hs : Cdl.Leads s) {pos : Fin 8} (hpos : pos.val ≠ 0) :
    ∃ t, exec (.memberLost pos) s = .next t ∧
      t.get Cdl.b Cdl.CDL_STAT_MEMBERS = s.get Cdl.b Cdl.CDL_STAT_MEMBERS % 2 ^ pos.val ∧
      t.get Arr.b Arr.ELEM_STAT_PRESENT = s.get Arr.b Arr.ELEM_STAT_PRESENT % 2 ^ (2 * pos.val) ∧
      (t.get Cdl.b H.IRQ_RAW).testBit 2 = true ∧ t.mem = s.mem := by
  obtain ⟨hon, hherald, -, -⟩ := hs.parts
  have hexec : ∃ c : Bool, exec (.memberLost pos) s = .next (
      let u := if c then (s.put Cdl.b Cdl.CDL_STAT_LANE_LOCK 0).modCdl (fun c => { c with tracks := false }) else s
      if Cdl.isHerald u then Cdl.lose u pos.val else Cdl.block u 0xA3 pos.val []) :=
    ⟨decide (pos.val = Cdl.src s + 1), by
      change execMemberLost _ s = _
      unfold execMemberLost
      rw [if_neg (by simp [hon, hpos])]
      simp only [decide_eq_true_eq]⟩
  obtain ⟨c, hexec⟩ := hexec
  generalize hu : (if c then (s.put Cdl.b Cdl.CDL_STAT_LANE_LOCK 0).modCdl (fun c => { c with tracks := false }) else s) = u at hexec
  have honly : Cdl.Only s u [Cdl.b + 0x044] :=
    hu ▸ (((Cdl.Only.refl s _).put Cdl.b Cdl.CDL_STAT_LANE_LOCK 0 rfl (by decide)).modCdl _).ite _ (Cdl.Only.refl s _)
  have hget {g : Fld} (hg : Cdl.CDL_STAT_LANE_LOCK.apart g = true) : u.get Cdl.b g = s.get Cdl.b g := by
    rw [← hu]
    split
    · rw [State.get_modCdl, State.get_put_apart s Cdl.b 0 hg]
    · rfl
  have hheralds : u.cdl.heralds = s.cdl.heralds := by
    rw [← hu]
    split
    · rw [State.modCdl_cdl, State.put_cdl]
    · rfl
  have hherald' : Cdl.isHerald u = true :=
    (honly.isHerald (by decide) (by decide) (hget (by decide)) hheralds).trans hherald
  dsimp only at hexec
  rw [if_pos hherald'] at hexec
  obtain ⟨hmembers, hpresent, hirq, hmem⟩ := Cdl.lose_clears u pos.val
  refine ⟨_, hexec, ?_, ?_, hirq, hmem.trans honly.mem⟩
  · rw [hmembers, hget (by decide)]
  · rw [hpresent, honly.get rfl (by decide)]

end Sys2Proof.Machine
end

section
/-! ## Epochs, ALIGN and the lanes of a Herald (O29; spec/07 R159, R167, R177) -/

namespace Sys2Proof.Machine

/-! ### EPOCH_ANNOUNCE -/

section

variable {s : State} (hs : Cdl.Leads s) (hshare : s.flag Cdl.b Cdl.CDL_CFG_EPOCH_SHARE = true)
include hs hshare

/-- A latch that is announced in time is scheduled at the count predicted and sent. -/
theorem epochAnnounce_schedules {t0 : BitVec 64} (ht : s.now + 20480 ≤ t0.toNat) {g : Nat} (hg : s.gsc (s.sampleAt (t0.toNat + 1)) = g) :
    ∃ t, exec (.epochAnnounce t0) s = .next t ∧ t.cdl.epochs = s.cdl.epochs ++ [(g, some t0.toNat)] ∧
      t.cdl.sent = (Cdl.send s 1 15 0 0 (g + 2 ^ 48 * (s.cdl.epochSeq % 2 ^ 16))).cdl.sent ∧
      s.RegsOnly { t with cdl := s.cdl } [Cdl.b + Cdl.EPOCH_CNT_COUNT.off] := by
  obtain ⟨-, hherald, -, hsrc⟩ := hs.parts
  have hexec : exec (.epochAnnounce t0) s = .next (((Cdl.send s 1 15 0 0 (g + 2 ^ 48 * (s.cdl.epochSeq % 2 ^ 16))).modCdl
      (fun c => { c with epochSeq := (c.epochSeq + 1) % 2 ^ 16, epochs := c.epochs ++ [(g, some t0.toNat)] })).countWrap
        Cdl.b Cdl.EPOCH_CNT_COUNT) := by
    change execEpochAnnounce _ s = _
    unfold execEpochAnnounce Cdl.originate
    rw [if_neg (by simp [hherald, hshare]), if_neg (Nat.not_lt.2 ht), hsrc, hg]
  generalize hu : (Cdl.send s 1 15 0 0 (g + 2 ^ 48 * (s.cdl.epochSeq % 2 ^ 16))).modCdl
    (fun c => { c with epochSeq := (c.epochSeq + 1) % 2 ^ 16, epochs := c.epochs ++ [(g, some t0.toNat)] }) = u at hexec
  have hsent : Cdl.Only s u [Cdl.b + Cdl.EPOCH_CNT_COUNT.off] := hu ▸ ((Cdl.Only.refl s _).send _ _ _ _ _).modCdl _
  have honly := hsent.put Cdl.b Cdl.EPOCH_CNT_COUNT (u.get Cdl.b Cdl.EPOCH_CNT_COUNT + 1) rfl (by simp)
  refine ⟨_, hexec, ?_, ?_, ?_, honly.reg⟩
  · rw [State.countWrap_cdl, ← hu, State.modCdl_cdl, Cdl.send_cdl]
  · rw [State.countWrap_cdl, ← hu, State.modCdl_cdl]
  · rw [State.countWrap, honly.rest]

/-- One announced later only counts. -/
theorem epochAnnounce_late {t0 : BitVec 64} (ht : t0.toNat < s.now + 20480) :
    Cmd.Sets (.epochAnnounce t0) s [Cdl.b + Cdl.EPOCH_LATE_COUNT.off] (fun t =>
      t.get Cdl.b Cdl.EPOCH_LATE_COUNT = min (s.get Cdl.b Cdl.EPOCH_LATE_COUNT + 1) (2 ^ 32 - 1)) := by
  obtain ⟨-, hherald, -, -⟩ := hs.parts
  have hexec : exec (.epochAnnounce t0) s = .next (s.count Cdl.b Cdl.EPOCH_LATE_COUNT) :=
    (if_neg (by simp [hherald, hshare])).trans (if_pos ht)
  exact ⟨_, hexec, State.get_count_word s Cdl.b rfl, State.RegsOnly.put s Cdl.b Cdl.EPOCH_LATE_COUNT _ rfl⟩

end

/-! ### Exchanges that begin -/

/-- Exchanges begin in `t` with a PING sent as from `s` (R159). -/
structure Cdl.Begun (s t : State) : Prop where
  cnt : t.cdl.rttCnt = 0
  sum : t.cdl.rttSum = 0
  tracks : t.cdl.tracks = false
  sent : t.cdl.sent = (Cdl.send s 3 1 0 0 s.cdl.pingSeq).cdl.sent

/-- From a Herald at the same time and with the same frames on their way they begin alike. -/
theorem Cdl.beginAlign_begun {s u : State} (hherald : Cdl.isHerald u = true) (hbase : u.base = s.base) (hz : u.smpZ = s.smpZ)
    (hsent : u.cdl.sent = s.cdl.sent) (hgsc : u.cdl.gscOfs = s.cdl.gscOfs) (hseq : u.cdl.pingSeq = s.cdl.pingSeq) :
    Cdl.Begun s (Cdl.beginAlign u) := by
  have hcdl := Cdl.beginAlign_herald hherald
  refine ⟨by rw [hcdl], by rw [hcdl], by rw [hcdl], ?_⟩
  rw [hcdl, hseq]
  exact Cdl.sent_congr hbase hz hsent hgsc 3 1 0 0 s.cdl.pingSeq

theorem Cdl.get_beginAlign (s : State) {b : Nat} {f : Fld} (hf : f.words = 1) : (Cdl.beginAlign s).get b f = s.get b f :=
  ((Cdl.Only.refl s []).beginAlign).get hf (by simp)

/-! ### ALIGN -/

theorem exec_align (req : Req) (s : State) : exec (.align req) s = Cmd.write s req (Cdl.b + 0x060) 1 := rfl

theorem Cdl.write_align (s : State) (req : Nat) (store : State → State) : Cdl.write s req 0x060 1 store = Cdl.align s req := rfl

/-- The Herald alone is a member, and forgets what it knew of the others. -/
def Cdl.alone (s : State) : State :=
  ((Arr.changing s).modCdl (fun c => { c with members := CdlSt.init.members })).put Cdl.b Cdl.CDL_STAT_MEMBERS 1

theorem Cdl.alone_clocked (s : State) : Cdl.Clocked s (Cdl.alone s) [Cdl.b + 0x044] :=
  ((Cdl.Clocked.refl s _).changing.modCdl _).put Cdl.b Cdl.CDL_STAT_MEMBERS 1 rfl (by decide)

theorem Cdl.alone_cdl (s : State) : (Cdl.alone s).cdl = { s.cdl with members := CdlSt.init.members } := by
  rw [Cdl.alone, State.put_cdl, State.modCdl_cdl, Arr.changing_cdl]

theorem Cdl.get_alone (s : State) {g : Fld} (hg : Cdl.CDL_STAT_MEMBERS.apart g = true) : (Cdl.alone s).get Cdl.b g = s.get Cdl.b g := by
  rw [Cdl.alone, State.get_put_apart _ _ _ hg, State.get_modCdl, Arr.get_changing]

/-- It is the Herald that it was. -/
theorem Cdl.isHerald_alone (s : State) : Cdl.isHerald (Cdl.alone s) = Cdl.isHerald s := by
  have hen : (Cdl.alone s).en Cdl.p = s.en Cdl.p := (Cdl.alone_clocked s).flag rfl (by decide)
  have hrole : Cdl.role (Cdl.alone s) = Cdl.role s := Cdl.get_alone s (by decide)
  have hstate : Cdl.state (Cdl.alone s) = Cdl.state s := Cdl.get_alone s (by decide)
  have hrun : (Cdl.alone s).running .arr = s.running .arr := by
    refine State.running_congr ?_ ?_ .arr
    · rw [Cdl.alone, State.put_only, Arr.changing_only]
      rfl
    · rw [Cdl.alone, State.put_only, Arr.changing_only]
      rfl
  unfold Cdl.isHerald Cdl.on
  rw [hen, hrole, hstate, hrun, Cdl.alone_cdl]

theorem align_begins {req : Req} {s : State} (hs : Cdl.Leads s) (hq : s.Quiet) (hw : s.Writable req Cdl.p) :
    ∃ t, exec (.align req) s = .next t ∧ t.get Cdl.b Cdl.CDL_STAT_MEMBERS = 1 ∧ t.cdl.rttCnt = 0 ∧ t.cdl.rttSum = 0 ∧
      t.cdl.tracks = false ∧ t.cdl.sent = (Cdl.send s 3 1 0 0 s.cdl.pingSeq).cdl.sent := by
  obtain ⟨-, hherald, -, -⟩ := hs.parts
  have halign : Cdl.align s req.code = Cdl.beginAlign (Cdl.alone s) := if_neg (by simp [hherald])
  have hclk := Cdl.alone_clocked s
  have hcount : (Cdl.beginAlign (Cdl.alone s)).get Cdl.b H.COUNT = s.get Cdl.b H.COUNT :=
    (Cdl.get_beginAlign _ rfl).trans (hclk.get rfl (by decide))
  have hquiet : (Cdl.beginAlign (Cdl.alone s)).Quiet := (hclk.only (Cdl.Only.refl _ _).beginAlign).quiet hq
  have hexec := (exec_align req s).trans
    (Cmd.write_cdlCmd hw (fun store => (Cdl.write_align s req.code store).trans halign) hquiet hcount)
  have hbegun := Cdl.beginAlign_begun ((Cdl.isHerald_alone s).trans hherald) hclk.base hclk.smpZ (by rw [Cdl.alone_cdl])
    (by rw [Cdl.alone_cdl]) (by rw [Cdl.alone_cdl])
  refine ⟨_, hexec, ?_, hbegun.cnt, hbegun.sum, hbegun.tracks, hbegun.sent⟩
  rw [State.get_answered_req, Cdl.get_beginAlign _ rfl, Cdl.alone, State.get_put_same]
  rfl

/-! ### LANES_UP of the DRX lanes -/

theorem Cdl.lock_lt (s : State) (lanes : BitVec 2) : s.get Cdl.b Cdl.CDL_STAT_LANE_LOCK ||| lanes.toNat < 2 ^ 2 :=
  Nat.or_lt_two_pow (State.get_lt s Cdl.b Cdl.CDL_STAT_LANE_LOCK) lanes.isLt

/-- A lane that locks joins LANE_LOCK; with both, the exchanges begin. -/
theorem lanesUp_down {s : State} (hlinked : Cdl.linked s = true) (hherald : Cdl.isHerald s = true) (lanes : BitVec 2) :
    let old := s.get Cdl.b Cdl.CDL_STAT_LANE_LOCK
    ∃ t, exec (.lanesUp (.down lanes)) s = .next t ∧ t.get Cdl.b Cdl.CDL_STAT_LANE_LOCK = old ||| lanes.toNat ∧
      (old ≠ 3 → old ||| lanes.toNat = 3 → s.cdl.clkOut = true → t.cdl.rttSum = 0 ∧ t.cdl.rttCnt = 0 ∧ t.cdl.tracks = false ∧
        t.cdl.sent = (Cdl.send s 3 1 0 0 s.cdl.pingSeq).cdl.sent) ∧
      t = { s with regs := t.regs, cdl := t.cdl } ∧ ∀ a, a ≠ Cdl.b + 0x044 → t.reg a = s.reg a := by
  intro old
  generalize hu : s.put Cdl.b Cdl.CDL_STAT_LANE_LOCK (old ||| lanes.toNat) = u
  have hexec : exec (.lanesUp (.down lanes)) s = .next (if old ≠ 3 ∧ Cdl.aligns u then Cdl.beginAlign u else u) := by
    subst hu
    exact if_neg (by simp [hlinked])
  have honly : Cdl.Only s u [Cdl.b + 0x044] :=
    hu ▸ (Cdl.Only.refl s _).put Cdl.b Cdl.CDL_STAT_LANE_LOCK _ rfl (by decide)
  have hcdl : u.cdl = s.cdl := by rw [← hu, State.put_cdl]
  have hlock : u.get Cdl.b Cdl.CDL_STAT_LANE_LOCK = old ||| lanes.toNat := by
    rw [← hu, State.get_put_same]
    exact Nat.mod_eq_of_lt (Cdl.lock_lt s lanes)
  have hstate : Cdl.state u = Cdl.state s := by
    subst hu
    exact State.get_put_apart s Cdl.b _ (by decide)
  have hherald' : Cdl.isHerald u = true := (honly.isHerald (by decide) (by decide) hstate (by rw [hcdl])).trans hherald
  have hall : Cdl.Only s (if old ≠ 3 ∧ Cdl.aligns u then Cdl.beginAlign u else u) [Cdl.b + 0x044] := honly.beginAlign.ite _ honly
  refine ⟨_, hexec, ?_, fun hold hnew hclk => ?_, hall.rest, fun a ha => hall.reg a (by simpa using ha)⟩
  · split
    · exact (Cdl.get_beginAlign u rfl).trans hlock
    · exact hlock
  · have hbegun := Cdl.beginAlign_begun (s := s) hherald' honly.base honly.smpZ (by rw [hcdl]) (by rw [hcdl]) (by rw [hcdl])
    rw [if_pos ⟨hold, by simp [Cdl.aligns, hlock, hnew, hcdl, hclk, hherald']⟩]
    exact ⟨hbegun.sum, hbegun.cnt, hbegun.tracks, hbegun.sent⟩

/-- Settles O29: what the Herald receives changes its exchanges, its members or the array's buffer, one lemma each; exchanges begin as
`Cdl.Begun` says. -/
theorem heraldLink : Obligations.HeraldLink := by
  unfold Obligations.HeraldLink
  refine ⟨fun s hs => ⟨fun seq turn elapsed hseq htracks =>
      ⟨pong_next hs hseq htracks turn elapsed, pong_last hs hseq htracks turn elapsed⟩,
    statusBlock_updates hs, fun pos gsc data => ⟨sampleFrame_joins hs pos gsc data, sampleFrame_late hs pos gsc data⟩,
    fun pos hpos => memberLost_clears hs hpos,
    fun t0 hshare => ⟨fun ht => epochAnnounce_schedules hs hshare ht rfl, epochAnnounce_late hs hshare⟩,
    fun req hq hw => align_begins hs hq hw⟩, fun lanes s hlinked hherald => lanesUp_down hlinked hherald lanes⟩

end Sys2Proof.Machine
end

section
/-! ## Messages and counts of the link (O30; spec/07 R163, R177) -/

namespace Sys2Proof.Machine

/-! ### Commands that change registers only -/

/-- A write of CDL_CMD whose effect `t` changes the words `ws` only, none of them that of the errors. -/
theorem Cdl.sets_cmd {i : Instr} {s t : State} {req : Req} {v : Nat} {ws : List Nat} {post : State → Prop}
    (hi : exec i s = Cmd.write s req (Cdl.b + 0x060) v) (hq : s.Quiet) (hw : s.Writable req Cdl.p)
    (ht : ∀ store, Cdl.write s req.code 0x060 (v % 2 ^ 32) store = t) (hws : s.RegsOnly t ws) (hn : Cdl.b + 0x024 ∉ ws)
    (hpost : post (t.answered req [])) : Cmd.Sets i s ws post :=
  ⟨_, hi.trans (Cmd.write_cdlCmd hw ht (hws.quiet hq) (State.get_of_reg rfl (hws.2 _ hn))), hpost,
    hws.trans ((State.RegsOnly.answered t req []).mono (by simp))⟩

theorem exec_msgSend (req : Req) (s : State) : exec (.msgSend req) s = Cmd.write s req (Cdl.b + 0x060) 4 := rfl

theorem Cdl.write_msgSend (s : State) (req : Nat) (store : State → State) : Cdl.write s req 0x060 4 store = Cdl.msgSend s req := rfl

/-- MSG_SEND of an enabled link with nothing to send. -/
theorem msgSend_sets {req : Req} {s : State} (hq : s.Quiet) (hw : s.Writable req Cdl.p) (hon : Cdl.on s = true)
    (hbusy : s.flag Cdl.b Cdl.MSG_CTL_TX_BUSY = false) : Cmd.Sets (.msgSend req) s [Cdl.b + 0x064] (fun t =>
      t.flag Cdl.b Cdl.MSG_CTL_TX_BUSY = true ∧ t.get Cdl.b Cdl.MSG_CTL_DEST = s.get Cdl.b Cdl.MSG_CTL_DEST) := by
  have hsend : Cdl.msgSend s req.code = s.put Cdl.b Cdl.MSG_CTL_TX_BUSY 1 := (if_neg (by simp [hbusy])).trans (if_pos hon)
  refine Cdl.sets_cmd (exec_msgSend req s) hq hw (fun store => (Cdl.write_msgSend s req.code store).trans hsend)
    (State.RegsOnly.put s Cdl.b Cdl.MSG_CTL_TX_BUSY 1 rfl) (by decide) ⟨?_, ?_⟩
  · rw [State.flag_answered, State.flag_put_same]
    rfl
  · rw [State.get_answered_req, State.get_put_apart _ _ _ (by decide)]

/-! ### CDL_CNT_CLR -/

theorem exec_cdlCntClr (req : Req) (s : State) : exec (.cdlCntClr req) s = Cmd.write s req (Cdl.b + 0x060) 8 := rfl

/-- The four counts read 0. -/
def Cdl.countsCleared (s : State) : State :=
  (((s.put Cdl.b Cdl.EPOCH_CNT_COUNT 0).put Cdl.b Cdl.EPOCH_LATE_COUNT 0).put Cdl.b Cdl.CRC_ERR_COUNT 0).put Cdl.b Cdl.BLK_ERR_COUNT 0

theorem Cdl.write_cntClr (s : State) (req : Nat) (store : State → State) : Cdl.write s req 0x060 8 store = Cdl.countsCleared s := rfl

theorem Cdl.countsCleared_only (s : State) :
    s.RegsOnly (Cdl.countsCleared s) [Cdl.b + 0x07C, Cdl.b + 0x080, Cdl.b + 0x084, Cdl.b + 0x088] :=
  ((((State.RegsOnly.refl s _).put_then Cdl.b Cdl.EPOCH_CNT_COUNT 0 rfl (by decide)).put_then Cdl.b Cdl.EPOCH_LATE_COUNT 0 rfl
    (by decide)).put_then Cdl.b Cdl.CRC_ERR_COUNT 0 rfl (by decide)).put_then Cdl.b Cdl.BLK_ERR_COUNT 0 rfl (by decide)

theorem Cdl.countsCleared_counts (s : State) :
    (Cdl.countsCleared s).get Cdl.b Cdl.EPOCH_CNT_COUNT = 0 ∧ (Cdl.countsCleared s).get Cdl.b Cdl.EPOCH_LATE_COUNT = 0 ∧
      (Cdl.countsCleared s).get Cdl.b Cdl.CRC_ERR_COUNT = 0 ∧ (Cdl.countsCleared s).get Cdl.b Cdl.BLK_ERR_COUNT = 0 := by
  unfold Cdl.countsCleared
  refine ⟨?_, ?_, ?_, ?_⟩
  · rw [State.get_put_apart _ _ _ (by decide), State.get_put_apart _ _ _ (by decide), State.get_put_apart _ _ _ (by decide),
      State.get_put_same]
    rfl
  · rw [State.get_put_apart _ _ _ (by decide), State.get_put_apart _ _ _ (by decide), State.get_put_same]
    rfl
  · rw [State.get_put_apart _ _ _ (by decide), State.get_put_same]
    rfl
  · rw [State.get_put_same]
    rfl

theorem cdlCntClr_sets {req : Req} {s : State} (hq : s.Quiet) (hw : s.Writable req Cdl.p) :
    Cmd.Sets (.cdlCntClr req) s [Cdl.b + 0x07C, Cdl.b + 0x080, Cdl.b + 0x084, Cdl.b + 0x088] (fun t =>
      t.get Cdl.b Cdl.EPOCH_CNT_COUNT = 0 ∧ t.get Cdl.b Cdl.EPOCH_LATE_COUNT = 0 ∧ t.get Cdl.b Cdl.CRC_ERR_COUNT = 0 ∧
      t.get Cdl.b Cdl.BLK_ERR_COUNT = 0) := by
  refine Cdl.sets_cmd (exec_cdlCntClr req s) hq hw (Cdl.write_cntClr s req.code) (Cdl.countsCleared_only s) (by decide) ?_
  simp only [State.get_answered_req]
  exact Cdl.countsCleared_counts s

/-! ### MSG_TX_DONE -/

/-- The message has left `s` as `u`: TX_BUSY falls, and the link's event is raised. -/
theorem Cdl.msgLeft {s u : State} (h : Cdl.Only s u [Cdl.b + 0x064, Cdl.b + 0x014]) {t : State}
    (ht : (u.put Cdl.b Cdl.MSG_CTL_TX_BUSY 0).raise Cdl.p 5 = t) : t.flag Cdl.b Cdl.MSG_CTL_TX_BUSY = false ∧
      (t.get Cdl.b H.IRQ_RAW).testBit 5 = true ∧ t.cdl = u.cdl ∧ Cdl.Only s t [Cdl.b + 0x064, Cdl.b + 0x014] := by
  subst ht
  refine ⟨?_, State.testBit_raise_same (p := Cdl.p) _ (by decide), ?_,
    (h.put Cdl.b Cdl.MSG_CTL_TX_BUSY 0 rfl (by decide)).raise Cdl.p 5 (by decide)⟩
  · rw [State.flag, Cdl.get_raise _ _ (by decide), State.get_put_same]
    rfl
  · rw [State.raise_cdl, State.put_cdl]

/-- The message leaves a Herald as a frame and a follower as a block. -/
theorem msgTxDone_sends {s : State} (hrun : s.running .arr = true) (hbusy : s.flag Cdl.b Cdl.MSG_CTL_TX_BUSY = true) :
    ∃ t, exec .msgTxDone s = .next t ∧ t.flag Cdl.b Cdl.MSG_CTL_TX_BUSY = false ∧ (t.get Cdl.b H.IRQ_RAW).testBit 5 = true ∧
      (Cdl.isHerald s = true → t.cdl =
        { s.cdl with sent := (Cdl.send s 5 (s.get Cdl.b Cdl.MSG_CTL_DEST) 0 0 (s.get Cdl.b Cdl.MSG_TX_DATA)).cdl.sent }) ∧
      (Cdl.isHerald s = false → t.cdl = { s.cdl with blockOut := [0xA5 + 2 ^ 8 * Cdl.pos s, s.get Cdl.b Cdl.MSG_TX_DATA] }) ∧
      t = { s with regs := t.regs, cdl := t.cdl } ∧ ∀ a, a ≠ Cdl.b + 0x064 → a ≠ Cdl.b + 0x014 → t.reg a = s.reg a := by
  generalize hu : (if Cdl.isHerald s then Cdl.originate s 5 (s.get Cdl.b Cdl.MSG_CTL_DEST) (s.get Cdl.b Cdl.MSG_TX_DATA)
    else Cdl.block s 0xA5 (Cdl.pos s) [s.get Cdl.b Cdl.MSG_TX_DATA]) = u
  have hexec : exec .msgTxDone s = .next ((u.put Cdl.b Cdl.MSG_CTL_TX_BUSY 0).raise Cdl.p 5) := by
    subst hu
    exact if_neg (by simp [hrun, hbusy])
  have hpos := Cdl.pos_lt s
  have hblock := Cdl.block_eq s (type := 0xA5) [s.get Cdl.b Cdl.MSG_TX_DATA] (by decide) (show Cdl.pos s < 2 ^ 56 by omega)
  have honly : Cdl.Only s u [Cdl.b + 0x064, Cdl.b + 0x014] := by
    rw [← hu, hblock]
    exact ((Cdl.Only.refl s _).send _ _ _ _ _).ite _ ((Cdl.Only.refl s _).modCdl _)
  obtain ⟨hflag, hirq, hcdl, hall⟩ := Cdl.msgLeft honly rfl
  refine ⟨_, hexec, hflag, hirq, fun hherald => ?_, fun hherald => ?_, hall.rest, fun a h1 h2 => hall.reg a (by simp [h1, h2])⟩
  · rw [hcdl, ← hu, if_pos hherald, Cdl.originate, Cdl.src_herald hherald, Cdl.send_cdl]
  · rw [hcdl, ← hu, if_neg (by simp [hherald]), hblock, State.modCdl_cdl]

end Sys2Proof.Machine
end

section
/-! ## EN of the link (O30; spec/07 R158, R175, R177) -/

namespace Sys2Proof.Machine

/-! ### EN is written -/

/-- EN and ENABLED stand at `on`, and the array has noted the past. -/
def Cdl.enSet (s : State) (on : Bool) : State := ((Arr.changing s).putB Cdl.b H.EN on).putB Cdl.b H.ENABLED on

theorem Cdl.enSet_clocked (s : State) (on : Bool) : Cdl.Clocked s (Cdl.enSet s on) [Cdl.b + 0x00C, Cdl.b + 0x010] :=
  ((Cdl.Clocked.refl s _).changing.put Cdl.b H.EN _ rfl (by decide)).put Cdl.b H.ENABLED _ rfl (by decide)

theorem Cdl.enSet_en (s : State) (on : Bool) : (Cdl.enSet s on).en Cdl.p = on :=
  (State.flag_putB_apart _ Cdl.b on (by decide)).trans (State.flag_putB _ Cdl.b on rfl)

theorem Cdl.enSet_cdl (s : State) (on : Bool) : (Cdl.enSet s on).cdl = s.cdl := by
  rw [Cdl.enSet, State.putB_cdl, State.putB_cdl, Arr.changing_cdl]

/-- The link after a change of EN to `on`. -/
def Cdl.switched (s : State) (on : Bool) : State := if on then Cdl.enable (Cdl.enSet s on) else Cdl.disable (Cdl.enSet s on)

theorem Cdl.switched_on (s : State) : Cdl.switched s true = Cdl.enable (Cdl.enSet s true) := if_pos rfl

theorem Cdl.switched_off (s : State) : Cdl.switched s false = Cdl.disable (Cdl.enSet s false) := if_neg Bool.false_ne_true

theorem Cdl.setEn_changes {s : State} {on : Bool} (h : s.en Cdl.p ≠ on) (req : Nat) :
    Page.setEn s req Cdl.p on = Cdl.switched s on := if_neg h

/-- The page honours SRST and not FREEZE. -/
theorem Cdl.page_ctl : Page.freezable Cdl.p = false ∧ Page.resettable Cdl.p = true := by decide

/-- A write of PAGE_CTL without SRST: FREEZE is denied, then EN is written. -/
theorem Cdl.ctl_en {v : Nat} (hsrst : v.testBit 1 = false) (s : State) (req : Nat) :
    ∃ u, Page.ctl s req Cdl.p v = Page.setEn u req Cdl.p (v.testBit 0) ∧ u.cdl = s.cdl ∧
      Cdl.Only s u [Cdl.b + 0x014, Cdl.b + 0x024, Cdl.b + 0x028] ∧ u.get Cdl.b H.COUNT ≤ satInc 8 (s.get Cdl.b H.COUNT) := by
  obtain ⟨hfz, hrs⟩ := Cdl.page_ctl
  have hctl : Page.ctl s req Cdl.p v =
      Page.setEn (if v.testBit 2 then s.logErr Cdl.p E.CTL_DENIED (pg Cdl.p + 0x00C) req else s) req Cdl.p (v.testBit 0) := by
    unfold Page.ctl
    simp only [hfz, hrs, hsrst, Bool.not_true, Bool.not_false, Bool.and_true, Bool.false_and, Bool.false_or, Bool.false_eq_true,
      if_false]
  refine ⟨_, hctl, ?_, ?_, ?_⟩
  · split
    · exact State.logErr_cdl _ _ _ _ _
    · rfl
  · split
    · refine ⟨?_, (State.RegsOnly.logErr s Cdl.p E.CTL_DENIED (pg Cdl.p + 0x00C) req).2⟩
      rw [State.logErr_only]
    · exact Cdl.Only.refl s _
  · split
    · exact (State.get_count_logErr s Cdl.p _ _ _).le
    · exact State.get_count_le_satInc s Cdl.b

/-! ### The command -/

theorem exec_cdlEnable (req : Req) (en : Bool) (s : State) :
    exec (.cdlEnable req en) s = Cmd.write s req (pg Cdl.p + 0x00C)
      (putBits (s.regN (pg Cdl.p + 0x00C) &&& (2 ^ 32 - 1 - 2)) 0 1 (b2n en)) := rfl

theorem State.answered_cdl (s : State) (req : Req) (l : List Word) : (s.answered req l).cdl = s.cdl := rfl

/-- The words that a change of EN may change from where the write has been logged on. -/
def Cdl.switchWords : List Nat :=
  [Cdl.b + 0x00C, Cdl.b + 0x010, Cdl.b + 0x014, Cdl.b + 0x044] ++ Cdl.pllWords

/-- A change of EN of which the words `ws` behind it are known. -/
theorem Cdl.Clocked.after_enSet {u t : State} {on : Bool} {ws : List Nat} (h : Cdl.Clocked (Cdl.enSet u on) t ws)
    (hws : ∀ a ∈ ws, a ∈ Cdl.switchWords) : Cdl.Clocked u t Cdl.switchWords :=
  ((Cdl.enSet_clocked u on).mono (by simp [Cdl.switchWords])).trans (h.mono hws)

/-- CDL_ENABLE with EN changing; `u` is the state in which a FREEZE bit left in the register has been denied. -/
theorem exec_cdlEnable_changes {req : Req} {s : State} {en : Bool} (hq : s.Quiet) (hw : s.Writable req Cdl.p)
    (hold : s.en Cdl.p ≠ en) (hclk : ∀ u, Cdl.role u = Cdl.role s → Cdl.Clocked u (Cdl.switched u en) Cdl.switchWords) :
    ∃ u, exec (.cdlEnable req en) s = .next ((Cdl.switched u en).answered req []) ∧ u.cdl = s.cdl ∧ Cdl.role u = Cdl.role s := by
  have hlock : s.locked Cdl.p = false := hw.2
  have hen : (Cmd.bitsWord s (pg Cdl.p + 0x00C) 2 0 1 (b2n en)).testBit 0 = en := by
    have h := bitsOf_testBit (Cmd.bitsWord s (pg Cdl.p + 0x00C) 2 0 1 (b2n en)) 0 1 0
    rw [Cmd.bitsOf_bitsWord s _ _ _ (by decide)] at h
    cases en <;> exact h.symm
  have hsrst : (Cmd.bitsWord s (pg Cdl.p + 0x00C) 2 0 1 (b2n en)).testBit 1 = false := by
    have h := bitsOf_testBit (Cmd.bitsWord s (pg Cdl.p + 0x00C) 2 0 1 (b2n en)) 1 1 0
    rw [Cmd.bitsOf_bitsWord_pulse s (by decide) (by decide) (by decide) (by decide)] at h
    exact h.symm
  obtain ⟨u, hctl, hcdl, honly, hcount⟩ := Cdl.ctl_en hsrst s req.code
  have hrole : Cdl.role u = Cdl.role s := honly.get rfl (by decide)
  have henu : u.en Cdl.p ≠ en := by
    rw [show u.en Cdl.p = s.en Cdl.p from honly.flag rfl (by decide)]
    exact hold
  rw [hen, Cdl.setEn_changes henu] at hctl
  have hswitch := hclk u hrole
  have hquiet : (Cdl.switched u en).Quiet := hswitch.quiet (((Cdl.Clocked.refl s _).only honly).quiet hq)
  have hle : (Cdl.switched u en).get (pg Cdl.p) H.COUNT ≤ satInc 8 (s.get (pg Cdl.p) H.COUNT) :=
    (hswitch.get (b := Cdl.b) (f := H.COUNT) rfl (by decide)).trans_le hcount
  exact ⟨u, (exec_cdlEnable req en s).trans (Cmd.write_header (p := ⟨Cdl.p, by decide⟩) hw.1 (by decide) (by decide) (by decide)
    ((Bus.putHeader_ctl hlock _ _).trans hctl) hquiet hle), hcdl, hrole⟩

/-! ### The link starts -/

/-- The link starts from a state in which it knows of no member, as its role does. -/
theorem Cdl.enable_starts (s : State) : ∃ u, Cdl.Clocked s u [Cdl.b + 0x044] ∧ u.cdl.isolated = false ∧
    u.get Cdl.b Cdl.CDL_STAT_MEMBERS = 0 ∧
    (Cdl.role s = 1 → Cdl.enable s =
      Cdl.setState ((u.modCdl (fun x => { x with clkOut := true, loaded := true })).put Cdl.b Cdl.CDL_STAT_MEMBERS 1) 5) ∧
    (Cdl.role s = 2 → ∃ c : Bool, Cdl.enable s = Cdl.setState (if c then Cdl.takeClock u else u) 0) := by
  generalize he : Cdl.enable s = e
  unfold Cdl.enable at he
  extract_lets -underBinder a c d u at he
  have hclk : Cdl.Clocked s u [Cdl.b + 0x044] :=
    (((((Cdl.Clocked.refl s _).changing.modCdl _).put Cdl.b Cdl.CDL_STAT_MEMBERS 0 rfl (by decide)).put Cdl.b
      Cdl.CDL_STAT_ARRAY_IGNORED 0 rfl (by decide)).put Cdl.b Cdl.CDL_STAT_POSITION 0 rfl (by decide)).put Cdl.b
        Cdl.CDL_STAT_LANE_LOCK 0 rfl (by decide)
  have hisolated : u.cdl.isolated = false := by
    simp only [u, d, c, State.put_cdl, State.modCdl_cdl]
    rfl
  have hmembers : u.get Cdl.b Cdl.CDL_STAT_MEMBERS = 0 := by
    rw [State.get_put_apart _ _ _ (by decide), State.get_put_apart _ _ _ (by decide), State.get_put_apart _ _ _ (by decide),
      State.get_put_same]
    rfl
  have hrole : Cdl.role u = Cdl.role s := hclk.get rfl (by decide)
  clear_value u
  refine ⟨u, hclk, hisolated, hmembers, fun h => ?_, fun h => ⟨u.flag (pg 0x009) Clk1.DLL_STAT_DLL_LOCKED && Cdl.linked u, ?_⟩⟩
  · split at he
    · exact he.symm
    · omega
    · next hne _ => exact absurd (hrole.trans h) hne
  · split at he
    · omega
    · exact he.symm
    · next _ hne => exact absurd (hrole.trans h) hne

/-- A Herald is READY, the only member, and drives the count. -/
theorem Cdl.enable_herald {s : State} (hrole : Cdl.role s = 1) : Cdl.Clocked s (Cdl.enable s) [Cdl.b + 0x044, Cdl.b + 0x014] ∧
    Cdl.state (Cdl.enable s) = 5 ∧ (Cdl.enable s).get Cdl.b Cdl.CDL_STAT_MEMBERS = 1 ∧ (Cdl.enable s).cdl.clkOut = true ∧
    (Cdl.enable s).cdl.isolated = false := by
  obtain ⟨v, hstart, hisolated, -, henable, -⟩ := Cdl.enable_starts s
  rw [henable hrole]
  generalize hu : (v.modCdl (fun x => { x with clkOut := true, loaded := true })).put Cdl.b Cdl.CDL_STAT_MEMBERS 1 = u
  have hclk : Cdl.Clocked s u [Cdl.b + 0x044, Cdl.b + 0x014] :=
    hu ▸ ((hstart.mono (by simp)).modCdl _).put Cdl.b Cdl.CDL_STAT_MEMBERS 1 rfl (by decide)
  refine ⟨hclk.only ((Cdl.Only.refl u _).setState 5 (by decide) (by decide)), Cdl.state_setState u (by decide), ?_, ?_, ?_⟩
  · rw [Cdl.get_setState u 5 (by decide) (by decide), ← hu, State.get_put_same]
    rfl
  · rw [Cdl.setState_cdl, ← hu, State.put_cdl, State.modCdl_cdl]
  · rw [Cdl.setState_cdl, ← hu, State.put_cdl, State.modCdl_cdl]
    exact hisolated

/-- A follower is DOWN; it takes the upstream clock at once where that is locked. -/
theorem Cdl.enable_follower {s : State} (hrole : Cdl.role s = 2) :
    Cdl.Clocked s (Cdl.enable s) ([Cdl.b + 0x044, Cdl.b + 0x014] ++ Cdl.pllWords) ∧ Cdl.state (Cdl.enable s) = 0 ∧
      (Cdl.enable s).get Cdl.b Cdl.CDL_STAT_MEMBERS = 0 := by
  obtain ⟨v, hstart, -, hmembers, -, henable⟩ := Cdl.enable_starts s
  obtain ⟨c, henable⟩ := henable hrole
  rw [henable]
  generalize hu : (if c then Cdl.takeClock v else v) = u
  have htake : Cdl.Clocked v u Cdl.pllWords := hu ▸ (Cdl.takeClock_clocked _).ite _ (Cdl.Clocked.refl _ _)
  have hclk : Cdl.Clocked s u ([Cdl.b + 0x044, Cdl.b + 0x014] ++ Cdl.pllWords) :=
    (hstart.mono (by simp)).trans (htake.mono (fun a ha => List.mem_append_right _ ha))
  refine ⟨hclk.only ((Cdl.Only.refl u _).setState 0 (by simp) (by simp)), Cdl.state_setState u (by decide), ?_⟩
  rw [Cdl.get_setState u 0 (by decide) (by decide), htake.get rfl (by decide), hmembers]

/-! ### The link goes down -/

theorem Cdl.leaving_clkOut (s : State) (clock : Bool) : (Cdl.leaving s clock).cdl.clkOut = s.cdl.clkOut := by
  cases clock with
  | false => rfl
  | true => rw [Cdl.leaving, if_pos rfl, Cdl.dropClock_cdl]

/-- Isolation, of a member or of a module that is none, keeps CDL_CLK_OUT. -/
theorem Cdl.isolate_keeps (s : State) : Cdl.Clocked s (Cdl.isolate s true) ([Cdl.b + 0x044, Cdl.b + 0x014] ++ Cdl.pllWords) ∧
    (Cdl.isolate s true).cdl.clkOut = s.cdl.clkOut := by
  have hleave := (Cdl.leaving_clocked s true).mono (vs := [Cdl.b + 0x044, Cdl.b + 0x014] ++ Cdl.pllWords)
    (fun a ha => List.mem_append_right _ ha)
  by_cases h : Cdl.state s = 6 ∨ Cdl.role s = 0
  · have hnone : Cdl.isolate s true = Cdl.leaving s true := by
      refine if_pos ?_
      change Cdl.state (Cdl.dropClock s) = 6 ∨ Cdl.role (Cdl.dropClock s) = 0
      rwa [show Cdl.state (Cdl.dropClock s) = Cdl.state s from (Cdl.dropClock_clocked s).get rfl (by decide),
        show Cdl.role (Cdl.dropClock s) = Cdl.role s from (Cdl.dropClock_clocked s).get rfl (by decide)]
    rw [hnone]
    exact ⟨hleave, Cdl.leaving_clkOut s true⟩
  · obtain ⟨hstate, hrole⟩ := not_or.1 h
    have hiso := Cdl.isolate_leaving hstate hrole true
    refine ⟨hleave.trans (hiso.clocked.mono (fun a ha => List.mem_append_left _ ha)), ?_⟩
    rw [hiso.cdl]
    exact Cdl.leaving_clkOut s true

theorem Cdl.disable_down (s : State) : Cdl.Clocked s (Cdl.disable s) ([Cdl.b + 0x044, Cdl.b + 0x014] ++ Cdl.pllWords) ∧
    Cdl.state (Cdl.disable s) = 0 ∧ (Cdl.disable s).get Cdl.b Cdl.CDL_STAT_MEMBERS = 0 ∧
    (Cdl.disable s).cdl.clkOut = s.cdl.clkOut := by
  obtain ⟨hclk, hout⟩ := Cdl.isolate_keeps (Arr.changing s)
  unfold Cdl.disable
  generalize Cdl.isolate (Arr.changing s) true = u at hclk hout
  dsimp only
  generalize hv : u.modCdl (fun c => { c with heralds := false, synced := false, members := CdlSt.init.members }) = v
  have hvclk : Cdl.Clocked s v ([Cdl.b + 0x044, Cdl.b + 0x014] ++ Cdl.pllWords) :=
    hv ▸ ((Cdl.Clocked.refl s _).changing.trans hclk).modCdl _
  refine ⟨?_, ?_, ?_, ?_⟩
  · exact (hvclk.only ((Cdl.Only.refl v _).setState 0 (by simp) (by simp))).put Cdl.b Cdl.CDL_STAT_MEMBERS 0 rfl (by decide)
  · exact (State.get_put_apart _ Cdl.b 0 (by decide)).trans (Cdl.state_setState v (by decide))
  · rw [State.get_put_same]
    rfl
  · rw [State.put_cdl, Cdl.setState_cdl, ← hv, State.modCdl_cdl]
    exact hout.trans (congrArg CdlSt.clkOut (Arr.changing_cdl s))

end Sys2Proof.Machine
end

section
/-! ## A covariance window ends, and the obligation (O30; spec/07 R173) -/

namespace Sys2Proof.Machine

/-! ### Records -/

/-- A record starts with its magic number and the band. -/
theorem Arr.record_front (s : State) (band seq g t : Nat) (xs : List (List Elem)) :
    (Arr.record s band seq g t xs)[0]? = some 0x56 ∧ (Arr.record s band seq g t xs)[1]? = some 0x43 ∧
      (Arr.record s band seq g t xs)[2]? = some (band % 256) := ⟨rfl, rfl, rfl⟩

/-- It has 64 bytes of header and 8 for each of the 36 pairs of elements. -/
theorem Arr.length_record (s : State) (band seq g t : Nat) (xs : List (List Elem)) :
    (Arr.record s band seq g t xs).length = 352 := by
  simp only [Arr.record, List.length_append, length_recBytes, List.length_flatMap, length_leBytes, List.length_replicate, List.map_cons,
    List.map_nil, List.sum_cons, List.sum_nil]
  rfl

/-- The record `r` at `a`, its header last. -/
def Arr.recordWritten (s : State) (a : Nat) (r : List Nat) : State := (s.put8 (a + 64) (r.drop 64)).put8 a (r.take 64)

theorem Arr.recordWritten_only {s : State} (hecc : s.eccBad = []) (a : Nat) (r : List Nat) :
    Arr.recordWritten s a r = { s with mem := (Arr.recordWritten s a r).mem, dcache := (Arr.recordWritten s a r).dcache } := by
  unfold Arr.recordWritten
  have hecc' : (s.put8 (a + 64) (r.drop 64)).eccBad = [] := (State.put8_stands hecc _ _).2.2
  rw [State.put8_only hecc', State.put8_only hecc]

section

variable (s : State) {a : Nat} {r : List Nat} (hr : r.length = 352)
include hr

/-- The bytes of its header. -/
theorem Arr.byte_recordWritten (hlo : 0x10000000 ≤ a) (hhi : a + 352 ≤ 0x11FC0000) {i v : Nat} (hi : i < 64) (hv : r[i]? = some v) :
    (Arr.recordWritten s a r).byte (a + i) = BitVec.ofNat 8 v := by
  have hlen : (r.take 64).length = 64 := by rw [List.length_take, hr]; rfl
  rw [Arr.recordWritten, State.byte_put8_sram _ hlo (by omega) (by omega), if_pos (by omega), Nat.add_sub_cancel_left,
    List.getElem?_take_of_lt hi, hv]
  rfl

/-- No byte outside it changes. -/
theorem Arr.byte_recordWritten_outside {x : Nat} (hx : x < a ∨ a + 352 ≤ x) : (Arr.recordWritten s a r).byte x = s.byte x := by
  have hfront : (r.take 64).length = 64 := by rw [List.length_take, hr]; rfl
  have hback : (r.drop 64).length = 288 := by rw [List.length_drop, hr]
  rw [Arr.recordWritten, State.byte_put8_outside _ (by omega), State.byte_put8_outside _ (by omega)]

end

/-! ### COV_WINDOW_END -/

/-- The buffer that the next records go to: the other one than the last (R173). -/
def Arr.covLast (s : State) : Nat := if s.flag Arr.b Arr.COV_STAT_VALID then 1 - s.get Arr.b Arr.COV_STAT_LAST else 0

/-- Its address. -/
def Arr.covDst (s : State) : Nat := 64 * s.wget Arr.b Arr.COV_DST_ADDR + 0x2C0 * Arr.covLast s

/-- The window is over: SEQ, VALID, the buffer and the event are shown. -/
def Arr.windowEnded (s : State) (start seq last : Nat) : State :=
  (((({ s with arr := { s.arr with covFrom := start, covSeq := seq } } : State).put Arr.b Arr.COV_STAT_LAST last).put
    Arr.b Arr.COV_STAT_VALID 1).put Arr.b Arr.COV_STAT_SEQ seq).raise Arr.p 0

theorem Arr.covLast_lt (s : State) : Arr.covLast s < 2 := by
  unfold Arr.covLast
  split <;> omega

/-- The buffer is where it was after time has run. -/
theorem Arr.covDst_runToSample (s : State) (k : Nat) :
    Arr.covLast (s.runToSample k) = Arr.covLast s ∧ Arr.covDst (s.runToSample k) = Arr.covDst s := by
  have hget (f : Fld) : (s.runToSample k).get Arr.b f = s.get Arr.b f := State.get_congr (State.regs_runToSample s k) _ _
  have hlast : Arr.covLast (s.runToSample k) = Arr.covLast s := by
    unfold Arr.covLast State.flag
    rw [hget, hget]
  refine ⟨hlast, ?_⟩
  unfold Arr.covDst
  rw [hlast, State.wget_congr (State.work_runToSample s k)]

theorem Arr.windowEnded_shows (s : State) (start seq : Nat) {last : Nat} (hlast : last < 2) :
    (Arr.windowEnded s start seq last).mem = s.mem ∧ (Arr.windowEnded s start seq last).arr =
      { s.arr with covFrom := start, covSeq := seq } ∧ (Arr.windowEnded s start seq last).flag Arr.b Arr.COV_STAT_VALID = true ∧
    (Arr.windowEnded s start seq last).get Arr.b Arr.COV_STAT_LAST = last ∧
    ((Arr.windowEnded s start seq last).get Arr.b H.IRQ_RAW).testBit 0 = true := by
  have hget (u : State) {g : Fld} (hg : H.IRQ_RAW.apart g = true) : (u.raise Arr.p 0).get Arr.b g = u.get Arr.b g :=
    State.get_put_apart u Arr.b _ hg
  unfold Arr.windowEnded
  refine ⟨?_, ?_, ?_, ?_, State.testBit_raise_same (p := Arr.p) _ (by decide)⟩
  · rw [State.raise_mem, State.put_mem, State.put_mem, State.put_mem]
  · rw [State.raise_arr, State.put_arr, State.put_arr, State.put_arr]
  · rw [State.flag, hget _ (by decide), State.get_put_apart _ _ _ (by decide), State.get_put_same]
    rfl
  · rw [hget _ (by decide), State.get_put_apart _ _ _ (by decide), State.get_put_apart _ _ _ (by decide), State.get_put_same]
    exact Nat.mod_eq_of_lt hlast

/-- The state in which both bands' records are written. -/
def Arr.bothWritten (s : State) (seq g t : Nat) (xs ys : List (List Elem)) : State :=
  let u := Arr.recordWritten s (Arr.covDst s + 352 * 0) (Arr.record s 0 seq g t xs)
  Arr.recordWritten u (Arr.covDst s + 352 * 1) (Arr.record u 1 seq g t ys)

theorem exec_covWindowEnd_forms {s : State} (hon : s.wflag Arr.b Arr.COV_CFG_COV_EN = true) (hen : s.en Arr.p = true)
    (hf : s.frozen Arr.p = false) (hforms : Arr.forms s = true) (win : List (List (Int × Int))) :
    ∃ k t xs ys, exec (.covWindowEnd win) s = .next
      (Arr.windowEnded (Arr.bothWritten (s.runToSample k) ((s.runToSample k).arr.covSeq + 1) s.arr.covFrom t xs ys)
        ((s.arr.covFrom + Arr.window s) % 2 ^ 48) ((s.runToSample k).arr.covSeq + 1) (Arr.covLast (s.runToSample k))) := by
  change ∃ k t xs ys, execCovWindowEnd win s = _
  unfold execCovWindowEnd Arr.windowEnded Arr.bothWritten Arr.recordWritten Arr.covDst Arr.covLast
  rw [if_neg (by simp [hon, hen, hf, hforms])]
  exact ⟨_, _, _, _, rfl⟩

section

variable (s : State) (seq g t : Nat) (xs ys : List (List Elem))

theorem Arr.bothWritten_arr (hecc : s.eccBad = []) : (Arr.bothWritten s seq g t xs ys).arr = s.arr := by
  unfold Arr.bothWritten
  dsimp only
  rw [Arr.recordWritten_only, Arr.recordWritten_only hecc]
  rw [Arr.recordWritten_only hecc]
  exact hecc

/-- Each record stands in its place, and nothing outside them changes. -/
theorem Arr.byte_bothWritten {a : Nat} (ha : Arr.covDst s = a) (hlo : 0x10000000 ≤ a) (hhi : a + 704 ≤ 0x11FC0000) :
    (Arr.bothWritten s seq g t xs ys).byte a = 0x56 ∧ (Arr.bothWritten s seq g t xs ys).byte (a + 1) = 0x43 ∧
      (Arr.bothWritten s seq g t xs ys).byte (a + 2) = 0 ∧ (Arr.bothWritten s seq g t xs ys).byte (a + 352) = 0x56 ∧
      (Arr.bothWritten s seq g t xs ys).byte (a + 354) = 1 ∧
      ∀ x, x < a ∨ a + 704 ≤ x → (Arr.bothWritten s seq g t xs ys).byte x = s.byte x := by
  unfold Arr.bothWritten
  simp only [ha, Nat.mul_zero, Nat.mul_one, Nat.add_zero]
  have hfirst := Arr.length_record s 0 seq g t xs
  obtain ⟨h0, h1, h2⟩ := Arr.record_front s 0 seq g t xs
  generalize Arr.record s 0 seq g t xs = r at hfirst h0 h1 h2
  have hsecond := Arr.length_record (Arr.recordWritten s a r) 1 seq g t ys
  obtain ⟨k0, -, k2⟩ := Arr.record_front (Arr.recordWritten s a r) 1 seq g t ys
  generalize Arr.record (Arr.recordWritten s a r) 1 seq g t ys = q at hsecond k0 k2
  have hout {x : Nat} (hx : x < a + 352) := Arr.byte_recordWritten_outside (Arr.recordWritten s a r) hsecond (a := a + 352) (.inl hx)
  refine ⟨?_, ?_, ?_, ?_, ?_, fun x hx => ?_⟩
  · exact (hout (by omega)).trans (Arr.byte_recordWritten s hfirst hlo (by omega) (i := 0) (by decide) h0)
  · exact (hout (by omega)).trans (Arr.byte_recordWritten s hfirst hlo (by omega) (by decide) h1)
  · exact (hout (by omega)).trans (Arr.byte_recordWritten s hfirst hlo (by omega) (by decide) h2)
  · exact Arr.byte_recordWritten _ hsecond (a := a + 352) (by omega) (by omega) (i := 0) (by decide) k0
  · exact Arr.byte_recordWritten _ hsecond (a := a + 352) (by omega) (by omega) (i := 2) (by decide) k2
  · rw [Arr.byte_recordWritten_outside _ hsecond (by omega), Arr.byte_recordWritten_outside _ hfirst (by omega)]

end

/-- A window of covariance ends with both records in the other buffer. -/
theorem covWindowEnd_writes {s : State} (hclean : s.Clean) (hon : s.wflag Arr.b Arr.COV_CFG_COV_EN = true) (hen : s.en Arr.p = true)
    (hf : s.frozen Arr.p = false) (hforms : Arr.forms s = true) {dst : Nat} (hdst : Arr.covDst s = dst)
    (harea : inSramArea dst 704 = true) (win : List (List (Int × Int))) :
    ∃ t, exec (.covWindowEnd win) s = .next t ∧ t.byte dst = 0x56 ∧ t.byte (dst + 1) = 0x43 ∧ t.byte (dst + 2) = 0 ∧
      t.byte (dst + 352) = 0x56 ∧ t.byte (dst + 354) = 1 ∧ (∀ a, a < dst ∨ dst + 704 ≤ a → t.byte a = s.byte a) ∧
      t.flag Arr.b Arr.COV_STAT_VALID = true ∧ t.get Arr.b Arr.COV_STAT_LAST = Arr.covLast s ∧ t.arr.covSeq = s.arr.covSeq + 1 ∧
      t.arr.covFrom = (s.arr.covFrom + Arr.window s) % 2 ^ 48 ∧ (t.get Arr.b H.IRQ_RAW).testBit 0 = true := by
  obtain ⟨hlo, hhi⟩ := inSramArea_bounds harea
  obtain ⟨k, t, xs, ys, hexec⟩ := exec_covWindowEnd_forms hon hen hf hforms win
  obtain ⟨hlast, hat⟩ := Arr.covDst_runToSample s k
  have hecc : (s.runToSample k).eccBad = [] := (State.runToSample_eccBad s k).trans hclean.1
  have harr : (s.runToSample k).arr = s.arr := by rw [State.runToSample_only]
  have hmem := State.runToSample_mem s k
  rw [harr, hlast] at hexec
  generalize s.runToSample k = u at hexec hat hecc harr hmem
  have hkeeps := (Arr.bothWritten_arr u (s.arr.covSeq + 1) s.arr.covFrom t xs ys hecc).trans harr
  obtain ⟨h0, h1, h2, k0, k2, hout⟩ :=
    Arr.byte_bothWritten u (s.arr.covSeq + 1) s.arr.covFrom t xs ys (hat.trans hdst) hlo hhi
  generalize Arr.bothWritten u (s.arr.covSeq + 1) s.arr.covFrom t xs ys = w at hexec hkeeps h0 h1 h2 k0 k2 hout
  obtain ⟨hwmem, hwarr, hvalid, hshown, hirq⟩ := Arr.windowEnded_shows w ((s.arr.covFrom + Arr.window s) % 2 ^ 48)
    (s.arr.covSeq + 1) (Arr.covLast_lt s)
  have hbyte := State.byte_congr hwmem
  refine ⟨_, hexec, (hbyte _).trans h0, (hbyte _).trans h1, (hbyte _).trans h2, (hbyte _).trans k0, (hbyte _).trans k2,
    fun a ha => (hbyte a).trans ((hout a ha).trans (State.byte_congr hmem a)), hvalid, hshown, ?_, ?_, hirq⟩
  · rw [hwarr]
  · rw [hwarr]

/-! ### The obligation -/

section

variable {req : Req} {s : State} (hq : s.Quiet) (hw : s.Writable req Cdl.p)
include hq hw

/-- CDL_ENABLE of a Herald. -/
theorem cdlEnable_herald (hen : s.en Cdl.p = false) (hrole : Cdl.role s = 1) : ∃ t, exec (.cdlEnable req true) s = .next t ∧
    t.en Cdl.p = true ∧ Cdl.state t = 5 ∧ t.get Cdl.b Cdl.CDL_STAT_MEMBERS = 1 ∧ t.cdl.clkOut = true ∧ t.cdl.isolated = false := by
  have hherald (u : State) (h : Cdl.role u = Cdl.role s) := Cdl.enable_herald (s := Cdl.enSet u true)
    (((Cdl.enSet_clocked u true).get rfl (by decide)).trans (h.trans hrole))
  obtain ⟨u, hexec, -, hu⟩ := exec_cdlEnable_changes (en := true) hq hw (by simp [hen]) (fun u h => by
    rw [Cdl.switched_on]
    exact (hherald u h).1.after_enSet (by decide))
  obtain ⟨hclk, hstate, hmembers, hout, hisolated⟩ := hherald u hu
  rw [Cdl.switched_on] at hexec
  refine ⟨_, hexec, ?_, ?_, ?_, ?_, ?_⟩
  · rw [State.en_answered]
    exact (hclk.flag rfl (by decide)).trans (Cdl.enSet_en u true)
  · exact (State.get_answered_req _ _ _ _ _).trans hstate
  · exact (State.get_answered_req _ _ _ _ _).trans hmembers
  · rwa [State.answered_cdl]
  · rwa [State.answered_cdl]

/-- CDL_ENABLE of a follower. -/
theorem cdlEnable_follower (hen : s.en Cdl.p = false) (hrole : Cdl.role s = 2) : ∃ t, exec (.cdlEnable req true) s = .next t ∧
    t.en Cdl.p = true ∧ t.get Cdl.b Cdl.CDL_STAT_MEMBERS = 0 ∧ Cdl.state t = 0 := by
  have hfollower (u : State) (h : Cdl.role u = Cdl.role s) := Cdl.enable_follower (s := Cdl.enSet u true)
    (((Cdl.enSet_clocked u true).get rfl (by decide)).trans (h.trans hrole))
  obtain ⟨u, hexec, -, hu⟩ := exec_cdlEnable_changes (en := true) hq hw (by simp [hen]) (fun u h => by
    rw [Cdl.switched_on]
    exact (hfollower u h).1.after_enSet (by decide))
  obtain ⟨hclk, hstate, hmembers⟩ := hfollower u hu
  rw [Cdl.switched_on] at hexec
  refine ⟨_, hexec, ?_, (State.get_answered_req _ _ _ _ _).trans hmembers, (State.get_answered_req _ _ _ _ _).trans hstate⟩
  rw [State.en_answered]
  exact (hclk.flag rfl (by decide)).trans (Cdl.enSet_en u true)

/-- CDL_ENABLE with EN 0. -/
theorem cdlEnable_down (hen : s.en Cdl.p = true) : ∃ t, exec (.cdlEnable req false) s = .next t ∧ t.en Cdl.p = false ∧
    Cdl.state t = 0 ∧ t.get Cdl.b Cdl.CDL_STAT_MEMBERS = 0 ∧ t.cdl.clkOut = s.cdl.clkOut := by
  have hdown (u : State) := Cdl.disable_down (Cdl.enSet u false)
  obtain ⟨u, hexec, hcdl, -⟩ := exec_cdlEnable_changes (en := false) hq hw (by simp [hen]) (fun u _ => by
    rw [Cdl.switched_off]
    exact (hdown u).1.after_enSet (by decide))
  obtain ⟨hclk, hstate, hmembers, hout⟩ := hdown u
  rw [Cdl.switched_off] at hexec
  refine ⟨_, hexec, ?_, (State.get_answered_req _ _ _ _ _).trans hstate, (State.get_answered_req _ _ _ _ _).trans hmembers, ?_⟩
  · rw [State.en_answered]
    exact (hclk.flag rfl (by decide)).trans (Cdl.enSet_en u false)
  · rwa [State.answered_cdl, ← hcdl, ← Cdl.enSet_cdl u false]

end

/-- Settles O30: EN starts the role (`Cdl.enable_starts`) or isolates, the commands and MSG_TX_DONE change the words they name, and a
window's records fill the buffer `Arr.covDst`. -/
theorem linkCommandsAndCovariance : Obligations.LinkCommandsAndCovariance := by
  unfold Obligations.LinkCommandsAndCovariance
  refine ⟨fun req s hq hw => ⟨fun hen => ⟨cdlEnable_herald hq hw hen, cdlEnable_follower hq hw hen⟩, cdlEnable_down hq hw,
    msgSend_sets hq hw, cdlCntClr_sets hq hw⟩, fun s hrun hbusy => msgTxDone_sends hrun hbusy, fun win s => ?_⟩
  intro last dst hclean hon hen hf hforms harea
  exact covWindowEnd_writes hclean hon hen hf hforms rfl harea win

end Sys2Proof.Machine
end

section
/-! ## An idle tick (O3; spec/08 R180, R183) -/

namespace Sys2Proof.Machine

theorem step_empty {s : State} (h : s.pending = []) : step s = .next s.idle := by
  unfold step
  rw [h]

/-- Ports with empty queues have nothing to serve. -/
theorem Net.serve_empty {s : State} (h : ∀ p : Fin 2, (Eth.egress s p.val).size = 0) : Net.serve s = s := by
  refine State.each_eq_self fun p hp => ?_
  have hlt : p < 2 := by simp at hp; omega
  rw [h ⟨p, hlt⟩]
  rfl

theorem Test.refresh_not_waiting {s : State} (h : s.pwr.waitHost = false) : Test.refresh s = s :=
  if_neg (by simp [Test.production, h])

theorem Bus.release_nothing {s : State} (h : s.held = []) : Bus.release s = s := by
  unfold Bus.release
  rw [h]
  rfl

theorem State.idle_eq_ticks {s : State} (hheld : s.held = []) (hq : s.Quiet) (htime : s.isReset .time = false)
    (hwait : s.pwr.waitHost = false) (hnet : ∀ p : Fin 2, (Eth.egress s p.val).size = 0) : s.idle = s.ticks 1 := by
  have hserve : (if (s.ticks 1).running .net then Net.serve (s.ticks 1) else s.ticks 1) = s.ticks 1 := by
    rw [Net.serve_empty (s := s.ticks 1) hnet, ite_self]
  unfold State.idle
  simp only [htime, Bool.false_eq_true, if_false, hserve]
  rw [Test.refresh_not_waiting (s := s.ticks 1) hwait, Bus.release_nothing (s := s.ticks 1) hheld, Cpu.settle_quiet (s := s.ticks 1) hq]

/-- Every timescale adds its increment times the ticks (R183). -/
theorem State.tsv_ticks (s : State) (k : Nat) (n : Fin 4) :
    (s.ticks k).tsv n.val = TsVal.ofTotal ((s.tsv n.val).total + s.incNow n.val * k) := by
  simp [State.tsv, State.ticks]

/-- Settles O3: with nothing to serve, release or carry out, an idle step is one tick (`State.idle_eq_ticks`). -/
theorem idleStepCountsOneTick : Obligations.IdleStepCountsOneTick := by
  unfold Obligations.IdleStepCountsOneTick
  intro s hpend hheld hq htime hwait hnet
  refine ⟨s.ticks 1, ?_, rfl, fun n => ?_, rfl⟩
  · rw [step_empty hpend, State.idle_eq_ticks hheld hq htime hwait hnet]
  · rw [State.tsv_ticks, Nat.mul_one]

end Sys2Proof.Machine
end

section
/-! ## The timescales' own state (what O31 and O32 rest on; spec/08 R183 to R190)

Rules about one operation each, and the frame `Time.Only` of the acts on timescales. -/

namespace Sys2Proof.Machine

/-! ### Updates of a timescale beside its registers -/

theorem State.tst_modTs_same (s : State) {n : Nat} (hn : n < 4) (f : TsSt → TsSt) : (s.modTs n f).tst n = f (s.tst n) := by
  simp [State.tst, State.modTs, hn]

theorem State.tst_modTs_ne (s : State) {n k : Nat} (h : k ≠ n) (f : TsSt → TsSt) : (s.modTs n f).tst k = s.tst k := by
  simp [State.tst, State.modTs, h.symm]

/-- A change that leaves a part of the record leaves that part of every timescale. -/
theorem State.tst_modTs_part {β : Type} {g : TsSt → β} {f : TsSt → TsSt} (h : ∀ x, g (f x) = g x) (s : State) (n k : Nat) :
    g ((s.modTs n f).tst k) = g (s.tst k) := by
  by_cases hk : k = n
  · subst hk
    by_cases hn : k < 4
    · rw [State.tst_modTs_same s hn, h]
    · simp [State.tst, State.modTs, hn]
  · rw [State.tst_modTs_ne s hk]

theorem State.tst_congr {s t : State} (h : s.tsSt = t.tsSt) (n : Nat) : s.tst n = t.tst n := by
  unfold State.tst
  rw [h]

theorem State.tsv_congr {s t : State} (h : s.ts = t.ts) (n : Nat) : s.tsv n = t.tsv n := by
  unfold State.tsv
  rw [h]

@[simp] theorem State.tst_put (s : State) (b : Nat) (f : Fld) (v n : Nat) : (s.put b f v).tst n = s.tst n :=
  State.tst_congr (State.put_tsSt s b f v) n

@[simp] theorem State.tst_raise (s : State) (p k n : Nat) : (s.raise p k).tst n = s.tst n := State.tst_congr (State.raise_tsSt s p k) n

@[simp] theorem State.get_modTs (s : State) (n : Nat) (f : TsSt → TsSt) (b : Nat) (g : Fld) : (s.modTs n f).get b g = s.get b g :=
  State.get_congr (s := s.modTs n f) (t := s) rfl b g

@[simp] theorem State.now_modTs (s : State) (n : Nat) (f : TsSt → TsSt) : (s.modTs n f).now = s.now := rfl

@[simp] theorem State.reg_modTs (s : State) (n : Nat) (f : TsSt → TsSt) (a : Nat) : (s.modTs n f).reg a = s.reg a := rfl

@[simp] theorem State.now_put (s : State) (b : Nat) (f : Fld) (v : Nat) : (s.put b f v).now = s.now := by
  unfold State.now
  rw [State.put_base]

/-! ### Fields of several words -/

theorem State.reg_put_words (s : State) (b : Nat) (f : Fld) (v : Nat) {x : Nat} (h : ∀ i < f.words, x ≠ b + f.off + 4 * i) :
    (s.put b f v).reg x = s.reg x := by
  rw [State.put_eq, State.reg_setWords, if_neg]
  rintro ⟨hlo, hhi, hmod⟩
  exact h ((x - (b + f.off)) / 4) (by omega) (by omega)

/-! ### The frame -/

/-- `t` differs from `s` at most in the timescales beside their registers and values, and in the register words `ws`. -/
structure Time.Only (s t : State) (ws : List Nat) : Prop where
  rest : t = { s with regs := t.regs, tsSt := t.tsSt }
  reg : ∀ a ∉ ws, t.reg a = s.reg a

namespace Time.Only

variable {s t u : State} {ws : List Nat}

theorem refl (s : State) (ws : List Nat) : Time.Only s s ws := ⟨rfl, fun _ _ => rfl⟩

theorem trans (h : Time.Only s t ws) (h' : Time.Only t u ws) : Time.Only s u ws :=
  ⟨by rw [h'.rest, h.rest], fun a ha => (h'.reg a ha).trans (h.reg a ha)⟩

theorem mono {vs : List Nat} (h : Time.Only s t ws) (hs : ∀ a ∈ ws, a ∈ vs) : Time.Only s t vs :=
  ⟨h.rest, fun a ha => h.reg a fun hm => ha (hs a hm)⟩

/-! #### What stands -/

theorem get (h : Time.Only s t ws) {b : Nat} {f : Fld} (hn : ∀ i < f.words, b + f.off + 4 * i ∉ ws) : t.get b f = s.get b f := by
  rw [State.get_eq, State.get_eq, State.wordsAt_congr fun i hi => h.reg _ (hn i hi)]

theorem base (h : Time.Only s t ws) : t.base = s.base := by rw [h.rest]
theorem now (h : Time.Only s t ws) : t.now = s.now := by rw [State.now, h.base, State.now]
theorem ts (h : Time.Only s t ws) : t.ts = s.ts := by rw [h.rest]
theorem work (h : Time.Only s t ws) : t.work = s.work := by rw [h.rest]
theorem cores (h : Time.Only s t ws) : t.cores = s.cores := by rw [h.rest]
theorem armed (h : Time.Only s t ws) : t.armed = s.armed := by rw [h.rest]

theorem quiet (h : Time.Only s t ws) (hq : s.Quiet) : t.Quiet := by
  rw [h.rest]
  exact hq

/-! #### One more update -/

theorem put (h : Time.Only s t ws) (b : Nat) (f : Fld) (v : Nat) (hw : ∀ i < f.words, b + f.off + 4 * i ∈ ws) :
    Time.Only s (t.put b f v) ws := by
  refine h.trans ⟨?_, fun a ha => State.reg_put_words t b f v fun i hi he => ha (he ▸ hw i hi)⟩
  conv_lhs => rw [State.put_only]
  rw [State.put_tsSt]

theorem raise (h : Time.Only s t ws) (p n : Nat) (hw : pg p + 0x014 ∈ ws) : Time.Only s (t.raise p n) ws :=
  h.put _ _ _ fun i hi => by
    obtain rfl : i = 0 := Nat.lt_one_iff.1 hi
    exact hw

theorem modTs (h : Time.Only s t ws) (n : Nat) (f : TsSt → TsSt) : Time.Only s (t.modTs n f) ws := h.trans ⟨rfl, fun _ _ => rfl⟩

theorem ite (h : Time.Only s t ws) (c : Prop) [Decidable c] (h' : Time.Only s u ws) : Time.Only s (if c then t else u) ws := by
  split
  · exact h
  · exact h'

end Time.Only

/-! ### The places of a timescale's registers -/

/-- The fields of two timescales lie apart: each block has 0x80 bytes. -/
theorem Ts.get_put_ne (s : State) {n k : Nat} (h : k ≠ n) {f g : Fld} (v : Nat) (hf : f.off + 4 * f.words ≤ 0x80)
    (hg : g.off + 4 * g.words ≤ 0x80) : (s.put (Ts.b n) f v).get (Ts.b k) g = s.get (Ts.b k) g := by
  refine State.get_put_ne s _ _ f g v ?_
  unfold Ts.b
  omega

/-- The page's own fields lie before the blocks of the timescales. -/
theorem Ts.get_put_page (s : State) (n : Nat) {f g : Fld} (v : Nat) (hf : f.off + 4 * f.words ≤ 0x100) :
    (s.put Time.b f v).get (Ts.b n) g = s.get (Ts.b n) g := by
  refine State.get_put_ne s _ _ f g v (Or.inr ?_)
  unfold Ts.b Time.b pg
  omega

theorem Time.get_put_ts (s : State) (n : Nat) {f g : Fld} (v : Nat) (hg : g.off + 4 * g.words ≤ 0x100) :
    (s.put (Ts.b n) f v).get Time.b g = s.get Time.b g := by
  refine State.get_put_ne s _ _ f g v (Or.inl ?_)
  unfold Ts.b Time.b pg
  omega

/-! ### Lease states (R187, R188) -/

/-- The words of the lease of timescale `n`: TS_STAT, PUB_BOUND and the page's events. -/
def Time.leaseWords (n : Nat) : List Nat := [Ts.b n + 0x038, Ts.b n + 0x03C, Time.b + 0x014]

/-- No other word of the TIME page than IRQ_RAW is a word of a lease. -/
theorem Time.not_mem_leaseWords {n a : Nat} (h : a < 0x50100) (hirq : a ≠ 0x50014) : a ∉ Time.leaseWords n := by
  simp [Time.leaseWords, Ts.b, Time.b, pg]
  omega

theorem Time.setState_only {s t : State} {n : Nat} (h : Time.Only s t (Time.leaseWords n)) (st : Nat) :
    Time.Only s (Time.setState t n st) (Time.leaseWords n) :=
  h.ite _ ((h.put _ _ _ fun i hi => by
    obtain rfl : i = 0 := Nat.lt_one_iff.1 hi
    simp [Time.leaseWords, TsR.TS_STAT_STATE]).raise _ _ (by simp [Time.leaseWords, Time.b, Time.p]))

theorem Ts.get_raise (s : State) (n k : Nat) (g : Fld) : (s.raise Time.p k).get (Ts.b n) g = s.get (Ts.b n) g :=
  Ts.get_put_page s n _ (by decide)

theorem Time.tsState_setState (s : State) (n : Nat) {st : Nat} (h : st < 4) : (Time.setState s n st).tsState n = st := by
  unfold Time.setState
  split
  · next he => exact he
  · rw [State.tsState, Ts.get_raise, State.get_put_same]
    exact Nat.mod_eq_of_lt h

theorem Time.raised_setState {s : State} {n st : Nat} (h : s.tsState n ≠ st) (hn : n < 4) :
    ((Time.setState s n st).get Time.b H.IRQ_RAW).testBit (8 + n) = true := by
  unfold Time.setState
  rw [if_neg h]
  exact State.testBit_raise_same (p := Time.p) _ (by omega)

@[simp] theorem Time.tst_setState (s : State) (n st k : Nat) : (Time.setState s n st).tst k = s.tst k := by
  unfold Time.setState
  split <;> simp

/-- A lease renewed now: CURRENT, PUB_BOUND at ERR_BOUND. -/
theorem Time.renew_renews (s : State) {n : Nat} (hn : n < 4) : Time.Only s (Time.renew s n) (Time.leaseWords n) ∧
    (Time.renew s n).tsState n = 1 ∧ ((Time.renew s n).tst n).renewAt = s.now ∧
    (Time.renew s n).get (Ts.b n) TsR.PUB_BOUND_BOUND = s.get (Ts.b n) TsR.ERR_BOUND_BOUND := by
  unfold Time.renew
  extract_lets u
  have hstate := Time.setState_only (Time.Only.refl s (Time.leaseWords n)) 1
  have hu : Time.Only s u (Time.leaseWords n) := hstate.modTs n _
  have htst : u.tst n = { s.tst n with renewAt := s.now } :=
    (State.tst_modTs_same _ hn _).trans (by rw [Time.tst_setState])
  refine ⟨hu.put _ _ _ ?_, ?_, ?_, ?_⟩
  · intro i hi
    obtain rfl : i = 0 := Nat.lt_one_iff.1 hi
    simp [Time.leaseWords, TsR.PUB_BOUND_BOUND]
  · exact (State.get_put_apart _ _ _ (by decide)).trans ((State.get_modTs _ _ _ _ _).trans (Time.tsState_setState s n (by decide)))
  · rw [State.tst_put, htst]
  · rw [State.get_put_same, hu.get (by simp [Time.leaseWords, Fld.words, TsR.ERR_BOUND_BOUND, Ts.b, Time.b, pg]; omega)]
    exact Nat.mod_eq_of_lt (State.get_lt s _ TsR.ERR_BOUND_BOUND)

/-- A lease that runs out now: HOLDOVER from this tick on, PUB_BOUND at ERR_BOUND. -/
theorem Time.expire_expires (s : State) {n : Nat} (hn : n < 4) : Time.Only s (Time.expire s n) (Time.leaseWords n) ∧
    (Time.expire s n).tsState n = 2 ∧ ((Time.expire s n).tst n).holdAt = s.now ∧ ((Time.expire s n).tst n).holdMs = 0 ∧
    (Time.expire s n).get (Ts.b n) TsR.PUB_BOUND_BOUND = s.get (Ts.b n) TsR.ERR_BOUND_BOUND ∧
    (s.tsState n ≠ 2 → ((Time.expire s n).get Time.b H.IRQ_RAW).testBit (8 + n) = true) := by
  unfold Time.expire
  extract_lets e u
  have hu : Time.Only s u (Time.leaseWords n) := (Time.Only.refl s _).modTs n _
  have htst : u.tst n = { s.tst n with target := s.incNow n, holdAt := s.now, holdBnd := e, holdMs := 0 } :=
    State.tst_modTs_same s hn _
  have hstate : u.tsState n = s.tsState n := State.get_modTs _ _ _ _ _
  refine ⟨(Time.setState_only hu 2).put _ _ _ ?_, ?_, ?_, ?_, ?_, fun h => ?_⟩
  · intro i hi
    obtain rfl : i = 0 := Nat.lt_one_iff.1 hi
    simp [Time.leaseWords, TsR.PUB_BOUND_BOUND]
  · exact (State.get_put_apart _ _ _ (by decide)).trans (Time.tsState_setState u n (by decide))
  · rw [State.tst_put, Time.tst_setState, htst]
  · rw [State.tst_put, Time.tst_setState, htst]
  · exact (State.get_put_same _ _ _ _).trans (Nat.mod_eq_of_lt (State.get_lt s _ TsR.ERR_BOUND_BOUND))
  · rw [Time.get_put_ts _ _ _ (by decide)]
    exact Time.raised_setState (by rwa [hstate]) hn

end Sys2Proof.Machine
end

section
/-! ## Leases (O31; spec/08 R187, R188) -/

namespace Sys2Proof.Machine

/-! ### Writes to a TIME register -/

theorem Time.page_listed : pageInfo Time.p = some (.time, 0) ∧ ownerPage Time.p = Time.p := by decide

/-- A write of a TIME register, from the command to its effect `t`, which counts no error. -/
theorem Cmd.write_time {s t : State} {req : Req} {off v : Nat} (hw : s.Writable req Time.p)
    (ho : 0x040 ≤ off ∧ off < 0x1000 ∧ off % 4 = 0)
    (hf : Bus.fields .time 0 off ≠ [] ∧ (Bus.fields .time 0 off).all (fun f => f.acc == .rd) = false)
    (ht : Time.write s req.code off (v % 2 ^ 32) (Bus.store req.code Time.p (Time.b + off) (Bus.fields .time 0 off) (v % 2 ^ 32)) = t)
    (hq : t.Quiet) (hc : t.get Time.b H.COUNT = s.get Time.b H.COUNT) :
    Cmd.write s req (Time.b + off) v = .next (t.answered req []) :=
  Cmd.write_hook hw Time.page_listed.1 ho.2.1 ho.2.2 (by simp; omega) hf.1 hf.2 ht hq hc

@[simp] theorem State.tst_answered (s : State) (req : Req) (l : List Word) (n : Nat) : (s.answered req l).tst n = s.tst n := rfl

@[simp] theorem State.tsState_answered (s : State) (req : Req) (l : List Word) (n : Nat) :
    (s.answered req l).tsState n = s.tsState n := State.get_answered_req _ _ _ _ _

/-! ### LEASE_RENEW -/

theorem exec_leaseRenew (req : Req) (mask : BitVec 4) (s : State) :
    exec (.leaseRenew req mask) s = Cmd.write s req (Time.b + 0x058) mask.toNat := rfl

theorem Time.renew_only (s : State) (n : Nat) : Time.Only s (Time.renew s n) (Time.leaseWords n) := by
  refine ((Time.setState_only (Time.Only.refl s _) 1).modTs n _).put _ _ _ fun i hi => ?_
  obtain rfl : i = 0 := Nat.lt_one_iff.1 hi
  simp [Time.leaseWords, TsR.PUB_BOUND_BOUND]

/-- What a lease is about: state, record, PUB_BOUND and ERR_BOUND of timescale `n`. -/
def Time.leaseOf (n : Nat) (s : State) : Nat × TsSt × Nat × Nat :=
  (s.tsState n, s.tst n, s.get (Ts.b n) TsR.PUB_BOUND_BOUND, s.get (Ts.b n) TsR.ERR_BOUND_BOUND)

theorem Ts.get_other_lease {s t : State} {n k : Nat} (h : Time.Only s t (Time.leaseWords n)) (hk : k ≠ n) {f : Fld}
    (hf : f.off + 4 * f.words ≤ 0x80) : t.get (Ts.b k) f = s.get (Ts.b k) f :=
  h.get fun i hi => by
    simp [Time.leaseWords, Ts.b, Time.b, pg]
    omega

theorem Time.leaseOf_renew_ne (s : State) {n k : Nat} (hk : k ≠ n) : Time.leaseOf k (Time.renew s n) = Time.leaseOf k s := by
  have honly := Time.renew_only s n
  have htst : (Time.renew s n).tst k = s.tst k := by
    unfold Time.renew
    extract_lets u
    rw [State.tst_put, State.tst_modTs_ne _ hk, Time.tst_setState]
  unfold Time.leaseOf State.tsState
  rw [htst, Ts.get_other_lease honly hk (by decide), Ts.get_other_lease honly hk (by decide), Ts.get_other_lease honly hk (by decide)]

/-- The leases of a mask renewed in turn. -/
def Time.renewAll (s : State) (mask : Nat) : State := s.each ((List.range 4).filter (fun n => mask.testBit n)) Time.renew

theorem Time.write_lease (s : State) (req mask : Nat) (store : State → State) :
    Time.write s req 0x058 mask store = Time.renewAll s mask := rfl

/-- Renewals write words of leases only. -/
theorem Time.renewAll_only (s : State) (mask : Nat) : ∃ ws, Time.Only s (Time.renewAll s mask) ws ∧ Time.b + 0x024 ∉ ws := by
  refine State.each_inv (fun u => ∃ ws, Time.Only s u ws ∧ Time.b + 0x024 ∉ ws) _ _ ?_ s ⟨[], Time.Only.refl s [], by simp⟩
  rintro u n ⟨ws, hu, hn⟩
  refine ⟨ws ++ Time.leaseWords n, ?_, fun hm => ?_⟩
  · exact (hu.mono fun _ h => List.mem_append_left _ h).trans ((Time.renew_only u n).mono fun _ h => List.mem_append_right _ h)
  · rcases List.mem_append.1 hm with hm | hm
    · exact hn hm
    · exact Time.not_mem_leaseWords (by decide) (by decide) hm

theorem Time.renewAll_renews (s : State) {mask n : Nat} (hn : n < 4) (hm : mask.testBit n = true) :
    (Time.renewAll s mask).tsState n = 1 ∧ ((Time.renewAll s mask).tst n).renewAt = s.now ∧
      (Time.renewAll s mask).get (Ts.b n) TsR.PUB_BOUND_BOUND = s.get (Ts.b n) TsR.ERR_BOUND_BOUND := by
  obtain ⟨u, hnow, hsame, hdone⟩ := State.each_at (P := fun u => u.now = s.now) (g := Time.leaseOf) (f := Time.renew)
    (fun u k hu => ((Time.renew_only u k).now).trans hu) (fun u _ _ hk => Time.leaseOf_renew_ne u hk)
    (List.nodup_range.filter _) rfl (List.mem_filter.2 ⟨List.mem_range.2 hn, hm⟩)
  obtain ⟨-, hstate, hat, hpub⟩ := Time.renew_renews u hn
  simp only [Time.leaseOf, Prod.mk.injEq] at hsame hdone
  obtain ⟨-, -, -, herr⟩ := hsame
  obtain ⟨hstate', htst', hpub', -⟩ := hdone
  exact ⟨hstate'.trans hstate, (congrArg TsSt.renewAt htst').trans (hat.trans hnow), hpub'.trans (hpub.trans herr)⟩

theorem Time.renewAll_leaves (s : State) {mask n : Nat} (hm : mask.testBit n = false) :
    Time.leaseOf n (Time.renewAll s mask) = Time.leaseOf n s :=
  State.each_inv_mem (fun u => Time.leaseOf n u = Time.leaseOf n s) (fun u k hk hu =>
    (Time.leaseOf_renew_ne u (by rintro rfl; simp [hm] at hk)).trans hu) rfl

theorem leaseRenew_renews {req : Req} {mask : BitVec 4} {s : State} (hq : s.Quiet) (hw : s.Writable req Time.p) :
    ∃ t, exec (.leaseRenew req mask) s = .next t ∧ t.base = s.base ∧ t.ts = s.ts ∧
      (∀ n : Fin 4, mask.getLsbD n.val = true → t.tsState n.val = 1 ∧ (t.tst n.val).renewAt = s.now ∧
        t.get (Ts.b n.val) TsR.PUB_BOUND_BOUND = s.get (Ts.b n.val) TsR.ERR_BOUND_BOUND) ∧
      (∀ n : Fin 4, mask.getLsbD n.val = false → t.tsState n.val = s.tsState n.val ∧ t.tst n.val = s.tst n.val) := by
  have hmask : mask.toNat % 2 ^ 32 = mask.toNat := Nat.mod_eq_of_lt (mask.isLt.trans (by decide))
  obtain ⟨ws, honly, hcount⟩ := Time.renewAll_only s mask.toNat
  refine ⟨(Time.renewAll s mask.toNat).answered req [], ?_, honly.base, honly.ts, fun n hn => ?_, fun n hn => ?_⟩
  · rw [exec_leaseRenew]
    refine Cmd.write_time hw (by decide) (by decide) ?_ (honly.quiet hq) (State.get_of_reg rfl (honly.reg _ hcount))
    rw [Time.write_lease, hmask]
  · rw [State.tsState_answered, State.tst_answered, State.get_answered_req]
    exact Time.renewAll_renews s n.isLt ((BitVec.testBit_toNat mask).trans hn)
  · have h := Time.renewAll_leaves s (n := n.val) ((BitVec.testBit_toNat mask).trans hn)
    simp only [Time.leaseOf, Prod.mk.injEq] at h
    rw [State.tsState_answered, State.tst_answered]
    exact ⟨h.1, h.2.1⟩

/-! ### LEASE_EXPIRY -/

theorem exec_leaseExpiry_current {n : Fin 4} {s : State} (h : s.tsState n.val = 1) :
    exec (.leaseExpiry n) s = .next (Time.expire (s.runTo (Time.expiresAt s n.val)) n.val) := if_neg (by simp [h])

theorem State.tst_runTo (s : State) (t n : Nat) : (s.runTo t).tst n = s.tst n := by
  rw [State.runTo_only]
  rfl

theorem State.tsState_runTo (s : State) (t n : Nat) : (s.runTo t).tsState n = s.tsState n := State.get_runTo _ _ _ _

theorem leaseExpiry_holds {n : Fin 4} {s : State} (h : s.tsState n.val = 1) : ∃ t, exec (.leaseExpiry n) s = .next t ∧
    t.tsState n.val = 2 ∧ t.base = (s.runTo (Time.expiresAt s n.val)).base ∧ (t.tst n.val).holdAt = t.now ∧
    (t.tst n.val).holdMs = 0 ∧ t.get (Ts.b n.val) TsR.PUB_BOUND_BOUND = s.get (Ts.b n.val) TsR.ERR_BOUND_BOUND ∧
    (t.get Time.b H.IRQ_RAW).testBit (8 + n.val) = true ∧
    ∀ a, a ≠ Ts.b n.val + 0x038 → a ≠ Ts.b n.val + 0x03C → a ≠ Time.b + 0x014 → t.reg a = s.reg a := by
  obtain ⟨honly, hstate, hat, hms, hpub, hirq⟩ := Time.expire_expires (s.runTo (Time.expiresAt s n.val)) n.isLt
  refine ⟨_, exec_leaseExpiry_current h, hstate, honly.base, hat.trans honly.now.symm, hms, ?_, ?_, fun a h1 h2 h3 => ?_⟩
  · rw [hpub, State.get_runTo]
  · exact hirq (by rw [State.tsState_runTo, h]; decide)
  · exact (honly.reg a (by simp [Time.leaseWords, h1, h2, h3])).trans (State.reg_runTo s _ a)

/-! ### LEASE_LEN_WRITE -/

theorem exec_leaseLenWrite (req : Req) (n : Fin 4) (len : BitVec 32) (s : State) :
    exec (.leaseLenWrite req n len) s = Cmd.write s req (Time.b + (0x11C + 0x80 * n.val)) len.toNat := by
  have ha : Ts.b n.val + 0x01C = Time.b + (0x11C + 0x80 * n.val) := by
    unfold Ts.b Time.b pg
    omega
  rw [← ha]
  rfl

theorem Time.fields_leaseLen : ∀ n : Fin 4, Bus.fields .time 0 (0x11C + 0x80 * n.val) = [⟨0, 16, .fr, 2000, .clamp 10 60000⟩] := by
  decide

/-- A value within a clamped field's limits is stored as it is. -/
theorem Bus.store_within {f : FieldAt} {lo hi v : Nat} (ha : f.acc = .fr ∨ f.acc = .sh) (hc : f.chk = .clamp lo hi)
    (hlo : lo ≤ bitsOf v f.lo f.w) (hhi : bitsOf v f.lo f.w ≤ hi) (s : State) (req p a : Nat) :
    Bus.store req p a [f] v s = s.setReg a (putBits (s.regN a) f.lo f.w (bitsOf v f.lo f.w)) := by
  have hwrite (old : Nat) (first : Bool) : f.write old v first = (bitsOf v f.lo f.w, none) := by
    unfold FieldAt.write
    rcases ha with ha | ha <;> simp only [ha, hc, if_neg (Nat.not_lt.2 hlo), if_neg (Nat.not_lt.2 hhi)]
  unfold Bus.store
  rcases ha with ha | ha <;> simp [hwrite, ha]

theorem Time.write_leaseLen (n : Fin 4) (s : State) (req v : Nat) (store : State → State) :
    Time.write s req (0x11C + 0x80 * n.val) v store = Time.leaseLen (store s) n.val := by
  have hn : (0x11C + 0x80 * n.val - 0x100) / 0x80 = n.val := by omega
  have ho : (0x11C + 0x80 * n.val) % 0x80 = 0x1C := by omega
  unfold Time.write
  rw [if_neg (by omega), if_neg (by omega), if_neg (by omega), if_neg (by omega), if_neg (by omega), hn, ho]
  rfl

/-- A length written, and what it does to a lease that is overdue then. -/
theorem Time.leaseLen_set (s : State) {n len : Nat} (hn : n < 4) (hlen : len < 2 ^ 16) :
    let t := Time.leaseLen (s.put (Ts.b n) TsR.LEASE_LEN_LEN len) n
    Time.Only s t ((Ts.b n + 0x01C) :: Time.leaseWords n) ∧ t.get (Ts.b n) TsR.LEASE_LEN_LEN = len ∧
      t.tsState n = if s.tsState n = 1 ∧ (s.tst n).renewAt + len * 640000 ≤ s.now then 2 else s.tsState n := by
  have hu : Time.Only s (s.put (Ts.b n) TsR.LEASE_LEN_LEN len) ((Ts.b n + 0x01C) :: Time.leaseWords n) :=
    (Time.Only.refl s _).put _ _ _ fun i hi => by
      obtain rfl : i = 0 := Nat.lt_one_iff.1 hi
      exact List.mem_cons_self
  have hstate : (s.put (Ts.b n) TsR.LEASE_LEN_LEN len).tsState n = s.tsState n := State.get_put_apart _ _ _ (by decide)
  have hget : (s.put (Ts.b n) TsR.LEASE_LEN_LEN len).get (Ts.b n) TsR.LEASE_LEN_LEN = len :=
    (State.get_put_same _ _ _ _).trans (Nat.mod_eq_of_lt hlen)
  have hdue : Time.expiresAt (s.put (Ts.b n) TsR.LEASE_LEN_LEN len) n = (s.tst n).renewAt + len * 640000 := by
    rw [Time.expiresAt, State.tst_put, hget]
  obtain ⟨honly, hexpired, -⟩ := Time.expire_expires (s.put (Ts.b n) TsR.LEASE_LEN_LEN len) hn
  unfold Time.leaseLen
  rw [hstate, hdue, State.now_put]
  split
  · refine ⟨hu.trans (honly.mono fun _ h => List.mem_cons_of_mem _ h), ?_, hexpired⟩
    exact (honly.get (by simp [Time.leaseWords, Fld.words, TsR.LEASE_LEN_LEN, Ts.b, Time.b, pg]; omega)).trans hget
  · exact ⟨hu, hget, hstate⟩

theorem leaseLenWrite_sets {req : Req} {n : Fin 4} {len : BitVec 32} {s : State} (hq : s.Quiet) (hw : s.Writable req Time.p)
    (hlo : 10 ≤ len.toNat % 2 ^ 16) (hhi : len.toNat % 2 ^ 16 ≤ 60000) : ∃ t, exec (.leaseLenWrite req n len) s = .next t ∧
      t.get (Ts.b n.val) TsR.LEASE_LEN_LEN = len.toNat % 2 ^ 16 ∧ t.base = s.base ∧
      t.tsState n.val = if s.tsState n.val = 1 ∧ (s.tst n.val).renewAt + len.toNat % 2 ^ 16 * 640000 ≤ s.now then 2
        else s.tsState n.val := by
  obtain ⟨honly, hget, hstate⟩ := Time.leaseLen_set s n.isLt (Nat.mod_lt len.toNat (show 0 < 2 ^ 16 by decide))
  refine ⟨_, (exec_leaseLenWrite req n len s).trans (Cmd.write_time hw (by omega) ?_ ?_ (honly.quiet hq) ?_),
    (State.get_answered_req _ _ _ _ _).trans hget, honly.base, (State.tsState_answered _ _ _ _).trans hstate⟩
  · rw [Time.fields_leaseLen]
    decide
  · have hbits : bitsOf (len.toNat % 2 ^ 32) 0 16 = len.toNat % 2 ^ 16 := bitsOf_mod (by decide)
    have ha : Time.b + (0x11C + 0x80 * n.val) = Ts.b n.val + TsR.LEASE_LEN_LEN.off := by
      simp [Ts.b, Time.b, pg, TsR.LEASE_LEN_LEN]
      omega
    rw [Time.write_leaseLen, Time.fields_leaseLen, ha, Bus.store_within (Or.inl rfl) rfl (by rwa [hbits]) (by rwa [hbits]), hbits]
    rw [State.put_word _ _ _ rfl]
    rfl
  · refine honly.get fun i hi => ?_
    obtain rfl : i = 0 := Nat.lt_one_iff.1 hi
    refine List.not_mem_cons_of_ne_of_not_mem ?_ (Time.not_mem_leaseWords (by decide) (by decide))
    simp [Ts.b, Time.b, pg, H.COUNT]
    omega

/-! ### HOLD_BOUND_UPDATE -/

theorem State.now_runTo {s : State} {t : Nat} (h : s.now ≤ t) (ht : t < 2 ^ 64) : (s.runTo t).now = t := by
  unfold State.runTo
  split
  · next hlt =>
    unfold State.now State.ticks at *
    rw [BitVec.toNat_add, BitVec.toNat_ofNat]
    omega
  · omega

/-- The bound published `ms` milliseconds into HOLDOVER. -/
def Time.heldBound (s : State) (n ms : Nat) : Nat :=
  min ((s.tst n).holdBnd + s.get (Ts.b n) TsR.HOLD_RATE_RATE * ms / 1000000) (2 ^ 32 - 1)

theorem Time.heldBound_lt (s : State) (n ms : Nat) : Time.heldBound s n ms < 2 ^ 32 := by
  unfold Time.heldBound
  omega

theorem exec_holdBoundUpdate {n : Fin 4} {s : State} (h : s.tsState n.val = 2) {ms due : Nat} (hms : (s.tst n.val).holdMs + 1 = ms)
    (hat : (s.tst n.val).holdAt + 640000 * ms = due) (hdue : s.now ≤ due) (hlt : due < 2 ^ 64) : exec (.holdBoundUpdate n) s =
      .next (((s.runTo due).modTs n.val (fun t => { t with holdMs := ms })).put (Ts.b n.val) TsR.PUB_BOUND_BOUND
        (Time.heldBound s n.val ms)) := by
  have helapsed : ((s.runTo due).now - (s.tst n.val).holdAt) / 640000 = ms := by
    rw [State.now_runTo hdue hlt]
    omega
  change execHoldBoundUpdate n s = _
  unfold execHoldBoundUpdate
  simp only [h, ne_eq, not_true_eq_false, if_false, hms, hat, State.tst_runTo, helapsed, State.get_runTo]
  rfl

theorem holdBoundUpdate_publishes {n : Fin 4} {s : State} (h : s.tsState n.val = 2)
    (hdue : s.now ≤ (s.tst n.val).holdAt + 640000 * ((s.tst n.val).holdMs + 1))
    (hlt : (s.tst n.val).holdAt + 640000 * ((s.tst n.val).holdMs + 1) < 2 ^ 64) : ∃ t, exec (.holdBoundUpdate n) s = .next t ∧
      t.now = (s.tst n.val).holdAt + 640000 * ((s.tst n.val).holdMs + 1) ∧ (t.tst n.val).holdMs = (s.tst n.val).holdMs + 1 ∧
      t.get (Ts.b n.val) TsR.PUB_BOUND_BOUND = min ((s.tst n.val).holdBnd +
        s.get (Ts.b n.val) TsR.HOLD_RATE_RATE * ((s.tst n.val).holdMs + 1) / 1000000) (2 ^ 32 - 1) ∧
      ∀ a, a ≠ Ts.b n.val + 0x03C → t.reg a = s.reg a := by
  refine ⟨_, exec_holdBoundUpdate h rfl rfl hdue hlt, ?_, ?_, ?_, fun a ha => ?_⟩
  · exact (State.now_put _ _ _ _).trans ((State.now_modTs _ _ _).trans (State.now_runTo hdue hlt))
  · rw [State.tst_put, State.tst_modTs_same _ n.isLt]
  · exact (State.get_put_same _ _ _ _).trans (Nat.mod_eq_of_lt (Time.heldBound_lt s n.val _))
  · exact ((State.RegsOnly.put _ _ _ _ rfl).2 a (by simpa [TsR.PUB_BOUND_BOUND] using ha)).trans ((State.reg_modTs _ _ _ a).trans (State.reg_runTo s _ a))

end Sys2Proof.Machine
end

section
/-! ## Increments, captures and coast mode (O31; spec/08 R181, R184 to R186) -/

namespace Sys2Proof.Machine

/-! ### Acts on one timescale after another -/

/-- `t` differs from `s` at most in the timescales: no register before theirs, nothing else but their own state. -/
structure Ts.Kept (s t : State) : Prop where
  rest : t = { s with regs := t.regs, tsSt := t.tsSt }
  reg : ∀ a < 0x50100, t.reg a = s.reg a

namespace Ts.Kept

variable {s t : State}

theorem refl (s : State) : Ts.Kept s s := ⟨rfl, fun _ _ => rfl⟩

theorem trans {u : State} (h : Ts.Kept s t) (h' : Ts.Kept t u) : Ts.Kept s u :=
  ⟨by rw [h'.rest, h.rest], fun a ha => (h'.reg a ha).trans (h.reg a ha)⟩

theorem put (h : Ts.Kept s t) (n : Nat) (f : Fld) (v : Nat) : Ts.Kept s (t.put (Ts.b n) f v) := by
  refine h.trans ⟨?_, fun a ha => State.reg_put_words t _ f v fun i _ => ?_⟩
  · conv_lhs => rw [State.put_only]
    rw [State.put_tsSt]
  · unfold Ts.b
    omega

theorem modTs (h : Ts.Kept s t) (n : Nat) (f : TsSt → TsSt) : Ts.Kept s (t.modTs n f) := h.trans ⟨rfl, fun _ _ => rfl⟩

theorem each {f : State → Nat → State} (hf : ∀ u n, Ts.Kept s u → Ts.Kept s (f u n)) (h : Ts.Kept s t) (l : List Nat) :
    Ts.Kept s (t.each l f) := State.each_inv _ l f hf t h

theorem base (h : Ts.Kept s t) : t.base = s.base := by rw [h.rest]
theorem now (h : Ts.Kept s t) : t.now = s.now := by rw [State.now, h.base, State.now]
theorem ts (h : Ts.Kept s t) : t.ts = s.ts := by rw [h.rest]
theorem work (h : Ts.Kept s t) : t.work = s.work := by rw [h.rest]
theorem armed (h : Ts.Kept s t) : t.armed = s.armed := by rw [h.rest]
theorem updLast (h : Ts.Kept s t) : t.updLast = s.updLast := by rw [h.rest]

theorem quiet (h : Ts.Kept s t) (hq : s.Quiet) : t.Quiet := by
  rw [h.rest]
  exact hq

theorem get (h : Ts.Kept s t) {f : Fld} (hf : f.off + 4 * f.words ≤ 0x100) : t.get Time.b f = s.get Time.b f := by
  rw [State.get_eq, State.get_eq, State.wordsAt_congr fun i hi => h.reg _ (by unfold Time.b pg; omega)]

end Ts.Kept

theorem State.incNow_eq (s : State) (n : Nat) : s.incNow n = s.get (Ts.b n) TsR.INC_NOW_INC := rfl

theorem State.incNow_lt (s : State) (n : Nat) : s.incNow n < 2 ^ 64 := State.get_lt s _ TsR.INC_NOW_INC

/-! ### SECOND_TICK -/

theorem Time.anchor_kept (s : State) : Ts.Kept s (Time.anchor s) :=
  (Ts.Kept.refl s).each (fun _ _ hu => hu.put _ _ _) _

/-- INC_ANCHOR takes INC_NOW, on every timescale. -/
theorem Time.anchor_anchors (s : State) {n : Nat} (hn : n < 4) : (Time.anchor s).get (Ts.b n) TsR.INC_ANCHOR_INC = s.incNow n := by
  have h := State.each_apply (g := fun k u => (u.get (Ts.b k) TsR.INC_NOW_INC, u.get (Ts.b k) TsR.INC_ANCHOR_INC))
    (act := fun x => (x.1, x.1)) (f := fun u k => u.put (Ts.b k) TsR.INC_ANCHOR_INC (u.incNow k)) (fun u k => ?_) (fun u k j hj => ?_)
    List.nodup_range s (List.mem_range.2 hn)
  · exact congrArg Prod.snd h
  · have hlt : u.incNow k % 2 ^ TsR.INC_ANCHOR_INC.w = u.incNow k := Nat.mod_eq_of_lt (State.incNow_lt u k)
    rw [State.get_put_apart _ _ _ (by decide), State.get_put_same, hlt, State.incNow_eq]
  · rw [Ts.get_put_ne u hj _ (by decide) (by decide), Ts.get_put_ne u hj _ (by decide) (by decide)]

/-- A second counted at tick `t`. -/
def State.countSecond (s : State) (t : Nat) : State := { s with secLast := t }

theorem State.base_countSecond (s : State) (t : Nat) : (s.countSecond t).base = s.base := rfl

theorem State.get_countSecond (s : State) (t b : Nat) (f : Fld) : (s.countSecond t).get b f = s.get b f :=
  State.get_congr (s := s.countSecond t) (t := s) rfl b f

theorem State.secLast_runTo (s : State) (t : Nat) : (s.runTo t).secLast = s.secLast := by rw [State.runTo_only]

theorem Time.secondAt_due {s : State} {t : Nat} (h : s.secLast + 640000000 = t) : Time.secondAt s t = (Time.anchor s).countSecond t := by
  rw [Time.secondAt, if_pos h.le, h]
  rfl

theorem exec_secondTick {s : State} {t : Nat} (h : s.secLast + 640000000 = t) :
    exec .secondTick s = .next ((Time.anchor (s.runTo t)).countSecond t) := by
  rw [← Time.secondAt_due (by rw [State.secLast_runTo, h]), ← h]
  rfl

theorem secondTick_anchors {s : State} {t : Nat} (h : s.secLast + 640000000 = t) : ∃ u, exec .secondTick s = .next u ∧
    u.secLast = t ∧ u.base = (s.runTo t).base ∧
    ∀ n : Fin 4, u.get (Ts.b n.val) TsR.INC_ANCHOR_INC = s.get (Ts.b n.val) TsR.INC_NOW_INC := by
  refine ⟨_, exec_secondTick h, rfl, ?_, fun n => ?_⟩
  · rw [State.base_countSecond, (Time.anchor_kept _).base]
  · rw [State.get_countSecond, Time.anchor_anchors _ n.isLt, State.incNow_eq, State.get_runTo]

/-! ### TIME_UPDATE_TICK -/

/-- INC_NOW's move toward TARGET, without the report whether the limit acts. -/
def Time.slewed (s : State) (n : Nat) : State := (Time.slewTo s n).1

/-- The first component of a loop over pairs is the loop over first components. -/
theorem foldl_pair_fst {α β γ : Type} (f : α → γ → α × β) (r : β → β → β) (l : List γ) (x : α × β) :
    (l.foldl (fun x n => ((f x.1 n).1, r x.2 (f x.1 n).2)) x).1 = l.foldl (fun a n => (f a n).1) x.1 := by
  induction l generalizing x with
  | nil => rfl
  | cons n l ih => exact ih _

/-- The state at the update tick, before the tick's effects. -/
def Time.atUpdate (s : State) : State := { s.runTo (s.updLast + 65536) with updLast := s.updLast + 65536 }

theorem Time.get_atUpdate (s : State) (b : Nat) (f : Fld) : (Time.atUpdate s).get b f = s.get b f :=
  State.get_congr (s := Time.atUpdate s) (State.runTo_regs s _) b f

theorem Time.tst_atUpdate (s : State) (n : Nat) : (Time.atUpdate s).tst n = s.tst n :=
  State.tst_congr (s := Time.atUpdate s) (by unfold Time.atUpdate; rw [State.runTo_only]) n

theorem Time.armedAt_atUpdate (s : State) (key : Nat) : (Time.atUpdate s).armedAt key = s.armedAt key :=
  State.armedAt_congr (s := Time.atUpdate s) (by unfold Time.atUpdate; rw [State.runTo_only]) key

theorem Time.secLast_atUpdate (s : State) : (Time.atUpdate s).secLast = s.secLast := by
  unfold Time.atUpdate
  rw [State.runTo_only]

/-- An update tick with no second on it and nothing to take over. -/
theorem Time.update_eq {s : State} (harm : s.armedAt (pg Time.p + 0x02C) = none) (hsec : s.updLast + 65536 < s.secLast + 640000000) :
    ∃ any, Time.update s = ((Time.atUpdate s).each (List.range 4) Time.slewed).raiseIf any Time.p 4 := by
  have hupd : (s.runTo (s.updLast + 65536)).updLast = s.updLast := by rw [State.runTo_only]
  have hsecond : Time.secondAt (Time.atUpdate s) (s.updLast + 65536) = Time.atUpdate s :=
    if_neg (by rw [Time.secLast_atUpdate]; omega)
  have hover : Time.handOver (Time.atUpdate s) = Time.atUpdate s := by
    unfold Time.handOver
    rw [State.takePage_none ((Time.armedAt_atUpdate s _).trans harm)]
  have hdef : Time.update s = ((List.range 4).foldl (fun (x : State × Bool) n => ((Time.slewTo x.1 n).1, x.2 || (Time.slewTo x.1 n).2))
      (Time.handOver (Time.secondAt (Time.atUpdate s) (s.updLast + 65536)), false)).1.raiseIf
        ((List.range 4).foldl (fun (x : State × Bool) n => ((Time.slewTo x.1 n).1, x.2 || (Time.slewTo x.1 n).2))
          (Time.handOver (Time.secondAt (Time.atUpdate s) (s.updLast + 65536)), false)).2 Time.p 4 := by
    unfold Time.update
    simp only [hupd]
    rfl
  rw [hdef, hsecond, hover]
  exact ⟨_, congrArg (State.raiseIf · _ Time.p 4) (foldl_pair_fst Time.slewTo or (List.range 4) (Time.atUpdate s, false))⟩

theorem Time.mark_kept {s t : State} (h : Ts.Kept s t) (n : Nat) : Ts.Kept s (Time.mark t n) := h.modTs n _

theorem Time.slewed_eq (s : State) (n : Nat) : ∃ u lim, (u = s ∨ u = Time.mark s n) ∧ Time.slewed s n =
    (u.put (Ts.b n) TsR.INC_NOW_INC (clampN (s.get (Ts.b n) TsR.INC_ANCHOR_INC - Time.slew s n)
      (s.get (Ts.b n) TsR.INC_ANCHOR_INC + Time.slew s n) (s.tst n).target)).putB (Ts.b n) TsR.TS_STAT_LIMITED lim :=
  ⟨_, _, ite_eq_or_eq _ _ _, rfl⟩

theorem Time.slewed_kept {s t : State} (h : Ts.Kept s t) (n : Nat) : Ts.Kept s (Time.slewed t n) := by
  obtain ⟨u, lim, rfl | rfl, heq⟩ := Time.slewed_eq t n
  · exact heq ▸ (h.put _ _ _).put _ _ _
  · exact heq ▸ ((Time.mark_kept h n).put _ _ _).put _ _ _

/-- What the slew is about: anchor, increment and target. -/
def Time.pace (n : Nat) (s : State) : Nat × Nat × Nat :=
  (s.get (Ts.b n) TsR.INC_ANCHOR_INC, s.get (Ts.b n) TsR.INC_NOW_INC, (s.tst n).target)

theorem Time.target_mark (s : State) (n k : Nat) : ((Time.mark s n).tst k).target = (s.tst k).target := by
  refine State.tst_modTs_part (g := TsSt.target) ?_ s n k
  exact fun _ => rfl

theorem Time.get_mark (s : State) (n b : Nat) (f : Fld) : (Time.mark s n).get b f = s.get b f := State.get_modTs _ _ _ _ _

theorem Time.pace_mark (s : State) (n k : Nat) : Time.pace k (Time.mark s n) = Time.pace k s := by
  unfold Time.pace
  rw [Time.get_mark, Time.get_mark, Time.target_mark]

theorem Time.pace_slewed_same (s : State) (n : Nat) : (Time.pace n (Time.slewed s n)).2.1 =
    clampN (s.get (Ts.b n) TsR.INC_ANCHOR_INC - Time.slew s n) (s.get (Ts.b n) TsR.INC_ANCHOR_INC + Time.slew s n)
      (s.tst n).target % 2 ^ 64 := by
  obtain ⟨u, lim, -, heq⟩ := Time.slewed_eq s n
  rw [heq]
  exact (State.get_put_apart _ _ _ (by decide)).trans (State.get_put_same _ _ _ _)

theorem Time.pace_slewed_ne (s : State) {n k : Nat} (h : k ≠ n) : Time.pace k (Time.slewed s n) = Time.pace k s := by
  obtain ⟨u, lim, hu, heq⟩ := Time.slewed_eq s n
  have hpace : Time.pace k u = Time.pace k s := by
    rcases hu with rfl | rfl
    · rfl
    · exact Time.pace_mark s n k
  rw [heq, ← hpace]
  unfold Time.pace State.putB
  rw [Ts.get_put_ne _ h _ (by decide) (by decide), Ts.get_put_ne _ h _ (by decide) (by decide),
    Ts.get_put_ne _ h _ (by decide) (by decide), Ts.get_put_ne _ h _ (by decide) (by decide), State.tst_put, State.tst_put]

theorem Time.slew_congr {s t : State} (h : t.work = s.work) (n : Nat) : Time.slew t n = Time.slew s n := by
  unfold Time.slew
  rw [State.wget_congr h]

theorem Time.each_slewed (s : State) {n : Nat} (hn : n < 4) :
    (s.each (List.range 4) Time.slewed).get (Ts.b n) TsR.INC_NOW_INC = clampN (s.get (Ts.b n) TsR.INC_ANCHOR_INC - Time.slew s n)
      (s.get (Ts.b n) TsR.INC_ANCHOR_INC + Time.slew s n) (s.tst n).target % 2 ^ 64 := by
  obtain ⟨u, hwork, hsame, hdone⟩ := State.each_at (P := fun u => Ts.Kept s u) (g := Time.pace) (f := Time.slewed)
    (fun u k hu => Time.slewed_kept hu k) (fun u _ _ hk => Time.pace_slewed_ne u hk) List.nodup_range (Ts.Kept.refl s) (List.mem_range.2 hn)
  simp only [Time.pace, Prod.mk.injEq] at hsame
  obtain ⟨hanchor, -, htarget⟩ := hsame
  rw [← hanchor, ← htarget, ← Time.slew_congr hwork.work]
  exact (congrArg (·.2.1) hdone).trans (Time.pace_slewed_same u n)

theorem State.raiseIf_only (s : State) (c : Bool) (p n : Nat) : s.raiseIf c p n = { s with regs := (s.raiseIf c p n).regs } := by
  cases c
  · rfl
  · exact State.raise_only s p n

theorem State.raiseIf_armed (s : State) (c : Bool) (p n : Nat) : (s.raiseIf c p n).armed = s.armed := by rw [State.raiseIf_only]
theorem State.raiseIf_updLast (s : State) (c : Bool) (p n : Nat) : (s.raiseIf c p n).updLast = s.updLast := by rw [State.raiseIf_only]
theorem State.raiseIf_base (s : State) (c : Bool) (p n : Nat) : (s.raiseIf c p n).base = s.base := by rw [State.raiseIf_only]

theorem Ts.get_raiseIf (s : State) (c : Bool) (n k : Nat) (g : Fld) : (s.raiseIf c Time.p k).get (Ts.b n) g = s.get (Ts.b n) g := by
  cases c
  · rfl
  · exact Ts.get_raise s n k g

theorem Ptp.handOver_nothing {s : State} (h : s.armedAt (pg 0x063 + 0x02C) = none) : Ptp.handOver s = s := by
  unfold Ptp.handOver
  rw [State.takePage_none h]

theorem timeUpdateTick_slews {s : State} (harm : s.armedAt (pg Time.p + 0x02C) = none) (hptp : s.armedAt (pg 0x063 + 0x02C) = none)
    (hsec : s.updLast + 65536 < s.secLast + 640000000) : ∃ t, exec .timeUpdateTick s = .next t ∧ t.updLast = s.updLast + 65536 ∧
      t.base = (s.runTo (s.updLast + 65536)).base ∧
      ∀ n : Fin 4, t.get (Ts.b n.val) TsR.INC_NOW_INC = clampN (s.get (Ts.b n.val) TsR.INC_ANCHOR_INC - Time.slew s n.val)
        (s.get (Ts.b n.val) TsR.INC_ANCHOR_INC + Time.slew s n.val) (s.tst n.val).target % 2 ^ 64 := by
  obtain ⟨any, hupdate⟩ := Time.update_eq harm hsec
  have hkept : Ts.Kept (Time.atUpdate s) ((Time.atUpdate s).each (List.range 4) Time.slewed) :=
    (Ts.Kept.refl _).each (fun _ n h => Time.slewed_kept h n) _
  have hptp' : (Time.update s).armedAt (pg 0x063 + 0x02C) = none := by
    rw [hupdate, State.armedAt_congr ((State.raiseIf_armed _ _ _ _).trans hkept.armed), Time.armedAt_atUpdate, hptp]
  refine ⟨Time.update s, ?_, ?_, ?_, fun n => ?_⟩
  · change (.next (if s.running .net then Ptp.handOver (Time.update s) else Time.update s) : Out) = _
    rw [Ptp.handOver_nothing hptp', ite_self]
  · rw [hupdate, State.raiseIf_updLast, hkept.updLast]
    rfl
  · rw [hupdate, State.raiseIf_base, hkept.base]
    rfl
  · rw [hupdate, Ts.get_raiseIf, Time.each_slewed _ n.isLt, Time.get_atUpdate, Time.tst_atUpdate,
      Time.slew_congr (show (Time.atUpdate s).work = s.work from State.runTo_work s _)]

end Sys2Proof.Machine
end

section
/-! ## TCAP and coast mode (O31; spec/08 R181, R186) -/

namespace Sys2Proof.Machine

/-! ### TCAP -/

/-- The capture of one timescale. -/
def Time.capture (s : State) (n : Nat) : State :=
  ((s.put (Ts.b n) TsR.CAP_SEC_SEC (s.present n (64 * s.now)).1).put (Ts.b n) TsR.CAP_NS_NS (s.present n (64 * s.now)).2.1).put (Ts.b n)
    TsR.CAP_SUBNS_SUBNS (s.present n (64 * s.now)).2.2

/-- The capture tick, its number shown. -/
def Time.tcapTick (s : State) : State := (s.ticks 1).put Time.b TimeP.TCAP_T_T (s.ticks 1).now

theorem Time.tcapTick_quiet {s : State} (h : s.Quiet) : (Time.tcapTick s).Quiet :=
  State.quiet_put (s := s.ticks 1) h _ _ _

theorem Time.tcap_eq (s : State) : Time.tcap s = (Time.tcapTick s).each (List.range 4) Time.capture := rfl

/-- A presentation rests on the value, the increment and the stretches kept. -/
theorem State.present_congr {s t : State} {n : Nat} (hst : t.tst n = s.tst n) (hts : t.tsv n = s.tsv n) (hinc : t.incNow n = s.incNow n)
    (hnow : t.now = s.now) (u : Nat) : t.present n u = s.present n u := by
  unfold State.present State.tsAt64
  rw [hst, hts, hinc, hnow]

theorem State.present_lt (s : State) (n u : Nat) : (s.present n u).1 < 2 ^ 48 ∧ (s.present n u).2.1 < 2 ^ 30 ∧ (s.present n u).2.2 < 2 ^ 16 := by
  refine ⟨Nat.mod_lt _ (by decide), (Nat.mod_lt _ (by decide)).trans (?_ : 1000000000 < 2 ^ 30), Nat.mod_lt _ (by decide)⟩
  decide

theorem Time.capture_kept {s t : State} (h : Ts.Kept s t) (n : Nat) : Ts.Kept s (Time.capture t n) :=
  ((h.put _ _ _).put _ _ _).put _ _ _

theorem Time.capture_tsSt (s : State) (n : Nat) : (Time.capture s n).tsSt = s.tsSt := by
  simp [Time.capture]

/-- What a capture shows of timescale `n`. -/
def Time.captured (n : Nat) (s : State) : Nat × Nat × Nat :=
  (s.get (Ts.b n) TsR.CAP_SEC_SEC, s.get (Ts.b n) TsR.CAP_NS_NS, s.get (Ts.b n) TsR.CAP_SUBNS_SUBNS)

theorem Time.captured_capture (s : State) (n : Nat) : Time.captured n (Time.capture s n) = s.present n (64 * s.now) := by
  obtain ⟨h1, h2, h3⟩ := State.present_lt s n (64 * s.now)
  unfold Time.captured Time.capture
  rw [State.get_put_apart _ _ _ (by decide), State.get_put_apart _ _ _ (by decide), State.get_put_same,
    State.get_put_apart _ _ _ (by decide), State.get_put_same, State.get_put_same]
  exact Prod.ext (Nat.mod_eq_of_lt h1) (Prod.ext (Nat.mod_eq_of_lt h2) (Nat.mod_eq_of_lt h3))

/-- Registers of another timescale, the captured ones among them, are left. -/
theorem Time.get_capture_ne (s : State) {n k : Nat} (h : k ≠ n) {f : Fld} (hf : f.off + 4 * f.words ≤ 0x80) :
    (Time.capture s n).get (Ts.b k) f = s.get (Ts.b k) f := by
  unfold Time.capture
  rw [Ts.get_put_ne _ h _ (by decide) hf, Ts.get_put_ne _ h _ (by decide) hf, Ts.get_put_ne _ h _ (by decide) hf]

theorem Time.incNow_capture (s : State) (n k : Nat) : (Time.capture s n).incNow k = s.incNow k := by
  by_cases h : k = n
  · subst h
    rw [State.incNow_eq, State.incNow_eq]
    unfold Time.capture
    rw [State.get_put_apart _ _ _ (by decide), State.get_put_apart _ _ _ (by decide), State.get_put_apart _ _ _ (by decide)]
  · exact Time.get_capture_ne s h (by decide)

/-- Every timescale is captured at the capture tick. -/
theorem Time.captured_tcap (s : State) {n : Nat} (hn : n < 4) :
    Time.captured n (Time.tcap s) = (s.ticks 1).present n (64 * (s.ticks 1).now) := by
  obtain ⟨u, ⟨hkept, htst⟩, hsame, hdone⟩ := State.each_at (g := fun k u => (u.incNow k, Time.captured k u)) (f := Time.capture)
    (P := fun u => Ts.Kept (Time.tcapTick s) u ∧ u.tsSt = (Time.tcapTick s).tsSt) (s := Time.tcapTick s)
    (fun u k ⟨hk, ht⟩ => ⟨Time.capture_kept hk k, (Time.capture_tsSt u k).trans ht⟩)
    (fun u j k hk => by
      unfold Time.captured
      rw [Time.incNow_capture, Time.get_capture_ne u hk (by decide), Time.get_capture_ne u hk (by decide),
        Time.get_capture_ne u hk (by decide)])
    List.nodup_range ⟨Ts.Kept.refl _, rfl⟩ (List.mem_range.2 hn)
  have hnow : u.now = (s.ticks 1).now := hkept.now.trans (State.now_put _ _ _ _)
  rw [Time.tcap_eq]
  refine (congrArg Prod.snd hdone).trans ((Time.captured_capture u n).trans ?_)
  rw [hnow]
  refine State.present_congr ((State.tst_congr htst n).trans (State.tst_put _ _ _ _ _)) (State.tsv_congr ?_ n) ?_ hnow _
  · exact hkept.ts.trans (State.put_ts _ _ _ _)
  · exact (congrArg Prod.fst hsame).trans (Ts.get_put_page _ _ _ (by decide))

theorem State.now_answered (s : State) (req : Req) (l : List Word) : (s.answered req l).now = s.now := rfl
theorem State.ts_answered (s : State) (req : Req) (l : List Word) : (s.answered req l).ts = s.ts := rfl

theorem Time.captured_answered (s : State) (req : Req) (l : List Word) (n : Nat) :
    Time.captured n (s.answered req l) = Time.captured n s := by
  unfold Time.captured
  rw [State.get_answered_req, State.get_answered_req, State.get_answered_req]

theorem Time.write_tcap (s : State) (req : Nat) (store : State → State) : Time.write s req 0x054 (1 % 2 ^ 32) store = Time.tcap s := by
  unfold Time.write
  rw [if_pos rfl, if_pos (by decide)]

theorem tcap_captures {req : Req} {s : State} (hq : s.Quiet) (hw : s.Writable req Time.p) : ∃ t, exec (.tcap req) s = .next t ∧
    t.base = s.base + 1 ∧ t.get Time.b TimeP.TCAP_T_T = t.now ∧ t.ts = (s.ticks 1).ts ∧
    ∀ n : Fin 4, Time.captured n.val t = (s.ticks 1).present n.val (64 * t.now) := by
  have hkept : Ts.Kept (Time.tcapTick s) (Time.tcap s) := (Ts.Kept.refl _).each (fun _ n h => Time.capture_kept h n) _
  have hbase : (Time.tcap s).base = (s.ticks 1).base := hkept.base.trans (State.put_base _ _ _ _)
  have hnow : (Time.tcap s).now = (s.ticks 1).now := by rw [State.now, hbase, State.now]
  refine ⟨(Time.tcap s).answered req [], ?_, ?_, ?_, ?_, fun n => ?_⟩
  · refine Cmd.write_time hw (by decide) (by decide) (Time.write_tcap s _ _) ?_ ?_
    · exact hkept.quiet (Time.tcapTick_quiet hq)
    · exact (hkept.get (by decide)).trans (State.get_put_apart _ _ _ (by decide))
  · rw [State.answered_base, hbase]
    rfl
  · rw [State.get_answered_req, State.now_answered, hkept.get (by decide)]
    refine (State.get_put_same _ _ _ _).trans ((Nat.mod_eq_of_lt (s.ticks 1).base.isLt).trans hnow.symm)
  · rw [State.ts_answered]
    exact hkept.ts.trans (State.put_ts _ _ _ _)
  · rw [Time.captured_answered, Time.captured_tcap s n.isLt, State.now_answered, hnow]

/-! ### Coast mode -/

/-- `t` differs from `s` at most in the Vigils and in registers other than TIME_STAT. -/
structure Time.StatKept (s t : State) : Prop where
  rest : t = { s with regs := t.regs, vig := t.vig }
  stat : t.reg (Time.b + 0x050) = s.reg (Time.b + 0x050)

namespace Time.StatKept

variable {s t u : State}

theorem refl (s : State) : Time.StatKept s s := ⟨rfl, rfl⟩

theorem trans (h : Time.StatKept s t) (h' : Time.StatKept t u) : Time.StatKept s u :=
  ⟨by rw [h'.rest, h.rest], h'.stat.trans h.stat⟩

theorem put (h : Time.StatKept s t) {b : Nat} {f : Fld} (v : Nat) (hne : ∀ i < f.words, Time.b + 0x050 ≠ b + f.off + 4 * i) :
    Time.StatKept s (t.put b f v) := by
  refine h.trans ⟨?_, State.reg_put_words t b f v hne⟩
  conv_lhs => rw [State.put_only]
  rw [State.put_vig]

theorem modVigs (h : Time.StatKept s t) (f : VigAll → VigAll) : Time.StatKept s (t.modVigs f) := h.trans ⟨rfl, rfl⟩

theorem each {α : Type} {f : State → α → State} (hf : ∀ u x, Time.StatKept s u → Time.StatKept s (f u x)) (h : Time.StatKept s t) (l : List α) :
    Time.StatKept s (t.each l f) := State.each_inv _ l f hf t h

/-- A field of one word of a Vigil's page. -/
theorem putVig (h : Time.StatKept s t) (v : Nat) {f : Fld} (x : Nat) (hf : f.words = 1 ∧ (0x050 + f.off) % 0x1000 ≠ 0x0A0) :
    Time.StatKept s (t.put (Vig.b v) f x) := by
  refine h.put x fun i hi => ?_
  unfold Time.b Vig.b pg
  omega

theorem raiseVig (h : Time.StatKept s t) (v n : Nat) : Time.StatKept s (t.raise (2 + v) n) := h.putVig v _ ⟨rfl, by decide⟩

theorem ents (h : Time.StatKept s t) : t.ents = s.ents := by rw [h.rest]
theorem base (h : Time.StatKept s t) : t.base = s.base := by rw [h.rest]

theorem get (h : Time.StatKept s t) {f : Fld} (hf : f.off = 0x050 ∧ f.words = 1) : t.get Time.b f = s.get Time.b f := by
  rw [State.get_eq, State.get_eq, hf.1, hf.2, State.wordsAt_congr]
  intro i hi
  obtain rfl : i = 0 := Nat.lt_one_iff.1 hi
  exact h.stat

end Time.StatKept

theorem Vig.record_statKept {s t : State} (h : Time.StatKept s t) (v : Nat) (r : Recipe) (o n : Nat) :
    Time.StatKept s (Vig.record t v r o n) := by
  have hlog (f : VigSt → VigSt) (x : Nat) : Time.StatKept s ((t.modVig v f).put (Vig.b v) Vig.LOG_CNT_COUNT x) :=
    (h.modVigs _).putVig v x ⟨rfl, by decide⟩
  unfold Vig.record Vig.recordWith Vig.post
  dsimp only
  split
  · exact (hlog _ _).putVig v _ ⟨rfl, by decide⟩
  · exact (hlog _ _).modVigs _

theorem Vig.island_statKept {s t : State} (h : Time.StatKept s t) (i : Nat) (ok rec_ : Bool) :
    Time.StatKept s (Vig.island t i ok rec_) := by
  unfold Vig.island
  split
  · exact h
  · exact h.each (fun u v hu => (hu.putVig v _ ⟨rfl, by decide⟩).putVig v _ ⟨rfl, by decide⟩) _

theorem Vig.take_statKept {s t : State} (h : Time.StatKept s t) (v : Nat) (r : Recipe) : Time.StatKept s (Vig.take t v r) := by
  unfold Vig.take
  split
  · exact (Vig.record_statKept h v r 5 0).raiseVig v 0
  · refine Time.StatKept.modVigs ?_ _
    have hrec := (Vig.record_statKept h v r 0 0).raiseVig v 0
    split
    · exact Vig.island_statKept hrec _ _ _
    · exact hrec

theorem Cal.coastFault_statKept {s t : State} (h : Time.StatKept s t) : Time.StatKept s (Cal.coastFault t) := by
  unfold Cal.coastFault
  split
  · exact h
  · unfold State.fault
    split
    · exact h.modVigs _
    · exact Vig.take_statKept h _ _

theorem Pad.late_statKept (s : State) (lo hi : Nat) : Time.StatKept s (Pad.late s lo hi) :=
  (Time.StatKept.refl s).put _ (by decide)

/-- Coast mode entered: TIME_STAT shows it. -/
theorem Time.coastIn_shows (s : State) {cause : Nat} (hc : cause < 4) : (Time.coastIn s cause).coast = true ∧
    (Time.coastIn s cause).get Time.b TimeP.TIME_STAT_COAST_CAUSE = cause ∧
    (Time.coastIn s cause).get Time.b TimeP.TIME_STAT_COAST_CNT = min (s.get Time.b TimeP.TIME_STAT_COAST_CNT + 1) 65535 ∧
    ((Time.coastIn s cause).get Time.b H.IRQ_RAW).testBit 0 = true := by
  have hraise (t : State) {f : Fld} (hf : H.IRQ_RAW.apart f = true) : (t.raise Time.p 0).get Time.b f = t.get Time.b f :=
    State.get_put_apart t Time.b _ hf
  unfold Time.coastIn
  extract_lets u
  have hcount {f : Fld} (hf : TimeP.TIME_STAT_COAST_CNT.apart f = true) : (u.count Time.b TimeP.TIME_STAT_COAST_CNT).get Time.b f = u.get Time.b f :=
    State.get_put_apart u Time.b _ hf
  refine ⟨?_, ?_, ?_, State.testBit_raise_same (p := Time.p) _ (by omega)⟩
  · rw [State.coast, State.flag, hraise _ (by decide), hcount (by decide)]
    exact congrArg (· != 0) ((State.get_put_apart _ _ _ (by decide)).trans (State.get_put_same _ _ _ _))
  · rw [hraise _ (by decide), hcount (by decide)]
    exact (State.get_put_same _ _ _ _).trans (Nat.mod_eq_of_lt hc)
  · have hu : u.get Time.b TimeP.TIME_STAT_COAST_CNT = s.get Time.b TimeP.TIME_STAT_COAST_CNT :=
      (State.get_put_apart _ _ _ (by decide)).trans (State.get_put_apart _ _ _ (by decide))
    rw [hraise _ (by decide), State.count, State.get_put_same, hu]
    exact Nat.mod_eq_of_lt ((Nat.min_le_right _ _).trans_lt (by decide))

theorem Cal.recheck_no_occ {s : State} {e : Nat} (h : (s.ent e).occ = none) (en : Bool) : Cal.recheck s e en = s := by
  unfold Cal.recheck
  rw [h]

theorem Time.coastIn_ents (s : State) (cause : Nat) : (Time.coastIn s cause).ents = s.ents := by simp [Time.coastIn, State.count]
theorem Time.coastIn_base (s : State) (cause : Nat) : (Time.coastIn s cause).base = s.base := by simp [Time.coastIn, State.count]
theorem State.ents_runTo (s : State) (t : Nat) : (s.runTo t).ents = s.ents := by rw [State.runTo_only]

/-- Where nothing waits, coast entry disturbs no entry. -/
theorem Cal.coastIn_no_occ {s : State} (h : ∀ e < 256, (s.ent e).occ = none) (cause : Nat) : Cal.coastIn s cause = Time.coastIn s cause := by
  refine State.each_eq_self fun e he => ?_
  have hocc : ((Time.coastIn s cause).ent e).occ = none := by
    rw [State.ent, Time.coastIn_ents]
    exact h e (List.mem_range.1 he)
  rw [Cal.recheck_no_occ hocc, ite_self]

/-- The state at the coast edge, its faults recorded. -/
def Time.coastEdge (s : State) (lost t : Nat) : State := Cal.coastFault (Pad.late (s.runTo t) lost t)

theorem exec_coastEnter {lost : BitVec 64} {second : Bool} {s : State} (h : s.coast = false) {t : Nat}
    (ht : (lost.toNat / 64 + 1 + b2n second) * 64 = t) :
    exec (.coastEnter lost second) s = .next (Cal.coastIn (Time.coastEdge s lost.toNat t) 1) := by
  rw [← ht]
  exact if_neg (by simp [h])

theorem coastEnter_coasts {lost : BitVec 64} {second : Bool} {s : State} (h : s.coast = false)
    (hocc : ∀ e : Fin 256, (s.ent e.val).occ = none) {edge : Nat} (hedge : (lost.toNat / 64 + 1 + b2n second) * 64 = edge) :
    ∃ t, exec (.coastEnter lost second) s = .next t ∧ t.coast = true ∧ t.get Time.b TimeP.TIME_STAT_COAST_CAUSE = 1 ∧
      t.get Time.b TimeP.TIME_STAT_COAST_CNT = min (s.get Time.b TimeP.TIME_STAT_COAST_CNT + 1) 65535 ∧
      (t.get Time.b H.IRQ_RAW).testBit 0 = true ∧ t.base = (s.runTo edge).base ∧ t.ents = s.ents := by
  have hkept : Time.StatKept (s.runTo edge) (Time.coastEdge s lost.toNat edge) :=
    Cal.coastFault_statKept (Pad.late_statKept _ _ _)
  have hents : (Time.coastEdge s lost.toNat edge).ents = s.ents := by rw [hkept.ents, State.ents_runTo]
  have hno (e : Nat) (he : e < 256) : ((Time.coastEdge s lost.toNat edge).ent e).occ = none := by
    rw [State.ent, hents]
    exact hocc ⟨e, he⟩
  obtain ⟨hcoast, hcause, hcnt, hirq⟩ := Time.coastIn_shows (Time.coastEdge s lost.toNat edge) (cause := 1) (by decide)
  refine ⟨_, (exec_coastEnter h hedge).trans (by rw [Cal.coastIn_no_occ hno]), hcoast, hcause, ?_, hirq, ?_, ?_⟩
  · rw [hcnt, hkept.get ⟨rfl, rfl⟩, State.get_runTo]
  · rw [Time.coastIn_base, hkept.base]
  · rw [Time.coastIn_ents, hents]

theorem coastExit_ends {s : State} (hcoast : s.coast = true) (hawake : s.pwr.asleep = false) (hpll : s.pllState 0 = 3) :
    ∃ t, exec .coastExit s = .next t ∧ t.coast = false ∧ t.get Time.b TimeP.TIME_STAT_COAST_CAUSE = 0 ∧
      (t.get Time.b H.IRQ_RAW).testBit 1 = true ∧ t.base = (s.runTo ((s.now + 63) / 64 * 64)).base ∧
      ∀ a, a ≠ Time.b + 0x050 → a ≠ Time.b + 0x014 → t.reg a = s.reg a := by
  have hexec : exec .coastExit s = .next ((((s.runTo ((s.now + 63) / 64 * 64)).put Time.b TimeP.TIME_STAT_COAST 0).put Time.b
      TimeP.TIME_STAT_COAST_CAUSE 0).raise Time.p 1) := by
    have hlocked : s.get (pg 0x008 + 0x100) Pll.PLL_STAT_STATE = 3 := hpll
    exact if_neg (by simp [hcoast, hawake, hlocked])
  have hraise (t : State) {f : Fld} (hf : H.IRQ_RAW.apart f = true) : (t.raise Time.p 1).get Time.b f = t.get Time.b f :=
    State.get_put_apart t Time.b _ hf
  refine ⟨_, hexec, ?_, ?_, State.testBit_raise_same (p := Time.p) _ (by decide), ?_, fun a h1 h2 => ?_⟩
  · rw [State.coast, State.flag, hraise _ (by decide), State.get_put_apart _ _ _ (by decide), State.get_put_same]
    rfl
  · rw [hraise _ (by decide), State.get_put_same]
    rfl
  · rw [State.raise_base, State.put_base, State.put_base]
  · have hput (u : State) : u.RegsOnly (((u.put Time.b TimeP.TIME_STAT_COAST 0).put Time.b TimeP.TIME_STAT_COAST_CAUSE 0).raise Time.p 1)
        [Time.b + 0x050, Time.b + 0x014] :=
      (((State.RegsOnly.refl u _).put_then _ _ _ rfl (by simp [TimeP.TIME_STAT_COAST])).put_then _ _ _ rfl
        (by simp [TimeP.TIME_STAT_COAST_CAUSE])).put_then _ _ _ rfl (by simp [Time.b, Time.p, H.IRQ_RAW])
    exact ((hput _).2 a (by simp [h1, h2])).trans (State.reg_runTo _ _ _)

/-! ### The obligation -/

/-- Settles O31: each clause is the rule of its command, proved above. -/
theorem timescalesAndLeases : Obligations.TimescalesAndLeases := by
  unfold Obligations.TimescalesAndLeases
  refine ⟨fun _ _ _ => leaseRenew_renews, fun _ _ => leaseExpiry_holds, fun _ _ _ _ => leaseLenWrite_sets, fun _ _ h => holdBoundUpdate_publishes h,
    fun s => secondTick_anchors rfl, fun _ => timeUpdateTick_slews, ?_, fun _ _ _ h hocc => coastEnter_coasts h hocc rfl,
    fun _ => coastExit_ends⟩
  · intro req s hq hw
    obtain ⟨t, hexec, hbase, htcap, hts, hcap⟩ := tcap_captures hq hw
    refine ⟨t, hexec, hbase, htcap, hts, fun n => ?_⟩
    simpa only [Time.captured, Prod.ext_iff] using hcap n

end Sys2Proof.Machine
end

section
/-! ## The pads: a pulse's end and PAD_CTL (O34; spec/08 R202) -/

namespace Sys2Proof.Machine

/-! ### Fields of a word that are stored as they are written -/

/-- The word that fields stored as written make of `v`. -/
def Bus.written (fs : List FieldAt) (old v : Nat) : Nat := fs.foldl (fun n f => putBits n f.lo f.w (bitsOf v f.lo f.w)) old

theorem Bus.written_nil (old v : Nat) : Bus.written [] old v = old := rfl

theorem Bus.written_cons (f : FieldAt) (fs : List FieldAt) (old v : Nat) :
    Bus.written (f :: fs) old v = Bus.written fs (putBits old f.lo f.w (bitsOf v f.lo f.w)) v := rfl

/-- Fields that take the written bits without an error store the word that they make. -/
theorem Bus.store_written {s : State} {req p a v : Nat} {fs : List FieldAt}
    (hw : ∀ f ∈ fs, ∀ first, f.write (s.regN a) v first = (bitsOf v f.lo f.w, none)) (hon : ∀ f ∈ fs, (f.acc == .on) = false) :
    Bus.store req p a fs v s = s.setReg a (Bus.written fs (s.regN a) v) := by
  have honce : fs.any (fun f => f.acc == .on) = false := by simpa using fun f hf => by simpa using hon f hf
  unfold Bus.store
  extract_lets first step
  have hfold : fs.foldl step (s.regN a, none) = (Bus.written fs (s.regN a) v, none) := by
    unfold Bus.written
    refine List.foldl_rel (r := fun x n => x = (n, none)) rfl fun f hf x n hx => ?_
    simp only [hx, hw f hf]
  simp only [hfold, honce, Bool.false_and, Bool.false_eq_true, if_false]

theorem State.get_setReg_same (s : State) (b : Nat) {f : Fld} (hf : 0 < f.lo + f.w ∧ f.lo + f.w ≤ 32) (w : Nat) :
    (s.setReg (b + f.off) w).get b f = bitsOf w f.lo f.w := by
  have hwords : f.words = 1 := by
    unfold Fld.words
    omega
  rw [State.get_eq, hwords]
  have hone : (s.setReg (b + f.off) w).wordsAt (b + f.off) 1 = (s.setReg (b + f.off) w).regN (b + f.off) := by
    simp [State.wordsAt, State.regN]
  rw [hone, State.regN_setReg_same, bitsOf_mod hf.2]

/-! ### PULSE_END -/

theorem Pad.settle_empty {s : State} (h : s.spanQ = []) : Pad.settle s = s := by
  have hsame : ({ s with spanQ := [] } : State) = s := by rw [← h]
  unfold Pad.settle
  rw [h]
  exact hsame

/-- The earlier of an end found so far and the span's. -/
def Pad.sooner (m : Option Nat) (x : Span) : Option Nat := some (match m with | none => x.to_ | some y => min y x.to_)

/-- The spans under way on a pad. -/
def Pad.underWay (s : State) (p : Nat) : List Span := s.spans.filter (fun x => x.pad == p && decide (64 * s.now < x.to_))

theorem Pad.mem_underWay {s : State} {p : Nat} {x : Span} : x ∈ Pad.underWay s p ↔ x ∈ s.spans ∧ x.pad = p ∧ 64 * s.now < x.to_ := by
  simp [Pad.underWay]

/-- The spans that may still join another. -/
def Pad.tidied (s : State) : State := { s with spans := s.spans.filter (fun x => decide (64 * s.now < x.to_ + 128)) }

theorem Pad.tidied_base (s : State) : (Pad.tidied s).base = s.base := rfl
theorem Pad.tidied_regs (s : State) : (Pad.tidied s).regs = s.regs := rfl

theorem Pad.mem_tidied {s : State} {x : Span} (h : x ∈ (Pad.tidied s).spans) : x ∈ s.spans := (List.mem_filter.1 h).1

theorem exec_pulseEnd {pad : Fin 8} {s : State} {t : Nat} (hq : s.spanQ = [])
    (h : (Pad.underWay s pad.val).foldl Pad.sooner none = some t) :
    exec (.pulseEnd pad) s = .next (Pad.tidied (s.runTo ((t + 63) / 64))) := by
  change execPulseEnd pad s = _
  unfold execPulseEnd
  rw [Pad.settle_empty hq]
  change (match (Pad.underWay s pad.val).foldl Pad.sooner none with
    | none => .next s
    | some t => .next (Pad.tidied (s.runTo ((t + 63) / 64)))) = (.next _ : Out)
  rw [h]

/-- The soonest end of spans that are all one. -/
theorem Pad.sooner_all_same {x : Span} {l : List Span} (h : ∀ y ∈ l, y = x) :
    l.foldl Pad.sooner (some x.to_) = some x.to_ := by
  induction l with
  | nil => rfl
  | cons y l ih =>
    obtain rfl := h y List.mem_cons_self
    rw [List.foldl_cons, Pad.sooner, Nat.min_self]
    exact ih fun z hz => h z (List.mem_cons_of_mem _ hz)

theorem Pad.soonest_same {x : Span} {l : List Span} (hx : x ∈ l) (h : ∀ y ∈ l, y = x) : l.foldl Pad.sooner none = some x.to_ := by
  cases l with
  | nil => simp at hx
  | cons y l =>
    obtain rfl := h y List.mem_cons_self
    exact Pad.sooner_all_same fun z hz => h z (List.mem_cons_of_mem _ hz)

theorem State.spans_runTo (s : State) (t : Nat) : (s.runTo t).spans = s.spans := by rw [State.runTo_only]

theorem pulseEnd_releases {pad : Fin 8} {x : Span} {s : State} (hq : s.spanQ = []) (hx : x ∈ s.spans) (hpad : x.pad = pad.val)
    (hone : ∀ y ∈ s.spans, y.pad = pad.val → y = x) (hopen : 64 * s.now < x.to_) (hto : x.to_ + 63 < 2 ^ 70) :
    ∃ t, exec (.pulseEnd pad) s = .next t ∧ t.base = (s.runTo ((x.to_ + 63) / 64)).base ∧ Pad.asserted t pad.val = false ∧
      t.regs = s.regs := by
  have hsoonest : (Pad.underWay s pad.val).foldl Pad.sooner none = some x.to_ :=
    Pad.soonest_same (Pad.mem_underWay.2 ⟨hx, hpad, hopen⟩) fun y hy => by
      obtain ⟨hmem, hyp, -⟩ := Pad.mem_underWay.1 hy
      exact hone y hmem hyp
  have hnow : (s.runTo ((x.to_ + 63) / 64)).now = (x.to_ + 63) / 64 := State.now_runTo (by omega) (by omega)
  refine ⟨_, exec_pulseEnd hq hsoonest, Pad.tidied_base _, ?_, ?_⟩
  · refine List.any_eq_false.2 fun y hy => ?_
    have hmem : y ∈ s.spans := by
      rw [← State.spans_runTo s ((x.to_ + 63) / 64)]
      exact Pad.mem_tidied hy
    have hnow' : (Pad.tidied (s.runTo ((x.to_ + 63) / 64))).now = (x.to_ + 63) / 64 := by
      rw [State.now, Pad.tidied_base, ← State.now, hnow]
    by_cases hyp : y.pad = pad.val
    · have hpast : ¬64 * ((x.to_ + 63) / 64) < x.to_ := by omega
      simp [hone y hmem hyp, hnow', hpast]
    · simp [hyp]
  · rw [Pad.tidied_regs, State.runTo_regs]

/-! ### PAD_CTL -/

theorem exec_padCtlWrite (req : Req) (pad : Fin 8) (value : BitVec 32) (s : State) :
    exec (.padCtlWrite req pad value) s = Cmd.write s req (Time.b + (0x080 + 8 * pad.val)) value.toNat := by
  rw [← Nat.add_assoc]
  rfl

/-- DRIVE, POL and DELAY. -/
def Time.padCtlFields : List FieldAt := [⟨0, 1, .fr, 1, .any⟩, ⟨1, 1, .fr, 0, .any⟩, ⟨16, 12, .fr, 0, .clampS 2047 2047⟩]

theorem Time.fields_padCtl : ∀ pad : Fin 8, Bus.fields .time 0 (0x080 + 8 * pad.val) =
    Time.padCtlFields := by decide

theorem Time.write_padCtl (pad : Fin 8) (s : State) (req v : Nat) (store : State → State) :
    Time.write s req (0x080 + 8 * pad.val) v store = Pad.cut (store (Pad.changing (Pad.settle s))) := by
  unfold Time.write
  rw [if_neg (by omega), if_neg (by omega), if_neg (by omega), if_pos (by omega)]

/-- A DELAY other than −2048 is stored as written. -/
theorem Time.padCtl_written {s : State} {a v : Nat} (h : bitsOf v 16 12 ≠ 2048) (req p : Nat) :
    Bus.store req p a Time.padCtlFields v s = s.setReg a (Bus.written Time.padCtlFields (s.regN a) v) := by
  refine Bus.store_written (fun f hf first => ?_) (by decide)
  simp only [Time.padCtlFields, List.mem_cons, List.not_mem_nil, or_false] at hf
  rcases hf with rfl | rfl | rfl
  · rfl
  · rfl
  · have hlt : bitsOf v 16 12 < 4096 := bitsOf_lt v 16 12
    have hsigned : ¬toSigned 12 (bitsOf v 16 12) < -2047 ∧ ¬2047 < toSigned 12 (bitsOf v 16 12) := by
      unfold toSigned
      dsimp only
      split <;> omega
    simp [FieldAt.write, hsigned.1, hsigned.2]

theorem Time.padCtl_word (old v : Nat) : Bus.written Time.padCtlFields old v =
    putBits (putBits (putBits old 0 1 (bitsOf v 0 1)) 1 1 (bitsOf v 1 1)) 16 12 (bitsOf v 16 12) := by
  rw [Time.padCtlFields, Bus.written_cons, Bus.written_cons, Bus.written_cons, Bus.written_nil]

theorem Time.bitsOf_padCtl (old v : Nat) : bitsOf (Bus.written Time.padCtlFields old v) 0 1 = bitsOf v 0 1 ∧
    bitsOf (Bus.written Time.padCtlFields old v) 1 1 = bitsOf v 1 1 ∧ bitsOf (Bus.written Time.padCtlFields old v) 16 12 = bitsOf v 16 12 := by
  have hmod (lo w : Nat) : bitsOf v lo w % 2 ^ w = bitsOf v lo w := Nat.mod_eq_of_lt (bitsOf_lt v lo w)
  rw [Time.padCtl_word]
  refine ⟨?_, ?_, ?_⟩
  · rw [bitsOf_putBits_ne _ _ _ _ _ _ (by decide), bitsOf_putBits_ne _ _ _ _ _ _ (by decide), bitsOf_putBits, hmod]
  · rw [bitsOf_putBits_ne _ _ _ _ _ _ (by decide), bitsOf_putBits, hmod]
  · rw [bitsOf_putBits, hmod]

theorem Pad.allowed_congr {s t : State} (hregs : t.regs = s.regs) (hpwr : t.pwr = s.pwr) (p : Nat) : Pad.allowed t p = Pad.allowed s p := by
  unfold Pad.allowed State.en State.flag
  rw [State.get_congr hregs, State.get_congr hregs, hpwr]

/-- The state with a pad's register written: its pulses are still to be cut. -/
def Pad.rewritten (s : State) (a w : Nat) : State := (Pad.changing s).setReg a w

theorem Pad.rewritten_facts (s : State) (a w : Nat) : (Pad.rewritten s a w).base = s.base ∧ (Pad.rewritten s a w).spans = s.spans ∧
    (Pad.rewritten s a w).cores = s.cores ∧ ∀ x ≠ a, (Pad.rewritten s a w).reg x = s.reg x :=
  ⟨rfl, rfl, rfl, fun _ hx => State.reg_setReg_ne (Pad.changing s) w hx⟩

theorem Pad.regN_changing (s : State) (a : Nat) : (Pad.changing s).regN a = s.regN a := rfl

theorem Pad.cut_base (s : State) : (Pad.cut s).base = s.base := rfl
theorem Pad.cut_regs (s : State) : (Pad.cut s).regs = s.regs := rfl
theorem Pad.get_cut (s : State) (b : Nat) (f : Fld) : (Pad.cut s).get b f = s.get b f := State.get_congr (Pad.cut_regs s) b f
theorem Pad.reg_cut (s : State) (a : Nat) : (Pad.cut s).reg a = s.reg a := State.reg_congr (Pad.cut_regs s) a
theorem Pad.allowed_cut (s : State) (p : Nat) : Pad.allowed (Pad.cut s) p = Pad.allowed s p := Pad.allowed_congr (Pad.cut_regs s) rfl p

theorem State.spans_answered (s : State) (req : Req) (l : List Word) : (s.answered req l).spans = s.spans := rfl
theorem State.reg_answered (s : State) (req : Req) (l : List Word) (a : Nat) : (s.answered req l).reg a = s.reg a := rfl
theorem Pad.allowed_answered (s : State) (req : Req) (l : List Word) (p : Nat) : Pad.allowed (s.answered req l) p = Pad.allowed s p :=
  Pad.allowed_congr rfl rfl p

theorem Pad.mem_cut {s : State} {x : Span} : x ∈ (Pad.cut s).spans ↔ x ∈ s.spans ∧ (Pad.allowed s x.pad = true ∨ x.to_ ≤ 64 * s.now) := by
  simp [Pad.cut]

theorem padCtlWrite_sets {req : Req} {pad : Fin 8} {value : BitVec 32} {s : State} (hq : s.Quiet) (hw : s.Writable req Time.p)
    (hsp : s.spanQ = []) (hdelay : bitsOf value.toNat 16 12 ≠ 2048) : ∃ t, exec (.padCtlWrite req pad value) s = .next t ∧
      t.get (Time.b + 8 * pad.val) TimeP.PAD_CTL_DRIVE = bitsOf value.toNat 0 1 ∧
      t.get (Time.b + 8 * pad.val) TimeP.PAD_CTL_POL = bitsOf value.toNat 1 1 ∧
      t.get (Time.b + 8 * pad.val) TimeP.PAD_CTL_DELAY = bitsOf value.toNat 16 12 ∧ t.base = s.base ∧
      (bitsOf value.toNat 0 1 = 0 → ∀ x ∈ t.spans, x.pad = pad.val → x.to_ ≤ 64 * s.now) ∧
      (∀ x ∈ s.spans, Pad.allowed t x.pad = true → x ∈ t.spans) ∧ ∀ a, a ≠ Time.b + 0x080 + 8 * pad.val → t.reg a = s.reg a := by
  have haddr : Time.b + (0x080 + 8 * pad.val) = Time.b + 8 * pad.val + 0x080 := by omega
  have hvalue : value.toNat % 2 ^ 32 = value.toNat := Nat.mod_eq_of_lt value.isLt
  obtain ⟨hdrive, hpol, hdel⟩ := Time.bitsOf_padCtl (s.regN (Time.b + 8 * pad.val + 0x080)) value.toNat
  generalize hword : Bus.written Time.padCtlFields (s.regN (Time.b + 8 * pad.val + 0x080)) value.toNat = w at hdrive hpol hdel
  obtain ⟨hbase, hspans, hcores, hreg⟩ := Pad.rewritten_facts s (Time.b + 8 * pad.val + 0x080) w
  generalize hu : Pad.rewritten s (Time.b + 8 * pad.val + 0x080) w = u at hbase hspans hcores hreg
  have hnow : u.now = s.now := by rw [State.now, hbase, State.now]
  have hfield {f : Fld} (ho : f.off = 0x080) (hf : 0 < f.lo + f.w ∧ f.lo + f.w ≤ 32) :
      u.get (Time.b + 8 * pad.val) f = bitsOf w f.lo f.w := by
    rw [← hu, Pad.rewritten, ← ho]
    exact State.get_setReg_same _ _ hf w
  have hget {f : Fld} (ho : f.off = 0x080) (hf : 0 < f.lo + f.w ∧ f.lo + f.w ≤ 32) :
      ((Pad.cut u).answered req []).get (Time.b + 8 * pad.val) f = bitsOf w f.lo f.w := by
    rw [State.get_answered_req, Pad.get_cut, hfield ho hf]
  have hallowed (p : Nat) : Pad.allowed ((Pad.cut u).answered req []) p = Pad.allowed u p :=
    (Pad.allowed_answered _ _ _ p).trans (Pad.allowed_cut u p)
  refine ⟨(Pad.cut u).answered req [], ?_, (hget rfl (by decide)).trans hdrive, (hget rfl (by decide)).trans hpol,
    (hget rfl (by decide)).trans hdel, ?_, fun hoff x hx hp => ?_, fun x hx hal => ?_, fun a ha => ?_⟩
  · rw [exec_padCtlWrite]
    refine Cmd.write_time hw (by omega) ?_ ?_ ?_ ?_
    · rw [Time.fields_padCtl]
      decide
    · rw [Time.write_padCtl, Pad.settle_empty hsp, Time.fields_padCtl, hvalue, Time.padCtl_written hdelay, haddr, Pad.regN_changing, hword]
      exact congrArg Pad.cut hu
    · intro c
      simpa [State.core, Pad.cut, hcores] using hq c
    · refine State.get_of_reg rfl (hreg _ ?_)
      simp [H.COUNT]
      omega
  · rw [State.answered_base, Pad.cut_base, hbase]
  · rw [State.spans_answered, Pad.mem_cut, hspans, hnow] at hx
    refine hx.2.resolve_left fun hal => ?_
    have hzero : u.get (Time.b + 8 * pad.val) TimeP.PAD_CTL_DRIVE = 0 := (hfield rfl (by decide)).trans (hdrive.trans hoff)
    simp [Pad.allowed, State.flag, hp, hzero] at hal
  · rw [State.spans_answered, Pad.mem_cut, hspans]
    exact ⟨hx, Or.inl ((hallowed x.pad).symm.trans hal)⟩
  · rw [State.reg_answered, Pad.reg_cut]
    exact hreg a (by omega)

end Sys2Proof.Machine
end

section
/-! ## The event inputs (O34; spec/08 R203 to R205, R208) -/

namespace Sys2Proof.Machine

/-! ### What a run of time leaves of an input -/

theorem State.flag_runTo (s : State) (t b : Nat) (f : Fld) : (s.runTo t).flag b f = s.flag b f := by
  rw [State.flag, State.get_runTo, State.flag]

theorem State.getI_runTo (s : State) (t b : Nat) (f : Fld) : (s.runTo t).getI b f = s.getI b f := by
  rw [State.getI, State.get_runTo, State.getI]

theorem State.coast_runTo (s : State) (t : Nat) : (s.runTo t).coast = s.coast := State.flag_runTo _ _ _ _

theorem State.evtIn_runTo (s : State) (t : Nat) : (s.runTo t).evtIn = s.evtIn := by rw [State.runTo_only]

theorem State.evt_congr {s t : State} (h : t.evtIn = s.evtIn) (i : Nat) : t.evt i = s.evt i := by
  unfold State.evt
  rw [h]

theorem State.evt_runTo (s : State) (t i : Nat) : (s.runTo t).evt i = s.evt i := State.evt_congr (State.evtIn_runTo s t) i

theorem State.evt_modEvt_same (s : State) {i : Nat} (hi : i < 8) (f : EvtSt → EvtSt) : (s.modEvt i f).evt i = f (s.evt i) := by
  simp [State.evt, State.modEvt, hi]

/-! ### The places of an input's registers -/

/-- The page's own fields lie before the blocks of the inputs. -/
theorem Evt.get_put_page (s : State) (i : Nat) {f g : Fld} (v : Nat) (hf : f.off + 4 * f.words ≤ 0x100) :
    (s.put Evt.b f v).get (Evt.ib i) g = s.get (Evt.ib i) g := by
  refine State.get_put_ne s _ _ f g v (Or.inr ?_)
  unfold Evt.ib
  omega

theorem Evt.get_put_input (s : State) (i : Nat) {f g : Fld} (v : Nat) (hg : g.off + 4 * g.words ≤ 0x100) :
    (s.put (Evt.ib i) f v).get Evt.b g = s.get Evt.b g := by
  refine State.get_put_ne s _ _ f g v (Or.inl ?_)
  unfold Evt.ib
  omega

/-- The fields of two inputs lie apart: each block has 0x20 bytes. -/
theorem Evt.get_put_ne (s : State) {i k : Nat} (h : k ≠ i) {f g : Fld} (v : Nat) (hf : f.off + 4 * f.words ≤ 0x20)
    (hg : g.off + 4 * g.words ≤ 0x20) : (s.put (Evt.ib i) f v).get (Evt.ib k) g = s.get (Evt.ib k) g := by
  refine State.get_put_ne s _ _ f g v ?_
  unfold Evt.ib
  omega

theorem Evt.get_raise (s : State) (i k : Nat) (g : Fld) : (s.raise Evt.p k).get (Evt.ib i) g = s.get (Evt.ib i) g :=
  Evt.get_put_page s i _ (by decide)

/-! ### EVENT_CAPTURE -/

/-- The instant that a transition at `t` and `fine` is stamped with (R181, R203). -/
def Evt.stamp (s : State) (i t fine : Nat) : Nat :=
  let w := (((64 * t + (if s.coast then 0 else fine) : Nat) : Int) - s.getI (Evt.ib i) EvtI.EVT_CFG_DELAY).toNat
  if s.coast then w / 64 * 64 else w

/-- Input `i` captures its edge: page and input enabled, the edge chosen, the module awake. -/
structure Evt.Captures (s : State) (i : Nat) (rising : Bool) : Prop where
  en : s.en Evt.p = true
  input : s.flag (Evt.ib i) EvtI.EVT_CFG_EN = true
  edge : (s.get (Evt.ib i) EvtI.EVT_CFG_EDGE).testBit (if rising then 0 else 1) = true
  awake : s.pwr.asleep = false

/-- The state at the end of the filter's time. -/
def Evt.filtered (s : State) (i t : Nat) : State := s.runTo (t + s.get (Evt.ib i) EvtI.EVT_CFG_FILTER)

/-- The input's stamp, count and event of a capture at the instant `u`. -/
def Evt.stamped (s : State) (i u : Nat) : State :=
  ((((s.modEvt i (fun e => { e with last := some u })).put (Evt.ib i) EvtI.LAST_T_T (u / 64)).put (Evt.ib i) EvtI.LAST_FINE_FINE (u % 64)).count
    (Evt.ib i) EvtI.EVT_CNT_CAPTURED).raise Evt.p i

theorem State.get_modEvt (s : State) (i : Nat) (f : EvtSt → EvtSt) (b : Nat) (g : Fld) : (s.modEvt i f).get b g = s.get b g :=
  State.get_congr (s := s.modEvt i f) (t := s) rfl b g

/-- The stamp leaves the input's configuration. -/
theorem Evt.get_stamped (s : State) (i u : Nat) {g : Fld} (hg : g.off + 4 * g.words ≤ 0x004) :
    (Evt.stamped s i u).get (Evt.ib i) g = s.get (Evt.ib i) g := by
  have hput (t : State) {f : Fld} (v : Nat) (hf : 0x004 ≤ f.off) : (t.put (Evt.ib i) f v).get (Evt.ib i) g = t.get (Evt.ib i) g :=
    State.get_put_ne t _ _ f g v (Or.inl (by omega))
  unfold Evt.stamped
  rw [Evt.get_raise, State.count, hput _ _ (by decide), hput _ _ (by decide), hput _ _ (by decide), State.get_modEvt]

/-- A record that the next number is given to enters the FIFO. -/
def Evt.numbered (s : State) (r : List Nat) : State := Evt.queue { s with evtSeq := s.evtSeq + 1 } r

/-- Is an instant less than 64 ticks after the last one captured? -/
def Evt.tooSoon (last : Option Nat) (u : Nat) : Bool :=
  match last with
  | some v => decide (u < v + 64 * 64)
  | none => false

/-- Does the instant lie in a window of the input? -/
def Evt.inside (s : State) (i u : Nat) : Bool := inWindow (s.evt i).cur u || inWindow (s.evt i).prev u

/-- INFO of a record. -/
def Evt.info (s : State) (i u : Nat) (rising : Bool) : Nat :=
  i + 8 * b2n (!rising) + 16 * b2n (s.get (Evt.ib i) EvtI.EVT_CFG_GATE != 0 && Evt.inside s i u) +
    32 * b2n (s.get (Evt.ib i) EvtI.EVT_CFG_GATE != 0) + 128 * b2n s.coast

/-- The record of a capture, numbered `s.evtSeq + 1`. -/
def Evt.recordOf (s : State) (i u : Nat) (rising : Bool) : List Nat :=
  let n := s.get (Evt.ib i) EvtI.EVT_CFG_TSEL
  let t := { s with evtSeq := s.evtSeq + 1 }
  recBytes [(8, u / 64), (1, u % 64), (1, Evt.info s i u rising), (2, t.evtSeq), (4, (s.present n u).2.1), (6, (s.present n u).1),
    (2, (s.present n u).2.2), (1, n + 4 * t.tsState n), (7, 0)]

theorem Evt.length_recordOf (s : State) (i u : Nat) (rising : Bool) : (Evt.recordOf s i u rising).length = 32 := length_recBytes _

/-- What follows the stamp: a record, or an instant counted as outside the windows. -/
def Evt.recorded (s : State) (i u : Nat) (rising : Bool) : State :=
  if s.get (Evt.ib i) EvtI.EVT_CFG_GATE = 1 && !Evt.inside s i u then s.count (Evt.ib i) EvtI.OUTSIDE_COUNT
  else Evt.numbered s (Evt.recordOf s i u rising)

/-- The effect of a capture, at the end of the filter's time. -/
def Evt.captured (s : State) (i u : Nat) (rising : Bool) : State :=
  if Evt.tooSoon (s.evt i).last u then (s.count (Evt.ib i) EvtI.LOST_COUNT).raise Evt.p 10
  else Evt.recorded (Evt.stamped s i u) i u rising

theorem exec_eventCapture {i : Fin 8} {at_ : BitVec 64} {fine : BitVec 6} {rising : Bool} {s : State} (h : Evt.Captures s i.val rising) :
    exec (.eventCapture i at_ fine rising) s = .next (Evt.captured (Evt.filtered s i.val at_.toNat) i.val
      (Evt.stamp (Evt.filtered s i.val at_.toNat) i.val at_.toNat fine.toNat) rising) := by
  obtain ⟨hen, hinput, hedge, hawake⟩ := h
  have hoff : ¬(!s.en Evt.p ∨ !s.flag (Evt.ib i.val) EvtI.EVT_CFG_EN ∨
      !(s.get (Evt.ib i.val) EvtI.EVT_CFG_EDGE).testBit (if rising then 0 else 1) ∨ s.pwr.asleep) := by
    simp only [hen, hinput, hedge, hawake, Bool.not_true, Bool.false_eq_true, or_self, not_false_eq_true]
  refine (if_neg hoff).trans ?_
  unfold Evt.captured Evt.recorded
  rw [apply_ite Host.Outcome.next, apply_ite Host.Outcome.next]
  rfl

theorem Evt.stamp_filtered (s : State) (i n t fine : Nat) : Evt.stamp (Evt.filtered s i n) i t fine = Evt.stamp s i t fine := by
  unfold Evt.stamp Evt.filtered
  rw [State.coast_runTo, State.getI_runTo]

/-- A capture less than 64 ticks after the last is lost. -/
theorem eventCapture_loses {i : Fin 8} {at_ : BitVec 64} {fine : BitVec 6} {rising : Bool} {s : State} (h : Evt.Captures s i.val rising)
    {v : Nat} (hlast : (s.evt i.val).last = some v) (hclose : Evt.stamp s i.val at_.toNat fine.toNat < v + 64 * 64) :
    ∃ t, exec (.eventCapture i at_ fine rising) s = .next t ∧
      t.get (Evt.ib i.val) EvtI.LOST_COUNT = min (s.get (Evt.ib i.val) EvtI.LOST_COUNT + 1) (2 ^ 32 - 1) ∧
      (t.get Evt.b H.IRQ_RAW).testBit 10 = true ∧ t.evtIn = s.evtIn ∧ t.evtFifo = s.evtFifo ∧ t.evtSeq = s.evtSeq := by
  have hsoon : Evt.tooSoon ((Evt.filtered s i.val at_.toNat).evt i.val).last (Evt.stamp s i.val at_.toNat fine.toNat) = true := by
    rw [Evt.filtered, State.evt_runTo, hlast]
    exact decide_eq_true hclose
  have hframe (u : State) : ((u.count (Evt.ib i.val) EvtI.LOST_COUNT).raise Evt.p 10).evtIn = u.evtIn ∧
      ((u.count (Evt.ib i.val) EvtI.LOST_COUNT).raise Evt.p 10).evtFifo = u.evtFifo ∧
      ((u.count (Evt.ib i.val) EvtI.LOST_COUNT).raise Evt.p 10).evtSeq = u.evtSeq := by simp [State.count]
  have hrun (n : Nat) : (s.runTo n).evtIn = s.evtIn ∧ (s.runTo n).evtFifo = s.evtFifo ∧ (s.runTo n).evtSeq = s.evtSeq := by
    rw [State.runTo_only]
    exact ⟨rfl, rfl, rfl⟩
  obtain ⟨hin, hfifo, hseq⟩ := hframe (Evt.filtered s i.val at_.toNat)
  obtain ⟨hin', hfifo', hseq'⟩ := hrun (at_.toNat + s.get (Evt.ib i.val) EvtI.EVT_CFG_FILTER)
  refine ⟨_, (exec_eventCapture h).trans ?_, ?_, State.testBit_raise_same (p := Evt.p) _ (by omega), hin.trans hin', hfifo.trans hfifo',
    hseq.trans hseq'⟩
  · rw [Evt.stamp_filtered, Evt.captured, if_pos hsoon]
  · rw [Evt.get_raise, State.get_count_word _ _ rfl, Evt.filtered, State.get_runTo]

/-! #### The stamp -/

theorem Evt.stamped_only (s : State) (i u : Nat) :
    Evt.stamped s i u = { s with regs := (Evt.stamped s i u).regs, evtIn := (s.modEvt i (fun e => { e with last := some u })).evtIn } := by
  conv_lhs => rw [Evt.stamped, State.raise_only, State.count, State.put_only _ _ EvtI.EVT_CNT_CAPTURED, State.put_only _ _ EvtI.LAST_FINE_FINE,
    State.put_only _ _ EvtI.LAST_T_T]
  rfl

theorem Evt.stamped_base (s : State) (i u : Nat) : (Evt.stamped s i u).base = s.base := by rw [Evt.stamped_only]
theorem Evt.stamped_evtFifo (s : State) (i u : Nat) : (Evt.stamped s i u).evtFifo = s.evtFifo := by rw [Evt.stamped_only]
theorem Evt.stamped_evtSeq (s : State) (i u : Nat) : (Evt.stamped s i u).evtSeq = s.evtSeq := by rw [Evt.stamped_only]
theorem Evt.stamped_evtIn (s : State) (i u : Nat) :
    (Evt.stamped s i u).evtIn = (s.modEvt i (fun e => { e with last := some u })).evtIn := by rw [Evt.stamped_only]

/-- What the registers of an input show after a capture. -/
theorem Evt.stamped_shows (s : State) {i : Nat} (hi : i < 8) (u : Nat) :
    (Evt.stamped s i u).get (Evt.ib i) EvtI.LAST_T_T = u / 64 % 2 ^ 64 ∧ (Evt.stamped s i u).get (Evt.ib i) EvtI.LAST_FINE_FINE = u % 64 ∧
      (Evt.stamped s i u).get (Evt.ib i) EvtI.EVT_CNT_CAPTURED = min (s.get (Evt.ib i) EvtI.EVT_CNT_CAPTURED + 1) (2 ^ 32 - 1) ∧
      ((Evt.stamped s i u).get Evt.b H.IRQ_RAW).testBit i = true := by
  have hcnt (t : State) {f : Fld} (v : Nat) (hf : f.apart EvtI.EVT_CNT_CAPTURED = true) :
      (t.put (Evt.ib i) f v).get (Evt.ib i) EvtI.EVT_CNT_CAPTURED = t.get (Evt.ib i) EvtI.EVT_CNT_CAPTURED := State.get_put_apart t _ v hf
  unfold Evt.stamped
  refine ⟨?_, ?_, ?_, State.testBit_raise_same (p := Evt.p) _ (by omega)⟩
  · rw [Evt.get_raise, State.count, State.get_put_apart _ _ _ (by decide), State.get_put_apart _ _ _ (by decide), State.get_put_same]
    rfl
  · rw [Evt.get_raise, State.count, State.get_put_apart _ _ _ (by decide), State.get_put_same]
    exact Nat.mod_mod u 64
  · rw [Evt.get_raise, State.get_count_word _ _ rfl, hcnt _ _ (by decide), hcnt _ _ (by decide), State.get_modEvt]

/-! #### The record -/

theorem Evt.length_mark (r : List Nat) : (Evt.mark r).length = r.length := List.length_set

/-- A FIFO with room takes a record, with the loss flag where records were lost. -/
theorem Evt.queue_room {s : State} (h : s.evtFifo.length < 64) (r : List Nat) : Evt.queue s r =
    { s with evtFifo := s.evtFifo ++ [if s.evtLost then Evt.mark r else r], evtLost := false } := by
  have hfull : ¬64 ≤ s.evtFifo.length := by omega
  unfold Evt.queue
  rw [if_neg hfull]
  exact if_neg hfull

theorem Evt.numbered_room {s : State} (h : s.evtFifo.length < 64) (r : List Nat) : Evt.numbered s r =
    { s with evtSeq := s.evtSeq + 1, evtFifo := s.evtFifo ++ [if s.evtLost then Evt.mark r else r], evtLost := false } :=
  Evt.queue_room (s := { s with evtSeq := s.evtSeq + 1 }) h r

/-- What a record entering a FIFO with room leaves. -/
theorem Evt.numbered_facts {s : State} (h : s.evtFifo.length < 64) (r : List Nat) : (Evt.numbered s r).regs = s.regs ∧
    (Evt.numbered s r).evtIn = s.evtIn ∧ (Evt.numbered s r).base = s.base ∧ (Evt.numbered s r).evtSeq = s.evtSeq + 1 ∧
    ∃ x : List Nat, (Evt.numbered s r).evtFifo = s.evtFifo ++ [x] ∧ x.length = r.length := by
  rw [Evt.numbered_room h]
  refine ⟨rfl, rfl, rfl, rfl, _, rfl, ?_⟩
  split
  · exact Evt.length_mark r
  · rfl

/-- The first capture of an input that is not limited to its windows is stamped and recorded. -/
theorem eventCapture_records {i : Fin 8} {at_ : BitVec 64} {fine : BitVec 6} {rising : Bool} {s : State} (h : Evt.Captures s i.val rising)
    (hlast : (s.evt i.val).last = none) (hgate : s.get (Evt.ib i.val) EvtI.EVT_CFG_GATE ≠ 1) (hroom : s.evtFifo.length < 64) {u : Nat}
    (hu : Evt.stamp s i.val at_.toNat fine.toNat = u) :
    ∃ t r, exec (.eventCapture i at_ fine rising) s = .next t ∧ (t.evt i.val).last = some u ∧
      t.get (Evt.ib i.val) EvtI.LAST_T_T = u / 64 % 2 ^ 64 ∧ t.get (Evt.ib i.val) EvtI.LAST_FINE_FINE = u % 64 ∧
      t.get (Evt.ib i.val) EvtI.EVT_CNT_CAPTURED = min (s.get (Evt.ib i.val) EvtI.EVT_CNT_CAPTURED + 1) (2 ^ 32 - 1) ∧
      (t.get Evt.b H.IRQ_RAW).testBit i.val = true ∧ t.evtFifo = s.evtFifo ++ [r] ∧ r.length = 32 ∧ t.evtSeq = s.evtSeq + 1 ∧
      t.base = (s.runTo (at_.toNat + s.get (Evt.ib i.val) EvtI.EVT_CFG_FILTER)).base := by
  have hfifo : (Evt.filtered s i.val at_.toNat).evtFifo = s.evtFifo := by rw [Evt.filtered, State.runTo_only]
  have hseq : (Evt.filtered s i.val at_.toNat).evtSeq = s.evtSeq := by rw [Evt.filtered, State.runTo_only]
  have hsoon : Evt.tooSoon ((Evt.filtered s i.val at_.toNat).evt i.val).last u = false := by
    rw [Evt.filtered, State.evt_runTo, hlast]
    rfl
  have hgate' : (Evt.stamped (Evt.filtered s i.val at_.toNat) i.val u).get (Evt.ib i.val) EvtI.EVT_CFG_GATE ≠ 1 := by
    rwa [Evt.get_stamped _ _ _ (by decide), Evt.filtered, State.get_runTo]
  obtain ⟨hlt, hfine, hcnt, hirq⟩ := Evt.stamped_shows (Evt.filtered s i.val at_.toNat) i.isLt u
  generalize hst : Evt.stamped (Evt.filtered s i.val at_.toNat) i.val u = st at hgate' hlt hfine hcnt hirq
  have hroom' : st.evtFifo.length < 64 := by rwa [← hst, Evt.stamped_evtFifo, hfifo]
  obtain ⟨hregs, hin, hbase, hnum, x, hx, hlen⟩ := Evt.numbered_facts hroom' (Evt.recordOf st i.val u rising)
  have hget (b : Nat) (f : Fld) := State.get_congr hregs b f
  refine ⟨Evt.numbered st (Evt.recordOf st i.val u rising), x, ?_, ?_, ?_, ?_, ?_, ?_, ?_, ?_, ?_, ?_⟩
  · rw [exec_eventCapture h, Evt.stamp_filtered, hu, Evt.captured, hsoon, if_neg (by decide), hst, Evt.recorded, if_neg (by simp [hgate'])]
  · rw [State.evt_congr hin, ← hst, State.evt_congr (Evt.stamped_evtIn _ _ _), State.evt_modEvt_same _ i.isLt]
  · rw [hget, hlt]
  · rw [hget, hfine]
  · rw [hget, hcnt, Evt.filtered, State.get_runTo]
  · rw [hget, hirq]
  · rw [hx, ← hst, Evt.stamped_evtFifo, hfifo]
  · rw [hlen, Evt.length_recordOf]
  · rw [hnum, ← hst, Evt.stamped_evtSeq, hseq]
  · rw [hbase, ← hst, Evt.stamped_base, Evt.filtered]

/-! ### WINDOW_CLOSE -/

theorem exec_windowClose {i : Fin 8} {o c : Nat} {s : State} (hcur : (s.evt i.val).cur = some (o, c))
    (hopen : s.flag (Evt.ib i.val) EvtI.WIN_STAT_OPEN = true) :
    exec (.windowClose i) s = .next ((s.runTo ((c + 63) / 64)).put (Evt.ib i.val) EvtI.WIN_STAT_OPEN 0) := by
  change execWindowClose i s = _
  unfold execWindowClose
  dsimp only
  rw [hcur]
  exact if_pos hopen

theorem windowClose_closes {i : Fin 8} {o c : Nat} {s : State} (hcur : (s.evt i.val).cur = some (o, c))
    (hopen : s.flag (Evt.ib i.val) EvtI.WIN_STAT_OPEN = true) : ∃ t, exec (.windowClose i) s = .next t ∧
      t.base = (s.runTo ((c + 63) / 64)).base ∧ t.evtIn = s.evtIn ∧ t.flag (Evt.ib i.val) EvtI.WIN_STAT_OPEN = false ∧
      ∀ a, a ≠ Evt.ib i.val + 0x014 → t.reg a = s.reg a := by
  refine ⟨_, exec_windowClose hcur hopen, State.put_base _ _ _ _, ?_, ?_, fun a ha => ?_⟩
  · rw [State.put_evtIn, State.evtIn_runTo]
  · rw [State.flag_put_same]
    rfl
  · exact ((State.RegsOnly.put _ _ EvtI.WIN_STAT_OPEN 0 rfl).2 a (by simpa [EvtI.WIN_STAT_OPEN] using ha)).trans (State.reg_runTo _ _ _)

end Sys2Proof.Machine
end

section
/-! ## The event ring (O34; spec/08 R204, R208) -/

namespace Sys2Proof.Machine

/-! ### EVT_RECORD_WRITE -/

/-- The record `r` is in the ring at `dst` and EVT_WP stands at the slot `w`. -/
def Evt.recordWritten (s : State) (l : List (List Nat)) (dst : Nat) (r : List Nat) (w : Nat) : State :=
  Evt.watermark (({ s with evtFifo := l }.put8 dst r).put Evt.b EvtP.EVT_WP_WP w)

theorem exec_evtRecordWrite_room {s : State} {r : List Nat} {l : List (List Nat)} (hclean : s.eccBad = []) (hfifo : s.evtFifo = r :: l)
    (hen : s.flag Evt.b EvtP.EVT_CTL_RING_EN = true) (hbase : s.get Evt.b EvtP.EVT_BASE_BASE ≠ 0) (hroom : Evt.full s = false)
    (hrun : s.running .fabric = true) (hslots : s.get Evt.b EvtP.EVT_SLOTS_SLOTS ≠ 0) :
    exec .evtRecordWrite s = .next (Evt.recordWritten s l (64 * s.get Evt.b EvtP.EVT_BASE_BASE + 32 * s.get Evt.b EvtP.EVT_WP_WP) r
      ((s.get Evt.b EvtP.EVT_WP_WP + 1) % s.get Evt.b EvtP.EVT_SLOTS_SLOTS)) := by
  have hmax : max (s.get Evt.b EvtP.EVT_SLOTS_SLOTS) 1 = s.get Evt.b EvtP.EVT_SLOTS_SLOTS := by omega
  have hput (a : Nat) : ({ s with evtFifo := l }.put8 a r).get Evt.b EvtP.EVT_SLOTS_SLOTS = s.get Evt.b EvtP.EVT_SLOTS_SLOTS :=
    State.get_congr (State.put8_regs (s := { s with evtFifo := l }) hclean a r) _ _
  change (.next (Evt.drain s) : Out) = _
  unfold Evt.drain
  simp only [hfifo, hen, hbase, hroom, hrun, hput, hmax, Bool.false_eq_true, Bool.not_true, Bool.or_self, if_false]
  rfl

theorem Evt.watermark_only (s : State) : s.RegsOnly (Evt.watermark s) [pg Evt.p + 0x014] := State.RegsOnly.raiseIf _ _ _ _

theorem Evt.recordWritten_frame (s : State) (l : List (List Nat)) (dst : Nat) (r : List Nat) (w : Nat) :
    ({ s with evtFifo := l }.put8 dst r).RegsOnly (Evt.recordWritten s l dst r w) [Evt.b + 0x04C, Evt.b + 0x014] :=
  ((State.RegsOnly.put _ _ _ _ rfl).mono (by decide)).trans ((Evt.watermark_only _).mono (by decide))

theorem State.put8_evtFifo {s : State} (h : s.eccBad = []) (a : Nat) (l : List Nat) : (s.put8 a l).evtFifo = s.evtFifo := by
  rw [State.put8_only h]

theorem State.RegsOnly.evtFifo {s t : State} {ws : List Nat} (h : s.RegsOnly t ws) : t.evtFifo = s.evtFifo := by rw [h.1]

/-- Of what is no register the record changes memory, the data caches and the FIFO. -/
theorem Evt.recordWritten_only {s : State} (h : s.eccBad = []) (l : List (List Nat)) (dst : Nat) (r : List Nat) (w : Nat) :
    (Evt.recordWritten s l dst r w).evtFifo = l ∧
      ∀ a, a ≠ Evt.b + 0x04C → a ≠ Evt.b + 0x014 → (Evt.recordWritten s l dst r w).reg a = s.reg a := by
  have hframe := Evt.recordWritten_frame s l dst r w
  have hclean : { s with evtFifo := l }.eccBad = [] := h
  exact ⟨hframe.evtFifo.trans (State.put8_evtFifo hclean dst r),
    fun a h1 h2 => (hframe.2 a (by simp [h1, h2])).trans (State.reg_congr (State.put8_regs hclean dst r) a)⟩

theorem Evt.recordWritten_byte (s : State) (l : List (List Nat)) (dst : Nat) (r : List Nat) (w a : Nat) :
    (Evt.recordWritten s l dst r w).byte a = ({ s with evtFifo := l }.put8 dst r).byte a :=
  State.byte_congr (Evt.recordWritten_frame s l dst r w).mem a

theorem Evt.recordWritten_wp (s : State) (l : List (List Nat)) (dst : Nat) (r : List Nat) (w : Nat) :
    (Evt.recordWritten s l dst r w).get Evt.b EvtP.EVT_WP_WP = w % 2 ^ 16 := by
  have hput := State.get_put_same ({ s with evtFifo := l }.put8 dst r) Evt.b EvtP.EVT_WP_WP w
  refine ((Evt.watermark_only _).get _ _ fun i hi => ?_).trans hput
  obtain rfl : i = 0 := Nat.lt_one_iff.1 hi
  decide

theorem evtRecordWrite_stores {s : State} {r : List Nat} {l : List (List Nat)} (hclean : s.Clean) (hfifo : s.evtFifo = r :: l)
    (hlen : r.length = 32) (hen : s.flag Evt.b EvtP.EVT_CTL_RING_EN = true) (hbase : s.get Evt.b EvtP.EVT_BASE_BASE ≠ 0)
    (hroom : Evt.full s = false) (hrun : s.running .fabric = true) {dst : Nat}
    (hdst : 64 * s.get Evt.b EvtP.EVT_BASE_BASE + 32 * s.get Evt.b EvtP.EVT_WP_WP = dst) (harea : inSramArea dst 32 = true)
    (hslots : s.get Evt.b EvtP.EVT_SLOTS_SLOTS ≠ 0) : ∃ t, exec .evtRecordWrite s = .next t ∧ t.evtFifo = l ∧
      t.get Evt.b EvtP.EVT_WP_WP = (s.get Evt.b EvtP.EVT_WP_WP + 1) % s.get Evt.b EvtP.EVT_SLOTS_SLOTS ∧
      (∀ i (_ : i < 32), t.byte (dst + i) = BitVec.ofNat 8 (r.getD i 0)) ∧
      (∀ a, a < dst ∨ dst + 32 ≤ a → t.byte a = s.byte a) ∧ ∀ a, a ≠ Evt.b + 0x04C → a ≠ Evt.b + 0x014 → t.reg a = s.reg a := by
  obtain ⟨hlo, hhi⟩ := inSramArea_bounds harea
  have hlt : (s.get Evt.b EvtP.EVT_WP_WP + 1) % s.get Evt.b EvtP.EVT_SLOTS_SLOTS < 2 ^ 16 :=
    (Nat.mod_lt _ (Nat.pos_of_ne_zero hslots)).trans (State.get_lt _ _ EvtP.EVT_SLOTS_SLOTS)
  generalize hw : (s.get Evt.b EvtP.EVT_WP_WP + 1) % s.get Evt.b EvtP.EVT_SLOTS_SLOTS = w at hlt
  obtain ⟨hl, hreg⟩ := Evt.recordWritten_only hclean.1 l dst r w
  refine ⟨Evt.recordWritten s l dst r w, ?_, hl, ?_, fun i hi => ?_, fun a ha => ?_, hreg⟩
  · rw [exec_evtRecordWrite_room hclean.1 hfifo hen hbase hroom hrun hslots, hdst, hw]
  · rw [Evt.recordWritten_wp, Nat.mod_eq_of_lt hlt]
  · rw [Evt.recordWritten_byte, State.byte_put8_sram _ hlo (by omega) (by omega), if_pos (by omega), Nat.add_sub_cancel_left,
      List.getD_eq_getElem?_getD]
  · rw [Evt.recordWritten_byte, State.byte_put8_outside _ (by rwa [hlen])]
    rfl

/-! ### EVT_FLUSH -/

theorem exec_evtFlush (req : Req) (s : State) : exec (.evtFlush req) s = Cmd.bits s req (Evt.b + 0x040) 2 1 1 1 := rfl

theorem Evt.page_listed : pageInfo Evt.p = some (.evt, 0) ∧ ownerPage Evt.p = Evt.p := by decide

theorem Evt.fields_evtCtl : Bus.fields .evt 0 0x040 = [⟨0, 1, .fr, 0, .any⟩, ⟨1, 1, .pu, 0, .any⟩] := by decide

theorem Evt.write_flush {s : State} {v : Nat} (h : v.testBit 1 = true) (req : Nat) (store : State → State) :
    Evt.write s req 0x040 v store = Evt.flush (store s) := by
  unfold Evt.write
  rw [if_pos rfl]
  exact if_pos h

/-- The counts of one input cleared. -/
def Evt.cleared (s : State) (i : Nat) : State :=
  ((s.put (Evt.ib i) EvtI.EVT_CNT_CAPTURED 0).put (Evt.ib i) EvtI.LOST_COUNT 0).put (Evt.ib i) EvtI.OUTSIDE_COUNT 0

/-- The three counts of an input. -/
def Evt.counts (i : Nat) (s : State) : Nat × Nat × Nat :=
  (s.get (Evt.ib i) EvtI.EVT_CNT_CAPTURED, s.get (Evt.ib i) EvtI.LOST_COUNT, s.get (Evt.ib i) EvtI.OUTSIDE_COUNT)

theorem Evt.counts_cleared (s : State) (i : Nat) : Evt.counts i (Evt.cleared s i) = (0, 0, 0) := by
  unfold Evt.counts Evt.cleared
  rw [State.get_put_apart _ _ _ (by decide), State.get_put_apart _ _ _ (by decide), State.get_put_same,
    State.get_put_apart _ _ _ (by decide), State.get_put_same, State.get_put_same]
  rfl

theorem Evt.counts_cleared_ne (s : State) {i k : Nat} (h : k ≠ i) : Evt.counts k (Evt.cleared s i) = Evt.counts k s := by
  have hget {f : Fld} (hf : f.off + 4 * f.words ≤ 0x20) : (Evt.cleared s i).get (Evt.ib k) f = s.get (Evt.ib k) f := by
    unfold Evt.cleared
    rw [Evt.get_put_ne _ h _ (by decide) hf, Evt.get_put_ne _ h _ (by decide) hf, Evt.get_put_ne _ h _ (by decide) hf]
  unfold Evt.counts
  rw [hget (by decide), hget (by decide), hget (by decide)]

theorem Evt.get_cleared_page (s : State) (i : Nat) {f : Fld} (hf : f.off + 4 * f.words ≤ 0x100) :
    (Evt.cleared s i).get Evt.b f = s.get Evt.b f := by
  unfold Evt.cleared
  rw [Evt.get_put_input _ _ _ hf, Evt.get_put_input _ _ _ hf, Evt.get_put_input _ _ _ hf]

theorem Evt.cleared_only (s : State) (i : Nat) : Evt.cleared s i = { s with regs := (Evt.cleared s i).regs } := by
  conv_lhs => rw [Evt.cleared, State.put_only, State.put_only _ _ EvtI.LOST_COUNT, State.put_only _ _ EvtI.EVT_CNT_CAPTURED]
  rfl

/-- FIFO and ring emptied, the counts of the inputs still to be cleared. -/
def Evt.emptied (s : State) : State :=
  ({ s with evtFifo := [], evtLost := s.evtLost || s.evtFifo.any (fun r => ((r[9]?).getD 0).testBit 6) }.put Evt.b EvtP.EVT_WP_WP
    (s.get Evt.b EvtP.EVT_RP_RP)).put Evt.b EvtP.RING_DROP_COUNT 0

theorem Evt.flush_eq (s : State) : Evt.flush s = (Evt.emptied s).each (List.range 8) Evt.cleared := rfl

theorem Evt.emptied_only (s : State) : Evt.emptied s = { s with
    regs := (Evt.emptied s).regs
    evtFifo := []
    evtLost := s.evtLost || s.evtFifo.any (fun r => ((r[9]?).getD 0).testBit 6) } := by
  conv_lhs => rw [Evt.emptied, State.put_only, State.put_only _ _ EvtP.EVT_WP_WP]
  rfl

theorem Evt.emptied_ring (s : State) : (Evt.emptied s).get Evt.b EvtP.EVT_WP_WP = s.get Evt.b EvtP.EVT_RP_RP ∧
    (Evt.emptied s).get Evt.b EvtP.RING_DROP_COUNT = 0 := by
  constructor
  · refine (State.get_put_apart _ _ _ (by decide)).trans ((State.get_put_same _ _ _ _).trans ?_)
    exact Nat.mod_eq_of_lt (State.get_lt s _ EvtP.EVT_RP_RP)
  · exact State.get_put_same _ _ _ _

theorem Evt.emptied_count (s : State) : (Evt.emptied s).get Evt.b H.COUNT = s.get Evt.b H.COUNT := by
  refine (State.get_put_apart _ _ _ (by decide)).trans ((State.get_put_apart _ _ _ (by decide)).trans ?_)
  exact State.get_congr rfl _ _

/-- Clearing the inputs' counts leaves everything but registers, and the page's own registers. -/
theorem Evt.flush_kept (s : State) : Evt.flush s = { Evt.emptied s with regs := (Evt.flush s).regs } ∧
    ∀ f : Fld, f.off + 4 * f.words ≤ 0x100 → (Evt.flush s).get Evt.b f = (Evt.emptied s).get Evt.b f := by
  rw [Evt.flush_eq]
  refine State.each_inv (fun u => u = { Evt.emptied s with regs := u.regs } ∧
    ∀ f : Fld, f.off + 4 * f.words ≤ 0x100 → u.get Evt.b f = (Evt.emptied s).get Evt.b f) _ _ (fun u i hu => ⟨?_, fun f hf => ?_⟩) _
    ⟨rfl, fun _ _ => rfl⟩
  · rw [Evt.cleared_only, hu.1]
  · rw [Evt.get_cleared_page u i hf, hu.2 f hf]

theorem Evt.flush_counts (s : State) {i : Nat} (hi : i < 8) : Evt.counts i (Evt.flush s) = (0, 0, 0) := by
  rw [Evt.flush_eq]
  exact State.each_apply (g := Evt.counts) (act := fun _ => (0, 0, 0)) Evt.counts_cleared (fun u _ _ h => Evt.counts_cleared_ne u h)
    List.nodup_range _ (List.mem_range.2 hi)

/-- Of what is no register a flush changes the FIFO and the loss flag. -/
theorem Evt.flush_only (s : State) : Evt.flush s = { s with
    regs := (Evt.flush s).regs
    evtFifo := []
    evtLost := s.evtLost || s.evtFifo.any (fun r => ((r[9]?).getD 0).testBit 6) } := by
  conv_lhs => rw [(Evt.flush_kept s).1, Evt.emptied_only]

/-- EVT_FLUSH stores EVT_CTL as it is and flushes. -/
theorem Evt.store_flush (s : State) (req : Nat) :
    Bus.store req Evt.p (Evt.b + 0x040) (Bus.fields .evt 0 0x040) (Cmd.bitsWord s (Evt.b + 0x040) 2 1 1 1) s =
      s.setReg (Evt.b + 0x040) (s.regN (Evt.b + 0x040)) := by
  have hen : bitsOf (Cmd.bitsWord s (Evt.b + 0x040) 2 1 1 1) 0 1 = bitsOf (s.regN (Evt.b + 0x040)) 0 1 :=
    Cmd.bitsOf_bitsWord_ne s (by decide) (by decide) (by decide) (by decide)
  rw [Evt.fields_evtCtl]
  refine Bus.store_plain ?_ ?_ fun _ _ => rfl
  · simp [FieldAt.Plain]
  · simpa [FieldAt.source] using hen

/-- A write of an EVT register, from the command to its effect `t`, which counts no error. -/
theorem Cmd.write_evt {s t : State} {req : Req} {off v : Nat} (hw : s.Writable req Evt.p)
    (ho : 0x040 ≤ off ∧ off < 0x1000 ∧ off % 4 = 0)
    (hf : Bus.fields .evt 0 off ≠ [] ∧ (Bus.fields .evt 0 off).all (fun f => f.acc == .rd) = false)
    (ht : Evt.write s req.code off (v % 2 ^ 32) (Bus.store req.code Evt.p (Evt.b + off) (Bus.fields .evt 0 off) (v % 2 ^ 32)) = t)
    (hq : t.Quiet) (hc : t.get Evt.b H.COUNT = s.get Evt.b H.COUNT) :
    Cmd.write s req (Evt.b + off) v = .next (t.answered req []) :=
  Cmd.write_hook hw Evt.page_listed.1 ho.2.1 ho.2.2 (by simp; omega) hf.1 hf.2 ht hq hc

/-- The registers as they are: EVT_CTL is stored with the bits it has. -/
def Evt.ctlStored (s : State) : State := s.setReg (Evt.b + 0x040) (s.regN (Evt.b + 0x040))

theorem Evt.get_ctlStored (s : State) (b : Nat) (f : Fld) : (Evt.ctlStored s).get b f = s.get b f := by
  rw [Evt.ctlStored, State.get_eq, State.get_eq, State.wordsAt_congr fun i _ => State.reg_setReg_regN s (Evt.b + 0x040) _]

theorem Evt.ctlStored_cores (s : State) : (Evt.ctlStored s).cores = s.cores := rfl
theorem Evt.flush_cores (s : State) : (Evt.flush s).cores = s.cores := by rw [Evt.flush_only]

theorem State.quiet_of_cores {s t : State} (h : t.cores = s.cores) (hq : s.Quiet) : t.Quiet := fun c => by
  rw [State.core, h]
  exact hq c

theorem exec_evtFlush_flushes {req : Req} {s : State} (hq : s.Quiet) (hw : s.Writable req Evt.p) :
    exec (.evtFlush req) s = .next ((Evt.flush (Evt.ctlStored s)).answered req []) := by
  have hclr : (Cmd.bitsWord s (Evt.b + 0x040) 2 1 1 1).testBit 1 = true := by
    have h := bitsOf_testBit (Cmd.bitsWord s (Evt.b + 0x040) 2 1 1 1) 1 1 0
    rwa [Cmd.bitsOf_bitsWord s _ _ _ (by decide), eq_comm] at h
  refine (exec_evtFlush req s).trans (Cmd.write_evt hw (by decide) (by decide) ?_ ?_ ?_)
  · exact (Evt.write_flush hclr _ _).trans (congrArg Evt.flush (Evt.store_flush s req.code))
  · exact State.quiet_of_cores ((Evt.flush_cores _).trans (Evt.ctlStored_cores s)) hq
  · rw [(Evt.flush_kept _).2 _ (by decide), Evt.emptied_count, Evt.get_ctlStored]

/-- A flush over registers stored anew, from the state before. -/
theorem Evt.flush_ctlStored (s : State) : Evt.flush (Evt.ctlStored s) = { s with
    regs := (Evt.flush (Evt.ctlStored s)).regs
    evtFifo := []
    evtLost := s.evtLost || s.evtFifo.any (fun r => (r.getD 9 0).testBit 6) } := by
  simp only [List.getD_eq_getElem?_getD]
  exact Evt.flush_only (Evt.ctlStored s)

theorem Evt.answered_flushed {s t : State} {lost : Bool} (h : t = { s with regs := t.regs, evtFifo := [], evtLost := lost }) (req : Req)
    (l : List Word) : t.answered req l = { s with
      regs := (t.answered req l).regs
      evtFifo := []
      evtLost := (t.answered req l).evtLost
      resp := (t.answered req l).resp } := by
  conv_lhs => rw [h]
  rw [h]
  rfl

theorem Evt.counts_answered (s : State) (req : Req) (l : List Word) (i : Nat) : Evt.counts i (s.answered req l) = Evt.counts i s := by
  unfold Evt.counts
  rw [State.get_answered_req, State.get_answered_req, State.get_answered_req]

theorem State.evtFifo_answered (s : State) (req : Req) (l : List Word) : (s.answered req l).evtFifo = s.evtFifo := rfl
theorem State.evtLost_answered (s : State) (req : Req) (l : List Word) : (s.answered req l).evtLost = s.evtLost := rfl

theorem evtFlush_flushes {req : Req} {s : State} (hq : s.Quiet) (hw : s.Writable req Evt.p) : ∃ t, exec (.evtFlush req) s = .next t ∧
    t.evtFifo = [] ∧ t.get Evt.b EvtP.EVT_WP_WP = s.get Evt.b EvtP.EVT_RP_RP ∧ t.get Evt.b EvtP.RING_DROP_COUNT = 0 ∧
    (∀ i : Fin 8, Evt.counts i.val t = (0, 0, 0)) ∧
    t.evtLost = (s.evtLost || s.evtFifo.any (fun r => (r.getD 9 0).testBit 6)) ∧
    t = { s with regs := t.regs, evtFifo := [], evtLost := t.evtLost, resp := t.resp } := by
  have honly := Evt.flush_ctlStored s
  have hkept := (Evt.flush_kept (Evt.ctlStored s)).2
  obtain ⟨hwp, hdrop⟩ := Evt.emptied_ring (Evt.ctlStored s)
  refine ⟨_, exec_evtFlush_flushes hq hw, ?_, ?_, ?_, fun i => ?_, ?_, Evt.answered_flushed honly req []⟩
  · rw [State.evtFifo_answered, honly]
  · rw [State.get_answered_req, hkept _ (by decide), hwp, Evt.get_ctlStored]
  · rw [State.get_answered_req, hkept _ (by decide), hdrop]
  · rw [Evt.counts_answered, Evt.flush_counts _ i.isLt]
  · rw [State.evtLost_answered, honly]

/-! ### The obligation -/

/-- Settles O34: each clause is the rule of its command, proved above. -/
theorem padsAndEvents : Obligations.PadsAndEvents := by
  unfold Obligations.PadsAndEvents
  refine ⟨fun _ _ _ => pulseEnd_releases, fun _ _ _ _ => padCtlWrite_sets, ?_, fun _ _ _ _ => windowClose_closes,
    fun _ _ _ hclean hfifo hlen hen hbase hroom hrun harea hslots =>
      evtRecordWrite_stores hclean hfifo hlen hen hbase hroom hrun rfl harea hslots, ?_⟩
  · intro i at_ fine rising s b w u hen hinput hedge hawake
    have h : Evt.Captures s i.val rising := ⟨hen, hinput, hedge, hawake⟩
    exact ⟨fun _ hlast hclose => eventCapture_loses h hlast hclose,
      fun hlast hgate hroom => eventCapture_records h hlast hgate hroom rfl⟩
  · intro req s hq hw
    obtain ⟨t, hexec, hfifo, hwp, hdrop, hcounts, hlost, honly⟩ := evtFlush_flushes hq hw
    refine ⟨t, hexec, hfifo, hwp, hdrop, fun i => ?_, hlost, honly⟩
    simpa only [Evt.counts, Prod.mk.injEq] using hcounts i

end Sys2Proof.Machine
end

section
/-! ## Calendar entries (what O32 and O33 rest on; spec/08 R193 to R201)

The rules of the operations on one entry, and the frame `Cal.Only` of the acts on it. -/

namespace Sys2Proof.Machine

/-! ### Entries beside their registers -/

theorem State.ent_setEnt_same (s : State) (e : Nat) (x : Entry) : (s.setEnt e x).ent e = x := Tab.get_set_same _ _ _ _

theorem State.ent_setEnt_ne (s : State) {e k : Nat} (h : k ≠ e) (x : Entry) : (s.setEnt e x).ent k = s.ent k := Tab.get_set_ne _ _ _ h

theorem State.ent_congr {s t : State} (h : t.ents = s.ents) (k : Nat) : t.ent k = s.ent k := by
  unfold State.ent
  rw [h]

theorem State.ent_put (s : State) (b : Nat) (f : Fld) (v k : Nat) : (s.put b f v).ent k = s.ent k := State.ent_congr (State.put_ents s b f v) k

theorem State.ent_raise (s : State) (p n k : Nat) : (s.raise p n).ent k = s.ent k := State.ent_put _ _ _ _ _

theorem State.ent_runTo (s : State) (t k : Nat) : (s.runTo t).ent k = s.ent k := State.ent_congr (by rw [State.runTo_only]) k

theorem State.get_setEnt (s : State) (e : Nat) (x : Entry) (b : Nat) (f : Fld) : (s.setEnt e x).get b f = s.get b f :=
  State.get_congr (s := s.setEnt e x) (t := s) rfl b f

theorem State.reg_setEnt (s : State) (e : Nat) (x : Entry) (a : Nat) : (s.setEnt e x).reg a = s.reg a := rfl

/-! ### The frame -/

/-- `t` differs from `s` at most in what belongs to entry `e`: its record, its E_STAT but NOOP, and the calendar's own pages, where no
event that was raised is withdrawn. -/
structure Cal.Only (s t : State) (e : Nat) : Prop where
  rest : t = { s with regs := t.regs, ents := t.ents }
  reg : ∀ a, a < 0x51000 ∨ 0x54000 ≤ a → t.reg a = s.reg a
  ent : ∀ k, k ≠ e → t.ent k = s.ent k
  noop : t.get (Cal.eb e) CalE.E_STAT_NOOP = s.get (Cal.eb e) CalE.E_STAT_NOOP
  irq : ∀ n < 32, (s.get Cal.b H.IRQ_RAW).testBit n = true → (t.get Cal.b H.IRQ_RAW).testBit n = true

namespace Cal.Only

variable {s t u : State} {e : Nat}

theorem refl (s : State) (e : Nat) : Cal.Only s s e := ⟨rfl, fun _ _ => rfl, fun _ _ => rfl, rfl, fun _ _ h => h⟩

theorem trans (h : Cal.Only s t e) (h' : Cal.Only t u e) : Cal.Only s u e :=
  ⟨by rw [h'.rest, h.rest], fun a ha => (h'.reg a ha).trans (h.reg a ha), fun k hk => (h'.ent k hk).trans (h.ent k hk),
    h'.noop.trans h.noop, fun n hn hb => h'.irq n hn (h.irq n hn hb)⟩

/-! #### What stands -/

theorem work (h : Cal.Only s t e) : t.work = s.work := by rw [h.rest]
theorem base (h : Cal.Only s t e) : t.base = s.base := by rw [h.rest]
theorem now (h : Cal.Only s t e) : t.now = s.now := by rw [State.now, h.base, State.now]
theorem ts (h : Cal.Only s t e) : t.ts = s.ts := by rw [h.rest]
theorem tsSt (h : Cal.Only s t e) : t.tsSt = s.tsSt := by rw [h.rest]
theorem armedAt (h : Cal.Only s t e) (key : Nat) : t.armedAt key = s.armedAt key := State.armedAt_congr (by rw [h.rest]) key

theorem get (h : Cal.Only s t e) {b : Nat} {f : Fld} (hb : b + f.off + 4 * f.words ≤ 0x51000 ∨ 0x54000 ≤ b + f.off) :
    t.get b f = s.get b f := by
  rw [State.get_eq, State.get_eq, State.wordsAt_congr fun i hi => h.reg _ (by omega)]

/-! #### One more update -/

theorem setEnt (h : Cal.Only s t e) (x : Entry) : Cal.Only s (t.setEnt e x) e :=
  h.trans ⟨rfl, fun _ _ => rfl, fun _ hk => State.ent_setEnt_ne t hk x, State.get_setEnt t e x _ _,
    fun n _ hb => by rwa [State.get_setEnt]⟩

/-- A field of the entry's E_STAT other than NOOP. -/
theorem putStat (h : Cal.Only s t e) (he : e < 256) {f : Fld} (v : Nat)
    (hf : f.off = 0x01C ∧ f.words = 1 ∧ f.apart CalE.E_STAT_NOOP = true) : Cal.Only s (t.put (Cal.eb e) f v) e := by
  obtain ⟨hoff, hwords, hapart⟩ := hf
  have hword : Cal.eb e + f.off = 0x5201C + 0x20 * e := by
    unfold Cal.eb
    omega
  refine h.trans ⟨?_, fun a ha => ?_, fun k _ => State.ent_put t _ _ _ k, State.get_put_apart _ _ _ hapart, fun n _ hb => ?_⟩
  · conv_lhs => rw [State.put_only]
    rw [State.put_ents]
  · exact State.reg_put_words t _ _ _ fun i hi => by omega
  · rwa [State.get_put_ne t _ _ _ _ _ (Or.inl (by rw [hword]; simp [Cal.b, pg, H.IRQ_RAW, Fld.words]; omega))]

/-- A field of the calendar's first page, beyond the header. -/
theorem putPage (h : Cal.Only s t e) {f : Fld} (v : Nat) (hf : 0x040 ≤ f.off ∧ f.off + 4 * f.words ≤ 0x1000) :
    Cal.Only s (t.put Cal.b f v) e := by
  obtain ⟨hlo, hhi⟩ := hf
  refine h.trans ⟨?_, fun a ha => ?_, fun k _ => State.ent_put t _ _ _ k, ?_, fun n _ hb => ?_⟩
  · conv_lhs => rw [State.put_only]
    rw [State.put_ents]
  · refine State.reg_put_words t _ _ _ fun i hi => ?_
    unfold Cal.b pg
    omega
  · refine State.get_put_ne t _ _ _ _ _ (Or.inr ?_)
    unfold Cal.b pg Cal.eb
    omega
  · rwa [State.get_put_ne t _ _ _ _ _ (Or.inl (by simp [H.IRQ_RAW, Fld.words]; omega))]

theorem raise (h : Cal.Only s t e) (k : Nat) : Cal.Only s (t.raise Cal.p k) e := by
  refine h.trans ⟨?_, fun a ha => ?_, fun j _ => State.ent_raise t _ _ j, ?_, fun n hn hb => State.testBit_raise_keeps (p := Cal.p) k hn hb⟩
  · conv_lhs => rw [State.raise_only]
    rw [State.raise_ents]
  · refine State.reg_put_words t _ _ _ fun i hi => ?_
    unfold Cal.p pg H.IRQ_RAW
    simp [H.IRQ_RAW, Fld.words] at hi
    simp
    omega
  · refine State.get_put_ne t _ _ _ _ _ (Or.inr ?_)
    simp [Cal.p, pg, Cal.eb, H.IRQ_RAW, Fld.words]
    omega

theorem ite (h : Cal.Only s t e) (c : Prop) [Decidable c] (h' : Cal.Only s u e) : Cal.Only s (if c then t else u) e := by
  split
  · exact h
  · exact h'

end Cal.Only

/-! ### The operations -/

theorem Cal.setState_only {s t : State} {e : Nat} (h : Cal.Only s t e) (he : e < 256) (st : Nat) : Cal.Only s (Cal.setState t e st) e := by
  have hput (u : State) (r : Nat) (hu : Cal.Only s u e) :
      Cal.Only s ((u.put (Cal.eb e) CalE.E_STAT_STATE st).put (Cal.eb e) CalE.E_STAT_REMAIN r) e :=
    (hu.putStat he _ (by decide)).putStat he _ (by decide)
  unfold Cal.setState
  exact hput _ _ (h.ite _ (h.setEnt _))

theorem Cal.state_setState (s : State) (e : Nat) {st : Nat} (h : st < 4) : Cal.state (Cal.setState s e st) e = st := by
  unfold Cal.setState Cal.state
  rw [State.get_put_apart _ _ _ (by decide), State.get_put_same]
  exact Nat.mod_eq_of_lt h

theorem Cal.remain_setState (s : State) (e : Nat) {st : Nat} (h : st ≠ 1) : (Cal.setState s e st).get (Cal.eb e) CalE.E_STAT_REMAIN = 0 := by
  unfold Cal.setState
  rw [State.get_put_same, if_pos h]
  rfl

theorem Cal.ent_setState_wait (s : State) (e k : Nat) : (Cal.setState s e 1).ent k = s.ent k := by
  unfold Cal.setState
  rw [State.ent_put, State.ent_put, if_pos rfl]

/-- An entry that does not wait has no occurrence. -/
theorem Cal.ent_setState_rest (s : State) (e : Nat) {st : Nat} (h : st ≠ 1) : (Cal.setState s e st).ent e = { s.ent e with occ := none } := by
  unfold Cal.setState
  rw [State.ent_put, State.ent_put, if_neg h, State.ent_setEnt_same]

theorem Cal.late_only {s t : State} {e : Nat} (h : Cal.Only s t e) (he : e < 256) (n : Nat) : Cal.Only s (Cal.late t e n) e := by
  have hwords : Fld.words ⟨CalP.LATE.off + 4 * (e / 32), e % 32, 1⟩ = 1 := by
    unfold Fld.words
    dsimp only
    omega
  unfold Cal.late
  refine ((((h.putStat he _ (by decide)).putPage _ ?_).putPage _ (by decide))).raise 1
  rw [hwords]
  unfold CalP.LATE
  dsimp only
  omega

theorem Cal.late_ent (s : State) (e n k : Nat) : (Cal.late s e n).ent k = s.ent k := by
  unfold Cal.late
  rw [State.ent_raise, State.ent_put, State.ent_put, State.ent_put]

theorem Cal.arm_only {s t : State} {e : Nat} (h : Cal.Only s t e) (he : e < 256) (k : Nat) : Cal.Only s (Cal.arm t e k) e := by
  unfold Cal.arm
  exact Cal.setState_only (h.setEnt _) he 1

theorem Cal.arm_eq (s : State) (e k : Nat) :
    ∃ o, Cal.arm s e k = Cal.setState (s.setEnt e { s.ent e with occ := some o }) e 1 := by
  unfold Cal.arm
  exact ⟨_, rfl⟩

/-- An armed entry waits. -/
theorem Cal.arm_waits (s : State) (e k : Nat) : Cal.state (Cal.arm s e k) e = 1 ∧ ((Cal.arm s e k).ent e).occ.isSome = true ∧
    ((Cal.arm s e k).ent e).last = (s.ent e).last := by
  obtain ⟨o, ho⟩ := Cal.arm_eq s e k
  have hent : (Cal.arm s e k).ent e = { s.ent e with occ := some o } := by
    rw [ho, Cal.ent_setState_wait, State.ent_setEnt_same]
  rw [hent]
  exact ⟨ho ▸ Cal.state_setState _ _ (by decide), rfl, rfl⟩

/-- A Rota goes on from a state in which the occurrences passed over are counted: it is DONE or waits. -/
theorem Cal.rota_form {s : State} {e : Nat} (he : e < 256) (kMin kFrom : Nat) (spaced : Bool) : ∃ u k, Cal.Only s u e ∧
    (u.ent e).last = (s.ent e).last ∧
    (Cal.rota s e kMin kFrom spaced = Cal.setState u e 2 ∨ Cal.rota s e kMin kFrom spaced = Cal.arm u e k) := by
  unfold Cal.rota
  extract_lets k close k' skip cnt used ends skip' b u x v
  have hu : Cal.Only s u e := (Cal.Only.refl s e).ite _ (Cal.late_only ((Cal.Only.refl s e).putStat he _ (by decide)) he _)
  have hlast : (u.ent e).last = (s.ent e).last := by
    unfold u
    split
    · rfl
    · rw [Cal.late_ent, State.ent_put]
  refine ⟨v, k', hu.setEnt _, ?_, ite_eq_or_eq _ _ _⟩
  unfold v
  rw [State.ent_setEnt_same]
  exact hlast

end Sys2Proof.Machine
end

section
/-! ## Conversion, dispatch and the calendar's commands (O33; spec/08 R194, R196, R200, R201, spec/19 R437) -/

namespace Sys2Proof.Machine

/-! ### What a run of time leaves of an entry -/

theorem State.wget_runTo (s : State) (t b : Nat) (f : Fld) : (s.runTo t).wget b f = s.wget b f := State.wget_congr (State.runTo_work s t) b f

theorem Cal.action_runTo (s : State) (t e : Nat) : Cal.action (s.runTo t) e = Cal.action s e := State.wget_runTo _ _ _ _

theorem State.isReset_runTo (s : State) (t : Nat) (i : Island) : (s.runTo t).isReset i = s.isReset i := by
  unfold State.isReset
  rw [State.runTo_only]

theorem State.acts_runTo (s : State) (t : Nat) : (s.runTo t).acts = s.acts := by rw [State.runTo_only]

/-! ### OCCURRENCE_CONVERT -/

theorem exec_occurrenceConvert {e : Fin 256} {o : Occ} {s : State} (hocc : (s.ent e.val).occ = some o) (hconv : o.conv = false) {r : State}
    (hr : s.runTo (tickUp (Cal.instOf s e.val o.k) - 20480) = r) {u : Int} (hu : Cal.instOf r e.val o.k = u) :
    exec (.occurrenceConvert e) s = .next (r.setEnt e.val { s.ent e.val with
      occ := some { o with b := tickUp u, f := ((64 * tickUp u : Nat) - u).toNat, own := tickUp u, conv := true } }) := by
  have hent : r.ent e.val = s.ent e.val := by rw [← hr, State.ent_runTo]
  change execOccurrenceConvert e s = _
  unfold execOccurrenceConvert
  dsimp only
  rw [hocc]
  simp only [hconv, Bool.false_eq_true, if_false]
  rw [hr, hu, hent]

/-! ### ACTION_DISPATCH -/

/-- The action of entry `e` as it is sent for its occurrence `o`. -/
def Cal.sentAction (s : State) (e : Nat) (o : Occ) : Action :=
  ⟨e, Cal.action s e, s.wget (Cal.eb e) CalE.E_ARG_ARG, if o.late then o.own else tickUp (Cal.occInst s e o), tickUp (Cal.occInst s e o),
    o.late⟩

/-- The occurrence marked sent. -/
def Cal.marked (s : State) (e : Nat) (o : Occ) (gone : Bool) : State :=
  s.setEnt e { s.ent e with occ := some { o with disp := true, drop := gone } }

theorem Cal.dispatch_gone {s : State} {e : Nat} (o : Occ) (h : s.isReset (Cal.island (Cal.action s e)) = true) :
    Cal.dispatch s e o = Cal.dropped (Cal.marked s e o true) e := by
  unfold Cal.dispatch
  rw [h]
  exact if_pos rfl

theorem Cal.dispatch_sent {s : State} {e : Nat} (o : Occ) (h : s.isReset (Cal.island (Cal.action s e)) = false) :
    Cal.dispatch s e o = { Cal.marked s e o false with acts := Action.insert (Cal.sentAction s e o) s.acts } := by
  unfold Cal.dispatch
  rw [h]
  exact if_neg Bool.false_ne_true

theorem Cal.dropped_base (s : State) (e : Nat) : (Cal.dropped s e).base = s.base := by
  unfold Cal.dropped
  rw [State.raise_base, State.put_base]

theorem Cal.dropped_ent (s : State) (e k : Nat) : (Cal.dropped s e).ent k = s.ent k := by
  unfold Cal.dropped
  rw [State.ent_raise, State.ent_put]

/-- Where the action's island is in reset the entry shows DROPPED. -/
theorem Cal.dropped_shows (s : State) (e : Nat) : (Cal.dropped s e).flag (Cal.eb e) CalE.E_STAT_DROPPED = true ∧
    ((Cal.dropped s e).get Cal.b H.IRQ_RAW).testBit 2 = true := by
  have hraise (u : State) : (u.raise Cal.p 2).get (Cal.eb e) CalE.E_STAT_DROPPED = u.get (Cal.eb e) CalE.E_STAT_DROPPED := by
    refine State.get_put_ne u _ _ _ _ _ (Or.inr ?_)
    simp [Cal.p, pg, Cal.eb, H.IRQ_RAW, Fld.words, CalE.E_STAT_DROPPED]
    omega
  unfold Cal.dropped
  refine ⟨?_, State.testBit_raise_same (p := Cal.p) _ (by omega)⟩
  rw [State.flag, hraise, State.get_put_same]
  rfl

theorem Cal.marked_base (s : State) (e : Nat) (o : Occ) (gone : Bool) : (Cal.marked s e o gone).base = s.base := rfl
theorem Cal.marked_regs (s : State) (e : Nat) (o : Occ) (gone : Bool) : (Cal.marked s e o gone).regs = s.regs := rfl

theorem Cal.marked_ent_same (s : State) (e : Nat) (o : Occ) (gone : Bool) :
    (Cal.marked s e o gone).ent e = { s.ent e with occ := some { o with disp := true, drop := gone } } := State.ent_setEnt_same _ _ _

theorem Cal.marked_ent_ne (s : State) {e k : Nat} (h : k ≠ e) (o : Occ) (gone : Bool) : (Cal.marked s e o gone).ent k = s.ent k :=
  State.ent_setEnt_ne s h _

/-- A dispatch, whatever becomes of the action. -/
theorem Cal.dispatch_marks (s : State) (e : Nat) (o : Occ) : (Cal.dispatch s e o).base = s.base ∧
    (∀ k, (Cal.dispatch s e o).ent k = (Cal.marked s e o (s.isReset (Cal.island (Cal.action s e)))).ent k) := by
  cases h : s.isReset (Cal.island (Cal.action s e))
  · rw [Cal.dispatch_sent o h]
    exact ⟨Cal.marked_base s e o false, fun _ => rfl⟩
  · rw [Cal.dispatch_gone o h]
    exact ⟨(Cal.dropped_base _ _).trans (Cal.marked_base s e o true), fun k => Cal.dropped_ent _ _ _⟩

theorem exec_actionDispatch {e : Fin 256} {o : Occ} {s : State} (h : Cal.Due s e o) (hother : Cal.other (Cal.action s e.val) = true)
    (hdisp : o.disp = false) : exec (.actionDispatch e) s =
      .next (Cal.dispatch (s.runTo (tickUp (Cal.occInst s e.val o) - Cal.guard s e.val)) e.val o) := by
  obtain ⟨hstate, hocc, hen, hawake, -⟩ := h
  change execActionDispatch e s = _
  unfold execActionDispatch
  dsimp only
  rw [hocc]
  exact if_neg (by simp [hstate, hother, hdisp, hen, hawake])

theorem actionDispatch_sends {e : Fin 256} {o : Occ} {s : State} (h : Cal.Due s e o) (hother : Cal.other (Cal.action s e.val) = true)
    (hdisp : o.disp = false) {r : State} (hr : s.runTo (tickUp (Cal.occInst s e.val o) - Cal.guard s e.val) = r) {gone : Bool}
    (hgone : s.isReset (Cal.island (Cal.action s e.val)) = gone) : ∃ t, exec (.actionDispatch e) s = .next t ∧ t.base = r.base ∧
      (t.ent e.val).occ = some { o with disp := true, drop := gone } ∧ (∀ k, k ≠ e.val → t.ent k = s.ent k) ∧
      (gone = false → t.regs = s.regs ∧ t.acts = Action.insert ⟨e.val, Cal.action s e.val, s.wget (Cal.eb e.val) CalE.E_ARG_ARG,
        if o.late then o.own else tickUp (Cal.occInst r e.val o), tickUp (Cal.occInst r e.val o), o.late⟩ s.acts) ∧
      (gone = true → t.flag (Cal.eb e.val) CalE.E_STAT_DROPPED = true ∧ (t.get Cal.b H.IRQ_RAW).testBit 2 = true) := by
  have hact : Cal.action r e.val = Cal.action s e.val := by rw [← hr, Cal.action_runTo]
  have harg : r.wget (Cal.eb e.val) CalE.E_ARG_ARG = s.wget (Cal.eb e.val) CalE.E_ARG_ARG := by rw [← hr, State.wget_runTo]
  have hacts : r.acts = s.acts := by rw [← hr, State.acts_runTo]
  have hregs : r.regs = s.regs := by rw [← hr, State.runTo_regs]
  have hents (k : Nat) : r.ent k = s.ent k := by rw [← hr, State.ent_runTo]
  have hgone' : r.isReset (Cal.island (Cal.action r e.val)) = gone := by rw [hact, ← hr, State.isReset_runTo, hgone]
  obtain ⟨hbase, hent⟩ := Cal.dispatch_marks r e.val o
  rw [hgone'] at hent
  refine ⟨Cal.dispatch r e.val o, (exec_actionDispatch h hother hdisp).trans (by rw [hr]), hbase, ?_, fun k hk => ?_, fun hg => ?_, fun hg => ?_⟩
  · rw [hent, Cal.marked_ent_same]
  · rw [hent, Cal.marked_ent_ne r hk, hents]
  · rw [Cal.dispatch_sent o (hgone'.trans hg)]
    refine ⟨(Cal.marked_regs r e.val o false).trans hregs, ?_⟩
    rw [← hacts, ← hact, ← harg]
    rfl
  · rw [Cal.dispatch_gone o (hgone'.trans hg)]
    exact Cal.dropped_shows _ _

end Sys2Proof.Machine
end

section
/-! ## CANCEL, CLEAR_ALL and CAL_ENABLE (O33; spec/08 R200, R201) -/

namespace Sys2Proof.Machine

/-! ### Writes to the calendar's command register -/

/-- Fields of any value store some word, and log nothing. -/
theorem Bus.store_word {fs : List FieldAt} (hfs : ∀ f ∈ fs, f.Plain) (s : State) (req p a v : Nat) :
    ∃ w, Bus.store req p a fs v s = s.setReg a w := by
  have honce : fs.any (fun f => f.acc == .on) = false := by
    simpa using fun f hf => by simpa using (hfs f hf).not_once
  unfold Bus.store
  extract_lets first step
  have hfold (n : Nat) : ∃ w, fs.foldl step (n, none) = (w, none) := by
    clear honce
    induction fs generalizing n with
    | nil => exact ⟨n, rfl⟩
    | cons f fs ih =>
      obtain ⟨hf, hfs⟩ := List.forall_mem_cons.1 hfs
      have hstep : step (n, none) f = (putBits n f.lo f.w (bitsOf (f.source (s.regN a) v) f.lo f.w), none) := by
        simp only [step, hf.write]
      rw [List.foldl_cons, hstep]
      exact ih hfs _
  obtain ⟨w, hw⟩ := hfold (s.regN a)
  refine ⟨w, ?_⟩
  simp only [hw, honce, Bool.false_and, Bool.false_eq_true, if_false]

theorem Cal.page_listed : pageInfo Cal.p = some (.cal, 0) ∧ ownerPage Cal.p = Cal.p := by decide

theorem Cal.fields_calCmd : Bus.fields .cal 0 0x040 = [⟨0, 8, .fr, 0, .any⟩, ⟨8, 1, .pu, 0, .any⟩, ⟨9, 1, .pu, 0, .any⟩] := by decide

/-- CAL_CMD written with `v`: some word is stored and the commands asked for are carried out. -/
def Cal.commanded (s : State) (w v : Nat) : State :=
  let s := s.setReg (Cal.b + 0x040) w
  let s := if v.testBit 8 then Cal.cancel s (v % 256) else s
  if v.testBit 9 then Cal.clearAll s else s

/-- A write of CAL_CMD whose commands leave the cores and COUNT. -/
theorem Cmd.write_calCmd {s : State} {req : Req} {v : Nat} (hv : v < 2 ^ 32) (hq : s.Quiet) (hw : s.Writable req Cal.p)
    (hcores : ∀ w, (Cal.commanded s w v).cores = s.cores)
    (hcount : ∀ w, (Cal.commanded s w v).get Cal.b H.COUNT = s.get Cal.b H.COUNT) :
    ∃ w, Cmd.write s req (Cal.b + 0x040) v = .next ((Cal.commanded s w v).answered req []) := by
  have hplain : ∀ f ∈ Bus.fields .cal 0 0x040, f.Plain := by
    rw [Cal.fields_calCmd]
    simp [FieldAt.Plain]
  obtain ⟨w, hstore⟩ := Bus.store_word hplain s req.code Cal.p (Cal.b + 0x040) v
  refine ⟨w, Cmd.write_hook hw Cal.page_listed.1 (by decide) (by decide) (by decide) (by decide) (by decide) ?_
    (State.quiet_of_cores (hcores w) hq) (hcount w)⟩
  rw [Nat.mod_eq_of_lt hv]
  change Cal.write s req.code 0x040 v (Bus.store req.code Cal.p (Cal.b + 0x040) (Bus.fields .cal 0 0x040) v) = _
  rw [Cal.write, if_pos rfl, hstore]
  rfl

/-! ### CANCEL -/

theorem Cal.take_nothing {s : State} {e : Nat} (h : s.armedAt (Cal.key e) = none) (own : Bool) : Cal.take s e own = s := by
  unfold Cal.take
  rw [h]

theorem Cal.reg_setState (s : State) (e st : Nat) {a : Nat} (h : a ≠ Cal.eb e + 0x01C) : (Cal.setState s e st).reg a = s.reg a := by
  have hput (u : State) {f : Fld} (v : Nat) (hf : f.off = 0x01C ∧ f.words = 1) : (u.put (Cal.eb e) f v).reg a = u.reg a :=
    (State.RegsOnly.put u _ f v hf.2).2 a (by simpa [hf.1] using h)
  unfold Cal.setState
  dsimp only
  rw [hput _ _ ⟨rfl, rfl⟩, hput _ _ ⟨rfl, rfl⟩]
  split
  · rfl
  · exact State.reg_setEnt _ _ _ _

theorem Cal.setState_rest (s : State) (e st : Nat) :
    Cal.setState s e st = { s with regs := (Cal.setState s e st).regs, ents := (Cal.setState s e st).ents } := by
  have hputs (u : State) (v w : Nat) : (u.put (Cal.eb e) CalE.E_STAT_STATE v).put (Cal.eb e) CalE.E_STAT_REMAIN w =
      { u with regs := ((u.put (Cal.eb e) CalE.E_STAT_STATE v).put (Cal.eb e) CalE.E_STAT_REMAIN w).regs } := by
    conv_lhs => rw [State.put_only, State.put_only _ _ CalE.E_STAT_STATE]
    rfl
  unfold Cal.setState
  dsimp only
  by_cases h : st = 1
  · simp only [if_pos h]
    conv_lhs => rw [hputs]
    rw [State.put_ents, State.put_ents]
  · simp only [if_neg h]
    conv_lhs => rw [hputs]
    rw [State.put_ents, State.put_ents]
    rfl

theorem Cal.cores_setState (s : State) (e st : Nat) : (Cal.setState s e st).cores = s.cores := by rw [Cal.setState_rest]

theorem Cal.armedAt_setState (s : State) (e st key : Nat) : (Cal.setState s e st).armedAt key = s.armedAt key :=
  State.armedAt_congr (by rw [Cal.setState_rest]) key

theorem Cal.commanded_cancel {s : State} {e : Nat} (he : e < 256) (h : s.armedAt (Cal.key e) = none) (w : Nat) :
    Cal.commanded s w (e + 2 ^ 8) = Cal.setState (s.setReg (Cal.b + 0x040) w) e 0 := by
  have hbit8 : (e + 2 ^ 8).testBit 8 = true := by
    rw [Nat.testBit_eq_decide_div_mod_eq, decide_eq_true_eq]
    omega
  have hbit9 : (e + 2 ^ 8).testBit 9 = false := by
    rw [Nat.testBit_eq_decide_div_mod_eq, decide_eq_false_iff_not]
    omega
  have hentry : (e + 2 ^ 8) % 256 = e := by omega
  unfold Cal.commanded Cal.cancel
  simp only [hbit8, hbit9, hentry, if_true, Bool.false_eq_true, if_false]
  exact Cal.take_nothing ((Cal.armedAt_setState (s.setReg (Cal.b + 0x040) w) e 0 _).trans h) false

theorem Cal.answered_rest {s t : State} (h : t = { s with regs := t.regs, ents := t.ents }) (req : Req) (l : List Word) :
    t.answered req l = { s with
      regs := (t.answered req l).regs
      ents := (t.answered req l).ents
      resp := (t.answered req l).resp } := by
  conv_lhs => rw [h]
  rfl

theorem State.ent_answered (s : State) (req : Req) (l : List Word) (k : Nat) : (s.answered req l).ent k = s.ent k := rfl

theorem Cal.state_answered (s : State) (req : Req) (l : List Word) (e : Nat) : Cal.state (s.answered req l) e = Cal.state s e :=
  State.get_answered_req _ _ _ _ _

theorem exec_cancel (req : Req) (e : Fin 256) (s : State) : exec (.cancel req e) s = Cmd.write s req (Cal.b + 0x040) (e.val + 2 ^ 8) := rfl

/-- COUNT of the calendar's page is no word of an entry, nor CAL_CMD. -/
theorem Cal.count_setState (s : State) (w e st : Nat) :
    (Cal.setState (s.setReg (Cal.b + 0x040) w) e st).get Cal.b H.COUNT = s.get Cal.b H.COUNT := by
  refine State.get_of_reg rfl ((Cal.reg_setState _ _ _ ?_).trans (State.reg_setReg_ne s w (by decide)))
  simp [Cal.b, pg, Cal.eb, H.COUNT]
  omega

theorem Cal.ent_setState_ne (s : State) {e k : Nat} (h : k ≠ e) (st : Nat) : (Cal.setState s e st).ent k = s.ent k := by
  unfold Cal.setState
  dsimp only
  rw [State.ent_put, State.ent_put]
  split
  · rfl
  · exact State.ent_setEnt_ne s h _

theorem cancel_ends {req : Req} {e : Fin 256} {s : State} (hq : s.Quiet) (hw : s.Writable req Cal.p) (harm : s.armedAt (Cal.key e.val) = none) :
    ∃ t, exec (.cancel req e) s = .next t ∧ Cal.state t e.val = 0 ∧ t.get (Cal.eb e.val) CalE.E_STAT_REMAIN = 0 ∧
      (t.ent e.val).occ = none ∧ (∀ k, k ≠ e.val → t.ent k = s.ent k) ∧ t = { s with regs := t.regs, ents := t.ents, resp := t.resp } ∧
      ∀ a, a ≠ Cal.b + 0x040 → a ≠ Cal.eb e.val + 0x01C → t.reg a = s.reg a := by
  obtain ⟨w, hwrite⟩ := Cmd.write_calCmd (v := e.val + 2 ^ 8) (by omega) hq hw
    (fun w => by rw [Cal.commanded_cancel e.isLt harm, Cal.cores_setState]; rfl)
    (fun w => by rw [Cal.commanded_cancel e.isLt harm, Cal.count_setState])
  rw [Cal.commanded_cancel e.isLt harm] at hwrite
  have hrest : Cal.setState (s.setReg (Cal.b + 0x040) w) e.val 0 = { s with
      regs := (Cal.setState (s.setReg (Cal.b + 0x040) w) e.val 0).regs
      ents := (Cal.setState (s.setReg (Cal.b + 0x040) w) e.val 0).ents } := Cal.setState_rest _ _ _
  refine ⟨_, (exec_cancel req e s).trans hwrite, ?_, ?_, ?_, fun k hk => ?_, Cal.answered_rest hrest req [], fun a h1 h2 => ?_⟩
  · rw [Cal.state_answered, Cal.state_setState _ _ (by decide)]
  · rw [State.get_answered_req, Cal.remain_setState _ _ (by decide)]
  · rw [State.ent_answered, Cal.ent_setState_rest _ _ (by decide)]
  · rw [State.ent_answered, Cal.ent_setState_ne _ hk]
    rfl
  · rw [State.reg_answered, Cal.reg_setState _ _ _ h2, State.reg_setReg_ne s w h1]

/-! ### CLEAR_ALL -/

/-- An entry that is not OFF becomes so. -/
def Cal.off (s : State) (e : Nat) : State := if Cal.state s e = 0 then s else Cal.setState s e 0

/-- The calendar without its entries' armed COMMITs. -/
def Cal.unarmed (s : State) : State := { s with armed := s.armed.filter (fun x => !decide (Cal.key 0 ≤ x.key ∧ x.key < Cal.key 256)) }

theorem Cal.clearAll_eq (s : State) : Cal.clearAll s = Cal.pend (Cal.unarmed (s.each (List.range 256) Cal.off)) := rfl

/-- What CLEAR_ALL is about: state and occurrence of an entry. -/
def Cal.waiting (e : Nat) (s : State) : Nat × Option Occ := (Cal.state s e, (s.ent e).occ)

theorem Cal.waiting_off (s : State) (e : Nat) : Cal.waiting e (Cal.off s e) = if (Cal.waiting e s).1 = 0 then Cal.waiting e s else (0, none) := by
  unfold Cal.waiting Cal.off
  split
  · rfl
  · rw [Cal.state_setState _ _ (by decide), Cal.ent_setState_rest _ _ (by decide)]

theorem Cal.waiting_off_ne (s : State) {e k : Nat} (h : k ≠ e) : Cal.waiting k (Cal.off s e) = Cal.waiting k s := by
  unfold Cal.waiting Cal.off
  split
  · rfl
  · have hstate : Cal.state (Cal.setState s e 0) k = Cal.state s k := by
      refine State.get_of_reg rfl (Cal.reg_setState s e 0 ?_)
      simp [Cal.eb, CalE.E_STAT_STATE]
      exact h
    rw [hstate, Cal.ent_setState_ne s h]

theorem Cal.waiting_each_off (s : State) {e : Nat} (he : e < 256) :
    Cal.waiting e (s.each (List.range 256) Cal.off) = if (Cal.waiting e s).1 = 0 then Cal.waiting e s else (0, none) :=
  State.each_apply (act := fun x => if x.1 = 0 then x else (0, none)) Cal.waiting_off (fun u _ _ h => Cal.waiting_off_ne u h)
    List.nodup_range s (List.mem_range.2 he)

theorem Cal.armedAt_unarmed (s : State) {e : Nat} (he : e < 256) : (Cal.unarmed s).armedAt (Cal.key e) = none := by
  refine List.find?_eq_none.2 fun x hx hk => ?_
  have hkey : x.key = Cal.key e := by simpa using hk
  have hout := (List.mem_filter.1 hx).2
  simp [hkey, Cal.key] at hout
  omega

/-- COMMIT_PEND shown changes one header word. -/
theorem Cal.pend_only (s : State) : s.RegsOnly (Cal.pend s) [Cal.b + 0x010] := State.RegsOnly.put _ _ _ _ rfl

/-- What CLEAR_ALL leaves: cores, memory, working registers and the count of errors. -/
def Cal.kept (s : State) : Vector CoreSt 6 × List Host.Cell × List (Nat × Word) × Nat := (s.cores, s.mem, s.work, s.get Cal.b H.COUNT)

theorem Cal.kept_off (s : State) (e : Nat) : Cal.kept (Cal.off s e) = Cal.kept s := by
  unfold Cal.off
  split
  · rfl
  · have hcount : (Cal.setState s e 0).get Cal.b H.COUNT = s.get Cal.b H.COUNT := by
      refine State.get_of_reg rfl (Cal.reg_setState s e 0 ?_)
      simp [Cal.b, pg, Cal.eb, H.COUNT]
      omega
    unfold Cal.kept
    rw [hcount, Cal.setState_rest]

theorem Cal.kept_unarmed (s : State) : Cal.kept (Cal.unarmed s) = Cal.kept s := by
  unfold Cal.kept
  rw [State.get_congr (s := Cal.unarmed s) (t := s) rfl]
  rfl

theorem Cal.waiting_unarmed (s : State) (e : Nat) : Cal.waiting e (Cal.unarmed s) = Cal.waiting e s := by
  unfold Cal.waiting Cal.state
  rw [State.get_congr (s := Cal.unarmed s) (t := s) rfl]
  rfl

theorem State.armedAt_answered (s : State) (req : Req) (l : List Word) (key : Nat) : (s.answered req l).armedAt key = s.armedAt key := rfl

theorem Cal.kept_clearAll (s : State) : Cal.kept (Cal.clearAll s) = Cal.kept s := by
  have heach : Cal.kept (Cal.unarmed (s.each (List.range 256) Cal.off)) = Cal.kept s :=
    (Cal.kept_unarmed _).trans (State.each_keeps Cal.kept _ _ Cal.kept_off s)
  rw [Cal.clearAll_eq, ← heach]
  generalize Cal.unarmed (s.each (List.range 256) Cal.off) = u
  have hcount : (Cal.pend u).get Cal.b H.COUNT = u.get Cal.b H.COUNT := State.get_put_apart u Cal.b _ (by decide)
  unfold Cal.kept
  rw [hcount, (Cal.pend_only u).1]

theorem Cal.armedAt_clearAll (s : State) {e : Nat} (he : e < 256) : (Cal.clearAll s).armedAt (Cal.key e) = none := by
  rw [Cal.clearAll_eq, (Cal.pend_only _).armedAt]
  exact Cal.armedAt_unarmed _ he

theorem Cal.waiting_pend (s : State) (e : Nat) : Cal.waiting e (Cal.pend s) = Cal.waiting e s := by
  have hstate : Cal.state (Cal.pend s) e = Cal.state s e := by
    refine State.get_of_reg rfl ((Cal.pend_only s).2 _ ?_)
    simp [Cal.b, pg, Cal.eb, CalE.E_STAT_STATE]
    omega
  unfold Cal.waiting
  rw [hstate]
  unfold State.ent
  rw [(Cal.pend_only s).1]

theorem Cal.waiting_clearAll (s : State) {e : Nat} (he : e < 256) :
    Cal.waiting e (Cal.clearAll s) = if (Cal.waiting e s).1 = 0 then Cal.waiting e s else (0, none) := by
  rw [Cal.clearAll_eq, Cal.waiting_pend, Cal.waiting_unarmed]
  exact Cal.waiting_each_off s he

theorem Cal.commanded_clearAll (s : State) (w : Nat) : Cal.commanded s w (2 ^ 9) = Cal.clearAll (s.setReg (Cal.b + 0x040) w) := by
  have hbits : (2 ^ 9).testBit 8 = false ∧ (2 ^ 9).testBit 9 = true := by decide
  unfold Cal.commanded
  rw [hbits.1, hbits.2]
  rfl

theorem exec_clearAll (req : Req) (s : State) : exec (.clearAll req) s = Cmd.write s req (Cal.b + 0x040) (2 ^ 9) := rfl

theorem clearAll_clears {req : Req} {s : State} (hq : s.Quiet) (hw : s.Writable req Cal.p) : ∃ t, exec (.clearAll req) s = .next t ∧
    (∀ e : Fin 256, Cal.state t e.val = 0 ∧ t.armedAt (Cal.key e.val) = none ∧ (Cal.state s e.val ≠ 0 → (t.ent e.val).occ = none)) ∧
    t.mem = s.mem ∧ t.work = s.work := by
  have hkept (w : Nat) : Cal.kept (Cal.commanded s w (2 ^ 9)) = Cal.kept (s.setReg (Cal.b + 0x040) w) := by
    rw [Cal.commanded_clearAll, Cal.kept_clearAll]
  simp only [Cal.kept, Prod.mk.injEq] at hkept
  obtain ⟨w, hwrite⟩ := Cmd.write_calCmd (v := 2 ^ 9) (by decide) hq hw (fun w => (hkept w).1)
    (fun w => (hkept w).2.2.2.trans (State.get_of_reg rfl (State.reg_setReg_ne s w (by decide))))
  obtain ⟨-, hmem, hwork, -⟩ := hkept w
  rw [Cal.commanded_clearAll] at hwrite hmem hwork
  refine ⟨_, (exec_clearAll req s).trans hwrite, fun e => ?_, hmem, hwork⟩
  have hsame : Cal.waiting e.val (s.setReg (Cal.b + 0x040) w) = Cal.waiting e.val s := by
    have hstate : Cal.state (s.setReg (Cal.b + 0x040) w) e.val = Cal.state s e.val := by
      refine State.get_of_reg rfl (State.reg_setReg_ne s w ?_)
      simp [Cal.b, pg, Cal.eb, CalE.E_STAT_STATE]
      omega
    unfold Cal.waiting
    rw [hstate]
    rfl
  have hwait := Cal.waiting_clearAll (s.setReg (Cal.b + 0x040) w) e.isLt
  rw [hsame] at hwait
  refine ⟨?_, (State.armedAt_answered _ _ _ _).trans (Cal.armedAt_clearAll _ e.isLt), fun hne => ?_⟩
  · rw [Cal.state_answered]
    refine (congrArg Prod.fst hwait).trans ?_
    split
    · next h => exact h
    · rfl
  · rw [State.ent_answered]
    exact (congrArg Prod.snd hwait).trans (congrArg Prod.snd (if_neg hne))

/-! ### CAL_ENABLE -/

theorem Cal.tsel_congr {s t : State} (h : t.work = s.work) (e : Nat) : Cal.tsel t e = Cal.tsel s e := State.wget_congr h _ _

theorem State.wget_lt (s : State) (b : Nat) (f : Fld) : s.wget b f < 2 ^ f.w := bitsOf_lt _ _ _

theorem Cal.tsel_lt (s : State) (e : Nat) : Cal.tsel s e < 8 := State.wget_lt s _ CalE.E_CTL_TSEL

theorem Cal.convert_congr {s t : State} (hwork : t.work = s.work) (hts : t.ts = s.ts) (hbase : t.base = s.base) {e : Nat}
    (hinc : t.incNow (Cal.tsel s e) = s.incNow (Cal.tsel s e)) (x : Nat) : Cal.convert t e x = Cal.convert s e x := by
  have hnow : t.now = s.now := by rw [State.now, hbase, State.now]
  unfold Cal.convert
  simp only [Cal.tsel_congr hwork, State.tsv_congr hts, hnow, hinc]

theorem Cal.anchor_congr {s t : State} (h : t.work = s.work) (e : Nat) : Cal.anchor t e = Cal.anchor s e := by
  unfold Cal.anchor
  simp only [Cal.tsel_congr h, State.wget_congr h]

theorem Cal.period_congr {s t : State} (h : t.work = s.work) (e : Nat) : Cal.period t e = Cal.period s e := State.wget_congr h _ _

/-- The instant of an entry's occurrence rests on its working registers, its timescale and the clock. -/
theorem Cal.occInst_congr {s t : State} (hwork : t.work = s.work) (hts : t.ts = s.ts) (hbase : t.base = s.base) {e : Nat}
    (hinc : t.incNow (Cal.tsel s e) = s.incNow (Cal.tsel s e)) (o : Occ) : Cal.occInst t e o = Cal.occInst s e o := by
  unfold Cal.occInst Cal.instOf
  rw [Cal.anchor_congr hwork, Cal.period_congr hwork, Cal.convert_congr hwork hts hbase hinc]

theorem Cal.guard_congr {s t : State} (hwork : t.work = s.work) (hcoast : t.coast = s.coast) (e : Nat) : Cal.guard t e = Cal.guard s e := by
  unfold Cal.guard Cal.action
  rw [State.wget_congr hwork, hcoast]

/-- An occurrence at the guard or later is not disturbed. -/
theorem Cal.recheck_ahead {s : State} {e : Nat}
    (h : ∀ o, (s.ent e).occ = some o → 64 * ((s.now + Cal.guard s e : Nat) : Int) ≤ Cal.occInst s e o) (en : Bool) :
    Cal.recheck s e en = s := by
  cases hocc : (s.ent e).occ with
  | none => exact Cal.recheck_no_occ hocc en
  | some o =>
    unfold Cal.recheck
    rw [hocc]
    dsimp only
    rw [if_pos (h o hocc), ite_self]

theorem Cal.page_ctl : Page.freezable Cal.p = false ∧ Page.resettable Cal.p = false := by decide

/-- EN shown as written. -/
def Cal.enSet (s : State) (on : Bool) : State := (s.putB (pg Cal.p) H.EN on).putB (pg Cal.p) H.ENABLED on

theorem Cal.enSet_only (s : State) (on : Bool) : s.RegsOnly (Cal.enSet s on) [pg Cal.p + 0x00C, pg Cal.p + 0x010] :=
  ((State.RegsOnly.refl s _).put_then _ H.EN _ rfl (by decide)).put_then _ H.ENABLED _ rfl (by decide)

theorem Cal.enSet_shows (s : State) (on : Bool) : (Cal.enSet s on).en Cal.p = on ∧ (Cal.enSet s on).flag (pg Cal.p) H.ENABLED = on := by
  constructor
  · exact (State.flag_putB_apart _ _ _ (by decide)).trans (State.flag_putB _ _ _ rfl)
  · exact State.flag_putB _ _ _ rfl

theorem Cal.setEn_eq (s : State) (req : Nat) (on : Bool) :
    Page.setEn s req Cal.p on = if s.en Cal.p = on then Cal.enSet s on else Page.onEn (Cal.enSet s on) req Cal.p on := by
  unfold Page.setEn
  rw [if_neg (show ¬Cal.p = 0x050 by decide), if_neg (show ¬(Cal.p = 0x018 ∨ Cal.p = 0x048) by decide)]
  rfl

theorem Cal.onEn_on (s : State) (req : Nat) : Page.onEn s req Cal.p true = Cal.disturbAll s true := rfl

/-- The calendar enabled with nothing to disturb shows EN. -/
theorem Cal.setEn_quiet {s : State} (req : Nat)
    (h : ∀ e < 256, Cal.recheck (Cal.enSet s true) e true = Cal.enSet s true) : Page.setEn s req Cal.p true = Cal.enSet s true := by
  have hall : Cal.disturbAll (Cal.enSet s true) true = Cal.enSet s true := State.each_eq_self fun e he => h e (List.mem_range.1 he)
  rw [Cal.setEn_eq, Cal.onEn_on, hall, ite_self]

/-- A write of PAGE_CTL that sets EN alone. -/
theorem Cal.ctl_en {v : Nat} (hen : v.testBit 0 = true) (hsrst : v.testBit 1 = false) (hfreeze : v.testBit 2 = false) (s : State) (req : Nat) :
    Page.ctl s req Cal.p v = Page.setEn s req Cal.p true := by
  obtain ⟨hfz, hrs⟩ := Cal.page_ctl
  unfold Page.ctl
  simp only [hfz, hrs, hen, hsrst, hfreeze, Bool.false_and, Bool.or_self, Bool.false_eq_true, if_false]

theorem State.get_word (s : State) (b : Nat) {f : Fld} (hf : f.words = 1) : s.get b f = bitsOf (s.regN (b + f.off)) f.lo f.w := by
  rw [State.get_eq, hf]
  simp [State.wordsAt, State.regN]

theorem exec_calEnable (req : Req) (s : State) : exec (.calEnable req) s = Cmd.write s req (pg Cal.p + 0x00C)
    (putBits (s.regN (pg Cal.p + 0x00C) &&& (2 ^ 32 - 1 - 2)) 0 1 1) := rfl

/-- The word that CAL_ENABLE writes sets EN and keeps FREEZE. -/
theorem Cal.enableWord {s : State} (hfreeze : s.flag (pg Cal.p) H.FREEZE = false) :
    (Cmd.bitsWord s (pg Cal.p + 0x00C) 2 0 1 1).testBit 0 = true ∧ (Cmd.bitsWord s (pg Cal.p + 0x00C) 2 0 1 1).testBit 1 = false ∧
      (Cmd.bitsWord s (pg Cal.p + 0x00C) 2 0 1 1).testBit 2 = false := by
  have hbit (n : Nat) := bitsOf_testBit (Cmd.bitsWord s (pg Cal.p + 0x00C) 2 0 1 1) n 1 0
  have hoff : bitsOf (s.regN (pg Cal.p + 0x00C)) 2 1 = 0 := by
    have hget : s.get (pg Cal.p) H.FREEZE = 0 := by simpa [State.flag] using hfreeze
    rwa [State.get_word s _ rfl] at hget
  refine ⟨?_, ?_, ?_⟩
  · have h := hbit 0
    rw [Cmd.bitsOf_bitsWord s _ _ _ (by decide)] at h
    exact h.symm
  · have h := hbit 1
    rw [Cmd.bitsOf_bitsWord_pulse s (by decide) (by decide) (by decide) (by decide)] at h
    exact h.symm
  · have h := hbit 2
    rw [Cmd.bitsOf_bitsWord_ne s (by decide) (by decide) (by decide) (by decide), hoff] at h
    exact h.symm

theorem calEnable_sets {req : Req} {s : State} (hq : s.Quiet) (hw : s.Writable req Cal.p) (hfreeze : s.flag (pg Cal.p) H.FREEZE = false)
    (hahead : ∀ (e : Fin 256) (o : Occ), (s.ent e.val).occ = some o →
      64 * ((s.now + Cal.guard s e.val : Nat) : Int) ≤ Cal.occInst s e.val o) :
    Cmd.Sets (.calEnable req) s [pg Cal.p + 0x00C, pg Cal.p + 0x010] (fun t => t.en Cal.p = true ∧ t.flag (pg Cal.p) H.ENABLED = true) := by
  have honly := Cal.enSet_only s true
  have hbase : (Cal.enSet s true).base = s.base := by rw [honly.1]
  have hget {b : Nat} {f : Fld} (hb : b + f.off + 4 * f.words ≤ 0x51000) : (Cal.enSet s true).get b f = s.get b f :=
    honly.get b f fun i hi => by
      simp [Cal.p, pg]
      omega
  have hinst (e : Nat) (o : Occ) : Cal.occInst (Cal.enSet s true) e o = Cal.occInst s e o := by
    have hlt := Cal.tsel_lt s e
    refine Cal.occInst_congr honly.work (by rw [honly.1]) hbase (hget ?_) o
    simp [TsR.INC_NOW_INC, Fld.words]
    omega
  have hguard (e : Nat) : Cal.guard (Cal.enSet s true) e = Cal.guard s e :=
    Cal.guard_congr honly.work (congrArg (· != 0) (hget (by decide))) e
  have hnow : (Cal.enSet s true).now = s.now := by rw [State.now, hbase, State.now]
  have hstill (e : Nat) (he : e < 256) : Cal.recheck (Cal.enSet s true) e true = Cal.enSet s true := by
    refine Cal.recheck_ahead (fun o ho => ?_) true
    rw [hnow, hguard, hinst]
    exact hahead ⟨e, he⟩ o ((congrArg Entry.occ (State.ent_congr (by rw [honly.1]) e)).symm.trans ho)
  obtain ⟨hen, hsrst, hfrz⟩ := Cal.enableWord hfreeze
  obtain ⟨hon, hshown⟩ := Cal.enSet_shows s true
  refine Cmd.sets_headerWord (p := ⟨Cal.p, by decide⟩) (t := Cal.enSet s true) (exec_calEnable req s) hq hw.1 (by decide) (by decide) (by decide)
    ?_ honly (honly.count_le (by decide)) ⟨?_, ?_⟩
  · exact (Bus.putHeader_ctl hw.2 _ _).trans ((Cal.ctl_en hen hsrst hfrz s req.code).trans (Cal.setEn_quiet req.code hstill))
  · rw [State.en_answered, hon]
  · rw [State.flag_answered, hshown]

/-! ### The obligation -/

/-- Settles O33: each clause is the rule of its command, proved above. -/
theorem calendarCommands : Obligations.CalendarCommands := by
  unfold Obligations.CalendarCommands
  exact ⟨fun _ _ _ hocc hconv => exec_occurrenceConvert hocc hconv rfl rfl, fun _ _ _ h hother hdisp => actionDispatch_sends h hother hdisp rfl rfl,
    fun _ _ _ => cancel_ends, fun _ _ => clearAll_clears, fun _ _ => calEnable_sets⟩

end Sys2Proof.Machine
end

section
/-! ## What every firing does (O32; spec/08 R196, R198, R201) -/

namespace Sys2Proof.Machine

/-! ### The next occurrence -/

/-- Was the occurrence the entry's last: a one-shot's, or the one that makes up a Rota's COUNT? -/
def Cal.lastOne (s : State) (e : Nat) : Bool :=
  !s.wflag (Cal.eb e) CalE.E_CTL_ROTA ||
    (s.wget (Cal.eb e) CalE.E_CTL_COUNT != 0 && decide (s.wget (Cal.eb e) CalE.E_CTL_COUNT ≤ (s.ent e).used))

theorem Cal.next_eq {s : State} {e : Nat} (harm : s.armedAt (Cal.key e) = none) (k : Nat) : Cal.next s e k =
    if Cal.lastOne s e then Cal.setState s e 2
    else if (s.tst (Cal.tsel s e)).stepAt = some s.now ∧ Cal.tsel s e < 4 then Cal.rota s e 0 (k + 1) true
    else Cal.rota s e (k + 1) (k + 1) false := by
  unfold Cal.next
  rw [harm]
  exact if_neg Bool.false_ne_true

/-- The entry is DONE or waits for its next occurrence. -/
theorem Cal.next_form {s : State} {e : Nat} (he : e < 256) (harm : s.armedAt (Cal.key e) = none) (k : Nat) : ∃ u j, Cal.Only s u e ∧
    (u.ent e).last = (s.ent e).last ∧ (Cal.next s e k = Cal.setState u e 2 ∨ Cal.next s e k = Cal.arm u e j) := by
  rw [Cal.next_eq harm]
  split
  · exact ⟨s, 0, Cal.Only.refl s e, rfl, Or.inl rfl⟩
  · split
    · exact Cal.rota_form he _ _ _
    · exact Cal.rota_form he _ _ _

theorem Cal.next_oneShot {s : State} {e : Nat} (harm : s.armedAt (Cal.key e) = none)
    (hrota : s.wflag (Cal.eb e) CalE.E_CTL_ROTA = false) (k : Nat) : Cal.next s e k = Cal.setState s e 2 := by
  rw [Cal.next_eq harm, if_pos (by simp [Cal.lastOne, hrota])]

/-- An entry is DONE with no occurrence, or waits with one. -/
def Cal.Settled (s : State) (e : Nat) : Prop :=
  Cal.state s e = 2 ∧ (s.ent e).occ = none ∨ Cal.state s e = 1 ∧ (s.ent e).occ.isSome = true

theorem Cal.next_settles {s : State} {e : Nat} (he : e < 256) (harm : s.armedAt (Cal.key e) = none) (k : Nat) :
    Cal.Only s (Cal.next s e k) e ∧ ((Cal.next s e k).ent e).last = (s.ent e).last ∧ Cal.Settled (Cal.next s e k) e := by
  obtain ⟨u, j, honly, hlast, hnext | hnext⟩ := Cal.next_form he harm k
  · rw [hnext, ← hlast]
    have hent := Cal.ent_setState_rest u e (st := 2) (by decide)
    refine ⟨Cal.setState_only honly he 2, ?_, Or.inl ⟨Cal.state_setState u e (by decide), ?_⟩⟩
    · rw [hent]
    · rw [hent]
  · rw [hnext, ← hlast]
    obtain ⟨hstate, hocc, hlast'⟩ := Cal.arm_waits u e j
    exact ⟨Cal.arm_only honly he j, hlast', Or.inr ⟨hstate, hocc⟩⟩

/-! ### The firing recorded -/

/-- The firing at the instant `u` recorded, and what comes next. -/
def Cal.finish (s : State) (e u k : Nat) : State := Cal.next (s.setEnt e ⟨none, some u, (s.ent e).used + 1⟩) e k

theorem Cal.finish_facts {s : State} {e : Nat} (he : e < 256) (harm : s.armedAt (Cal.key e) = none) (u k : Nat) :
    Cal.Only s (Cal.finish s e u k) e ∧ ((Cal.finish s e u k).ent e).last = some u ∧ Cal.Settled (Cal.finish s e u k) e := by
  have hset : Cal.Only s (s.setEnt e ⟨none, some u, (s.ent e).used + 1⟩) e := (Cal.Only.refl s e).setEnt _
  obtain ⟨honly, hlast, hsettled⟩ := Cal.next_settles he ((hset.armedAt _).trans harm) k
  rw [State.ent_setEnt_same] at hlast
  exact ⟨hset.trans honly, hlast, hsettled⟩

/-- A one-shot is DONE. -/
theorem Cal.finish_oneShot {s : State} {e : Nat} (harm : s.armedAt (Cal.key e) = none)
    (hrota : s.wflag (Cal.eb e) CalE.E_CTL_ROTA = false) (u k : Nat) : Cal.state (Cal.finish s e u k) e = 2 ∧
      ((Cal.finish s e u k).ent e).occ = none ∧ ((Cal.finish s e u k).ent e).used = (s.ent e).used + 1 ∧
      (Cal.finish s e u k).get (Cal.eb e) CalE.E_STAT_REMAIN = 0 := by
  have heq : Cal.finish s e u k = Cal.setState (s.setEnt e ⟨none, some u, (s.ent e).used + 1⟩) e 2 :=
    Cal.next_oneShot (s := s.setEnt e _) harm hrota k
  rw [heq, Cal.ent_setState_rest _ _ (by decide), State.ent_setEnt_same]
  exact ⟨Cal.state_setState _ _ (by decide), rfl, rfl, Cal.remain_setState _ _ (by decide)⟩

/-- `x` is a state of the firing of entry `e` on the tick of its instant: what the entry's further way rests on is as in `s`. -/
structure Cal.AtTick (s x : State) (e : Fin 256) (u : Int) : Prop where
  base : x.base = (s.runTo (tickUp u)).base
  work : x.work = s.work
  used : (x.ent e.val).used = (s.ent e.val).used
  armed : x.armedAt (Cal.key e.val) = none

/-- What every firing leaves, whatever its action has done before. -/
theorem Cal.finish_fired {s x : State} {e : Fin 256} {u : Int} (h : Cal.AtTick s x e u) (k : Nat) :
    Cal.Fired s (Cal.finish x e.val u.toNat k) e u := by
  obtain ⟨honly, hlast, hsettled⟩ := Cal.finish_facts e.isLt h.armed u.toNat k
  have hrota : x.wflag (Cal.eb e.val) CalE.E_CTL_ROTA = s.wflag (Cal.eb e.val) CalE.E_CTL_ROTA := State.wflag_congr h.work _ _
  refine ⟨honly.base.trans h.base, hlast, fun hoff => ?_, fun _ => hsettled⟩
  obtain ⟨hstate, hocc, hused, hremain⟩ := Cal.finish_oneShot h.armed (hrota.trans hoff) u.toNat k
  exact ⟨hstate, hocc, hused.trans (by rw [h.used]), hremain⟩

/-! ### The firing's steps -/

/-- FIRED shown, where the entry's IRQ asks for it and the action was not dropped. -/
def Cal.shown (s : State) (e : Nat) (drop : Bool) : State :=
  if !drop && s.wflag (Cal.eb e) CalE.E_CTL_IRQ then (s.put Cal.b ⟨CalP.FIRED.off + 4 * (e / 32), e % 32, 1⟩ 1).raise Cal.p 0 else s

/-- NOOP shown, where the permit or the leap event changed nothing. -/
def Cal.noopShown (s : State) (e : Nat) (noop : Bool) : State := if noop then (s.put (Cal.eb e) CalE.E_STAT_NOOP 1).raise Cal.p 4 else s

/-- The action sent to its island, where that was not done ahead. -/
def Cal.sent (s : State) (e : Nat) (o : Occ) : State := if Cal.other (Cal.action s e) && !o.disp then Cal.dispatch s e o else s

/-- Was the action of the entry's occurrence dropped? -/
def Cal.dropOf (s : State) (e : Nat) : Bool :=
  match (s.ent e).occ with
  | some o => o.drop
  | none => false

theorem Cal.fire_due {s : State} {e : Fin 256} {o : Occ} (h : Cal.Due s e o) {u : Int} (hu : Cal.occInst s e.val o = u) {d : State}
    (hd : Cal.sent (s.runTo (tickUp u)) e.val o = d) {y : State × Bool} (hy : Cal.timeAction d e.val u.toNat = y) :
    Cal.fire s e.val = Cal.finish (Cal.noopShown (Cal.shown y.1 e.val (Cal.dropOf d e.val)) e.val y.2) e.val u.toNat o.k := by
  obtain ⟨hstate, hocc, hen, hawake, -⟩ := h
  subst hu hd hy
  unfold Cal.fire
  rw [hocc]
  exact if_neg (by simp [hstate, hen, hawake])

/-! #### What showing FIRED and NOOP leaves -/

theorem Cal.shown_only (s : State) {e : Nat} (he : e < 256) (drop : Bool) : Cal.Only s (Cal.shown s e drop) e := by
  have hwords : Fld.words ⟨CalP.FIRED.off + 4 * (e / 32), e % 32, 1⟩ = 1 := by
    unfold Fld.words
    dsimp only
    omega
  have hput : Cal.Only s (s.put Cal.b ⟨CalP.FIRED.off + 4 * (e / 32), e % 32, 1⟩ 1) e := by
    refine (Cal.Only.refl s e).putPage 1 ?_
    rw [hwords]
    unfold CalP.FIRED
    dsimp only
    omega
  exact (hput.raise 0).ite _ (Cal.Only.refl s e)

theorem Cal.shown_ent (s : State) (e : Nat) (drop : Bool) (k : Nat) : (Cal.shown s e drop).ent k = s.ent k := by
  unfold Cal.shown
  split
  · rw [State.ent_raise, State.ent_put]
  · rfl

theorem Cal.shown_raised {s : State} {e : Nat} (hirq : s.wflag (Cal.eb e) CalE.E_CTL_IRQ = true) :
    ((Cal.shown s e false).get Cal.b H.IRQ_RAW).testBit 0 = true := by
  rw [Cal.shown, hirq]
  exact State.testBit_raise_same (p := Cal.p) _ (by omega)

theorem Cal.noopShown_only (s : State) (e : Nat) (noop : Bool) :
    s.RegsOnly (Cal.noopShown s e noop) [Cal.eb e + 0x01C, pg Cal.p + 0x014] := by
  unfold Cal.noopShown
  split
  · exact ((State.RegsOnly.refl s _).put_then _ CalE.E_STAT_NOOP 1 rfl (by simp [CalE.E_STAT_NOOP])).put_then _ H.IRQ_RAW _ rfl
      (by simp [H.IRQ_RAW])
  · exact State.RegsOnly.refl s _

theorem Cal.noopShown_shows (s : State) (e : Nat) : (Cal.noopShown s e true).get (Cal.eb e) CalE.E_STAT_NOOP = 1 ∧
    ((Cal.noopShown s e true).get Cal.b H.IRQ_RAW).testBit 4 = true := by
  have hraise (u : State) : (u.raise Cal.p 4).get (Cal.eb e) CalE.E_STAT_NOOP = u.get (Cal.eb e) CalE.E_STAT_NOOP := by
    refine State.get_put_ne u _ _ _ _ _ (Or.inr ?_)
    simp [Cal.p, pg, Cal.eb, H.IRQ_RAW, Fld.words, CalE.E_STAT_NOOP]
    omega
  rw [Cal.noopShown, if_pos rfl]
  refine ⟨?_, State.testBit_raise_same (p := Cal.p) _ (by omega)⟩
  rw [hraise, State.get_put_same]
  rfl

namespace Cal.AtTick

variable {s x t : State} {e : Fin 256} {u : Int}

theorem only (h : Cal.AtTick s x e u) (ht : Cal.Only x t e.val) (hused : (t.ent e.val).used = (x.ent e.val).used) : Cal.AtTick s t e u :=
  ⟨ht.base.trans h.base, ht.work.trans h.work, hused.trans h.used, (ht.armedAt _).trans h.armed⟩

theorem regsOnly (h : Cal.AtTick s x e u) {ws : List Nat} (ht : x.RegsOnly t ws) : Cal.AtTick s t e u := by
  refine ⟨?_, ht.work.trans h.work, ?_, (ht.armedAt _).trans h.armed⟩
  · rw [ht.1]
    exact h.base
  · rw [State.ent_congr (s := x) (by rw [ht.1])]
    exact h.used

theorem shown (h : Cal.AtTick s x e u) (drop : Bool) : Cal.AtTick s (Cal.shown x e.val drop) e u :=
  h.only (Cal.shown_only x e.isLt drop) (by rw [Cal.shown_ent])

theorem noopShown (h : Cal.AtTick s x e u) (noop : Bool) : Cal.AtTick s (Cal.noopShown x e.val noop) e u :=
  h.regsOnly (Cal.noopShown_only x e.val noop)

end Cal.AtTick

/-- The firing of an action that changed something, or had nothing to change. -/
theorem Cal.fire_did {s : State} {e : Fin 256} {o : Occ} (h : Cal.Due s e o) {u : Int} (hu : Cal.occInst s e.val o = u) {d x : State}
    (hd : Cal.sent (s.runTo (tickUp u)) e.val o = d) (hact : Cal.timeAction d e.val u.toNat = (x, false)) (hx : Cal.AtTick s x e u) :
    Cal.Only x (Cal.fire s e.val) e.val ∧ Cal.Fired s (Cal.fire s e.val) e u ∧
      (Cal.dropOf d e.val = false → s.wflag (Cal.eb e.val) CalE.E_CTL_IRQ = true →
        ((Cal.fire s e.val).get Cal.b H.IRQ_RAW).testBit 0 = true) := by
  have hfire := Cal.fire_due h hu hd hact
  rw [Cal.noopShown, if_neg Bool.false_ne_true] at hfire
  have hshown := hx.shown (Cal.dropOf d e.val)
  obtain ⟨hfin, -, -⟩ := Cal.finish_facts e.isLt hshown.armed u.toNat o.k
  rw [hfire]
  refine ⟨(Cal.shown_only x e.isLt _).trans hfin, Cal.finish_fired hshown o.k, fun hdrop hirq => hfin.irq 0 (by decide) ?_⟩
  rw [hdrop]
  exact Cal.shown_raised ((State.wflag_congr hx.work _ _).trans hirq)

/-- The firing of a permit or leap event that changed nothing shows NOOP. -/
theorem Cal.fire_noop {s : State} {e : Fin 256} {o : Occ} (h : Cal.Due s e o) {u : Int} (hu : Cal.occInst s e.val o = u) {d x : State}
    (hd : Cal.sent (s.runTo (tickUp u)) e.val o = d) (hact : Cal.timeAction d e.val u.toNat = (x, true)) (hx : Cal.AtTick s x e u) :
    Cal.Fired s (Cal.fire s e.val) e u ∧ (Cal.fire s e.val).flag (Cal.eb e.val) CalE.E_STAT_NOOP = true ∧
      ((Cal.fire s e.val).get Cal.b H.IRQ_RAW).testBit 4 = true ∧ (Cal.fire s e.val).ts = x.ts := by
  have hfire := Cal.fire_due h hu hd hact
  dsimp only at hfire
  generalize hy : Cal.shown x e.val (Cal.dropOf d e.val) = y at hfire
  have hyx : Cal.Only x y e.val := hy ▸ Cal.shown_only x e.isLt _
  have hyt : Cal.AtTick s y e u := hy ▸ hx.shown _
  have hshown := hyt.noopShown true
  obtain ⟨hfin, -, -⟩ := Cal.finish_facts e.isLt hshown.armed u.toNat o.k
  obtain ⟨hnoop, hirq⟩ := Cal.noopShown_shows y e.val
  rw [hfire]
  refine ⟨Cal.finish_fired hshown o.k, ?_, hfin.irq 4 (by decide) hirq, ?_⟩
  · rw [State.flag, hfin.noop, hnoop]
    rfl
  · rw [hfin.ts, (Cal.noopShown_only y e.val true).1]
    exact hyx.ts

/-! ### The tick of the instant -/

theorem State.armedAt_runTo (s : State) (t key : Nat) : (s.runTo t).armedAt key = s.armedAt key :=
  State.armedAt_congr (by rw [State.runTo_only]) key

theorem Cal.atTick_runTo {s : State} {e : Fin 256} {o : Occ} (h : Cal.Due s e o) (u : Int) : Cal.AtTick s (s.runTo (tickUp u)) e u :=
  ⟨rfl, State.runTo_work s _, by rw [State.ent_runTo], (State.armedAt_runTo _ _ _).trans h.2.2.2.2⟩

/-- An action of the time island is not sent. -/
theorem Cal.sent_local {s : State} {e : Nat} {o : Occ} (h : Cal.other (Cal.action s e) = false) : Cal.sent s e o = s := by
  rw [Cal.sent, h]
  rfl

end Sys2Proof.Machine
end

section
/-! ## Actions elsewhere, timers and pulses (O32; spec/08 R196, R201, R202) -/

namespace Sys2Proof.Machine

/-! ### Actions of another island, and timers -/

/-- `t` is `s` but for the record of entry `e` and the actions on their way. -/
def Cal.SentOnly (s t : State) (e : Nat) : Prop :=
  t = { s with ents := t.ents, acts := t.acts } ∧ (∀ k, k ≠ e → t.ent k = s.ent k) ∧ (t.ent e).used = (s.ent e).used

theorem State.ent_withActs (s : State) (l : List Action) (k : Nat) : ({ s with acts := l } : State).ent k = s.ent k := rfl

theorem Cal.sent_only {s : State} {e : Nat} (o : Occ) (h : s.isReset (Cal.island (Cal.action s e)) = false) :
    Cal.SentOnly s (Cal.sent s e o) e := by
  unfold Cal.sent
  split
  · rw [Cal.dispatch_sent o h]
    refine ⟨rfl, fun k hk => Cal.marked_ent_ne s hk o false, ?_⟩
    rw [State.ent_withActs, Cal.marked_ent_same]
  · exact ⟨rfl, fun _ _ => rfl, rfl⟩

/-- An action that is on its way, or was not dropped, is not dropped. -/
theorem Cal.dropOf_sent {s : State} {e : Nat} {o : Occ} (h : s.isReset (Cal.island (Cal.action s e)) = false)
    (hocc : (s.ent e).occ = some o) (hdrop : o.drop = false) : Cal.dropOf (Cal.sent s e o) e = false := by
  unfold Cal.sent
  split
  · rw [Cal.dispatch_sent o h]
    rw [Cal.dropOf, State.ent_withActs, Cal.marked_ent_same]
  · rw [Cal.dropOf, hocc]
    exact hdrop

/-- An action other than the time island's own is none inside it. -/
theorem Cal.timeAction_other {s : State} {e : Nat} (h : Cal.action s e ≠ 1 ∧ Cal.action s e ≠ 2 ∧ Cal.action s e ≠ 8 ∧ Cal.action s e ≠ 9 ∧
    Cal.action s e ≠ 10) (u : Nat) : Cal.timeAction s e u = (s, false) := by
  obtain ⟨h1, h2, h8, h9, h10⟩ := h
  unfold Cal.timeAction
  dsimp only
  rw [if_neg h1, if_neg h2, if_neg h8, if_neg h9, if_neg h10]

theorem Cal.action_congr {s t : State} (h : t.work = s.work) (e : Nat) : Cal.action t e = Cal.action s e := State.wget_congr h _ _

theorem occurrenceFire_fires {s : State} {e : Fin 256} {o : Occ} (h : Cal.Due s e o) {u : Int} (hu : Cal.occInst s e.val o = u)
    (hact : Cal.action s e.val ≠ 1 ∧ Cal.action s e.val ≠ 2 ∧ Cal.action s e.val ≠ 8 ∧ Cal.action s e.val ≠ 9 ∧ Cal.action s e.val ≠ 10)
    (hreset : s.isReset (Cal.island (Cal.action s e.val)) = false) : ∃ t, exec (.occurrenceFire e) s = .next t ∧ Cal.Fired s t e u ∧
      (∀ k : Nat, k ≠ e.val → t.ent k = s.ent k) ∧ t.mem = s.mem ∧ t.spans = s.spans ∧ t.spanQ = s.spanQ ∧
      (s.wflag (Cal.eb e.val) CalE.E_CTL_IRQ = true → o.drop = false → (t.get Cal.b H.IRQ_RAW).testBit 0 = true) := by
  have hact' : Cal.action (s.runTo (tickUp u)) e.val = Cal.action s e.val := Cal.action_runTo _ _ _
  have hreset' : (s.runTo (tickUp u)).isReset (Cal.island (Cal.action (s.runTo (tickUp u)) e.val)) = false := by
    rw [hact', State.isReset_runTo, hreset]
  have hocc : ((s.runTo (tickUp u)).ent e.val).occ = some o := by rw [State.ent_runTo, h.2.1]
  have hdrop := Cal.dropOf_sent (o := o) hreset' hocc
  obtain ⟨hrest, hothers, hused⟩ := Cal.sent_only o hreset'
  generalize hd : Cal.sent (s.runTo (tickUp u)) e.val o = d at hrest hothers hused hdrop
  have hwork : d.work = (s.runTo (tickUp u)).work := by rw [hrest]
  have htick : Cal.AtTick s d e u := by
    obtain ⟨-, hw, hus, har⟩ := Cal.atTick_runTo h u
    exact ⟨by rw [hrest], hwork.trans hw, hused.trans hus, (State.armedAt_congr (by rw [hrest]) _).trans har⟩
  have hnone := Cal.timeAction_other (s := d) (e := e.val) (by rw [Cal.action_congr hwork, hact']; exact hact) u.toNat
  obtain ⟨honly, hfired, hirq⟩ := Cal.fire_did h hu hd hnone htick
  refine ⟨Cal.fire s e.val, rfl, hfired, fun k hk => ?_, ?_, ?_, ?_, fun hI hD => hirq (hdrop hD) hI⟩
  · rw [honly.ent k hk, hothers k hk, State.ent_runTo]
  · rw [honly.rest]
    dsimp only
    rw [hrest]
    exact State.runTo_mem _ _
  · rw [honly.rest]
    dsimp only
    rw [hrest]
    exact State.spans_runTo _ _
  · rw [honly.rest]
    dsimp only
    rw [hrest, State.runTo_only]

theorem exec_calTimer {e : Fin 256} {s : State} (h : Cal.action s e.val = 0) : exec (.calTimer e) s = .next (Cal.fire s e.val) :=
  congrArg _ (if_pos h)

/-- What firing an entry's action of the time island starts from. -/
theorem Cal.sent_of_local {s : State} {e : Nat} {o : Occ} (h : Cal.other (Cal.action s e) = false) (t : Nat) :
    Cal.sent (s.runTo t) e o = s.runTo t := Cal.sent_local (by rw [Cal.action_runTo, h])

theorem calTimer_fires {s : State} {e : Fin 256} {o : Occ} (h : Cal.Due s e o) {u : Int} (hu : Cal.occInst s e.val o = u)
    (hact : Cal.action s e.val = 0) : ∃ t, exec (.calTimer e) s = .next t ∧ Cal.Fired s t e u ∧ ∀ k : Nat, k ≠ e.val → t.ent k = s.ent k := by
  have hnone := Cal.timeAction_other (s := s.runTo (tickUp u)) (e := e.val) (by rw [Cal.action_runTo, hact]; decide) u.toNat
  obtain ⟨honly, hfired, -⟩ := Cal.fire_did h hu (Cal.sent_of_local (by rw [hact]; decide) _) hnone (Cal.atTick_runTo h u)
  exact ⟨_, exec_calTimer hact, hfired, fun k hk => (honly.ent k hk).trans (State.ent_runTo _ _ _)⟩

end Sys2Proof.Machine
end

section
/-! ## Pulses (O32; spec/08 R181, R202) -/

namespace Sys2Proof.Machine

/-! ### Spans that join -/

/-- `t` differs from `s` at most in the spans driven and the count of joins. -/
structure Pad.Only (s t : State) : Prop where
  rest : t = { s with regs := t.regs, spans := t.spans }
  reg : ∀ a, a ≠ Time.b + 0x0C4 → t.reg a = s.reg a

namespace Pad.Only

variable {s t u : State}

theorem refl (s : State) : Pad.Only s s := ⟨rfl, fun _ _ => rfl⟩

theorem trans (h : Pad.Only s t) (h' : Pad.Only t u) : Pad.Only s u :=
  ⟨by rw [h'.rest, h.rest], fun a ha => (h'.reg a ha).trans (h.reg a ha)⟩

theorem padLog (h : Pad.Only s t) : t.padLog = s.padLog := by rw [h.rest]
theorem spanQ (h : Pad.Only s t) : t.spanQ = s.spanQ := by rw [h.rest]

theorem allowed (h : Pad.Only s t) {p : Nat} (hp : p < 8) : Pad.allowed t p = Pad.allowed s p := by
  have hdrive : t.get (Time.b + 8 * p) TimeP.PAD_CTL_DRIVE = s.get (Time.b + 8 * p) TimeP.PAD_CTL_DRIVE :=
    State.get_of_reg rfl (h.reg _ (by simp [TimeP.PAD_CTL_DRIVE]; omega))
  have hen : t.get (pg Time.p) H.EN = s.get (pg Time.p) H.EN := State.get_of_reg rfl (h.reg _ (by decide))
  unfold Pad.allowed State.en State.flag
  rw [hdrive, hen, h.rest]

end Pad.Only

/-- A span and those it joins, made one. -/
def Pad.joined (x : Span) (l : List Span) : Span := l.foldl (fun (a : Span) y => ⟨a.pad, min a.from_ y.from_, max a.to_ y.to_⟩) x

/-- `y` covers the stretch of `x` on its pad. -/
def Span.Covers (y x : Span) : Prop := y.pad = x.pad ∧ y.from_ ≤ x.from_ ∧ x.to_ ≤ y.to_

theorem Span.Covers.refl (x : Span) : Span.Covers x x := ⟨rfl, le_refl _, le_refl _⟩

theorem Span.Covers.trans {x y z : Span} (h : Span.Covers z y) (h' : Span.Covers y x) : Span.Covers z x :=
  ⟨h.1.trans h'.1, h.2.1.trans h'.2.1, h'.2.2.trans h.2.2⟩

theorem Pad.joined_covers (x : Span) (l : List Span) : Span.Covers (Pad.joined x l) x := by
  induction l generalizing x with
  | nil => exact Span.Covers.refl x
  | cons y l ih => exact (ih _).trans ⟨rfl, Nat.min_le_left _ _, Nat.le_max_left _ _⟩

/-- The join covers each span joined, as they lie on one pad. -/
theorem Pad.joined_covers_mem {x y : Span} {l : List Span} (hy : y ∈ l) (hpad : y.pad = x.pad) : Span.Covers (Pad.joined x l) y := by
  induction l generalizing x with
  | nil => simp at hy
  | cons z l ih =>
    rcases List.mem_cons.1 hy with rfl | hy
    · exact (Pad.joined_covers _ l).trans ⟨hpad.symm, Nat.min_le_right _ _, Nat.le_max_right _ _⟩
    · exact ih hy hpad

theorem Span.pad_of_joins {x y : Span} (h : x.joins y = true) : y.pad = x.pad := by
  simp [Span.joins] at h
  exact h.1.1.symm

/-- The joined span in place of those it joins. -/
def Pad.placed (s : State) (x : Span) : State :=
  { s with spans := Pad.joined x (s.spans.filter (fun y => x.joins y)) :: s.spans.filter (fun y => !x.joins y) }

theorem Pad.add_eq (s : State) (x : Span) : Pad.add s x =
    (Pad.placed s x).each (s.spans.filter (fun y => x.joins y)) (fun s _ => s.count Time.b TimeP.OVERLAP_COUNT) := rfl

theorem Pad.count_only (s : State) : Pad.Only s (s.count Time.b TimeP.OVERLAP_COUNT) ∧
    (s.count Time.b TimeP.OVERLAP_COUNT).spans = s.spans := by
  refine ⟨⟨?_, fun a ha => (State.RegsOnly.put s Time.b TimeP.OVERLAP_COUNT _ rfl).2 a (by simpa [TimeP.OVERLAP_COUNT] using ha)⟩,
    State.put_spans _ _ _ _⟩
  conv_lhs => rw [State.count, State.put_only]
  rw [State.count, State.put_spans]

theorem Pad.placed_only (s : State) (x : Span) : Pad.Only s (Pad.placed s x) := ⟨rfl, fun _ _ => rfl⟩

theorem Pad.add_only (s : State) (x : Span) : Pad.Only s (Pad.add s x) ∧ (Pad.add s x).spans = (Pad.placed s x).spans := by
  rw [Pad.add_eq]
  refine State.each_inv (fun u => Pad.Only s u ∧ u.spans = (Pad.placed s x).spans) _ _ (fun u _ hu => ?_) _ ⟨Pad.placed_only s x, rfl⟩
  obtain ⟨honly, hspans⟩ := Pad.count_only u
  exact ⟨hu.1.trans honly, hspans.trans hu.2⟩

/-- Some span driven covers `x`. -/
def Pad.Covered (s : State) (x : Span) : Prop := ∃ y ∈ s.spans, Span.Covers y x

theorem Pad.covered_add (s : State) (x : Span) : Pad.Covered (Pad.add s x) x := by
  rw [Pad.Covered, (Pad.add_only s x).2]
  exact ⟨_, List.mem_cons_self, Pad.joined_covers _ _⟩

/-- A span covered stays so when another is added. -/
theorem Pad.Covered.add {s : State} {x : Span} (h : Pad.Covered s x) (z : Span) : Pad.Covered (Pad.add s z) x := by
  obtain ⟨y, hy, hcov⟩ := h
  rw [Pad.Covered, (Pad.add_only s z).2]
  by_cases hj : z.joins y = true
  · exact ⟨_, List.mem_cons_self, (Pad.joined_covers_mem (List.mem_filter.2 ⟨hy, hj⟩) (Span.pad_of_joins hj)).trans hcov⟩
  · exact ⟨y, List.mem_cons_of_mem _ (List.mem_filter.2 ⟨hy, by simpa using hj⟩), hcov⟩

/-! ### Spans that start -/

/-- What becomes of a span whose start has come. -/
def Pad.start (s : State) (x : Span) : State := if Pad.allowedAt s x.pad x.from_ then Pad.add s (Pad.driven s x) else s

/-- The spans that wait for their start, and those whose start has come. -/
def Pad.waiting (s : State) : List Span := s.spanQ.filter (fun x => !decide (x.from_ ≤ 64 * s.now))
def Pad.due (s : State) : List Span := s.spanQ.filter (fun x => decide (x.from_ ≤ 64 * s.now))

/-- The state from which the due spans start. -/
def Pad.unqueued (s : State) : State := { s with spanQ := Pad.waiting s }

theorem Pad.settle_eq (s : State) : Pad.settle s = (Pad.unqueued s).each (Pad.due s) Pad.start := rfl

theorem Pad.start_only (s : State) (x : Span) : Pad.Only s (Pad.start s x) := by
  unfold Pad.start
  split
  · exact (Pad.add_only _ _).1
  · exact Pad.Only.refl s

theorem Pad.each_start_only (s : State) (l : List Span) : Pad.Only s (s.each l Pad.start) :=
  State.each_inv (Pad.Only s) l Pad.start (fun u x hu => hu.trans (Pad.start_only u x)) s (Pad.Only.refl s)

/-- With no change of DRIVE, EN or supply on record a span is driven whole. -/
theorem Pad.start_unlogged {s : State} {x : Span} (hlog : s.padLog = []) (h : Pad.allowed s x.pad = true) : Pad.start s x = Pad.add s x := by
  have hallowed : Pad.allowedAt s x.pad x.from_ = true := by
    unfold Pad.allowedAt
    rw [hlog]
    exact h
  have hdriven : Pad.driven s x = x := by
    unfold Pad.driven
    rw [hlog]
    rfl
  rw [Pad.start, if_pos hallowed, hdriven]

theorem Pad.Covered.start {s : State} {x : Span} (h : Pad.Covered s x) (z : Span) : Pad.Covered (Pad.start s z) x := by
  unfold Pad.start
  split
  · exact h.add _
  · exact h

theorem Pad.covered_each_start {x : Span} (hp : x.pad < 8) {l : List Span} (hx : x ∈ l) : ∀ {s : State}, s.padLog = [] →
    Pad.allowed s x.pad = true → Pad.Covered (s.each l Pad.start) x := by
  induction l with
  | nil => simp at hx
  | cons z l ih =>
    intro s hlog hal
    rcases List.mem_cons.1 hx with rfl | hx
    · refine State.each_inv (fun u => Pad.Covered u x) l Pad.start (fun u y hu => hu.start y) _ ?_
      rw [Pad.start_unlogged hlog hal]
      exact Pad.covered_add s x
    · have honly := Pad.start_only s z
      exact ih hx (honly.padLog.trans hlog) ((honly.allowed hp).trans hal)

/-! ### A pulse action -/

/-- The span of a pulse action on pad `p` at the instant `u`. -/
def Pad.spanOf (s : State) (p u : Nat) : Span :=
  let st0 := ((u : Int) + s.getI (Time.b + 8 * p) TimeP.PAD_CTL_DELAY).toNat
  let st := if s.coast then (st0 + 63) / 64 * 64 else st0
  ⟨p, st, st + 64 * s.get (Time.b + 8 * p) TimeP.PAD_WIDTH_WIDTH⟩

/-- The span waits with the others. -/
def Pad.enqueued (s : State) (x : Span) : State := { s with spanQ := x :: s.spanQ }

theorem Pad.pulse_eq (s : State) (p u : Nat) : Pad.pulse s p u = Pad.settle (Pad.enqueued s (Pad.spanOf s p u)) := rfl

theorem Pad.settle_only (s : State) : Pad.Only (Pad.unqueued s) (Pad.settle s) := by
  rw [Pad.settle_eq]
  exact Pad.each_start_only _ _

theorem Pad.settle_enqueued (s : State) (x : Span) : (64 * s.now < x.from_ → x ∈ (Pad.settle (Pad.enqueued s x)).spanQ) ∧
    (x.from_ ≤ 64 * s.now → s.padLog = [] → x.pad < 8 → Pad.allowed s x.pad = true → Pad.Covered (Pad.settle (Pad.enqueued s x)) x) := by
  have hnow : (Pad.enqueued s x).now = s.now := rfl
  refine ⟨fun hlt => ?_, fun hle hlog hp hal => ?_⟩
  · rw [(Pad.settle_only _).spanQ]
    refine List.mem_filter.2 ⟨List.mem_cons_self, ?_⟩
    rw [hnow]
    simpa using hlt
  · have hmem : x ∈ Pad.due (Pad.enqueued s x) := List.mem_filter.2 ⟨List.mem_cons_self, by rw [hnow]; simpa using hle⟩
    exact Pad.covered_each_start hp hmem (s := Pad.unqueued (Pad.enqueued s x)) hlog ((Pad.allowed_congr rfl rfl _).trans hal)

theorem Pad.spanOf_runTo (s : State) (t p u : Nat) : Pad.spanOf (s.runTo t) p u = Pad.spanOf s p u := by
  unfold Pad.spanOf
  rw [State.getI_runTo, State.coast_runTo, State.get_runTo]

theorem Pad.allowed_runTo (s : State) (t p : Nat) : Pad.allowed (s.runTo t) p = Pad.allowed s p :=
  Pad.allowed_congr (State.runTo_regs s t) (by rw [State.runTo_only]) p

theorem Pad.atTick_pulse {s x : State} {e : Fin 256} {u : Int} (h : Cal.AtTick s x e u) (p v : Nat) : Cal.AtTick s (Pad.pulse x p v) e u := by
  have honly := Pad.settle_only (Pad.enqueued x (Pad.spanOf x p v))
  rw [← Pad.pulse_eq] at honly
  have hrest : (Pad.pulse x p v).base = x.base ∧ (Pad.pulse x p v).work = x.work ∧ (Pad.pulse x p v).ents = x.ents ∧
      (Pad.pulse x p v).armed = x.armed := by
    rw [honly.rest]
    exact ⟨rfl, rfl, rfl, rfl⟩
  obtain ⟨hbase, hwork, hents, harmed⟩ := hrest
  exact ⟨hbase.trans h.base, hwork.trans h.work, (congrArg Entry.used (State.ent_congr hents _)).trans h.used,
    (State.armedAt_congr harmed _).trans h.armed⟩

/-- A pulse action puts its span on the pad. -/
theorem Cal.fire_pulses {s : State} {e : Fin 256} {o : Occ} (h : Cal.Due s e o) {u : Int} (hu : Cal.occInst s e.val o = u)
    (hlocal : Cal.other (Cal.action s e.val) = false) {p : Nat} (hp : p < 8)
    (hact : Cal.timeAction (s.runTo (tickUp u)) e.val u.toNat = (Pad.pulse (s.runTo (tickUp u)) p u.toNat, false)) {x : Span}
    (hx : Pad.spanOf s p u.toNat = x) : Cal.Fired s (Cal.fire s e.val) e u ∧
      (64 * (Cal.fire s e.val).now < x.from_ → x ∈ (Cal.fire s e.val).spanQ) ∧
      (x.from_ ≤ 64 * (Cal.fire s e.val).now → s.padLog = [] → Pad.allowed s p = true → Pad.Covered (Cal.fire s e.val) x) := by
  obtain ⟨honly, hfired, -⟩ := Cal.fire_did h hu (Cal.sent_of_local hlocal _) hact (Pad.atTick_pulse (Cal.atTick_runTo h u) p u.toNat)
  have hxp : x.pad = p := by rw [← hx]; rfl
  have hpulse : Pad.pulse (s.runTo (tickUp u)) p u.toNat = Pad.settle (Pad.enqueued (s.runTo (tickUp u)) x) := by
    rw [Pad.pulse_eq, Pad.spanOf_runTo, hx]
  obtain ⟨hwait, hstart⟩ := Pad.settle_enqueued (s.runTo (tickUp u)) x
  have hbase : (Pad.settle (Pad.enqueued (s.runTo (tickUp u)) x)).base = (s.runTo (tickUp u)).base := by
    rw [(Pad.settle_only _).rest]
    rfl
  rw [hpulse] at honly
  have hnow : (Cal.fire s e.val).now = (s.runTo (tickUp u)).now := by rw [State.now, honly.base, hbase, State.now]
  have hspans : (Cal.fire s e.val).spans = (Pad.settle (Pad.enqueued (s.runTo (tickUp u)) x)).spans := by rw [honly.rest]
  have hspanQ : (Cal.fire s e.val).spanQ = (Pad.settle (Pad.enqueued (s.runTo (tickUp u)) x)).spanQ := by rw [honly.rest]
  refine ⟨hfired, fun hlt => ?_, fun hle hlog hal => ?_⟩
  · rw [hspanQ]
    exact hwait (hnow ▸ hlt)
  · rw [Pad.Covered, hspans]
    refine hstart (hnow ▸ hle) (Eq.trans (by rw [State.runTo_only]) hlog) (hxp ▸ hp) ?_
    rw [hxp, Pad.allowed_runTo, hal]

theorem exec_tpPulse {e : Fin 256} {s : State} (h : Cal.action s e.val = 1) : exec (.tpPulse e) s = .next (Cal.fire s e.val) :=
  congrArg _ (if_pos h)

theorem exec_cycPulse {e : Fin 256} {s : State} (h : Cal.action s e.val = 2) : exec (.cycPulse e) s = .next (Cal.fire s e.val) :=
  congrArg _ (if_pos h)

theorem Cal.timeAction_tp {s : State} {e : Nat} (h : Cal.action s e = 1) (u : Nat) :
    Cal.timeAction s e u = (Pad.pulse s (s.wget (Cal.eb e) CalE.E_ARG_ARG % 4) u, false) := by
  unfold Cal.timeAction
  dsimp only
  rw [if_pos h]

theorem Cal.timeAction_cyc {s : State} {e : Nat} (h : Cal.action s e = 2) (u : Nat) :
    Cal.timeAction s e u = (Pad.pulse s (4 + s.wget (Cal.eb e) CalE.E_ARG_ARG % 4) u, false) := by
  unfold Cal.timeAction
  dsimp only
  rw [if_neg (by rw [h]; decide), if_pos h]

theorem tpPulse_pulses {s : State} {e : Fin 256} {o : Occ} (h : Cal.Due s e o) {u : Int} (hu : Cal.occInst s e.val o = u)
    (hact : Cal.action s e.val = 1) {p : Nat} (hp : s.wget (Cal.eb e.val) CalE.E_ARG_ARG % 4 = p) {x : Span}
    (hx : Pad.spanOf s p u.toNat = x) : ∃ t, exec (.tpPulse e) s = .next t ∧ Cal.Fired s t e u ∧
      (64 * t.now < x.from_ → x ∈ t.spanQ) ∧
      (x.from_ ≤ 64 * t.now → s.padLog = [] → Pad.allowed s p = true → Pad.Covered t x) := by
  have htp := Cal.timeAction_tp (s := s.runTo (tickUp u)) (e := e.val) (by rw [Cal.action_runTo, hact]) u.toNat
  rw [State.wget_runTo, hp] at htp
  exact ⟨_, exec_tpPulse hact, Cal.fire_pulses h hu (by rw [hact]; decide) (by omega) htp hx⟩

theorem cycPulse_pulses {s : State} {e : Fin 256} {o : Occ} (h : Cal.Due s e o) {u : Int} (hu : Cal.occInst s e.val o = u)
    (hact : Cal.action s e.val = 2) {p : Nat} (hp : 4 + s.wget (Cal.eb e.val) CalE.E_ARG_ARG % 4 = p) {x : Span}
    (hx : Pad.spanOf s p u.toNat = x) : ∃ t, exec (.cycPulse e) s = .next t ∧ Cal.Fired s t e u ∧
      (64 * t.now < x.from_ → x ∈ t.spanQ) ∧
      (x.from_ ≤ 64 * t.now → s.padLog = [] → Pad.allowed s p = true → Pad.Covered t x) := by
  have hcyc := Cal.timeAction_cyc (s := s.runTo (tickUp u)) (e := e.val) (by rw [Cal.action_runTo, hact]) u.toNat
  rw [State.wget_runTo, hp] at hcyc
  exact ⟨_, exec_cycPulse hact, Cal.fire_pulses h hu (by rw [hact]; decide) (by omega) hcyc hx⟩

end Sys2Proof.Machine
end

section
/-! ## Step permits (O32; spec/08 R189 to R191) -/

namespace Sys2Proof.Machine

/-! ### Reconversion after a step -/

theorem Cal.rota_only {s : State} {e : Nat} (he : e < 256) (kMin kFrom : Nat) (spaced : Bool) :
    Cal.Only s (Cal.rota s e kMin kFrom spaced) e := by
  obtain ⟨u, k, honly, -, h | h⟩ := Cal.rota_form (s := s) he kMin kFrom spaced
  · exact h ▸ Cal.setState_only honly he 2
  · exact h ▸ Cal.arm_only honly he k

theorem Cal.dropped_only {s t : State} {e : Nat} (h : Cal.Only s t e) (he : e < 256) : Cal.Only s (Cal.dropped t e) e :=
  (h.putStat he _ (by decide)).raise 2

theorem Cal.lateOne_only (s : State) {e : Nat} (he : e < 256) (own : Nat) : Cal.Only s (Cal.lateOne s e own) e := by
  have hlate : Cal.Only s (Cal.late s e 1) e := Cal.late_only (Cal.Only.refl s e) he 1
  unfold Cal.lateOne
  dsimp only
  split
  · exact Cal.setState_only (Cal.dropped_only hlate he) he 2
  · exact Cal.setState_only (hlate.setEnt _) he 1

theorem Cal.oneShot_only (s : State) {e : Nat} (he : e < 256) : Cal.Only s (Cal.oneShot s e) e := by
  unfold Cal.oneShot
  dsimp only
  split
  · exact Cal.arm_only (Cal.Only.refl s e) he 0
  · exact Cal.lateOne_only s he _

/-- `t` differs from `s` at most in the entries other than `e` and the calendar's pages. -/
structure Cal.Others (s t : State) (e : Nat) : Prop where
  rest : t = { s with regs := t.regs, ents := t.ents }
  reg : ∀ a, a < 0x51000 ∨ 0x54000 ≤ a → t.reg a = s.reg a
  ent : t.ent e = s.ent e

theorem Cal.Others.refl (s : State) (e : Nat) : Cal.Others s s e := ⟨rfl, fun _ _ => rfl, rfl⟩

theorem Cal.Others.then_only {s t u : State} {e k : Nat} (h : Cal.Others s t e) (hk : e ≠ k) (hu : Cal.Only t u k) : Cal.Others s u e :=
  ⟨by rw [hu.rest, h.rest], fun a ha => (hu.reg a ha).trans (h.reg a ha), (hu.ent e hk).trans h.ent⟩

theorem Cal.Others.get {s t : State} {e : Nat} (h : Cal.Others s t e) {b : Nat} {f : Fld} (hb : b + f.off + 4 * f.words ≤ 0x51000) :
    t.get b f = s.get b f := by
  rw [State.get_eq, State.get_eq, State.wordsAt_congr fun i hi => h.reg _ (by omega)]

/-- The entry that steps a timescale is not reconverted by its own step. -/
theorem Cal.onStep_others (s : State) (m e : Nat) : Cal.Others s (Cal.onStep s m e) e := by
  refine State.each_inv_mem (fun u => Cal.Others s u e) (fun u k hk hu => ?_) (Cal.Others.refl s e)
  have hlt : k < 256 := List.mem_range.1 hk
  split
  · exact hu
  · split
    · exact hu
    · next hgo =>
      have hne : e ≠ k := fun he => hgo (Or.inl he.symm)
      split
      · exact hu.then_only hne (Cal.rota_only hlt _ _ _)
      · exact hu.then_only hne (Cal.oneShot_only _ hlt)

/-! ### The step -/

/-- The value of timescale `m` after a step, its former stretch kept. -/
def Time.valued (s : State) (m v : Nat) : State := { Time.mark s m with ts := s.ts.setIfInBounds m (TsVal.ofTotal v) }

/-- The tick of the step noted as well. -/
def Time.restarted (s : State) (m v : Nat) : State := (Time.valued s m v).modTs m (fun t => { t with stepAt := some s.now })

/-- Timescale `m` after a permitted step to `v`. -/
def Time.stepped (s : State) (m v : Nat) : State :=
  (((Time.restarted s m v).put (Ts.b m) TsR.TS_STAT_STEP_ARMED 0).count (Ts.b m) TsR.STEPS_COUNT).raise Time.p 2

theorem Time.step_applies {s : State} {m : Nat} (harmed : s.flag (Ts.b m) TsR.TS_STAT_STEP_ARMED = true) (hmode : (s.tst m).stMode = 1) {v : Int}
    (hv : ((s.tsv m).total : Int) + toSigned 64 (s.tst m).stVal * 2 ^ 32 = v) (hlo : 0 ≤ v) (hhi : v < 2 ^ 96 * 1000000000) :
    Time.step s m = (Time.stepped s m v.toNat, true) := by
  have hv' : ((s.tsv m).total : Int) + toSigned 64 (s.tst m).stVal * ((2 ^ 32 : Nat) : Int) = v := by
    rw [← hv]
    norm_num
  have hrange : ¬(v < 0 ∨ ((2 ^ 48 * 1000000000 * 2 ^ 48 : Nat) : Int) ≤ v) := by
    norm_num at hhi ⊢
    omega
  unfold Time.step
  dsimp only
  rw [harmed, if_neg (by decide), if_pos hmode, hv', if_neg hrange]
  rfl

theorem Time.step_unarmed {s : State} {m : Nat} (h : s.flag (Ts.b m) TsR.TS_STAT_STEP_ARMED = false) :
    Time.step s m = (s.logErr Time.p 0x41 Time.b 8, false) := by
  unfold Time.step
  dsimp only
  rw [h]
  exact if_pos rfl

/-- Of what is no register, value or record of a timescale, `t` is as `s`. -/
def Time.RestOf (s t : State) : Prop := t = { s with regs := t.regs, ts := t.ts, tsSt := t.tsSt }

namespace Time.RestOf

variable {s t u : State}

theorem trans (h : Time.RestOf s t) (h' : Time.RestOf t u) : Time.RestOf s u := by
  unfold Time.RestOf at h h' ⊢
  rw [h', h]

theorem modTs (s : State) (m : Nat) (f : TsSt → TsSt) : Time.RestOf s (s.modTs m f) := rfl

theorem setTs (s : State) (l : Vector TsVal 4) : Time.RestOf s { s with ts := l } := rfl

theorem put (s : State) (b : Nat) (f : Fld) (v : Nat) : Time.RestOf s (s.put b f v) := by
  unfold Time.RestOf
  conv_lhs => rw [State.put_only]
  rw [State.put_ts, State.put_tsSt]

end Time.RestOf

theorem Time.restarted_rest (s : State) (m v : Nat) : Time.RestOf s (Time.restarted s m v) :=
  ((Time.RestOf.modTs s m _).trans (Time.RestOf.setTs _ _)).trans (Time.RestOf.modTs _ m _)

theorem Time.stepped_rest (s : State) (m v : Nat) : Time.RestOf s (Time.stepped s m v) :=
  (((Time.restarted_rest s m v).trans (Time.RestOf.put _ _ _ _)).trans (Time.RestOf.put _ _ _ _)).trans (Time.RestOf.put _ _ _ _)

theorem Time.restarted_ts (s : State) (m v : Nat) : (Time.restarted s m v).ts = s.ts.setIfInBounds m (TsVal.ofTotal v) := rfl

theorem Time.stepped_ts (s : State) (m v : Nat) : (Time.stepped s m v).ts = s.ts.setIfInBounds m (TsVal.ofTotal v) := by
  rw [Time.stepped, State.raise_ts, State.count, State.put_ts, State.put_ts, Time.restarted_ts]

theorem Time.stepped_tsSt (s : State) (m v : Nat) : (Time.stepped s m v).tsSt = (Time.restarted s m v).tsSt := by
  rw [Time.stepped, State.raise_tsSt, State.count, State.put_tsSt, State.put_tsSt]

theorem Time.get_restarted (s : State) (m v b : Nat) (f : Fld) : (Time.restarted s m v).get b f = s.get b f :=
  State.get_congr (s := Time.restarted s m v) (t := s) rfl b f

/-- What a permitted step shows. -/
theorem Time.stepped_shows (s : State) {m : Nat} (hm : m < 4) (v : Nat) : (Time.stepped s m v).tsv m = TsVal.ofTotal v ∧
    (Time.stepped s m v).get (Ts.b m) TsR.TS_STAT_STEP_ARMED = 0 ∧ ((Time.stepped s m v).tst m).stepAt = some s.now ∧
    (Time.stepped s m v).get (Ts.b m) TsR.STEPS_COUNT = min (s.get (Ts.b m) TsR.STEPS_COUNT + 1) (2 ^ 32 - 1) ∧
    ((Time.stepped s m v).get Time.b H.IRQ_RAW).testBit 2 = true := by
  refine ⟨?_, ?_, ?_, ?_, State.testBit_raise_same (p := Time.p) _ (by omega)⟩
  · rw [State.tsv, Time.stepped_ts]
    simp [hm]
  · rw [Time.stepped, Ts.get_raise, State.count, State.get_put_apart _ _ _ (by decide), State.get_put_same]
    rfl
  · rw [State.tst_congr (Time.stepped_tsSt s m v), Time.restarted, State.tst_modTs_same _ hm]
  · rw [Time.stepped, Ts.get_raise, State.get_count_word _ _ rfl, State.get_put_apart _ _ _ (by decide), Time.get_restarted]

end Sys2Proof.Machine
end

section
/-! ## Step permits, leap events and event windows fired (O32; spec/08 R189 to R192, R205) -/

namespace Sys2Proof.Machine

/-! ### Step permits -/

theorem Cal.AtTick.others {s x t : State} {e : Fin 256} {u : Int} (h : Cal.AtTick s x e u) (ht : Cal.Others x t e.val) : Cal.AtTick s t e u := by
  obtain ⟨hrest, -, hent⟩ := ht
  refine ⟨?_, ?_, ?_, (State.armedAt_congr (by rw [hrest]) _).trans h.armed⟩
  · rw [hrest]
    exact h.base
  · rw [hrest]
    exact h.work
  · rw [hent]
    exact h.used

theorem Cal.AtTick.stepped {s x : State} {e : Fin 256} {u : Int} (h : Cal.AtTick s x e u) (m v : Nat) :
    Cal.AtTick s (Time.stepped x m v) e u := by
  have hrest := Time.stepped_rest x m v
  unfold Time.RestOf at hrest
  refine ⟨?_, ?_, ?_, (State.armedAt_congr (by rw [hrest]) _).trans h.armed⟩
  · rw [hrest]
    exact h.base
  · rw [hrest]
    exact h.work
  · rw [State.ent_congr (s := x) (by rw [hrest])]
    exact h.used

/-- A permit that steps its timescale. -/
theorem Cal.timeAction_step {s t : State} {e m : Nat} (h : Cal.action s e = 8) (hm : s.wget (Cal.eb e) CalE.E_ARG_ARG % 4 = m)
    (hstep : Time.step s m = (t, true)) (u : Nat) : Cal.timeAction s e u = (Cal.onStep t m e, false) := by
  unfold Cal.timeAction
  dsimp only
  rw [h, if_neg (by decide), if_neg (by decide), if_pos rfl, hm, hstep]
  rfl

/-- A permit that changes nothing. -/
theorem Cal.timeAction_noStep {s t : State} {e m : Nat} (h : Cal.action s e = 8) (hm : s.wget (Cal.eb e) CalE.E_ARG_ARG % 4 = m)
    (hstep : Time.step s m = (t, false)) (u : Nat) : Cal.timeAction s e u = (t, true) := by
  unfold Cal.timeAction
  dsimp only
  rw [h, if_neg (by decide), if_neg (by decide), if_pos rfl, hm, hstep]
  rfl

theorem exec_stepPermit {e : Fin 256} {s : State} (h : Cal.action s e.val = 8) : exec (.stepPermit e) s = .next (Cal.fire s e.val) :=
  congrArg _ (if_pos h)

/-- What a step shows, the reconversion and the rest of the firing leave. -/
theorem Cal.steps_shown {x t : State} {e : Nat} (h : Cal.Only (Cal.onStep x m e) t e) : t.ts = x.ts ∧ t.tsSt = x.tsSt ∧ t.base = x.base ∧
    ∀ b f, b + f.off + 4 * f.words ≤ 0x51000 → t.get b f = x.get b f := by
  have hothers := Cal.onStep_others x m e
  refine ⟨?_, ?_, ?_, fun b f hb => (h.get (Or.inl hb)).trans (hothers.get hb)⟩
  · rw [h.ts, hothers.rest]
  · rw [h.tsSt, hothers.rest]
  · rw [h.base, hothers.rest]

theorem stepPermit_steps {s : State} {e : Fin 256} {o : Occ} (h : Cal.Due s e o) {u : Int} (hu : Cal.occInst s e.val o = u)
    (hact : Cal.action s e.val = 8) {m : Nat} (hm : s.wget (Cal.eb e.val) CalE.E_ARG_ARG % 4 = m) {v : Int}
    (hv : (((s.runTo (tickUp u)).tsv m).total : Int) + toSigned 64 (s.tst m).stVal * 2 ^ 32 = v)
    (harmed : s.flag (Ts.b m) TsR.TS_STAT_STEP_ARMED = true) (hmode : (s.tst m).stMode = 1) (hlo : 0 ≤ v) (hhi : v < 2 ^ 96 * 1000000000) :
    ∃ t, exec (.stepPermit e) s = .next t ∧ Cal.Fired s t e u ∧ t.tsv m = TsVal.ofTotal v.toNat ∧
      t.flag (Ts.b m) TsR.TS_STAT_STEP_ARMED = false ∧ (t.tst m).stepAt = some t.now ∧
      t.get (Ts.b m) TsR.STEPS_COUNT = min (s.get (Ts.b m) TsR.STEPS_COUNT + 1) (2 ^ 32 - 1) ∧
      (t.get Time.b H.IRQ_RAW).testBit 2 = true := by
  have hm4 : m < 4 := by omega
  have hact' : Cal.action (s.runTo (tickUp u)) e.val = 8 := (Cal.action_runTo _ _ _).trans hact
  have hm' : (s.runTo (tickUp u)).wget (Cal.eb e.val) CalE.E_ARG_ARG % 4 = m := by rw [State.wget_runTo, hm]
  have hstep : Time.step (s.runTo (tickUp u)) m = (Time.stepped (s.runTo (tickUp u)) m v.toNat, true) :=
    Time.step_applies (by rw [State.flag_runTo, harmed]) (by rw [State.tst_runTo, hmode]) (by rw [State.tst_runTo, hv]) hlo hhi
  have htick := (Cal.atTick_runTo h u).stepped m v.toNat
  obtain ⟨htsv, hflag, hat, hcount, hirq⟩ := Time.stepped_shows (s.runTo (tickUp u)) hm4 v.toNat
  rw [State.get_runTo] at hcount
  generalize Time.stepped (s.runTo (tickUp u)) m v.toNat = x at hstep htick htsv hflag hat hcount hirq
  obtain ⟨honly, hfired, -⟩ := Cal.fire_did h hu (Cal.sent_of_local (by rw [hact]; decide) _) (Cal.timeAction_step hact' hm' hstep u.toNat)
    (htick.others (Cal.onStep_others x m e.val))
  obtain ⟨hts, htsSt, hbase, hget⟩ := Cal.steps_shown honly
  refine ⟨_, exec_stepPermit hact, hfired, ?_, ?_, ?_, ?_, ?_⟩
  · rw [State.tsv_congr hts, htsv]
  · rw [State.flag, hget _ _ (by simp [Ts.b, TsR.TS_STAT_STEP_ARMED, Fld.words]; omega), hflag]
    rfl
  · rw [State.tst_congr htsSt, hat, State.now, State.now, hfired.1]
  · rw [hget _ _ (by simp [Ts.b, TsR.STEPS_COUNT, Fld.words]; omega), hcount]
  · rw [hget _ _ (by decide)]
    exact hirq

theorem stepPermit_shows_noop {s : State} {e : Fin 256} {o : Occ} (h : Cal.Due s e o) {u : Int} (hu : Cal.occInst s e.val o = u)
    (hact : Cal.action s e.val = 8) {m : Nat} (hm : s.wget (Cal.eb e.val) CalE.E_ARG_ARG % 4 = m)
    (hunarmed : s.flag (Ts.b m) TsR.TS_STAT_STEP_ARMED = false) :
    ∃ t, exec (.stepPermit e) s = .next t ∧ Cal.Fired s t e u ∧ t.flag (Cal.eb e.val) CalE.E_STAT_NOOP = true ∧
      (t.get Cal.b H.IRQ_RAW).testBit 4 = true ∧ t.ts = (s.runTo (tickUp u)).ts := by
  have hact' : Cal.action (s.runTo (tickUp u)) e.val = 8 := (Cal.action_runTo _ _ _).trans hact
  have hm' : (s.runTo (tickUp u)).wget (Cal.eb e.val) CalE.E_ARG_ARG % 4 = m := by rw [State.wget_runTo, hm]
  have hstep := Time.step_unarmed (s := s.runTo (tickUp u)) (m := m) (by rw [State.flag_runTo, hunarmed])
  have htick := (Cal.atTick_runTo h u).regsOnly (State.RegsOnly.logErr (s.runTo (tickUp u)) Time.p 0x41 Time.b 8)
  obtain ⟨hfired, hflag, hirq, hts⟩ := Cal.fire_noop h hu (Cal.sent_of_local (by rw [hact]; decide) _)
    (Cal.timeAction_noStep hact' hm' hstep u.toNat) htick
  exact ⟨_, exec_stepPermit hact, hfired, hflag, hirq, hts.trans (State.logErr_ts _ _ _ _ _)⟩

/-! ### Leap events -/

/-- UTC_OFS after a positive leap second. -/
def Time.offsetUp (s : State) : State := s.putI Time.b TimeP.UTC_OFS_OFS (s.getI Time.b TimeP.UTC_OFS_OFS + 1)

/-- A positive leap second taken. -/
def Time.leaped (s : State) : State :=
  (((Time.offsetUp s).put Time.b TimeP.LEAP_CTL_LEAP61 0).put Time.b TimeP.LEAP_CTL_LEAP59 0).raise Time.p 3

theorem Time.leap_eq {s : State} (h : s.flag Time.b TimeP.LEAP_CTL_LEAP61 = true) : Time.leap s = (Time.leaped s, true) := by
  unfold Time.leap
  dsimp only
  rw [h]
  rfl

theorem Time.leaped_only (s : State) : s.RegsOnly (Time.leaped s) [Time.b + 0x05C, Time.b + 0x060, pg Time.p + 0x014] :=
  ((((State.RegsOnly.refl s _).put_then Time.b TimeP.UTC_OFS_OFS _ rfl (by decide)).put_then Time.b TimeP.LEAP_CTL_LEAP61 0 rfl
    (by decide)).put_then Time.b TimeP.LEAP_CTL_LEAP59 0 rfl (by decide)).put_then _ H.IRQ_RAW _ rfl (by decide)

theorem Time.get_raise (s : State) (k : Nat) {g : Fld} (h : H.IRQ_RAW.apart g = true) :
    (s.raise Time.p k).get Time.b g = s.get Time.b g := State.get_put_apart s Time.b _ h

theorem ofSigned_halfword_succ (n : Nat) : ofSigned 16 (toSigned 16 n + 1) = (n + 1) % 2 ^ 16 := by
  unfold ofSigned toSigned
  extract_lets m
  split <;> omega

theorem Time.leaped_shows (s : State) :
    (Time.leaped s).get Time.b TimeP.UTC_OFS_OFS = (s.get Time.b TimeP.UTC_OFS_OFS + 1) % 2 ^ 16 ∧
    (Time.leaped s).get Time.b TimeP.LEAP_CTL_LEAP61 = 0 ∧ ((Time.leaped s).get Time.b H.IRQ_RAW).testBit 3 = true := by
  refine ⟨?_, ?_, State.testBit_raise_same (p := Time.p) _ (by omega)⟩
  · have hput : (Time.offsetUp s).get Time.b TimeP.UTC_OFS_OFS = (s.get Time.b TimeP.UTC_OFS_OFS + 1) % 2 ^ 16 := by
      rw [Time.offsetUp, State.putI, State.get_put_same, State.getI]
      exact (congrArg (· % 2 ^ 16) (ofSigned_halfword_succ _)).trans (Nat.mod_mod _ _)
    rw [Time.leaped, Time.get_raise _ _ (by decide), State.get_put_apart _ _ _ (by decide),
      State.get_put_apart _ _ _ (by decide), hput]
  · rw [Time.leaped, Time.get_raise _ _ (by decide), State.get_put_apart _ _ _ (by decide), State.get_put_same]
    rfl

theorem exec_leapEvent {e : Fin 256} {s : State} (h : Cal.action s e.val = 9) : exec (.leapEvent e) s = .next (Cal.fire s e.val) :=
  congrArg _ (if_pos h)

theorem Cal.timeAction_leap {s t : State} {e : Nat} (h : Cal.action s e = 9) (hleap : Time.leap s = (t, true)) (u : Nat) :
    Cal.timeAction s e u = (t, false) := by
  unfold Cal.timeAction
  dsimp only
  rw [h, if_neg (by decide), if_neg (by decide), if_neg (by decide), if_pos rfl, hleap]
  rfl

theorem leapEvent_leaps {s : State} {e : Fin 256} {o : Occ} (h : Cal.Due s e o) {u : Int} (hu : Cal.occInst s e.val o = u)
    (hact : Cal.action s e.val = 9) (h61 : s.flag Time.b TimeP.LEAP_CTL_LEAP61 = true) :
    ∃ t, exec (.leapEvent e) s = .next t ∧ Cal.Fired s t e u ∧
      t.get Time.b TimeP.UTC_OFS_OFS = (s.get Time.b TimeP.UTC_OFS_OFS + 1) % 2 ^ 16 ∧
      t.flag Time.b TimeP.LEAP_CTL_LEAP61 = false ∧ (t.get Time.b H.IRQ_RAW).testBit 3 = true := by
  have hact' : Cal.action (s.runTo (tickUp u)) e.val = 9 := (Cal.action_runTo _ _ _).trans hact
  have hleap := Time.leap_eq (s := s.runTo (tickUp u)) (by rw [State.flag_runTo, h61])
  obtain ⟨hofs, hflag, hirq⟩ := Time.leaped_shows (s.runTo (tickUp u))
  obtain ⟨honly, hfired, -⟩ := Cal.fire_did h hu (Cal.sent_of_local (by rw [hact]; decide) _) (Cal.timeAction_leap hact' hleap u.toNat)
    ((Cal.atTick_runTo h u).regsOnly (Time.leaped_only _))
  refine ⟨_, exec_leapEvent hact, hfired, ?_, ?_, ?_⟩
  · rw [honly.get (Or.inl (by decide)), hofs, State.get_runTo]
  · rw [State.flag, honly.get (Or.inl (by decide)), hflag]
    rfl
  · rw [honly.get (Or.inl (by decide))]
    exact hirq

/-! ### Event windows -/

/-- Input `i` with a new window from `u`, `len` times 64 ticks long. -/
def Evt.opened (s : State) (i u len : Nat) : State :=
  s.modEvt i (fun x => { x with prev := x.cur, cur := some (u, u + 64 * 64 * len) })

theorem Evt.window_eq {s : State} {i u : Nat} (h : inWindow (s.evt i).cur u = false) (len : Nat) :
    Evt.window s i u len = (Evt.opened s i u len).put (Evt.ib i) EvtI.WIN_STAT_OPEN 1 := by
  unfold Evt.window State.modEvt
  dsimp only
  rw [h]
  rfl

theorem Cal.AtTick.window {s x : State} {e : Fin 256} {u : Int} (h : Cal.AtTick s x e u) {i w : Nat} (hw : inWindow (x.evt i).cur w = false)
    (len : Nat) : Cal.AtTick s (Evt.window x i w len) e u := by
  have hopened : Cal.AtTick s (Evt.opened x i w len) e u := ⟨h.base, h.work, h.used, h.armed⟩
  rw [Evt.window_eq hw]
  exact hopened.regsOnly (State.RegsOnly.put _ _ _ _ rfl)

theorem exec_evtWindow {e : Fin 256} {s : State} (h : Cal.action s e.val = 10) : exec (.evtWindow e) s = .next (Cal.fire s e.val) :=
  congrArg _ (if_pos h)

theorem Cal.timeAction_window {s : State} {e : Nat} (h : Cal.action s e = 10) (u : Nat) :
    Cal.timeAction s e u = (Evt.window s (s.wget (Cal.eb e) CalE.E_ARG_ARG % 8) u (s.wget (Cal.eb e) CalE.E_ARG_ARG / 256), false) := by
  unfold Cal.timeAction
  dsimp only
  rw [h, if_neg (by decide), if_neg (by decide), if_neg (by decide), if_neg (by decide), if_pos rfl]

theorem evtWindow_opens {s : State} {e : Fin 256} {o : Occ} (h : Cal.Due s e o) {u : Int} (hu : Cal.occInst s e.val o = u)
    (hact : Cal.action s e.val = 10) {arg : Nat} (harg : s.wget (Cal.eb e.val) CalE.E_ARG_ARG = arg)
    (hwin : inWindow (s.evt (arg % 8)).cur u.toNat = false) : ∃ t, exec (.evtWindow e) s = .next t ∧
      Cal.Fired s t e u ∧ (t.evt (arg % 8)).cur = some (u.toNat, u.toNat + 64 * 64 * (arg / 256)) ∧
      (t.evt (arg % 8)).prev = (s.evt (arg % 8)).cur ∧ t.flag (Evt.ib (arg % 8)) EvtI.WIN_STAT_OPEN = true := by
  have haction := Cal.timeAction_window (s := s.runTo (tickUp u)) (e := e.val) ((Cal.action_runTo _ _ _).trans hact) u.toNat
  rw [State.wget_runTo, harg] at haction
  have hi : arg % 8 < 8 := Nat.mod_lt _ (by decide)
  generalize arg % 8 = i at hwin haction hi ⊢
  have hwin' : inWindow ((s.runTo (tickUp u)).evt i).cur u.toNat = false := by rw [State.evt_runTo, hwin]
  obtain ⟨honly, hfired, -⟩ := Cal.fire_did h hu (Cal.sent_of_local (by rw [hact]; decide) _) haction ((Cal.atTick_runTo h u).window hwin' _)
  rw [Evt.window_eq hwin'] at honly
  have hevt : (Cal.fire s e.val).evt i = (Evt.opened (s.runTo (tickUp u)) i u.toNat (arg / 256)).evt i :=
    State.evt_congr (by rw [honly.rest, State.put_evtIn]) i
  rw [Evt.opened, State.evt_modEvt_same _ hi, State.evt_runTo] at hevt
  refine ⟨_, exec_evtWindow hact, hfired, ?_, ?_, ?_⟩
  · rw [hevt]
  · rw [hevt]
  · rw [State.flag, honly.get (Or.inr (by simp [Evt.ib, Evt.b, pg, EvtI.WIN_STAT_OPEN]; omega)), State.get_put_same]
    rfl

/-! ### The statement -/

/-- Settles O32: by the entry's ACTION, one lemma about the firing for each. -/
theorem calendarFires : Obligations.CalendarFires := by
  unfold Obligations.CalendarFires
  intro e o s h u arg pulse
  refine ⟨fun h1 h2 h8 h9 h10 hreset => occurrenceFire_fires h rfl ⟨h1, h2, h8, h9, h10⟩ hreset, fun hact => calTimer_fires h rfl hact,
    fun hact => ?_, fun hact => ?_, fun hact _ => ⟨fun harmed hmode hlo hhi => ?_, fun hunarmed => ?_⟩,
    fun hact h61 => leapEvent_leaps h rfl hact h61, fun hact hwin => evtWindow_opens h rfl hact rfl hwin⟩
  · exact tpPulse_pulses h rfl hact rfl rfl
  · exact cycPulse_pulses h rfl hact rfl rfl
  · exact stepPermit_steps h rfl hact rfl rfl harmed hmode hlo hhi
  · exact stepPermit_shows_noop h rfl hact rfl hunarmed

end Sys2Proof.Machine
end
